-- ==== Sys2Proof/Word.lean ====
section
/-! DEFINITION. The word types of the machine: bits are numbered from 0 at the least significant bit (00 R8). -/

namespace Sys2Proof

abbrev Byte := BitVec 8
abbrev Half := BitVec 16
abbrev Word := BitVec 32
abbrev DWord := BitVec 64
/-- One bit per lane of a group; lane l is bit l. -/
abbrev LaneMask := BitVec 64

end Sys2Proof
end

