-- ==== Sys2Proof/Config.lean ====
section
/-! DEFINITION. What one module fixes and what the spec leaves open. A constant with a body is a number the spec
states; an `opaque` one is a value the spec does not give, so that nothing can be proved of it (logs 7 to 11). -/

namespace Sys2Proof

/-- Core numbers run from 0 to 511 (00 R4). -/
def Config.coreCount : Nat := 512

/-- Bonded DRAM per die: 192 GiB (00 Table 0.1, 10 R351). -/
def Config.bondedBytes : Nat := 192 * 2 ^ 30

/-- The debug-enable fuse is clear on every production module (11 R389). -/
def Config.debugFuse : Bool := false

/-- Silicon revision B0 and ROM version as shipped (11 Table 11.13, page 0). -/
def Config.siliconRevision : Word := 0x00000100#32
def Config.romVersion : Word := 0x00020000#32

/-- "FJK-SWB2-384", zero-padded to 16 bytes (11 Table 11.13, page 0). -/
def Config.partNumber : List Byte :=
  [0x46#8, 0x4A#8, 0x4B#8, 0x2D#8, 0x53#8, 0x57#8, 0x42#8, 0x32#8, 0x2D#8, 0x33#8, 0x38#8, 0x34#8, 0#8, 0#8, 0#8, 0#8]

/-- FREE: which 16 of a die's 272 positions are harvested, as a number that codes them (00 R4, 11 Table 11.13, page 1). -/
opaque Config.harvestCode : Nat → Nat

/-- FREE: the fused rollback floor of the patch table (11 R393). -/
opaque Config.rollbackFloor : Word

/-- FREE: which second-tier channels are populated, bit 8 d + k (11 Table 11.13, page 9). -/
opaque Config.channels : Half

/-- FREE: which of the orders of the 16 strips the lines of a 2 KiB block of DPA space take, by the block's number, which is
the higher address bits (08 R302). -/
opaque Config.stripCode : Nat → Nat

/-- FREE: the device address at which a KV page, or the state of a slot, lies: context, sequence, head or slot, page, and
which of the pages that the entry has had (07 R272, 08 R434). -/
opaque Config.kvDpa : Nat → Nat → Nat → Nat → Nat → Nat

/-- FREE: where on its die a KV page lies while it is in the second tier: as `kvDpa` (07 R271, R285). -/
opaque Config.kvTier : Nat → Nat → Nat → Nat → Nat → Nat

/-- FREE: the lines that the host-port cache holds (08 Table 8.1 gives no size). -/
opaque Config.hostCacheLines : Nat

/-- FREE: the number from which a stream's link is chosen: source core, device, window or port (11 R371). -/
opaque Config.streamCode : Nat → Nat → Nat → Nat

/-- FREE: the service group of a peer module that serves a line of a window: device, window, line (05 R197). -/
opaque Config.peerService : Nat → Nat → Nat → Nat

/-- FREE: whether a flit in flight on a link that goes down is delivered, by the cycle and the flit's place (11 R371: delivered
or discarded). -/
opaque Config.flitKept : Nat → Nat → Bool

/-- FREE: an 8-bit count of a route record that is above 255 (07 Table 7.14). -/
opaque Config.wideCount : Nat → BitVec 8

/-- FREE: the most bytes that one message of a DOE mailbox carries, above the least of SPDM (11 R385). -/
opaque Config.doeLimit : Nat

/-- FREE: the set of a line within its L2 strip (08 R434). -/
opaque Config.stripSet : Nat → Nat

/-- FREE: the set of a TLB entry: address space, region, page (10 R353). -/
opaque Config.tlbSet : Nat → Nat → Nat → Nat

/-- FREE: the contents of the mask ROM, of which measurement block 1 is the digest (11 R392). -/
opaque Config.maskRom : List Byte

/-- FREE: the certificate chain of SPDM slots 0 and 1 (11 R391). -/
opaque Config.certChain : Nat → List Byte

/-- FREE: the nonce of an SPDM answer, by the count of answers (11 R391). -/
opaque Config.spdmNonce : Nat → List Byte

/-- FREE: the RSA-3072 and the SLH-DSA-SHA2-192s signature over a transcript hash (11 R391). -/
opaque Config.rsaSign : List Byte → List Byte
opaque Config.slhSign : List Byte → List Byte

/-- FREE: the CTExponent of CAPABILITIES (SPDM 1.3). -/
opaque Config.ctExponent : Byte

/-- FREE: whether both signatures over a staged patch table verify (11 R393). -/
opaque Config.patchSigned : List Byte → Bool

/-- FREE: the version and the entry count a staged patch table carries (11 R393). -/
opaque Config.patchVersion : List Byte → Word
opaque Config.patchEntries : List Byte → Nat

/-- FREE: the correctly rounded result of a long operation where the model's enclosure does not decide it (DESIGN CHOICE, log 7):
function number, operand, rounding mode. -/
opaque Config.longValue : Nat → Word → Nat → Word

/-- FREE: 2 to the power of a difference x − y of two FP32 values, correctly rounded, where the model's enclosure does
not decide it (DESIGN CHOICE, log 7): result format, x, y. -/
opaque Config.expValue : Nat → Word → Word → Word

/-- FREE: which of the statuses of a failure a command gets in a state for which the spec names none, by its code: another command
than those that FAILED accepts (11 R376), PREEMPT of a launch that is not admitted, RESUME of one that does not await it (11 R384). -/
opaque Config.openStatus : Nat → Nat

end Sys2Proof
end

