-- ==== Sys2Proof/Syntax.lean ====
section
/-! DEFINITION. The operand fields of every Azlum instruction word and the one inductive `Instr`: a constructor
for each row of spec/opcode_table.json. The fields are those of Tables 2.3 to 2.7 (02 R68, R70) and Tables 6.1 to 6.6
(06 R224); reserved bits are fields too, so that an illegal encoding is a term the field checks refuse.  -/

namespace Sys2Proof

/-- The class of a clause (Table 2.1). -/
inductive Cls where
  | v | m | x | e
  deriving DecidableEq, Repr

/-- Base word fields below OP and LONG (Table 2.3). -/
structure Base where
  guard : BitVec 3
  d : BitVec 7
  a : BitVec 7
  b : BitVec 7
  deriving DecidableEq, Repr

/-- Extension layout R (Table 2.4). -/
structure ExtR where
  gn : Bool
  sd : Bool
  sa : Bool
  sb : Bool
  type : BitVec 5
  scope : BitVec 3
  mod : BitVec 6
  c : BitVec 7
  sc : Bool
  rsv : BitVec 4
  deriving DecidableEq, Repr

/-- Extension layout I (Table 2.5). -/
structure ExtI where
  gn : Bool
  sd : Bool
  sa : Bool
  type : BitVec 5
  imm : BitVec 22
  deriving DecidableEq, Repr

/-- Extension layout M (Table 2.6). -/
structure ExtM where
  gn : Bool
  sd : Bool
  sa : Bool
  fr : Bool
  hint : BitVec 2
  size : BitVec 3
  scope : BitVec 3
  xs : BitVec 2
  off : BitVec 16
  deriving DecidableEq, Repr

/-- Extension layout C (Table 2.7). -/
structure ExtC where
  gn : Bool
  sd : Bool
  sa : Bool
  scope : BitVec 3
  imm : BitVec 24
  deriving DecidableEq, Repr

/-- Opcodes that list layouts R and I. -/
inductive ExtRI where
  | r (x : ExtR)
  | i (x : ExtI)
  deriving DecidableEq, Repr

/-- MM and MMZ (Table 6.1). -/
structure MmWord where
  guard : BitVec 3
  as : Bool
  atile : BitVec 6
  apair : BitVec 5
  ope : BitVec 2
  opo : BitVec 2
  afmt : BitVec 3
  acl : Bool
  rsv : Bool
  deriving DecidableEq, Repr

/-- SCL (Table 6.2). -/
structure SclWord where
  guard : BitVec 3
  j : BitVec 3
  f : BitVec 3
  edge : Bool
  tile : BitVec 6
  lead : Bool
  rsv : BitVec 7
  deriving DecidableEq, Repr

/-- STRM (Table 6.3). -/
structure StrmWord where
  guard : BitVec 3
  j : BitVec 3
  pitch : BitVec 15
  rsv : BitVec 3
  deriving DecidableEq, Repr

/-- PANEL (Table 6.3). -/
structure PanelWord where
  guard : BitVec 3
  j : BitVec 3
  bfmt : BitVec 3
  rsv : BitVec 15
  deriving DecidableEq, Repr

/-- ITER (Table 6.4); `value` is the extension word, present when SRC is 0. -/
structure IterWord where
  guard : BitVec 3
  j : BitVec 3
  field : BitVec 3
  sreg : BitVec 6
  rsv : BitVec 8
  value : BitVec 32
  deriving DecidableEq, Repr

/-- LOOP and its extension (Table 6.5). -/
structure LoopWord where
  guard : BitVec 3
  rev : BitVec 4
  nl : BitVec 2
  rsv : BitVec 15
  count : BitVec 32
  deriving DecidableEq, Repr

/-- XGIVE (Table 6.6). -/
structure XgiveWord where
  guard : BitVec 3
  tile : BitVec 6
  new : BitVec 6
  rsv : BitVec 9
  deriving DecidableEq, Repr

/-- XTAKE (Table 6.6). -/
structure XtakeWord where
  guard : BitVec 3
  tile : BitVec 6
  rsv : BitVec 15
  deriving DecidableEq, Repr

/-- XSIG without its KIND bit, which the constructor tells (Table 6.6). -/
structure XsigWord where
  guard : BitVec 3
  n : BitVec 6
  value : BitVec 14
  deriving DecidableEq, Repr

/-- XWAIT (Table 6.6). -/
structure XwaitWord where
  guard : BitVec 3
  src : Bool
  n : BitVec 6
  value : BitVec 14
  deriving DecidableEq, Repr

/-- XEND (Table 6.6). -/
structure XendWord where
  guard : BitVec 3
  tag : BitVec 21
  deriving DecidableEq, Repr

/-- One constructor per row of spec/opcode_table.json: the instructions, then the steps of the device, which have no
operand words; the agents and objects a step concerns stand in the state (DESIGN CHOICE, log 3). -/
inductive Instr where
  /-- An unassigned opcode traps group-precisely with UNIMPL, even with an empty active set. (R84) -/
  | unassignedOpcode (cls : Cls) (base : Word) (ext : Option Word)
  /-- Integer add, short form. (R144) -/
  | iadd (w : Base)
  /-- Integer add with extension word. (R144) -/
  | iaddLong (w : Base) (x : ExtRI)
  /-- Integer subtract, short form. (R144) -/
  | isub (w : Base)
  /-- Integer subtract with extension word. (R144) -/
  | isubLong (w : Base) (x : ExtRI)
  /-- Integer multiply low, short form. (R144) -/
  | imul (w : Base)
  /-- Integer multiply low with extension word. (R144) -/
  | imulLong (w : Base) (x : ExtRI)
  /-- Integer multiply high, short form. (R144) -/
  | imulh (w : Base)
  /-- Integer multiply high with extension word. (R144) -/
  | imulhLong (w : Base) (x : ExtRI)
  /-- Integer multiply-add. (R144) -/
  | imad (w : Base) (x : ExtR)
  /-- Integer minimum, short form. (R144) -/
  | imin (w : Base)
  /-- Integer minimum with extension word. (R144) -/
  | iminLong (w : Base) (x : ExtRI)
  /-- Integer maximum, short form. (R144) -/
  | imax (w : Base)
  /-- Integer maximum with extension word. (R144) -/
  | imaxLong (w : Base) (x : ExtRI)
  /-- Integer absolute value, short form. (R144) -/
  | iabs (w : Base)
  /-- Integer absolute value with extension word. (R144) -/
  | iabsLong (w : Base) (x : ExtRI)
  /-- Integer negate, short form. (R144) -/
  | ineg (w : Base)
  /-- Integer negate with extension word. (R144) -/
  | inegLong (w : Base) (x : ExtRI)
  /-- Sum of absolute difference and addend. (R144) -/
  | isad (w : Base) (x : ExtR)
  /-- Bitwise and, short form. (R145) -/
  | andW (w : Base)
  /-- Bitwise and with extension word. (R145) -/
  | andLong (w : Base) (x : ExtRI)
  /-- Bitwise or, short form. (R145) -/
  | orW (w : Base)
  /-- Bitwise or with extension word. (R145) -/
  | orLong (w : Base) (x : ExtRI)
  /-- Bitwise exclusive or, short form. (R145) -/
  | xorW (w : Base)
  /-- Bitwise exclusive or with extension word. (R145) -/
  | xorLong (w : Base) (x : ExtRI)
  /-- A and not B, short form. (R145) -/
  | andn (w : Base)
  /-- A and not B with extension word. (R145) -/
  | andnLong (w : Base) (x : ExtRI)
  /-- Bitwise not, short form. (R145) -/
  | notW (w : Base)
  /-- Bitwise not with extension word. (R145) -/
  | notLong (w : Base) (x : ExtRI)
  /-- Shift left, short form. (R145) -/
  | shl (w : Base)
  /-- Shift left with extension word. (R145) -/
  | shlLong (w : Base) (x : ExtRI)
  /-- Logical shift right, short form. (R145) -/
  | shr (w : Base)
  /-- Logical shift right with extension word. (R145) -/
  | shrLong (w : Base) (x : ExtRI)
  /-- Arithmetic shift right, short form. (R145) -/
  | sar (w : Base)
  /-- Arithmetic shift right with extension word. (R145) -/
  | sarLong (w : Base) (x : ExtRI)
  /-- Rotate left, short form. (R145) -/
  | rotl (w : Base)
  /-- Rotate left with extension word. (R145) -/
  | rotlLong (w : Base) (x : ExtRI)
  /-- Population count, short form. (R145) -/
  | popc (w : Base)
  /-- Population count with extension word. (R145) -/
  | popcLong (w : Base) (x : ExtRI)
  /-- Count leading zeros, short form. (R145) -/
  | clz (w : Base)
  /-- Count leading zeros with extension word. (R145) -/
  | clzLong (w : Base) (x : ExtRI)
  /-- Bit reverse, short form. (R145) -/
  | brev (w : Base)
  /-- Bit reverse with extension word. (R145) -/
  | brevLong (w : Base) (x : ExtRI)
  /-- Bit-field extract, short form. (R145) -/
  | bfx (w : Base)
  /-- Bit-field extract with extension word. (R145) -/
  | bfxLong (w : Base) (x : ExtRI)
  /-- Bit-field insert. (R145) -/
  | bfi (w : Base) (x : ExtR)
  /-- Byte permute of A and B. (R145) -/
  | perm (w : Base) (x : ExtR)
  /-- Integer compare into a predicate. (R147) -/
  | icmp (w : Base) (x : ExtRI)
  /-- Float compare into a predicate. (R147) -/
  | fcmp (w : Base) (x : ExtRI)
  /-- Select A or B by a predicate. (R148) -/
  | sel (w : Base) (x : ExtR)
  /-- Predicate logic by a four-entry table. (R149) -/
  | plop (w : Base) (x : ExtR)
  /-- Register move, short form. (R150) -/
  | mov (w : Base)
  /-- Register move with extension word. (R150) -/
  | movLong (w : Base) (x : ExtR)
  /-- Move a 32-bit immediate. (R151) -/
  | movi (w : Base) (imm : Word)
  /-- Address formation, short form. (R152) -/
  | lea (w : Base)
  /-- Address formation with extension word. (R152) -/
  | leaLong (w : Base) (x : ExtRI)
  /-- FP32 add, short form. (R153) -/
  | fadd (w : Base)
  /-- FP32 add with extension word. (R153) -/
  | faddLong (w : Base) (x : ExtRI)
  /-- FP32 subtract, short form. (R153) -/
  | fsub (w : Base)
  /-- FP32 subtract with extension word. (R153) -/
  | fsubLong (w : Base) (x : ExtRI)
  /-- FP32 multiply, short form. (R153) -/
  | fmul (w : Base)
  /-- FP32 multiply with extension word. (R153) -/
  | fmulLong (w : Base) (x : ExtRI)
  /-- FP32 fused multiply-add. (R153) -/
  | ffma (w : Base) (x : ExtR)
  /-- FP32 minimum, short form. (R154) -/
  | fmin (w : Base)
  /-- FP32 minimum with extension word. (R154) -/
  | fminLong (w : Base) (x : ExtRI)
  /-- FP32 maximum, short form. (R154) -/
  | fmax (w : Base)
  /-- FP32 maximum with extension word. (R154) -/
  | fmaxLong (w : Base) (x : ExtRI)
  /-- Scale by a power of two, short form. (R155) -/
  | fscl (w : Base)
  /-- Scale by a power of two with extension word. (R155) -/
  | fsclLong (w : Base) (x : ExtRI)
  /-- Round to integral FP32, short form. (R156) -/
  | frnd (w : Base)
  /-- Round to integral FP32 with extension word. (R156) -/
  | frndLong (w : Base) (x : ExtRI)
  /-- Packed 16-bit add, short form. (R157) -/
  | hadd2 (w : Base)
  /-- Packed 16-bit add with extension word. (R157) -/
  | hadd2Long (w : Base) (x : ExtR)
  /-- Packed 16-bit multiply, short form. (R157) -/
  | hmul2 (w : Base)
  /-- Packed 16-bit multiply with extension word. (R157) -/
  | hmul2Long (w : Base) (x : ExtR)
  /-- Packed 16-bit fused multiply-add. (R157) -/
  | hfma2 (w : Base) (x : ExtR)
  /-- Reciprocal, short form. (R158) -/
  | frcp (w : Base)
  /-- Reciprocal with extension word. (R158) -/
  | frcpLong (w : Base) (x : ExtR)
  /-- Reciprocal square root, short form. (R158) -/
  | frsq (w : Base)
  /-- Reciprocal square root with extension word. (R158) -/
  | frsqLong (w : Base) (x : ExtR)
  /-- Square root, short form. (R158) -/
  | fsqrt (w : Base)
  /-- Square root with extension word. (R158) -/
  | fsqrtLong (w : Base) (x : ExtR)
  /-- Base-2 exponential, short form. (R158) -/
  | fexp2 (w : Base)
  /-- Base-2 exponential with extension word. (R158) -/
  | fexp2Long (w : Base) (x : ExtR)
  /-- Base-2 logarithm, short form. (R158) -/
  | flog2 (w : Base)
  /-- Base-2 logarithm with extension word. (R158) -/
  | flog2Long (w : Base) (x : ExtR)
  /-- Sine in half-turns, short form. (R158) -/
  | fsin (w : Base)
  /-- Sine in half-turns with extension word. (R158) -/
  | fsinLong (w : Base) (x : ExtR)
  /-- Cosine in half-turns, short form. (R158) -/
  | fcos (w : Base)
  /-- Cosine in half-turns with extension word. (R158) -/
  | fcosLong (w : Base) (x : ExtR)
  /-- Hyperbolic tangent, short form. (R158) -/
  | ftanh (w : Base)
  /-- Hyperbolic tangent with extension word. (R158) -/
  | ftanhLong (w : Base) (x : ExtR)
  /-- Format conversion. (R160) -/
  | cvt (w : Base) (x : ExtR)
  /-- Paired format conversion, packing or unpacking. (R161) -/
  | cvtp (w : Base) (x : ExtR)
  /-- Lane shuffle, short form. (R162) -/
  | shfl (w : Base)
  /-- Lane shuffle with extension word. (R162) -/
  | shflLong (w : Base) (x : ExtRI)
  /-- Predicate ballot mask, short form. (R164) -/
  | ballot (w : Base)
  /-- Predicate ballot mask with extension word. (R164) -/
  | ballotLong (w : Base) (x : ExtR)
  /-- Predicate vote, short form. (R165) -/
  | vote (w : Base)
  /-- Predicate vote with extension word. (R165) -/
  | voteLong (w : Base) (x : ExtR)
  /-- Cross-lane reduction, short form. (R163) -/
  | redux (w : Base)
  /-- Cross-lane reduction with extension word. (R163) -/
  | reduxLong (w : Base) (x : ExtR)
  /-- Cross-lane prefix scan, short form. (R163) -/
  | scan (w : Base)
  /-- Cross-lane prefix scan with extension word. (R163) -/
  | scanLong (w : Base) (x : ExtR)
  /-- Broadcast one lane's value, short form. (R166) -/
  | bcast (w : Base)
  /-- Broadcast one lane's value with extension word. (R166) -/
  | bcastLong (w : Base) (x : ExtRI)
  /-- Per-lane random bits and counter increment. (R167) -/
  | vrand (w : Base) (x : ExtR)
  /-- Branch, optionally uniform and hinted. (R168) -/
  | bra (w : Base) (x : ExtC)
  /-- Indirect branch, short form. (R170) -/
  | bri (w : Base)
  /-- Indirect branch with extension word. (R170) -/
  | briLong (w : Base) (x : ExtR)
  /-- Call with link. (R169) -/
  | call (w : Base) (x : ExtC)
  /-- Return, short form. (R170) -/
  | ret (w : Base)
  /-- Return with extension word. (R170) -/
  | retLong (w : Base) (x : ExtR)
  /-- Convergence check, short form. (R173) -/
  | conv (w : Base)
  /-- Convergence check with extension word. (R173) -/
  | convLong (w : Base) (x : ExtR)
  /-- Lane yield, short form. (R172) -/
  | lyield (w : Base)
  /-- Lane yield with extension word. (R172) -/
  | lyieldLong (w : Base) (x : ExtR)
  /-- Pass the issue-priority token, short form. (R174) -/
  | prio (w : Base)
  /-- Pass the issue-priority token with extension word. (R174) -/
  | prioLong (w : Base) (x : ExtR)
  /-- Lane exit, short form. (R171) -/
  | exit (w : Base)
  /-- Lane exit with extension word. (R171) -/
  | exitLong (w : Base) (x : ExtR)
  /-- No operation, short form. (R175) -/
  | nop (w : Base)
  /-- No operation with extension word. (R175) -/
  | nopLong (w : Base) (x : ExtR)
  /-- Scratchpad load, short form. (R185) -/
  | sld (w : Base)
  /-- Scratchpad load with extension word. (R185) -/
  | sldLong (w : Base) (x : ExtM)
  /-- Scratchpad store, short form. (R185) -/
  | sst (w : Base)
  /-- Scratchpad store with extension word. (R185) -/
  | sstLong (w : Base) (x : ExtM)
  /-- Scratchpad atomic. (R196) -/
  | satom (w : Base) (x : ExtM)
  /-- Cluster-scratchpad load, short form. (R186) -/
  | cld (w : Base)
  /-- Cluster-scratchpad load with extension word. (R186) -/
  | cldLong (w : Base) (x : ExtM)
  /-- Cluster-scratchpad store, short form. (R186) -/
  | cst (w : Base)
  /-- Cluster-scratchpad store with extension word. (R186) -/
  | cstLong (w : Base) (x : ExtM)
  /-- Cluster-scratchpad atomic. (R196) -/
  | catom (w : Base) (x : ExtM)
  /-- Global load, short form. (R187) -/
  | gld (w : Base)
  /-- Global load with extension word. (R187) -/
  | gldLong (w : Base) (x : ExtM)
  /-- Global store, short form. (R188) -/
  | gst (w : Base)
  /-- Global store with extension word. (R188) -/
  | gstLong (w : Base) (x : ExtM)
  /-- Global atomic at the home service group. (R197) -/
  | gatom (w : Base) (x : ExtM)
  /-- Global reduction at the home service group. (R197) -/
  | gred (w : Base) (x : ExtM)
  /-- Host load, short form. (R191) -/
  | hld (w : Base)
  /-- Host load with extension word. (R191) -/
  | hldLong (w : Base) (x : ExtM)
  /-- Host store, short form. (R191) -/
  | hst (w : Base)
  /-- Host store with extension word. (R191) -/
  | hstLong (w : Base) (x : ExtM)
  /-- Peer window load. (R192) -/
  | pld (w : Base) (x : ExtM)
  /-- One-sided put into a peer window. (R193) -/
  | put (w : Base) (x : ExtM)
  /-- Peer atomic at the owning module. (R196) -/
  | patom (w : Base) (x : ExtM)
  /-- K-space load with status. (R279) -/
  | kld (w : Base) (x : ExtM)
  /-- K-space store with status. (R279) -/
  | kst (w : Base) (x : ExtM)
  /-- Recurrent-state store with status. (R280) -/
  | ksts (w : Base) (x : ExtM)
  /-- Fence at group scope, short form. (R199) -/
  | fence (w : Base)
  /-- Fence at a stated scope. (R199) -/
  | fenceLong (w : Base) (x : ExtC)
  /-- Device fence that also makes page-table stores visible to walks. (R200) -/
  | fenceWalk (w : Base) (x : ExtC)
  /-- Acquire at group scope, short form. (R199) -/
  | acq (w : Base)
  /-- Acquire at a stated scope. (R199) -/
  | acqLong (w : Base) (x : ExtC)
  /-- Acquire that first writes back and invalidates a victim core's L1. (R201) -/
  | acqRemote (w : Base) (x : ExtC)
  /-- Release at group scope, short form. (R199) -/
  | rel (w : Base)
  /-- Release at a stated scope. (R199) -/
  | relLong (w : Base) (x : ExtC)
  /-- Prefetch, short form. (R190) -/
  | pref (w : Base)
  /-- Prefetch with extension word. (R190) -/
  | prefLong (w : Base) (x : ExtM)
  /-- Barrier expect n. (R203) -/
  | bare (w : Base) (x : ExtC)
  /-- Barrier arrive. (R203) -/
  | bara (w : Base) (x : ExtC)
  /-- Barrier wait. (R203) -/
  | barw (w : Base) (x : ExtC)
  /-- Barrier arrive and wait. (R203) -/
  | baraw (w : Base) (x : ExtC)
  /-- Hand a tile to a new owner. (R206) -/
  | give (w : Base) (x : ExtC)
  /-- Take an offered or named tile, completing asynchronously. (R207) -/
  | take (w : Base) (x : ExtC)
  /-- Query a tile's owner and hand-off bits. (R210) -/
  | ownq (w : Base) (x : ExtC)
  /-- Add to a counter as a release. (R212) -/
  | ctradd (w : Base) (x : ExtC)
  /-- Wait for a counter value, then acquire. (R213) -/
  | ctrwait (w : Base) (x : ExtC)
  /-- Read a counter. (R214) -/
  | ctrrd (w : Base) (x : ExtC)
  /-- Wait for a filled ring slot and return its offset. (R217) -/
  | ringwFill (w : Base) (x : ExtC)
  /-- Wait for a free ring slot and return its offset. (R217) -/
  | ringwFree (w : Base) (x : ExtC)
  /-- Release the slot at the read pointer. (R218) -/
  | ringlFill (w : Base) (x : ExtC)
  /-- Publish the slot at the write pointer. (R218) -/
  | ringlFree (w : Base) (x : ExtC)
  /-- Query a ring's pointers and fill. (R219) -/
  | ringq (w : Base) (x : ExtC)
  /-- Matrix step continuing or opening a pass seeded from the pair. (R231) -/
  | mm (w : MmWord)
  /-- Matrix step opening a pass seeded with +0. (R231) -/
  | mmz (w : MmWord)
  /-- Load 64 scale latches from a scale tile. (R234) -/
  | scl (w : SclWord)
  /-- Stream operand A from the scratchpad. (R237) -/
  | strm (w : StrmWord)
  /-- Name the panel of operand B. (R238) -/
  | panel (w : PanelWord)
  /-- Set an iterator base or stride from an extension word. (R227) -/
  | iterImm (w : IterWord)
  /-- Set an iterator base or stride from a scalar register. (R227) -/
  | iterReg (w : IterWord)
  /-- Run the bundle over a loop nest of up to four levels. (R226) -/
  | loop (w : LoopWord)
  /-- Sequencer gives a tile to a new owner. (R239) -/
  | xgive (w : XgiveWord)
  /-- Sequencer waits to take a tile given to it. (R240) -/
  | xtake (w : XtakeWord)
  /-- Sequencer adds to a counter after earlier issues complete. (R241) -/
  | xsig (w : XsigWord)
  /-- Sequencer arrives at a block barrier after earlier issues complete. (R241) -/
  | xsigBar (w : XsigWord)
  /-- Sequencer issue waits for a counter value. (R241) -/
  | xwait (w : XwaitWord)
  /-- Sequencer pushes a completion record to Q7. (R242) -/
  | xend (w : XendWord)
  /-- Load a copy nest descriptor. (R252) -/
  | cnest (w : Base) (x : ExtC)
  /-- Run a copy nest, optionally producing on a ring. (R253) -/
  | cgo (w : Base) (x : ExtC)
  /-- Copy bytes between engine spaces. (R251) -/
  | cpy (w : Base) (x : ExtC)
  /-- Reduce-store elements into a destination. (R254) -/
  | cred (w : Base) (x : ExtC)
  /-- Quantise values into a format slot. (R256) -/
  | qtz (w : Base) (x : ExtR)
  /-- Dequantise slot elements. (R257) -/
  | dqz (w : Base) (x : ExtR)
  /-- Requantise global data between slots. (R258) -/
  | rqz (w : Base) (x : ExtR)
  /-- Requantise one KV page. (R287) -/
  | rqzKv (w : Base) (x : ExtR)
  /-- Send bytes as a put into a peer window. (R259) -/
  | lsend (w : Base) (x : ExtR)
  /-- Send bytes on a port channel. (R259) -/
  | lsendPort (w : Base) (x : ExtR)
  /-- Receive elements on a port channel and add them. (R260) -/
  | lradd (w : Base) (x : ExtR)
  /-- Bind or unbind a counter to a put window. (R261) -/
  | lwin (w : Base) (x : ExtR)
  /-- Push to a queue, short form. (R262) -/
  | qpush (w : Base)
  /-- Push to a queue with extension word. (R262) -/
  | qpushLong (w : Base) (x : ExtR)
  /-- Pop from a queue, short form. (R262) -/
  | qpop (w : Base)
  /-- Pop from a queue with extension word. (R262) -/
  | qpopLong (w : Base) (x : ExtR)
  /-- Open a draft window over a range of sequences. (R283) -/
  | kopen (w : Base) (x : ExtC)
  /-- Commit a prefix of each held sequence's drafts and close the window. (R284) -/
  | kcommit (w : Base) (x : ExtC)
  /-- Discard a window's drafts and close it. (R284) -/
  | kdrop (w : Base) (x : ExtC)
  /-- Map a zeroed page to an unmapped entry. (R285) -/
  | kmapAlloc (w : Base) (x : ExtC)
  /-- Return a page to the pool. (R285) -/
  | kmapFree (w : Base) (x : ExtC)
  /-- Begin fetching a second-tier page. (R285) -/
  | kmapFetch (w : Base) (x : ExtC)
  /-- Begin moving a page to the second tier. (R285) -/
  | kmapEvict (w : Base) (x : ExtC)
  /-- Set a sequence's committed length. (R285) -/
  | kmapLen (w : Base) (x : ExtC)
  /-- Return an Almanac entry. (R285) -/
  | kmapQuery (w : Base) (x : ExtC)
  /-- Open a reassembly table and route tile rows to experts. (R295) -/
  | route (w : Base) (x : ExtR)
  /-- Return a row to the table its token names. (R297) -/
  | rret (w : Base) (x : ExtR)
  /-- Wait until a reassembly table is IDLE. (R299) -/
  | rxwait (w : Base) (x : ExtR)
  /-- Read a row's choice statuses or the table summary. (R299) -/
  | rxstat (w : Base) (x : ExtR)
  /-- Fold a partial pair into the running attention output. (R290) -/
  | amerge (w : Base) (x : ExtR)
  /-- Online softmax update of scores into P, m, l and alpha. (R289) -/
  | smxup (w : Base) (x : ExtR)
  /-- Read a special register. (R264) -/
  | sread (w : Base) (x : ExtC)
  /-- Write a writable special register. (R264) -/
  | swrite (w : Base) (x : ExtC)
  /-- Set MODE fields under a mask from the next clause. (R265) -/
  | mode (w : Base) (x : ExtC)
  /-- User trap with a 24-bit code. (R266) -/
  | trap (w : Base) (x : ExtC)
  /-- Return from a trap handler, short form. (R267) -/
  | rett (w : Base)
  /-- Return from a trap handler, optionally with .xdrop. (R267) -/
  | rettLong (w : Base) (x : ExtR)
  /-- Make the group not ready for n cycles. (R268) -/
  | sleep (w : Base) (x : ExtC)
  /-- A scheduler selects the next run from its ready groups by age, boost and the priority token, and the run begins. (R328) -/
  | schedulerSelect
  /-- Once loads, stores, long operations and AMERGE have settled, the group enters handler mode at TRAP_ENTRY. (R344) -/
  | trapEntry
  /-- A sequencer or engine fault is delivered to the issuing group as a trap before its next clause, or at once while it waits. (R248) -/
  | deliveredFaultTrap
  /-- A load result lands in its destination, releasing the scoreboard and the wait classes of that load. (R182) -/
  | loadLand
  /-- A store drains to the level that its space and freshness name, and is then complete. (R182) -/
  | storeDrain
  /-- A long vector operation's result lands in every active lane, ending its pending state in class long. (R159) -/
  | longOpLand
  /-- A pending TAKE completes when its tile has owner equal to the slot and LAND 0: OFFER clears and the entry binds. (R207) -/
  | takeComplete
  /-- A deferred barrier arrival is applied once its release actions are complete, decrementing PENDING. (R55) -/
  | arriveApply
  /-- A deferred CTRADD adds to its counter once its release actions are complete. (R212) -/
  | ctraddApply
  /-- A RINGL pointer move is applied once the group's earlier accesses have completed at core scope. (R218) -/
  | ringlApply
  /-- A SLEEP count runs out and the group becomes ready again. (R268) -/
  | sleepExpire
  /-- The write-backs, acknowledgements and invalidations of a REL, ACQ or FENCE complete, and the group proceeds. (R199) -/
  | syncActionsComplete
  /-- A service group takes an atomic or reduction request from its queue and performs it at the home. (R197) -/
  | atomicPerform
  /-- A die applies a stamped bridge message once every earlier message of the sender has been applied. (R305) -/
  | bridgeMessageApply
  /-- A block whose groups, matrix operations and outstanding work are done ends; its tiles, scratchpad, rings and barriers are freed. (R52) -/
  | blockEnd
  /-- A group hands an X clause's bundles to the sequencer's clause queue, waiting while the queue is full. (R220) -/
  | xclauseHandoff
  /-- The sequencer starts the clause at the head of its queue after the previous clause retires, resetting iterators, latches and pass state. (R334) -/
  | seqClauseStart
  /-- A PAIR clause starts on leader and follower in lockstep once the follower has finished its running clause. (R243) -/
  | pairClauseStart
  /-- The sequencer makes one issue of a bundle when all its issue conditions hold. (R222) -/
  | seqIssue
  /-- The joined FP32 results of a completed pass land in the accumulator pair. (R231) -/
  | passWritebackLand
  /-- Once every earlier issue of its clause has completed, an XSIG adds to its counter or arrives at its block barrier. (R241) -/
  | xsigApply
  /-- Once earlier issues complete and Q7 has room, XEND pushes its record to Q7. (R242) -/
  | xendPush
  /-- A sequencer clause retires when its issues have completed and its writebacks have landed. (R334) -/
  | seqClauseRetire
  /-- An engine command reaches the head of its queue, performs its release actions and starts reading and writing. (R245) -/
  | engineCommandStart
  /-- A command retires in push order, adding 1 to its counter and pushing a result record when RES is set. (R246) -/
  | engineCommandRetire
  /-- When every copy of a ring-level iteration has landed, the copy engine publishes one ring slot. (R253) -/
  | cgoSlotPublish
  /-- An engine reads an indirect command record when its queue entry reaches it, and runs it as an instruction. (R263) -/
  | indirectCommand
  /-- An element arriving on a port channel is added into the receiving scratchpad. (R260) -/
  | lraddElementAdd
  /-- Once its three tiles have LAND 0, a ROUTE takes them for the route unit and dispatches its choices. (R295) -/
  | routeDispatch
  /-- A routed row lands in the destination's inbox ring with its token, publishing the slot. (R296) -/
  | inboxLanding
  /-- A return row arrives at its table and is accepted, or discarded and counted as LATE. (R297) -/
  | routeReturnArrival
  /-- A table's timer reaches TIMEOUT and every pending choice becomes TIMEOUT. (R298) -/
  | routeTimeout
  /-- A K-space access is performed at its page's home and its status lands in each lane. (R281) -/
  | kvStatusLand
  /-- A KCOMMIT or KDROP reaches its commit point: lengths, state, pages and window change at one instant. (R284) -/
  | kvCommitPoint
  /-- A page fetch from the second tier completes and the entry becomes RESIDENT. (R285) -/
  | kvFetchComplete
  /-- A page's move to the second tier completes. (R285) -/
  | kvEvictComplete
  /-- A requantised KV page is swapped into its entry with its new encoding, and BUSY clears. (R287) -/
  | rqzKvSwap
  /-- Once both partial tiles have LAND 0, AMERGE folds every row and adds to its cursor counter, indivisibly. (R290) -/
  | amergeFold
  /-- A put's data lands at the receiver and the window's receive counter is increased. (R193) -/
  | putLanding
  /-- The receiver's acknowledgement returns and the sender's send counter is increased. (R193) -/
  | putAck
  /-- A page walk reads its page-table entry and fills the TLB, parks lanes, or records a demand miss. (R353) -/
  | tlbWalkComplete
  /-- Each group of a pre-empted launch stops at its next pre-emption point after its in-flight work settles. (R359) -/
  | preemptionStop
  /-- After all stops, each core releases at device scope, invalidates its L1 and the context image is saved. (R360) -/
  | contextSave
  /-- A pre-empted launch is restored on its original cores, counters and queue entries, and its groups resume. (R362) -/
  | contextRestore
  /-- The firmware admits the oldest record of the highest non-empty queue when its first placement can be made. (R322) -/
  | admission
  /-- The firmware places the next block or gang of an admitted launch on the chosen core, pair or cluster. (R325) -/
  | blockPlacement
  /-- After all blocks of a launch end, every L1 writes back and invalidates, and the launch's completion is reported. (R315) -/
  | kernelBoundary
  /-- An uncorrectable error is retried once; success counts it transient, failure makes it lasting and fences the unit. (R365) -/
  | errorRetry
  /-- A received flit fails its check and is retransmitted; a lasting failure fences the lane and is contained by Table 11.2. (R376) -/
  | flitCheckFail
  /-- A received DOWN flit is forwarded, flits in flight are discarded, windows go DOWN and fabric launches are aborted. (R377) -/
  | downFlitReceive
  /-- A bridge message fails its check, its lane group is fenced, and a second failure puts the module in FAILED. (R376) -/
  | bridgeMessageFail
  /-- A link finishes retraining and returns to service, posting a LINK event. (R377) -/
  | linkUp
  /-- A registrant receives a window's new mode, invalidates its RDC copies of the window and acknowledges. (R375) -/
  | windowModeNotify
  /-- A host port goes down and H-space traffic moves to the remaining port. (R379) -/
  | hostPortDown
  /-- A host write through BAR2 is performed at the home of its DPA. (R379) -/
  | apertureWrite
  /-- A host read through BAR2 reads the home uncached. (R379) -/
  | apertureRead
  /-- A write of 1 to a SLOT_DONE bit clears it. (R381) -/
  | slotDoneClear
  /-- A write to EVR_BASE places the event ring and resets EVR_HEAD, EVR_TAIL and EVR_LOST to 0. (R388) -/
  | evrBaseWrite
  /-- A write to a BAR0 register with no behaviour of its own stores its value, or is ignored if ill-sized or reserved. (R381) -/
  | registerWrite
  /-- Every 600,000 cycles the firmware measures package power and sets the duty value k. (R395) -/
  | powerDutyUpdate
  /-- After 600,000 cycles with no admitted launch, the module enters IDLE. (R395) -/
  | idleEntry
  /-- A sensor crosses its throttle limit; the firmware raises k and posts a THERMAL event. (R396) -/
  | thermalThrottle
  /-- A sensor crosses its halt limit; the firmware pre-empts every admitted launch and admits none. (R396) -/
  | thermalHalt
  /-- Every sensor falls 5 °C below its throttle limit and the halted launches are resumed. (R396) -/
  | thermalRecover
  /-- A sensor crosses its shutdown limit and hardware removes power without any save. (R396) -/
  | thermalShutdown
  /-- The reset pin causes a cold reset of the module. (R394) -/
  | resetPin
  /-- Returns the selected QUERY page. (R384) -/
  | query
  /-- Validates a launch record by R37 and queues it, returning a launch id. (R384) -/
  | launch
  /-- Aborts a launch with KILLED. (R384) -/
  | kill
  /-- Pre-empts an admitted launch. (R384) -/
  | preempt
  /-- Re-queues a pre-empted launch by R323. (R384) -/
  | resume
  /-- Reports a demand page resolved, so that its pending misses are replayed. (R384) -/
  | pageResolve
  /-- Refuses a demand page, parking its pending lanes with PAGE_FAULT. (R384) -/
  | pageRefuse
  /-- Acts as a FENCE .walk for an address space. (R384) -/
  | ptInvalidate
  /-- Creates a KV context with the parameters of Table 7.1. (R384) -/
  | kvCreate
  /-- Destroys a KV context not named by any launch. (R384) -/
  | kvDestroy
  /-- Changes a KV context's page pool. (R384) -/
  | kvPool
  /-- Creates a route table with POLICY and TIMEOUT. (R384) -/
  | routeCreate
  /-- Sets destination entries of a route table. (R384) -/
  | routeSet
  /-- Destroys a route table not in use. (R384) -/
  | routeDestroy
  /-- Exposes a put window with its target, rights and source mask. (R373) -/
  | windowExpose
  /-- Registers a peer's window, fetching its length, rights and mode over the fabric. (R373) -/
  | windowRegister
  /-- Switches a window between main and fall-back mode across all registrants. (R375) -/
  | windowMode
  /-- Removes a window exposure or registration. (R384) -/
  | windowRemove
  /-- Divides the clusters into compute partitions. (R390) -/
  | partitionSet
  /-- Sets the device id, partition key and route map. (R371) -/
  | fabricConfig
  /-- Resets the fabric after a partition has gone down, so that links retrain. (R377) -/
  | fabricReset
  /-- Places or withdraws BAR2's aperture onto DPA space. (R384) -/
  | apertureSet
  /-- Claims ownership when OWNER is none. (R389) -/
  | ownerClaim
  /-- The owner offers ownership to a target master. (R389) -/
  | ownerHandover
  /-- The offered master takes ownership. (R389) -/
  | ownerAccept
  /-- Sets OWNER and OFFER to none. (R389) -/
  | ownerRelease
  /-- Carries one SPDM 1.3 request and returns its response. (R391) -/
  | spdm
  /-- SPDM request that returns the supported versions. (R391) -/
  | getVersion
  /-- SPDM request that returns capabilities. (R391) -/
  | getCapabilities
  /-- SPDM request that negotiates RSASSA-3072 and SHA-384. (R391) -/
  | negotiateAlgorithms
  /-- SPDM request that returns certificate chain digests. (R391) -/
  | getDigests
  /-- SPDM request that returns a certificate chain from slot 0 or 1. (R391) -/
  | getCertificate
  /-- SPDM request answered with a doubly signed challenge response. (R391) -/
  | challenge
  /-- SPDM request that returns the measurement blocks of Table 11.7, signed. (R392) -/
  | getMeasurements
  /-- SPDM request answered with the error UnsupportedRequest. (R391) -/
  | keyExchange
  /-- SPDM chunking request carrying part of a large request. (R385) -/
  | chunkSend
  /-- SPDM chunking request returning part of a large response. (R385) -/
  | chunkGet
  /-- Writes a patch-table chunk and checks the table's signatures and version at the last chunk. (R393) -/
  | patchLoad
  /-- Warm reset: kills launches with reports and clears contexts, tables, windows and partitions. (R394) -/
  | resetWarm
  /-- Cold reset: ends launches without report and clears memory, owner and patches. (R394) -/
  | resetCold
  /-- Sets the state ACTIVE, leaving STANDBY if in it, and may set the power cap. (R395) -/
  | powerSetActive
  /-- Enters STANDBY when no launch, fault record or fabric change is outstanding. (R395) -/
  | powerSetStandby
  /-- A write to DOORBELL, or the arrival of an MCTP command message, rings a command slot, which is then ignored or taken and executed. (R382) -/
  | doorbell
  /-- A host port that was down comes back up, and H-space traffic again uses the port selected by address bit 12. (R379) -/
  | hostPortUp
  /-- A Goalar link goes down because its partner sleeps, resets or is lost, moving its streams and making peers unreachable. (R372) -/
  | linkGoesDown
  /-- A peer's PLD request arrives at the owning module and is served from its window at the home. (R192) -/
  | remoteReadArrival
  /-- A peer's WINDOW_REGISTER request arrives and the exposing module answers with length, rights and mode if it exposes the window to that device. (R373) -/
  | windowRegisterFetch
  /-- A sensor falls back below its throttle limit and a THERMAL event of level 0 is posted. (R396) -/
  | backBelowThrottle
  deriving DecidableEq, Repr

end Sys2Proof
end

