-- ==== Sys2Proof/Machine/State.lean ====
section
/-! DEFINITION. The state of the module as plain data: everything spec/ gives the machine (01 R14, Table 1.1, and the
objects the firmware, the dies, the fabric and the host port hold), the reasons a step can stop, and the state right
after a cold reset. Sparse contents are lists of key and value pairs in one canonical form (Machine/Memory.lean). -/

namespace Sys2Proof.Machine

/-- Sparse bytes: addresses strictly rising, no entry equal to the byte 0 that an unlisted address reads as (DESIGN CHOICE, log 1). -/
abbrev Memory := List Host.Cell

/-- Sparse words by index, in the same canonical form. -/
abbrev WordMap := List (Nat × Word)

/-- Sparse numbers by index, in the same canonical form. -/
abbrev NatMap := List (Nat × Nat)

/-! ## Agents and what a step concerns -/

/-- The engines that take commands (06 R245). -/
inductive Engine where
  | copy | quant | link
  deriving DecidableEq, Repr

/-- Where a checking code found an error (10 Table 10.9, R363, R366, R368). -/
inductive ErrorSite where
  /-- A line of bonded DRAM or the second tier, by its line's DPA. -/
  | memLine (dpa : Nat)
  /-- A clean L1 line of a core, by the position of the line in the core's list. -/
  | l1Line (core index : Nat)
  /-- A line of an L2 strip of a die, by the position in the die's list. -/
  | l2Line (die index : Nat)
  /-- A span of a die's RDC, by its position. -/
  | rdcLine (die index : Nat)
  /-- Core state: a tile, a scratchpad word, the sequencer, barrier state or group context. -/
  | coreState (core : Nat)
  /-- Dirty bytes of a word of an L1 line of a core, which are core state too (R363, R368), by the position of the line. -/
  | dirtyWord (core index word : Nat)
  /-- A request of a group at an atomic service group. -/
  | service (core slot id part : Nat)
  /-- A request of a CRED or of a peer at the service groups of a die, by its position in their queues. -/
  | request (die index : Nat)
  /-- Data of a peer window or of host memory that a pending load is about to return. -/
  | remoteRead (core slot id part : Nat)
  /-- The data of a KV page. -/
  | kvPage (ctx seq head page : Nat)
  deriving DecidableEq, Repr

/-- What became of a flit whose check failed at a link (11 R376). -/
inductive FlitFailure where
  /-- The retransmission succeeded. -/
  | transient
  /-- The payload check fails for good; the launch the header's CTX field names, if any. -/
  | payload (launch : Option Nat)
  /-- The header check fails for good. -/
  | header
  deriving DecidableEq, Repr

/-- The agents and objects that a step of the device concerns, and what the outside world supplies with it (DESIGN CHOICE, log 3).
A step reads the fields that its description names. -/
structure Sel where
  core : Nat
  sched : Nat
  slot : Nat
  id : Nat
  part : Nat
  engine : Engine
  table : Nat
  die : Nat
  index : Nat
  launch : Nat
  block : Nat
  ctx : Nat
  seq : Nat
  head : Nat
  page : Nat
  device : Nat
  window : Nat
  link : Nat
  port : Nat
  offset : Nat
  count : Nat
  value : DWord
  bytes : List Byte
  master : Nat
  pick : Nat
  sensor : Nat
  flag : Bool
  site : ErrorSite
  failure : FlitFailure
  deriving DecidableEq, Repr

def Sel.none : Sel :=
  { core := 0, sched := 0, slot := 0, id := 0, part := 0, engine := .copy, table := 0, die := 0, index := 0, launch := 0
    block := 0, ctx := 0, seq := 0, head := 0, page := 0, device := 0, window := 0, link := 0, port := 0, offset := 0
    count := 0, value := 0#64, bytes := [], master := 0, pick := 0, sensor := 0, flag := false, site := .coreState 0
    failure := .transient }

/-! ## Values and traps -/

/-- An exact extended real: NaN, an infinity, or ± m × 2^e; zeros keep a sign (03 R105, R112, R125). -/
inductive Num where
  | nan
  | inf (neg : Bool)
  | fin (neg : Bool) (m : Nat) (e : Int)
  deriving DecidableEq, Repr

/-- Lane states (01 Table 1.14). -/
inductive LaneState where
  | run | yielded | parked | exited
  deriving DecidableEq, Repr

/-- Trap causes (10 Table 10.1). -/
inductive Cause where
  | illegalEncoding | unimpl | tileOwner | tileState | bankConflict | addrRegion | addrAlign | accessRights
  | pageFault | barOverflow | queueFault | kvFault | routeFault | arith | userTrap | uncorrectable | gangLost
  | preempt
  deriving DecidableEq, Repr

/-- The fields of a lane fault record (01 Table 1.3). -/
structure Lfr where
  addr : DWord
  pc : Word
  detail : Half
  valid : Bool
  cause : Byte
  deriving DecidableEq, Repr

/-- Where the instruction that a fault or trap names stands: its clause's header and offset, its word index, its
base and extension words; `chained` says that the clause is the chained one of its run (10 R341, R342, R348). -/
structure Site where
  hdrOff : Word
  hdr : Word
  chained : Bool
  wordIx : Nat
  base : Word
  ext : Word
  deriving DecidableEq, Repr

/-- Where a trap comes from (10 Table 10.2, ORIGIN; R340). -/
inductive Origin where
  | group | sequencer
  | engine (e : Engine) (cmd : Nat)
  | module
  deriving DecidableEq, Repr

/-- What TRAP_CAUSE and TRAP_WORDS hold of a trap, and the OPLOG reads it shows: for each lane the values of the
successive reads (02 R89, R90, 10 R341, R342, R349). -/
structure Trap where
  cause : Cause
  word : BitVec 4
  chain : Bool
  lanef : Bool
  reason : BitVec 4
  origin : Origin
  ctx : BitVec 2
  lane : BitVec 6
  info : Word
  words : DWord
  view : List (List Word)
  deriving DecidableEq, Repr

/-! ## Pending operations of a group -/

/-- Where one lane of an access goes once its location is formed (05 Table 5.2, 10 R351, R353). -/
inductive Target where
  /-- A byte offset of a core's scratchpad. -/
  | spad (core addr : Nat)
  /-- A device physical address. -/
  | dram (dpa : Nat)
  /-- A demand page whose translation is not known yet: region, page, and whether the walk found a demand miss. -/
  | walk (region page : Nat) (miss : Bool)
  /-- A host physical address. -/
  | host (pa : Nat)
  /-- An offset of a peer window, with the window's mode when the access issued (11 R375). -/
  | peer (device window offset : Nat) (fallBack : Bool)
  deriving DecidableEq, Repr

inductive Space where
  | s | c | g | h | p
  deriving DecidableEq, Repr

inductive AccKind where
  | load | store | atom | red
  deriving DecidableEq, Repr

/-- How far one lane of an access has got: not begun; on its way to its home, or performed there and not acknowledged; held
before a full service-group queue; in that queue (09 R336); complete; parked. -/
inductive LaneProgress where
  | waiting | sent | held | queued | done | parked
  deriving DecidableEq, Repr

/-- One lane of an access with the operand values read at issue (10 R348) and the request it belongs to (05 R184). -/
structure LaneAcc where
  lane : Nat
  loc : DWord
  a : DWord
  b : DWord
  data : List Word
  target : Target
  part : Nat
  progress : LaneProgress
  deriving DecidableEq, Repr

/-- A memory access in flight (05 R176 to R184). `win` is the window map at issue, through which a result lands
even when its tile has been given away (05 R206); `behind` names the earlier accesses of the group behind which it is logged
(10 R355). -/
structure Access where
  site : Site
  kind : AccKind
  space : Space
  size : Nat
  fresh : Bool
  hint : BitVec 2
  aop : BitVec 4
  dReg : Nat
  scalar : Bool
  win : List (Option Nat)
  logged : Bool
  behind : List Nat
  lanes : List LaneAcc
  deriving DecidableEq, Repr

inductive KvOp where
  | kld | kst | ksts
  deriving DecidableEq, Repr

/-- Where a lane's write to a page homed on the other die is (08 R305). -/
inductive KvStage where
  | issued
  | crossing
  | arrived
  /-- Performed; its status is on its way. -/
  | answered
  deriving DecidableEq, Repr

structure KvLane where
  lane : Nat
  sel : Word
  pos : Word
  data : Word
  stage : KvStage
  deriving DecidableEq, Repr

/-- A K-space access in flight (07 R276 to R281). -/
structure KvAccess where
  site : Site
  op : KvOp
  ctx : Nat
  fmt : Word
  dReg : Nat
  stReg : Nat
  tag : Option Nat
  win : List (Option Nat)
  scalarSel : Bool
  lanes : List KvLane
  deriving DecidableEq, Repr

/-- The KV control instructions (07 R282). -/
inductive KvCtlOp where
  | kopen | kcommit | kdrop | alloc | free | fetch | evict | len | query
  deriving DecidableEq, Repr

structure KvCtl where
  site : Site
  op : KvCtlOp
  ctx : Nat
  lane : Nat
  window : Nat
  sel : DWord
  vec : Bool
  cv : Bool
  ctr : Nat
  n : Nat
  dReg : Nat
  /-- Where its writes to the other die are (08 R305). -/
  stage : KvStage
  deriving DecidableEq, Repr

/-- How a TAKE names its tile (05 Table 5.6). -/
inductive TakeSel where
  | tile (t : Nat)
  | offered
  deriving DecidableEq, Repr

/-- Destination of a queue pop (06 R262). -/
structure PopDst where
  scalar : Bool
  wide : Bool
  reg : Nat
  lanes : LaneMask
  win : List (Option Nat)
  deriving DecidableEq, Repr

/-- A source of a compare: values read already, by lane, or a register that is still pending. -/
inductive CmpSrc where
  | vals (vs : List DWord)
  | reg (scalar : Bool) (n : Nat)
  deriving DecidableEq, Repr

/-- A compare that issued with pending sources, with the window in which it reads them (02 R67). -/
structure PendingCmp where
  float : Bool
  type : BitVec 5
  cond : Nat
  pred : Nat
  scalar : Bool
  lanes : LaneMask
  a : CmpSrc
  b : CmpSrc
  mode : Word
  win : List (Option Nat)
  deriving DecidableEq, Repr

/-- Barrier kinds (05 Table 5.5). -/
inductive BarKind where
  | block | cluster | die | device
  deriving DecidableEq, Repr

/-- An operation of a group that has issued and is not complete. -/
inductive PendOp where
  | access (a : Access)
  | kv (a : KvAccess)
  | kvCtl (c : KvCtl)
  /-- A long vector operation with the values it will land: register, lane, value (04 R159). A scalar
  destination is held apart. -/
  | long (win : List (Option Nat)) (writes : List (Nat × Nat × Word)) (scalar : Option (Nat × DWord))
  | pop (q : Nat) (dst : PopDst)
  | take (sel : TakeSel) (bind : Option Nat)
  | cmp (c : PendingCmp)
  /-- BARA, and the first half of BARAW (05 R203). -/
  | arrive (kind : BarKind) (id : Nat) (thenWait : Bool)
  /-- BARE behind an arrival of the group at the same barrier that is not applied yet (01 R55), with the OPLOG reads of its
  issue (02 R90). -/
  | expect (site : Site) (kind : BarKind) (id count : Nat) (view : List (List Word))
  /-- The arrival at a block barrier of a group that has ended (01 R47), until its release is complete (01 R56). -/
  | leave (id : Nat)
  | ctradd (k : Nat) (v : DWord) (scope : Nat)
  | ringl (ring : Nat) (free : Bool)
  /-- AMERGE before its fold (07 R290). -/
  | amerge (site : Site) (pair : Nat) (oReg : Nat) (alpha : List Word) (na : Bool) (rows : LaneMask) (ctr : Nat)
      (win : List (Option Nat))
  /-- RRET before its row has left the scratchpad (07 R297). -/
  | rret (token : DWord) (addr : Nat)
  /-- A prefetch into L1 that has started and waits for the way it replaces: address and line (05 R190). -/
  | pref (va dpa : Nat) (hint : BitVec 2)
  deriving DecidableEq, Repr

/-- A pending operation and its place in program order. -/
structure Pend where
  id : Nat
  op : PendOp
  deriving DecidableEq, Repr

/-- The synchronisation instructions whose actions are under way (05 R199 to R201). -/
structure SyncOp where
  rel : Bool
  acq : Bool
  scope : Nat
  walk : Bool
  victim : Option Nat
  mark : Nat
  sent : Bool
  deriving DecidableEq, Repr

/-! ## Sequencer -/

/-- What one X word says, with scalar values read at hand-off (06 R225). -/
inductive SlotWord where
  | mm (w : MmWord) (zero : Bool)
  | scl (w : SclWord)
  | strm (w : StrmWord)
  | panel (w : PanelWord)
  | iter (j field : Nat) (value : Word)
  | loop (w : LoopWord)
  | xgive (tile new : Nat)
  | xtake (tile : Nat)
  | xsig (n value : Nat)
  | xbar (n : Nat)
  | xwait (n : Nat) (v : DWord)
  | xend (tag : BitVec 21)
  deriving DecidableEq, Repr

structure BundleWord where
  ix : Nat
  base : Word
  word : SlotWord
  deriving DecidableEq, Repr

/-- An X clause in the clause queue (06 R220), with its place in the core's order of issue. -/
structure XClause where
  id : Nat
  launch : Nat
  block : Nat
  slot : Nat
  hdrOff : Word
  hdr : Word
  bundles : List (List BundleWord)
  pair : Bool
  predicted : Bool
  deriving DecidableEq, Repr

/-- A base and four strides (06 R221). -/
structure Iter where
  base : Word
  strides : List Word
  deriving DecidableEq, Repr

structure Latch where
  scale : Num
  zero : Int
  deriving DecidableEq, Repr

/-- A latch write on its way: the issue count at which it lands (06 R235). -/
structure LatchWrite where
  due : Nat
  col : Bool
  latches : List Latch
  deriving DecidableEq, Repr

/-- An OPEN pass (06 R221, R231): 4,096 even chains, 4,096 odd chains, the captured latches. -/
structure Pass where
  pair : Nat
  afmt : BitVec 3
  bfmt : BitVec 3
  acl : Bool
  step : Nat
  even : List Num
  odd : List (Option Num)
  rowCap : List Latch
  colCap : List Latch
  deriving DecidableEq, Repr

/-- A joined pass on its way to its pair, with the issue that joined it (06 R231). -/
structure Writeback where
  issue : Nat
  pair : Nat
  acl : Bool
  data : List Word
  deriving DecidableEq, Repr

/-- An XSIG or XEND that waits for the earlier issues of its clause (06 R241, R242). -/
inductive SeqSignal where
  | add (n value : Nat)
  | bar (n : Nat)
  | done (tag : BitVec 21)
  deriving DecidableEq, Repr

/-- A core's part in a PAIR clause (06 R243). -/
inductive PairRole where
  | own | leader | follower
  deriving DecidableEq, Repr

/-- The clause a sequencer runs (06 R221, R222). -/
structure SeqRun where
  clause : XClause
  bundle : Nat
  nestPos : Nat
  issue : Nat
  iters : List Iter
  rows : List Latch
  cols : List Latch
  latchWrites : List LatchWrite
  pass : Option Pass
  writebacks : List Writeback
  signals : List (Nat × SeqSignal)
  /-- Tiles given, each with the issue that gave it, whose LAND awaits the writebacks of earlier issues (06 R239). -/
  giveLand : List (Nat × Nat)
  stopped : Option Trap
  role : PairRole
  deriving DecidableEq, Repr

/-! ## Engines -/

/-- The engine commands (06 R250 to R263). -/
inductive EngOp where
  | cnest | cgo | cpy | cred | qtz | dqz | rqz | rqzKv | lsend | lsendPort | lradd | lwin
  deriving DecidableEq, Repr

/-- A copy nest (06 Table 6.13). -/
structure Nest where
  nl : Nat
  elem : Nat
  counts : List Nat
  sstride : List Int
  dstride : List Int
  deriving DecidableEq, Repr

structure NestSet where
  launch : Nat
  block : Nat
  ctx : Nat
  set : Nat
  nest : Nest
  deriving DecidableEq, Repr

/-- A command from push to retirement (06 R245, R246). `entry` is the pushed queue entry of an indirect command;
`mark` is the issuing group's place in program order, for the release. -/
structure EngCmd where
  id : Nat
  launch : Nat
  block : Nat
  slot : Nat
  op : EngOp
  base : Word
  ext : Word
  vd : DWord
  va : DWord
  vb : DWord
  vc : DWord
  vd1 : DWord
  mark : Nat
  started : Bool
  progress : Nat
  published : Nat
  buffer : List Byte
  acks : Nat
  finished : Bool
  fault : Option Trap
  status : Byte
  /-- The page whose translation it awaits: region and page (10 R355). -/
  page : Option (Nat × Nat)
  deriving DecidableEq, Repr

/-- An engine's commands in push order, its nest sets (copy engine), the faults of queue entries that could not be
read as commands, by the place of their push (06 R263), and the contexts that took the last grant of each queue, by their
place in the round: the store queue's second, the other's first (09 R335). -/
structure EngineState where
  cmds : List EngCmd
  nests : List NestSet
  bad : List (Nat × Trap)
  granted : Nat × Nat
  deriving DecidableEq, Repr

/-! ## Core -/

/-- A queue entry, the block it belongs to (01 R25), the slot it comes from and its place in push order. -/
structure QEntry where
  launch : Nat
  block : Nat
  slot : Nat
  id : Nat
  value : DWord
  deriving DecidableEq, Repr

/-- PENDING, MEMBERS, PHASE; `leaving` counts the members that go at the next phase reset (01 R47), `sent` that a
segment's arrival is on the wires, `extra` arrivals that count in the next phase (01 R55, R56). -/
structure Barrier where
  pending : Nat
  members : Nat
  phase : Bool
  leaving : Nat
  sent : Bool
  extra : Nat
  deriving DecidableEq, Repr

/-- A segment of a cluster, die or device barrier (01 R53). -/
structure Segment where
  launch : Nat
  instance_ : Nat
  kind : BarKind
  id : Nat
  bar : Barrier
  deriving DecidableEq, Repr

/-- A tile's owner field and hand-off bits (01 R22, 05 R204). LAND is 1 while something it waits for has not landed:
`waits` names each giving group and its place in program order, `seqWait` says that the sequencer's writebacks are
awaited. -/
structure Tile where
  owner : Nat
  offer : Bool
  land : Bool
  waits : List (Nat × Nat)
  seqWait : Bool
  deriving DecidableEq, Repr

/-- A destination of routed rows (07 R292). -/
structure RouteDest where
  id : Nat
  device : Nat
  core : Nat
  rank : Nat
  launch : Nat
  ring : Nat
  cap : Nat
  deriving DecidableEq, Repr

/-- A choice of a reassembly table (07 R293, R299). -/
structure RxChoice where
  dest : Nat
  weight : Word
  status : Nat
  pending : Bool
  redirected : Bool
  device : Nat
  core : Nat
  launch : Nat
  block : Nat
  row : List Half
  deriving DecidableEq, Repr

structure RxRow where
  nch : Nat
  entries : List (Nat × Word)
  choices : List RxChoice
  deriving DecidableEq, Repr

/-- A physical reassembly table (01 R28, 07 R295 to R299). -/
structure RxTable where
  used : Bool
  open_ : Bool
  dispatched : Bool
  launch : Nat
  block : Nat
  slot : Nat
  mark : Nat
  pair : Nat
  inTile : Nat
  gen : Word
  late : Half
  rows : List RxRow
  bf16 : Bool
  ctr : Nat
  res : Bool
  policyNext : Bool
  timeout : Nat
  start : Nat
  timedOut : Bool
  dests : List RouteDest
  deriving DecidableEq, Repr

/-- A resident block (01 R27, R28, R39, R40). -/
structure Block where
  launch : Nat
  index : Nat
  slots : List Nat
  tiles : List Nat
  spadBase : Nat
  spadSize : Nat
  rings : List (Nat × Nat)
  bars : List (Nat × Nat)
  tables : List (Nat × Nat)
  /-- Engine and store drops of the block: cause and address of the first (10 R357). -/
  incident : Option (Nat × Nat)
  /-- Its gang has been lost: it has left its segments already (10 R364). -/
  lost : Bool
  deriving DecidableEq, Repr

/-- What predicted clauses hold back, in their order (09 R332). -/
inductive PredItem where
  | cmd (e : Engine) (k : EngCmd)
  | push (q : Nat) (v : DWord)
  /-- An X clause that has been handed off, by its place in the order of issue: it is predicted until its turn comes. -/
  | clause (id : Nat)
  deriving DecidableEq, Repr

/-- What the issue of a predicted clause may have moved of the lanes, as the branch left it: PCs and lane states, the resume
header, the lanes' own, and LYIELD's marks (09 R332, R333). -/
structure PredFrame where
  pcs : List Word
  states : List LaneState
  hdr : Option Word
  laneHdr : List (Option Word)
  marks : LaneMask
  deriving DecidableEq, Repr

/-- The state of a group in predicted mode (09 R331, R332). `matched` says that the branch has resolved as hinted and
the withheld items are on their way out. -/
structure Predicted where
  braPos : Word
  hdrOff : Word
  exec : LaneMask
  lane : Nat
  pred : Nat
  gn : Bool
  hintTaken : Bool
  taken : Word
  next : Word
  clauses : Nat
  before : PredFrame
  items : List PredItem
  matched : Bool
  heldTrap : Option Trap
  /-- Where the clause that the held trap stopped has left its lanes. -/
  heldAt : Word
  deriving DecidableEq, Repr

/-- An access entry of the operand log: the instruction, and the lane, A, B and data values of every active lane as they
were read at issue (10 R348); `id` is the access's place in program order. -/
structure OplogEntry where
  id : Nat
  site : Site
  lanes : List (Nat × DWord × DWord × List Word)
  deriving DecidableEq, Repr

/-- A lane's fault entry of the operand log: the instruction that last parked the lane, its operand values, and the
PC the lane had reached (10 R347, R348). -/
structure FaultEntry where
  cause : Cause
  site : Site
  a : DWord
  b : DWord
  data : List Word
  reached : Word
  deriving DecidableEq, Repr

/-- A fault found after its lane had gone on, which parks the lane at the end of the run (10 R347). -/
structure LateFault where
  lane : Nat
  cause : Cause
  detail : Nat
  addr : DWord
  site : Site
  a : DWord
  b : DWord
  data : List Word
  deriving DecidableEq, Repr

/-- Why a group is not ready (02 R66, 09 R327). -/
inductive Wait where
  | none
  | barrier (kind : BarKind) (id : Nat)
  | counter (k : Nat) (v : DWord) (scope : Nat)
  | ring (ring : Nat) (free : Bool) (n : Nat) (dReg : Nat)
  | push (q : Nat) (v : DWord)
  | sleep (until_ : Nat)
  /-- A sleep of a group that pre-emption has stopped: the count that is left of it (06 R268). -/
  | sleepLeft (n : Nat)
  | rx (table : Nat)
  /-- A hand-off that found the clause queue full: the clause that enters it (06 R220). -/
  | handoff (clause : XClause)
  | sync (op : SyncOp)
  /-- An atomic or reduction of the group, by its place in program order, whose requests have not all come into the queues of
  their service groups (09 R336). -/
  | service (id : Nat)
  /-- An access that waits for an entry of the operand log: the access, the lanes that fault at its issue, and those
  that fault late (10 R348). -/
  | oplog (a : Access) (now late : List LateFault)
  /-- An instruction that a pending TAKE holds up (05 R208). -/
  | take
  /-- A fetch of code from a demand page (10 R435): region, page and the issue address. -/
  | fetch (region page : Nat) (addr : Word)
  deriving DecidableEq, Repr

/-- A run of a clause or a hold-chained pair of clauses (02 R66, R85). -/
structure Run where
  slot : Nat
  /-- Offset of the first header of the run, the issue address unless the run resumes inside a clause. -/
  first : Word
  /-- Offset of the header of the clause being executed. -/
  cur : Word
  /-- That clause's header. -/
  hdr : Word
  chained : Bool
  /-- Offset of the next word. -/
  pos : Word
  exec : LaneMask
  /-- Words below this offset belong to a group of instructions that check_group has passed. -/
  checked : Word
  /-- The current clause's WAIT mask has been met. -/
  waited : Bool
  /-- Lanes that LYIELD has marked (01 R46). -/
  marked : LaneMask
  /-- The words of the run from `first` on, as they were fetched (10 R435). -/
  code : List Word
  deriving DecidableEq, Repr

/-- Handler mode: the trap being handled, the handler PCs and handler lane states, the OPLOG position (10 R344);
operations numbered from `mark` on were issued by the handler; a wait that the trap interrupted, with the run that goes
on behind it, comes back at RETT (06 R248). `resume` is the resume header of the handler's own issue, after a prediction
abandoned or a run stopped in the handler; the frame's is the group's (02 R91, 09 R333, 10 R359). -/
structure Handler where
  trap : Trap
  mark : Nat
  wait : Wait
  cont : Option Run
  resume : Option Word
  pcs : List Word
  lanes : List LaneState
  readPos : Nat
  deriving DecidableEq, Repr

/-- A group (01 Table 1.1). -/
structure Group where
  launch : Nat
  block : Nat
  index : Nat
  ended : Bool
  sregs : List DWord
  preds : List LaneMask
  lpc : List Word
  lanes : List LaneState
  lfr : List Lfr
  mode : Word
  modeNow : Word
  winmap : List (Option Nat)
  handler : Option Handler
  resumeHdr : Option Word
  laneHdr : List (Option Word)
  due : Option Trap
  delivered : List Trap
  gangLost : Bool
  oplog : List (Option OplogEntry)
  faultLog : List (Option FaultEntry)
  late : List LateFault
  tokens : List ((BarKind × Nat) × Bool)
  pend : List Pend
  wait : Wait
  cont : Option Run
  predicted : Option Predicted
  ready : Bool
  age : Nat
  stopped : Bool
  /-- Lanes that LYIELD had marked in a run that pre-emption stopped: the run that resumes it keeps the marks. -/
  marks : LaneMask
  /-- The stop cause that a saved group records (10 R361). -/
  stopCause : Option Cause
  deriving DecidableEq, Repr

/-- A scheduler (09 R328): the run in progress, the holder of the issue-priority token, the group of the last run and
how many runs it has had since a run of any other group. -/
structure Scheduler where
  run : Option Run
  holder : Option Nat
  last : Option Nat
  streak : Nat
  deriving DecidableEq, Repr

/-- A line of L1 (08 R303); the position in the list is the recency, most recent first. -/
structure L1Line where
  asid : Nat
  va : Nat
  dpa : Nat
  valid : BitVec 32
  dirty : BitVec 128
  prio : Nat
  ro : BitVec 32
  data : Memory
  /-- The bytes of each write-back of the line that is not acknowledged, oldest first. -/
  wb : List (BitVec 128)
  deriving DecidableEq, Repr

/-- A core. -/
structure Core where
  groups : List (Nat × Group)
  blocks : List Block
  tiles : List Tile
  tileData : Memory
  panels : Memory
  spad : Memory
  counters : List DWord
  queues : List (List QEntry)
  tables : List RxTable
  bars : List Barrier
  segs : List Segment
  scheds : List Scheduler
  seqQueue : List XClause
  seqRun : Option SeqRun
  copy : EngineState
  quant : EngineState
  link : EngineState
  l1 : List L1Line
  /-- Write-backs sent to a home and not yet acknowledged. -/
  wbOut : Nat
  /-- Numbers the operations and commands of this core in order of issue. -/
  nextId : Nat
  deriving DecidableEq, Repr

/-! ## Dies -/

/-- An element of a CRED in space G on its way to its home (06 R254): the command, the destination, the conversion, the
anchor, and the source pattern. -/
structure CredElem where
  core : Nat
  id : Nat
  dpa : Nat
  conv : Nat
  anchor : Nat
  src : Nat
  deriving DecidableEq, Repr

/-- What a bridge message or an acknowledgement answers. -/
inductive AckRef where
  | none
  | part (core slot id part : Nat)
  /-- A write-back of a line of a core's L1. -/
  | writeback (core asid va : Nat)
  | engine (core : Nat) (e : Engine) (id : Nat)
  /-- A put of a peer that has landed (11 R374), by its number. -/
  | put (id : Nat)
  /-- A write of the host through the aperture (11 R379). -/
  | host
  /-- An atomic of a peer: the bytes that its answer carries. -/
  | reply (bytes : List Byte)
  /-- Lanes of a KST or KSTS with their statuses. -/
  | kv (core slot id : Nat) (statuses : List (Nat × Nat))
  /-- A KV control operation whose writes have been performed on the other die, with what it gives. -/
  | kvCtl (core slot id value : Nat)
  deriving DecidableEq, Repr

inductive BridgeKind where
  /-- Bytes to write at the home of a line, and the span they belong to (05 R184). -/
  | write (cells : List Host.Cell) (mask : BitVec 32) (ref : AckRef)
  /-- One request of an atomic or reduction of a group. -/
  | atom (core slot id part : Nat)
  /-- An element of a CRED. -/
  | cred (e : CredElem)
  /-- Lanes of a KST or KSTS that write one page. -/
  | kv (core slot id : Nat) (lanes : List Nat)
  /-- The writes of a KV control operation; of a KCOMMIT or KDROP the drafts to keep of each held sequence. -/
  | kvCtl (core slot id : Nat) (counts : List Nat)
  /-- The fresh page that a requantisation writes: its address and bytes. -/
  | page (dpa n : Nat) (ref : AckRef)
  /-- Drop a span from the receiving die's RDC, then answer. -/
  | inval (dpa : Nat) (mask : BitVec 32) (ref : AckRef)
  | ack (ref : AckRef)
  deriving DecidableEq, Repr

/-- A stamped message (08 R305). -/
structure BridgeMsg where
  c0 : Nat
  c1 : Nat
  kind : BridgeKind
  deriving DecidableEq, Repr

/-- What an RDC span copies. -/
inductive RdcKey where
  | line (dpa : Nat)
  | peer (device window line : Nat)
  deriving DecidableEq, Repr

structure RdcLine where
  key : RdcKey
  valid : BitVec 32
  data : Memory
  deriving DecidableEq, Repr

/-- A TLB entry (10 R353). -/
structure TlbEntry where
  asid : Nat
  region : Nat
  page : Nat
  dpa : Nat
  ro : Bool
  deriving DecidableEq, Repr

/-- A walk in flight (10 R353): the page and whether a write or a read first missed. -/
structure Walk where
  asid : Nat
  launch : Nat
  region : Nat
  page : Nat
  write : Bool
  deriving DecidableEq, Repr

/-- A line present in its home L2 strip (08 R434); most recent first. -/
structure L2Line where
  strip : Nat
  set : Nat
  dpa : Nat
  dirty : Bool
  deriving DecidableEq, Repr

/-- What a service group is asked to perform (09 R336). -/
inductive SvcRef where
  | part (core slot id part : Nat)
  | cred (e : CredElem)
  /-- A peer's PATOM: DPA, AOP, SIZE, operand words. -/
  | peer (dpa aop size : Nat) (data : List Word)
  deriving DecidableEq, Repr

/-- A request in the queue of the service group of a strip. -/
structure SvcReq where
  strip : Nat
  ref : SvcRef
  /-- The cycle of its arrival. -/
  since : Nat
  deriving DecidableEq, Repr

structure Die where
  rdc : List RdcLine
  tlb : List TlbEntry
  walks : List Walk
  /-- Pages with a fault record outstanding (10 R354). -/
  faults : List (Nat × Nat × Nat)
  l2 : List L2Line
  /-- The clock pair (c0, c1). -/
  clock : Nat × Nat
  /-- Messages sent to the other die and not yet applied there, oldest first. -/
  out : List BridgeMsg
  /-- The queues of the die's service groups in one list, in order of arrival (09 R336). -/
  svc : List SvcReq
  deriving DecidableEq, Repr

/-! ## Launches -/

/-- A level entry (01 Table 1.9). -/
structure Level where
  domain : Nat
  scope : Nat
  extent : Nat
  deriving DecidableEq, Repr

/-- A region table entry (10 Table 10.5). -/
structure Region where
  vbase : Nat
  length : Nat
  target : Nat
  kind : Nat
  rights : Nat
  pgsz : Nat
  deriving DecidableEq, Repr

/-- A ring descriptor (01 Table 1.6). -/
structure RingDesc where
  slots : Nat
  lines : Nat
  base : Nat
  deriving DecidableEq, Repr

/-- A launch record (01 Table 1.10). -/
structure LaunchRec where
  codeBase : Nat
  codeLen : Nat
  wide : Bool
  nlevels : Nat
  priority : Nat
  levels : List Level
  grid : Nat × Nat × Nat
  wtiles : Nat
  ptiles : Nat
  scratch : Nat
  formats : List Word
  regionTable : Nat
  trapEntry : Word
  entry : Word
  mode : Word
  barrierUse : Word
  kvContext : Nat
  routeTable : Nat
  domainIndex : Nat
  xtables : BitVec 8
  rings : List RingDesc
  counterReset : DWord
  params : List DWord
  deriving DecidableEq, Repr

inductive LaunchPhase where
  | queued | admitted
  /-- Its groups are stopping for a pre-emption (10 R359); `auto` says that the firmware resumes it by itself. -/
  | stopping (auto : Bool)
  /-- Every group has stopped; the save has not been made (10 R360). -/
  | stopped (auto : Bool)
  /-- The image is saved and waits for RESUME, or for firmware resumption. -/
  | saved (resumed : Bool)
  deriving DecidableEq, Repr

/-- Completion statuses (11 Table 11.6). -/
inductive DoneStatus where
  | completed | completedWithFault | killed | trapInHandler | gangLost | fabricPayload | fabricDown | bridgeFailed
  deriving DecidableEq, Repr

/-- What is saved of one core of a pre-empted launch (10 Table 10.8). -/
structure Image where
  core : Nat
  groups : List (Nat × Group)
  blocks : List Block
  tiles : List (Nat × Tile)
  tileData : Memory
  spad : Memory
  counters : List DWord
  queues : List (List QEntry)
  tables : List (Nat × RxTable)
  bars : List (Nat × Barrier)
  segs : List Segment
  holders : List (Nat × Nat)
  seqQueue : List XClause
  seqRun : Option SeqRun
  copy : EngineState
  quant : EngineState
  link : EngineState
  deriving DecidableEq, Repr

/-- A launch the firmware knows (09 R321 to R323, 11 R384). -/
structure Launch where
  id : Nat
  rec_ : LaunchRec
  partition : Nat
  asid : Nat
  phase : LaunchPhase
  regions : List Region
  /-- Order of admission, and of submission while queued. -/
  order : Nat
  placed : Nat
  ended : Nat
  status : Option DoneStatus
  incident : Option (Nat × Nat × Nat)
  /-- Used the fabric since its admission (11 R377). -/
  fabric : Bool
  images : List Image
  /-- Dies taken by instances of a level of DOMAIN 4 (09 R325). -/
  dies : List (Nat × Nat)
  deriving DecidableEq, Repr

/-! ## KV contexts and routing -/

inductive KvState where
  | unmapped | resident | secondTier | poisoned
  deriving DecidableEq, Repr

/-- An Almanac entry and its page's contents: element codes by index, metadata entries by group index (07 R270,
R271). Element (plane, position in the page, element) has index (plane × 64 + position) × HEAD_DIM + element. -/
structure KvEntry where
  seq : Nat
  head : Nat
  page : Nat
  state : KvState
  wh : Bool
  win : Nat
  busy : Bool
  fetch : Nat
  enc : BitVec 11
  elems : WordMap
  metas : NatMap
  /-- How many pages the entry has had before this one (R287). -/
  frame : Nat
  deriving DecidableEq, Repr

/-- A state record of a window: the elements a tagged KSTS wrote after a draft position (07 R280). -/
structure KvRecord where
  seq : Nat
  pos : Nat
  slot : Nat
  elems : List (Nat × Word)
  deriving DecidableEq, Repr

/-- A draft window (07 R274). -/
structure KvWindow where
  open_ : Bool
  first : Nat
  count : Nat
  depth : NatMap
  records : List KvRecord
  deriving DecidableEq, Repr

/-- A requantisation under way (07 R287). -/
structure KvRequant where
  seq : Nat
  head : Nat
  page : Nat
  core : Nat
  cmd : Nat
  /-- The page has not been freed meanwhile. -/
  live : Bool
  enc : BitVec 11
  elems : WordMap
  metas : NatMap
  deriving DecidableEq, Repr

/-- A KV context (07 Table 7.1). -/
structure KvContext where
  id : Nat
  nseq : Nat
  nhead : Nat
  headDim : Nat
  capacity : Nat
  defaultEnc : BitVec 11
  nstate : Nat
  stateElems : Nat
  draftStates : Nat
  pool : Nat
  /-- Pages in use that no entry holds: old or fresh pages of a requantisation. -/
  held : Nat
  lens : NatMap
  entries : List KvEntry
  /-- Committed state, FP32 patterns by (seq × NSTATE + slot) × STATE_ELEMS + element. -/
  committed : WordMap
  windows : List KvWindow
  requants : List KvRequant
  /-- Old pages of requantisations, each with the K-space accesses, by core and number, that began before its swap and are
  not complete (07 R287). -/
  returns : List (List (Nat × Nat))
  deriving DecidableEq, Repr

/-- A route table (07 R292). -/
structure RouteTable where
  id : Nat
  next : Bool
  timeout : Nat
  dests : List RouteDest
  deriving DecidableEq, Repr

/-- A routed row on its way to an inbox (07 R296), and the link it travels on; none within the module (11 R371). -/
structure RowMsg where
  link : Option Nat
  srcCore : Nat
  device : Nat
  core : Nat
  launch : Nat
  block : Nat
  ring : Nat
  token : DWord
  dest : Nat
  row : List Byte
  deriving DecidableEq, Repr

/-- A return on its way to its table (07 R297), with the block it comes from and the link it travels on. -/
structure RetMsg where
  link : Option Nat
  token : DWord
  device : Nat
  core : Nat
  launch : Nat
  block : Nat
  row : List Byte
  deriving DecidableEq, Repr

/-! ## Fabric and host -/

/-- An exposed window (11 R373). -/
structure Exposure where
  window : Nat
  target : Nat
  length : Nat
  rights : Nat
  mask : BitVec 256
  fallBack : Bool
  down : Bool
  /-- The devices that have registered it. -/
  registrants : List Nat
  deriving DecidableEq, Repr

/-- A registration of a peer's window (11 R373). -/
structure Registration where
  device : Nat
  window : Nat
  length : Nat
  rights : Nat
  fallBack : Bool
  down : Bool
  deriving DecidableEq, Repr

/-- What a peer module exposes to this one and what its window holds: outside the module, an input (DESIGN CHOICE, log 4). -/
structure PeerWindow where
  device : Nat
  window : Nat
  length : Nat
  rights : Nat
  fallBack : Bool
  data : Memory
  deriving DecidableEq, Repr

/-- A counter bound to a window by LWIN (06 R261). `device` is none on the receive side. -/
structure Binding where
  device : Option Nat
  window : Nat
  core : Nat
  ctr : Nat
  launch : Nat
  deriving DecidableEq, Repr

/-- A put in flight (05 R193): out to a peer, or in from one. `id` numbers it, `link` is the link it travels on, `n` its
lanes, `ref` the sender's part or command, `acks` the invalidations that a landed put of a peer awaits (08 R304). -/
structure PutMsg where
  id : Nat
  link : Nat
  out : Bool
  device : Nat
  window : Nat
  cells : List Host.Cell
  n : Nat
  core : Nat
  ref : AckRef
  landed : Bool
  final : Bool
  acks : Nat
  /-- The faults of its lanes should the device turn unreachable before it lands (11 R372). -/
  late : List LateFault
  deriving DecidableEq, Repr

/-- Bytes that a peer's core has sent on a port channel to a core of this module and that no receive has consumed yet
(06 R259, DESIGN CHOICE, log 4). -/
structure PortChannel where
  srcDevice : Nat
  srcCore : Nat
  core : Nat
  port : Nat
  bytes : List Byte
  deriving DecidableEq, Repr

inductive LinkState where
  | up | degraded | down | foreign
  deriving DecidableEq, Repr

structure Link where
  state : LinkState
  lanes : Nat
  transient : Half
  /-- The partition key of the module at the other end (11 R370). -/
  key : DWord
  deriving DecidableEq, Repr

/-- A host port: the registers of BAR0 (11 Table 11.10), and the answer that stands in its DOE mailbox (11 R378). -/
structure HostPort where
  up : Bool
  slots : Memory
  slotBusy : Half
  slotDone : Half
  doneVector : Word
  evrBase : DWord
  evrHead : Nat
  evrTail : Nat
  evrCtl : Word
  evrLost : Word
  msix : Memory
  pba : DWord
  doe : List Byte
  deriving DecidableEq, Repr

/-- A master reached by MCTP: its slots and the event records that wait for it (11 R380, R388). -/
structure MctpPort where
  slots : Memory
  busy : Half
  events : List (List Byte)
  lost : Nat
  deriving DecidableEq, Repr

/-- A command response, as the firmware last formed it (11 R382). -/
structure Response where
  master : Nat
  status : Byte
  payload : List Byte
  deriving DecidableEq, Repr

/-- A doorbell: the master, what it writes or the tag of its message, the launch or object id that it would have the firmware
choose, and the message (11 R382). -/
structure Doorbell where
  master : Nat
  value : Word
  pick : Nat
  bytes : List Byte
  deriving DecidableEq, Repr

/-- A slot that has been rung and whose command has not been executed yet (11 R382, R383). -/
structure Rung where
  master : Nat
  slot : Nat
  pick : Nat
  deriving DecidableEq, Repr

/-- A WINDOW_MODE under way (11 R375): the registrants whose acknowledgement is awaited, and the master and slot that its
answer is for. -/
structure ModeChange where
  window : Nat
  awaiting : List Nat
  master : Nat
  slot : Option Nat
  deriving DecidableEq, Repr

/-- What the module sends to the outside world and no other field shows. -/
inductive Output where
  /-- An MSI-X vector of a port (11 R381, R382, R388). -/
  | interrupt (port vector : Nat)
  /-- A DOWN flit on a link (11 R377). -/
  | downFlit (link : Nat)
  /-- The new mode of a window, to a registrant (11 R375). -/
  | windowMode (device window : Nat) (fallBack : Bool)
  /-- A registrant's acknowledgement of a new mode (11 R375). -/
  | modeAck (device window : Nat)
  /-- The acknowledgement of a peer's put, landed or discarded, on the link that it came by (11 R374). -/
  | putAck (link device window : Nat)
  deriving DecidableEq, Repr

/-- The messages of a requester that a signed answer covers (11 R391): versions, capabilities and algorithms; digests and
certificates; measurements. -/
structure SpdmTranscript where
  master : Nat
  vca : List Byte
  certs : List Byte
  meas : List Byte
  deriving DecidableEq, Repr

/-- A large SPDM message of a master: one whose chunks arrive, the number of its next chunk and its size, or an answer that is
fetched in chunks (11 R385). -/
structure SpdmLarge where
  master : Nat
  handle : Nat
  answer : Bool
  next : Nat
  size : Nat
  bytes : List Byte
  deriving DecidableEq, Repr

inductive PowerState where
  | active | idle | standby | off
  deriving DecidableEq, Repr

/-- Whose instruction executes: the run of a scheduler, or the issue of a sequencer (DESIGN CHOICE, log 3). -/
inductive Focus where
  | none
  | group (core sched : Nat)
  | seq (core : Nat)
  deriving DecidableEq, Repr

/-- What moves next (DESIGN CHOICE, log 3): an event of the table, the next instruction of a scheduler's run, or something the
outside world does. -/
inductive Move where
  | event (i : Instr) (sel : Sel)
  | issue (core sched : Nat)
  /-- A host agent writes host memory. -/
  | hostWrite (pa : Nat) (bytes : List Byte)
  /-- A peer's put arrives on a link. -/
  | peerPut (link device window : Nat) (cells : List Host.Cell) (n : Nat)
  /-- A peer writes the window it exposes, or exposes one. -/
  | peerWindow (w : PeerWindow)
  /-- Bytes of a port channel arrive from a peer on a link. -/
  | portBytes (link device core dstCore port : Nat) (bytes : List Byte)
  /-- A peer's receive consumes bytes that a core of this module sends on a port. -/
  | portTake (link core device dstCore port n : Nat)
  /-- A routed row or a return arrives from a peer, on the link that it names. -/
  | peerRow (m : RowMsg)
  | peerReturn (m : RetMsg)
  /-- A destination block of a peer has ended (07 R298): its core, launch and rank. -/
  | peerDestGone (link device core launch rank : Nat)
  /-- A peer's PATOM arrives for a window this module exposes: offset, AOP, SIZE, operand words. -/
  | peerAtom (link device window offset aop size : Nat) (data : List Word)
  /-- A registrant acknowledges the new mode of a window (11 R375). -/
  | modeAck (link device window : Nat)
  /-- The doorbells of one cycle (11 R383). -/
  | doorbells (ds : List Doorbell)
  /-- An SPDM request comes by a port's DOE mailbox (11 R378). -/
  | doe (port : Nat) (bytes : List Byte)
  /-- A master that takes MCTP messages takes the oldest waiting event records (11 R388). -/
  | takeEvents (master n : Nat)
  /-- The outside world has taken the oldest outputs. -/
  | takeOutputs (n : Nat)
  /-- Core cycles pass. -/
  | tick (n : Nat)
  deriving DecidableEq, Repr

/-- The module. -/
structure State where
  cycle : Nat
  cores : List (Nat × Core)
  fenced : List Nat
  die0 : Die
  die1 : Die
  dram : Memory
  poisoned : List Nat
  tier0 : Nat
  tier1 : Nat
  hostMem : Memory
  /-- Lines of host memory in the host-port cache, most recent first (08 Table 8.1); CXL.cache keeps them equal to
  `hostMem` (05 R191). -/
  hostLines : List Nat
  /-- Invalidations that writes of the host through the aperture await (08 R304, R319). -/
  hostAcks : Nat
  launches : List Launch
  launchSeq : Nat
  kvs : List KvContext
  routes : List RouteTable
  rowsOut : List RowMsg
  returns : List RetMsg
  puts : List PutMsg
  putSeq : Nat
  exposures : List Exposure
  /-- Drop counts of windows 0 to 63 (11 R374). -/
  windowDrops : List Nat
  registrations : List Registration
  peers : List PeerWindow
  bindings : List Binding
  channels : List PortChannel
  device : Byte
  partitionKey : DWord
  routeMap : List (List Nat)
  links : List Link
  fabricDown : Bool
  /-- FABRIC_RESET has been executed since the partition went down. -/
  fabricReset : Bool
  bridgeFenced : List Nat
  failed : Bool
  port0 : HostPort
  port1 : HostPort
  mctp : MctpPort
  debug : MctpPort
  aperture : Option Nat
  apertureData : Option (List Byte)
  /-- What the module last answered to a peer's request; none when it answered that it may not have it. -/
  peerReply : Option (List Byte)
  owner : Option Nat
  offer : Option Nat
  ownerChanges : Nat
  eventSeq : Word
  partitions : List Nat
  patchStage : Memory
  patch : Option (List Byte)
  launchRun : Bool
  power : PowerState
  cap : Nat
  duty : Nat
  idleSince : Nat
  halted : Bool
  sensors : List Half
  sensorLevel : List Nat
  errors : List (Nat × Nat)
  retired : List Nat
  fencedUnits : List (Nat × Nat × Nat)
  /-- Ways and strips out of use (10 R365, R366): unit class, unit, set; once for each way. -/
  fencedWays : List (Nat × Nat × Nat)
  spdmCount : Nat
  spdmLarge : List SpdmLarge
  spdmLogs : List SpdmTranscript
  response : Option Response
  /-- Slots rung whose command waits for the one under way (11 R383). -/
  rung : List Rung
  modeChange : Option ModeChange
  /-- Images of members of lost gangs, kept for diagnosis, by their launch (10 R363). -/
  diagnostics : List (Nat × Image)
  outputs : List Output
  agenda : List Move
  /-- Runs that have issued of themselves so far: whose turn it is (DESIGN CHOICE, log 3). -/
  turn : Nat
  focus : Focus
  sel : Sel
  deriving DecidableEq, Repr

/-- Why the machine stops. -/
inductive Fault where
  /-- Raised by `step` alone: the module is off after a thermal shutdown (11 R396) and nothing on the agenda can
  turn it on again. Safe: no rule lets an off module do anything before a cold reset. -/
  | moduleOff
  deriving DecidableEq, Repr

/-- Why an instruction has no meaning at a state. -/
inductive Refusal where
  /-- Raised by an arm of `exec` whose instruction has no meaning yet. Safe. -/
  | notModelled (mnemonic : String)
  /-- Raised when a group's instruction is executed while no scheduler's run has the focus, or an X word while no
  sequencer issue has it: there is no group or sequencer whose state it could act on (01 R42, 06 R222). Safe: no
  step of the module executes an instruction that way. -/
  | noIssuer
  deriving DecidableEq, Repr

/-! ## Reset -/

def Tile.free : Tile :=
  { owner := 0x3F, offer := false, land := false, waits := [], seqWait := false }

def Barrier.empty : Barrier :=
  { pending := 0, members := 0, phase := false, leaving := 0, sent := false, extra := 0 }

/-- A reassembly table as a block finds it: IDLE, generation 0, LATE 0, every entry 0 (01 R28). -/
def RxTable.empty : RxTable :=
  { used := false, open_ := false, dispatched := false, launch := 0, block := 0, slot := 0, mark := 0, pair := 0
    inTile := 0, gen := 0#32, late := 0#16, rows := [], bf16 := false, ctr := 0, res := false, policyNext := false
    timeout := 0, start := 0, timedOut := false, dests := [] }

/-- The first round of grants begins with the first context (R335 does not say; DESIGN CHOICE, log 62). -/
def EngineState.empty : EngineState := { cmds := [], nests := [], bad := [], granted := (511, 511) }

def Scheduler.empty : Scheduler := { run := none, holder := none, last := none, streak := 0 }

/-- A core before any block has been placed on it. -/
def Core.reset : Core :=
  { groups := [], blocks := [], tiles := List.replicate 64 Tile.free, tileData := [], panels := [], spad := []
    counters := List.replicate 64 0#64, queues := List.replicate 16 [], tables := List.replicate 4 RxTable.empty
    bars := List.replicate 16 Barrier.empty, segs := [], scheds := List.replicate 4 Scheduler.empty
    seqQueue := [], seqRun := none, copy := .empty, quant := .empty, link := .empty, l1 := [], wbOut := 0
    nextId := 0 }

def Die.reset : Die :=
  { rdc := [], tlb := [], walks := [], faults := [], l2 := [], clock := (0, 0), out := [], svc := [] }

def HostPort.reset : HostPort :=
  { up := true, slots := [], slotBusy := 0#16, slotDone := 0#16, doneVector := 0#32, evrBase := 0#64, evrHead := 0
    evrTail := 0, evrCtl := 0#32, evrLost := 0#32, msix := [], pba := 0#64, doe := [] }

def MctpPort.reset : MctpPort := { slots := [], busy := 0#16, events := [], lost := 0 }

/-- The module right after a cold reset (11 R394): no launch, no context, no owner; every core without a block;
the values the spec does not give are those of DESIGN CHOICE, log 2. -/
def State.reset : State :=
  { cycle := 0, cores := [], fenced := [], die0 := .reset, die1 := .reset, dram := [], poisoned := []
    tier0 := 512 * 2 ^ 30, tier1 := 512 * 2 ^ 30, hostMem := [], hostLines := [], hostAcks := 0, launches := [], launchSeq := 0, kvs := []
    routes := [], rowsOut := [], returns := [], puts := [], putSeq := 0, exposures := [], windowDrops := List.replicate 64 0, registrations := [], peers := []
    bindings := [], channels := [], device := 0#8, partitionKey := 0#64, routeMap := List.replicate 256 []
    links := List.replicate 18 { state := .down, lanes := 8, transient := 0#16, key := 0#64 }, fabricDown := false, fabricReset := false
    bridgeFenced := [0, 0], failed := false, port0 := .reset, port1 := .reset, mctp := .reset, debug := .reset
    aperture := none, apertureData := none, peerReply := none, owner := none, offer := none, ownerChanges := 0, eventSeq := 0#32
    partitions := List.replicate 8 0, patchStage := [], patch := none, launchRun := false, power := .active
    cap := 1500, duty := 0, idleSince := 0, halted := false, sensors := List.replicate 52 0#16
    sensorLevel := List.replicate 52 0, errors := List.replicate 8 (0, 0), retired := [], fencedUnits := [], fencedWays := []
    spdmCount := 0, spdmLarge := [], spdmLogs := [], response := none, rung := [], modeChange := none, diagnostics := [], outputs := [], agenda := [], turn := 0, focus := .none, sel := .none }

end Sys2Proof.Machine
end

