-- ==== Sys2Proof/Machine/Memory.lean ====
section
/-! DEFINITION. Sparse contents: reading, writing and the canonical form of a list of index and value pairs, and the
little-endian byte order in which every wider value is read and written (00 R8). -/

namespace Sys2Proof.Machine

/-! ## Sparse lists -/

/-- The value at an index; `d` where the list has no entry. -/
def cellGet {β : Type} (d : β) : List (Nat × β) → Nat → β
  | [], _ => d
  | (k, v) :: m, i => if k = i then v else cellGet d m i

/-- Puts a value at an index, in rising order; a value equal to `d` removes the entry. -/
def cellSet {β : Type} [DecidableEq β] (d : β) : List (Nat × β) → Nat → β → List (Nat × β)
  | [], i, v => if v = d then [] else [(i, v)]
  | (k, w) :: m, i, v =>
    if i < k then (if v = d then (k, w) :: m else (i, v) :: (k, w) :: m)
    else if i = k then (if v = d then m else (i, v) :: m)
    else (k, w) :: cellSet d m i v

/-- The canonical form above a bound: indices strictly rising, no value equal to `d`. -/
def cellWfFrom {β : Type} [DecidableEq β] (d : β) : Option Nat → List (Nat × β) → Bool
  | _, [] => true
  | lo, (k, v) :: m =>
    (match lo with | none => true | some l => decide (l < k)) && decide (v ≠ d) && cellWfFrom d (some k) m

def cellWf {β : Type} [DecidableEq β] (d : β) (m : List (Nat × β)) : Bool := cellWfFrom d none m

/-- Values at consecutive indices. -/
def cellPuts {β : Type} [DecidableEq β] (d : β) (m : List (Nat × β)) (a : Nat) : List β → List (Nat × β)
  | [] => m
  | v :: vs => cellPuts d (cellSet d m a v) (a + 1) vs

def cellGets {β : Type} (d : β) (m : List (Nat × β)) (a n : Nat) : List β :=
  (List.range n).map fun i => cellGet d m (a + i)

/-! ## Memories of bytes -/

/-- One byte; 0 where nothing is listed (DESIGN CHOICE, log 1). -/
def Memory.get (m : Memory) (a : Nat) : Byte := cellGet 0#8 m a

def Memory.set (m : Memory) (a : Nat) (v : Byte) : Memory := cellSet 0#8 m a v

/-- Addresses strictly rising and no entry equal to 0. -/
def Memory.wf (m : Memory) : Bool := cellWf 0#8 m

def Memory.bytes (m : Memory) (a n : Nat) : List Byte := cellGets 0#8 m a n

def Memory.put (m : Memory) (a : Nat) (bs : List Byte) : Memory := cellPuts 0#8 m a bs

/-- Writes single bytes, in order. -/
def Memory.putCells (m : Memory) (cs : List Host.Cell) : Memory := cs.foldl (fun m c => m.set c.1 c.2) m

/-- Sets n bytes to 0. -/
def Memory.zero (m : Memory) (a n : Nat) : Memory := m.filter fun c => c.1 < a || a + n ≤ c.1

/-- The bytes of a range, moved to begin at `b`. -/
def Memory.slice (m : Memory) (a n b : Nat) : Memory :=
  (m.filter fun c => a ≤ c.1 && c.1 < a + n).map fun c => (c.1 - a + b, c.2)

/-- A range replaced by the contents of another memory, whose entries lie in that range. -/
def Memory.splice (m : Memory) (a n : Nat) (new : Memory) : Memory :=
  m.filter (fun c => c.1 < a) ++ new ++ m.filter (fun c => a + n ≤ c.1)

/-! ## Byte order (00 R8) -/

/-- Bytes as a number, the first the least significant. -/
def natOfBytes : List Byte → Nat
  | [] => 0
  | b :: bs => b.toNat + 256 * natOfBytes bs

/-- A number's low n bytes, the least significant first. -/
def bytesOfNat : Nat → Nat → List Byte
  | 0, _ => []
  | n + 1, x => BitVec.ofNat 8 x :: bytesOfNat n (x / 256)

/-- A little-endian number of n bytes. -/
def Memory.nat (m : Memory) (a n : Nat) : Nat := natOfBytes (m.bytes a n)

def Memory.putNat (m : Memory) (a n x : Nat) : Memory := m.put a (bytesOfNat n x)

/-! ## Maps of words and numbers -/

def WordMap.get (m : WordMap) (i : Nat) : Word := cellGet 0#32 m i
def WordMap.set (m : WordMap) (i : Nat) (v : Word) : WordMap := cellSet 0#32 m i v
def NatMap.get (m : NatMap) (i : Nat) : Nat := cellGet 0 m i
def NatMap.set (m : NatMap) (i v : Nat) : NatMap := cellSet 0 m i v

/-! ## Small list helpers -/

/-- Element i of a list, `d` beyond its end. -/
def nth {α : Type} (d : α) : List α → Nat → α
  | [], _ => d
  | x :: _, 0 => x
  | _ :: xs, i + 1 => nth d xs i

/-- Element i replaced; the list unchanged beyond its end. -/
def setNth {α : Type} : List α → Nat → α → List α
  | [], _, _ => []
  | _ :: xs, 0, y => y :: xs
  | x :: xs, i + 1, y => x :: setNth xs i y

/-- Entry of a table sorted by key. -/
def assocGet {β : Type} : List (Nat × β) → Nat → Option β
  | [], _ => none
  | (k, v) :: m, i => if k = i then some v else assocGet m i

/-- Puts an entry into a table sorted by key, replacing one of the same key. -/
def assocSet {β : Type} : List (Nat × β) → Nat → β → List (Nat × β)
  | [], i, v => [(i, v)]
  | (k, w) :: m, i, v =>
    if i < k then (i, v) :: (k, w) :: m else if i = k then (i, v) :: m else (k, w) :: assocSet m i v

def assocDel {β : Type} (m : List (Nat × β)) (i : Nat) : List (Nat × β) := m.filter fun p => p.1 ≠ i

/-- The first index whose element satisfies p. -/
def findIx {α : Type} (p : α → Bool) : List α → Option Nat
  | [] => none
  | x :: xs => if p x then some 0 else (findIx p xs).map (· + 1)

/-- Every element but the one at index i. -/
def dropIx {α : Type} : List α → Nat → List α
  | [], _ => []
  | _ :: xs, 0 => xs
  | x :: xs, i + 1 => x :: dropIx xs i

/-- Every element of one list that another holds no equal of, without repeats. -/
def dedup {α : Type} [DecidableEq α] : List α → List α
  | [] => []
  | x :: xs => if x ∈ xs then dedup xs else x :: dedup xs

end Sys2Proof.Machine
end

