-- ==== Sys2Proof/Machine/Fp.lean ====
section
/-! DEFINITION. Number formats and exact arithmetic (03 R104 to R119, R125, R128 to R137): patterns are natural
numbers, values are exact (`Num`), and every rounding goes through one function on a quotient of naturals. -/

namespace Sys2Proof.Machine

/-! ## Formats -/

/-- The floating-point formats of Table 3.1. -/
inductive FFmt where
  | fp32 | fp16 | bf16 | e4m3 | e5m2 | e2m1
  deriving DecidableEq, Repr

/-- Bits of a format (Table 3.1). -/
def FFmt.bits : FFmt → Nat
  | .fp32 => 32 | .fp16 => 16 | .bf16 => 16 | .e4m3 => 8 | .e5m2 => 8 | .e2m1 => 4

/-- Fraction bits (Table 3.1). -/
def FFmt.fw : FFmt → Nat
  | .fp32 => 23 | .fp16 => 10 | .bf16 => 7 | .e4m3 => 3 | .e5m2 => 2 | .e2m1 => 1

def FFmt.bias : FFmt → Nat
  | .fp32 => 127 | .fp16 => 15 | .bf16 => 127 | .e4m3 => 7 | .e5m2 => 15 | .e2m1 => 1

/-- Infinity and the IEEE kind of NaN exist (Table 3.1). -/
def FFmt.hasInf : FFmt → Bool
  | .e4m3 => false | .e2m1 => false | _ => true

/-- MODE.DNI and MODE.DNO act on the format (R113). -/
def FFmt.flushes : FFmt → Bool
  | .fp32 => true | .fp16 => true | .bf16 => true | _ => false

/-- The weight of the last fraction bit of denormals and of the first binade of normals. -/
def FFmt.qmin (f : FFmt) : Int := 1 - (f.bias : Int) - (f.fw : Int)

/-- The largest finite magnitude as a pattern: the pattern below infinity, or 448 and 6 (Table 3.1). -/
def FFmt.maxFinite : FFmt → Nat
  | .fp32 => 0x7F7FFFFF | .fp16 => 0x7BFF | .bf16 => 0x7F7F | .e4m3 => 0x7E | .e5m2 => 0x7B | .e2m1 => 0x7

/-- The pattern of +infinity in a format that has one. -/
def FFmt.infPattern (f : FFmt) : Nat := (2 ^ (f.bits - 1 - f.fw) - 1) * 2 ^ f.fw

def FFmt.signBit (f : FFmt) : Nat := 2 ^ (f.bits - 1)

/-- Canonical NaNs (Table 3.2). E2M1 has none: a NaN result is +0 there (R114). -/
def FFmt.canonicalNan : FFmt → Nat
  | .fp32 => 0x7FC00000 | .fp16 => 0x7E00 | .bf16 => 0x7FC0 | .e4m3 => 0x7F | .e5m2 => 0x7E | .e2m1 => 0

/-- Legacy default NaNs (Table 3.2). -/
def FFmt.legacyNan : FFmt → Nat
  | .fp32 => 0xFFC00000 | .fp16 => 0xFE00 | .bf16 => 0xFFC0 | .e4m3 => 0xFF | .e5m2 => 0xFE | .e2m1 => 0

/-- Applies a sign to a magnitude pattern. -/
def FFmt.withSign (f : FFmt) (neg : Bool) (mag : Nat) : Nat := if neg then mag + f.signBit else mag

/-- Rounding modes (R110, R116); `sr u` is stochastic with its random value. -/
inductive Rnd where
  | rne | rtz | rup | rdn
  | sr (u : Nat)
  deriving DecidableEq, Repr

/-- MODE.RM (Table 1.4). -/
def Rnd.ofCode : Nat → Rnd
  | 0 => .rne | 1 => .rtz | 2 => .rup | _ => .rdn

/-- The float modes an instruction runs under. -/
structure FpMode where
  rm : Rnd
  dni : Bool
  dno : Bool
  lnan : Bool
  deriving DecidableEq, Repr

/-- The fields of MODE (Table 1.4). -/
def FpMode.ofWord (w : Word) : FpMode :=
  { rm := Rnd.ofCode (w.toNat % 4), dni := w.getLsbD 2, dno := w.getLsbD 3, lnan := w.getLsbD 4 }

/-- What every unit outside class V computes under (R115). -/
def FpMode.std : FpMode := { rm := .rne, dni := false, dno := false, lnan := false }

/-! ## Exact values -/

def Num.zero (neg : Bool) : Num := .fin neg 0 0

def Num.ofInt (i : Int) : Num := .fin (decide (i < 0)) i.natAbs 0

def Num.isNan : Num → Bool
  | .nan => true | _ => false

def Num.isInf : Num → Bool
  | .inf _ => true | _ => false

def Num.isZero : Num → Bool
  | .fin _ 0 _ => true | _ => false

def Num.sign : Num → Bool
  | .nan => false | .inf s => s | .fin s _ _ => s

def Num.neg : Num → Num
  | .nan => .nan | .inf s => .inf (!s) | .fin s m e => .fin (!s) m e

def Num.abs : Num → Num
  | .nan => .nan | .inf _ => .inf false | .fin _ m e => .fin false m e

/-- Signed significand at the exponent `e0`, which is not above `e`. -/
def alignTo (s : Bool) (m : Nat) (e e0 : Int) : Int :=
  let v : Int := (m * 2 ^ (e - e0).toNat : Nat)
  if s then -v else v

/-- The exact sum; `rdn` gives the sign of an exact zero from opposite signs (R112). -/
def Num.add (rdn : Bool) : Num → Num → Num
  | .nan, _ => .nan
  | _, .nan => .nan
  | .inf s, .inf t => if s = t then .inf s else .nan
  | .inf s, .fin _ _ _ => .inf s
  | .fin _ _ _, .inf t => .inf t
  | .fin s m e, .fin t n f =>
    let e0 := min e f
    let v := alignTo s m e e0 + alignTo t n f e0
    if v = 0 then (if m = 0 ∧ n = 0 ∧ s = t then .fin s 0 0 else .fin rdn 0 0)
    else .fin (decide (v < 0)) v.natAbs e0

/-- The exact product; zero times infinity is NaN. -/
def Num.mul : Num → Num → Num
  | .nan, _ => .nan
  | _, .nan => .nan
  | .inf s, .inf t => .inf (s != t)
  | .inf s, .fin t n _ => if n = 0 then .nan else .inf (s != t)
  | .fin s m _, .inf t => if m = 0 then .nan else .inf (s != t)
  | .fin s m e, .fin t n f => .fin (s != t) (m * n) (e + f)

/-- a < b on numbers that are not NaN; zeros are equal. -/
def Num.lt : Num → Num → Bool
  | .nan, _ => false
  | _, .nan => false
  | .inf s, .inf t => s && !t
  | .inf s, .fin _ _ _ => s
  | .fin _ _ _, .inf t => !t
  | .fin s m e, .fin t n f => let e0 := min e f; decide (alignTo s m e e0 < alignTo t n f e0)

/-- a = b on numbers that are not NaN; zeros are equal. -/
def Num.eqv (a b : Num) : Bool := !a.isNan && !b.isNan && !a.lt b && !b.lt a

/-- a < b with −0 below +0 (R154). -/
def Num.ltz (a b : Num) : Bool := a.lt b || (a.isZero && b.isZero && a.sign && !b.sign)

/-- The smaller or the larger, −0 below +0; the first on a tie. -/
def Num.pick (max : Bool) (a b : Num) : Num :=
  if max then (if a.ltz b then b else a) else (if b.ltz a then b else a)

/-! ## Rounding -/

/-- The quotient num / den rounded to a natural number by a mode; `neg` is the sign of the value (R110, R116). -/
def quotRound (m : Rnd) (neg : Bool) (num den : Nat) : Nat :=
  let k := num / den
  let r := num % den
  if r = 0 then k
  else match m with
    | .rne => if 2 * r < den then k else if den < 2 * r then k + 1 else if k % 2 = 0 then k else k + 1
    | .rtz => k
    | .rup => if neg then k else k + 1
    | .rdn => if neg then k + 1 else k
    | .sr u => if 65536 ≤ r * 65536 / den + u then k + 1 else k

/-- The exponent of the leading bit of n / d × 2^e, for n and d not 0. -/
def leadExp (n d : Nat) (e : Int) : Int :=
  let l : Int := (n.log2 : Int) - (d.log2 : Int)
  if d * 2 ^ l.toNat ≤ n * 2 ^ (-l).toNat then l + e else l - 1 + e

/-- n / d × 2^e as a multiple of 2^q, rounded. -/
def atQuantum (m : Rnd) (neg : Bool) (n d : Nat) (e q : Int) : Nat :=
  quotRound m neg (n * 2 ^ (e - q).toNat) (d * 2 ^ (q - e).toNat)

/-- The result that exceeds the largest finite value, and the rounding of an infinity (Table 3.3). -/
def overflow (f : FFmt) (m : Rnd) (neg : Bool) (infinite : Bool) : Nat :=
  if !f.hasInf then f.withSign neg f.maxFinite
  else if infinite then f.withSign neg f.infPattern
  else match m with
    | .rtz => f.withSign neg f.maxFinite
    | .rup => if neg then f.withSign true f.maxFinite else f.infPattern
    | .rdn => if neg then f.withSign true f.infPattern else f.maxFinite
    | _ => f.withSign neg f.infPattern

/-- The pattern of f for ± n / d × 2^e, not zero (R110, R111, R113). A magnitude more than 2^40 below the smallest
denormal is replaced by 2^-40 of it, which every mode rounds alike. -/
def rndQ (f : FFmt) (m : Rnd) (dno : Bool) (neg : Bool) (n d : Nat) (e : Int) : Nat :=
  let x := leadExp n d e
  let mag :=
    if x < f.qmin - 40 then atQuantum m neg 1 1 (f.qmin - 40) f.qmin
    else if 1000 < x then 2 ^ (f.bits + 1)
    else
      let q := max (x - f.fw) f.qmin
      let k := atQuantum m neg n d e q
      (q - f.qmin).toNat * 2 ^ f.fw + k
  if f.maxFinite < mag then overflow f m neg false
  else if dno && f.flushes && decide (mag < 2 ^ f.fw) then f.withSign neg 0
  else f.withSign neg mag

/-- `rnd` on a number that is not NaN; NaN gives the canonical NaN (Table 3.4). -/
def rnd (f : FFmt) (md : FpMode) : Num → Nat
  | .nan => f.canonicalNan
  | .inf s => overflow f md.rm s true
  | .fin s m e => if m = 0 then f.withSign s 0 else rndQ f md.rm md.dno s m 1 e

/-- A real rounded to an integer by a mode. -/
def roundInt (m : Rnd) (neg : Bool) (n d : Nat) (e : Int) : Int :=
  if n = 0 then 0
  else
    let k : Int := if leadExp n d e < -40 then (atQuantum m neg 1 1 (-40) 0 : Nat) else (atQuantum m neg n d e 0 : Nat)
    if neg then -k else k

/-! ## Reading patterns -/

/-- `dec` (R105). -/
def dec (f : FFmt) (x : Nat) : Num :=
  let x := x % 2 ^ f.bits
  let s := decide (f.signBit ≤ x)
  let mag := x % f.signBit
  let ex := mag / 2 ^ f.fw
  let fr := mag % 2 ^ f.fw
  if f.hasInf ∧ f.infPattern ≤ mag then (if fr = 0 then .inf s else .nan)
  else if f = .e4m3 ∧ mag = 0x7F then .nan
  else if ex = 0 then .fin s fr f.qmin
  else .fin s (fr + 2 ^ f.fw) (f.qmin + (ex : Int) - 1)

/-- `din`: `dec` with the input flush (R113). -/
def din (md : FpMode) (f : FFmt) (x : Nat) : Num :=
  match dec f x with
  | .fin s m e => if md.dni && f.flushes && decide (m < 2 ^ f.fw) then .fin s 0 0 else .fin s m e
  | v => v

/-! ## NaN results (R114) -/

/-- A NaN operand's fraction cut or widened to another fraction width, its quiet bit set. -/
def nanFrom (f : FFmt) (g : FFmt) (x : Nat) : Nat :=
  let neg := decide (g.signBit ≤ x % 2 ^ g.bits)
  match f with
  | .e2m1 => 0
  | .e4m3 => f.withSign neg 0x7F
  | _ =>
    let fr := x % 2 ^ g.fw
    let fr := fr * 2 ^ (f.fw - g.fw) / 2 ^ (g.fw - f.fw)
    f.withSign neg (f.infPattern + (fr ||| 2 ^ (f.fw - 1)))

/-- `nanres` on operands with their formats, in the order A, B, C. -/
def nanres (md : FpMode) (f : FFmt) (ops : List (FFmt × Nat)) : Nat :=
  if f = .e2m1 then 0
  else if !md.lnan then f.canonicalNan
  else match ops.find? fun o => (dec o.1 o.2).isNan with
    | some (g, x) => nanFrom f g x
    | none => f.legacyNan

/-! ## FP32 arithmetic and its packed forms (R153 to R156) -/

/-- The result of an exact computation: NaN forms by R114, anything else rounds once. -/
def finish (md : FpMode) (f : FFmt) (ops : List Nat) (v : Num) : Nat :=
  if v.isNan then nanres md f (ops.map fun x => (f, x)) else rnd f md v

def isRdn (md : FpMode) : Bool := md.rm == .rdn

def fpAdd (md : FpMode) (f : FFmt) (a b : Nat) : Nat := finish md f [a, b] (Num.add (isRdn md) (din md f a) (din md f b))

def fpSub (md : FpMode) (f : FFmt) (a b : Nat) : Nat :=
  finish md f [a, b] (Num.add (isRdn md) (din md f a) (din md f b).neg)

def fpMul (md : FpMode) (f : FFmt) (a b : Nat) : Nat := finish md f [a, b] (Num.mul (din md f a) (din md f b))

def fpFma (md : FpMode) (f : FFmt) (a b c : Nat) : Nat :=
  finish md f [a, b, c] (Num.add (isRdn md) (Num.mul (din md f a) (din md f b)) (din md f c))

/-- FMIN and FMAX (R154). -/
def fpMinMax (md : FpMode) (f : FFmt) (max : Bool) (a b : Nat) : Nat :=
  let x := din md f a
  let y := din md f b
  let nan := nanres md f [(f, a), (f, b)]
  if x.isNan then (if y.isNan || md.lnan then nan else rnd f md y)
  else if y.isNan then (if md.lnan then nan else rnd f md x)
  else rnd f md (Num.pick max x y)

/-- FSCL (R155). -/
def fpScale (md : FpMode) (a : Nat) (k : Int) : Nat :=
  match din md .fp32 a with
  | .nan => nanres md .fp32 [(.fp32, a)]
  | .inf s => FFmt.fp32.withSign s FFmt.fp32.infPattern
  | .fin s m e => rnd .fp32 md (.fin s m (e + k))

/-- FRND (R156): the mode of the instruction chooses the integer. -/
def fpIntegral (md : FpMode) (m : Rnd) (a : Nat) : Nat :=
  match din md .fp32 a with
  | .nan => nanres md .fp32 [(.fp32, a)]
  | .inf s => FFmt.fp32.withSign s FFmt.fp32.infPattern
  | .fin s 0 _ => FFmt.fp32.withSign s 0
  | .fin s n e =>
    if 0 ≤ e then rnd .fp32 md (.fin s n e)
    else rnd .fp32 md (.fin s (roundInt m s n 1 e).natAbs 0)

/-! ## Integer types and conversions (R108, R117 to R119) -/

/-- Limits of an integer type of w bits. -/
def intMin (signed : Bool) (w : Nat) : Int := if signed then -(2 ^ (w - 1) : Int) else 0
def intMax (signed : Bool) (w : Nat) : Int := if signed then (2 ^ (w - 1) : Int) - 1 else (2 ^ w : Int) - 1

def clampI (x lo hi : Int) : Int := if x < lo then lo else if hi < x then hi else x

/-- The w-bit pattern x read as a number. -/
def readInt (signed : Bool) (w x : Nat) : Int :=
  let x := x % 2 ^ w
  if signed && decide (2 ^ (w - 1) ≤ x) then (x : Int) - (2 ^ w : Int) else (x : Int)

/-- `wrap` as a natural number. -/
def wrapInt (v : Int) (w : Nat) : Nat := (v % (2 ^ w : Int)).toNat

/-- `rndi` (Table 3.4): infinities give the range limit; NaN gives 0 (R114). -/
def rndi (signed : Bool) (w : Nat) (m : Rnd) : Num → Int
  | .nan => 0
  | .inf s => if s then intMin signed w else intMax signed w
  | .fin s n e => clampI (roundInt m s n 1 (min e 1000)) (intMin signed w) (intMax signed w)

/-! ## WS96 (R128 to R134) -/

/-- The overflow marker. -/
def wsMarker : Nat := 0xFF800000 * 2 ^ 64

def wsOvf (x : Nat) : Bool := decide (2 ^ 95 ≤ x % 2 ^ 96)
def wsAnchor (x : Nat) : Nat := x / 2 ^ 87 % 256
def wsMag (x : Nat) : Int := readInt true 87 x

def wsMake (an : Nat) (mag : Int) : Nat := an * 2 ^ 87 + wrapInt mag 87

/-- `ws_add` (R130). -/
def wsAdd (x y : Nat) : Nat :=
  if wsOvf x || wsOvf y || wsAnchor x != wsAnchor y then wsMarker
  else wsMake (wsAnchor x) (wsMag x + wsMag y)

/-- `ws_from` (R132). -/
def wsFrom (v : Num) (an : Nat) (m : Rnd) : Nat :=
  match v with
  | .fin s n e =>
    let k := roundInt m s n 1 (e - ((an : Int) - 160))
    if 2 ^ 69 ≤ k.natAbs then wsMarker else wsMake an k
  | _ => wsMarker

/-- The exact value of a WS96 pattern; the marker is NaN. -/
def wsValue (x : Nat) : Num :=
  if wsOvf x then .nan
  else .fin (decide (wsMag x < 0)) (wsMag x).natAbs ((wsAnchor x : Int) - 160)

/-- `ws_to` (R134): the marker gives the canonical NaN whatever LNAN holds. -/
def wsTo (x : Nat) (md : FpMode) : Nat := rnd .fp32 md (wsValue x)

/-! ## The chain format (R124 to R127) -/

/-- `rc`: 32 significant bits, to nearest even, unbounded exponent. -/
def rc : Num → Num
  | .fin s m e =>
    if m = 0 then .fin s 0 0
    else if m < 2 ^ 32 then .fin s m e
    else let q := leadExp m 1 e - 31; .fin s (atQuantum .rne s m 1 e q) q
  | v => v

/-- Cell operations (Table 3.7). -/
inductive CellOp where
  | madd | adif | cmax | cmin
  deriving DecidableEq, Repr

def CellOp.ofCode : Nat → CellOp
  | 0 => .madd | 1 => .adif | 2 => .cmax | _ => .cmin

/-- The exact step value. -/
def stepValue : CellOp → Num → Num → Num
  | .madd, a, b => Num.mul a b
  | .adif, a, b => (Num.add false a b.neg).abs
  | _, a, b => Num.add false a b

/-- `apply` (Table 3.7); a NaN operand of max and min gives NaN (R125). -/
def cellApply (op : CellOp) (x v : Num) : Num :=
  match op with
  | .madd => rc (Num.add false x v)
  | .adif => rc (Num.add false x v)
  | .cmax => if x.isNan || v.isNan then .nan else Num.pick true x (rc v)
  | .cmin => if x.isNan || v.isNan then .nan else Num.pick false x (rc v)

/-- The join and its one rounding (R126, R127). -/
def cellJoin (op : CellOp) (e : Num) (o : Option Num) : Nat :=
  rnd .fp32 .std (match o with | none => e | some v => cellApply op e v)

/-! ## Random bits (R137) -/

def vrandRound (x : DWord) : DWord :=
  (x ^^^ (x >>> 29)) * 0xB5C81E47D2A9637D#64 + 0x3D916AF208C7E45B#64

def vrand (seed : DWord) (gli : Nat) (ctr : DWord) : Word :=
  let x := seed ^^^ (BitVec.ofNat 64 gli * 0xA3F15C279B4DE861#64)
  let x := x + ctr * 0x7E2D94B1C56F0A3B#64
  let x := vrandRound (vrandRound (vrandRound (vrandRound x)))
  (x ^^^ (x >>> 32)).setWidth 32

end Sys2Proof.Machine
end

