-- ==== Sys2Proof/Machine/LongFn.lean ====
section
/-! DEFINITION. The long operations (04 R158, Table 4.3). FRCP, FRSQ and FSQRT round an exact quotient or an integer
square root with its remainder. The others round both ends of an interval that holds the exact value, computed with
640 fraction bits; where the ends round alike that is the result, and else the result is a free value (DESIGN CHOICE, log 7). -/

namespace Sys2Proof.Machine

/-- The functions of Table 4.3. -/
inductive LongFn where
  | rcp | rsq | sqrt | exp2 | log2 | sin | cos | tanh
  deriving DecidableEq, Repr

def LongFn.code : LongFn → Nat
  | .rcp => 0 | .rsq => 1 | .sqrt => 2 | .exp2 => 3 | .log2 => 4 | .sin => 5 | .cos => 6 | .tanh => 7

/-- The integer square root of n, found bit by bit: k bits remain, r is the root so far. -/
def isqrtFrom (n : Nat) : Nat → Nat → Nat
  | 0, r => r
  | k + 1, r => isqrtFrom n k (if (r + 2 ^ k) * (r + 2 ^ k) ≤ n then r + 2 ^ k else r)

def isqrt (n : Nat) : Nat := isqrtFrom n (n.log2 / 2 + 1) 0

/-- The square root of n / d × 2^(2e) rounded: the root is taken with 80 more bits, and a half unit stands for a
remainder. -/
def sqrtRnd (md : FpMode) (n d : Nat) (e : Int) : Nat :=
  let x := n * 2 ^ 400 / d
  let r := isqrt x
  if r * r * d = n * 2 ^ 400 then rndQ .fp32 md.rm md.dno false r 1 (e - 200)
  else rndQ .fp32 md.rm md.dno false (2 * r + 1) 1 (e - 201)

/-- Fraction bits of the enclosures. -/
def longPrec : Nat := 640

def longOne : Nat := 2 ^ longPrec

/-- The width added to an enclosure for the truncations of its terms. -/
def longSlack : Nat := 2 ^ 40

/-- Σ z^(2k+1) / (2k+1) for k below a bound, truncated: atanh z for z at most 1/3. `p` is the current power. -/
def atanhSum (z2 : Nat) : Nat → Nat → Nat → Nat → Nat
  | 0, _, _, acc => acc
  | f + 1, k, p, acc => atanhSum z2 f (k + 1) (p * z2 / longOne) (acc + p / (2 * k + 1))

/-- atanh (n / d) for n / d at most 1/3. -/
def atanhLong (n d : Nat) : Nat :=
  let z := n * longOne / d
  atanhSum (z * z / longOne) 210 0 z 0

/-- ln 2 = 2 atanh (1/3). -/
def ln2Long : Nat := 2 * atanhLong 1 3

/-- atan (1 / d), alternating. -/
def atanSum (d2 : Nat) : Nat → Nat → Nat → Int → Int
  | 0, _, _, acc => acc
  | f + 1, k, p, acc =>
    atanSum d2 f (k + 1) (p / d2) (if k % 2 = 0 then acc + (p / (2 * k + 1) : Nat) else acc - (p / (2 * k + 1) : Nat))

def atanInv (d : Nat) : Int := atanSum (d * d) 145 0 (longOne / d) 0

/-- π = 16 atan (1/5) − 4 atan (1/239). -/
def piLong : Nat := (16 * atanInv 5 - 4 * atanInv 239).toNat

/-- Σ x^k / k! for k below a bound, truncated. -/
def expSum (x : Nat) : Nat → Nat → Nat → Nat → Nat
  | 0, _, _, acc => acc
  | f + 1, k, t, acc => expSum x f (k + 1) (t * x / longOne / (k + 1)) (acc + t)

/-- e^x for 0 ≤ x < 1. -/
def expLong (x : Nat) : Nat := expSum x 150 0 longOne 0

/-- Σ (−1)^k x^(2k+1) / (2k+1)!, truncated. -/
def sinSum (x2 : Nat) : Nat → Nat → Nat → Int → Int
  | 0, _, _, acc => acc
  | f + 1, k, t, acc =>
    sinSum x2 f (k + 1) (t * x2 / longOne / ((2 * k + 2) * (2 * k + 3)))
      (if k % 2 = 0 then acc + (t : Nat) else acc - (t : Nat))

/-- sin x for 0 ≤ x ≤ 1.6. -/
def sinLong (x : Nat) : Nat := (sinSum (x * x / longOne) 90 0 x 0).toNat

/-- The result in a format when the exact value lies between lo / dlo and hi / dhi, times 2^e, with its sign; `free`
where both ends do not round alike. -/
def decideIn (f : FFmt) (md : FpMode) (free : Nat) (neg : Bool) (lo dlo hi dhi : Nat) (e : Int) : Nat :=
  if lo = 0 then free
  else
    let x := rndQ f md.rm md.dno neg lo dlo e
    if x = rndQ f md.rm md.dno neg hi dhi e then x else free

/-- The free value of a long function at an operand. -/
def longFree (md : FpMode) (fn : LongFn) (a : Nat) : Nat :=
  (Config.longValue fn.code (BitVec.ofNat 32 a) (match md.rm with | .rne => 0 | .rtz => 1 | .rup => 2 | _ => 3)).toNat

def decide2 (md : FpMode) (fn : LongFn) (a : Nat) (neg : Bool) (lo dlo hi dhi : Nat) (e : Int) : Nat :=
  decideIn .fp32 md (longFree md fn a) neg lo dlo hi dhi e

/-- 2^x for x = ± m × 2^e in a format: whole and fraction parts, then e^(f ln 2). An argument of 2^10 or more is beyond
every finite result and every denormal, and 2^±1000 rounds as it does (R110, R111). -/
def exp2In (fmt : FFmt) (md : FpMode) (free : Nat) (s : Bool) (m : Nat) (e : Int) : Nat :=
  if m = 0 then rndQ fmt md.rm md.dno false 1 1 0
  else if 10 ≤ leadExp m 1 e then rndQ fmt md.rm md.dno false 1 1 (if s then -1000 else 1000)
  else if 0 ≤ e then
    let k : Int := (m * 2 ^ e.toNat : Nat)
    rndQ fmt md.rm md.dno false 1 1 (if s then -k else k)
  else
    -- x × 2^(−e) as an integer; floor and fraction
    let v : Int := if s then -(m : Int) else m
    let w : Int := (2 ^ (-e).toNat : Nat)
    let i := v / w
    let f := (v % w).toNat
    if f = 0 then rndQ fmt md.rm md.dno false 1 1 i
    else
      let x := f * ln2Long / 2 ^ (-e).toNat
      let y := expLong x
      decideIn fmt md free false y 1 (y + longSlack) 1 (i - longPrec)

def exp2Rnd (md : FpMode) (a : Nat) (s : Bool) (m : Nat) (e : Int) : Nat := exp2In .fp32 md (longFree md .exp2 a) s m e

/-- log₂ a for a = m × 2^e positive: the exponent and ln of the significand over ln 2. -/
def log2Rnd (md : FpMode) (a : Nat) (m : Nat) (e : Int) : Nat :=
  let k := leadExp m 1 e
  let t := 2 ^ m.log2
  if m = t then rnd .fp32 md (Num.ofInt k)
  else
    let l := 2 * atanhLong (m - t) (m + t)
    let lo := l * longOne / (ln2Long + longSlack)
    let hi := (l + longSlack) * longOne / ln2Long + 1
    let vlo : Int := k * (longOne : Int) + lo
    let vhi : Int := k * (longOne : Int) + hi
    if 0 ≤ k then decide2 md .log2 a false vlo.natAbs 1 vhi.natAbs 1 (-longPrec)
    else decide2 md .log2 a true vhi.natAbs 1 vlo.natAbs 1 (-longPrec)

/-- sin (π r) for 0 < r ≤ 1/2 as n / 2^k, with a sign. -/
def sinRnd (md : FpMode) (fn : LongFn) (a : Nat) (neg : Bool) (n k : Nat) : Nat :=
  if 2 * n = 2 ^ k then rndQ .fp32 md.rm md.dno neg 1 1 0
  else
    let x := n * piLong / 2 ^ k
    let y := sinLong x
    decide2 md fn a neg (y - longSlack) 1 (y + longSlack) 1 (-longPrec)

/-- sin (π a) of ± m × 2^e that is no integer: a modulo 2, folded into a quarter turn. -/
def sinPi (md : FpMode) (a : Nat) (s : Bool) (m : Nat) (e : Int) : Nat :=
  let k := (-e).toNat
  let w := 2 ^ k
  let r := m % (2 * w)
  let half := decide (w ≤ r)
  let r := r % w
  sinRnd md .sin a (s != half) (if 2 * r ≤ w then r else w - r) k

/-- cos (π a) = sin (π (a + 1/2)), for a that is not an odd number of halves. -/
def cosPi (md : FpMode) (a : Nat) (m : Nat) (e : Int) : Nat :=
  let k := (-e).toNat + 1
  let w := 2 ^ k
  let m := if 0 ≤ e then m * 2 ^ (e + 1).toNat else 2 * m
  let r := (m + w / 2) % (2 * w)
  let half := decide (w ≤ r)
  let r := r % w
  sinRnd md .cos a half (if 2 * r ≤ w then r else w - r) k

/-- One squaring of an enclosure of a number. -/
def squares : Nat → Nat × Nat → Nat × Nat
  | 0, p => p
  | f + 1, (lo, hi) => squares f (lo * lo / longOne, hi * hi / longOne + 1)

/-- tanh of ± m × 2^e, not zero: (e^2x − 1) / (e^2x + 1) with e^2x from e^(x/128) by eight squarings. Above 64 the
value lies between 1 − 2^-180 and 1, where every value rounds as 1 − 2^-100 does. -/
def tanhRnd (md : FpMode) (a : Nat) (s : Bool) (m : Nat) (e : Int) : Nat :=
  if 6 ≤ leadExp m 1 e then rndQ .fp32 md.rm md.dno s (2 ^ 100 - 1) 1 (-100)
  else
    let x := m * longOne * 2 ^ e.toNat / 2 ^ (-e).toNat / 128
    let y := expLong x
    let (lo, hi) := squares 8 (y, y + longSlack)
    decide2 md .tanh a s (lo - longOne) (lo + longOne) (hi - longOne) (hi + longOne) 0

/-- A long operation on a pattern (Table 4.3). -/
def longOp (md : FpMode) (fn : LongFn) (a : Nat) : Nat :=
  let nan := nanres md .fp32 [(.fp32, a)]
  match fn, din md .fp32 a with
  | _, .nan => nan
  | .rcp, .inf s => FFmt.fp32.withSign s 0
  | .rcp, .fin s m e =>
    if m = 0 then FFmt.fp32.withSign s FFmt.fp32.infPattern else rndQ .fp32 md.rm md.dno s 1 m (-e)
  | .rsq, .inf s => if s then nan else 0
  | .rsq, .fin s m e =>
    if m = 0 then FFmt.fp32.withSign s FFmt.fp32.infPattern
    else if s then nan
    else if e % 2 = 0 then sqrtRnd md 1 m (-e / 2) else sqrtRnd md 1 (2 * m) (-(e - 1) / 2)
  | .sqrt, .inf s => if s then nan else FFmt.fp32.infPattern
  | .sqrt, .fin s m e =>
    if m = 0 then FFmt.fp32.withSign s 0
    else if s then nan
    else if e % 2 = 0 then sqrtRnd md m 1 (e / 2) else sqrtRnd md (2 * m) 1 ((e - 1) / 2)
  | .exp2, .inf s => if s then 0 else FFmt.fp32.infPattern
  | .exp2, .fin s m e => exp2Rnd md a s m e
  | .log2, .inf s => if s then nan else FFmt.fp32.infPattern
  | .log2, .fin s m e =>
    if m = 0 then FFmt.fp32.withSign true FFmt.fp32.infPattern else if s then nan else log2Rnd md a m e
  | .sin, .inf _ => nan
  | .sin, .fin s m e =>
    if m = 0 ∨ 0 ≤ e ∨ m % 2 ^ (-e).toNat = 0 then FFmt.fp32.withSign s 0 else sinPi md a s m e
  | .cos, .inf _ => nan
  | .cos, .fin _ m e =>
    if e < 0 ∧ 2 * m % 2 ^ (-e).toNat = 0 ∧ 2 * m / 2 ^ (-e).toNat % 2 = 1 then 0
    else if e < 0 then cosPi md a m e
    else if e = 0 ∧ m % 2 = 1 then 0xBF800000 else 0x3F800000
  | .tanh, .inf s => FFmt.fp32.withSign s 0x3F800000
  | .tanh, .fin s m e => if m = 0 then FFmt.fp32.withSign s 0 else tanhRnd md a s m e

end Sys2Proof.Machine
end

