-- ==== Sys2Proof/Decode.lean ====
section
/-! DEFINITION. Decoding of instruction words, total on every bit pattern: a word is an instruction, an illegal
encoding with its reason (Table 2.15), or an unassigned opcode (02 R83). The clause's class is not in the word, so
it is an argument. After it the encoder, from the same tables (02 Tables 2.3 to 2.7 and 2.11 to 2.14, 06 R224). -/

namespace Sys2Proof

/-- What a base word and its extension word are. -/
inductive Decoded where
  | ok (i : Instr)
  | illegal (reason : Nat)
  | unassigned
  deriving DecidableEq, Repr

/-! ## Fields of words -/

/-- OP (Table 2.3). -/
def opOf (w : Word) : Nat := (w.extractLsb' 25 7).toNat

/-- LONG (Table 2.3). -/
def longOf (w : Word) : Bool := w.getLsbD 24

/-- GUARD, D, A and B (Table 2.3). -/
def readBase (w : Word) : Base :=
  { guard := w.extractLsb' 21 3, d := w.extractLsb' 14 7, a := w.extractLsb' 7 7, b := w.extractLsb' 0 7 }

/-- EF, the layout of an extension word (R70). -/
def efOf (x : Word) : Nat := (x.extractLsb' 30 2).toNat

/-- Table 2.4. -/
def readExtR (x : Word) : ExtR :=
  { gn := x.getLsbD 29, sd := x.getLsbD 28, sa := x.getLsbD 27, sb := x.getLsbD 26, type := x.extractLsb' 21 5
    scope := x.extractLsb' 18 3, mod := x.extractLsb' 12 6, c := x.extractLsb' 5 7, sc := x.getLsbD 4
    rsv := x.extractLsb' 0 4 }

/-- Table 2.5. -/
def readExtI (x : Word) : ExtI :=
  { gn := x.getLsbD 29, sd := x.getLsbD 28, sa := x.getLsbD 27, type := x.extractLsb' 22 5, imm := x.extractLsb' 0 22 }

/-- Table 2.6. -/
def readExtM (x : Word) : ExtM :=
  { gn := x.getLsbD 29, sd := x.getLsbD 28, sa := x.getLsbD 27, fr := x.getLsbD 26, hint := x.extractLsb' 24 2
    size := x.extractLsb' 21 3, scope := x.extractLsb' 18 3, xs := x.extractLsb' 16 2, off := x.extractLsb' 0 16 }

/-- Table 2.7. -/
def readExtC (x : Word) : ExtC :=
  { gn := x.getLsbD 29, sd := x.getLsbD 28, sa := x.getLsbD 27, scope := x.extractLsb' 24 3
    imm := x.extractLsb' 0 24 }

/-- Table 6.1. -/
def readMm (w : Word) : MmWord :=
  { guard := w.extractLsb' 21 3, as := w.getLsbD 20, atile := w.extractLsb' 14 6, apair := w.extractLsb' 9 5
    ope := w.extractLsb' 7 2, opo := w.extractLsb' 5 2, afmt := w.extractLsb' 2 3, acl := w.getLsbD 1
    rsv := w.getLsbD 0 }

/-- Table 6.2. -/
def readScl (w : Word) : SclWord :=
  { guard := w.extractLsb' 21 3, j := w.extractLsb' 18 3, f := w.extractLsb' 15 3, edge := w.getLsbD 14
    tile := w.extractLsb' 8 6, lead := w.getLsbD 7, rsv := w.extractLsb' 0 7 }

/-- Table 6.3. -/
def readStrm (w : Word) : StrmWord :=
  { guard := w.extractLsb' 21 3, j := w.extractLsb' 18 3, pitch := w.extractLsb' 3 15, rsv := w.extractLsb' 0 3 }

def readPanel (w : Word) : PanelWord :=
  { guard := w.extractLsb' 21 3, j := w.extractLsb' 18 3, bfmt := w.extractLsb' 15 3, rsv := w.extractLsb' 0 15 }

/-- Table 6.4; SRC, bit 14, is told by the constructor. -/
def readIter (w x : Word) : IterWord :=
  { guard := w.extractLsb' 21 3, j := w.extractLsb' 18 3, field := w.extractLsb' 15 3, sreg := w.extractLsb' 8 6
    rsv := w.extractLsb' 0 8, value := x }

/-- Table 6.5. -/
def readLoop (w x : Word) : LoopWord :=
  { guard := w.extractLsb' 21 3, rev := w.extractLsb' 17 4, nl := w.extractLsb' 15 2, rsv := w.extractLsb' 0 15
    count := x }

/-- Table 6.6. -/
def readXgive (w : Word) : XgiveWord :=
  { guard := w.extractLsb' 21 3, tile := w.extractLsb' 15 6, new := w.extractLsb' 9 6, rsv := w.extractLsb' 0 9 }

def readXtake (w : Word) : XtakeWord :=
  { guard := w.extractLsb' 21 3, tile := w.extractLsb' 15 6, rsv := w.extractLsb' 0 15 }

def readXsig (w : Word) : XsigWord :=
  { guard := w.extractLsb' 21 3, n := w.extractLsb' 14 6, value := w.extractLsb' 0 14 }

def readXwait (w : Word) : XwaitWord :=
  { guard := w.extractLsb' 21 3, src := w.getLsbD 20, n := w.extractLsb' 14 6, value := w.extractLsb' 0 14 }

def readXend (w : Word) : XendWord := { guard := w.extractLsb' 21 3, tag := w.extractLsb' 0 21 }

/-! ## Words of fields -/

def writeBase (op : BitVec 7) (long : Bool) (b : Base) : Word :=
  op ++ BitVec.ofBool long ++ b.guard ++ b.d ++ b.a ++ b.b

def writeExtR (x : ExtR) : Word :=
  0b00#2 ++ BitVec.ofBool x.gn ++ BitVec.ofBool x.sd ++ BitVec.ofBool x.sa ++ BitVec.ofBool x.sb ++ x.type ++ x.scope
    ++ x.mod ++ x.c ++ BitVec.ofBool x.sc ++ x.rsv

def writeExtI (x : ExtI) : Word :=
  0b01#2 ++ BitVec.ofBool x.gn ++ BitVec.ofBool x.sd ++ BitVec.ofBool x.sa ++ x.type ++ x.imm

def writeExtM (x : ExtM) : Word :=
  0b10#2 ++ BitVec.ofBool x.gn ++ BitVec.ofBool x.sd ++ BitVec.ofBool x.sa ++ BitVec.ofBool x.fr ++ x.hint ++ x.size
    ++ x.scope ++ x.xs ++ x.off

def writeExtC (x : ExtC) : Word :=
  0b11#2 ++ BitVec.ofBool x.gn ++ BitVec.ofBool x.sd ++ BitVec.ofBool x.sa ++ x.scope ++ x.imm

def writeExtRI : ExtRI → Word
  | .r x => writeExtR x
  | .i x => writeExtI x

/-- An X word's OP, LONG and GUARD over its own 21 bits. -/
def writeX (op : BitVec 7) (long : Bool) (guard : BitVec 3) (rest : BitVec 21) : Word :=
  op ++ BitVec.ofBool long ++ guard ++ rest

def writeMm (op : BitVec 7) (w : MmWord) : Word :=
  writeX op false w.guard (BitVec.ofBool w.as ++ w.atile ++ w.apair ++ w.ope ++ w.opo ++ w.afmt ++ BitVec.ofBool w.acl
    ++ BitVec.ofBool w.rsv)

def writeScl (w : SclWord) : Word :=
  writeX 0x08#7 false w.guard (w.j ++ w.f ++ BitVec.ofBool w.edge ++ w.tile ++ BitVec.ofBool w.lead ++ w.rsv)

def writeStrm (w : StrmWord) : Word := writeX 0x10#7 false w.guard (w.j ++ w.pitch ++ w.rsv)

def writePanel (w : PanelWord) : Word := writeX 0x11#7 false w.guard (w.j ++ w.bfmt ++ w.rsv)

def writeIter (src : Bool) (w : IterWord) : Word :=
  writeX 0x12#7 (!src) w.guard (w.j ++ w.field ++ BitVec.ofBool src ++ w.sreg ++ w.rsv)

def writeLoop (w : LoopWord) : Word := writeX 0x18#7 true w.guard (w.rev ++ w.nl ++ w.rsv)

def writeXgive (w : XgiveWord) : Word := writeX 0x20#7 false w.guard (w.tile ++ w.new ++ w.rsv)

def writeXtake (w : XtakeWord) : Word := writeX 0x21#7 false w.guard (w.tile ++ w.rsv)

def writeXsig (kind : Bool) (w : XsigWord) : Word :=
  writeX 0x22#7 false w.guard (BitVec.ofBool kind ++ w.n ++ w.value)

def writeXwait (w : XwaitWord) : Word := writeX 0x23#7 false w.guard (BitVec.ofBool w.src ++ w.n ++ w.value)

def writeXend (w : XendWord) : Word := writeX 0x24#7 false w.guard w.tag

/-! ## Decoding -/

/-- Short form where the opcode has one (R69); `long` for the long form. -/
def dShort (w : Word) (short : Base → Instr) (long : Decoded) : Decoded :=
  if longOf w then long else .ok (short (readBase w))

/-- A long-only opcode: the short form is reason 0x8 (R69). -/
def dLong (w : Word) (long : Decoded) : Decoded := if longOf w then long else .illegal 0x8

def dR (w x : Word) (k : Base → ExtR → Instr) : Decoded :=
  if efOf x = 0 then .ok (k (readBase w) (readExtR x)) else .illegal 0x8

def dRI (w x : Word) (k : Base → ExtRI → Instr) : Decoded :=
  if efOf x = 0 then .ok (k (readBase w) (.r (readExtR x)))
  else if efOf x = 1 then .ok (k (readBase w) (.i (readExtI x))) else .illegal 0x8

def dM (w x : Word) (k : Base → ExtM → Instr) : Decoded :=
  if efOf x = 2 then .ok (k (readBase w) (readExtM x)) else .illegal 0x8

def dC (w x : Word) (k : Base → ExtC → Instr) : Decoded :=
  if efOf x = 3 then .ok (k (readBase w) (readExtC x)) else .illegal 0x8

/-- An X word without extension (R224). -/
def dX (w : Word) (i : Instr) : Decoded := if longOf w then .illegal 0x8 else .ok i

def dXL (w : Word) (i : Instr) : Decoded := if longOf w then .ok i else .illegal 0x8

/-- KMAP by its KOP field (Table 7.8); 6 and 7 are reason 0x7. -/
def kmapOf (b : Base) (x : ExtC) : Decoded :=
  match (x.imm.extractLsb' 0 3).toNat with
  | 0 => .ok (.kmapAlloc b x)
  | 1 => .ok (.kmapFree b x)
  | 2 => .ok (.kmapFetch b x)
  | 3 => .ok (.kmapEvict b x)
  | 4 => .ok (.kmapLen b x)
  | 5 => .ok (.kmapQuery b x)
  | _ => .illegal 0x7

/-- Class V (Table 2.11); every other opcode is unassigned (R83). -/
def decodeV (w x : Word) : Decoded :=
  match opOf w with
  | 0x00 => dShort w .iadd (dRI w x .iaddLong)
  | 0x01 => dShort w .isub (dRI w x .isubLong)
  | 0x02 => dShort w .imul (dRI w x .imulLong)
  | 0x03 => dShort w .imulh (dRI w x .imulhLong)
  | 0x04 => dLong w (dR w x .imad)
  | 0x05 => dShort w .imin (dRI w x .iminLong)
  | 0x06 => dShort w .imax (dRI w x .imaxLong)
  | 0x07 => dShort w .iabs (dRI w x .iabsLong)
  | 0x08 => dShort w .ineg (dRI w x .inegLong)
  | 0x09 => dLong w (dR w x .isad)
  | 0x10 => dShort w .andW (dRI w x .andLong)
  | 0x11 => dShort w .orW (dRI w x .orLong)
  | 0x12 => dShort w .xorW (dRI w x .xorLong)
  | 0x13 => dShort w .andn (dRI w x .andnLong)
  | 0x14 => dShort w .notW (dRI w x .notLong)
  | 0x15 => dShort w .shl (dRI w x .shlLong)
  | 0x16 => dShort w .shr (dRI w x .shrLong)
  | 0x17 => dShort w .sar (dRI w x .sarLong)
  | 0x18 => dShort w .rotl (dRI w x .rotlLong)
  | 0x19 => dShort w .popc (dRI w x .popcLong)
  | 0x1A => dShort w .clz (dRI w x .clzLong)
  | 0x1B => dShort w .brev (dRI w x .brevLong)
  | 0x1C => dShort w .bfx (dRI w x .bfxLong)
  | 0x1D => dLong w (dR w x .bfi)
  | 0x1E => dLong w (dR w x .perm)
  | 0x20 => dLong w (dRI w x .icmp)
  | 0x21 => dLong w (dRI w x .fcmp)
  | 0x22 => dLong w (dR w x .sel)
  | 0x23 => dLong w (dR w x .plop)
  | 0x24 => dShort w .mov (dR w x .movLong)
  | 0x25 => dLong w (.ok (.movi (readBase w) x))
  | 0x26 => dShort w .lea (dRI w x .leaLong)
  | 0x30 => dShort w .fadd (dRI w x .faddLong)
  | 0x31 => dShort w .fsub (dRI w x .fsubLong)
  | 0x32 => dShort w .fmul (dRI w x .fmulLong)
  | 0x33 => dLong w (dR w x .ffma)
  | 0x34 => dShort w .fmin (dRI w x .fminLong)
  | 0x35 => dShort w .fmax (dRI w x .fmaxLong)
  | 0x36 => dShort w .fscl (dRI w x .fsclLong)
  | 0x37 => dShort w .frnd (dRI w x .frndLong)
  | 0x38 => dShort w .hadd2 (dR w x .hadd2Long)
  | 0x39 => dShort w .hmul2 (dR w x .hmul2Long)
  | 0x3A => dLong w (dR w x .hfma2)
  | 0x40 => dShort w .frcp (dR w x .frcpLong)
  | 0x41 => dShort w .frsq (dR w x .frsqLong)
  | 0x42 => dShort w .fsqrt (dR w x .fsqrtLong)
  | 0x43 => dShort w .fexp2 (dR w x .fexp2Long)
  | 0x44 => dShort w .flog2 (dR w x .flog2Long)
  | 0x45 => dShort w .fsin (dR w x .fsinLong)
  | 0x46 => dShort w .fcos (dR w x .fcosLong)
  | 0x47 => dShort w .ftanh (dR w x .ftanhLong)
  | 0x48 => dLong w (dR w x .cvt)
  | 0x49 => dLong w (dR w x .cvtp)
  | 0x50 => dShort w .shfl (dRI w x .shflLong)
  | 0x51 => dShort w .ballot (dR w x .ballotLong)
  | 0x52 => dShort w .vote (dR w x .voteLong)
  | 0x53 => dShort w .redux (dR w x .reduxLong)
  | 0x54 => dShort w .scan (dR w x .scanLong)
  | 0x55 => dShort w .bcast (dRI w x .bcastLong)
  | 0x56 => if longOf w then dR w x .vrand else .illegal 0x9
  | 0x60 => dLong w (dC w x .bra)
  | 0x61 => dShort w .bri (dR w x .briLong)
  | 0x62 => dLong w (dC w x .call)
  | 0x63 => dShort w .ret (dR w x .retLong)
  | 0x64 => dShort w .conv (dR w x .convLong)
  | 0x65 => dShort w .lyield (dR w x .lyieldLong)
  | 0x66 => dShort w .prio (dR w x .prioLong)
  | 0x67 => dShort w .exit (dR w x .exitLong)
  | 0x68 => dShort w .nop (dR w x .nopLong)
  | _ => .unassigned

/-- Class M (Table 2.12); every other opcode is unassigned (R83). -/
def decodeM (w x : Word) : Decoded :=
  match opOf w with
  | 0x00 => dShort w .sld (dM w x .sldLong)
  | 0x01 => dShort w .sst (dM w x .sstLong)
  | 0x02 => dLong w (dM w x .satom)
  | 0x04 => dShort w .cld (dM w x .cldLong)
  | 0x05 => dShort w .cst (dM w x .cstLong)
  | 0x06 => dLong w (dM w x .catom)
  | 0x08 => dShort w .gld (dM w x .gldLong)
  | 0x09 => dShort w .gst (dM w x .gstLong)
  | 0x0A => dLong w (dM w x .gatom)
  | 0x0B => dLong w (dM w x .gred)
  | 0x0C => dShort w .hld (dM w x .hldLong)
  | 0x0D => dShort w .hst (dM w x .hstLong)
  | 0x10 => dLong w (dM w x .pld)
  | 0x11 => dLong w (dM w x .put)
  | 0x12 => dLong w (dM w x .patom)
  | 0x14 => dLong w (dM w x .kld)
  | 0x15 => dLong w (dM w x .kst)
  | 0x16 => dLong w (dM w x .ksts)
  | 0x20 => dShort w .fence (dC w x (fun b x => if x.imm.getLsbD 0 then .fenceWalk b x else .fenceLong b x))
  | 0x21 => dShort w .acq (dC w x (fun b x => if x.imm.getLsbD 1 then .acqRemote b x else .acqLong b x))
  | 0x22 => dShort w .rel (dC w x .relLong)
  | 0x23 => dShort w .pref (dM w x .prefLong)
  | 0x28 => dLong w (dC w x .bare)
  | 0x29 => dLong w (dC w x .bara)
  | 0x2A => dLong w (dC w x .barw)
  | 0x2B => dLong w (dC w x .baraw)
  | 0x30 => dLong w (dC w x .give)
  | 0x31 => dLong w (dC w x .take)
  | 0x32 => dLong w (dC w x .ownq)
  | 0x38 => dLong w (dC w x .ctradd)
  | 0x39 => dLong w (dC w x .ctrwait)
  | 0x3A => dLong w (dC w x .ctrrd)
  | 0x3C => dLong w (dC w x (fun b x => if x.imm.getLsbD 8 then .ringwFree b x else .ringwFill b x))
  | 0x3D => dLong w (dC w x (fun b x => if x.imm.getLsbD 8 then .ringlFree b x else .ringlFill b x))
  | 0x3E => dLong w (dC w x .ringq)
  | _ => .unassigned

/-- Class X (Table 2.13); every other opcode is unassigned (R83). -/
def decodeX (w x : Word) : Decoded :=
  match opOf w with
  | 0x00 => dX w (.mm (readMm w))
  | 0x01 => dX w (.mmz (readMm w))
  | 0x08 => dX w (.scl (readScl w))
  | 0x10 => dX w (.strm (readStrm w))
  | 0x11 => dX w (.panel (readPanel w))
  | 0x12 => if w.getLsbD 14 then dX w (.iterReg (readIter w 0#32)) else dXL w (.iterImm (readIter w x))
  | 0x18 => dXL w (.loop (readLoop w x))
  | 0x20 => dX w (.xgive (readXgive w))
  | 0x21 => dX w (.xtake (readXtake w))
  | 0x22 => if w.getLsbD 20 then dX w (.xsigBar (readXsig w)) else dX w (.xsig (readXsig w))
  | 0x23 => dX w (.xwait (readXwait w))
  | 0x24 => dX w (.xend (readXend w))
  | _ => .unassigned

/-- Class E (Table 2.14); every other opcode is unassigned (R83). -/
def decodeE (w x : Word) : Decoded :=
  match opOf w with
  | 0x00 => dLong w (dC w x .cnest)
  | 0x01 => dLong w (dC w x .cgo)
  | 0x02 => dLong w (dC w x .cpy)
  | 0x03 => dLong w (dC w x .cred)
  | 0x08 => dLong w (dR w x .qtz)
  | 0x09 => dLong w (dR w x .dqz)
  | 0x0A => dLong w (dR w x (fun b x => if x.mod.getLsbD 4 then .rqzKv b x else .rqz b x))
  | 0x10 => dLong w (dR w x (fun b x => if x.mod.getLsbD 0 then .lsendPort b x else .lsend b x))
  | 0x11 => dLong w (dR w x .lradd)
  | 0x12 => dLong w (dR w x .lwin)
  | 0x18 => dShort w .qpush (dR w x .qpushLong)
  | 0x19 => dShort w .qpop (dR w x .qpopLong)
  | 0x20 => dLong w (dC w x .kopen)
  | 0x21 => dLong w (dC w x .kcommit)
  | 0x22 => dLong w (dC w x .kdrop)
  | 0x23 => dLong w (if efOf x = 3 then kmapOf (readBase w) (readExtC x) else .illegal 0x8)
  | 0x28 => dLong w (dR w x .route)
  | 0x29 => dLong w (dR w x .rret)
  | 0x2A => dLong w (dR w x .rxwait)
  | 0x2B => dLong w (dR w x .rxstat)
  | 0x30 => dLong w (dR w x .amerge)
  | 0x31 => dLong w (dR w x .smxup)
  | 0x38 => dLong w (dC w x .sread)
  | 0x39 => dLong w (dC w x .swrite)
  | 0x3A => dLong w (dC w x .mode)
  | 0x3B => dLong w (dC w x .trap)
  | 0x3C => dShort w .rett (dR w x .rettLong)
  | 0x3D => dLong w (dC w x .sleep)
  | _ => .unassigned

/-- The instruction that base word w, with x the word after it, stands for in a clause of class c. -/
def decode (c : Cls) (w x : Word) : Decoded :=
  match c with
  | .v => decodeV w x
  | .m => decodeM w x
  | .x => decodeX w x
  | .e => decodeE w x

/-! ## Encoding -/

/-- The class and opcode of an instruction; nothing for a step of the device or an unassigned opcode. -/
def Instr.opcode : Instr → Option (Cls × BitVec 7)
  | .iadd _ => some (.v, 0x00#7)
  | .iaddLong _ _ => some (.v, 0x00#7)
  | .isub _ => some (.v, 0x01#7)
  | .isubLong _ _ => some (.v, 0x01#7)
  | .imul _ => some (.v, 0x02#7)
  | .imulLong _ _ => some (.v, 0x02#7)
  | .imulh _ => some (.v, 0x03#7)
  | .imulhLong _ _ => some (.v, 0x03#7)
  | .imad _ _ => some (.v, 0x04#7)
  | .imin _ => some (.v, 0x05#7)
  | .iminLong _ _ => some (.v, 0x05#7)
  | .imax _ => some (.v, 0x06#7)
  | .imaxLong _ _ => some (.v, 0x06#7)
  | .iabs _ => some (.v, 0x07#7)
  | .iabsLong _ _ => some (.v, 0x07#7)
  | .ineg _ => some (.v, 0x08#7)
  | .inegLong _ _ => some (.v, 0x08#7)
  | .isad _ _ => some (.v, 0x09#7)
  | .andW _ => some (.v, 0x10#7)
  | .andLong _ _ => some (.v, 0x10#7)
  | .orW _ => some (.v, 0x11#7)
  | .orLong _ _ => some (.v, 0x11#7)
  | .xorW _ => some (.v, 0x12#7)
  | .xorLong _ _ => some (.v, 0x12#7)
  | .andn _ => some (.v, 0x13#7)
  | .andnLong _ _ => some (.v, 0x13#7)
  | .notW _ => some (.v, 0x14#7)
  | .notLong _ _ => some (.v, 0x14#7)
  | .shl _ => some (.v, 0x15#7)
  | .shlLong _ _ => some (.v, 0x15#7)
  | .shr _ => some (.v, 0x16#7)
  | .shrLong _ _ => some (.v, 0x16#7)
  | .sar _ => some (.v, 0x17#7)
  | .sarLong _ _ => some (.v, 0x17#7)
  | .rotl _ => some (.v, 0x18#7)
  | .rotlLong _ _ => some (.v, 0x18#7)
  | .popc _ => some (.v, 0x19#7)
  | .popcLong _ _ => some (.v, 0x19#7)
  | .clz _ => some (.v, 0x1A#7)
  | .clzLong _ _ => some (.v, 0x1A#7)
  | .brev _ => some (.v, 0x1B#7)
  | .brevLong _ _ => some (.v, 0x1B#7)
  | .bfx _ => some (.v, 0x1C#7)
  | .bfxLong _ _ => some (.v, 0x1C#7)
  | .bfi _ _ => some (.v, 0x1D#7)
  | .perm _ _ => some (.v, 0x1E#7)
  | .icmp _ _ => some (.v, 0x20#7)
  | .fcmp _ _ => some (.v, 0x21#7)
  | .sel _ _ => some (.v, 0x22#7)
  | .plop _ _ => some (.v, 0x23#7)
  | .mov _ => some (.v, 0x24#7)
  | .movLong _ _ => some (.v, 0x24#7)
  | .movi _ _ => some (.v, 0x25#7)
  | .lea _ => some (.v, 0x26#7)
  | .leaLong _ _ => some (.v, 0x26#7)
  | .fadd _ => some (.v, 0x30#7)
  | .faddLong _ _ => some (.v, 0x30#7)
  | .fsub _ => some (.v, 0x31#7)
  | .fsubLong _ _ => some (.v, 0x31#7)
  | .fmul _ => some (.v, 0x32#7)
  | .fmulLong _ _ => some (.v, 0x32#7)
  | .ffma _ _ => some (.v, 0x33#7)
  | .fmin _ => some (.v, 0x34#7)
  | .fminLong _ _ => some (.v, 0x34#7)
  | .fmax _ => some (.v, 0x35#7)
  | .fmaxLong _ _ => some (.v, 0x35#7)
  | .fscl _ => some (.v, 0x36#7)
  | .fsclLong _ _ => some (.v, 0x36#7)
  | .frnd _ => some (.v, 0x37#7)
  | .frndLong _ _ => some (.v, 0x37#7)
  | .hadd2 _ => some (.v, 0x38#7)
  | .hadd2Long _ _ => some (.v, 0x38#7)
  | .hmul2 _ => some (.v, 0x39#7)
  | .hmul2Long _ _ => some (.v, 0x39#7)
  | .hfma2 _ _ => some (.v, 0x3A#7)
  | .frcp _ => some (.v, 0x40#7)
  | .frcpLong _ _ => some (.v, 0x40#7)
  | .frsq _ => some (.v, 0x41#7)
  | .frsqLong _ _ => some (.v, 0x41#7)
  | .fsqrt _ => some (.v, 0x42#7)
  | .fsqrtLong _ _ => some (.v, 0x42#7)
  | .fexp2 _ => some (.v, 0x43#7)
  | .fexp2Long _ _ => some (.v, 0x43#7)
  | .flog2 _ => some (.v, 0x44#7)
  | .flog2Long _ _ => some (.v, 0x44#7)
  | .fsin _ => some (.v, 0x45#7)
  | .fsinLong _ _ => some (.v, 0x45#7)
  | .fcos _ => some (.v, 0x46#7)
  | .fcosLong _ _ => some (.v, 0x46#7)
  | .ftanh _ => some (.v, 0x47#7)
  | .ftanhLong _ _ => some (.v, 0x47#7)
  | .cvt _ _ => some (.v, 0x48#7)
  | .cvtp _ _ => some (.v, 0x49#7)
  | .shfl _ => some (.v, 0x50#7)
  | .shflLong _ _ => some (.v, 0x50#7)
  | .ballot _ => some (.v, 0x51#7)
  | .ballotLong _ _ => some (.v, 0x51#7)
  | .vote _ => some (.v, 0x52#7)
  | .voteLong _ _ => some (.v, 0x52#7)
  | .redux _ => some (.v, 0x53#7)
  | .reduxLong _ _ => some (.v, 0x53#7)
  | .scan _ => some (.v, 0x54#7)
  | .scanLong _ _ => some (.v, 0x54#7)
  | .bcast _ => some (.v, 0x55#7)
  | .bcastLong _ _ => some (.v, 0x55#7)
  | .vrand _ _ => some (.v, 0x56#7)
  | .bra _ _ => some (.v, 0x60#7)
  | .bri _ => some (.v, 0x61#7)
  | .briLong _ _ => some (.v, 0x61#7)
  | .call _ _ => some (.v, 0x62#7)
  | .ret _ => some (.v, 0x63#7)
  | .retLong _ _ => some (.v, 0x63#7)
  | .conv _ => some (.v, 0x64#7)
  | .convLong _ _ => some (.v, 0x64#7)
  | .lyield _ => some (.v, 0x65#7)
  | .lyieldLong _ _ => some (.v, 0x65#7)
  | .prio _ => some (.v, 0x66#7)
  | .prioLong _ _ => some (.v, 0x66#7)
  | .exit _ => some (.v, 0x67#7)
  | .exitLong _ _ => some (.v, 0x67#7)
  | .nop _ => some (.v, 0x68#7)
  | .nopLong _ _ => some (.v, 0x68#7)
  | .sld _ => some (.m, 0x00#7)
  | .sldLong _ _ => some (.m, 0x00#7)
  | .sst _ => some (.m, 0x01#7)
  | .sstLong _ _ => some (.m, 0x01#7)
  | .satom _ _ => some (.m, 0x02#7)
  | .cld _ => some (.m, 0x04#7)
  | .cldLong _ _ => some (.m, 0x04#7)
  | .cst _ => some (.m, 0x05#7)
  | .cstLong _ _ => some (.m, 0x05#7)
  | .catom _ _ => some (.m, 0x06#7)
  | .gld _ => some (.m, 0x08#7)
  | .gldLong _ _ => some (.m, 0x08#7)
  | .gst _ => some (.m, 0x09#7)
  | .gstLong _ _ => some (.m, 0x09#7)
  | .gatom _ _ => some (.m, 0x0A#7)
  | .gred _ _ => some (.m, 0x0B#7)
  | .hld _ => some (.m, 0x0C#7)
  | .hldLong _ _ => some (.m, 0x0C#7)
  | .hst _ => some (.m, 0x0D#7)
  | .hstLong _ _ => some (.m, 0x0D#7)
  | .pld _ _ => some (.m, 0x10#7)
  | .put _ _ => some (.m, 0x11#7)
  | .patom _ _ => some (.m, 0x12#7)
  | .kld _ _ => some (.m, 0x14#7)
  | .kst _ _ => some (.m, 0x15#7)
  | .ksts _ _ => some (.m, 0x16#7)
  | .fence _ => some (.m, 0x20#7)
  | .fenceLong _ _ => some (.m, 0x20#7)
  | .fenceWalk _ _ => some (.m, 0x20#7)
  | .acq _ => some (.m, 0x21#7)
  | .acqLong _ _ => some (.m, 0x21#7)
  | .acqRemote _ _ => some (.m, 0x21#7)
  | .rel _ => some (.m, 0x22#7)
  | .relLong _ _ => some (.m, 0x22#7)
  | .pref _ => some (.m, 0x23#7)
  | .prefLong _ _ => some (.m, 0x23#7)
  | .bare _ _ => some (.m, 0x28#7)
  | .bara _ _ => some (.m, 0x29#7)
  | .barw _ _ => some (.m, 0x2A#7)
  | .baraw _ _ => some (.m, 0x2B#7)
  | .give _ _ => some (.m, 0x30#7)
  | .take _ _ => some (.m, 0x31#7)
  | .ownq _ _ => some (.m, 0x32#7)
  | .ctradd _ _ => some (.m, 0x38#7)
  | .ctrwait _ _ => some (.m, 0x39#7)
  | .ctrrd _ _ => some (.m, 0x3A#7)
  | .ringwFill _ _ => some (.m, 0x3C#7)
  | .ringwFree _ _ => some (.m, 0x3C#7)
  | .ringlFill _ _ => some (.m, 0x3D#7)
  | .ringlFree _ _ => some (.m, 0x3D#7)
  | .ringq _ _ => some (.m, 0x3E#7)
  | .mm _ => some (.x, 0x00#7)
  | .mmz _ => some (.x, 0x01#7)
  | .scl _ => some (.x, 0x08#7)
  | .strm _ => some (.x, 0x10#7)
  | .panel _ => some (.x, 0x11#7)
  | .iterImm _ => some (.x, 0x12#7)
  | .iterReg _ => some (.x, 0x12#7)
  | .loop _ => some (.x, 0x18#7)
  | .xgive _ => some (.x, 0x20#7)
  | .xtake _ => some (.x, 0x21#7)
  | .xsig _ => some (.x, 0x22#7)
  | .xsigBar _ => some (.x, 0x22#7)
  | .xwait _ => some (.x, 0x23#7)
  | .xend _ => some (.x, 0x24#7)
  | .cnest _ _ => some (.e, 0x00#7)
  | .cgo _ _ => some (.e, 0x01#7)
  | .cpy _ _ => some (.e, 0x02#7)
  | .cred _ _ => some (.e, 0x03#7)
  | .qtz _ _ => some (.e, 0x08#7)
  | .dqz _ _ => some (.e, 0x09#7)
  | .rqz _ _ => some (.e, 0x0A#7)
  | .rqzKv _ _ => some (.e, 0x0A#7)
  | .lsend _ _ => some (.e, 0x10#7)
  | .lsendPort _ _ => some (.e, 0x10#7)
  | .lradd _ _ => some (.e, 0x11#7)
  | .lwin _ _ => some (.e, 0x12#7)
  | .qpush _ => some (.e, 0x18#7)
  | .qpushLong _ _ => some (.e, 0x18#7)
  | .qpop _ => some (.e, 0x19#7)
  | .qpopLong _ _ => some (.e, 0x19#7)
  | .kopen _ _ => some (.e, 0x20#7)
  | .kcommit _ _ => some (.e, 0x21#7)
  | .kdrop _ _ => some (.e, 0x22#7)
  | .kmapAlloc _ _ => some (.e, 0x23#7)
  | .kmapFree _ _ => some (.e, 0x23#7)
  | .kmapFetch _ _ => some (.e, 0x23#7)
  | .kmapEvict _ _ => some (.e, 0x23#7)
  | .kmapLen _ _ => some (.e, 0x23#7)
  | .kmapQuery _ _ => some (.e, 0x23#7)
  | .route _ _ => some (.e, 0x28#7)
  | .rret _ _ => some (.e, 0x29#7)
  | .rxwait _ _ => some (.e, 0x2A#7)
  | .rxstat _ _ => some (.e, 0x2B#7)
  | .amerge _ _ => some (.e, 0x30#7)
  | .smxup _ _ => some (.e, 0x31#7)
  | .sread _ _ => some (.e, 0x38#7)
  | .swrite _ _ => some (.e, 0x39#7)
  | .mode _ _ => some (.e, 0x3A#7)
  | .trap _ _ => some (.e, 0x3B#7)
  | .rett _ => some (.e, 0x3C#7)
  | .rettLong _ _ => some (.e, 0x3C#7)
  | .sleep _ _ => some (.e, 0x3D#7)
  | _ => none

/-- The words of an instruction: base word and extension word (R68 to R70, R224). -/
def encode : Instr → List Word
  | .iadd b => [writeBase 0x00#7 false b]
  | .iaddLong b x => [writeBase 0x00#7 true b, writeExtRI x]
  | .isub b => [writeBase 0x01#7 false b]
  | .isubLong b x => [writeBase 0x01#7 true b, writeExtRI x]
  | .imul b => [writeBase 0x02#7 false b]
  | .imulLong b x => [writeBase 0x02#7 true b, writeExtRI x]
  | .imulh b => [writeBase 0x03#7 false b]
  | .imulhLong b x => [writeBase 0x03#7 true b, writeExtRI x]
  | .imad b x => [writeBase 0x04#7 true b, writeExtR x]
  | .imin b => [writeBase 0x05#7 false b]
  | .iminLong b x => [writeBase 0x05#7 true b, writeExtRI x]
  | .imax b => [writeBase 0x06#7 false b]
  | .imaxLong b x => [writeBase 0x06#7 true b, writeExtRI x]
  | .iabs b => [writeBase 0x07#7 false b]
  | .iabsLong b x => [writeBase 0x07#7 true b, writeExtRI x]
  | .ineg b => [writeBase 0x08#7 false b]
  | .inegLong b x => [writeBase 0x08#7 true b, writeExtRI x]
  | .isad b x => [writeBase 0x09#7 true b, writeExtR x]
  | .andW b => [writeBase 0x10#7 false b]
  | .andLong b x => [writeBase 0x10#7 true b, writeExtRI x]
  | .orW b => [writeBase 0x11#7 false b]
  | .orLong b x => [writeBase 0x11#7 true b, writeExtRI x]
  | .xorW b => [writeBase 0x12#7 false b]
  | .xorLong b x => [writeBase 0x12#7 true b, writeExtRI x]
  | .andn b => [writeBase 0x13#7 false b]
  | .andnLong b x => [writeBase 0x13#7 true b, writeExtRI x]
  | .notW b => [writeBase 0x14#7 false b]
  | .notLong b x => [writeBase 0x14#7 true b, writeExtRI x]
  | .shl b => [writeBase 0x15#7 false b]
  | .shlLong b x => [writeBase 0x15#7 true b, writeExtRI x]
  | .shr b => [writeBase 0x16#7 false b]
  | .shrLong b x => [writeBase 0x16#7 true b, writeExtRI x]
  | .sar b => [writeBase 0x17#7 false b]
  | .sarLong b x => [writeBase 0x17#7 true b, writeExtRI x]
  | .rotl b => [writeBase 0x18#7 false b]
  | .rotlLong b x => [writeBase 0x18#7 true b, writeExtRI x]
  | .popc b => [writeBase 0x19#7 false b]
  | .popcLong b x => [writeBase 0x19#7 true b, writeExtRI x]
  | .clz b => [writeBase 0x1A#7 false b]
  | .clzLong b x => [writeBase 0x1A#7 true b, writeExtRI x]
  | .brev b => [writeBase 0x1B#7 false b]
  | .brevLong b x => [writeBase 0x1B#7 true b, writeExtRI x]
  | .bfx b => [writeBase 0x1C#7 false b]
  | .bfxLong b x => [writeBase 0x1C#7 true b, writeExtRI x]
  | .bfi b x => [writeBase 0x1D#7 true b, writeExtR x]
  | .perm b x => [writeBase 0x1E#7 true b, writeExtR x]
  | .icmp b x => [writeBase 0x20#7 true b, writeExtRI x]
  | .fcmp b x => [writeBase 0x21#7 true b, writeExtRI x]
  | .sel b x => [writeBase 0x22#7 true b, writeExtR x]
  | .plop b x => [writeBase 0x23#7 true b, writeExtR x]
  | .mov b => [writeBase 0x24#7 false b]
  | .movLong b x => [writeBase 0x24#7 true b, writeExtR x]
  | .movi b x => [writeBase 0x25#7 true b, x]
  | .lea b => [writeBase 0x26#7 false b]
  | .leaLong b x => [writeBase 0x26#7 true b, writeExtRI x]
  | .fadd b => [writeBase 0x30#7 false b]
  | .faddLong b x => [writeBase 0x30#7 true b, writeExtRI x]
  | .fsub b => [writeBase 0x31#7 false b]
  | .fsubLong b x => [writeBase 0x31#7 true b, writeExtRI x]
  | .fmul b => [writeBase 0x32#7 false b]
  | .fmulLong b x => [writeBase 0x32#7 true b, writeExtRI x]
  | .ffma b x => [writeBase 0x33#7 true b, writeExtR x]
  | .fmin b => [writeBase 0x34#7 false b]
  | .fminLong b x => [writeBase 0x34#7 true b, writeExtRI x]
  | .fmax b => [writeBase 0x35#7 false b]
  | .fmaxLong b x => [writeBase 0x35#7 true b, writeExtRI x]
  | .fscl b => [writeBase 0x36#7 false b]
  | .fsclLong b x => [writeBase 0x36#7 true b, writeExtRI x]
  | .frnd b => [writeBase 0x37#7 false b]
  | .frndLong b x => [writeBase 0x37#7 true b, writeExtRI x]
  | .hadd2 b => [writeBase 0x38#7 false b]
  | .hadd2Long b x => [writeBase 0x38#7 true b, writeExtR x]
  | .hmul2 b => [writeBase 0x39#7 false b]
  | .hmul2Long b x => [writeBase 0x39#7 true b, writeExtR x]
  | .hfma2 b x => [writeBase 0x3A#7 true b, writeExtR x]
  | .frcp b => [writeBase 0x40#7 false b]
  | .frcpLong b x => [writeBase 0x40#7 true b, writeExtR x]
  | .frsq b => [writeBase 0x41#7 false b]
  | .frsqLong b x => [writeBase 0x41#7 true b, writeExtR x]
  | .fsqrt b => [writeBase 0x42#7 false b]
  | .fsqrtLong b x => [writeBase 0x42#7 true b, writeExtR x]
  | .fexp2 b => [writeBase 0x43#7 false b]
  | .fexp2Long b x => [writeBase 0x43#7 true b, writeExtR x]
  | .flog2 b => [writeBase 0x44#7 false b]
  | .flog2Long b x => [writeBase 0x44#7 true b, writeExtR x]
  | .fsin b => [writeBase 0x45#7 false b]
  | .fsinLong b x => [writeBase 0x45#7 true b, writeExtR x]
  | .fcos b => [writeBase 0x46#7 false b]
  | .fcosLong b x => [writeBase 0x46#7 true b, writeExtR x]
  | .ftanh b => [writeBase 0x47#7 false b]
  | .ftanhLong b x => [writeBase 0x47#7 true b, writeExtR x]
  | .cvt b x => [writeBase 0x48#7 true b, writeExtR x]
  | .cvtp b x => [writeBase 0x49#7 true b, writeExtR x]
  | .shfl b => [writeBase 0x50#7 false b]
  | .shflLong b x => [writeBase 0x50#7 true b, writeExtRI x]
  | .ballot b => [writeBase 0x51#7 false b]
  | .ballotLong b x => [writeBase 0x51#7 true b, writeExtR x]
  | .vote b => [writeBase 0x52#7 false b]
  | .voteLong b x => [writeBase 0x52#7 true b, writeExtR x]
  | .redux b => [writeBase 0x53#7 false b]
  | .reduxLong b x => [writeBase 0x53#7 true b, writeExtR x]
  | .scan b => [writeBase 0x54#7 false b]
  | .scanLong b x => [writeBase 0x54#7 true b, writeExtR x]
  | .bcast b => [writeBase 0x55#7 false b]
  | .bcastLong b x => [writeBase 0x55#7 true b, writeExtRI x]
  | .vrand b x => [writeBase 0x56#7 true b, writeExtR x]
  | .bra b x => [writeBase 0x60#7 true b, writeExtC x]
  | .bri b => [writeBase 0x61#7 false b]
  | .briLong b x => [writeBase 0x61#7 true b, writeExtR x]
  | .call b x => [writeBase 0x62#7 true b, writeExtC x]
  | .ret b => [writeBase 0x63#7 false b]
  | .retLong b x => [writeBase 0x63#7 true b, writeExtR x]
  | .conv b => [writeBase 0x64#7 false b]
  | .convLong b x => [writeBase 0x64#7 true b, writeExtR x]
  | .lyield b => [writeBase 0x65#7 false b]
  | .lyieldLong b x => [writeBase 0x65#7 true b, writeExtR x]
  | .prio b => [writeBase 0x66#7 false b]
  | .prioLong b x => [writeBase 0x66#7 true b, writeExtR x]
  | .exit b => [writeBase 0x67#7 false b]
  | .exitLong b x => [writeBase 0x67#7 true b, writeExtR x]
  | .nop b => [writeBase 0x68#7 false b]
  | .nopLong b x => [writeBase 0x68#7 true b, writeExtR x]
  | .sld b => [writeBase 0x00#7 false b]
  | .sldLong b x => [writeBase 0x00#7 true b, writeExtM x]
  | .sst b => [writeBase 0x01#7 false b]
  | .sstLong b x => [writeBase 0x01#7 true b, writeExtM x]
  | .satom b x => [writeBase 0x02#7 true b, writeExtM x]
  | .cld b => [writeBase 0x04#7 false b]
  | .cldLong b x => [writeBase 0x04#7 true b, writeExtM x]
  | .cst b => [writeBase 0x05#7 false b]
  | .cstLong b x => [writeBase 0x05#7 true b, writeExtM x]
  | .catom b x => [writeBase 0x06#7 true b, writeExtM x]
  | .gld b => [writeBase 0x08#7 false b]
  | .gldLong b x => [writeBase 0x08#7 true b, writeExtM x]
  | .gst b => [writeBase 0x09#7 false b]
  | .gstLong b x => [writeBase 0x09#7 true b, writeExtM x]
  | .gatom b x => [writeBase 0x0A#7 true b, writeExtM x]
  | .gred b x => [writeBase 0x0B#7 true b, writeExtM x]
  | .hld b => [writeBase 0x0C#7 false b]
  | .hldLong b x => [writeBase 0x0C#7 true b, writeExtM x]
  | .hst b => [writeBase 0x0D#7 false b]
  | .hstLong b x => [writeBase 0x0D#7 true b, writeExtM x]
  | .pld b x => [writeBase 0x10#7 true b, writeExtM x]
  | .put b x => [writeBase 0x11#7 true b, writeExtM x]
  | .patom b x => [writeBase 0x12#7 true b, writeExtM x]
  | .kld b x => [writeBase 0x14#7 true b, writeExtM x]
  | .kst b x => [writeBase 0x15#7 true b, writeExtM x]
  | .ksts b x => [writeBase 0x16#7 true b, writeExtM x]
  | .fence b => [writeBase 0x20#7 false b]
  | .fenceLong b x => [writeBase 0x20#7 true b, writeExtC x]
  | .fenceWalk b x => [writeBase 0x20#7 true b, writeExtC x]
  | .acq b => [writeBase 0x21#7 false b]
  | .acqLong b x => [writeBase 0x21#7 true b, writeExtC x]
  | .acqRemote b x => [writeBase 0x21#7 true b, writeExtC x]
  | .rel b => [writeBase 0x22#7 false b]
  | .relLong b x => [writeBase 0x22#7 true b, writeExtC x]
  | .pref b => [writeBase 0x23#7 false b]
  | .prefLong b x => [writeBase 0x23#7 true b, writeExtM x]
  | .bare b x => [writeBase 0x28#7 true b, writeExtC x]
  | .bara b x => [writeBase 0x29#7 true b, writeExtC x]
  | .barw b x => [writeBase 0x2A#7 true b, writeExtC x]
  | .baraw b x => [writeBase 0x2B#7 true b, writeExtC x]
  | .give b x => [writeBase 0x30#7 true b, writeExtC x]
  | .take b x => [writeBase 0x31#7 true b, writeExtC x]
  | .ownq b x => [writeBase 0x32#7 true b, writeExtC x]
  | .ctradd b x => [writeBase 0x38#7 true b, writeExtC x]
  | .ctrwait b x => [writeBase 0x39#7 true b, writeExtC x]
  | .ctrrd b x => [writeBase 0x3A#7 true b, writeExtC x]
  | .ringwFill b x => [writeBase 0x3C#7 true b, writeExtC x]
  | .ringwFree b x => [writeBase 0x3C#7 true b, writeExtC x]
  | .ringlFill b x => [writeBase 0x3D#7 true b, writeExtC x]
  | .ringlFree b x => [writeBase 0x3D#7 true b, writeExtC x]
  | .ringq b x => [writeBase 0x3E#7 true b, writeExtC x]
  | .mm w => [writeMm 0x00#7 w]
  | .mmz w => [writeMm 0x01#7 w]
  | .scl w => [writeScl w]
  | .strm w => [writeStrm w]
  | .panel w => [writePanel w]
  | .iterImm w => [writeIter false w, w.value]
  | .iterReg w => [writeIter true w]
  | .loop w => [writeLoop w, w.count]
  | .xgive w => [writeXgive w]
  | .xtake w => [writeXtake w]
  | .xsig w => [writeXsig false w]
  | .xsigBar w => [writeXsig true w]
  | .xwait w => [writeXwait w]
  | .xend w => [writeXend w]
  | .cnest b x => [writeBase 0x00#7 true b, writeExtC x]
  | .cgo b x => [writeBase 0x01#7 true b, writeExtC x]
  | .cpy b x => [writeBase 0x02#7 true b, writeExtC x]
  | .cred b x => [writeBase 0x03#7 true b, writeExtC x]
  | .qtz b x => [writeBase 0x08#7 true b, writeExtR x]
  | .dqz b x => [writeBase 0x09#7 true b, writeExtR x]
  | .rqz b x => [writeBase 0x0A#7 true b, writeExtR x]
  | .rqzKv b x => [writeBase 0x0A#7 true b, writeExtR x]
  | .lsend b x => [writeBase 0x10#7 true b, writeExtR x]
  | .lsendPort b x => [writeBase 0x10#7 true b, writeExtR x]
  | .lradd b x => [writeBase 0x11#7 true b, writeExtR x]
  | .lwin b x => [writeBase 0x12#7 true b, writeExtR x]
  | .qpush b => [writeBase 0x18#7 false b]
  | .qpushLong b x => [writeBase 0x18#7 true b, writeExtR x]
  | .qpop b => [writeBase 0x19#7 false b]
  | .qpopLong b x => [writeBase 0x19#7 true b, writeExtR x]
  | .kopen b x => [writeBase 0x20#7 true b, writeExtC x]
  | .kcommit b x => [writeBase 0x21#7 true b, writeExtC x]
  | .kdrop b x => [writeBase 0x22#7 true b, writeExtC x]
  | .kmapAlloc b x => [writeBase 0x23#7 true b, writeExtC x]
  | .kmapFree b x => [writeBase 0x23#7 true b, writeExtC x]
  | .kmapFetch b x => [writeBase 0x23#7 true b, writeExtC x]
  | .kmapEvict b x => [writeBase 0x23#7 true b, writeExtC x]
  | .kmapLen b x => [writeBase 0x23#7 true b, writeExtC x]
  | .kmapQuery b x => [writeBase 0x23#7 true b, writeExtC x]
  | .route b x => [writeBase 0x28#7 true b, writeExtR x]
  | .rret b x => [writeBase 0x29#7 true b, writeExtR x]
  | .rxwait b x => [writeBase 0x2A#7 true b, writeExtR x]
  | .rxstat b x => [writeBase 0x2B#7 true b, writeExtR x]
  | .amerge b x => [writeBase 0x30#7 true b, writeExtR x]
  | .smxup b x => [writeBase 0x31#7 true b, writeExtR x]
  | .sread b x => [writeBase 0x38#7 true b, writeExtC x]
  | .swrite b x => [writeBase 0x39#7 true b, writeExtC x]
  | .mode b x => [writeBase 0x3A#7 true b, writeExtC x]
  | .trap b x => [writeBase 0x3B#7 true b, writeExtC x]
  | .rett b => [writeBase 0x3C#7 false b]
  | .rettLong b x => [writeBase 0x3C#7 true b, writeExtR x]
  | .sleep b x => [writeBase 0x3D#7 true b, writeExtC x]
  | .unassignedOpcode _ base ext => base :: ext.toList
  | _ => []

/-! ## The table's words -/

/-- An instruction of the first of the classes V, M, E and X in which the word is one: the opcode table gives a row
no class, and one word may be an instruction of several classes (DEDUCED, log 12). -/
def firstOk : List Decoded → Option Instr
  | [] => none
  | .ok i :: _ => some i
  | _ :: ds => firstOk ds

def decodeTableWord (_nbits w : Nat) : Option Instr :=
  let b := BitVec.ofNat 32 w
  let x := BitVec.ofNat 32 (w / 2 ^ 32)
  firstOk [decode .v b x, decode .m b x, decode .e b x, decode .x b x]

end Sys2Proof
end

