-- ==== Sys2Proof/Machine/FieldCheck.lean ====
section
/-! DEFINITION. What an instruction's fields say before it executes: the registers, predicates and resources it names
and the checks of check_group (02 R69 to R78, R86, R87) with the field rules of each instruction chapter. The short
form of an opcode is its long form with the default extension word (R69), so both share one rule. -/

namespace Sys2Proof.Machine

/-! ## Operand types -/

/-- What a TYPE code names (Table 2.8), a format slot read as its ELEM alone (R118). -/
inductive TyKind where
  | int (signed : Bool) (w : Nat)
  | flt (f : FFmt)
  | ws96
  | other
  deriving DecidableEq, Repr

/-- ELEM of a format slot (Table 1.11); INT8 and INT4 are unsigned exactly when ZP is 1 (R108). -/
def elemKind (slot : Word) : TyKind :=
  match (slot.extractLsb' 0 4).toNat with
  | 0 => .flt .fp32
  | 1 => .flt .fp16
  | 2 => .flt .bf16
  | 3 => .flt .e4m3
  | 4 => .flt .e5m2
  | 5 => .flt .e2m1
  | 6 => .int (!slot.getLsbD 10) 8
  | 7 => .int (!slot.getLsbD 10) 4
  | _ => .other

/-- SCALE of a format slot (Table 1.11). -/
def slotScale (slot : Word) : Nat := (slot.extractLsb' 4 4).toNat

def tyKind (formats : List Word) (t : Nat) : TyKind :=
  match t with
  | 0 => .int true 8
  | 1 => .int true 16
  | 2 => .int true 32
  | 3 => .int true 64
  | 4 => .int false 8
  | 5 => .int false 16
  | 6 => .int false 32
  | 7 => .int false 64
  | 9 => .flt .fp32
  | 10 => .flt .fp16
  | 11 => .flt .bf16
  | 12 => .flt .e4m3
  | 13 => .flt .e5m2
  | 14 => .flt .e2m1
  | 15 => .ws96
  | _ => if 16 ≤ t ∧ t < 24 then elemKind (nth 0#32 formats (t - 16)) else .other

/-- Registers that a TYPE occupies (R71). -/
def typeSpan (t : Nat) : Nat := if t = 3 ∨ t = 7 then 2 else if t = 15 then 3 else 1

/-! ## Default extension words (R69) -/

def shortR (type : BitVec 5) : ExtR :=
  { gn := false, sd := false, sa := false, sb := false, type := type, scope := 0#3, mod := 0#6, c := 0#7, sc := false
    rsv := 0#4 }

/-- `.b32` is the default SIZE; PREF has none. -/
def shortM (size : BitVec 3) : ExtM :=
  { gn := false, sd := false, sa := false, fr := false, hint := 0#2, size := size, scope := 0#3, xs := 0#2, off := 0#16 }

def shortC : ExtC := { gn := false, sd := false, sa := false, scope := 0#3, imm := 0#24 }

/-! ## What an instruction names -/

/-- An operand: span vector registers from n, a scalar register, a predicate. -/
inductive Opd where
  | v (n span : Nat)
  | s (n : Nat)
  | p (n : Nat)
  deriving DecidableEq, Repr

/-- A resource that a field names (R87). -/
inductive Res where
  | queue (n : Nat)
  | counter (n : Nat)
  | ring (n : Nat)
  | bar (kind : BarKind) (n : Nat)
  | table (n : Nat)
  deriving DecidableEq, Repr

/-- The outcome of reading an instruction's fields. `bad7` and `bad9` are failures with those reasons that the
operands do not tell, `p0` a predicate destination P0, `badE` a resource that is not available, `ring` a ring named
with SLOTS 0, `transfer` a control transfer. -/
structure Info where
  bad7 : Bool
  bad9 : Bool
  reads : List Opd
  writes : List Opd
  p0 : Bool
  names : List Res
  badE : Bool
  badRing : Bool
  transfer : Bool
  deriving DecidableEq, Repr

def Info.plain : Info :=
  { bad7 := false, bad9 := false, reads := [], writes := [], p0 := false, names := [], badE := false, badRing := false
    transfer := false }

/-- What the checks know of the launch and the group (R86, R269, R288). -/
structure CheckEnv where
  wide : Bool
  barUse : Word
  xtables : BitVec 8
  rings : List RingDesc
  formats : List Word
  kv : Bool
  route : Bool
  handler : Bool
  deriving DecidableEq, Repr

/-- A register operand: scalar when its flag is set. -/
def opd (flag : Bool) (n span : Nat) : Opd := if flag then .s n else .v n span

/-- A register number outside its limit, or a misaligned group of registers (R71, R288). -/
def Opd.bad : Opd → Bool
  | .v n span =>
    if span ≤ 1 then false else if span = 2 then n % 2 ≠ 0 else if span ≤ 4 then n % 4 ≠ 0 else n % span ≠ 0
  | .s n => 64 ≤ n
  | .p n => 8 ≤ n

def Opd.isVec : Opd → Bool
  | .v _ _ => true | _ => false

def Opd.meets : Opd → Opd → Bool
  | .v n k, .v m t => n < m + t && m < n + k
  | .s n, .s m => n == m
  | .p n, .p m => n == m
  | _, _ => false

/-! ## Class V -/

/-- How an opcode of layout R uses its fields: D, A, B and C as registers, the types and modifiers it accepts, and
whether it has a scalar form. -/
structure RForm where
  b : Bool := true
  c : Bool := false
  types : List Nat
  mod : Nat → Bool := fun m => m == 0
  scalar : Bool := true

/-- Layout R of an arithmetic opcode (Table 4.1, R71, R72). -/
def infoVR (w : Base) (x : ExtR) (f : RForm) : Info :=
  let sp := typeSpan x.type.toNat
  let srcs := opd x.sa w.a.toNat sp :: ((if f.b then [opd x.sb w.b.toNat sp] else [])
    ++ (if f.c then [opd x.sc x.c.toNat sp] else []))
  { Info.plain with
    bad7 := x.rsv != 0 || x.scope != 0 || !(f.types.contains x.type.toNat) || !f.mod x.mod.toNat
      || (!f.b && (w.b != 0 || x.sb)) || (!f.c && (x.c != 0 || x.sc)) || (!f.scalar && x.sd)
    bad9 := x.sd && srcs.any Opd.isVec
    reads := srcs
    writes := [opd x.sd w.d.toNat sp] }

/-- The immediate of layout I has a reading for the TYPE, and fits it (R75). -/
def immOk (type : Nat) (imm : BitVec 22) : Bool :=
  if type = 10 ∨ type = 11 then imm.toNat < 2 ^ 16 else type ≤ 9

/-- Layout I of an arithmetic opcode. -/
def infoVI (w : Base) (x : ExtI) (f : RForm) : Info :=
  let sp := typeSpan x.type.toNat
  { Info.plain with
    bad7 := w.b != 0 || !(f.types.contains x.type.toNat) || !immOk x.type.toNat x.imm || (!f.b && x.imm != 0)
      || (!f.scalar && x.sd)
    bad9 := x.sd && !x.sa
    reads := [opd x.sa w.a.toNat sp]
    writes := [opd x.sd w.d.toNat sp] }

def infoV (w : Base) (x : ExtRI) (f : RForm) : Info :=
  match x with
  | .r y => infoVR w y f
  | .i y => infoVI w y f

def intTypes : List Nat := [2, 6, 3, 7]
def bitTypes : List Nat := [8, 2, 6, 3, 7]

def formArith : RForm := { types := intTypes }
def formSat : RForm := { types := intTypes, mod := fun m => m < 2 }
def formMad : RForm := { types := intTypes, c := true }
def formAbs : RForm := { types := [2, 3], b := false, mod := fun m => m < 2 }
def formNeg : RForm := { types := intTypes, b := false, mod := fun m => m < 2 }
def formBits : RForm := { types := bitTypes }
def formBits1 : RForm := { types := bitTypes, b := false }
def formBfi : RForm := { types := bitTypes, c := true }
def formPerm : RForm := { types := [8], c := true }
def formF32 : RForm := { types := [9] }
def formFma : RForm := { types := [9], c := true }
def formHalf : RForm := { types := [11, 10] }
def formHalf3 : RForm := { types := [11, 10], c := true }
def formLong : RForm := { types := [9], b := false }
def formFrnd : RForm := { types := [9], b := false, mod := fun m => m ≤ 4 }
def formMov : RForm := { types := [8, 3, 7], b := false }

/-- FSCL (R155): TYPE `.f32` in layout R, `.i32` in layout I. -/
def infoFscl (w : Base) (x : ExtRI) : Info :=
  match x with
  | .r y => infoVR w y { types := [9] }
  | .i y => infoVI w y { types := [2] }

/-- LEA (R152): B is one 32-bit register whatever the type. -/
def infoLea (w : Base) (x : ExtRI) : Info :=
  match x with
  | .r y =>
    let i := infoVR w y { types := [3, 2], mod := fun m => m < 4 }
    { i with reads := [opd y.sa w.a.toNat (typeSpan y.type.toNat), opd y.sb w.b.toNat 1] }
  | .i y => infoVI w y { types := [3, 2] }

/-- ICMP and FCMP (R146): D holds the predicate and the condition. -/
def infoCmp (w : Base) (x : ExtRI) (types : List Nat) (conds : Nat) : Info :=
  let i := infoV w x { types := types }
  { i with
    bad7 := i.bad7 || decide (conds ≤ (w.d.extractLsb' 3 4).toNat)
    writes := [.p (w.d.extractLsb' 0 3).toNat]
    p0 := w.d.extractLsb' 0 3 == 0 }

/-- SEL (R148): C holds a predicate. -/
def infoSel (w : Base) (x : ExtR) : Info :=
  let i := infoVR w { x with c := 0#7, sc := false } { types := [8, 3, 7] }
  { i with
    bad7 := i.bad7 || x.c.extractLsb' 3 4 != 0 || x.sc
    reads := .p (x.c.extractLsb' 0 3).toNat :: i.reads }

/-- PLOP (R149). -/
def infoPlop (w : Base) (x : ExtR) : Info :=
  { Info.plain with
    bad7 := x.rsv != 0 || x.scope != 0 || x.type != 0 || x.c != 0 || x.sc || x.sa || x.sb || x.sd
      || decide (16 ≤ x.mod.toNat) || decide (8 ≤ w.a.toNat) || decide (8 ≤ w.b.toNat) || decide (8 ≤ w.d.toNat)
    reads := [.p (w.a.extractLsb' 0 3).toNat, .p (w.b.extractLsb' 0 3).toNat]
    writes := [.p (w.d.extractLsb' 0 3).toNat]
    p0 := w.d.extractLsb' 0 3 == 0 }

/-- MOVI (R76). -/
def infoMovi (w : Base) : Info :=
  { Info.plain with
    bad7 := w.a.extractLsb' 3 4 != 0 || w.b != 0 || (w.a.getLsbD 2 && !w.a.getLsbD 0)
    writes := [opd (w.a.getLsbD 0) w.d.toNat 1] }

/-- A pair of CVT is accepted (Table 3.5, R118); `sr` is `.sr`. -/
def cvtOk (formats : List Word) (s d : Nat) (sr : Bool) : Bool :=
  let pair := match tyKind formats s, tyKind formats d with
    | .int _ _, .int _ _ => true
    | .int _ _, .flt _ => true
    | .flt _, .int _ _ => true
    | .flt _, .flt _ => true
    | .flt _, .ws96 => s == 9
    | .ws96, .flt _ => d == 9
    | _, _ => false
  let srOk := match tyKind formats s, tyKind formats d with
    | .flt _, .flt f => f != .fp32
    | _, _ => false
  pair && (!sr || srOk)

/-- CVT (R160). -/
def infoCvt (e : CheckEnv) (w : Base) (x : ExtR) : Info :=
  let s := x.type.toNat
  let d := (x.mod.extractLsb' 0 5).toNat
  let sr := x.mod.getLsbD 5
  let srcs := opd x.sa w.a.toNat (typeSpan s) :: ((if d = 15 then [opd x.sb w.b.toNat 1] else [])
    ++ (if sr then [opd x.sc x.c.toNat 1] else []))
  { Info.plain with
    bad7 := x.rsv != 0 || x.scope != 0 || !cvtOk e.formats s d sr || (d != 15 && (w.b != 0 || x.sb))
      || (!sr && (x.c != 0 || x.sc)) || (x.sd && (s == 15 || d == 15))
    bad9 := (x.sd && srcs.any Opd.isVec) || (x.sa && s == 15)
    reads := srcs
    writes := [opd x.sd w.d.toNat (typeSpan d)] }

/-- CVTP packs two FP32 values, or unpacks a pair (Table 4.4). -/
def infoCvtp (w : Base) (x : ExtR) : Info :=
  let s := x.type.toNat
  let d := (x.mod.extractLsb' 0 5).toNat
  let sr := x.mod.getLsbD 5
  let pack := s == 9 && decide (10 ≤ d ∧ d ≤ 14)
  let unpack := (s == 10 || s == 11) && d == 9
  let srcs := opd x.sa w.a.toNat 1 :: ((if pack then [opd x.sb w.b.toNat 1] else [])
    ++ (if sr then [opd x.sc x.c.toNat 1] else []))
  { Info.plain with
    bad7 := x.rsv != 0 || x.scope != 0 || !(pack || unpack) || (unpack && (sr || x.sd || w.b != 0 || x.sb))
      || (!sr && (x.c != 0 || x.sc))
    bad9 := x.sd && srcs.any Opd.isVec
    reads := srcs
    writes := [opd x.sd w.d.toNat (if unpack then 2 else 1)] }

/-- SHFL (R162). -/
def infoShfl (w : Base) (x : ExtRI) : Info :=
  match x with
  | .r y => infoVR w y { types := [8], mod := fun m => m < 4, scalar := false }
  | .i y =>
    let i := infoVI w y { types := [8], scalar := false }
    { i with bad7 := i.bad7 || decide (1024 ≤ y.imm.toNat) }

/-- BALLOT (R164). -/
def infoBallot (e : CheckEnv) (w : Base) (x : ExtR) : Info :=
  let tos := x.mod.getLsbD 5
  { Info.plain with
    bad7 := x.rsv != 0 || x.scope != 0 || x.type != 8 || w.b != 0 || x.sb || x.sa || x.sd || x.c != 0 || x.sc
      || (x.mod.toNat != 0 && x.mod.toNat != 32) || decide (8 ≤ w.a.toNat)
    reads := [.p (w.a.extractLsb' 0 3).toNat]
    writes := [opd tos w.d.toNat (if e.wide then 2 else 1)] }

/-- VOTE (R165). -/
def infoVote (w : Base) (x : ExtR) : Info :=
  { Info.plain with
    bad7 := x.rsv != 0 || x.scope != 0 || x.type != 0 || w.b != 0 || x.sb || x.sa || x.sd || x.c != 0 || x.sc
      || decide (3 ≤ x.mod.toNat) || decide (8 ≤ w.a.toNat) || decide (8 ≤ w.d.toNat)
    reads := [.p (w.a.extractLsb' 0 3).toNat]
    writes := [.p (w.d.extractLsb' 0 3).toNat]
    p0 := w.d.extractLsb' 0 3 == 0 }

/-- The types of a combining operation (Table 4.5). -/
def combineTypes : Nat → List Nat
  | 0 => [8, 2, 6]
  | 1 => [2, 6]
  | 2 => [2, 6]
  | 3 => [8]
  | 4 => [8]
  | 5 => [8]
  | 6 => [9]
  | 7 => [9]
  | 8 => [9]
  | _ => []

/-- REDUX and SCAN (R163); `flag` is the modifier bit that the opcode accepts. -/
def infoCombine (w : Base) (x : ExtR) (redux : Bool) : Info :=
  let tos := redux && x.mod.getLsbD 5
  { Info.plain with
    bad7 := x.rsv != 0 || x.scope != 0 || w.b != 0 || x.sb || x.sd || x.c != 0 || x.sc
      || !((combineTypes (x.mod.extractLsb' 0 4).toNat).contains x.type.toNat)
      || (if redux then x.mod.getLsbD 4 else x.mod.getLsbD 5)
    reads := [opd x.sa w.a.toNat 1]
    writes := [opd tos w.d.toNat 1] }

/-- BCAST (R166). -/
def infoBcast (w : Base) (x : ExtRI) : Info :=
  match x with
  | .r y =>
    let i := infoVR w y { types := [8], mod := fun m => m == 0 || m == 32, scalar := false }
    { i with writes := [opd (y.mod.getLsbD 5) w.d.toNat 1] }
  | .i y => infoVI w y { types := [8], scalar := false }

/-- VRAND (R167). -/
def infoVrand (w : Base) (x : ExtR) : Info :=
  { Info.plain with
    bad7 := x.rsv != 0 || x.scope != 0 || x.type != 8 || x.mod != 0 || x.c != 0 || x.sc || x.sd
    bad9 := !x.sa || !x.sb
    reads := [opd x.sa w.a.toNat 1, opd x.sb w.b.toNat 1]
    writes := [.v w.d.toNat 1, opd x.sb w.b.toNat 1] }

/-- BRA (R168). -/
def infoBra (w : Base) (x : ExtC) : Info :=
  let hint := (w.d.extractLsb' 1 2).toNat
  { Info.plain with
    bad7 := x.sd || x.sa || x.scope != 0 || w.a != 0 || w.b != 0 || w.d.extractLsb' 3 4 != 0 || hint == 3
      || (hint != 0 && !w.d.getLsbD 0)
    transfer := true }

/-- CALL (R169). -/
def infoCall (w : Base) (x : ExtC) : Info :=
  { Info.plain with
    bad7 := x.sa || x.scope != 0 || w.a != 0 || w.b != 0
    writes := [opd x.sd w.d.toNat 1]
    transfer := true }

/-- Layout R with no field but the listed ones. -/
def bareR (w : Base) (x : ExtR) : Bool :=
  x.rsv != 0 || x.scope != 0 || x.type != 0 || x.mod != 0 || x.c != 0 || x.sc || x.sb || x.sd || w.d != 0 || w.b != 0

/-- BRI and RET (R170). -/
def infoBri (w : Base) (x : ExtR) : Info :=
  { Info.plain with bad7 := bareR w x, reads := [opd x.sa w.a.toNat 1], transfer := true }

/-- CONV, LYIELD, NOP and EXIT (R175). -/
def infoNone (w : Base) (x : ExtR) (transfer : Bool) : Info :=
  { Info.plain with bad7 := bareR w x || w.a != 0 || x.sa, transfer := transfer }

/-- PRIO (R174). -/
def infoPrio (w : Base) (x : ExtR) : Info :=
  { Info.plain with bad7 := bareR w x || x.sa || (decide (32 ≤ w.a.toNat) && w.a != 0x7F) }

/-! ## Class M -/

/-- Spaces S, C and P take a 32-bit base, G and H a 64-bit one (R177). -/
def spaceWide : Space → Bool
  | .g => true | .h => true | _ => false

/-- The data registers of an access: loads and stores by SIZE, atomics with their swap value and WS96 (R179,
R195). -/
def dataSpan (atom : Bool) (size aop : Nat) : Nat :=
  if atom && aop == 10 then (if size == 3 then 4 else 2)
  else if size ≤ 2 then 1 else if size = 3 then 2 else if atom then 3 else 4

/-- Registers that an atomic's old value fills. -/
def oldSpan (size : Nat) : Nat := if size ≤ 2 then 1 else if size = 3 then 2 else 3

/-- Accepted combinations of AOP and SIZE (Table 5.3). -/
def aopOk (sp : Space) (red : Bool) (aop size : Nat) : Bool :=
  let w := size == 2 || size == 3
  if aop = 0 ∨ (2 ≤ aop ∧ aop ≤ 8) then w
  else if 9 ≤ aop ∧ aop ≤ 11 then w && !red
  else if aop = 1 then
    size == 2 || (size == 1 && sp != .p) || (size == 4 && sp == .g)
  else if aop = 12 ∨ aop = 13 then size == 2 && sp != .p
  else false

/-- FR and HINT of an access (Table 5.1, R187, R188). -/
def frHintOk (sp : Space) (k : AccKind) (fr : Bool) (hint : Nat) : Bool :=
  match sp, k with
  | .g, .load => !fr || hint == 0
  | .g, .store => (!fr && hint != 1) || (fr && hint == 0)
  | .p, .load => hint == 0
  | _, _ => !fr && hint == 0

/-- An access instruction (R176 to R180, R194, R195). -/
def infoAccess (w : Base) (x : ExtM) (sp : Space) (k : AccKind) : Info :=
  let size := x.size.toNat
  let atom := k == .atom || k == .red
  let aop := (x.off.extractLsb' 12 4).toNat
  let n := dataSpan atom size aop
  let base := opd x.sa w.a.toNat (if spaceWide sp then 2 else 1)
  let idx := if w.b = 0 then [] else [Opd.v w.b.toNat 1]
  let data := if x.sd then (if atom && aop == 10 then [Opd.s w.d.toNat, Opd.s (w.d.toNat + 1)] else [Opd.s w.d.toNat])
    else [Opd.v w.d.toNat n]
  let old := if x.sd then [Opd.s w.d.toNat] else [Opd.v w.d.toNat (oldSpan size)]
  { Info.plain with
    bad7 := x.scope != 0 || decide (5 ≤ size) || !frHintOk sp k x.fr x.hint.toNat
      || (atom && !aopOk sp (k == .red) aop size) || (x.sd && size == 4)
    bad9 := x.sd && (!x.sa || w.b != 0)
    reads := (match k with | .load => [] | _ => data) ++ base :: idx
    writes := match k with | .load => data | .atom => old | _ => [] }

/-- PREF (R190). -/
def infoPref (w : Base) (x : ExtM) : Info :=
  { Info.plain with
    bad7 := x.scope != 0 || w.d != 0 || x.sd || x.size != 0
    reads := opd x.sa w.a.toNat 2 :: (if w.b = 0 then [] else [.v w.b.toNat 1]) }

/-- KLD, KST and KSTS (Table 7.5). -/
def infoKv (e : CheckEnv) (w : Base) (x : ExtM) (load : Bool) : Info :=
  let st := (x.off.extractLsb' 5 7).toNat
  let slot := nth 0#32 e.formats x.size.toNat
  { Info.plain with
    bad7 := x.sd || x.fr || x.hint != 0 || x.scope != 0 || x.xs != 0 || slotScale slot != 0
      || x.off.extractLsb' 12 4 != 0 || (!x.off.getLsbD 4 && x.off.extractLsb' 0 4 != 0)
    bad9 := w.b == 0 || st == w.d.toNat
    reads := (if load then [] else [Opd.v w.d.toNat 1]) ++ [opd x.sa w.a.toNat 1, .v w.b.toNat 1]
    writes := (if load then [Opd.v w.d.toNat 1] else []) ++ [.v st 1]
    badE := !e.kv }

/-- FENCE and REL; `flags` are the accepted bits of IMM24 (R198, R200). -/
def infoSync (w : Base) (x : ExtC) (flags : Nat) (walk : Bool) : Info :=
  { Info.plain with
    bad7 := w.d != 0 || w.a != 0 || w.b != 0 || x.sd || x.sa || x.imm.toNat != flags || (walk && x.scope != 5) }

/-- ACQ `.remote` (R201). -/
def infoAcqRemote (w : Base) (x : ExtC) : Info :=
  { Info.plain with
    bad7 := w.d != 0 || w.b != 0 || x.sd || x.imm.toNat != 2 || decide (x.scope.toNat < 2 ∨ 5 < x.scope.toNat)
    reads := [opd x.sa w.a.toNat 1] }

def barKind : Nat → BarKind
  | 0 => .block | 1 => .cluster | 2 => .die | _ => .device

/-- Barriers of a kind (R202). -/
def barLimit : BarKind → Nat
  | .block => 16 | .cluster => 8 | _ => 4

/-- The BARRIER_USE flag of a barrier (Table 1.12). -/
def barFlag (use_ : Word) (k : BarKind) (n : Nat) : Bool :=
  match k with
  | .block => use_.getLsbD n
  | .cluster => use_.getLsbD (16 + n)
  | .die => use_.getLsbD (24 + n)
  | .device => use_.getLsbD (28 + n)

/-- BARE, BARA, BARW and BARAW (Table 5.5). -/
def infoBar (e : CheckEnv) (w : Base) (x : ExtC) (count : Bool) : Info :=
  let k := barKind (x.imm.extractLsb' 6 2).toNat
  let n := (x.imm.extractLsb' 0 4).toNat
  { Info.plain with
    bad7 := w.d != 0 || w.a != 0 || w.b != 0 || x.sd || x.sa || x.scope != 0 || x.imm.extractLsb' 14 10 != 0
      || x.imm.extractLsb' 4 2 != 0 || decide (barLimit k ≤ n) || (!count && x.imm.extractLsb' 8 6 != 0)
    names := [.bar k n]
    badE := !barFlag e.barUse k n }

/-- GIVE, TAKE and OWNQ (Table 5.6): 0, 1 and 2. -/
def infoTile (e : CheckEnv) (w : Base) (x : ExtC) (which : Nat) : Info :=
  let sel := (x.imm.extractLsb' 22 2).toNat
  let tile := (x.imm.extractLsb' 16 6).toNat
  let bv := x.imm.getLsbD 15
  let be := (x.imm.extractLsb' 13 2).toNat
  let new := (x.imm.extractLsb' 0 6).toNat
  { Info.plain with
    bad7 := w.b != 0 || x.scope != 0 || x.imm.extractLsb' 6 7 != 0
      || (sel == 0 && decide ((if e.wide then 4 else 2) ≤ tile)) || (decide (2 ≤ sel) && tile != 0)
      || (sel == 3 && which != 1) || ((which != 1 || !bv) && be != 0) || (which != 1 && bv)
      || (bv && !e.wide && decide (2 ≤ be)) || (if which = 0 then decide (0x25 ≤ new) else new != 0)
      || (sel != 2 && (w.a != 0 || x.sa)) || (which != 2 && (w.d != 0 || x.sd))
    bad9 := (sel == 2 && !x.sa) || (which == 2 && !x.sd)
    reads := if sel = 2 then [opd x.sa w.a.toNat 1] else []
    writes := if which = 2 then [opd x.sd w.d.toNat 1] else [] }

/-- CTRADD and CTRWAIT (R211). -/
def infoCtr (w : Base) (x : ExtC) : Info :=
  { Info.plain with
    bad7 := w.d != 0 || x.sd || w.b != 0 || x.imm.extractLsb' 6 2 != 0
      || (if x.sa then x.imm.extractLsb' 8 16 != 0 else w.a != 0)
    reads := if x.sa then [.s w.a.toNat] else []
    names := [.counter (x.imm.extractLsb' 0 6).toNat] }

/-- CTRRD (R211). -/
def infoCtrrd (w : Base) (x : ExtC) : Info :=
  { Info.plain with
    bad7 := w.a != 0 || x.sa || w.b != 0 || x.scope != 0 || x.imm.extractLsb' 6 18 != 0
    bad9 := !x.sd
    writes := [opd x.sd w.d.toNat 1]
    names := [.counter (x.imm.extractLsb' 0 6).toNat] }

/-- Slots of a ring descriptor. -/
def ringSlots (rs : List RingDesc) (n : Nat) : Nat :=
  match rs[n]? with
  | none => 0
  | some r => r.slots

/-- RINGW, RINGL and RINGQ (R216): 0, 1 and 2. -/
def infoRing (e : CheckEnv) (w : Base) (x : ExtC) (which : Nat) : Info :=
  let n := (x.imm.extractLsb' 0 3).toNat
  { Info.plain with
    bad7 := w.a != 0 || w.b != 0 || x.sa || x.scope != 0 || x.imm.extractLsb' 3 5 != 0 || x.imm.extractLsb' 9 7 != 0
      || (which == 1 && (w.d != 0 || x.sd || x.imm.extractLsb' 16 8 != 0))
      || (which == 2 && (x.imm.getLsbD 8 || x.imm.extractLsb' 16 8 != 0))
    bad9 := which != 1 && !x.sd
    writes := if which = 1 then [] else [opd x.sd w.d.toNat 1]
    names := [.ring n]
    badRing := ringSlots e.rings n == 0 }

/-! ## Class E -/

/-- An engine command of layout C: SD and SA are required, D, A and B name scalars (R245). -/
def engineC (w : Base) (x : ExtC) (d b : Bool) (bad7 : Bool) : Info :=
  { Info.plain with
    bad7 := bad7 || (!d && w.d != 0) || (!b && w.b != 0)
    bad9 := !x.sd || !x.sa
    reads := (if d then [Opd.s w.d.toNat] else []) ++ [Opd.s w.a.toNat] ++ (if b then [Opd.s w.b.toNat] else []) }

def engineCtr (x : ExtC) : Res := .counter (x.imm.extractLsb' 12 6).toNat

/-- CNEST (R250). -/
def infoCnest (w : Base) (x : ExtC) : Info :=
  engineC w x false false (x.imm.extractLsb' 20 4 != 0 || x.imm.extractLsb' 11 7 != 0 || x.imm.extractLsb' 0 9 != 0)

/-- CGO (R250, R253). -/
def infoCgo (e : CheckEnv) (w : Base) (x : ExtC) : Info :=
  let rng := x.imm.getLsbD 8
  let ring := (x.imm.extractLsb' 5 3).toNat
  let i := engineC w x true false (x.imm.extractLsb' 20 2 == 2 || x.imm.extractLsb' 0 2 != 0
    || decide (6 ≤ (x.imm.extractLsb' 2 3).toNat) || (!rng && x.imm.extractLsb' 2 6 != 0))
  { i with
    names := engineCtr x :: (if rng then [.ring ring] else [])
    badRing := rng && ringSlots e.rings ring == 0 }

/-- CPY (R250, R251). -/
def infoCpy (w : Base) (x : ExtC) : Info :=
  { engineC w x true true (x.imm.extractLsb' 20 2 == 2 || x.imm.extractLsb' 0 10 != 0) with names := [engineCtr x] }

/-- CRED (R250, R254). -/
def infoCred (e : CheckEnv) (w : Base) (x : ExtC) : Info :=
  let bar := (x.imm.extractLsb' 2 4).toNat
  let on := x.imm.getLsbD 6
  let i := engineC w x true true (decide (2 ≤ (x.imm.extractLsb' 22 2).toNat)
    || x.imm.extractLsb' 20 2 == 1 || x.imm.extractLsb' 20 2 == 2 || x.imm.extractLsb' 0 2 != 0
    || decide (5 ≤ (x.imm.extractLsb' 7 3).toNat) || (!on && bar != 0))
  { i with
    names := engineCtr x :: (if on then [.bar .block bar] else [])
    badE := on && !barFlag e.barUse .block bar }

/-- An engine command of layout R: SD and the flag of every used operand are required (R245). -/
def engineR (w : Base) (x : ExtR) (d c : Bool) (bad7 : Bool) : Info :=
  { Info.plain with
    bad7 := bad7 || x.rsv != 0 || (!d && w.d != 0) || (!c && (x.c != 0 || x.sc))
    bad9 := !x.sd || !x.sa || !x.sb || (c && !x.sc)
    reads := (if d then [Opd.s w.d.toNat] else []) ++ [Opd.s w.a.toNat, Opd.s w.b.toNat]
      ++ (if c then [Opd.s x.c.toNat] else []) }

def slotType (x : ExtR) : Bool := decide (16 ≤ x.type.toNat ∧ x.type.toNat < 24)

/-- QTZ (R256). -/
def infoQtz (w : Base) (x : ExtR) : Info :=
  engineR w x true true (!slotType x || x.mod.extractLsb' 0 2 == 2 || x.mod.getLsbD 3 || x.mod.extractLsb' 4 2 == 3)

/-- DQZ (R257). -/
def infoDqz (w : Base) (x : ExtR) : Info :=
  engineR w x true true (!slotType x || x.mod.extractLsb' 0 2 == 2 || x.mod.getLsbD 3 || x.mod.extractLsb' 4 2 == 3)

/-- RQZ in space G (R258): D and D+1 are read. -/
def infoRqz (w : Base) (x : ExtR) : Info :=
  let i := engineR w x true true (!slotType x || x.mod.getLsbD 3 || x.mod.getLsbD 5)
  { i with reads := i.reads ++ [Opd.s (w.d.toNat + 1)] }

/-- RQZ of a KV page (R258, R269). -/
def infoRqzKv (e : CheckEnv) (w : Base) (x : ExtR) : Info :=
  { engineR w x false false (!slotType x || x.mod.getLsbD 3 || x.mod.getLsbD 5) with badE := !e.kv }

/-- LSEND, as a put or to a port (R259). -/
def infoLsend (w : Base) (x : ExtR) (port : Bool) : Info :=
  engineR w x true (!port) (x.type != 0 || x.mod.extractLsb' 1 5 != 0)

/-- LRADD (R260). -/
def infoLradd (w : Base) (x : ExtR) : Info :=
  engineR w x true false (!([9, 11, 15].contains x.type.toNat) || x.mod != 0)

/-- LWIN (R261). -/
def infoLwin (w : Base) (x : ExtR) : Info := engineR w x false false (x.type != 0 || x.mod != 0)

/-- QPUSH and QPOP (R262). -/
def infoQueue (w : Base) (x : ExtR) (push : Bool) : Info :=
  let sp := typeSpan x.type.toNat
  { Info.plain with
    bad7 := x.rsv != 0 || x.scope != 0 || x.mod != 0 || x.c != 0 || x.sc || x.sb || w.b.extractLsb' 4 3 != 0
      || !([8, 7].contains x.type.toNat) || (if push then w.d != 0 || x.sd else w.a != 0 || x.sa)
    reads := if push then [opd x.sa w.a.toNat sp] else []
    writes := if push then [] else [opd x.sd w.d.toNat sp]
    names := [.queue (w.b.extractLsb' 0 4).toNat] }

/-- KOPEN (Table 7.8). -/
def infoKopen (e : CheckEnv) (w : Base) (x : ExtC) : Info :=
  { Info.plain with
    bad7 := x.scope != 0 || w.d != 0 || x.sd || w.b != 0 || x.imm.extractLsb' 4 20 != 0
    bad9 := !x.sa
    reads := [opd x.sa w.a.toNat 1]
    badE := !e.kv }

/-- KCOMMIT (Table 7.8). -/
def infoKcommit (e : CheckEnv) (w : Base) (x : ExtC) : Info :=
  let vec := x.imm.getLsbD 4
  let cv := x.imm.getLsbD 5
  { Info.plain with
    bad7 := x.scope != 0 || w.d != 0 || x.sd || w.b != 0 || x.imm.extractLsb' 20 4 != 0
      || (!cv && x.imm.extractLsb' 6 6 != 0) || (if vec then x.imm.extractLsb' 12 8 != 0 else w.a != 0 || x.sa)
    bad9 := vec && !x.sa
    reads := if vec then [opd x.sa w.a.toNat 1] else []
    names := if cv then [.counter (x.imm.extractLsb' 6 6).toNat] else []
    badE := !e.kv }

/-- KDROP (Table 7.8). -/
def infoKdrop (e : CheckEnv) (w : Base) (x : ExtC) : Info :=
  let cv := x.imm.getLsbD 5
  { Info.plain with
    bad7 := x.scope != 0 || w.d != 0 || x.sd || w.b != 0 || w.a != 0 || x.sa || x.imm.extractLsb' 12 12 != 0
      || x.imm.getLsbD 4 || (!cv && x.imm.extractLsb' 6 6 != 0)
    names := if cv then [.counter (x.imm.extractLsb' 6 6).toNat] else []
    badE := !e.kv }

/-- KMAP (Table 7.8). -/
def infoKmap (e : CheckEnv) (w : Base) (x : ExtC) : Info :=
  { Info.plain with
    bad7 := x.scope != 0 || w.b != 0 || x.imm.extractLsb' 3 21 != 0
    bad9 := !x.sa || !x.sd
    reads := [opd x.sa w.a.toNat 1]
    writes := [opd x.sd w.d.toNat 1]
    badE := !e.kv }

/-- A reassembly table that the launch has (R28, R86, R269). -/
def tableBad (e : CheckEnv) (n : Nat) : Bool := !e.route || !e.xtables.getLsbD n

/-- ROUTE (Table 7.12). -/
def infoRoute (e : CheckEnv) (w : Base) (x : ExtR) : Info :=
  let t := (x.mod.extractLsb' 0 2).toNat
  { Info.plain with
    bad7 := x.rsv != 0 || x.scope != 0 || !([10, 11].contains x.type.toNat) || x.mod.extractLsb' 3 3 != 0
      || w.d != 0 || x.sd || x.sc || x.c.getLsbD 6
    bad9 := !x.sa || !x.sb
    reads := [opd x.sa w.a.toNat 1, opd x.sb w.b.toNat 1]
    names := [.table t, .counter (x.c.extractLsb' 0 6).toNat]
    badE := tableBad e t }

/-- RRET (Table 7.12). -/
def infoRret (e : CheckEnv) (w : Base) (x : ExtR) : Info :=
  { Info.plain with
    bad7 := x.rsv != 0 || x.scope != 0 || x.type != 0 || x.mod != 0 || w.d != 0 || x.sd || x.c != 0 || x.sc
    bad9 := !x.sa || !x.sb
    reads := [opd x.sa w.a.toNat 1, opd x.sb w.b.toNat 1]
    badE := !e.route }

/-- RXWAIT (Table 7.12). -/
def infoRxwait (e : CheckEnv) (w : Base) (x : ExtR) : Info :=
  let t := (x.mod.extractLsb' 0 2).toNat
  { Info.plain with
    bad7 := bareR w { x with mod := 0#6 } || x.mod.extractLsb' 2 4 != 0 || w.a != 0 || x.sa
    names := [.table t]
    badE := tableBad e t }

/-- RXSTAT (Table 7.12). -/
def infoRxstat (e : CheckEnv) (w : Base) (x : ExtR) : Info :=
  let t := (x.mod.extractLsb' 0 2).toNat
  { Info.plain with
    bad7 := x.rsv != 0 || x.scope != 0 || x.type != 0 || x.mod.extractLsb' 2 4 != 0 || w.a != 0 || x.sa || x.c != 0
      || x.sc
    bad9 := !x.sd || !x.sb
    reads := [opd x.sb w.b.toNat 1]
    writes := [opd x.sd w.d.toNat 1]
    names := [.table t]
    badE := tableBad e t }

/-- AMERGE (Table 7.10). -/
def infoAmerge (e : CheckEnv) (w : Base) (x : ExtR) : Info :=
  let na := x.mod.getLsbD 0
  { Info.plain with
    bad7 := x.rsv != 0 || x.scope != 0 || x.type != 0 || x.sd || x.sb || x.sc || x.mod.extractLsb' 1 5 != 0
      || x.c.getLsbD 6 || (na && w.b != 0)
    bad9 := !x.sa
    reads := [.v w.d.toNat 64, opd x.sa w.a.toNat 1] ++ (if na then [] else [Opd.v w.b.toNat 1])
    writes := [.v w.d.toNat 64]
    names := [.counter (x.c.extractLsb' 0 6).toNat]
    badE := !e.wide }

/-- SMXUP (Table 7.10). -/
def infoSmxup (e : CheckEnv) (w : Base) (x : ExtR) : Info :=
  { Info.plain with
    bad7 := x.rsv != 0 || x.scope != 0 || x.type != 0 || x.sd || x.sa || x.sb || x.mod.extractLsb' 1 5 != 0
    bad9 := !x.sc
    reads := [.v w.a.toNat 64, .v w.b.toNat 3, opd x.sc x.c.toNat 1]
    writes := [.v w.d.toNat 32, .v w.b.toNat 3]
    badE := !e.wide }

/-- A special register is in Table 1.7. -/
def srKnown (n : Nat) : Bool := decide (n ≤ 0x1A)

/-- Per-lane entries of Table 1.7. -/
def srLane (n : Nat) : Bool := n == 0x04 || n == 0x0E || n == 0x18 || n == 0x19 || n == 0x1A

/-- SREAD (R264). -/
def infoSread (w : Base) (x : ExtC) : Info :=
  let n := (x.imm.extractLsb' 0 8).toNat
  { Info.plain with
    bad7 := x.imm.extractLsb' 8 16 != 0 || w.a != 0 || x.sa || w.b != 0 || x.scope != 0
    bad9 := srKnown n && (srLane n == x.sd)
    writes := [opd x.sd w.d.toNat (if n = 0x18 ∨ n = 0x19 then 2 else 1)]
    badE := !srKnown n }

/-- SWRITE (R264): LFR_LO, and LPC inside a handler. -/
def infoSwrite (e : CheckEnv) (w : Base) (x : ExtC) : Info :=
  let n := (x.imm.extractLsb' 0 8).toNat
  { Info.plain with
    bad7 := x.imm.extractLsb' 8 16 != 0 || w.d != 0 || x.sd || w.b != 0 || x.scope != 0
    reads := [opd x.sa w.a.toNat (if n = 0x18 then 2 else 1)]
    badE := !(n == 0x18 || (n == 0x1A && e.handler)) }

/-- MODE (R265). -/
def infoMode (w : Base) (x : ExtC) : Info :=
  { Info.plain with
    bad7 := w.d != 0 || x.sd || w.b != 0 || x.scope != 0
      || (if x.sa then x.imm != 0 else w.a != 0 || x.imm.extractLsb' 5 3 != 0 || x.imm.extractLsb' 13 11 != 0)
    reads := if x.sa then [.s w.a.toNat] else [] }

/-- TRAP (R266). -/
def infoTrap (w : Base) (x : ExtC) : Info :=
  { Info.plain with bad7 := w.d != 0 || w.a != 0 || w.b != 0 || x.sd || x.sa || x.scope != 0 }

/-- RETT (R267). GUARD and GN are not among the fields that must be 0: a RETT follows R73 as any instruction (R267 says only
"every other field"; DESIGN CHOICE, log 100). -/
def infoRett (e : CheckEnv) (w : Base) (x : ExtR) : Info :=
  { Info.plain with
    bad7 := bareR w { x with mod := 0#6 } || w.a != 0 || x.sa || x.mod.extractLsb' 1 5 != 0
    badE := !e.handler }

/-- SLEEP (R268). -/
def infoSleep (w : Base) (x : ExtC) : Info :=
  { Info.plain with
    bad7 := w.d != 0 || x.sd || w.b != 0 || x.scope != 0 || (if x.sa then x.imm != 0 else w.a != 0)
    reads := if x.sa then [.s w.a.toNat] else [] }


/-! ## Every instruction -/

/-- The guard predicate and its sense. -/
def extGn : ExtRI → Bool
  | .r x => x.gn
  | .i x => x.gn

/-- The guard of an instruction of class V, M or E: its predicate, and whether it is negated (R73, R76). GN lies at the
same bit of every extension layout (Tables 2.4 to 2.7), an unassigned opcode's among them (R90). -/
def guardOf : Instr → Nat × Bool
  | .iadd w => (w.guard.toNat, false)
  | .iaddLong w x => (w.guard.toNat, extGn x)
  | .isub w => (w.guard.toNat, false)
  | .isubLong w x => (w.guard.toNat, extGn x)
  | .imul w => (w.guard.toNat, false)
  | .imulLong w x => (w.guard.toNat, extGn x)
  | .imulh w => (w.guard.toNat, false)
  | .imulhLong w x => (w.guard.toNat, extGn x)
  | .imad w x => (w.guard.toNat, x.gn)
  | .imin w => (w.guard.toNat, false)
  | .iminLong w x => (w.guard.toNat, extGn x)
  | .imax w => (w.guard.toNat, false)
  | .imaxLong w x => (w.guard.toNat, extGn x)
  | .iabs w => (w.guard.toNat, false)
  | .iabsLong w x => (w.guard.toNat, extGn x)
  | .ineg w => (w.guard.toNat, false)
  | .inegLong w x => (w.guard.toNat, extGn x)
  | .isad w x => (w.guard.toNat, x.gn)
  | .andW w => (w.guard.toNat, false)
  | .andLong w x => (w.guard.toNat, extGn x)
  | .orW w => (w.guard.toNat, false)
  | .orLong w x => (w.guard.toNat, extGn x)
  | .xorW w => (w.guard.toNat, false)
  | .xorLong w x => (w.guard.toNat, extGn x)
  | .andn w => (w.guard.toNat, false)
  | .andnLong w x => (w.guard.toNat, extGn x)
  | .notW w => (w.guard.toNat, false)
  | .notLong w x => (w.guard.toNat, extGn x)
  | .shl w => (w.guard.toNat, false)
  | .shlLong w x => (w.guard.toNat, extGn x)
  | .shr w => (w.guard.toNat, false)
  | .shrLong w x => (w.guard.toNat, extGn x)
  | .sar w => (w.guard.toNat, false)
  | .sarLong w x => (w.guard.toNat, extGn x)
  | .rotl w => (w.guard.toNat, false)
  | .rotlLong w x => (w.guard.toNat, extGn x)
  | .popc w => (w.guard.toNat, false)
  | .popcLong w x => (w.guard.toNat, extGn x)
  | .clz w => (w.guard.toNat, false)
  | .clzLong w x => (w.guard.toNat, extGn x)
  | .brev w => (w.guard.toNat, false)
  | .brevLong w x => (w.guard.toNat, extGn x)
  | .bfx w => (w.guard.toNat, false)
  | .bfxLong w x => (w.guard.toNat, extGn x)
  | .bfi w x => (w.guard.toNat, x.gn)
  | .perm w x => (w.guard.toNat, x.gn)
  | .icmp w x => (w.guard.toNat, extGn x)
  | .fcmp w x => (w.guard.toNat, extGn x)
  | .sel w x => (w.guard.toNat, x.gn)
  | .plop w x => (w.guard.toNat, x.gn)
  | .mov w => (w.guard.toNat, false)
  | .movLong w x => (w.guard.toNat, x.gn)
  | .movi w _ => (w.guard.toNat, w.a.getLsbD 1)
  | .lea w => (w.guard.toNat, false)
  | .leaLong w x => (w.guard.toNat, extGn x)
  | .fadd w => (w.guard.toNat, false)
  | .faddLong w x => (w.guard.toNat, extGn x)
  | .fsub w => (w.guard.toNat, false)
  | .fsubLong w x => (w.guard.toNat, extGn x)
  | .fmul w => (w.guard.toNat, false)
  | .fmulLong w x => (w.guard.toNat, extGn x)
  | .ffma w x => (w.guard.toNat, x.gn)
  | .fmin w => (w.guard.toNat, false)
  | .fminLong w x => (w.guard.toNat, extGn x)
  | .fmax w => (w.guard.toNat, false)
  | .fmaxLong w x => (w.guard.toNat, extGn x)
  | .fscl w => (w.guard.toNat, false)
  | .fsclLong w x => (w.guard.toNat, extGn x)
  | .frnd w => (w.guard.toNat, false)
  | .frndLong w x => (w.guard.toNat, extGn x)
  | .hadd2 w => (w.guard.toNat, false)
  | .hadd2Long w x => (w.guard.toNat, x.gn)
  | .hmul2 w => (w.guard.toNat, false)
  | .hmul2Long w x => (w.guard.toNat, x.gn)
  | .hfma2 w x => (w.guard.toNat, x.gn)
  | .frcp w => (w.guard.toNat, false)
  | .frcpLong w x => (w.guard.toNat, x.gn)
  | .frsq w => (w.guard.toNat, false)
  | .frsqLong w x => (w.guard.toNat, x.gn)
  | .fsqrt w => (w.guard.toNat, false)
  | .fsqrtLong w x => (w.guard.toNat, x.gn)
  | .fexp2 w => (w.guard.toNat, false)
  | .fexp2Long w x => (w.guard.toNat, x.gn)
  | .flog2 w => (w.guard.toNat, false)
  | .flog2Long w x => (w.guard.toNat, x.gn)
  | .fsin w => (w.guard.toNat, false)
  | .fsinLong w x => (w.guard.toNat, x.gn)
  | .fcos w => (w.guard.toNat, false)
  | .fcosLong w x => (w.guard.toNat, x.gn)
  | .ftanh w => (w.guard.toNat, false)
  | .ftanhLong w x => (w.guard.toNat, x.gn)
  | .cvt w x => (w.guard.toNat, x.gn)
  | .cvtp w x => (w.guard.toNat, x.gn)
  | .shfl w => (w.guard.toNat, false)
  | .shflLong w x => (w.guard.toNat, extGn x)
  | .ballot w => (w.guard.toNat, false)
  | .ballotLong w x => (w.guard.toNat, x.gn)
  | .vote w => (w.guard.toNat, false)
  | .voteLong w x => (w.guard.toNat, x.gn)
  | .redux w => (w.guard.toNat, false)
  | .reduxLong w x => (w.guard.toNat, x.gn)
  | .scan w => (w.guard.toNat, false)
  | .scanLong w x => (w.guard.toNat, x.gn)
  | .bcast w => (w.guard.toNat, false)
  | .bcastLong w x => (w.guard.toNat, extGn x)
  | .vrand w x => (w.guard.toNat, x.gn)
  | .bra w x => (w.guard.toNat, x.gn)
  | .bri w => (w.guard.toNat, false)
  | .briLong w x => (w.guard.toNat, x.gn)
  | .call w x => (w.guard.toNat, x.gn)
  | .ret w => (w.guard.toNat, false)
  | .retLong w x => (w.guard.toNat, x.gn)
  | .conv w => (w.guard.toNat, false)
  | .convLong w x => (w.guard.toNat, x.gn)
  | .lyield w => (w.guard.toNat, false)
  | .lyieldLong w x => (w.guard.toNat, x.gn)
  | .prio w => (w.guard.toNat, false)
  | .prioLong w x => (w.guard.toNat, x.gn)
  | .exit w => (w.guard.toNat, false)
  | .exitLong w x => (w.guard.toNat, x.gn)
  | .nop w => (w.guard.toNat, false)
  | .nopLong w x => (w.guard.toNat, x.gn)
  | .sld w => (w.guard.toNat, false)
  | .sldLong w x => (w.guard.toNat, x.gn)
  | .sst w => (w.guard.toNat, false)
  | .sstLong w x => (w.guard.toNat, x.gn)
  | .satom w x => (w.guard.toNat, x.gn)
  | .cld w => (w.guard.toNat, false)
  | .cldLong w x => (w.guard.toNat, x.gn)
  | .cst w => (w.guard.toNat, false)
  | .cstLong w x => (w.guard.toNat, x.gn)
  | .catom w x => (w.guard.toNat, x.gn)
  | .gld w => (w.guard.toNat, false)
  | .gldLong w x => (w.guard.toNat, x.gn)
  | .gst w => (w.guard.toNat, false)
  | .gstLong w x => (w.guard.toNat, x.gn)
  | .gatom w x => (w.guard.toNat, x.gn)
  | .gred w x => (w.guard.toNat, x.gn)
  | .hld w => (w.guard.toNat, false)
  | .hldLong w x => (w.guard.toNat, x.gn)
  | .hst w => (w.guard.toNat, false)
  | .hstLong w x => (w.guard.toNat, x.gn)
  | .pld w x => (w.guard.toNat, x.gn)
  | .put w x => (w.guard.toNat, x.gn)
  | .patom w x => (w.guard.toNat, x.gn)
  | .kld w x => (w.guard.toNat, x.gn)
  | .kst w x => (w.guard.toNat, x.gn)
  | .ksts w x => (w.guard.toNat, x.gn)
  | .fence w => (w.guard.toNat, false)
  | .fenceLong w x => (w.guard.toNat, x.gn)
  | .fenceWalk w x => (w.guard.toNat, x.gn)
  | .acq w => (w.guard.toNat, false)
  | .acqLong w x => (w.guard.toNat, x.gn)
  | .acqRemote w x => (w.guard.toNat, x.gn)
  | .rel w => (w.guard.toNat, false)
  | .relLong w x => (w.guard.toNat, x.gn)
  | .pref w => (w.guard.toNat, false)
  | .prefLong w x => (w.guard.toNat, x.gn)
  | .bare w x => (w.guard.toNat, x.gn)
  | .bara w x => (w.guard.toNat, x.gn)
  | .barw w x => (w.guard.toNat, x.gn)
  | .baraw w x => (w.guard.toNat, x.gn)
  | .give w x => (w.guard.toNat, x.gn)
  | .take w x => (w.guard.toNat, x.gn)
  | .ownq w x => (w.guard.toNat, x.gn)
  | .ctradd w x => (w.guard.toNat, x.gn)
  | .ctrwait w x => (w.guard.toNat, x.gn)
  | .ctrrd w x => (w.guard.toNat, x.gn)
  | .ringwFill w x => (w.guard.toNat, x.gn)
  | .ringwFree w x => (w.guard.toNat, x.gn)
  | .ringlFill w x => (w.guard.toNat, x.gn)
  | .ringlFree w x => (w.guard.toNat, x.gn)
  | .ringq w x => (w.guard.toNat, x.gn)
  | .cnest w x => (w.guard.toNat, x.gn)
  | .cgo w x => (w.guard.toNat, x.gn)
  | .cpy w x => (w.guard.toNat, x.gn)
  | .cred w x => (w.guard.toNat, x.gn)
  | .qtz w x => (w.guard.toNat, x.gn)
  | .dqz w x => (w.guard.toNat, x.gn)
  | .rqz w x => (w.guard.toNat, x.gn)
  | .rqzKv w x => (w.guard.toNat, x.gn)
  | .lsend w x => (w.guard.toNat, x.gn)
  | .lsendPort w x => (w.guard.toNat, x.gn)
  | .lradd w x => (w.guard.toNat, x.gn)
  | .lwin w x => (w.guard.toNat, x.gn)
  | .qpush w => (w.guard.toNat, false)
  | .qpushLong w x => (w.guard.toNat, x.gn)
  | .qpop w => (w.guard.toNat, false)
  | .qpopLong w x => (w.guard.toNat, x.gn)
  | .kopen w x => (w.guard.toNat, x.gn)
  | .kcommit w x => (w.guard.toNat, x.gn)
  | .kdrop w x => (w.guard.toNat, x.gn)
  | .kmapAlloc w x => (w.guard.toNat, x.gn)
  | .kmapFree w x => (w.guard.toNat, x.gn)
  | .kmapFetch w x => (w.guard.toNat, x.gn)
  | .kmapEvict w x => (w.guard.toNat, x.gn)
  | .kmapLen w x => (w.guard.toNat, x.gn)
  | .kmapQuery w x => (w.guard.toNat, x.gn)
  | .route w x => (w.guard.toNat, x.gn)
  | .rret w x => (w.guard.toNat, x.gn)
  | .rxwait w x => (w.guard.toNat, x.gn)
  | .rxstat w x => (w.guard.toNat, x.gn)
  | .amerge w x => (w.guard.toNat, x.gn)
  | .smxup w x => (w.guard.toNat, x.gn)
  | .sread w x => (w.guard.toNat, x.gn)
  | .swrite w x => (w.guard.toNat, x.gn)
  | .mode w x => (w.guard.toNat, x.gn)
  | .trap w x => (w.guard.toNat, x.gn)
  | .rett w => (w.guard.toNat, false)
  | .rettLong w x => (w.guard.toNat, x.gn)
  | .sleep w x => (w.guard.toNat, x.gn)
  | .unassignedOpcode _ b x => ((readBase b).guard.toNat, match x with | some e => e.getLsbD 29 | none => false)
  | _ => (0, false)

/-- What an instruction of class V, M or E names, without its guard. -/
def infoOf (e : CheckEnv) : Instr → Info
  | .iadd w => infoV w (.r (shortR 2)) formSat
  | .iaddLong w x => infoV w x formSat
  | .isub w => infoV w (.r (shortR 2)) formSat
  | .isubLong w x => infoV w x formSat
  | .imul w => infoV w (.r (shortR 2)) formArith
  | .imulLong w x => infoV w x formArith
  | .imulh w => infoV w (.r (shortR 2)) formArith
  | .imulhLong w x => infoV w x formArith
  | .imad w x => infoVR w x formMad
  | .imin w => infoV w (.r (shortR 2)) formArith
  | .iminLong w x => infoV w x formArith
  | .imax w => infoV w (.r (shortR 2)) formArith
  | .imaxLong w x => infoV w x formArith
  | .iabs w => infoV w (.r (shortR 2)) formAbs
  | .iabsLong w x => infoV w x formAbs
  | .ineg w => infoV w (.r (shortR 2)) formNeg
  | .inegLong w x => infoV w x formNeg
  | .isad w x => infoVR w x formMad
  | .andW w => infoV w (.r (shortR 8)) formBits
  | .andLong w x => infoV w x formBits
  | .orW w => infoV w (.r (shortR 8)) formBits
  | .orLong w x => infoV w x formBits
  | .xorW w => infoV w (.r (shortR 8)) formBits
  | .xorLong w x => infoV w x formBits
  | .andn w => infoV w (.r (shortR 8)) formBits
  | .andnLong w x => infoV w x formBits
  | .notW w => infoV w (.r (shortR 8)) formBits1
  | .notLong w x => infoV w x formBits1
  | .shl w => infoV w (.r (shortR 8)) formBits
  | .shlLong w x => infoV w x formBits
  | .shr w => infoV w (.r (shortR 8)) formBits
  | .shrLong w x => infoV w x formBits
  | .sar w => infoV w (.r (shortR 8)) formBits
  | .sarLong w x => infoV w x formBits
  | .rotl w => infoV w (.r (shortR 8)) formBits
  | .rotlLong w x => infoV w x formBits
  | .popc w => infoV w (.r (shortR 8)) formBits1
  | .popcLong w x => infoV w x formBits1
  | .clz w => infoV w (.r (shortR 8)) formBits1
  | .clzLong w x => infoV w x formBits1
  | .brev w => infoV w (.r (shortR 8)) formBits1
  | .brevLong w x => infoV w x formBits1
  | .bfx w => infoV w (.r (shortR 8)) formBits
  | .bfxLong w x => infoV w x formBits
  | .bfi w x => infoVR w x formBfi
  | .perm w x => infoVR w x formPerm
  | .icmp w x => infoCmp w x intTypes 6
  | .fcmp w x => infoCmp w x [9, 10, 11] 8
  | .sel w x => infoSel w x
  | .plop w x => infoPlop w x
  | .mov w => infoVR w (shortR 8) formMov
  | .movLong w x => infoVR w x formMov
  | .movi w _ => infoMovi w
  | .lea w => infoLea w (.r (shortR 3))
  | .leaLong w x => infoLea w x
  | .fadd w => infoV w (.r (shortR 9)) formF32
  | .faddLong w x => infoV w x formF32
  | .fsub w => infoV w (.r (shortR 9)) formF32
  | .fsubLong w x => infoV w x formF32
  | .fmul w => infoV w (.r (shortR 9)) formF32
  | .fmulLong w x => infoV w x formF32
  | .ffma w x => infoVR w x formFma
  | .fmin w => infoV w (.r (shortR 9)) formF32
  | .fminLong w x => infoV w x formF32
  | .fmax w => infoV w (.r (shortR 9)) formF32
  | .fmaxLong w x => infoV w x formF32
  | .fscl w => infoFscl w (.r (shortR 9))
  | .fsclLong w x => infoFscl w x
  | .frnd w => infoV w (.r (shortR 9)) formFrnd
  | .frndLong w x => infoV w x formFrnd
  | .hadd2 w => infoVR w (shortR 11) formHalf
  | .hadd2Long w x => infoVR w x formHalf
  | .hmul2 w => infoVR w (shortR 11) formHalf
  | .hmul2Long w x => infoVR w x formHalf
  | .hfma2 w x => infoVR w x formHalf3
  | .frcp w => infoVR w (shortR 9) formLong
  | .frcpLong w x => infoVR w x formLong
  | .frsq w => infoVR w (shortR 9) formLong
  | .frsqLong w x => infoVR w x formLong
  | .fsqrt w => infoVR w (shortR 9) formLong
  | .fsqrtLong w x => infoVR w x formLong
  | .fexp2 w => infoVR w (shortR 9) formLong
  | .fexp2Long w x => infoVR w x formLong
  | .flog2 w => infoVR w (shortR 9) formLong
  | .flog2Long w x => infoVR w x formLong
  | .fsin w => infoVR w (shortR 9) formLong
  | .fsinLong w x => infoVR w x formLong
  | .fcos w => infoVR w (shortR 9) formLong
  | .fcosLong w x => infoVR w x formLong
  | .ftanh w => infoVR w (shortR 9) formLong
  | .ftanhLong w x => infoVR w x formLong
  | .cvt w x => infoCvt e w x
  | .cvtp w x => infoCvtp w x
  | .shfl w => infoShfl w (.r (shortR 8))
  | .shflLong w x => infoShfl w x
  | .ballot w => infoBallot e w (shortR 8)
  | .ballotLong w x => infoBallot e w x
  | .vote w => infoVote w (shortR 0)
  | .voteLong w x => infoVote w x
  | .redux w => infoCombine w (shortR 8) true
  | .reduxLong w x => infoCombine w x true
  | .scan w => infoCombine w (shortR 8) false
  | .scanLong w x => infoCombine w x false
  | .bcast w => infoBcast w (.r (shortR 8))
  | .bcastLong w x => infoBcast w x
  | .vrand w x => infoVrand w x
  | .bra w x => infoBra w x
  | .bri w => infoBri w (shortR 0)
  | .briLong w x => infoBri w x
  | .call w x => infoCall w x
  | .ret w => infoBri w (shortR 0)
  | .retLong w x => infoBri w x
  | .conv w => infoNone w (shortR 0) false
  | .convLong w x => infoNone w x false
  | .lyield w => infoNone w (shortR 0) false
  | .lyieldLong w x => infoNone w x false
  | .prio w => infoPrio w (shortR 0)
  | .prioLong w x => infoPrio w x
  | .exit w => infoNone w (shortR 0) true
  | .exitLong w x => infoNone w x true
  | .nop w => infoNone w (shortR 0) false
  | .nopLong w x => infoNone w x false
  | .sld w => infoAccess w (shortM 2) .s .load
  | .sldLong w x => infoAccess w x .s .load
  | .sst w => infoAccess w (shortM 2) .s .store
  | .sstLong w x => infoAccess w x .s .store
  | .satom w x => infoAccess w x .s .atom
  | .cld w => infoAccess w (shortM 2) .c .load
  | .cldLong w x => infoAccess w x .c .load
  | .cst w => infoAccess w (shortM 2) .c .store
  | .cstLong w x => infoAccess w x .c .store
  | .catom w x => infoAccess w x .c .atom
  | .gld w => infoAccess w (shortM 2) .g .load
  | .gldLong w x => infoAccess w x .g .load
  | .gst w => infoAccess w (shortM 2) .g .store
  | .gstLong w x => infoAccess w x .g .store
  | .gatom w x => infoAccess w x .g .atom
  | .gred w x => infoAccess w x .g .red
  | .hld w => infoAccess w (shortM 2) .h .load
  | .hldLong w x => infoAccess w x .h .load
  | .hst w => infoAccess w (shortM 2) .h .store
  | .hstLong w x => infoAccess w x .h .store
  | .pld w x => infoAccess w x .p .load
  | .put w x => infoAccess w x .p .store
  | .patom w x => infoAccess w x .p .atom
  | .kld w x => infoKv e w x true
  | .kst w x => infoKv e w x false
  | .ksts w x => infoKv e w x false
  | .fence w => infoSync w shortC 0 false
  | .fenceLong w x => infoSync w x 0 false
  | .fenceWalk w x => infoSync w x 1 true
  | .acq w => infoSync w shortC 0 false
  | .acqLong w x => infoSync w x 0 false
  | .acqRemote w x => infoAcqRemote w x
  | .rel w => infoSync w shortC 0 false
  | .relLong w x => infoSync w x 0 false
  | .pref w => infoPref w (shortM 0)
  | .prefLong w x => infoPref w x
  | .bare w x => infoBar e w x true
  | .bara w x => infoBar e w x false
  | .barw w x => infoBar e w x false
  | .baraw w x => infoBar e w x false
  | .give w x => infoTile e w x 0
  | .take w x => infoTile e w x 1
  | .ownq w x => infoTile e w x 2
  | .ctradd w x => infoCtr w x
  | .ctrwait w x => infoCtr w x
  | .ctrrd w x => infoCtrrd w x
  | .ringwFill w x => infoRing e w x 0
  | .ringwFree w x => infoRing e w x 0
  | .ringlFill w x => infoRing e w x 1
  | .ringlFree w x => infoRing e w x 1
  | .ringq w x => infoRing e w x 2
  | .cnest w x => infoCnest w x
  | .cgo w x => infoCgo e w x
  | .cpy w x => infoCpy w x
  | .cred w x => infoCred e w x
  | .qtz w x => infoQtz w x
  | .dqz w x => infoDqz w x
  | .rqz w x => infoRqz w x
  | .rqzKv w x => infoRqzKv e w x
  | .lsend w x => infoLsend w x false
  | .lsendPort w x => infoLsend w x true
  | .lradd w x => infoLradd w x
  | .lwin w x => infoLwin w x
  | .qpush w => infoQueue w (shortR 8) true
  | .qpushLong w x => infoQueue w x true
  | .qpop w => infoQueue w (shortR 8) false
  | .qpopLong w x => infoQueue w x false
  | .kopen w x => infoKopen e w x
  | .kcommit w x => infoKcommit e w x
  | .kdrop w x => infoKdrop e w x
  | .kmapAlloc w x => infoKmap e w x
  | .kmapFree w x => infoKmap e w x
  | .kmapFetch w x => infoKmap e w x
  | .kmapEvict w x => infoKmap e w x
  | .kmapLen w x => infoKmap e w x
  | .kmapQuery w x => infoKmap e w x
  | .route w x => infoRoute e w x
  | .rret w x => infoRret e w x
  | .rxwait w x => infoRxwait e w x
  | .rxstat w x => infoRxstat e w x
  | .amerge w x => infoAmerge e w x
  | .smxup w x => infoSmxup e w x
  | .sread w x => infoSread w x
  | .swrite w x => infoSwrite e w x
  | .mode w x => infoMode w x
  | .trap w x => infoTrap w x
  | .rett w => infoRett e w (shortR 0)
  | .rettLong w x => infoRett e w x
  | .sleep w x => infoSleep w x
  | _ => Info.plain

/-- The words an instruction occupies. -/
def lengthOf (w : Word) : Nat := if longOf w then 2 else 1

/-- How a check fails: an illegal encoding with its reason, or a ring that the block does not have (R86). -/
inductive Failure where
  | enc (reason : Nat)
  | ring
  deriving DecidableEq, Repr

/-- The checks of one instruction by itself, in the order of R86 up to its reason 0xC; `last` tells that it is the last
instruction of its clause. -/
def ownFailure (e : CheckEnv) (last : Bool) : Decoded → Option Failure
  | .unassigned => none
  | .illegal r => some (.enc r)
  | .ok i =>
    let f := infoOf e i
    if f.bad7 then some (.enc 0x7)
    else if f.bad9 || (f.reads ++ f.writes).any Opd.bad then some (.enc 0x9)
    else if f.p0 then some (.enc 0xD)
    else if f.badE then some (.enc 0xE)
    else if f.badRing then some .ring
    else if f.transfer && !last then some (.enc 0xC)
    else none

/-- Everything an instruction reads, its guard among it (R87). -/
def readsOf (e : CheckEnv) (i : Instr) : List Opd :=
  (if (guardOf i).1 = 0 then [] else [Opd.p (guardOf i).1]) ++ (infoOf e i).reads

/-- The later instruction j depends on the earlier instruction i (R87). -/
def dependent (e : CheckEnv) (i j : Instr) : Bool :=
  (infoOf e i).writes.any (fun a => ((readsOf e j) ++ (infoOf e j).writes).any fun b => a.meets b)
    || (infoOf e i).names.any (fun a => (infoOf e j).names.contains a)

def dependsOnAny (e : CheckEnv) : List Decoded → Decoded → Bool
  | .ok i :: ds, .ok j => dependent e i j || dependsOnAny e ds (.ok j)
  | _ :: ds, d => dependsOnAny e ds d
  | [], _ => false

/-- check_group on the words of a group of class V, M or E in word order, each with its word index and whether it ends
its clause: the first word that fails (R86). `before` holds the words already passed. -/
def groupFailure (e : CheckEnv) (before : List Decoded) : List (Nat × Bool × Decoded) → Option (Nat × Failure)
  | [] => none
  | (ix, last, d) :: ds =>
    match ownFailure e last d with
    | some f => some (ix, f)
    | none => if dependsOnAny e before d then some (ix, .enc 0xA) else groupFailure e (before ++ [d]) ds

/-! ## X words (R92, R94, R224) -/

/-- ELEM of a slot is FP32. -/
def slotFp32 (e : CheckEnv) (f : Nat) : Bool := (nth 0#32 e.formats f).extractLsb' 0 4 == 0

/-- COUNT and REV fields of the levels that a LOOP does not use are 0 (Table 6.5). -/
def loopFieldsOk (w : LoopWord) : Bool :=
  let n := 8 * (w.nl.toNat + 1)
  decide (w.count.toNat < 2 ^ n) && decide (w.rev.toNat < 2 ^ (w.nl.toNat + 1))

/-- The reason with which an X word fails by itself: fields first, then resources (R92). -/
def xFailure (e : CheckEnv) : Instr → Option Nat
  | .mm w => if w.guard != 0 || w.rsv || (w.as && w.atile != 0) || slotFp32 e w.afmt.toNat then some 0x7 else none
  | .mmz w => if w.guard != 0 || w.rsv || (w.as && w.atile != 0) || slotFp32 e w.afmt.toNat then some 0x7 else none
  | .scl w => if w.guard != 0 || w.rsv != 0 || slotScale (nth 0#32 e.formats w.f.toNat) == 0 then some 0x7 else none
  | .strm w => if w.guard != 0 || w.rsv != 0 || w.pitch == 0 then some 0x7 else none
  | .panel w => if w.guard != 0 || w.rsv != 0 || slotFp32 e w.bfmt.toNat then some 0x7 else none
  | .iterImm w => if w.guard != 0 || w.rsv != 0 || w.sreg != 0 || decide (5 ≤ w.field.toNat) then some 0x7 else none
  | .iterReg w => if w.guard != 0 || w.rsv != 0 || decide (5 ≤ w.field.toNat) then some 0x7 else none
  | .loop w => if w.guard != 0 || w.rsv != 0 || !loopFieldsOk w then some 0x7 else none
  | .xgive w => if w.guard != 0 || w.rsv != 0 || w.new == 0x20 || decide (0x25 ≤ w.new.toNat) then some 0x7 else none
  | .xtake w => if w.guard != 0 || w.rsv != 0 then some 0x7 else none
  | .xsig w => if w.guard != 0 || w.value == 0 then some 0x7 else none
  | .xsigBar w =>
    if w.guard != 0 || w.value != 0 || decide (16 ≤ w.n.toNat) then some 0x7
    else if !barFlag e.barUse .block w.n.toNat then some 0xE else none
  | .xwait w => if w.guard != 0 || (w.src && w.value.extractLsb' 0 8 != 0) then some 0x7 else none
  | .xend w => if w.guard != 0 then some 0x7 else none
  | _ => none

end Sys2Proof.Machine
end

