-- ==== Sys2Proof/WellFormed.lean ====
section
/-! DEFINITION. Well-formed instructions: a term whose constructor agrees with the bits that select it, and whose
fields pass the checks of an instruction by itself (02 R69 to R78, R86, 06 R224) in a launch. -/

namespace Sys2Proof

open Sys2Proof.Machine

/-- The field that tells the rows of one opcode apart agrees with the constructor, so that the term is what its own
words decode to. An unassigned opcode's words are no other instruction's. -/
def Instr.canonical : Instr → Bool
  | .fenceLong _ x => !x.imm.getLsbD 0
  | .fenceWalk _ x => x.imm.getLsbD 0
  | .acqLong _ x => !x.imm.getLsbD 1
  | .acqRemote _ x => x.imm.getLsbD 1
  | .ringwFill _ x => !x.imm.getLsbD 8
  | .ringwFree _ x => x.imm.getLsbD 8
  | .ringlFill _ x => !x.imm.getLsbD 8
  | .ringlFree _ x => x.imm.getLsbD 8
  | .rqz _ x => !x.mod.getLsbD 4
  | .rqzKv _ x => x.mod.getLsbD 4
  | .lsend _ x => !x.mod.getLsbD 0
  | .lsendPort _ x => x.mod.getLsbD 0
  | .kmapAlloc _ x => x.imm.extractLsb' 0 3 == 0#3
  | .kmapFree _ x => x.imm.extractLsb' 0 3 == 1#3
  | .kmapFetch _ x => x.imm.extractLsb' 0 3 == 2#3
  | .kmapEvict _ x => x.imm.extractLsb' 0 3 == 3#3
  | .kmapLen _ x => x.imm.extractLsb' 0 3 == 4#3
  | .kmapQuery _ x => x.imm.extractLsb' 0 3 == 5#3
  | .iterReg w => w.value == 0#32
  | .unassignedOpcode c w x => (decode c w (x.getD 0#32) == .unassigned) && (x.isSome == longOf w)
  | _ => true

/-- The checks that an instruction passes wherever it stands: every check of R86 but the place of a control transfer
and the dependence on other words. -/
def Instr.wellFormed (e : CheckEnv) (i : Instr) : Bool :=
  i.canonical && (ownFailure e true (.ok i)).isNone && (xFailure e i).isNone

end Sys2Proof
end

