-- ==== Sys2Proof/Machine/Ops.lean ====
section
/-! DEFINITION. The named operations over the state that instructions and steps share: cores, groups and lanes,
registers, barriers and counters, the course of a run, lane faults, and taking a trap and returning from one. -/

namespace Sys2Proof.Machine

/-! ## Cores, groups, blocks and launches -/

/-- Core n as it stands; a core no block has used is as it was at reset. -/
def State.core (s : State) (n : Nat) : Core := (assocGet s.cores n).getD Core.reset

def State.setCore (s : State) (n : Nat) (c : Core) : State := { s with cores := assocSet s.cores n c }

def State.mapCore (s : State) (n : Nat) (f : Core → Core) : State := s.setCore n (f (s.core n))

def Core.group? (c : Core) (slot : Nat) : Option Group := assocGet c.groups slot

def Core.setGroup (c : Core) (slot : Nat) (g : Group) : Core := { c with groups := assocSet c.groups slot g }

def Core.mapGroup (c : Core) (slot : Nat) (f : Group → Group) : Core :=
  match c.group? slot with
  | none => c
  | some g => c.setGroup slot (f g)

def State.group? (s : State) (core slot : Nat) : Option Group := (s.core core).group? slot

def State.setGroup (s : State) (core slot : Nat) (g : Group) : State := s.mapCore core fun c => c.setGroup slot g

def State.mapGroup (s : State) (core slot : Nat) (f : Group → Group) : State :=
  s.mapCore core fun c => c.mapGroup slot f

def State.launch? (s : State) (id : Nat) : Option Launch := s.launches.find? fun l => l.id == id

def State.mapLaunch (s : State) (id : Nat) (f : Launch → Launch) : State :=
  { s with launches := s.launches.map fun l => if l.id = id then f l else l }

def Core.block? (c : Core) (launch index : Nat) : Option Block :=
  c.blocks.find? fun b => b.launch == launch && b.index == index

def Core.mapBlock (c : Core) (launch index : Nat) (f : Block → Block) : Core :=
  { c with blocks := c.blocks.map fun b => if b.launch = launch ∧ b.index = index then f b else b }

/-- A group that issues on scheduler k: slot s issues on scheduler s mod 4 (R23). -/
def schedOf (slot : Nat) : Nat := slot % 4

def Core.sched (c : Core) (k : Nat) : Scheduler := nth Scheduler.empty c.scheds k

def Core.mapSched (c : Core) (k : Nat) (f : Scheduler → Scheduler) : Core :=
  { c with scheds := setNth c.scheds k (f (c.sched k)) }

def Core.counter (c : Core) (k : Nat) : DWord := nth 0#64 c.counters k

/-- The next place in the core's program order. -/
def Core.tick (c : Core) : Core := { c with nextId := c.nextId + 1 }

/-! ## Lanes -/

/-- MODE.WID: 64 lanes rather than 32 (Table 1.4). -/
def Group.wide (g : Group) : Bool := g.mode.getLsbD 5

def Group.width (g : Group) : Nat := if g.wide then 64 else 32

def lanesOf (m : LaneMask) : List Nat := (List.range 64).filter fun l => m.getLsbD l

/-- The lowest lane of a set (Table 0.5). -/
def lowest (m : LaneMask) : Option Nat := (lanesOf m).head?

def maskOf (ls : List Nat) : LaneMask := ls.foldl (fun m l => m ||| (1#64 <<< l)) 0#64

/-- A mask whose bit l tells p of lane l. -/
def maskBy (p : Nat → Bool) : LaneMask := maskOf ((List.range 64).filter p)

/-- The lane PCs that issue follows: the handler's in handler mode (10 R344). -/
def Group.pcs (g : Group) : List Word :=
  match g.handler with
  | none => g.lpc
  | some h => h.pcs

def Group.setPcs (g : Group) (ps : List Word) : Group :=
  match g.handler with
  | none => { g with lpc := ps }
  | some h => { g with handler := some { h with pcs := ps } }

/-- The lane states that issue follows. -/
def Group.states (g : Group) : List LaneState :=
  match g.handler with
  | none => g.lanes
  | some h => h.lanes

def Group.setStates (g : Group) (ls : List LaneState) : Group :=
  match g.handler with
  | none => { g with lanes := ls }
  | some h => { g with handler := some { h with lanes := ls } }

/-- Changes the elements of a list at the lanes of a mask. -/
def mapLanes {α : Type} (m : LaneMask) (f : Nat → α → α) (xs : List α) : List α :=
  xs.mapIdx fun l x => if m.getLsbD l then f l x else x

/-- Bits 1:0 of a lane's PC read zero (R19). -/
def pcWord (x : Word) : Word := x &&& 0xFFFFFFFC#32

/-- Puts the PCs of the lanes of a mask at an offset. -/
def Group.movePcs (g : Group) (m : LaneMask) (pc : Word) : Group := g.setPcs (mapLanes m (fun _ _ => pcWord pc) g.pcs)

def Group.setLanes (g : Group) (m : LaneMask) (st : LaneState) : Group := g.setStates (mapLanes m (fun _ _ => st) g.states)

/-- The lanes in a state. -/
def Group.lanesIn (g : Group) (st : LaneState) : LaneMask := maskBy fun l => nth LaneState.exited g.states l == st

/-- Lanes parked with an unhandled fault (R45). -/
def Group.parkedValid (g : Group) : LaneMask :=
  maskBy fun l => nth LaneState.exited g.lanes l == .parked && (match g.lfr[l]? with | some r => r.valid | none => false)

/-! ## Registers -/

def Group.sreg (g : Group) (n : Nat) : DWord := nth 0#64 g.sregs n

def Group.setS (g : Group) (n : Nat) (x : DWord) : Group := { g with sregs := setNth g.sregs n x }

/-- Predicate p over all lanes; P0 is true (R18). -/
def Group.pred (g : Group) (p : Nat) : LaneMask := if p = 0 then BitVec.allOnes 64 else nth 0#64 g.preds p

/-- Writes predicate p in the lanes of a mask. -/
def Group.setP (g : Group) (p : Nat) (m x : LaneMask) : Group :=
  { g with preds := setNth g.preds p ((nth 0#64 g.preds p &&& ~~~m) ||| (x &&& m)) }

/-- Window entry of Vn (Table 1.2). -/
def vEntry (wide : Bool) (n : Nat) : Nat := if wide then n / 32 else n / 64

/-- Byte of Vn of lane l within its tile (Table 1.2). -/
def vByte (wide : Bool) (n l : Nat) : Nat :=
  if wide then (2 * (n % 32) + l / 32) * 128 + 4 * (l % 32) else (n % 64) * 128 + 4 * l

/-- The tile bound to a window entry. -/
def winTile (win : List (Option Nat)) (e : Nat) : Option Nat := nth none win e

/-- Where Vn of lane l lies in the core's tiles. -/
def vAddr (win : List (Option Nat)) (wide : Bool) (n l : Nat) : Option Nat :=
  (winTile win (vEntry wide n)).map fun t => t * 8192 + vByte wide n l

/-- The value in Vn of lane l through a window; 0 where the window names no tile. -/
def Core.vRead (c : Core) (win : List (Option Nat)) (wide : Bool) (n l : Nat) : Word :=
  match vAddr win wide n l with
  | none => 0#32
  | some a => BitVec.ofNat 32 (c.tileData.nat a 4)

def Core.vWrite (c : Core) (win : List (Option Nat)) (wide : Bool) (n l : Nat) (x : Word) : Core :=
  match vAddr win wide n l with
  | none => c
  | some a => { c with tileData := c.tileData.putNat a 4 x.toNat }

def Core.tile (c : Core) (t : Nat) : Tile := nth Tile.free c.tiles t

def Core.setTile (c : Core) (t : Nat) (x : Tile) : Core := { c with tiles := setNth c.tiles t x }

/-- The checks of R17 on Vn: TILE_STATE when the entry is empty, TILE_OWNER when the tile is another's. -/
def vCheck (c : Core) (g : Group) (slot n : Nat) : Option Cause :=
  match winTile g.winmap (vEntry g.wide n) with
  | none => some .tileState
  | some t => if (c.tile t).owner = slot then none else some .tileOwner

/-- The checks of R17 on every register that operands name: the first that fails, the sources first and then the
destination, gives the cause (R139; the order is a DESIGN CHOICE, log 51). -/
def opdChecks (c : Core) (g : Group) (slot : Nat) (ops : List Opd) : Option Cause :=
  (ops.flatMap fun o => match o with
    | .v n k => (List.range k).map fun i => n + i
    | _ => []).findSome? fun n => vCheck c g slot n

/-- A 64-bit value from two registers, low first (R138). -/
def pair (lo hi : Word) : DWord := hi ++ lo

def lowWord (x : DWord) : Word := x.extractLsb' 0 32
def highWord (x : DWord) : Word := x.extractLsb' 32 32

/-! ## What is pending (R67, R143, R208) -/

/-- Registers and predicates that a pending operation will write. -/
def PendOp.writes : PendOp → List Opd
  | .access a =>
    match a.kind with
    | .load => if a.scalar then [.s a.dReg] else [.v a.dReg (dataSpan false a.size 0)]
    | .atom => if a.scalar then [.s a.dReg] else [.v a.dReg (oldSpan a.size)]
    | _ => []
  | .kv a => (match a.op with | .kld => [Opd.v a.dReg 1] | _ => []) ++ [.v a.stReg 1]
  | .kvCtl k =>
    match k.op with
    | .kopen => [] | .kcommit => [] | .kdrop => [] | _ => [.s k.dReg]
  | .long _ ws sc => (ws.map fun w => Opd.v w.1 1) ++ (match sc with | none => [] | some p => [.s p.1])
  | .pop _ d => if d.scalar then [.s d.reg] else [.v d.reg (if d.wide then 2 else 1)]
  | .cmp k => [.p k.pred]
  | .amerge _ _ o _ _ _ _ _ => [.v o 64]
  | _ => []

/-- An operand is the destination of a pending operation of the group. -/
def Group.pendingOpd (g : Group) (o : Opd) : Bool := g.pend.any fun p => p.op.writes.any fun w => w.meets o

/-- A binding TAKE of the group is pending on the entry of a register (R208). -/
def Group.takeHolds (g : Group) (o : Opd) : Bool :=
  g.pend.any fun p => match p.op, o with
    | .take _ (some e), .v n k => (List.range k).any fun i => vEntry g.wide (n + i) == e
    | _, _ => false

def Group.takePending (g : Group) : Bool := g.pend.any fun p => match p.op with | .take _ _ => true | _ => false

/-- The wait-mask classes (Table 2.2) in which an operation is pending, as header bits 16 to 23. -/
def PendOp.classes : PendOp → BitVec 8
  | .access a =>
    match a.kind, a.space with
    | .store, _ => 0x10#8
    | .red, _ => 0x10#8
    | _, .s => 0x01#8
    | _, .c => 0x01#8
    | _, .g => 0x02#8
    | _, .h => 0x08#8
    | _, .p => 0x08#8
  | .kv a => match a.op with | .kld => 0x04#8 | _ => 0x14#8
  | .kvCtl _ => 0x04#8
  | .long _ _ _ => 0x80#8
  | .pop _ _ => 0x20#8
  | .take _ _ => 0x40#8
  | .amerge _ _ _ _ _ _ _ _ => 0x80#8
  | .rret _ _ => 0x10#8
  | _ => 0#8

/-- No operation is pending in a class of the mask (R67). An XTAKE of one of the group's X clauses counts in class
`take` while it has not issued; `xtakes` says that there is one. -/
def Group.waitClear (g : Group) (mask : BitVec 8) (xtakes : Bool) : Bool :=
  g.pend.all (fun p => p.op.classes &&& mask == 0#8) && !(mask.getLsbD 6 && xtakes)

def Group.addPend (g : Group) (id : Nat) (op : PendOp) : Group := { g with pend := g.pend ++ [{ id := id, op := op }] }

def Group.dropPend (g : Group) (id : Nat) : Group := { g with pend := g.pend.filter fun p => p.id ≠ id }

def Group.setPend (g : Group) (id : Nat) (op : PendOp) : Group :=
  { g with pend := g.pend.map fun p => if p.id = id then { p with op := op } else p }

def Group.pend? (g : Group) (id : Nat) : Option PendOp := (g.pend.find? fun p => p.id == id).map fun p => p.op

/-! ## Waiting groups -/

/-- A group whose wait has been met performs the acquire that belongs to it (R56, R213, R217, R299). -/
def Group.acquire (g : Group) (scope mark : Nat) : Group :=
  { g with wait := .sync { rel := false, acq := true, scope := scope, walk := false, victim := none, mark := mark
                           sent := false } }

def mapGroups (c : Core) (f : Nat → Group → Group) : Core :=
  { c with groups := c.groups.map fun p => (p.1, f p.1 p.2) }

/-- Adds to a counter (R26), and releases the CTRWAITs it satisfies (R213). -/
def Core.addCounter (c : Core) (k : Nat) (v : DWord) : Core :=
  let x := c.counter k + v
  let c := { c with counters := setNth c.counters k x }
  mapGroups c fun _ g =>
    match g.wait with
    | .counter j w scope => if j = k ∧ w ≤ x then g.acquire scope c.nextId else g
    | _ => g

/-! ## Barriers (R53 to R56) -/

def barScope : BarKind → Nat
  | .block => 1 | .cluster => 3 | .die => 4 | .device => 5

def Group.token (g : Group) (k : BarKind) (n : Nat) : Bool :=
  match g.tokens.find? fun t => t.1 == (k, n) with
  | none => false
  | some t => t.2

def Group.setToken (g : Group) (k : BarKind) (n : Nat) (x : Bool) : Group :=
  { g with tokens := g.tokens.map fun t => if t.1 = (k, n) then (t.1, x) else t }

/-- An arrival of the group at a barrier is not applied yet (R55). -/
def Group.arriving (g : Group) (k : BarKind) (n : Nat) : Bool :=
  g.pend.any fun p => match p.op with | .arrive j m _ => j == k && m == n | _ => false

/-- A wait at a barrier that the group's handler holds back is met: its acquire follows RETT (06 R248). -/
def Group.meetHeld (g : Group) (k : BarKind) (n mark : Nat) : Group :=
  let met := fun (h : Handler) =>
    if h.wait = .barrier k n then { h with wait := (g.acquire (barScope k) mark).wait } else h
  { g with handler := g.handler.map met }

/-- Groups of the blocks that `block` names that wait for a phase change of a barrier and whose token differs from the phase
go on, acquiring. -/
def Core.wakeBar (c : Core) (launch : Nat) (block : Nat → Bool) (k : BarKind) (n : Nat) (phase : Bool) : Core :=
  mapGroups c fun _ g =>
    if g.launch = launch ∧ block g.block ∧ g.token k n ≠ phase ∧ !g.arriving k n then
      if g.wait = .barrier k n then g.acquire (barScope k) c.nextId else g.meetHeld k n c.nextId
    else g

/-- The physical barrier of a block's barrier n (R40). -/
def Block.bar (b : Block) (n : Nat) : Nat := (assocGet b.bars n).getD 16

/-- One arrival at a block barrier; at PENDING 0 the phase completes, MEMBERS first losing the members that go
(R47, R55). -/
def Core.arriveBlock (c : Core) (b : Block) (n : Nat) : Core :=
  let p := b.bar n
  let x := nth Barrier.empty c.bars p
  if x.pending ≤ 1 then
    let m := x.members - x.leaving
    let y := { x with pending := m, members := m, phase := !x.phase, leaving := 0 }
    ({ c with bars := setNth c.bars p y }).wakeBar b.launch (fun m => m == b.index) .block n y.phase
  else { c with bars := setNth c.bars p { x with pending := x.pending - 1 } }

def isSeg (launch inst : Nat) (k : BarKind) (n : Nat) (g : Segment) : Bool :=
  g.launch == launch && g.instance_ == inst && g.kind == k && g.id == n

/-- A segment begins its next phase: arrivals that came early count in it (R56). -/
def Segment.next (g : Segment) : Segment :=
  let m := g.bar.members - g.bar.leaving
  { g with bar := { pending := m - g.bar.extra, members := m, phase := !g.bar.phase, leaving := 0
                    sent := decide (m ≤ g.bar.extra), extra := g.bar.extra - m } }

/-- All segments of an instance on the module have sent their arrivals, and some segment still has members. -/
def segsComplete (s : State) (launch inst : Nat) (k : BarKind) (n : Nat) : Bool :=
  let gs := s.cores.flatMap fun p => p.2.segs.filter (isSeg launch inst k n)
  gs.all (fun g => g.bar.sent) && gs.any fun g => decide (g.bar.leaving < g.bar.members)

/-- The instance of a launch's wide barriers to which a block belongs: its cluster-level instance, its die, the module
(R53). -/
def barInstance (l : Launch) (core : Nat) (block : Nat) (k : BarKind) : Nat :=
  match k with
  | .cluster =>
    let per := (((l.rec_.levels.take l.rec_.nlevels).drop 2).takeWhile fun v => v.domain ≤ 3).foldl (fun n v => n * v.extent) 1
    block / per
  | .die => core / 256
  | _ => 0

/-- A block of a launch on a core belongs to an instance of a wide barrier. -/
def inInstance (s : State) (launch core inst : Nat) (k : BarKind) (block : Nat) : Bool :=
  match s.launch? launch with
  | some l => barInstance l core block k == inst
  | none => false

/-- The wires join the segments: the phase completes on each (R55), for the waiting groups of its instance. -/
def segsAdvance (s : State) (launch inst : Nat) (k : BarKind) (n : Nat) : State :=
  { s with cores := s.cores.map fun p =>
      let c := { p.2 with segs := p.2.segs.map fun g => if isSeg launch inst k n g then g.next else g }
      match c.segs.find? (isSeg launch inst k n) with
      | none => (p.1, c)
      | some g => (p.1, c.wakeBar launch (inInstance s launch p.1 inst k) k n g.bar.phase) }

/-- One arrival at a core's segment (R55). A segment that has sent its arrival counts later ones for its next phase, and an
EXPECT on it goes with that phase's reset (DESIGN CHOICE, log 52). -/
def arriveSeg (s : State) (core launch inst : Nat) (k : BarKind) (n : Nat) : State :=
  let s := s.mapCore core fun c =>
    { c with segs := c.segs.map fun g =>
        if isSeg launch inst k n g then
          if g.bar.sent then { g with bar := { g.bar with extra := g.bar.extra + 1 } }
          else if g.bar.pending ≤ 1 then { g with bar := { g.bar with pending := 0, sent := true } }
          else { g with bar := { g.bar with pending := g.bar.pending - 1 } }
        else g }
  if segsComplete s launch inst k n then segsAdvance s launch inst k n else s

/-- One arrival at a barrier for a block on a core. -/
def arrive (s : State) (core : Nat) (l : Launch) (b : Block) (k : BarKind) (n : Nat) : State :=
  match k with
  | .block => s.mapCore core fun c => c.arriveBlock b n
  | _ => arriveSeg s core l.id (barInstance l core b.index k) k n

/-- The phase of a barrier as a block on a core sees it. -/
def phaseOf (s : State) (core : Nat) (l : Launch) (b : Block) (k : BarKind) (n : Nat) : Bool :=
  match k with
  | .block => (nth Barrier.empty (s.core core).bars (b.bar n)).phase
  | _ =>
    match (s.core core).segs.find? (isSeg l.id (barInstance l core b.index k) k n) with
    | none => false
    | some g => g.bar.phase

/-! ## The end of a group (R47) -/

/-- Block barriers a launch uses (Table 1.12). -/
def blockBars (use_ : Word) : List Nat := (List.range 16).filter fun n => use_.getLsbD n

/-- Operations whose completion a release of core scope awaits: loads, stores, atomics, K-space accesses and returns
(05 Table 5.4, DEDUCED, log 18). -/
def PendOp.isAccess : PendOp → Bool
  | .access _ => true
  | .kv _ => true
  | .rret _ _ => true
  | _ => false

/-- Every access before a place in program order is complete. -/
def Group.accessesDone (g : Group) (mark : Nat) : Bool := g.pend.all fun p => decide (mark ≤ p.id) || !p.op.isAccess

/-- An arrival or EXPECT of the group at a barrier, before a place in program order, is not applied yet. -/
def Group.arrivesBefore (g : Group) (k : BarKind) (n mark : Nat) : Bool :=
  g.pend.any fun p => decide (p.id < mark) && (match p.op with
    | .arrive j m _ => j == k && m == n
    | .expect _ j m _ _ => j == k && m == n
    | _ => false)

/-- The arrival of an ended group at a block barrier, which it leaves with the next phase: it is a release by the group
(R47, R56), so the group's accesses and its own earlier arrivals come first. -/
def applyLeave (s : State) (core slot : Nat) (p : Pend) : State :=
  match p.op, s.group? core slot with
  | .leave n, some g =>
    if !g.accessesDone p.id || g.arrivesBefore .block n p.id then s
    else
      let s := s.mapGroup core slot fun g => g.dropPend p.id
      match (s.core core).block? g.launch g.block with
      | some b => s.mapCore core fun c =>
          let y := nth Barrier.empty c.bars (b.bar n)
          { c with bars := setNth c.bars (b.bar n) { y with leaving := y.leaving + 1 } }.arriveBlock b n
      | none => s
  | _, _ => s

/-- The arrivals of a group's end that may apply. -/
def applyLeaves (s : State) (core slot : Nat) : State :=
  match s.group? core slot with
  | none => s
  | some g => g.pend.foldl (fun s p => applyLeave s core slot p) s

/-- A group ends: its pending TAKEs are cancelled (R208), its token of issue priority goes (R174), and each flagged
block barrier takes one arrival for it and loses it from the next phase on. -/
def endGroup (s : State) (core slot : Nat) : State :=
  match s.group? core slot with
  | none => s
  | some g =>
    if g.ended then s
    else
      let s := s.mapGroup core slot fun g =>
        { g with ended := true, wait := .none, cont := none, predicted := none, handler := none, due := none
                 pend := g.pend.filter fun p => match p.op with | .take _ _ => false | .cmp _ => false | _ => true }
      let s := s.mapCore core fun c => c.mapSched (schedOf slot) fun k =>
        { k with holder := if k.holder = some slot then none else k.holder
                 last := if k.last = some slot then none else k.last
                 run := match k.run with | some r => if r.slot = slot then none else some r | none => none }
      match s.launch? g.launch with
      | some l =>
        let s := (blockBars l.rec_.barrierUse).foldl (fun s n =>
          (s.mapGroup core slot fun h => h.addPend (s.core core).nextId (.leave n)).mapCore core Core.tick) s
        applyLeaves s core slot
      | none => s

/-- Ends every group of a launch without a handler and records why the launch ends (10 R345, 11 Table 11.6). -/
def abortLaunch (s : State) (id : Nat) (st : DoneStatus) (incident : Nat × Nat × Nat) : State :=
  let s := s.mapLaunch id fun l =>
    match l.status with
    | none => { l with status := some st, incident := l.incident <|> some incident }
    | some .gangLost => { l with status := some st }
    | some _ => l
  s.cores.foldl (fun s p => p.2.groups.foldl (fun s q => if q.2.launch = id then endGroup s p.1 q.1 else s) s) s

/-! ## Traps -/

/-- Cause codes (Table 10.1). -/
def Cause.code : Cause → Nat
  | .illegalEncoding => 0x01 | .unimpl => 0x02 | .tileOwner => 0x03 | .tileState => 0x04 | .bankConflict => 0x05
  | .addrRegion => 0x06 | .addrAlign => 0x07 | .accessRights => 0x08 | .pageFault => 0x09 | .barOverflow => 0x0A
  | .queueFault => 0x0B | .kvFault => 0x0C | .routeFault => 0x0D | .arith => 0x0E | .userTrap => 0x0F
  | .uncorrectable => 0x10 | .gangLost => 0x11 | .preempt => 0x12

def Origin.code : Origin → Nat
  | .group => 0 | .sequencer => 1 | .engine .copy _ => 2 | .engine .quant _ => 3 | .engine .link _ => 4 | .module => 5

/-- TRAP_CAUSE of a trap (Table 10.2). -/
def Trap.causeWord (t : Trap) : DWord :=
  t.info ++ t.lane ++ t.ctx ++ BitVec.ofNat 4 t.origin.code ++ t.reason ++ 0#2 ++ BitVec.ofBool t.lanef
    ++ BitVec.ofBool t.chain ++ t.word ++ BitVec.ofNat 8 t.cause.code

/-- A trap of a group's own with nothing but its cause. -/
def Trap.plain (c : Cause) : Trap :=
  { cause := c, word := 0#4, chain := false, lanef := false, reason := 0#4, origin := .group, ctx := 0#2, lane := 0#6
    info := 0#32, words := 0#64, view := [] }

/-- One operand of an instruction that trapped, read from the encoding: 0 through an empty entry or from a tile of
another owner (R90). A scalar field of 64 or more names no S register; it reads S[field mod 64] (DESIGN CHOICE, log 53). -/
def viewReg (c : Core) (g : Group) (slot : Nat) (scalar : Bool) (n : Nat) (wide : Bool) (l : Nat) : DWord :=
  if scalar then g.sreg (n % 64)
  else
    let rd := fun k => if vCheck c g slot k = none then c.vRead g.winmap g.wide k l else 0#32
    pair (rd n) (if wide then rd (n + 1) else 0#32)

/-- The registers that an unassigned opcode reads, from the encoding alone (R90): they hold it up while they are pending
(R67). -/
def viewOpds (base ext : Word) : List Opd :=
  let w := readBase base
  let reg := fun (scalar : Bool) (n : Nat) (wide : Bool) => opd scalar (if scalar then n % 64 else n) (if wide then 2 else 1)
  (if w.guard = 0 then [] else [.p w.guard.toNat]) ++
    (if !longOf base then [.v w.a.toNat 1, .v w.b.toNat 1]
     else match efOf ext with
      | 0 =>
        let x := readExtR ext
        let wide := x.type == 3 || x.type == 7
        [reg x.sa w.a.toNat wide, reg x.sb w.b.toNat wide, reg x.sc x.c.toNat wide]
      | 1 =>
        let x := readExtI ext
        [reg x.sa w.a.toNat (x.type == 3 || x.type == 7)]
      | 2 =>
        let x := readExtM ext
        let wide := decide (3 ≤ x.size.toNat)
        reg x.sa w.a.toNat wide :: (if w.b = 0 then [] else [reg false w.b.toNat wide])
      | _ => [reg (readExtC ext).sa w.a.toNat false])

/-- The lanes that the guard of a word leaves, read from the encoding alone (R73): GN lies in the extension word. -/
def guardMask (g : Group) (base ext : Word) : LaneMask :=
  let gn := longOf base && (match efOf ext with
    | 0 => (readExtR ext).gn | 1 => (readExtI ext).gn | 2 => (readExtM ext).gn | _ => (readExtC ext).gn)
  let m := g.pred (readBase base).guard.toNat
  if gn then ~~~m else m

/-- The reads of Table 2.16 for lane l. SIZE codes 5 to 7, which are no sizes, count as `.b64` or wider, and an immediate of
type `.f16` or `.bf16` gives its pattern, bits 15:0, whatever its bits 21:16 hold (DESIGN CHOICE, log 53). -/
def viewLane (c : Core) (g : Group) (slot : Nat) (base ext : Word) (active exec : LaneMask) (l : Nat) : List Word :=
  let w := readBase base
  let first : Word := BitVec.ofNat 32 ((if active.getLsbD l then 1 else 0) + (if exec.getLsbD l then 2 else 0))
  let (x, a, b, k) : Word × DWord × DWord × DWord :=
    if !longOf base then
      (0#32, viewReg c g slot false w.a.toNat false l, viewReg c g slot false w.b.toNat false l, 0#64)
    else match efOf ext with
      | 0 =>
        let x := readExtR ext
        let wide := x.type == 3 || x.type == 7
        (ext, viewReg c g slot x.sa w.a.toNat wide l, viewReg c g slot x.sb w.b.toNat wide l,
          viewReg c g slot x.sc x.c.toNat wide l)
      | 1 =>
        let x := readExtI ext
        let wide := x.type == 3 || x.type == 7
        let t := x.type.toNat
        let imm : DWord :=
          if t = 0 ∨ t = 1 ∨ t = 2 then (x.imm.signExtend 32).setWidth 64
          else if t = 3 then x.imm.signExtend 64
          else if t = 9 then (x.imm.setWidth 64) <<< 10
          else if t = 10 ∨ t = 11 then (x.imm.setWidth 64) &&& 0xFFFF#64
          else x.imm.setWidth 64
        (ext, viewReg c g slot x.sa w.a.toNat wide l, imm, 0#64)
      | 2 =>
        let x := readExtM ext
        let wide := decide (3 ≤ x.size.toNat)
        (ext, viewReg c g slot x.sa w.a.toNat wide l,
          if w.b = 0 then 0#64 else viewReg c g slot false w.b.toNat wide l, 0#64)
      | _ =>
        let x := readExtC ext
        (ext, viewReg c g slot x.sa w.a.toNat false l, x.imm.setWidth 64, 0#64)
  [first, x, lowWord a, highWord a, lowWord b, highWord b, lowWord k, highWord k]

def oplogView (c : Core) (g : Group) (slot : Nat) (base ext : Word) (active exec : LaneMask) : List (List Word) :=
  (List.range g.width).map fun l => viewLane c g slot base ext active exec l

/-- Ends the run of a scheduler, with the lanes that LYIELD marked (R46). -/
def Core.dropRun (c : Core) (k : Nat) : Core :=
  match (c.sched k).run with
  | none => c
  | some r =>
    (c.mapGroup r.slot fun g => g.setLanes (r.marked &&& g.lanesIn .run) .yielded).mapSched k fun x => { x with run := none }

/-- Ends the run of a slot's group, where its scheduler has one. -/
def Core.dropRunOf (c : Core) (slot : Nat) : Core :=
  if (c.sched (schedOf slot)).run.any fun r => r.slot == slot then c.dropRun (schedOf slot) else c

/-! ## Lane faults (R45, 10 R347) -/

/-- Parks a lane: its LFR unless one is unhandled there (R20), its fault entry, its PC at the clause of the faulting
instruction. It leaves the executing set of a run that is to go on. -/
def Group.park (g : Group) (f : LateFault) : Group :=
  let busy := match g.lfr[f.lane]? with | some r => r.valid | none => true
  let reached := nth 0#32 g.lpc f.lane
  let g := { g with
    lanes := setNth g.lanes f.lane .parked
    lpc := setNth g.lpc f.lane f.site.hdrOff
    cont := if g.handler.isSome then g.cont else g.cont.map fun r => { r with exec := r.exec &&& ~~~(1#64 <<< f.lane) } }
  if busy then g
  else { g with
    lfr := setNth g.lfr f.lane
      { addr := f.addr, pc := f.site.hdrOff, detail := BitVec.ofNat 16 (f.detail * 16 + f.site.wordIx % 16), valid := true
        cause := BitVec.ofNat 8 f.cause.code }
    faultLog := setNth g.faultLog f.lane
      (some { cause := f.cause, site := f.site, a := f.a, b := f.b, data := f.data, reached := reached }) }

/-- A late fault of a lane that can still park: one that has exited, or whose record holds an unhandled fault (R20),
keeps its state. -/
def Group.parkLate (g : Group) (f : LateFault) : Group :=
  match nth LaneState.exited g.lanes f.lane with
  | .exited => g
  | .parked => if (match g.lfr[f.lane]? with | some r => r.valid | none => true) then g else g.park f
  | _ => g.park f

/-- The end of a run applies the late faults that waited for it. -/
def Group.parkAll (g : Group) : Group := { (g.late.foldl Group.parkLate g) with late := [] }

/-- A fault that an event finds of operation `id`: at the end of the run in progress, or at once outside a run. One of
a handler's own instruction aborts the launch (R345); a group that has ended records it with its block (10 R357). -/
def lateFault (s : State) (core slot id : Nat) (f : LateFault) : State :=
  match s.group? core slot with
  | none => s
  | some g =>
    if g.ended then
      s.mapCore core fun c => c.mapBlock g.launch g.block fun b =>
        { b with incident := b.incident <|> some (f.cause.code, f.addr.toNat) }
    else if g.handler.any (fun h => decide (h.mark ≤ id)) then
      abortLaunch s g.launch .trapInHandler (f.cause.code, core, f.addr.toNat)
    else if ((s.core core).sched (schedOf slot)).run.any (fun r => r.slot == slot) then
      s.mapGroup core slot fun g => { g with late := g.late ++ [f] }
    else s.mapGroup core slot fun g => g.parkLate f

/-! ## Issuing an instruction -/

/-- The run that an instruction belongs to, with what it needs at hand. -/
structure Issuer where
  core : Nat
  sched : Nat
  slot : Nat
  g : Group
  run : Run
  l : Launch
  b : Block
  deriving DecidableEq, Repr

/-- The run in focus, when there is one (DESIGN CHOICE, log 3). -/
def issuer (s : State) : Option Issuer :=
  match s.focus with
  | .group core sched =>
    match ((s.core core).sched sched).run with
    | none => none
    | some r =>
      match s.group? core r.slot with
      | none => none
      | some g =>
        match s.launch? g.launch, (s.core core).block? g.launch g.block with
        | some l, some b => some { core := core, sched := sched, slot := r.slot, g := g, run := r, l := l, b := b }
        | _, _ => none
  | _ => none

/-- What the field checks know at a group (R86). -/
def checkEnv (g : Group) (l : Launch) : CheckEnv :=
  { wide := g.wide, barUse := l.rec_.barrierUse, xtables := l.rec_.xtables, rings := l.rec_.rings
    formats := l.rec_.formats, kv := l.rec_.kvContext != 0, route := l.rec_.routeTable != 0
    handler := g.handler.isSome }

/-- Words in a clause (Table 2.1). -/
def hdrCount (h : Word) : Nat := (h.extractLsb' 28 4).toNat
def hdrClass (h : Word) : Cls :=
  match (h.extractLsb' 26 2).toNat with
  | 0 => .v | 1 => .m | 2 => .x | _ => .e
/-- HOLD in a V, M or E clause, PAIR in an X clause. -/
def hdrHold (h : Word) : Bool := h.getLsbD 25
def hdrConv (h : Word) : Bool := h.getLsbD 24
def hdrWait (h : Word) : BitVec 8 := h.extractLsb' 16 8
/-- A group ends after word i. -/
def hdrStop (h : Word) (i : Nat) : Bool := h.getLsbD (1 + i)

/-- The offset after a clause. -/
def clauseEnd (off hdr : Word) : Word := off + BitVec.ofNat 32 (4 + 4 * hdrCount hdr)

/-- A clause of class V, M or E whose HOLD chains the next. -/
def chains (hdr : Word) : Bool := hdrHold hdr && hdrClass hdr != .x

/-- Index of the word at the run's position. -/
def Run.wordIx (r : Run) : Nat := (r.pos - r.cur).toNat / 4 - 1

/-- The instruction's place. -/
def siteOf (x : Issuer) (i : Instr) : Site :=
  { hdrOff := x.run.cur, hdr := x.run.hdr, chained := x.run.chained, wordIx := x.run.wordIx, base := nth 0#32 (encode i) 0
    ext := nth 0#32 (encode i) 1 }

/-- The lanes that execute an instruction: the executing set less the lanes whose guard is false (R42, R73). -/
def activeOf (x : Issuer) (i : Instr) : LaneMask :=
  let (p, gn) := guardOf i
  let m := x.g.pred p
  x.run.exec &&& (if gn then ~~~m else m)

/-- How an instruction ends. -/
inductive Act where
  /-- It is complete; the run goes on behind it. -/
  | done (s : State)
  /-- It is a control transfer: it has set the PCs of the executing lanes, and the run ends. -/
  | jump (s : State)
  /-- It traps group-precisely (R44). -/
  | trap (cause : Cause) (reason : Nat) (info : Word)
  /-- A trap made ready by its own rule is taken before it executes (R171, R173). -/
  | fault (t : Trap)
  /-- It waits, or completes while the group is not ready: the run ends here and goes on behind it later (R66). -/
  | wait (s : State)
  /-- It cannot execute yet, and leaves the group not ready; it executes when the group is selected again (R208). -/
  | retry (w : Wait)
  /-- It cannot execute yet, and the scheduler is held (R329). -/
  | stall
  /-- It has begun something that must end before it executes; the scheduler is held. -/
  | held (s : State)
  deriving DecidableEq, Repr

/-- The group of an issuer as it stands in a state. -/
def groupOf (s : State) (x : Issuer) : Group := (s.group? x.core x.slot).getD x.g

/-- A trap falls due to a group (10 R339, R344, 02 R91): the lanes' PCs stand at `pc`, the clause of the trapping word
becomes the resume header, and TRAP_ENTRY follows. In handler mode it aborts the launch (R345). The trap of a predicted clause
is held back until the branch resolves (09 R332), in handler mode too. -/
def raiseTrap (s : State) (core slot : Nat) (exec : LaneMask) (pc : Word) (resume : Option Word) (t : Trap) : State :=
  match s.group? core slot with
  | none => s
  | some g =>
    if g.handler.isSome && g.predicted.isNone then abortLaunch s g.launch .trapInHandler (t.cause.code, core, pc.toNat)
    else
      s.mapGroup core slot fun g =>
        let g := { (g.movePcs exec pc).parkAll with
          resumeHdr := if g.handler.isSome then g.resumeHdr else resume <|> g.resumeHdr, cont := none, ready := false, age := 0 }
        match g.predicted with
        | some p => { g with predicted := some { p with heldTrap := some t, heldAt := pc } }
        | none => { g with due := some t }

/-- A group-precise trap of an instruction: the run of its scheduler ends with it. Its PC is the offset of the trapping base
word, as 02 R91 has it (12 R405 gives that of the clause's header; DEDUCED, log 57). -/
def takeTrap (s : State) (core sched slot : Nat) (exec : LaneMask) (pc : Word) (resume : Option Word) (t : Trap) : State :=
  match s.group? core slot with
  | none => s
  | some g =>
    if g.handler.isSome && g.predicted.isNone then raiseTrap s core slot exec pc resume t
    else raiseTrap (s.mapCore core fun c => c.dropRun sched) core slot exec pc resume t

/-- A withheld item of a predicted clause (09 R332). -/
def holdItem (s : State) (x : Issuer) (p : Predicted) (it : PredItem) : State :=
  (s.mapGroup x.core x.slot fun g => { g with predicted := some { p with items := p.items ++ [it] } }).mapCore x.core Core.tick

/-- What the issue of predicted clauses may move of a group's lanes, as it stands. -/
def Group.frame (g : Group) : PredFrame :=
  { pcs := g.pcs, states := g.states, laneHdr := g.laneHdr, marks := g.marks
    hdr := match g.handler with | some h => h.resume | none => g.resumeHdr }

/-- The first predicted clause notes what it finds of the lanes. -/
def Group.noteFrame (g : Group) (f : PredFrame) : Group :=
  { g with predicted := g.predicted.map fun p => if p.clauses = 0 then { p with before := f } else p }

/-- The OPLOG reads of Table 2.16 for the instruction at hand. -/
def issueView (s : State) (x : Issuer) (i : Instr) : List (List Word) :=
  let p := siteOf x i
  oplogView (s.core x.core) x.g x.slot p.base p.ext (activeOf x i) x.run.exec

/-- The trap of the instruction at hand: its words, its place and its OPLOG reads (R89, R342, R349). -/
def instrTrap (s : State) (x : Issuer) (i : Instr) (c : Cause) (reason : Nat) (info : Word) : State :=
  let p := siteOf x i
  takeTrap s x.core x.sched x.slot x.run.exec x.run.pos (some x.run.cur)
    { Trap.plain c with
      word := BitVec.ofNat 4 p.wordIx, chain := x.run.chained, reason := BitVec.ofNat 4 reason, info := info
      words := p.base ++ p.hdr
      view := issueView s x i }

/-- The return from a handler (06 R267, 10 R346): lanes parked without an unhandled fault run again from the frame,
and the handler's PCs and lane states are discarded. A lane that leaves PARKED inside the clause its LFR names has that
clause as its resume header. After GANG_LOST the return acts as EXIT (10 R363). What the handler wrote to MODE stands after
it, and the rest of a clause that the trap cut through runs under the MODE that then stands, not under that of the
clause's beginning (01 R21 and 10 R344 do not say; DESIGN CHOICE, log 54). -/
def leaveHandler (g : Group) : Group :=
  let fresh : LaneMask := maskBy fun l =>
    nth LaneState.exited g.lanes l == .parked && !(match g.lfr[l]? with | some r => r.valid | none => true)
  let hdrs := g.laneHdr.mapIdx fun l h =>
    if fresh.getLsbD l then (match g.lfr[l]? with | some r => some r.pc | none => h) else h
  let g' := { g with handler := none, lanes := mapLanes fresh (fun _ _ => .run) g.lanes, laneHdr := hdrs }
  match g.handler with
  | none => g'
  | some h =>
    -- a run that the trap interrupted goes on where its lanes still stand
    let still := fun (r : Run) =>
      r.exec &&& maskBy fun l => nth 0#32 g.lpc l == r.pos && nth LaneState.exited g'.lanes l == .run
    { g' with wait := (match h.wait with | .fetch _ _ _ => .none | w => w), cont := h.cont.map fun r => { r with exec := still r } }

/-- The lane-fault trap of R45: the lowest parked lane with an unhandled fault gives the cause and the words. -/
def laneFaultTrap (g : Group) : Option Trap :=
  match lowest g.parkedValid with
  | none => none
  | some l =>
    match g.lfr[l]?, nth none g.faultLog l with
    | some r, some f =>
      some { Trap.plain f.cause with
        word := r.detail.extractLsb' 0 4, chain := f.site.chained, lanef := true, lane := BitVec.ofNat 6 l
        words := f.site.base ++ f.site.hdr }
    | _, _ => none

/-! ## The course of a run -/

/-- The run has passed its last word: marked lanes yield, late faults park, and the scheduler is free (R42, R46). -/
def endRun (s : State) (core sched : Nat) : State :=
  match ((s.core core).sched sched).run with
  | none => s
  | some r =>
    let s := s.mapCore core fun c => c.dropRun sched
    s.mapGroup core r.slot fun g => g.parkAll

/-- A clause begins: MODE takes its value for the clause (R21). -/
def Group.beginClause (g : Group) : Group := { g with modeNow := g.mode }

/-- The run after n more words: inside the clause, at the chained clause, or past its end. The chained header is
fetched when the run gets there, so `hdr` is the caller's. -/
def Run.moved (r : Run) (n : Nat) : Run := { r with pos := r.pos + BitVec.ofNat 32 (4 * n) }

/-- The run stands at the end of its clause. It never steps past it: a resume at an extension word that would make the last
word a long one fails its header check (DESIGN CHOICE, log 58). -/
def Run.atEnd (r : Run) : Bool := r.pos == clauseEnd r.cur r.hdr

/-- A run at the end of the first clause of a chain stands at the chained clause's header. -/
def Run.mustChain (r : Run) : Bool := r.atEnd && !r.chained && chains r.hdr

/-- The group at hand waits for nothing. An instruction of the run whose actions take time, an ACQ for one, holds the run
where it stands until they are complete: it is none of the instructions at which R66 ends a run (DEDUCED, log 55). -/
def unheld (s : State) (x : Issuer) : Bool := (groupOf s x).wait == .none

/-- Puts the moved run back: the executing lanes' PCs follow it; at the end of a clause without a chained one the run
ends (R42), once what its last instruction began is complete. -/
def stepRun (s : State) (x : Issuer) (r : Run) : State :=
  let s := s.mapGroup x.core x.slot fun g => g.movePcs r.exec r.pos
  let s := s.mapCore x.core fun c => c.mapSched x.sched fun k => { k with run := some r }
  if r.atEnd && !r.mustChain && unheld s x then endRun s x.core x.sched else s

/-- The executing set as it stands in a state: the run's. -/
def runNow (s : State) (x : Issuer) : Run := (((s.core x.core).sched x.sched).run).getD x.run

/-- Ends the run at an instruction that leaves the group not ready; the continuation starts at `r` (R66), without the
lanes that a late fault parks here (10 R347). Lanes that LYIELD has marked enter YIELDED when the continuation ends, not
here (04 R172 does not say which; DESIGN CHOICE, log 56). -/
def suspendRun (s : State) (x : Issuer) (r : Run) : State :=
  let s := s.mapGroup x.core x.slot fun g => g.movePcs r.exec r.pos
  let fin := r.atEnd && !r.mustChain
  let s := s.mapCore x.core fun c =>
    if fin then c.dropRun x.sched else c.mapSched x.sched fun k => { k with run := none }
  s.mapGroup x.core x.slot fun g =>
    { g with cont := if fin then none else some r, ready := false, age := 0 }.parkAll

/-- Words of an instruction. -/
def lenOf (i : Instr) : Nat := (encode i).length

/-- The operands whose pending state holds an instruction up: a compare's sources and the guard of a hinted uniform
branch do not (R67, R331). -/
def heldOpds (e : CheckEnv) : Instr → List Opd
  | .icmp w x => (if w.guard = 0 then [] else [.p w.guard.toNat]) ++ (infoOf e (.icmp w x)).writes
  | .fcmp w x => (if w.guard = 0 then [] else [.p w.guard.toNat]) ++ (infoOf e (.fcmp w x)).writes
  | .bra w x => if w.d.extractLsb' 1 2 = 0 then readsOf e (.bra w x) else []
  | .unassignedOpcode _ b x => viewOpds b (x.getD 0#32)
  | i => readsOf e i ++ (infoOf e i).writes

/-- The registers that an instruction names (R208), a compare's sources among them. -/
def namedOpds (e : CheckEnv) : Instr → List Opd
  | .unassignedOpcode _ b x => viewOpds b (x.getD 0#32)
  | i => (infoOf e i).reads ++ (infoOf e i).writes

/-- The access instructions, which wait for the group's TAKEs (R208). -/
def isAccess : Instr → Bool
  | .sld _ => true | .sldLong _ _ => true | .sst _ => true | .sstLong _ _ => true | .satom _ _ => true
  | .cld _ => true | .cldLong _ _ => true | .cst _ => true | .cstLong _ _ => true | .catom _ _ => true
  | .gld _ => true | .gldLong _ _ => true | .gst _ => true | .gstLong _ _ => true | .gatom _ _ => true
  | .gred _ _ => true | .hld _ => true | .hldLong _ _ => true | .hst _ => true | .hstLong _ _ => true
  | .pld _ _ => true | .put _ _ => true | .patom _ _ => true | .pref _ => true | .prefLong _ _ => true
  | .kld _ _ => true | .kst _ _ => true | .ksts _ _ => true
  | _ => false

/-- A request of the group stands before a full service-group queue: the group waits, at the instruction that it has come to
when the request is found waiting (05 R197, 09 R329, R336; DEDUCED, log 74). -/
def Group.svcHeld (g : Group) : Bool :=
  g.pend.any fun p => match p.op with | .access a => a.lanes.any fun l => l.progress == .held | _ => false

/-- Why an instruction cannot execute at a group yet: a request before a full service-group queue or a pending operand, which
hold the scheduler (R329), or a pending TAKE, which leaves the group not ready (01 R50). R66 does not list the instruction
that waits for a TAKE: it executes when the group is selected again (DEDUCED, log 55). -/
def holdUp (x : Issuer) (i : Instr) : Option Act :=
  let e := checkEnv x.g x.l
  if x.g.svcHeld then some .stall
  else if (namedOpds e i).any x.g.takeHolds || (isAccess i && x.g.takePending) then some (.retry .take)
  else if (heldOpds e i).any x.g.pendingOpd then some .stall
  else none

/-- Carries out how an instruction ended. -/
def settleAct (s : State) (x : Issuer) (i : Instr) : Act → State
  | .done t => stepRun t x ((runNow t x).moved (lenOf i))
  | .jump t => endRun t x.core x.sched
  | .trap c reason info => instrTrap s x i c reason info
  | .fault t => takeTrap s x.core x.sched x.slot x.run.exec x.run.pos (some x.run.cur) t
  | .wait t => suspendRun t x ((runNow t x).moved (lenOf i))
  | .retry w => suspendRun (s.mapGroup x.core x.slot fun g => { g with wait := w }) x x.run
  | .stall => s
  | .held t => t

/-- An instruction of a group: it waits for its operands; with a lane in `active` its registers are checked (R17,
R139) and its body acts; with none, nothing changes but the position (R73, R141). -/
def runInstr (s : State) (i : Instr) (body : Issuer → LaneMask → Act) : Host.Outcome State Fault Refusal :=
  match issuer s with
  | none => .refused .noIssuer
  | some x =>
    match holdUp x i with
    | some a => .next (settleAct s x i a)
    | none =>
      let m := activeOf x i
      if m = 0#64 then .next (settleAct s x i (.done s))
      else
        let f := infoOf (checkEnv x.g x.l) i
        match opdChecks (s.core x.core) x.g x.slot (f.reads ++ f.writes) with
        | some c => .next (settleAct s x i (.trap c 0 0#32))
        | none => .next (settleAct s x i (body x m))

/-- An instruction that acts on the executing set whatever its guard leaves active (R73). -/
def runAlways (s : State) (i : Instr) (body : Issuer → LaneMask → Act) : Host.Outcome State Fault Refusal :=
  match issuer s with
  | none => .refused .noIssuer
  | some x =>
    match holdUp x i with
    | some a => .next (settleAct s x i a)
    | none =>
      let m := activeOf x i
      let f := infoOf (checkEnv x.g x.l) i
      match (if m = 0#64 then none else opdChecks (s.core x.core) x.g x.slot (f.reads ++ f.writes)) with
      | some c => .next (settleAct s x i (.trap c 0 0#32))
      | none => .next (settleAct s x i (body x m))

/-! ## Reading and writing through an issuer -/

/-- Vn of lane l for an issuer, in a state. -/
def vget (s : State) (x : Issuer) (n l : Nat) : Word := (s.core x.core).vRead (groupOf s x).winmap x.g.wide n l

/-- Writes Vn of lane l. -/
def vset (s : State) (x : Issuer) (n l : Nat) (v : Word) : State :=
  s.mapCore x.core fun c => c.vWrite (groupOf s x).winmap x.g.wide n l v

def sset (s : State) (x : Issuer) (n : Nat) (v : DWord) : State := s.mapGroup x.core x.slot fun g => g.setS n v

/-- Writes several registers of several lanes, in order: register, lane, value. -/
def vsets (s : State) (x : Issuer) (ws : List (Nat × Nat × Word)) : State :=
  s.mapCore x.core fun c => ws.foldl (fun c w => c.vWrite x.g.winmap x.g.wide w.1 w.2.1 w.2.2) c

/-- The value of a 32-bit operand: the low word of a scalar register, or Vn of the lane. -/
def val32 (s : State) (x : Issuer) (scalar : Bool) (n l : Nat) : Word :=
  if scalar then lowWord (x.g.sreg n) else vget s x n l

/-- The value of a 64-bit operand: a scalar register, or the pair Vn, Vn+1. -/
def val64 (s : State) (x : Issuer) (scalar : Bool) (n l : Nat) : DWord :=
  if scalar then x.g.sreg n else pair (vget s x n l) (vget s x (n + 1) l)

/-- The elected lane of a set that is not empty (Table 0.5). -/
def elect (m : LaneMask) : Nat := (lowest m).getD 0

end Sys2Proof.Machine
end

