-- ==== Sys2Proof/Machine/Home.lean ====
section
/-! DEFINITION. The dies: device memory and its homes, the L2 strips, the remote-data cache, poison, the stamped
messages of the bridge (08 R302 to R306, R434), the L1 of each core (08 R303), and the regions, page walks and TLB of
translation (10 R350 to R356). -/

namespace Sys2Proof.Machine

/-! ## Dies and addresses -/

/-- Die of a core (01 R15). -/
def dieOf (core : Nat) : Nat := core / 256

/-- Die of a device physical address (10 R351). -/
def homeDie (dpa : Nat) : Nat := dpa / 2 ^ 46 % 2

def State.die (s : State) (d : Nat) : Die := if d = 0 then s.die0 else s.die1

def State.mapDie (s : State) (d : Nat) (f : Die → Die) : State :=
  if d = 0 then { s with die0 := f s.die0 } else { s with die1 := f s.die1 }

/-- A DPA within installed memory (10 R351). -/
def State.installed (s : State) (dpa : Nat) : Bool :=
  let off := dpa % 2 ^ 45
  decide (dpa < 2 ^ 47)
    && (if dpa / 2 ^ 45 % 2 = 0 then decide (off < Config.bondedBytes)
        else decide (off < (if homeDie dpa = 0 then s.tier0 else s.tier1)))

def lineOf (a : Nat) : Nat := a / 128 * 128

/-- The 4-byte words of a line, as a mask, from a first byte offset to a last one. -/
def wordSpan (lo hi : Nat) : BitVec 32 :=
  (List.range 32).foldl (fun m w => if lo / 4 ≤ w ∧ w ≤ hi / 4 then m ||| (1#32 <<< w) else m) 0#32

/-- The words that single bytes of a line touch. -/
def cellWords (cs : List Host.Cell) : BitVec 32 := cs.foldl (fun m c => m ||| (1#32 <<< (c.1 % 128 / 4))) 0#32

/-- The home lines of the bytes from lo to hi, at most 128 of them, each with the words of it that they touch. -/
def lineSpans (lo hi : Nat) : List (Nat × BitVec 32) :=
  if lineOf lo = lineOf hi then [(lineOf lo, wordSpan (lo % 128) (hi % 128))]
  else [(lineOf lo, wordSpan (lo % 128) 127), (lineOf hi, wordSpan 0 (hi % 128))]

/-! ## L2 strips (R302, R434) -/

/-- The n different things of a list, in order, that a number codes. -/
def arrange : Nat → Nat → List Nat → List Nat
  | 0, _, _ => []
  | n + 1, code, xs => nth 0 xs (code % xs.length) :: arrange n (code / xs.length) (dropIx xs (code % xs.length))

/-- The strips of the 16 lines of a 2 KiB block: each strip once. -/
def stripOrder (block : Nat) : List Nat := arrange 16 (Config.stripCode block) (List.range 16)

/-- Strip of a line. -/
def stripOf (dpa : Nat) : Nat := nth 0 (stripOrder (dpa / 2048)) (dpa / 128 % 16)

/-- How many ways of a set of a cache are out of use; the last one never is (10 R366, DESIGN CHOICE, log 70). -/
def State.waysLeft (s : State) (cls unit set n : Nat) : Nat := max 1 (n - (s.fencedWays.filter fun w => w == (cls, unit, set)).length)

/-- An access reaches a line's home: the line is there or takes the least recently used way of its set. -/
def touchL2 (s : State) (dpa : Nat) (dirty : Bool) : State :=
  s.mapDie (homeDie dpa) fun d =>
    let a := lineOf dpa
    let ways := s.waysLeft 2 (stripOf a + 16 * homeDie dpa) (Config.stripSet a % 3072) 16
    let was := d.l2.any fun l => l.dpa == a && l.dirty
    let new : L2Line := { strip := stripOf a, set := Config.stripSet a % 3072, dpa := a, dirty := dirty || was }
    let others := d.l2.filter fun l => l.dpa ≠ a
    { d with l2 := new ::
        (if others.length < ways then others
         else
           let same := fun (l : L2Line) => l.strip == new.strip && l.set == new.set
           if (others.filter same).length < ways then others
           else (match findIx same others.reverse with
             | some i => (dropIx others.reverse i).reverse
             | none => others)) }

/-- An access reaches the home lines of n bytes. -/
def touchSpan (s : State) (dpa n : Nat) (dirty : Bool) : State :=
  (lineSpans dpa (dpa + n - 1)).foldl (fun s p => touchL2 s p.1 dirty) s

/-! ## Device memory at its home -/

def State.poisonedAt (s : State) (dpa : Nat) : Bool := s.poisoned.contains (lineOf dpa)

/-- Writes bytes of one line at the home: performed there (R306); a write of all 128 bytes clears the poison
(10 R366). -/
def performHome (s : State) (cells : List Host.Cell) : State :=
  match cells with
  | [] => s
  | c :: _ =>
    let line := lineOf c.1
    let full := (List.range 128).all fun i => cells.any fun x => x.1 == line + i
    touchL2 { s with dram := s.dram.putCells cells
                     poisoned := if full then s.poisoned.filter (· ≠ line) else s.poisoned } line true

/-- Reads bytes at the home. -/
def readHome (s : State) (dpa n : Nat) : List Byte := s.dram.bytes dpa n

/-! ## The remote-data cache (R304) -/

def Die.rdcFind (d : Die) (key : RdcKey) : Option RdcLine := d.rdc.find? fun l => l.key == key

def Die.rdcDrop (d : Die) (key : RdcKey) (mask : BitVec 32) : Die :=
  { d with rdc := (d.rdc.map fun l => if l.key = key then { l with valid := l.valid &&& ~~~mask } else l).filter
                    fun l => l.valid ≠ 0#32 }

/-- Drops every copy of a line of a peer module that p names. -/
def Die.rdcDropPeers (d : Die) (p : Nat → Nat → Bool) : Die :=
  { d with rdc := d.rdc.filter fun l => match l.key with | .peer dev w _ => !p dev w | .line _ => true }

/-- Lines a 32 MiB RDC holds. -/
def rdcLines : Nat := 262144

/-- Bytes of the words of a mask, written over a line's; the others stay. -/
def overlay (mask : BitVec 32) (bytes : List Byte) (m : Memory) : Memory :=
  (List.range 128).foldl (fun (m : Memory) i => if mask.getLsbD (i / 4) then m.set i (nth 0#8 bytes i) else m) m

/-- The RDC holds words of a line. -/
def Die.rdcHas (d : Die) (key : RdcKey) (mask : BitVec 32) : Bool :=
  match d.rdcFind key with
  | some l => l.valid &&& mask == mask
  | none => false

/-- Takes a copy of words of a line into the RDC; a word that it holds stays as it is (R304), and the least recently used
line goes when it is full (DESIGN CHOICE, log 17). The line's copy comes with it. -/
def Die.rdcFill (d : Die) (left : Nat) (key : RdcKey) (mask : BitVec 32) (bytes : List Byte) : Die × RdcLine :=
  let old := (d.rdcFind key).getD { key := key, valid := 0#32, data := [] }
  let new := { old with valid := old.valid ||| mask, data := overlay (mask &&& ~~~old.valid) bytes old.data }
  ({ d with rdc := (new :: d.rdc.filter fun l => l.key ≠ key).take left }, new)

/-- Reads words of a line by way of a die's RDC, which takes those that it lacks. -/
def viaRdc (s : State) (d : Nat) (key : RdcKey) (mask : BitVec 32) (home : List Byte) : State × Memory :=
  let (x, l) := (s.die d).rdcFill (s.waysLeft 3 d 0 rdcLines) key mask home
  (s.mapDie d fun _ => x, l.data)

/-! ## The die bridge (R305) -/

/-- Sends a stamped message from a die to the other. -/
def sendMsg (s : State) (d : Nat) (k : BridgeKind) : State :=
  s.mapDie d fun x =>
    let clock := if d = 0 then (x.clock.1 + 1, x.clock.2) else (x.clock.1, x.clock.2 + 1)
    { x with clock := clock, out := x.out ++ [{ c0 := clock.1, c1 := clock.2, kind := k }] }

/-- After a write, atomic or reduction performed at its home for an agent of die d: the other die's RDC loses the span
before the acknowledgement (R304). -/
def afterHome (s : State) (d : Nat) (line : Nat) (mask : BitVec 32) (ref : AckRef) : State :=
  if homeDie line = d then sendMsg s d (.inval line mask ref)
  else sendMsg (sendMsg s (homeDie line) (.inval line mask .none)) (homeDie line) (.ack ref)

/-- The same for a write or atomic of several spans of one die, the last of which answers. -/
def afterSpans (s : State) (d : Nat) (ref : AckRef) : List (Nat × BitVec 32) → State
  | [] => s
  | [p] => afterHome s d p.1 p.2 ref
  | p :: ps => afterSpans (afterHome s d p.1 p.2 .none) d ref ps

/-- A write of bytes of one line, with its span, by an agent of die d (R304, R305). -/
def writeHome (s : State) (d : Nat) (cells : List Host.Cell) (mask : BitVec 32) (ref : AckRef) : State :=
  match cells with
  | [] => s
  | c :: _ =>
    if homeDie c.1 = d then afterHome (performHome s cells) d (lineOf c.1) mask ref
    else sendMsg s d (.write cells mask ref)

/-- A write of bytes of one line that came from outside, performed at the home; the other die's RDC loses its span before
the acknowledgement (R304). -/
def writeIn (s : State) (cells : List Host.Cell) (ref : AckRef) : State :=
  match cells with
  | [] => s
  | c :: _ => sendMsg (performHome s cells) (homeDie c.1) (.inval (lineOf c.1) (cellWords cells) ref)

/-- Splits bytes at consecutive device addresses into the cells of each line. -/
def byLine (cells : List Host.Cell) : List (List Host.Cell) :=
  (dedup (cells.map fun c => lineOf c.1)).map fun l => cells.filter fun c => lineOf c.1 == l

/-- Writes of bytes of several lines of one die, each with its span, by an agent of die d: the last one is answered, behind the
others (R305). -/
def writeHomes (s : State) (d : Nat) (ref : AckRef) : List (List Host.Cell × BitVec 32) → State
  | [] => s
  | [p] => writeHome s d p.1 p.2 ref
  | p :: ps => writeHomes (writeHome s d p.1 p.2 .none) d ref ps

/-- A write of bytes by an agent of die d, line by line. -/
def writeCells (s : State) (d : Nat) (cells : List Host.Cell) (ref : AckRef) : State :=
  writeHomes s d ref ((byLine cells).map fun cs => (cs, cellWords cs))

/-! ## Service groups (09 R336) -/

/-- The requests that wait at a strip's service group, in order of arrival. -/
def Die.queueAt (d : Die) (strip : Nat) : List SvcReq := d.svc.filter fun r => r.strip == strip

/-- The service group that serves a strip of a die: its own, or the next of its cluster when it is fenced off (10 R365). -/
def servingStrip (s : State) (die strip : Nat) : Nat :=
  let next := fun (j : Nat) => strip / 4 * 4 + (strip + j) % 4
  match (List.range 4).find? fun j => !s.fencedWays.contains (5, next j + 16 * die, 0) with
  | some j => next j
  | none => strip

/-- The queue of a line's service group has room: fewer than 128 requests are there. -/
def svcRoom (s : State) (dpa : Nat) : Bool :=
  decide (((s.die (homeDie dpa)).queueAt (servingStrip s (homeDie dpa) (stripOf (lineOf dpa)))).length < 128)

/-- A request for a line arrives at its service group. One that finds the 128 entries taken is held at the chain stop, and
those behind it stay in their order: of a strip's list, the first 128 are in the queue. -/
def enqueue (s : State) (dpa : Nat) (r : SvcRef) : State :=
  let strip := servingStrip s (homeDie dpa) (stripOf (lineOf dpa))
  s.mapDie (homeDie dpa) fun d => { d with svc := d.svc ++ [{ strip := strip, ref := r, since := s.cycle }] }

/-- The request is the oldest of its service group. -/
def atFront (s : State) (dpa : Nat) (r : SvcRef) : Bool :=
  let rs := (s.die (homeDie dpa)).svc
  match rs.find? fun q => q.ref == r with
  | some q => (rs.find? fun x => x.strip == q.strip) == some q
  | none => false

/-- Takes a request out of the queues of a line's die. -/
def dequeue (s : State) (dpa : Nat) (r : SvcRef) : State :=
  s.mapDie (homeDie dpa) fun d => { d with svc := d.svc.filter fun q => q.ref != r }

/-! ## L1 (R303) -/

def l1Set (va : Nat) : Nat := va / 128 % 128

def Core.l1Find (c : Core) (asid va : Nat) : Option L1Line := c.l1.find? fun l => l.asid == asid && l.va == lineOf va

/-- Puts a line first in the order of recency. -/
def Core.l1Put (c : Core) (x : L1Line) : Core :=
  { c with l1 := x :: c.l1.filter fun l => !(l.asid == x.asid && l.va == x.va) }

/-- The dirty bytes of a line, at their device addresses. -/
def L1Line.dirtyCells (l : L1Line) : List Host.Cell :=
  ((List.range 128).filter fun i => l.dirty.getLsbD i).map fun i => (l.dpa + i, l.data.get i)

/-- The bytes of a line whose write-back is not acknowledged. -/
def L1Line.inFlight (l : L1Line) : BitVec 128 := l.wb.foldl (· ||| ·) 0#128

/-- The bytes of the words of a mask. -/
def wordBytes (m : BitVec 32) : BitVec 128 :=
  (List.range 128).foldl (fun b i => if m.getLsbD (i / 4) then b ||| (1#128 <<< i) else b) 0#128

/-- The words with a byte of a mask. -/
def byteWords (b : BitVec 128) : BitVec 32 :=
  (List.range 32).foldl (fun m w => if (List.range 4).any fun i => b.getLsbD (4 * w + i) then m ||| (1#32 <<< w) else m) 0#32

/-- A write-back of bytes of a line sets out: they are dirty no longer, and valid until its acknowledgement. -/
def L1Line.sendBytes (l : L1Line) (m : BitVec 128) : L1Line :=
  if l.dirty &&& m = 0#128 then l else { l with dirty := l.dirty &&& ~~~m, wb := l.wb ++ [l.dirty &&& m] }

/-- Writes back the dirty bytes of each line that a mask names. -/
def writeBackBytes (s : State) (core : Nat) (m : L1Line → BitVec 128) : State :=
  let c := s.core core
  let ls := (c.l1.map fun l => { l with dirty := l.dirty &&& m l }).filter fun l => l.dirty != 0#128
  let s := s.setCore core { c with l1 := c.l1.map fun l => l.sendBytes (m l), wbOut := c.wbOut + ls.length }
  ls.foldl (fun s l => writeCells s (dieOf core) l.dirtyCells (.writeback core l.asid l.va)) s

/-- Writes back the dirty bytes of the lines that p names. -/
def writeBack (s : State) (core : Nat) (p : L1Line → Bool) : State :=
  writeBackBytes s core fun l => if p l then BitVec.allOnes 128 else 0#128

/-- The oldest write-back of a line is acknowledged. -/
def Core.l1Acked (c : Core) (asid va : Nat) : Core :=
  { c with wbOut := c.wbOut - 1
           l1 := c.l1.map fun l => if l.asid == asid && l.va == va then { l with wb := l.wb.drop 1 } else l }

/-- Bytes of lines go home before something that comes after their stores: none while their write-back is not acknowledged;
with true, they have gone. -/
def flushBytes (s : State) (core : Nat) (span : L1Line → BitVec 128) : Option (State × Bool) :=
  let c := s.core core
  if c.l1.any fun y => y.dirty &&& span y != 0#128 then some (writeBackBytes s core span, false)
  else if c.l1.any fun y => y.inFlight &&& span y != 0#128 then none
  else some (s, true)

/-- Invalidates words of lines, after their dirty bytes have gone home. -/
def Core.l1Drop (c : Core) (mask : L1Line → BitVec 32) : Core :=
  { c with l1 := (c.l1.map fun l => { l with valid := l.valid &&& ~~~(mask l), ro := l.ro &&& ~~~(mask l) }).filter
                   fun l => l.valid ≠ 0#32 }

/-- Invalidates every word but those of `.ro` spans (R199, R201). -/
def Core.l1Acquire (c : Core) : Core := c.l1Drop fun l => ~~~l.ro

def Core.l1Dirty (c : Core) : Bool := c.l1.any fun l => l.dirty != 0#128

/-- The way that a fill into the set of `va` replaces, when the set is full and does not hold the line: of lowest
retention priority, least recently used among equals. -/
def Core.l1Victim (c : Core) (asid va left : Nat) : Option L1Line :=
  let ways := c.l1.filter fun l => l1Set l.va == l1Set va
  if (c.l1Find asid va).isSome || ways.length < left then none
  else
    let low := ways.foldl (fun n l => min n l.prio) 3
    ways.reverse.find? fun l => l.prio == low

/-- What became of a fill. -/
inductive Fill where
  /-- The words are valid now. -/
  | ready (s : State)
  /-- The way to replace is being written back first. -/
  | held (s : State)
  /-- The way to replace waits for its acknowledgement, or the words for that of a write at their home. -/
  | blocked
  /-- The line is poisoned. -/
  | poisoned
  deriving DecidableEq, Repr

/-- Bytes of a SIZE code (05 Table 5.1). -/
def sizeBytes (size : Nat) : Nat := 2 ^ size

/-- First and last byte of a request within its 128-byte line. -/
def spanOf (bytes : Nat) (ls : List LaneAcc) : Nat × Nat :=
  let off := ls.map fun l => l.loc.toNat % 128
  (off.foldl min 127, off.foldl (fun m o => max m (o + bytes - 1)) 0)

/-- The words of a request's span (R184). -/
def spanMask (bytes : Nat) (ls : List LaneAcc) : BitVec 32 := wordSpan (spanOf bytes ls).1 (spanOf bytes ls).2

/-- The address space of a launch. -/
def asidOf (s : State) (launch : Nat) : Nat := match s.launch? launch with | some l => l.asid | none => 0

/-- The lane's write at the home has set out and is not acknowledged. -/
def LaneAcc.atHome (l : LaneAcc) : Bool := l.progress == .sent || l.progress == .held || l.progress == .queued

/-- The words of a line that `.fresh` stores, atomics and reductions of the core's groups have under way to their home: a
fill of them waits for the acknowledgement, so that no copy older than the write comes into the L1 (R183, DEDUCED,
log 16). -/
def homeBusy (s : State) (core asid va : Nat) : BitVec 32 :=
  (s.core core).groups.foldl (fun m p =>
    if asidOf s p.2.launch = asid then p.2.pend.foldl (fun m q => match q.op with
      | .access a =>
        let ls := a.lanes.filter fun l => a.space == .g && l.atHome && lineOf l.loc.toNat == lineOf va
        if ls.isEmpty then m else m ||| spanMask (sizeBytes a.size) ls
      | _ => m) m
    else m) 0#32

/-- The bytes of a home line for a fill by a core of die d: a word that the RDC holds, where the line is homed elsewhere, from
there, and every other word from the home, by way of the RDC (R308). None where the home is to be read and the line is
poisoned there (10 R366). -/
def fetchHome (s : State) (d dpa : Nat) (mask : BitVec 32) : Option (State × List Byte) :=
  let near := homeDie dpa == d
  if mask = 0#32 then some (s, [])
  else if !near && (s.die d).rdcHas (.line dpa) mask then
    let (s, m) := viaRdc s d (.line dpa) mask []
    some (s, m.bytes 0 128)
  else if s.poisonedAt dpa then none
  else
    let s := touchL2 s dpa false
    let home := readHome s dpa 128
    if near then some (s, home)
    else
      let (s, m) := viaRdc s d (.line dpa) mask home
      some (s, m.bytes 0 128)

/-- The bytes of a line of addresses, whose first byte lies at dpa, for the words of a mask: they lie in two home lines where a
region's TARGET is no multiple of 128 (10 R351). -/
def fetchLine (s : State) (d dpa : Nat) (mask : BitVec 32) : Option (State × List Byte) :=
  let k := dpa % 128
  if k = 0 then fetchHome s d dpa mask
  else match fetchHome s d (lineOf dpa) (byteWords (wordBytes mask <<< k)) with
    | none => none
    | some (s, lo) =>
      match fetchHome s d (lineOf dpa + 128) (byteWords (wordBytes mask >>> (128 - k))) with
      | none => none
      | some (s, hi) => some (s, (List.range 128).map fun i => if i + k < 128 then nth 0#8 lo (i + k) else nth 0#8 hi (i + k - 128))

/-- Makes words of the line of an address valid in L1, the byte of that address lying at dpa (R303); words that are valid keep their bytes. The words of `whole` are about to be
written whole, and are not fetched: nothing of them is read (10 R366). A `.ro` load marks the words it reads also when it
finds them valid (05 R187 speaks of the fill; DESIGN CHOICE, log 80). -/
def fillL1 (s : State) (core asid va dpa : Nat) (mask whole : BitVec 32) (prio : Nat) (ro : Bool) : Fill :=
  let c := s.core core
  let a := lineOf va
  let p := dpa - va % 128
  let marked := fun (l : L1Line) => if ro then { l with ro := l.ro ||| mask } else l
  match c.l1Find asid a with
  | some l =>
    if l.valid &&& mask = mask then .ready (s.setCore core (c.l1Put (marked l)))
    else
      let need := mask &&& ~~~l.valid
      if need &&& homeBusy s core asid a ≠ 0#32 then .blocked
      else (match fetchLine s (dieOf core) p (need &&& ~~~whole) with
       | none => .poisoned
       | some (s, bs) =>
         .ready (s.mapCore core fun c => c.l1Put (marked
           { l with valid := l.valid ||| mask, data := overlay need bs l.data, prio := prio })))
  | none =>
    let go := fun (s : State) =>
      match fetchLine s (dieOf core) p (mask &&& ~~~whole) with
      | none => Fill.poisoned
      | some (s, bs) =>
        .ready (s.mapCore core fun c => c.l1Put (marked
          { asid := asid, va := a, dpa := p, valid := mask, dirty := 0#128, prio := prio, ro := 0#32
            data := overlay mask bs [], wb := [] }))
    if mask &&& homeBusy s core asid a ≠ 0#32 then .blocked
    else match c.l1Victim asid a (s.waysLeft 1 core (l1Set a) 8) with
    | none => go s
    | some v =>
      let isV := fun (l : L1Line) => l.asid == v.asid && l.va == v.va
      if v.dirty ≠ 0#128 then .held (writeBack s core isV)
      else if v.wb ≠ [] then .blocked
      else go (s.setCore core { c with l1 := c.l1.filter fun l => !isV l })

/-- Bytes of one line written by a `.stale` store: the words are valid, and the bytes written are dirty (R188, R303,
DEDUCED, log 16). -/
def Core.l1Store (c : Core) (asid va : Nat) (cells : List (Nat × Byte)) : Core :=
  match c.l1Find asid va with
  | none => c
  | some l =>
    c.l1Put { l with
      data := cells.foldl (fun (m : Memory) x => m.set x.1 x.2) l.data
      dirty := cells.foldl (fun d x => d ||| (1#128 <<< x.1)) l.dirty }

/-- A `.fresh` store updates the valid words of a copy, so that their bytes agree with the home (R188, DEDUCED, log 16). -/
def Core.l1Update (c : Core) (asid va : Nat) (cells : List (Nat × Byte)) : Core :=
  { c with l1 := c.l1.map fun l =>
      if l.asid == asid && l.va == lineOf va then
        let cs := cells.filter fun x => l.valid.getLsbD (x.1 / 4)
        { l with data := cs.foldl (fun (m : Memory) x => m.set x.1 x.2) l.data
                 dirty := cs.foldl (fun d x => d &&& ~~~(1#128 <<< x.1)) l.dirty }
      else l }

/-- A `.fresh` store has been acknowledged by a home on the other die: its bytes come into the copy, but for bytes of later
`.stale` stores, dirty or on their way home. -/
def Core.l1Refresh (c : Core) (asid va : Nat) (cells : List (Nat × Byte)) : Core :=
  match c.l1Find asid va with
  | none => c
  | some l => c.l1Update asid va (cells.filter fun x => !(l.dirty ||| l.inFlight).getLsbD x.1)

/-! ## Regions (10 R350, R351) -/

def Region.covers (r : Region) (a : Nat) : Bool := r.length != 0 && decide (r.vbase ≤ a) && decide (a < r.vbase + r.length)

/-- The region of an address and its index. -/
def regionOf (l : Launch) (a : Nat) : Option (Nat × Region) :=
  match findIx (fun r => r.covers a) l.regions with
  | none => none
  | some i => (l.regions[i]?).map fun r => (i, r)

def Region.rd (r : Region) : Bool := r.rights % 2 == 1
def Region.wr (r : Region) : Bool := r.rights / 2 % 2 == 1
def Region.code (r : Region) : Bool := r.rights / 4 % 2 == 1

def Region.pageBits (r : Region) : Nat := if r.pgsz = 0 then 21 else 16

/-! ## The TLB and page walks (R352 to R354) -/

def Die.tlbFind (d : Die) (asid region page : Nat) : Option TlbEntry :=
  d.tlb.find? fun e => e.asid == asid && e.region == region && e.page == page

/-- An entry that is used becomes the most recent of its set (R353). -/
def Die.tlbTouch (d : Die) (asid region page : Nat) : Die :=
  match d.tlbFind asid region page with
  | none => d
  | some e => { d with tlb := e :: d.tlb.filter fun x => !(x.asid == asid && x.region == region && x.page == page) }

/-- Puts an entry first; the least recently used way of a full set goes. -/
def Die.tlbFill (d : Die) (e : TlbEntry) : Die :=
  let others := d.tlb.filter fun x => !(x.asid == e.asid && x.region == e.region && x.page == e.page)
  if others.length < 16 then { d with tlb := e :: others }
  else
    let set := fun (x : TlbEntry) => Config.tlbSet x.asid x.region x.page % 8192
    let same := fun (x : TlbEntry) => set x == set e
    if (others.filter same).length < 16 then { d with tlb := e :: others }
    else match findIx same others.reverse with
      | some i => { d with tlb := e :: (dropIx others.reverse i).reverse }
      | none => { d with tlb := e :: others }

/-- Asks for a walk unless one of the page has been asked for. The first 64 of a die's list are in flight, and the others
wait for them (R353). -/
def Die.startWalk (d : Die) (w : Walk) : Die :=
  if d.walks.any fun x => x.asid == w.asid && x.region == w.region && x.page == w.page then d
  else { d with walks := d.walks ++ [w] }

/-- What a page-table entry says of a page (R352, R353). -/
inductive PageEntry where
  | present (dpa : Nat) (ro : Bool)
  | bad
  | never
  | absent
  deriving DecidableEq, Repr

/-- The device address of a page's entry. -/
def pteAddr (r : Region) (page : Nat) : Nat := r.target + 8 * page

/-- Reads an entry at its home. -/
def readPte (s : State) (r : Region) (page : Nat) : PageEntry :=
  let a := pteAddr r page
  let e := BitVec.ofNat 64 (s.dram.nat a 8)
  let dpa := (e.extractLsb' 16 31).toNat * 65536
  let rsv := e.extractLsb' 47 14 != 0 || e.extractLsb' 0 16 != 0 || (r.pgsz == 0 && e.extractLsb' 16 5 != 0)
  if s.poisonedAt a || rsv || !s.installed dpa then .bad
  else if e.getLsbD 63 then .present dpa (e.getLsbD 62)
  else if e.getLsbD 61 then .never
  else .absent

end Sys2Proof.Machine
end

