-- ==== Sys2Proof/Machine/Atomic.lean ====
section
/-! DEFINITION. The operation of an atomic on one location (05 R195, R196): the same wherever it is performed, with the
arithmetic of RNE whatever MODE holds (03 R115). -/

namespace Sys2Proof.Machine

/-- The words of a register span as one number, low word first. -/
def natOfWords : List Word → Nat
  | [] => 0
  | w :: ws => w.toNat + 2 ^ 32 * natOfWords ws

/-- A number as n words, low word first. -/
def wordsOfNat : Nat → Nat → List Word
  | 0, _ => []
  | n + 1, x => BitVec.ofNat 32 x :: wordsOfNat n (x / 2 ^ 32)

/-- Format of a float atomic (Table 5.3). -/
def atomFmt (size : Nat) : FFmt := if size = 1 then .bf16 else .fp32

/-- The new pattern of a location: `old` and `x` are patterns of the operation's width, `swp` the swap value of `.cas`
(R196). -/
def atomicNew (aop size old x swp : Nat) : Nat :=
  let w := 8 * sizeBytes size
  match aop with
  | 0 => (old + x) % 2 ^ w
  | 1 => if size = 4 then wsAdd (old % 2 ^ 96) (x % 2 ^ 96) else fpAdd .std (atomFmt size) old x
  | 2 => if readInt true w x < readInt true w old then x else old
  | 3 => min old x
  | 4 => if readInt true w old < readInt true w x then x else old
  | 5 => max old x
  | 6 => old &&& x
  | 7 => old ||| x
  | 8 => old ^^^ x
  | 9 => x
  | 10 => if old = x then swp else old
  | 11 => if x ≤ old then 0 else (old + 1) % 2 ^ w
  | 12 => fpMinMax .std .fp32 false old x
  | _ => fpMinMax .std .fp32 true old x

/-- The operation on the bytes of a location: the old value as it returns and the new bytes; a WS96 location's bytes 12
to 15 are written as 0 (R195). -/
def atomicBytes (aop size : Nat) (old : List Byte) (data : List Word) : Nat × List Byte :=
  let n := sizeBytes size
  let w := if size = 4 then 96 else 8 * n
  let o := natOfBytes old % 2 ^ w
  let k := if size = 3 then 2 else 1
  let (x, swp) :=
    if aop = 10 then (natOfWords (data.take k), natOfWords ((data.drop k).take k))
    else (natOfWords data, 0)
  (o, bytesOfNat n (atomicNew aop size o (x % 2 ^ w) swp % 2 ^ w))

/-- Applies the operation at several places of a memory in order: the memory after it, and the old value of each. -/
def atomicMany (aop size : Nat) (m : Memory) : List (Nat × List Word) → Memory × List Nat
  | [] => (m, [])
  | (a, d) :: xs =>
    let (o, bs) := atomicBytes aop size (m.bytes a (sizeBytes size)) d
    let (m, os) := atomicMany aop size (m.put a bs) xs
    (m, o :: os)

end Sys2Proof.Machine
end

