-- ==== Sys2Proof/Machine/Quant.lean ====
section
/-! DEFINITION. Data typed by a format slot: elements, metadata entries, and the quantisation of a group
(03 R120 to R123). -/

namespace Sys2Proof.Machine

/-- Element width (Table 6.7). -/
def slotBits (slot : Word) : Nat :=
  match elemKind slot with
  | .flt f => f.bits
  | .int _ w => w
  | _ => 32

def slotZp (slot : Word) : Bool := slot.getLsbD 10

/-- Elements of a group (Table 1.11). -/
def slotGroup (slot : Word) : Nat := 32 * 2 ^ (slot.extractLsb' 8 2).toNat

/-- Bytes of a metadata entry (Table 3.6). -/
def metaSize (slot : Word) : Nat :=
  match slotScale slot, slotZp slot with
  | 0, _ => 0
  | 1, false => 2
  | 1, true => 4
  | 2, _ => 1
  | _, false => 4
  | _, true => 8

/-- Element i of an element plane that begins at byte a: 4-bit elements low half first (R120). -/
def elemAt (m : Memory) (a bits i : Nat) : Nat :=
  if bits = 4 then (m.get (a + i / 2)).toNat / 16 ^ (i % 2) % 16 else m.nat (a + i * (bits / 8)) (bits / 8)

/-- Puts element i. -/
def elemPut (m : Memory) (a bits i v : Nat) : Memory :=
  if bits = 4 then
    let b := (m.get (a + i / 2)).toNat
    m.set (a + i / 2) (BitVec.ofNat 8 (if i % 2 = 0 then b / 16 * 16 + v % 16 else b % 16 + v % 16 * 16))
  else m.putNat (a + i * (bits / 8)) (bits / 8) v

/-- A scale's pattern: E8M0 (R109), FP16 or FP32. -/
def scaleValue (code x : Nat) : Num :=
  match code with
  | 2 => if x = 255 then .nan else .fin false 1 ((x : Int) - 127)
  | 1 => dec .fp16 x
  | _ => dec .fp32 x

/-- A metadata entry read as scale and zero point; an entry without one gives 0 (R121, R234). -/
def readMeta (slot : Word) (x : Nat) : Latch :=
  let code := slotScale slot
  let at_ := if code = 3 then 32 else 16
  let zw := slotBits slot
  { scale := scaleValue code (if code = 2 then x % 256 else x % 2 ^ at_)
    zero := if slotZp slot then ((x / 2 ^ at_ % 2 ^ zw : Nat) : Int) else 0 }

/-- A latch that no write has reached: scale 1.0, zero point 0 (06 R221). -/
def Latch.one : Latch := { scale := .fin false 1 0, zero := 0 }

/-- The value of an element: `dec` in a slot without scale, `dq` else (R122). -/
def elemValue (slot : Word) (q : Nat) (k : Latch) : Num :=
  let raw : Num := match elemKind slot with
    | .flt f => dec f q
    | .int s w => Num.ofInt (readInt s w q - (if slotZp slot then k.zero else 0))
    | _ => .nan
  if slotScale slot = 0 then
    (match elemKind slot with | .flt f => dec f q | .int s w => Num.ofInt (readInt s w q) | _ => .nan)
  else if k.scale.isNan || k.scale.isInf then .nan
  else Num.mul k.scale raw

/-- The exact quotient of two finite numbers, as sign, numerator, denominator and exponent. -/
def numDiv (x s : Num) : Bool × Nat × Nat × Int :=
  match x, s with
  | .fin a m e, .fin b n f => (a != b, m, n, e - f)
  | _, _ => (false, 0, 1, 0)

/-- Rounding to the nearest of a format with saturation to its largest finite value (R123). -/
def rndSat (f : FFmt) (neg : Bool) (n d : Nat) (e : Int) : Nat :=
  if n = 0 then f.withSign neg 0
  else
    let p := rndQ f .rne false neg n d e
    match dec f p with
    | .fin _ _ _ => p
    | _ => f.withSign neg f.maxFinite

/-- A source value in a slot without scale: `rnd` with saturation (06 R256). -/
def rndSatNum (f : FFmt) : Num → Nat
  | .nan => if f = .e2m1 then 0 else f.canonicalNan
  | .inf s => f.withSign s f.maxFinite
  | .fin s m e => rndSat f s m 1 e

/-- A scale rounded to its format, kept off infinity and zero (R123). -/
def scaleSat (f : FFmt) (n d : Nat) (e : Int) : Nat :=
  let p := rndSat f false n d e
  if p = 0 then 1 else p

/-- floor(log₂ a) of a positive number. -/
def floorLog2 : Num → Int
  | .fin _ m e => leadExp m 1 e
  | _ => 0

/-- Exponent of an element format's largest binade (R123, E). -/
def elemTop : FFmt → Int
  | .e4m3 => 8
  | .e5m2 => 15
  | _ => 2

def numMax (xs : List Num) : Num := xs.foldl (fun a x => if a.lt x then x else a) (Num.zero false)
def numMin (xs : List Num) : Num := xs.foldl (fun a x => if x.lt a then x else a) (Num.zero false)

/-- What a group is written as: scale pattern, zero point, element patterns. -/
structure QGroup where
  scale : Nat
  zero : Nat
  elems : List Nat
  deriving DecidableEq, Repr

/-- An element of a group whose scale has been chosen. -/
def quantElem (slot : Word) (s : Num) (x : Num) : Nat :=
  let (neg, n, d, e) := numDiv x s
  match elemKind slot with
  | .flt f => rndSat f neg n d e
  | .int sg w => wrapInt (clampI (roundInt .rne neg n d e) (intMin sg w) (intMax sg w)) w
  | _ => 0

/-- The scale, zero point and elements of a group of source values (R123). -/
def quantGroup (slot : Word) (xs : List Num) : QGroup :=
  let code := slotScale slot
  let sf : FFmt := if code = 1 then .fp16 else .fp32
  if xs.any fun x => x.isNan || x.isInf then
    { scale := if code = 2 then 255 else sf.canonicalNan, zero := 0, elems := xs.map fun _ => 0 }
  else
    let one := if code = 1 then 0x3C00 else 0x3F800000
    let a := numMax (xs.map Num.abs)
    if code = 2 then
      if a.isZero then { scale := 127, zero := 0, elems := xs.map fun _ => 0 }
      else
        let f : FFmt := match elemKind slot with | .flt f => f | _ => .e4m3
        let c := (clampI (floorLog2 a - elemTop f + 127) 0 254).toNat
        { scale := c, zero := 0, elems := xs.map (quantElem slot (scaleValue 2 c)) }
    else if slotZp slot then
      let lo := numMin xs
      let hi := numMax xs
      let qu : Int := if slotBits slot = 8 then 255 else 15
      let (sp, z) : Nat × Int :=
        if Num.eqv hi lo then (one, 0)
        else
          let (_, n, d, e) := numDiv (Num.add false hi lo.neg) (Num.ofInt qu)
          let sp := scaleSat sf n d e
          let (neg, n, d, e) := numDiv lo.neg (dec sf sp)
          (sp, clampI (roundInt .rne neg n d e) 0 qu)
      let s := dec sf sp
      { scale := sp, zero := z.toNat
        elems := xs.map fun x =>
          let (neg, n, d, e) := numDiv x s
          (clampI (roundInt .rne neg n d e + z) 0 qu).toNat }
    else
      let q : Num := match elemKind slot with
        | .flt f => dec f f.maxFinite
        | .int _ w => Num.ofInt (if w = 8 then 127 else 7)
        | _ => Num.ofInt 1
      let sp := if a.isZero then one else (let (_, n, d, e) := numDiv a q; scaleSat sf n d e)
      { scale := sp, zero := 0, elems := xs.map (quantElem slot (dec sf sp)) }

/-- A group's metadata entry as a number of `metaSize` bytes (Table 3.6). -/
def metaOf (slot : Word) (g : QGroup) : Nat :=
  match slotScale slot, slotZp slot with
  | 1, true => g.scale + g.zero * 2 ^ 16
  | 3, true => g.scale + g.zero * 2 ^ 32
  | _, _ => g.scale

end Sys2Proof.Machine
end

