-- ==== Sys2Proof/Machine/Operands.lean ====
section
/-! DEFINITION. The operand forms of class V (04 R138 to R140): the sources of an instruction as patterns of its type's
width, lane by lane, and the writing of its result to vector registers or, in the scalar form, to one scalar register. -/

namespace Sys2Proof.Machine

/-- The sources of a class V instruction: A, B and C of each lane as n-bit patterns. -/
structure VSrc where
  type : Nat
  sd : Bool
  mod : Nat
  a : Nat → Nat
  b : Nat → Nat
  c : Nat → Nat

/-- A 64-bit integer type. -/
def wideType (t : Nat) : Bool := t == 3 || t == 7

def signedType (t : Nat) : Bool := t == 2 || t == 3

/-- Width of an integer, bit or FP32 operand. -/
def typeBits (t : Nat) : Nat := if wideType t then 64 else 32

/-- The pattern of a register source. -/
def srcPattern (s : State) (x : Issuer) (wide scalar : Bool) (n l : Nat) : Nat :=
  if wide then (val64 s x scalar n l).toNat else (val32 s x scalar n l).toNat

/-- IMM22 as its TYPE reads it (R75). -/
def immPattern (t : Nat) (imm : BitVec 22) : Nat :=
  if t = 3 then (imm.signExtend 64).toNat
  else if t = 0 ∨ t = 1 ∨ t = 2 then (imm.signExtend 32).toNat
  else if t = 9 then imm.toNat * 1024
  else imm.toNat

/-- The sources of layout R. -/
def srcR (s : State) (x : Issuer) (w : Base) (e : ExtR) : VSrc :=
  let wide := wideType e.type.toNat
  { type := e.type.toNat, sd := e.sd, mod := e.mod.toNat
    a := fun l => srcPattern s x wide e.sa w.a.toNat l
    b := fun l => srcPattern s x wide e.sb w.b.toNat l
    c := fun l => srcPattern s x wide e.sc e.c.toNat l }

/-- The sources of layout I: B is the immediate. -/
def srcI (s : State) (x : Issuer) (w : Base) (e : ExtI) : VSrc :=
  let wide := wideType e.type.toNat
  { type := e.type.toNat, sd := e.sd, mod := 0
    a := fun l => srcPattern s x wide e.sa w.a.toNat l
    b := fun _ => immPattern e.type.toNat e.imm
    c := fun _ => 0 }

def srcOf (s : State) (x : Issuer) (w : Base) : ExtRI → VSrc
  | .r e => srcR s x w e
  | .i e => srcI s x w e

/-- A 32-bit result in a scalar register: of signed type sign-extended, else zero-extended (R140). -/
def scalarOf (t v : Nat) : DWord :=
  if wideType t then BitVec.ofNat 64 v
  else if t = 2 then (BitVec.ofNat 32 v).signExtend 64
  else (BitVec.ofNat 32 v).setWidth 64

/-- Register writes of one lane: one register, or a pair low half first (R139). -/
def laneWrites (wide : Bool) (d l v : Nat) : List (Nat × Nat × Word) :=
  if wide then [(d, l, BitVec.ofNat 32 v), (d + 1, l, BitVec.ofNat 32 (v / 2 ^ 32))] else [(d, l, BitVec.ofNat 32 v)]

/-- Writes a result: f of each active lane, or in the scalar form f of the elected lane once (R139, R140). -/
def putResult (s : State) (x : Issuer) (m : LaneMask) (sd : Bool) (d t : Nat) (f : Nat → Nat) : State :=
  if sd then sset s x d (scalarOf t (f (elect m)))
  else vsets s x ((lanesOf m).flatMap fun l => laneWrites (wideType t) d l (f l))

/-- The float modes of the clause at hand (R115, 01 R21). -/
def fpMode (x : Issuer) : FpMode := FpMode.ofWord x.g.modeNow

/-- An instruction whose result in each lane is a function of its sources there. -/
def laneOp (s : State) (i : Instr) (w : Base) (e : ExtRI) (f : FpMode → VSrc → Nat → Nat) :
    Host.Outcome State Fault Refusal :=
  runInstr s i fun x m =>
    let v := srcOf s x w e
    .done (putResult s x m v.sd w.d.toNat v.type (f (fpMode x) v))

end Sys2Proof.Machine
end

