-- ==== Sys2Proof/Machine/Flags.lean ====
section
/-! DEFINITION. Predicate computations: the condition codes of compares (04 Table 4.2, R146, R147), the predicate table
of PLOP (R149) and the votes (R165). -/

namespace Sys2Proof.Machine

/-- ICMP's condition on two integers. -/
def icmpCond (cond : Nat) (a b : Int) : Bool :=
  match cond with
  | 0 => a == b
  | 1 => a != b
  | 2 => decide (a < b)
  | 3 => decide (a ≤ b)
  | 4 => decide (b < a)
  | 5 => decide (b ≤ a)
  | _ => false

/-- FCMP's condition on two values; with a NaN only `.ne` and `.uno` hold. -/
def fcmpCond (cond : Nat) (a b : Num) : Bool :=
  if a.isNan || b.isNan then cond == 1 || cond == 7
  else match cond with
    | 0 => a.eqv b
    | 1 => !a.eqv b
    | 2 => a.lt b
    | 3 => !b.lt a
    | 4 => b.lt a
    | 5 => !a.lt b
    | 6 => true
    | _ => false

/-- The float format of a compare's TYPE. -/
def cmpFmt (t : Nat) : FFmt := if t = 10 then .fp16 else if t = 11 then .bf16 else .fp32

/-- A compare of two patterns (R147); a 16-bit format takes bits 15:0. -/
def cmpResult (md : FpMode) (float : Bool) (t cond a b : Nat) : Bool :=
  if float then fcmpCond cond (din md (cmpFmt t) a) (din md (cmpFmt t) b)
  else icmpCond cond (readInt (signedType t) (typeBits t) a) (readInt (signedType t) (typeBits t) b)

/-- PLOP: the bit of the table that the two predicates select. -/
def plopBit (table : Nat) (a b : Bool) : Bool := table.testBit (2 * a.toNat + b.toNat)

/-- The votes: all, any, uniform. -/
def voteResult (mode : Nat) (m p : LaneMask) : Bool :=
  match mode with
  | 0 => m &&& p == m
  | 1 => m &&& p != 0#64
  | _ => m &&& p == m || m &&& p == 0#64

/-- A mask that holds everywhere or nowhere. -/
def allIf (b : Bool) : LaneMask := if b then BitVec.allOnes 64 else 0#64

end Sys2Proof.Machine
end

