-- ==== Sys2Proof/Machine/Lane.lean ====
section
/-! DEFINITION. Lane operations of class V (04 R162 to R167), and the global lane index and the block's indices in the
work hierarchy (01 R33, 03 R135). -/

namespace Sys2Proof.Machine

/-! ## The hierarchy -/

/-- The levels above the block that are not a domain level (R33). -/
def innerLevels (r : LaunchRec) : List Level := ((r.levels.take r.nlevels).drop 2).filter fun v => v.domain ≠ 6

/-- Blocks on this module (R33). -/
def blocksOnModule (r : LaunchRec) : Nat := (innerLevels r).foldl (fun n v => n * v.extent) 1

/-- Groups of a block: level 1's EXTENT (R32). -/
def groupsPerBlock (r : LaunchRec) : Nat := match r.levels[1]? with | some v => v.extent | none => 0

/-- The global lane index (R135). -/
def globalLane (r : LaunchRec) (block group width lane : Nat) : Nat :=
  ((r.domainIndex * blocksOnModule r + block) * groupsPerBlock r + group) * width + lane

/-! ## Lane operations -/

/-- The source lane of SHFL, or the lane itself (R162). -/
def shuffleLane (mode width : Nat) (exec : LaneMask) (b l : Nat) : Nat :=
  let k : Option Nat := match mode with
    | 0 => some b
    | 1 => if b ≤ l then some (l - b) else none
    | 2 => some (l + b)
    | _ => some (l ^^^ b)
  match k with
  | some j => if j < width ∧ exec.getLsbD j then j else l
  | none => l

/-- SHFL (R162). -/
def shuffle (s : State) (i : Instr) (w : Base) (e : ExtRI) : Host.Outcome State Fault Refusal :=
  runInstr s i fun x m =>
    let v := srcOf s x w e
    let (mode, b) : Nat × (Nat → Nat) := match e with
      | .r y => (y.mod.toNat % 4, fun l => v.b l % 256)
      | .i y => ((y.imm.extractLsb' 8 2).toNat, fun _ => (y.imm.extractLsb' 0 8).toNat)
    .done (putResult s x m false w.d.toNat 8 fun l => v.a (shuffleLane mode x.g.width x.run.exec (b l) l))

/-- BALLOT (R164). -/
def ballot (s : State) (i : Instr) (w : Base) (e : ExtR) : Host.Outcome State Fault Refusal :=
  runInstr s i fun x m =>
    let r := m &&& x.g.pred (w.a.extractLsb' 0 3).toNat
    let t := if x.g.wide then 7 else 8
    .done (putResult s x m (e.mod.getLsbD 5) w.d.toNat t fun _ => r.toNat)

/-- VOTE (R165). -/
def vote (s : State) (i : Instr) (w : Base) (e : ExtR) : Host.Outcome State Fault Refusal :=
  runInstr s i fun x m =>
    let r := voteResult (e.mod.toNat % 4) m (x.g.pred (w.a.extractLsb' 0 3).toNat)
    .done (s.mapGroup x.core x.slot fun g => g.setP (w.d.extractLsb' 0 3).toNat m (allIf r))

/-- A step of REDUX and SCAN (Table 4.5). -/
def combineStep (md : FpMode) (op t x y : Nat) : Nat :=
  let sg := signedType t
  match op with
  | 0 => (x + y) % 2 ^ 32
  | 1 => if readInt sg 32 x ≤ readInt sg 32 y then x else y
  | 2 => if readInt sg 32 x ≤ readInt sg 32 y then y else x
  | 3 => x &&& y
  | 4 => x ||| y
  | 5 => x ^^^ y
  | 6 => fpAdd md .fp32 x y
  | 7 => fpMinMax md .fp32 false x y
  | _ => fpMinMax md .fp32 true x y

/-- The exclusive identity (Table 4.5). -/
def combineIdentity (op t : Nat) : Nat :=
  let sg := signedType t
  match op with
  | 1 => wrapInt (intMax sg 32) 32
  | 2 => wrapInt (intMin sg 32) 32
  | 3 => 0xFFFFFFFF
  | 6 => 0x80000000
  | 7 => 0x7F800000
  | 8 => 0xFF800000
  | _ => 0

/-- The values of a list combined from its first. -/
def combineAll (md : FpMode) (op t : Nat) : List Nat → Nat
  | [] => combineIdentity op t
  | v :: vs => vs.foldl (combineStep md op t) v

/-- REDUX (R163). -/
def redux (s : State) (i : Instr) (w : Base) (e : ExtR) : Host.Outcome State Fault Refusal :=
  runInstr s i fun x m =>
    let v := srcR s x w e
    let r := combineAll (fpMode x) (e.mod.toNat % 16) v.type ((lanesOf m).map v.a)
    .done (putResult s x m (e.mod.getLsbD 5) w.d.toNat v.type fun _ => r)

/-- SCAN (R163): lanes at or below the lane, or below it under `.excl`. -/
def scan (s : State) (i : Instr) (w : Base) (e : ExtR) : Host.Outcome State Fault Refusal :=
  runInstr s i fun x m =>
    let v := srcR s x w e
    let excl := e.mod.getLsbD 4
    .done (putResult s x m false w.d.toNat v.type fun l =>
      combineAll (fpMode x) (e.mod.toNat % 16) v.type
        (((lanesOf m).filter fun j => if excl then decide (j < l) else decide (j ≤ l)).map v.a))

/-- BCAST (R166): a source lane outside the executing set becomes the elected lane. -/
def broadcast (s : State) (i : Instr) (w : Base) (e : ExtRI) : Host.Outcome State Fault Refusal :=
  runInstr s i fun x m =>
    let v := srcOf s x w e
    let k := match e with | .r _ => v.b (elect m) % 256 | .i y => y.imm.toNat
    let k := if k < x.g.width ∧ x.run.exec.getLsbD k then k else elect m
    let tos := match e with | .r y => y.mod.getLsbD 5 | .i _ => false
    .done (putResult s x m tos w.d.toNat 8 fun _ => v.a k)

/-- VRAND (R136, R167): the counter advances even when no lane is active. -/
def vrandInstr (s : State) (i : Instr) (w : Base) (_e : ExtR) : Host.Outcome State Fault Refusal :=
  runAlways s i fun x m =>
    let seed := x.g.sreg w.a.toNat
    let ctr := x.g.sreg w.b.toNat
    let s := vsets s x ((lanesOf m).map fun l =>
      (w.d.toNat, l, vrand seed (globalLane x.l.rec_ x.g.block x.g.index x.g.width l) ctr))
    .done (sset s x w.b.toNat (ctr + 1#64))

/-- SHFL (R162). Short form (R69). -/
def execShfl (w : Base) (s : State) : Host.Outcome State Fault Refusal :=
  shuffle s (.shfl w) w (.r (shortR 8))

/-- SHFL (R162). -/
def execShflLong (w : Base) (x : ExtRI) (s : State) : Host.Outcome State Fault Refusal :=
  shuffle s (.shflLong w x) w x

/-- BALLOT (R164). Short form (R69). -/
def execBallot (w : Base) (s : State) : Host.Outcome State Fault Refusal :=
  ballot s (.ballot w) w (shortR 8)

/-- BALLOT (R164). -/
def execBallotLong (w : Base) (x : ExtR) (s : State) : Host.Outcome State Fault Refusal :=
  ballot s (.ballotLong w x) w x

/-- VOTE (R165). Short form (R69). -/
def execVote (w : Base) (s : State) : Host.Outcome State Fault Refusal :=
  vote s (.vote w) w (shortR 0)

/-- VOTE (R165). -/
def execVoteLong (w : Base) (x : ExtR) (s : State) : Host.Outcome State Fault Refusal :=
  vote s (.voteLong w x) w x

/-- REDUX (R163). Short form (R69). -/
def execRedux (w : Base) (s : State) : Host.Outcome State Fault Refusal :=
  redux s (.redux w) w (shortR 8)

/-- REDUX (R163). -/
def execReduxLong (w : Base) (x : ExtR) (s : State) : Host.Outcome State Fault Refusal :=
  redux s (.reduxLong w x) w x

/-- SCAN (R163). Short form (R69). -/
def execScan (w : Base) (s : State) : Host.Outcome State Fault Refusal :=
  scan s (.scan w) w (shortR 8)

/-- SCAN (R163). -/
def execScanLong (w : Base) (x : ExtR) (s : State) : Host.Outcome State Fault Refusal :=
  scan s (.scanLong w x) w x

/-- BCAST (R166). Short form (R69). -/
def execBcast (w : Base) (s : State) : Host.Outcome State Fault Refusal :=
  broadcast s (.bcast w) w (.r (shortR 8))

/-- BCAST (R166). -/
def execBcastLong (w : Base) (x : ExtRI) (s : State) : Host.Outcome State Fault Refusal :=
  broadcast s (.bcastLong w x) w x

/-- VRAND (R167). -/
def execVrand (w : Base) (x : ExtR) (s : State) : Host.Outcome State Fault Refusal :=
  vrandInstr s (.vrand w x) w x

end Sys2Proof.Machine
end

