-- ==== Sys2Proof/Machine/Access.lean ====
section
/-! DEFINITION. The access instructions of class M (05 R176 to R197): forming and checking the location of each lane,
issuing the access, and performing its parts when their events come (R182 to R184, 08 R306 to R308). -/

namespace Sys2Proof.Machine

/-! ## Peers and host ports (11 R371, R372, R379) -/

def Link.works (l : Link) : Bool :=
  match l.state with
  | .up => true
  | .degraded => true
  | _ => false

/-- Device d cannot be reached: no entry in the route map, or no link of its set that works (R372); after a DOWN flit
no device can (R377). -/
def unreachable (s : State) (d : Nat) : Bool :=
  s.fabricDown || s.power == .standby
    || !(nth [] s.routeMap d).any fun n => match s.links[n]? with | some l => l.works | none => false

def registration? (s : State) (d w : Nat) : Option Registration :=
  s.registrations.find? fun r => r.device == d && r.window == w

/-- What a peer's window holds (DESIGN CHOICE, log 4). -/
def peerData (s : State) (d w : Nat) : Memory :=
  match s.peers.find? fun p => p.device == d && p.window == w with
  | some p => p.data
  | none => []

def setPeerData (s : State) (d w : Nat) (m : Memory) : State :=
  { s with peers := s.peers.map fun p => if p.device = d ∧ p.window = w then { p with data := m } else p }

def hostDown (s : State) : Bool := !s.port0.up && !s.port1.up

/-- A line of host memory comes into the host-port cache, or is used there again (08 Table 8.1). -/
def touchHost (s : State) (pa : Nat) : State :=
  { s with hostLines := (lineOf pa :: s.hostLines.filter (· ≠ lineOf pa)).take Config.hostCacheLines }

/-! ## Gangs (01 R58, 05 R186) -/

/-- Blocks in a gang: the extents of the levels of DOMAIN 2 and 3. -/
def gangSize (r : LaunchRec) : Nat :=
  (((r.levels.take r.nlevels).drop 2).takeWhile fun v => v.domain ≤ 3).foldl (fun n v => n * v.extent) 1

def gangOf (l : Launch) (block : Nat) : Nat := block / gangSize l.rec_

/-- The target block of a C-space selector: the block of rank q among those of the gang on core c of the cluster. -/
def targetBlock (s : State) (x : Issuer) (c q : Nat) : Option (Nat × Block) :=
  let core := x.core / 64 * 64 + c
  let bs := (s.core core).blocks.filter fun b => b.launch == x.g.launch && gangOf x.l b.index == gangOf x.l x.g.block
  (bs.find? fun b => (bs.filter fun d => d.index < b.index).length == q).map fun b => (core, b)

/-! ## Forming a location (R177, R178, R181) -/

/-- What becomes of one lane at issue. -/
inductive LaneForm where
  | ok (loc : DWord) (t : Target)
  | fault (c : Cause) (detail : Nat) (addr : DWord)
  | late (c : Cause) (detail : Nat) (addr : DWord)
  deriving DecidableEq, Repr

def isWrite : AccKind → Bool
  | .load => false
  | _ => true

def isRead : AccKind → Bool
  | .store => false
  | _ => true

/-- Offset of a layout M access: 12 bits in atomics, whose high bits are AOP (R177). -/
def accOffset (k : AccKind) (x : ExtM) : Int :=
  match k with
  | .load => x.off.toInt
  | .store => x.off.toInt
  | _ => (x.off.extractLsb' 0 12).toInt

def dwordOf (o : Int) : DWord := BitVec.ofInt 64 o

/-- A location in the spaces of one byte array: alignment, then bounds. -/
def boundLane (o : Int) (bytes limit : Nat) (t : Nat → Target) : LaneForm :=
  if o % (bytes : Int) ≠ 0 then .fault .addrAlign 0 (dwordOf o)
  else if o < 0 ∨ (limit : Int) < o + bytes then .fault .addrRegion 1 (dwordOf o)
  else .ok (dwordOf o) (t o.toNat)

/-- G and H space (R178, R181, 10 R351). -/
def globalLaneForm (l : Launch) (host : Bool) (k : AccKind) (bytes a : Nat) : LaneForm :=
  let d := BitVec.ofNat 64 a
  if a % bytes ≠ 0 then .fault .addrAlign 0 d
  else match regionOf l a with
    | none => .fault .addrRegion 1 d
    | some (i, r) =>
      if host then
        if r.kind ≠ 2 then .fault .addrRegion 1 d
        else if isRead k && !r.rd then .fault .accessRights 1 d
        else if isWrite k && !r.wr then .fault .accessRights 2 d
        else .ok d (.host (r.target + (a - r.vbase)))
      else if r.kind = 2 then .fault .accessRights 4 d
      else if isRead k && !r.rd then .fault .accessRights 1 d
      else if isWrite k && !r.wr then .fault .accessRights 2 d
      else if r.kind = 0 then .ok d (.dram (r.target + (a - r.vbase)))
      else .ok d (.walk i ((a - r.vbase) / 2 ^ r.pageBits) false)

/-- The location of one lane: base and index values, scale, offset and size (Table 5.2). -/
def formLane (s : State) (x : Issuer) (sp : Space) (k : AccKind) (bytes : Nat) (base : DWord) (idx off : Int) :
    LaneForm :=
  match sp with
  | .s =>
    boundLane (((lowWord base).toNat : Int) + idx + off) bytes x.b.spadSize fun o => .spad x.core (x.b.spadBase + o)
  | .c =>
    let b := (lowWord base).toNat
    let o := idx + off
    if o % (bytes : Int) ≠ 0 then .fault .addrAlign 0 (dwordOf o)
    else if b / 2048 ≠ 0 then .fault .addrRegion 1 (dwordOf o)
    else match targetBlock s x (b % 64) (b / 64 % 32) with
      | none => .fault .addrRegion 2 (dwordOf o)
      | some (core, t) => boundLane o bytes t.spadSize fun o => .spad core (t.spadBase + o)
  | .g => globalLaneForm x.l false k bytes (dwordOf ((base.toNat : Int) + idx + off)).toNat
  | .h =>
    let a := (dwordOf ((base.toNat : Int) + idx + off)).toNat
    match globalLaneForm x.l true k bytes a with
    | .ok d t => if hostDown s then .late .uncorrectable 3 d else .ok d t
    | f => f
  | .p =>
    let b := (lowWord base).toNat
    let o := idx + off
    let d := b % 256
    let w := b / 256 % 64
    if o % (bytes : Int) ≠ 0 then .fault .addrAlign 0 (dwordOf o)
    else if b / 16384 ≠ 0 then .fault .addrRegion 1 (dwordOf o)
    else match registration? s d w with
      | none => .fault .addrRegion 3 (dwordOf o)
      | some r =>
        let need := match k with | .load => 1 | .store => 2 | _ => 4
        if o < 0 ∨ (r.length : Int) < o + bytes then .fault .addrRegion 1 (dwordOf o)
        else if r.rights / need % 2 = 0 then .fault .accessRights 5 (dwordOf o)
        else if r.down || unreachable s d then .late .uncorrectable 3 (dwordOf o)
        else .ok (dwordOf o) (.peer d w o.toNat r.fallBack)

/-! ## Requests (R183, R184, R196) -/

/-- What the lanes of one request share: a 128-byte line in G, H and P and in atomics, an atomic's of the home, where one
service group performs it (09 R336); else the 4-byte word, or the words of
a wider location, whose requests a scratchpad merges and serves once (R185). -/
def partKey (sp : Space) (k : AccKind) (bytes : Nat) (l : LaneAcc) : Nat × Nat × Nat × Nat :=
  let per := match sp, k with
    | .s, .load => max 4 bytes | .s, .store => max 4 bytes | .c, .load => max 4 bytes | .c, .store => max 4 bytes
    | _, _ => 128
  match sp, l.target with
  | .g, .dram d => (0, 0, (match k with | .atom => d / 128 | .red => d / 128 | _ => 0), l.loc.toNat / 128)
  | .g, _ => (0, 0, 0, l.loc.toNat / 128)
  | _, .spad c a => (1, c, 0, a / per)
  | _, .peer d w o _ => (2, d, w, o / 128)
  | _, .host a => (3, 0, 0, a / 128)
  | _, _ => (4, 0, 0, l.loc.toNat / 128)

/-- Numbers the requests of an access in the order of their lowest lanes. -/
def numberParts (sp : Space) (k : AccKind) (bytes : Nat) (ls : List LaneAcc) : List LaneAcc :=
  let keys := (dedup (ls.reverse.map (partKey sp k bytes))).reverse
  ls.map fun l => { l with part := (findIx (fun q => q == partKey sp k bytes l) keys).getD 0 }

/-- Retention priority that a hint gives (R187, R303). -/
def hintPrio (hint : BitVec 2) : Nat := if hint = 2#2 then 0 else if hint = 3#2 then 2 else 1

/-! ## Lanes that fault at issue -/

/-- Parks lanes of a group at issue (R45): they leave the executing set of its run. In handler mode the launch is aborted
(10 R345). -/
def parkAtIssue (s : State) (core slot : Nat) (fs : List LateFault) : State :=
  match fs, s.group? core slot with
  | f :: _, some g =>
    if g.handler.isSome then abortLaunch s g.launch .trapInHandler (f.cause.code, core, f.addr.toNat)
    else
      let m := maskOf (fs.map fun f => f.lane)
      let s := s.mapGroup core slot fun g => fs.foldl (fun g f =>
        ({ g with lpc := setNth g.lpc f.lane f.site.hdrOff }).park f) g
      s.mapCore core fun c => c.mapSched (schedOf slot) fun k =>
        { k with run := k.run.map fun r => if r.slot = slot then { r with exec := r.exec &&& ~~~m } else r }
  | _, _ => s

def faultLanes (s : State) (x : Issuer) (fs : List LateFault) : State := parkAtIssue s x.core x.slot fs

/-- How an instruction that may have parked lanes ends: complete, or with its group gone. -/
def doneOrGone (s : State) (x : Issuer) : Act :=
  match s.group? x.core x.slot with
  | some g => if g.ended then .jump s else .done s
  | none => .jump s

/-! ## The operand log (10 R348) -/

def Group.logFull (g : Group) : Bool := g.oplog.all fun e => e.isSome

def Group.logPut (g : Group) (e : OplogEntry) : Group :=
  match findIx (fun (o : Option OplogEntry) => o.isNone) g.oplog with
  | some i => { g with oplog := setNth g.oplog i (some e) }
  | none => g

def LaneAcc.walking (l : LaneAcc) : Bool :=
  match l.target with
  | .walk _ _ _ => match l.progress with | .waiting => true | _ => false
  | _ => false

def LaneAcc.open_ (l : LaneAcc) : Bool :=
  match l.progress with
  | .done => false
  | .parked => false
  | _ => true

/-- An earlier access that the access is logged behind has not been performed (R355). -/
def Group.isBehind (g : Group) (a : Access) : Bool :=
  g.pend.any fun p => a.behind.contains p.id && match p.op with | .access e => e.lanes.any LaneAcc.open_ | _ => false

/-- The log holds an access: a lane of it awaits its page, or it waits behind an access that the log holds (R348, R355). -/
def Group.inLog (g : Group) (a : Access) : Bool :=
  a.lanes.any LaneAcc.walking || (a.lanes.any LaneAcc.open_ && g.isBehind a)

/-- Frees the entries of accesses that the log holds no longer. -/
def Group.logFree (g : Group) : Group :=
  { g with
    oplog := g.oplog.map fun e => match e with
      | none => none
      | some o => if g.pend.any (fun p => p.id == o.id && match p.op with | .access a => g.inLog a | _ => false)
                  then some o else none }

/-! ## Translation at issue (10 R353) -/

/-- The lanes of one request in a demand region: a `.stale` load or store whose span is valid in L1 takes the line's
address; else the TLB gives it, or a walk starts (R353), also while an earlier miss of the page is outstanding. A write to a
page marked RO parks as a late fault (10 R347). -/
def translateLanes (s : State) (core : Nat) (lc : Launch) (k : AccKind) (fresh : Bool) (bytes : Nat) (ls : List LaneAcc) :
    State × List LaneAcc × List Nat :=
  match ls with
  | [] => (s, [], [])
  | l :: _ =>
    match l.target with
    | .walk region page _ =>
      let va := l.loc.toNat
      let inL1 := match k with
        | .load => !fresh | .store => !fresh | _ => false
      let hit := if inL1 then (s.core core).l1Find lc.asid va else none
      let mask := spanMask bytes ls
      let byL1 := match hit with | some y => decide (y.valid &&& mask = mask) | none => false
      match hit, byL1 with
      | some y, true => (s, ls.map fun l => { l with target := .dram (y.dpa + l.loc.toNat % 128) }, [])
      | _, _ =>
        let d := dieOf core
        match (s.die d).tlbFind lc.asid region page, lc.regions[region]? with
        | some e, some r =>
          let s := s.mapDie d fun y => y.tlbTouch lc.asid region page
          if isWrite k && e.ro then (s, [], ls.map fun l => l.lane)
          else (s, ls.map fun l => { l with target := .dram (e.dpa + (l.loc.toNat - r.vbase) % 2 ^ r.pageBits) }, [])
        | _, _ =>
          (s.mapDie d fun y => y.startWalk { asid := lc.asid, launch := lc.id, region := region, page := page
                                             write := isWrite k }, ls, [])
    | _ => (s, ls, [])

/-- Translates every request of an access. -/
def translateParts (s : State) (core : Nat) (lc : Launch) (k : AccKind) (fresh : Bool) (bytes : Nat) (ls : List LaneAcc) :
    List Nat → State × List LaneAcc × List Nat
  | [] => (s, [], [])
  | p :: ps =>
    let (s, a, e) := translateLanes s core lc k fresh bytes (ls.filter fun l => l.part == p)
    let (s, b, f) := translateParts s core lc k fresh bytes ls ps
    (s, a ++ b, e ++ f)

/-! ## Issue (R182) -/

/-- The operand fields of an access instruction. -/
structure AccForm where
  sp : Space
  kind : AccKind
  w : Base
  x : ExtM

/-- Data registers of a lane, or of the scalar form. -/
def accData (s : State) (x : Issuer) (f : AccForm) (l : Nat) : List Word :=
  let atom := match f.kind with | .atom => true | .red => true | _ => false
  let size := f.x.size.toNat
  let aop := (f.x.off.extractLsb' 12 4).toNat
  let n := dataSpan atom size aop
  match f.kind with
  | .load => []
  | _ =>
    if f.x.sd then
      let v := x.g.sreg f.w.d.toNat
      let own := if size = 3 then [lowWord v, highWord v] else [lowWord v]
      if atom && aop == 10 then
        let u := x.g.sreg (f.w.d.toNat + 1)
        own ++ (if size = 3 then [lowWord u, highWord u] else [lowWord u])
      else own
    else (List.range n).map fun i => vget s x (f.w.d.toNat + i) l

/-- Base and index operands of a lane (R177). -/
def accBase (s : State) (x : Issuer) (f : AccForm) (l : Nat) : DWord :=
  if f.x.sa then x.g.sreg f.w.a.toNat
  else if spaceWide f.sp then pair (vget s x f.w.a.toNat l) (vget s x (f.w.a.toNat + 1) l)
  else (vget s x f.w.a.toNat l).setWidth 64

def accIndex (s : State) (x : Issuer) (f : AccForm) (l : Nat) : Word := if f.w.b = 0 then 0#32 else vget s x f.w.b.toNat l

/-- Each lane of an access with its form. -/
def accLanes (s : State) (x : Issuer) (f : AccForm) (m : LaneMask) : List (LaneAcc × LaneForm) :=
  let bytes := sizeBytes f.x.size.toNat
  let ls := if f.x.sd then [elect m] else lanesOf m
  ls.map fun l =>
    let base := accBase s x f l
    let ix := accIndex s x f l
    let form := formLane s x f.sp f.kind bytes base (ix.toInt * 2 ^ f.x.xs.toNat) (accOffset f.kind f.x)
    let (loc, t) := match form with
      | .ok d t => (d, t)
      | .fault _ _ d => (d, .host 0)
      | .late _ _ d => (d, .host 0)
    ({ lane := l, loc := loc, a := base, b := ix.setWidth 64, data := accData s x f l, target := t, part := 0
       progress := .waiting }, form)

def lateOf (site : Site) (l : LaneAcc) (c : Cause) (detail : Nat) : LateFault :=
  { lane := l.lane, cause := c, detail := detail, addr := l.loc, site := site, a := l.a, b := l.b, data := l.data }

/-- Lanes that fault at issue, lanes that fault late, lanes whose access is made. -/
def splitLanes (site : Site) (ls : List (LaneAcc × LaneForm)) : List LateFault × List LateFault × List LaneAcc :=
  (ls.filterMap fun p => match p.2 with | .fault c d _ => some (lateOf site p.1 c d) | _ => none,
   ls.filterMap fun p => match p.2 with | .late c d _ => some (lateOf site p.1 c d) | _ => none,
   ls.filterMap fun p => match p.2 with | .ok _ _ => some p.1 | _ => none)

/-- A lane's location lies in a demand region, whether the lane faults there or not (R348). -/
def inDemand (lc : Launch) (loc : DWord) : Bool :=
  match regionOf lc loc.toNat with
  | some (_, r) => r.kind == 1
  | none => false

def Access.isHomeAtom (a : Access) : Bool :=
  match a.space, a.kind with
  | .g, .atom => true
  | .g, .red => true
  | _, _ => false

/-- The words of a line that the lanes of an atomic touch. -/
def atomWords (asid bytes : Nat) (ls : List LaneAcc) (y : L1Line) : BitVec 32 :=
  let q := ls.filter fun l => y.asid == asid && y.va == lineOf l.loc.toNat
  if q.isEmpty then 0#32 else spanMask bytes q

/-- The spans of an atomic leave the issuing core's L1 (R197, 08 R303), their dirty bytes first going home: none while their
write-back is not acknowledged; with true, they have gone. -/
def flushAtom (s : State) (core asid bytes : Nat) (ls : List LaneAcc) : Option (State × Bool) :=
  match flushBytes s core fun y => wordBytes (atomWords asid bytes ls y) with
  | some (t, true) => some (t.mapCore core fun c => c.l1Drop (atomWords asid bytes ls), true)
  | r => r

/-- Region and page of a location in a demand region. -/
def demandPage (lc : Launch) (loc : DWord) : Option (Nat × Nat) :=
  match regionOf lc loc.toNat with
  | some (i, r) => if r.kind = 1 then some (i, (loc.toNat - r.vbase) / 2 ^ r.pageBits) else none
  | none => none

/-- Earlier accesses of the group that the log holds on a page that lanes of this one touch (R355): by lanes that await it,
or, behind another access, by any lane that is open. -/
def Group.heldOn (g : Group) (lc : Launch) (ls : List LaneAcc) : List Nat :=
  let pages := ls.filterMap fun l => demandPage lc l.loc
  g.pend.filterMap fun p => match p.op with
    | .access e =>
      if e.logged && e.lanes.any fun u => (u.walking || (u.open_ && g.isBehind e))
        && (demandPage lc u.loc).any fun q => pages.contains q then some p.id else none
    | _ => none

/-- A G-space atomic that has issued holds its group at the instruction until its requests have come into the queues of their
service groups (09 R336). -/
def holdAtomic (s : State) (core slot id : Nat) (a : Access) : State :=
  if a.isHomeAtom then s.mapGroup core slot fun g => { g with wait := .service id } else s

/-- An access goes on from its issue: its lanes translate, it takes its entry of the operand log, and what does not park
stays pending (R181, R182, 10 R348). -/
def admitAccess (s : State) (core slot : Nat) (lc : Launch) (a : Access) (now late : List LateFault) : State :=
  let behind := match s.group? core slot with | some g => if a.logged then g.heldOn lc a.lanes else [] | none => []
  let (s, ok, ro) := translateParts s core lc a.kind a.fresh (sizeBytes a.size) a.lanes (dedup (a.lanes.map fun l => l.part))
  let roFaults := (a.lanes.filter fun l => ro.contains l.lane).map fun l => lateOf a.site l .accessRights 3
  let s := if a.space == .p then s.mapLaunch lc.id fun l => { l with fabric := true } else s
  let id := (s.core core).nextId
  let vals := (a.lanes.map fun l => (l.lane, l.a, l.b, l.data)) ++ (now ++ late).map fun f => (f.lane, f.a, f.b, f.data)
  let s := if ok.isEmpty then s else
    holdAtomic ((s.mapGroup core slot fun g =>
      let g := g.addPend id (.access { a with behind := behind, lanes := ok })
      (if a.logged then g.logPut { id := id, site := a.site, lanes := vals } else g).logFree).mapCore core Core.tick) core slot id a
  let s := (late ++ roFaults).foldl (fun s f => lateFault s core slot id f) s
  parkAtIssue s core slot now

/-- Issues an access: forms and checks its lanes, and admits it. One with a lane in a demand region waits for an entry of the
operand log when the group's 16 are held (R348, 02 R66). -/
def issueAccess (s : State) (x : Issuer) (i : Instr) (f : AccForm) (m : LaneMask) : Act :=
  let bytes := sizeBytes f.x.size.toNat
  let site := siteOf x i
  let ls := accLanes s x f m
  let (now, late, ok) := splitLanes site ls
  let a : Access :=
    { site := site, kind := f.kind, space := f.sp, size := f.x.size.toNat, fresh := f.x.fr, hint := f.x.hint
      aop := f.x.off.extractLsb' 12 4, dReg := f.w.d.toNat, scalar := f.x.sd, win := x.g.winmap
      logged := f.sp == .g && ls.any fun p => inDemand x.l p.1.loc
      behind := [], lanes := numberParts f.sp f.kind bytes ok }
  if a.logged && x.g.logFull then
    .wait (s.mapGroup x.core x.slot fun g => { g with wait := .oplog a now late })
  else match (if a.isHomeAtom then flushAtom s x.core x.l.asid bytes a.lanes else some (s, true)) with
    | none => .stall
    | some (t, false) => .held t
    | some (t, true) => doneOrGone (admitAccess t x.core x.slot x.l a now late) x

/-- An access that waited for an entry of the operand log issues when one is free (10 R348): the group is no longer
held. -/
def admitWaiting (s : State) (core slot : Nat) : State :=
  match s.group? core slot with
  | none => s
  | some g =>
    match g.wait, s.launch? g.launch with
    | .oplog a now late, some lc =>
      if g.logFull || g.stopped then s
      else match (if a.isHomeAtom then flushAtom s core lc.asid (sizeBytes a.size) a.lanes else some (s, true)) with
        | none => s
        | some (t, false) => t
        | some (t, true) => admitAccess (t.mapGroup core slot fun g => { g with wait := .none }) core slot lc a now late
    | _, _ => s

def access (s : State) (i : Instr) (sp : Space) (kind : AccKind) (w : Base) (e : ExtM) : Host.Outcome State Fault Refusal :=
  runInstr s i fun x m => issueAccess s x i { sp := sp, kind := kind, w := w, x := e } m

/-! ## When a part of an access may be performed (08 Table 8.2, 05 R182, R183) -/

/-- Two byte ranges of one space meet. -/
def targetsMeet (t : Target) (n : Nat) (u : Target) (k : Nat) : Bool :=
  match t, u with
  | .spad c a, .spad d b => c == d && decide (a < b + k) && decide (b < a + n)
  | .dram a, .dram b => decide (a < b + k) && decide (b < a + n)
  | .host a, .host b => decide (a < b + k) && decide (b < a + n)
  | .peer c v a _, .peer d w b _ => c == d && v == w && decide (a < b + k) && decide (b < a + n)
  | _, _ => false

/-- An earlier lane that is not performed holds a later one up: they meet, or in a window in fall-back mode they share the
window (08 R318). -/
def laneBlocks (e : Access) (p : LaneAcc) (a : Access) (q : LaneAcc) : Bool :=
  p.open_ && (targetsMeet p.target (sizeBytes e.size) q.target (sizeBytes a.size)
    || (match p.target, q.target with
        | .peer c v _ f, .peer d w _ h => (f || h) && c == d && v == w
        | _, _ => false))

def isHomeWrite (a : Access) : Bool :=
  match a.space, a.kind with
  | .g, .store => a.fresh
  | .g, .atom => true
  | .g, .red => true
  | _, _ => false

def isStore : AccKind → Bool
  | .store => true | _ => false

/-- An earlier access holds a later one up whatever their addresses. -/
def accessBlocks (die : Nat) (e a : Access) : Bool :=
  let any := e.lanes.any LaneAcc.open_
  (e.space == .h && a.space == .h && any)
    || (isStore e.kind && isStore a.kind && e.space == a.space && any)
    || (isHomeWrite e && isHomeWrite a && e.lanes.any fun p =>
        match p.progress, p.target with
        | .done, _ => false
        | .parked, _ => false
        | .sent, .dram d => homeDie d != die
        | .sent, _ => false
        | _, _ => true)
    || (e.space == .g && a.space == .g && e.kind == .load && a.kind == .load && e.fresh && a.fresh && any)

/-- An LSEND put of the group that precedes a PUT to the same window and has not been sent (Table 8.2). -/
def lsendBefore (c : Core) (slot id d w : Nat) : Bool :=
  c.link.cmds.any fun k => k.op == .lsend && k.slot == slot && decide (k.mark < id) && !k.finished
    && (lowWord k.vd).toNat % 256 == d && (lowWord k.vd).toNat / 256 % 64 == w

/-- Two PATOMs of a group toward one service group of a peer keep their order (05 R197). -/
def sameService (p q : LaneAcc) : Bool :=
  match p.target, q.target with
  | .peer c v a _, .peer d w b _ => c == d && Config.peerService c v (a / 128) == Config.peerService d w (b / 128)
  | _, _ => false

def isAtom : AccKind → Bool
  | .atom => true | .red => true | _ => false

/-- A put of the group that has not landed holds up a later access to its bytes, or in fall-back mode to its window (05 R183,
08 R318). -/
def putHolds (s : State) (core slot id : Nat) (a : Access) (ls : List LaneAcc) : Bool :=
  a.space == .p && s.puts.any fun p => p.out && !p.landed
    && (match p.ref with | .part c t i _ => c == core && t == slot && decide (i < id) | _ => false)
    && ls.any fun l => match l.target with
      | .peer d w o f =>
        p.device == d && p.window == w && (f || (!isStore a.kind && p.cells.any fun c => decide (o ≤ c.1 ∧ c.1 < o + sizeBytes a.size)))
      | _ => false

/-- The part's lanes may be performed now: no earlier access of the group holds them up. -/
def partFree (s : State) (core slot id : Nat) (g : Group) (a : Access) (ls : List LaneAcc) : Bool :=
  (g.pend.all fun p =>
    if p.id < id then
      match p.op with
      | .access e =>
        !(a.behind.contains p.id && e.lanes.any LaneAcc.open_) && !(accessBlocks (dieOf core) e a)
          && !(e.lanes.any fun u => ls.any fun v => laneBlocks e u a v
                || (isAtom e.kind && isAtom a.kind && u.open_ && sameService u v))
      | _ => true
    else true) && !putHolds s core slot id a ls

/-- Requests of an atomic are on their way to the queues of their service groups, or held before a full one: those that await
a page, or an earlier access of the group, hold the group up no longer (09 R336; DEDUCED, log 74). -/
def Group.svcWaits (g : Group) (s : State) (core slot id : Nat) : Bool :=
  match g.pend? id with
  | some (.access a) =>
    let leaves := fun (l : LaneAcc) => l.progress == .waiting && !l.walking
      && partFree s core slot id g a (a.lanes.filter fun m => m.part == l.part && m.progress == .waiting)
    a.lanes.any (fun l => l.progress == .held || leaves l)
      || (s.die (dieOf core)).out.any fun m => match m.kind with
        | .atom c t i _ => c == core && t == slot && i == id
        | _ => false
  | _ => false

/-! ## Progress of a part -/

/-- Sets the progress of the lanes of a part, and ends the access when none is left. -/
def Group.setPart (g : Group) (id part : Nat) (f : LaneAcc → LaneAcc) : Group :=
  match g.pend? id with
  | some (.access a) =>
    let a := { a with lanes := a.lanes.map fun l => if l.part = part ∧ l.open_ then f l else l }
    let g := if a.lanes.any LaneAcc.open_ then g.setPend id (.access a) else g.dropPend id
    g.logFree
  | _ => g

def finishPart (s : State) (core slot id part : Nat) : State :=
  s.mapGroup core slot fun g => g.setPart id part fun l => { l with progress := .done }

/-- Parks the lanes of a part as late faults (10 R347). -/
def parkPart (s : State) (core slot id part : Nat) (site : Site) (ls : List LaneAcc) (c : Cause) (detail : Nat) : State :=
  let s := s.mapGroup core slot fun g => g.setPart id part fun l =>
    if ls.any fun x => x.lane == l.lane then { l with progress := .parked } else l
  ls.foldl (fun s l => lateFault s core slot id (lateOf site l c detail)) s

/-- Lands values in the destination of an access: zero-extended in a scalar register or in one 32-bit register, else in
two or more registers (R179, R180, R195). -/
def landLanes (s : State) (core slot : Nat) (a : Access) (vs : List (Nat × Nat)) : State :=
  match s.group? core slot with
  | none => s
  | some g =>
    if a.scalar then s.mapGroup core slot fun g => vs.foldl (fun g v => g.setS a.dReg (BitVec.ofNat 64 v.2)) g
    else
      let n := match a.kind with | .load => dataSpan false a.size 0 | _ => oldSpan a.size
      s.mapCore core fun c => vs.foldl (fun c v =>
        (List.range n).foldl (fun c j => c.vWrite a.win g.wide (a.dReg + j) v.1 (BitVec.ofNat 32 (v.2 / 2 ^ (32 * j)))) c) c

/-- The bytes that a lane stores. -/
def storeBytes (a : Access) (l : LaneAcc) : List Byte := bytesOfNat (sizeBytes a.size) (natOfWords l.data)

/-- The store's bytes of several lanes at positions that `at_` gives: the highest lane wins (R183). -/
def storeCells (a : Access) (ls : List LaneAcc) (at_ : LaneAcc → Nat) : List (Nat × Byte) :=
  (ls.flatMap fun l => (storeBytes a l).mapIdx fun i b => (at_ l + i, b)).foldl
    (fun cs c => (cs.filter fun d => d.1 ≠ c.1) ++ [c]) []

def dramOf (l : LaneAcc) : Nat := match l.target with | .dram d => d | _ => 0
def spadOf (l : LaneAcc) : Nat × Nat := match l.target with | .spad c a => (c, a) | _ => (0, 0)
def hostOf (l : LaneAcc) : Nat := match l.target with | .host a => a | _ => 0
def peerOf (l : LaneAcc) : Nat × Nat × Nat := match l.target with | .peer d w o _ => (d, w, o) | _ => (0, 0, 0)

/-- The access issued when the window was in fall-back mode (11 R375). -/
def fellBack (l : LaneAcc) : Bool := match l.target with | .peer _ _ _ f => f | _ => false

/-- The values of a load from a memory. -/
def loadValues (a : Access) (ls : List LaneAcc) (m : Memory) (at_ : LaneAcc → Nat) : List (Nat × Nat) :=
  ls.map fun l => (l.lane, m.nat (at_ l) (sizeBytes a.size))

/-! ## Performing one part -/

/-- The home lines of a request of an access in G space, each with the words of it in the request's span (R184): two where a
region's TARGET is no multiple of 128 (10 R351). -/
def homeSpans (bytes : Nat) : List LaneAcc → List (Nat × BitVec 32)
  | [] => []
  | l :: ls =>
    let first := dramOf l - l.loc.toNat % 128
    lineSpans (first + (spanOf bytes (l :: ls)).1) (first + (spanOf bytes (l :: ls)).2)

/-- A home line of a lane's location is poisoned (10 R366). -/
def State.lanePoisoned (s : State) (bytes : Nat) (l : LaneAcc) : Bool :=
  s.poisonedAt (dramOf l) || s.poisonedAt (dramOf l + bytes - 1)

/-- Bytes of a request's span, in its line of a core's L1. -/
def ownSpan (asid bytes : Nat) (ls : List LaneAcc) (y : L1Line) : BitVec 128 :=
  if ls.any fun l => y.asid == asid && y.va == lineOf l.loc.toNat then wordBytes (spanMask bytes ls) else 0#128

/-- A load from G space: `.fresh` reads the home, `.stale` the L1 after filling it (R187, 08 R308). Bytes that the core's own
L1 holds dirty go home before a `.fresh` load of them, which finds what the group has stored (08 R309, R313; DEDUCED,
log 91); the L1 keeps them. -/
def loadGlobal (s : State) (core slot id part : Nat) (g : Group) (a : Access) (ls : List LaneAcc) : Option State :=
  match ls with
  | [] => none
  | l :: _ =>
    let bytes := sizeBytes a.size
    let bad := ls.filter (s.lanePoisoned bytes)
    let finish := fun (s : State) (m : Memory) (at_ : LaneAcc → Nat) =>
      finishPart (landLanes s core slot a (loadValues a ls m at_)) core slot id part
    match s.launch? g.launch with
    | none => none
    | some lc =>
      if a.fresh then
        match flushBytes s core (ownSpan lc.asid bytes ls) with
        | none => none
        | some (t, false) => some t
        | some (_, true) =>
          if !bad.isEmpty then some (parkPart s core slot id part a.site bad .uncorrectable 2)
          else
            let s := (homeSpans bytes ls).foldl (fun s p => touchL2 s p.1 false) s
            some (finish s s.dram dramOf)
      else
        match fillL1 s core lc.asid l.loc.toNat (dramOf l) (spanMask bytes ls) 0#32 (hintPrio a.hint) (a.hint == 1#2) with
        | .blocked => none
        | .held s => some s
        | .poisoned => some (parkPart s core slot id part a.site bad .uncorrectable 2)
        | .ready s =>
          match (s.core core).l1Find lc.asid l.loc.toNat with
          | none => none
          | some y => some (finish s y.data fun l => l.loc.toNat % 128)

/-- A `.fresh` store updates the copy in its core's L1: as it is performed at a home on the core's die, and otherwise as its
acknowledgement arrives, when the die's RDC holds no older copy (R188, 08 R304, DEDUCED, log 16). -/
def freshCopy (s : State) (core asid : Nat) (a : Access) (ls : List LaneAcc) : State :=
  match ls with
  | [] => s
  | l :: _ =>
    let cells := storeCells a ls fun l => l.loc.toNat % 128
    s.mapCore core fun c =>
      if homeDie (dramOf l) = dieOf core then c.l1Update asid l.loc.toNat cells else c.l1Refresh asid l.loc.toNat cells

/-- Earlier `.stale` stores to the bytes of a `.fresh` one go home before it where the home lies on the other die
(R183). -/
def sendOlder (s : State) (core asid : Nat) (l : LaneAcc) (cells : List (Nat × Byte)) : State :=
  if homeDie (dramOf l) = dieOf core then s
  else writeBackBytes s core fun y =>
    if y.asid == asid && y.va == lineOf l.loc.toNat then cells.foldl (fun m c => m ||| (1#128 <<< c.1)) 0#128 else 0#128

/-- Words of a line all of whose bytes a store writes. -/
def wholeWords (cells : List (Nat × Byte)) : BitVec 32 :=
  (List.range 32).foldl (fun m w =>
    if (List.range 4).all fun i => cells.any fun c => c.1 == 4 * w + i then m ||| (1#32 <<< w) else m) 0#32

/-- A store to G space: `.fresh` to the home, `.stale` into L1 (R188). -/
def storeGlobal (s : State) (core slot id part : Nat) (g : Group) (a : Access) (ls : List LaneAcc) : Option State :=
  match ls, s.launch? g.launch with
  | l :: _, some lc =>
    let inLine := storeCells a ls fun l => l.loc.toNat % 128
    let bytes := sizeBytes a.size
    if a.fresh then
      let s := s.mapGroup core slot fun g => g.setPart id part fun l => { l with progress := .sent }
      let s := if homeDie (dramOf l) = dieOf core then freshCopy s core lc.asid a ls else sendOlder s core lc.asid l inLine
      let cells := storeCells a ls dramOf
      some (writeHomes s (dieOf core) (.part core slot id part)
        ((homeSpans bytes ls).map fun p => (cells.filter fun c => lineOf c.1 == p.1, p.2)))
    else
      match fillL1 s core lc.asid l.loc.toNat (dramOf l) (spanMask bytes ls) (wholeWords inLine) (hintPrio a.hint) false with
      | .blocked => none
      | .held s => some s
      | .poisoned => some (parkPart s core slot id part a.site (ls.filter (s.lanePoisoned bytes)) .uncorrectable 2)
      | .ready s =>
        some (finishPart (s.mapCore core fun c => c.l1Store lc.asid l.loc.toNat inLine) core slot id part)
  | _, _ => none

/-- Performs an atomic request at the home of its line, and sends what R304 asks: the old values wait in the lanes. A lane
whose location goes on into the next home line is performed whole with the line of its first byte (10 R351; DESIGN CHOICE,
log 92). -/
def atomicAtHome (s : State) (core slot id part : Nat) (a : Access) (ls : List LaneAcc) : State :=
  let bytes := sizeBytes a.size
  let bad := ls.filter (s.lanePoisoned bytes)
  let ls := ls.filter fun l => !s.lanePoisoned bytes l
  let s := if bad.isEmpty then s else parkPart s core slot id part a.site bad .uncorrectable 2
  if ls.isEmpty then s
  else
    let (m, olds) := atomicMany a.aop.toNat a.size s.dram (ls.map fun l => (dramOf l, l.data))
    let spans := homeSpans bytes ls
    let s := spans.foldl (fun s p => touchL2 s p.1 true) { s with dram := m }
    let old := fun (lane : Nat) => match findIx (fun (q : LaneAcc) => q.lane == lane) ls with
      | some i => nth 0 olds i
      | none => 0
    let s := s.mapGroup core slot fun g => g.setPart id part fun l =>
      { l with progress := .sent, data := wordsOfNat (oldSpan a.size) (old l.lane) }
    afterSpans s (dieOf core) (.part core slot id part) spans

/-- The send counter of a window, if one is bound on the core, rises by n (R193, R261). -/
def sendDone (s : State) (core device window n : Nat) : State :=
  match s.bindings.find? fun y => y.device == some device && y.window == window && y.core == core with
  | some y => s.mapCore core fun c => c.addCounter y.ctr (BitVec.ofNat 64 n)
  | none => s

/-- A put of `id` to a window whose last lanes have parked counts the lanes that went: by its last message, or at once
when every acknowledgement has returned (R193). -/
def closePut (s : State) (core slot id d w : Nat) (a : Access) : State :=
  let mine := a.lanes.filter fun l => (peerOf l).1 == d && (peerOf l).2.1 == w
  let n := (mine.filter fun l => l.progress == .done).length
  let ours := fun (p : PutMsg) => p.out && p.device == d && p.window == w
    && (match p.ref with | .part c t i _ => c == core && t == slot && i == id | _ => false)
  if n = 0 ∨ mine.any LaneAcc.open_ then s
  else match findIx ours s.puts.reverse with
    | some k =>
      let i := s.puts.length - 1 - k
      { s with puts := s.puts.mapIdx fun j p => if j = i then { p with n := n, final := true } else p }
    | none => sendDone s core d w n

/-- A request of an atomic reaches its service group: it enters the queue, or is held before it while the queue is full
(R197, 09 R336). -/
def arriveService (s : State) (core slot id part : Nat) (dpa : Nat) : State :=
  let p := if svcRoom s dpa then .queued else .held
  (enqueue s dpa (.part core slot id part)).mapGroup core slot fun g => g.setPart id part fun l => { l with progress := p }

/-- A request of an atomic sets out: its spans leave the core's L1 first, what the group has stored there since the issue
included (R183, R197); then it crosses the bridge, or reaches its service group. -/
def sendAtomic (s : State) (core slot id part : Nat) (g : Group) (a : Access) (ls : List LaneAcc) : Option State :=
  match ls, s.launch? g.launch with
  | l :: _, some lc =>
    (match flushAtom s core lc.asid (sizeBytes a.size) ls with
     | none => none
     | some (t, false) => some t
     | some (t, true) =>
       if homeDie (dramOf l) = dieOf core then some (arriveService t core slot id part (dramOf l))
       else
         let t := t.mapGroup core slot fun g => g.setPart id part fun l => { l with progress := .sent }
         some (sendMsg t (dieOf core) (.atom core slot id part)))
  | _, _ => none

/-- A request of an atomic that has reached the home is performed as the oldest of its service group. -/
def serveAtomic (s : State) (core slot id part : Nat) (a : Access) (ls : List LaneAcc) : Option State :=
  match ls with
  | [] => none
  | l :: _ =>
    let r : SvcRef := .part core slot id part
    match l.progress with
    | .queued =>
      if atFront s (dramOf l) r then some (atomicAtHome (dequeue s (dramOf l) r) core slot id part a ls) else none
    | _ => none

/-- An HLD or HST at the host port (R191). -/
def performHost (s : State) (core slot id part : Nat) (a : Access) (ls : List LaneAcc) : State :=
  if hostDown s then parkPart s core slot id part a.site ls .uncorrectable 3
  else
    let s := match ls with | [] => s | l :: _ => touchHost s (hostOf l)
    match a.kind with
    | .load => finishPart (landLanes s core slot a (loadValues a ls s.hostMem hostOf)) core slot id part
    | _ => finishPart { s with hostMem := s.hostMem.putCells (storeCells a ls hostOf) } core slot id part

/-- A PLD: on the main path a `.stale` one goes by way of the die's RDC (R192). -/
def peerLoad (s : State) (core slot id part : Nat) (a : Access) (l : LaneAcc) (ls : List LaneAcc) : State :=
  let (d, w, o) := peerOf l
  let data := peerData s d w
  if a.fresh || fellBack l then
    finishPart (landLanes s core slot a (loadValues a ls data fun l => (peerOf l).2.2)) core slot id part
  else
    let (s, m) := viaRdc s (dieOf core) (.peer d w (o / 128)) (spanMask (sizeBytes a.size) ls) (data.bytes (o / 128 * 128) 128)
    finishPart (landLanes s core slot a (loadValues a ls m fun l => (peerOf l).2.2 % 128)) core slot id part

/-- The link on which a stream of a core toward a target of a device travels: a fixed one of the device's set, or of those
of the set that work while it does not (11 R371). -/
def streamLink (s : State) (core device target : Nat) : Nat :=
  let works := fun (n : Nat) => match s.links[n]? with | some l => l.works | none => false
  let set := nth [] s.routeMap device
  let code := Config.streamCode core device target
  let first := nth 0 set (code % set.length)
  if works first then first
  else
    let left := set.filter works
    nth 0 left (code % left.length)

/-- The link of a row or return to a core of a device; none within the module (11 R371). -/
def rowLink (s : State) (core device dst : Nat) : Option Nat :=
  if device = s.device.toNat then none else some (streamLink s core device (64 + dst))

/-- A put of the stream is under way on another link (11 R371). -/
def streamMoves (s : State) (core device window link : Nat) : Bool :=
  s.puts.any fun p => p.out && !p.landed && p.core == core && p.device == device && p.window == window && p.link != link

/-- A put sets out. -/
def sendPut (s : State) (p : PutMsg) : State := { s with puts := s.puts ++ [{ p with id := s.putSeq }], putSeq := s.putSeq + 1 }

/-- A PUT: after the group's earlier requests and LSEND puts to the window (R193). Lanes of one PUT that name different
windows are counted by window (R193 speaks of one window; DEDUCED, log 81). -/
def peerPut (s : State) (core slot id part : Nat) (a : Access) (l : LaneAcc) (ls : List LaneAcc) : Option State :=
  let (d, w, _) := peerOf l
  let link := streamLink s core d w
  let earlier := a.lanes.any fun q => decide (q.part < part) && q.open_ && (peerOf q).1 == d && (peerOf q).2.1 == w
  if earlier || lsendBefore (s.core core) slot id d w || streamMoves s core d w link then none
  else
    let same := a.lanes.filter fun q => (peerOf q).1 == d && (peerOf q).2.1 == w && q.progress != .parked
    let last := !(same.any fun q => decide (part < q.part))
    let msg : PutMsg :=
      { id := 0, link := link, out := true, device := d, window := w, cells := storeCells a ls fun l => (peerOf l).2.2
        n := if last then same.length else 0, core := core, ref := .part core slot id part, landed := false
        final := last, acks := 0, late := ls.map fun l => lateOf a.site l .uncorrectable 3 }
    some (finishPart (sendPut s msg) core slot id part)

/-- A PATOM in the service group of the owning module (R197). -/
def peerAtom (s : State) (core slot id part : Nat) (a : Access) (l : LaneAcc) (ls : List LaneAcc) : State :=
  let (d, w, _) := peerOf l
  let (m, olds) := atomicMany a.aop.toNat a.size (peerData s d w) (ls.map fun l => ((peerOf l).2.2, l.data))
  finishPart (landLanes (setPeerData s d w m) core slot a ((ls.map fun l => l.lane).zip olds)) core slot id part

/-- A request to a peer: its lanes park when the device cannot be reached or the window is down (11 R372, R377). -/
def performPeer (s : State) (core slot id part : Nat) (a : Access) (ls : List LaneAcc) : Option State :=
  match ls with
  | [] => none
  | l :: _ =>
    let (d, w, _) := peerOf l
    if unreachable s d || (match registration? s d w with | some r => r.down | none => true) then
      let t := parkPart s core slot id part a.site ls .uncorrectable 3
      let gone := { a with lanes := a.lanes.map fun q => if q.part = part then { q with progress := .parked } else q }
      some (match a.kind with | .store => closePut t core slot id d w gone | _ => t)
    else match a.kind with
      | .load => some (peerLoad s core slot id part a l ls)
      | .store => peerPut s core slot id part a l ls
      | _ => some (peerAtom s core slot id part a l ls)

/-- A request to a scratchpad (R185, R186). -/
def performSpad (s : State) (core slot id part : Nat) (a : Access) (ls : List LaneAcc) : Option State :=
  match ls with
  | [] => none
  | l :: _ =>
    let t := (spadOf l).1
    some (match a.kind with
      | .load => finishPart (landLanes s core slot a (loadValues a ls (s.core t).spad fun l => (spadOf l).2)) core slot id part
      | .store =>
        finishPart (s.mapCore t fun c => { c with spad := c.spad.putCells (storeCells a ls fun l => (spadOf l).2) })
          core slot id part
      | _ =>
        let (m, olds) := atomicMany a.aop.toNat a.size (s.core t).spad (ls.map fun l => ((spadOf l).2, l.data))
        finishPart (landLanes (s.mapCore t fun c => { c with spad := m }) core slot a ((ls.map fun l => l.lane).zip olds))
          core slot id part)

/-- A prefetch that has started fills its line when the way is free (R190). -/
def performPref (s : State) (core slot id : Nat) (g : Group) (va dpa : Nat) (hint : BitVec 2) : Option State :=
  match s.launch? g.launch with
  | none => none
  | some lc =>
    let drop := fun (s : State) => s.mapGroup core slot fun g => g.dropPend id
    match fillL1 s core lc.asid va dpa (BitVec.allOnes 32) 0#32 (hintPrio hint) (hint == 1#2) with
    | .ready t => some (drop t)
    | .held t => some t
    | .blocked => none
    | .poisoned => some (drop s)

/-- One access part, when it may be performed (R182): none while it may not. -/
def performPart (s : State) (core slot id part : Nat) : Option State :=
  match s.group? core slot with
  | none => none
  | some g =>
    match g.pend? id with
    | some (.access a) =>
      let mine := a.lanes.filter fun l => l.part == part && l.open_
      let ls := mine.filter fun l => l.progress == .waiting
      if ls.isEmpty then (if a.isHomeAtom then serveAtomic s core slot id part a mine else none)
      else if ls.any LaneAcc.walking || !partFree s core slot id g a ls then none
      else match a.space, a.kind with
        | .g, .load => loadGlobal s core slot id part g a ls
        | .g, .store => storeGlobal s core slot id part g a ls
        | .g, _ => sendAtomic s core slot id part g a ls
        | .h, _ => some (performHost s core slot id part a ls)
        | .p, _ => performPeer s core slot id part a ls
        | _, _ => performSpad s core slot id part a ls
    | some (.pref va dpa hint) => performPref s core slot id g va dpa hint
    | _ => none

/-- The home's acknowledgement reaches a part: an atomic's old values land, a store's bytes come into the copy of a line of the
other die, and the part is complete. -/
def ackPart (s : State) (core slot id part : Nat) : State :=
  match s.group? core slot with
  | none => s
  | some g =>
    match g.pend? id with
    | some (.access a) =>
      let ls := a.lanes.filter fun l => l.part == part && l.progress == .sent
      let s := match a.kind with
        | .atom => landLanes s core slot a (ls.map fun l => (l.lane, natOfWords l.data))
        | .store =>
          if ls.any fun l => homeDie (dramOf l) == dieOf core then s else freshCopy s core (asidOf s g.launch) a ls
        | _ => s
      finishPart s core slot id part
    | _ => s

def Access.kindIs (a : Access) (ks : List AccKind) : Bool := ks.contains a.kind

/-- Performs the part that `sel` names when its access is of one of the kinds, and nothing else does. -/
def performSel (s : State) (ks : List AccKind) : State :=
  match s.group? s.sel.core s.sel.slot with
  | none => s
  | some g =>
    match g.pend? s.sel.id with
    | some (.access a) =>
      if a.kindIs ks then (performPart s s.sel.core s.sel.slot s.sel.id s.sel.part).getD s else s
    | some (.pref _ _ _) =>
      if ks.contains .load then (performPart s s.sel.core s.sel.slot s.sel.id s.sel.part).getD s else s
    | _ => s

/-- LOAD_LAND (R182); a prefetch under way fills its line by it (R190). -/
def execLoadLand (s : State) : Host.Outcome State Fault Refusal := .next (performSel s [.load])

/-- A store of the group before place `id` to its own core's scratchpad has not drained and meets a range (R183). -/
def Group.storeBefore (g : Group) (id core a n : Nat) : Bool :=
  g.pend.any fun p => decide (p.id < id) && match p.op with
    | .access q => isWrite q.kind && q.lanes.any fun l => l.open_ && targetsMeet l.target (sizeBytes q.size) (.spad core a) n
    | _ => false

/-- The row of an RRET leaves the scratchpad once the group's earlier stores to it have drained; a return to a module
that cannot be reached is discarded (07 R297). -/
def leaveReturn (s : State) (core slot id : Nat) (token : DWord) (addr : Nat) : State :=
  match s.group? core slot with
  | none => s
  | some g =>
    if g.storeBefore id core addr 128 then s
    else
      let s := s.mapGroup core slot fun g => g.dropPend id
      let dev := token.toNat % 256
      if dev ≠ s.device.toNat ∧ unreachable s dev then s
      else
        { s with returns := s.returns ++
            [{ link := rowLink s core dev (token.toNat / 2 ^ 8 % 512), token := token, device := s.device.toNat, core := core, launch := g.launch, block := g.block
               row := (s.core core).spad.bytes addr 128 }] }

/-- STORE_DRAIN (R182); an RRET drains as its row leaves. -/
def execStoreDrain (s : State) : Host.Outcome State Fault Refusal :=
  .next (match (s.group? s.sel.core s.sel.slot).bind fun g => g.pend? s.sel.id with
    | some (.rret token addr) => leaveReturn s s.sel.core s.sel.slot s.sel.id token addr
    | _ => performSel s [.store])

/-- ATOMIC_PERFORM (R196, R197). -/
def execAtomicPerform (s : State) : Host.Outcome State Fault Refusal := .next (performSel s [.atom, .red])

/-! ## Prefetch (R190) -/

/-- The device address of the first byte of the line that a prefetch of one lane fills, and the state once the TLB has been
used: none for an address that is out of
bounds, misaligned in no way that matters to a whole line, not readable, or that misses in a demand region. -/
def prefetchLine (s : State) (x : Issuer) (a : Nat) : Option (State × Nat) :=
  match globalLaneForm x.l false .load 1 a with
  | .ok _ (.dram d) => some (s, d - a % 128)
  | .ok _ (.walk region page _) =>
    match (s.die (dieOf x.core)).tlbFind x.l.asid region page, x.l.regions[region]? with
    | some e, some r =>
      some (s.mapDie (dieOf x.core) fun y => y.tlbTouch x.l.asid region page, lineOf (e.dpa + (a - r.vbase) % 2 ^ r.pageBits))
    | _, _ => none
  | _ => none

/-- One lane's prefetch: into L1, or into the home L2 only (R190). A fill that has to wait for the way it replaces has started, and
ends later. -/
def prefetchOne (s : State) (x : Issuer) (fresh : Bool) (hint : BitVec 2) (a : Nat) : State :=
  match prefetchLine s x a with
  | none => s
  | some (s, d) =>
    let later := fun (s : State) =>
      (s.mapGroup x.core x.slot fun g => g.addPend (s.core x.core).nextId (.pref (lineOf a) d hint)).mapCore x.core Core.tick
    if fresh then touchSpan s d 128 false
    else match fillL1 s x.core x.l.asid (lineOf a) d (BitVec.allOnes 32) 0#32 (hintPrio hint) (hint == 1#2) with
      | .ready t => t
      | .held t => later t
      | .blocked => later s
      | .poisoned => s

def prefetch (s : State) (i : Instr) (w : Base) (e : ExtM) : Host.Outcome State Fault Refusal :=
  runInstr s i fun x m =>
    let f : AccForm := { sp := .g, kind := .load, w := w, x := e }
    .done ((lanesOf m).foldl (fun t l =>
      prefetchOne t x e.fr e.hint (dwordOf (((accBase s x f l).toNat : Int) + (accIndex s x f l).toInt * 2 ^ e.xs.toNat + e.off.toInt)).toNat) s)

/-! ## The instructions -/

/-- SLD (R185). Short form (R69). -/
def execSld (w : Base) (s : State) : Host.Outcome State Fault Refusal :=
  access s (.sld w) .s .load w (shortM 2)

/-- SLD (R185). -/
def execSldLong (w : Base) (x : ExtM) (s : State) : Host.Outcome State Fault Refusal :=
  access s (.sldLong w x) .s .load w x

/-- SST (R185). Short form (R69). -/
def execSst (w : Base) (s : State) : Host.Outcome State Fault Refusal :=
  access s (.sst w) .s .store w (shortM 2)

/-- SST (R185). -/
def execSstLong (w : Base) (x : ExtM) (s : State) : Host.Outcome State Fault Refusal :=
  access s (.sstLong w x) .s .store w x

/-- SATOM (R196). -/
def execSatom (w : Base) (x : ExtM) (s : State) : Host.Outcome State Fault Refusal :=
  access s (.satom w x) .s .atom w x

/-- CLD (R186). Short form (R69). -/
def execCld (w : Base) (s : State) : Host.Outcome State Fault Refusal :=
  access s (.cld w) .c .load w (shortM 2)

/-- CLD (R186). -/
def execCldLong (w : Base) (x : ExtM) (s : State) : Host.Outcome State Fault Refusal :=
  access s (.cldLong w x) .c .load w x

/-- CST (R186). Short form (R69). -/
def execCst (w : Base) (s : State) : Host.Outcome State Fault Refusal :=
  access s (.cst w) .c .store w (shortM 2)

/-- CST (R186). -/
def execCstLong (w : Base) (x : ExtM) (s : State) : Host.Outcome State Fault Refusal :=
  access s (.cstLong w x) .c .store w x

/-- CATOM (R196). -/
def execCatom (w : Base) (x : ExtM) (s : State) : Host.Outcome State Fault Refusal :=
  access s (.catom w x) .c .atom w x

/-- GLD (R187). Short form (R69). -/
def execGld (w : Base) (s : State) : Host.Outcome State Fault Refusal :=
  access s (.gld w) .g .load w (shortM 2)

/-- GLD (R187). -/
def execGldLong (w : Base) (x : ExtM) (s : State) : Host.Outcome State Fault Refusal :=
  access s (.gldLong w x) .g .load w x

/-- GST (R188). Short form (R69). -/
def execGst (w : Base) (s : State) : Host.Outcome State Fault Refusal :=
  access s (.gst w) .g .store w (shortM 2)

/-- GST (R188). -/
def execGstLong (w : Base) (x : ExtM) (s : State) : Host.Outcome State Fault Refusal :=
  access s (.gstLong w x) .g .store w x

/-- GATOM (R197). -/
def execGatom (w : Base) (x : ExtM) (s : State) : Host.Outcome State Fault Refusal :=
  access s (.gatom w x) .g .atom w x

/-- GRED (R197). -/
def execGred (w : Base) (x : ExtM) (s : State) : Host.Outcome State Fault Refusal :=
  access s (.gred w x) .g .red w x

/-- HLD (R191). Short form (R69). -/
def execHld (w : Base) (s : State) : Host.Outcome State Fault Refusal :=
  access s (.hld w) .h .load w (shortM 2)

/-- HLD (R191). -/
def execHldLong (w : Base) (x : ExtM) (s : State) : Host.Outcome State Fault Refusal :=
  access s (.hldLong w x) .h .load w x

/-- HST (R191). Short form (R69). -/
def execHst (w : Base) (s : State) : Host.Outcome State Fault Refusal :=
  access s (.hst w) .h .store w (shortM 2)

/-- HST (R191). -/
def execHstLong (w : Base) (x : ExtM) (s : State) : Host.Outcome State Fault Refusal :=
  access s (.hstLong w x) .h .store w x

/-- PLD (R192). -/
def execPld (w : Base) (x : ExtM) (s : State) : Host.Outcome State Fault Refusal :=
  access s (.pld w x) .p .load w x

/-- PUT (R193). -/
def execPut (w : Base) (x : ExtM) (s : State) : Host.Outcome State Fault Refusal :=
  access s (.put w x) .p .store w x

/-- PATOM (R196). -/
def execPatom (w : Base) (x : ExtM) (s : State) : Host.Outcome State Fault Refusal :=
  access s (.patom w x) .p .atom w x

/-- PREF (R190). Short form (R69). -/
def execPref (w : Base) (s : State) : Host.Outcome State Fault Refusal :=
  prefetch s (.pref w) w (shortM 0)

/-- PREF (R190). -/
def execPrefLong (w : Base) (x : ExtM) (s : State) : Host.Outcome State Fault Refusal :=
  prefetch s (.prefLong w x) w x

end Sys2Proof.Machine
end

