-- ==== Sys2Proof/Machine/Sync.lean ====
section
/-! DEFINITION. The synchronisation instructions of class M: FENCE, ACQ and REL (05 R198 to R201), barriers (R202,
R203), tile hand-off (R204 to R210), counters (R211 to R214) and rings (R215 to R219), with the events that complete
what they leave pending. -/

namespace Sys2Proof.Machine

/-! ## Earlier accesses and releases (Table 5.4) -/

/-- Operations whose completion an acquire awaits: loads, atomics that return a value, and KLDs (DEDUCED, log 18). -/
def PendOp.isLoad : PendOp → Bool
  | .access a => (match a.kind with | .load => true | .atom => true | _ => false)
  | .kv a => (match a.op with | .kld => true | _ => false)
  | _ => false

/-- Every load before a place in program order is complete. -/
def Group.loadsDone (g : Group) (mark : Nat) : Bool := g.pend.all fun p => decide (mark ≤ p.id) || !p.op.isLoad

def AckRef.ofGroup (core slot mark : Nat) : AckRef → Bool
  | .part c s id _ => c == core && s == slot && decide (id < mark)
  | _ => false

/-- Every earlier PUT of the group has been acknowledged. -/
def putsDone (s : State) (core slot mark : Nat) : Bool := s.puts.all fun p => !(p.out && p.ref.ofGroup core slot mark)

/-- One step of a release at a scope: none while it must wait; with true, its actions are complete. -/
def releaseStep (s : State) (core slot scope mark : Nat) : Option (State × Bool) :=
  match s.group? core slot with
  | none => some (s, true)
  | some g =>
    if !g.accessesDone mark then none
    else if scope < 2 then some (s, true)
    else if (s.core core).l1Dirty then some (writeBack s core fun _ => true, false)
    else if (s.core core).wbOut ≠ 0 then none
    else if 6 ≤ scope ∧ !putsDone s core slot mark then none
    else some (s, true)

/-! ## Walks that start again (10 R354, R356) -/

/-- Lanes of an address space that a demand miss holds become walks again; `only` names one page. -/
def rewalkGroup (g : Group) (only : Option (Nat × Nat)) : Group :=
  { g with pend := g.pend.map fun p => match p.op with
      | .access a => { p with op := .access { a with lanes := a.lanes.map fun l => match l.target with
          | .walk r pg true => if only = none ∨ only = some (r, pg) then { l with target := .walk r pg false } else l
          | _ => l } }
      | _ => p }

/-- The pages that lanes of a core await a walk of: those of lanes that no demand miss holds. -/
def pagesOfLanes (s : State) (c : Core) : List Walk :=
  c.groups.flatMap fun p => p.2.pend.flatMap fun q => match q.op with
    | .access a => a.lanes.filterMap fun l => match l.target, l.progress with
      | .walk r pg false, .waiting =>
        some { asid := asidOf s p.2.launch, launch := p.2.launch, region := r, page := pg, write := isWrite a.kind }
      | _, _ => none
    | _ => []

/-- The pages that fetches and engine commands of a core await. -/
def pagesAwaited (s : State) (c : Core) : List Walk :=
  let ofGroup := c.groups.filterMap fun p => match p.2.wait with
    | .fetch r pg _ =>
      some ({ asid := asidOf s p.2.launch, launch := p.2.launch, region := r, page := pg, write := false } : Walk)
    | _ => none
  let ofEngine := fun (e : EngineState) => e.cmds.filterMap fun k => match k.page with
    | some (r, pg) => some ({ asid := asidOf s k.launch, launch := k.launch, region := r, page := pg, write := false } : Walk)
    | none => none
  ofGroup ++ ofEngine c.copy ++ ofEngine c.quant ++ ofEngine c.link

/-- Starts the walks that pending work of an address space asks for. A fetch or command whose page has had its walk, so that
its fault record is outstanding, is walked only when `again` names the page (DEDUCED, log 38). -/
def startWalks (s : State) (asid : Nat) (again : Nat × Nat → Bool) : State :=
  s.cores.foldl (fun t p =>
    let due := fun (w : Walk) => again (w.region, w.page) || !(s.die (dieOf p.1)).faults.contains (asid, w.region, w.page)
    (pagesOfLanes s p.2 ++ (pagesAwaited s p.2).filter due).foldl (fun t w =>
      if w.asid = asid then t.mapDie (dieOf p.1) fun d => d.startWalk w else t) t) s

/-- Every logged demand miss of an address space, or of one of its pages, is walked again. -/
def rewalk (s : State) (asid : Nat) (only : Option (Nat × Nat)) : State :=
  let s := { s with cores := s.cores.map fun p => (p.1, mapGroups p.2 fun _ g =>
    if asidOf s g.launch = asid then rewalkGroup g only else g) }
  startWalks s asid fun p => only = none ∨ only = some p

/-- FENCE `.walk` and PT_INVALIDATE: the TLB entries of the address space go on both dies, and its misses are walked
again (R356). -/
def walkFence (s : State) (asid : Nat) : State :=
  let drop := fun (d : Die) => { d with tlb := d.tlb.filter fun e => e.asid ≠ asid }
  rewalk { s with die0 := drop s.die0, die1 := drop s.die1 } asid none

/-! ## FENCE, ACQ and REL -/

/-- The core lies in the same instance of a scope (08 Table 8.3). -/
def sameInstance (scope a b : Nat) : Bool :=
  match scope with
  | 2 => a / 2 == b / 2
  | 3 => a / 64 == b / 64
  | 4 => a / 256 == b / 256
  | _ => true

/-- One step of an acquire at a scope: the earlier loads are complete, then L1 is clean, then its words go; at domain
and system scope the RDC loses the lines of peers. -/
def acquireStep (s : State) (core slot scope mark : Nat) : Option (State × Bool) :=
  match s.group? core slot with
  | none => some (s, true)
  | some g =>
    if !g.loadsDone mark then none
    else if scope < 2 then some (s, true)
    else if (s.core core).l1Dirty then some (writeBack s core fun _ => true, false)
    else if (s.core core).wbOut ≠ 0 then none
    else
      let s := s.mapCore core Core.l1Acquire
      some (if 6 ≤ scope then s.mapDie (dieOf core) fun d => d.rdcDropPeers fun _ _ => true else s, true)

/-- The victim core of an ACQ `.remote` writes back its dirty spans, then loses its words (R201). -/
def victimStep (s : State) (victim : Nat) : Option (State × Bool) :=
  if (s.core victim).l1Dirty then some (writeBack s victim fun _ => true, false)
  else if (s.core victim).wbOut ≠ 0 then none
  else some (s.mapCore victim Core.l1Acquire, true)

def setWait (s : State) (core slot : Nat) (w : Wait) : State := s.mapGroup core slot fun g => { g with wait := w }

/-- The next step of the actions that a group waits for (R199 to R201). -/
def syncStep (s : State) (core slot : Nat) (op : SyncOp) : State :=
  if op.rel then
    match releaseStep s core slot op.scope op.mark with
    | none => s
    | some (t, true) => setWait t core slot (.sync { op with rel := false })
    | some (t, false) => t
  else match op.victim with
    | some v =>
      -- the read that observes the victim's signal comes first (08 R314)
      if (s.group? core slot).any fun g => !g.loadsDone op.mark then s
      else (match victimStep s v with
       | none => s
       | some (t, true) => setWait t core slot (.sync { op with victim := none })
       | some (t, false) => t)
    | none =>
      if op.acq then
        match acquireStep s core slot op.scope op.mark with
        | none => s
        | some (t, true) => setWait t core slot (.sync { op with acq := false })
        | some (t, false) => t
      else
        let s := setWait s core slot .none
        if op.walk then
          match s.group? core slot with
          | some g => walkFence s (asidOf s g.launch)
          | none => s
        else s

/-- SYNC_ACTIONS_COMPLETE (R199). -/
def execSyncActionsComplete (s : State) : Host.Outcome State Fault Refusal :=
  .next (match s.group? s.sel.core s.sel.slot with
    | some g => (match g.wait with | .sync op => syncStep s s.sel.core s.sel.slot op | _ => s)
    | none => s)

/-- Leaves the group waiting, in its run, for the actions of a synchronisation instruction (02 R66 does not list them among
those at which a run ends; DEDUCED, log 55); at group scope they are complete. -/
def syncWait (s : State) (x : Issuer) (rel acq walk : Bool) (scope : Nat) (victim : Option Nat) : Act :=
  if scope = 0 then .done s
  else
    let op : SyncOp :=
      { rel := rel, acq := acq, scope := scope, walk := walk, victim := victim, mark := (s.core x.core).nextId
        sent := false }
    .done (setWait s x.core x.slot (.sync op))

def sync (s : State) (i : Instr) (e : ExtC) (rel acq walk : Bool) : Host.Outcome State Fault Refusal :=
  runInstr s i fun x _ => syncWait s x rel acq walk e.scope.toNat none

/-- ACQ `.remote` (R201). -/
def acqRemote (s : State) (i : Instr) (w : Base) (e : ExtC) : Host.Outcome State Fault Refusal :=
  runInstr s i fun x m =>
    let l := elect m
    let v := if e.sa then (x.g.sreg w.a.toNat).toNat else (vget s x w.a.toNat l).toNat
    if 512 ≤ v ∨ !sameInstance e.scope.toNat x.core v then
      let f : LateFault :=
        { lane := l, cause := .accessRights, detail := 6, addr := 0#64, site := siteOf x i, a := BitVec.ofNat 64 v
          b := 0#64, data := [] }
      doneOrGone (faultLanes s x [f]) x
    else syncWait s x false true false e.scope.toNat (if v = x.core then none else some v)

/-! ## Barriers (R203) -/

def barOf (e : ExtC) : BarKind × Nat := (barKind (e.imm.extractLsb' 6 2).toNat, (e.imm.extractLsb' 0 4).toNat)

/-- PENDING of a barrier as a block on a core sees it. -/
def pendingOf (s : State) (core : Nat) (l : Launch) (b : Block) (k : BarKind) (n : Nat) : Nat :=
  match k with
  | .block => (nth Barrier.empty (s.core core).bars (b.bar n)).pending
  | _ =>
    match (s.core core).segs.find? (isSeg l.id (barInstance l core b.index k) k n) with
    | none => 0
    | some g => g.bar.pending

/-- EXPECT n (01 R55). -/
def expectBar (s : State) (core : Nat) (l : Launch) (b : Block) (k : BarKind) (n count : Nat) : State :=
  s.mapCore core fun c => match k with
    | .block =>
      let p := b.bar n
      let y := nth Barrier.empty c.bars p
      { c with bars := setNth c.bars p { y with pending := y.pending + count } }
    | _ =>
      { c with segs := c.segs.map fun g =>
          if isSeg l.id (barInstance l core b.index k) k n g then
            { g with bar := { g.bar with pending := g.bar.pending + count } }
          else g }

/-- BARE (R203). Behind an arrival of the group at the barrier that is not applied yet it applies later, whatever the sum is
now, and the group goes on (01 R55). -/
def bare (s : State) (i : Instr) (e : ExtC) : Host.Outcome State Fault Refusal :=
  runInstr s i fun x _ =>
    let (k, n) := barOf e
    let count := (e.imm.extractLsb' 8 6).toNat
    let id := (s.core x.core).nextId
    if x.g.arrivesBefore k n id then
      .done ((s.mapGroup x.core x.slot fun g => g.addPend id (.expect (siteOf x i) k n count (issueView s x i))).mapCore x.core Core.tick)
    else if 63 < pendingOf s x.core x.l x.b k n + count then .trap .barOverflow 0 0#32
    else .done (expectBar s x.core x.l x.b k n count)

/-- The trap of an EXPECT that was deferred and overflows as it applies: it is taken before the group's next clause (01 R55
gives the trap for the instruction alone; DEDUCED, log 60), and shows the OPLOG reads of its issue (10 R349). -/
def overflowTrap (site : Site) (view : List (List Word)) : Trap :=
  { Trap.plain .barOverflow with
    word := BitVec.ofNat 4 site.wordIx, chain := site.chained, words := site.base ++ site.hdr, view := view }

/-- Applies an EXPECT behind the group's earlier operations at its barrier (01 R55). One that overflows after its group has
ended is dropped; of two that overflow before either trap is taken, one traps (DESIGN CHOICE, log 86). -/
def applyExpect (s : State) (core slot : Nat) (p : Pend) : State :=
  match p.op, s.group? core slot with
  | .expect site k n count view, some g =>
    if g.arrivesBefore k n p.id then s
    else
      let s := s.mapGroup core slot fun g => g.dropPend p.id
      (match s.launch? g.launch, (s.core core).block? g.launch g.block with
       | some l, some b =>
         if pendingOf s core l b k n + count ≤ 63 then expectBar s core l b k n count
         else if g.ended then s
         else if g.handler.any fun h => decide (h.mark ≤ p.id) then
           abortLaunch s g.launch .trapInHandler (Cause.barOverflow.code, core, site.hdrOff.toNat)
         else s.mapGroup core slot fun g => { g with delivered := g.delivered ++ [overflowTrap site view] }
       | _, _ => s)
  | _, _ => s

/-- The arrival of BARA and BARAW, applied later. -/
def arriveLater (s : State) (x : Issuer) (k : BarKind) (n : Nat) (thenWait : Bool) : State :=
  (s.mapGroup x.core x.slot fun g => g.addPend (s.core x.core).nextId (.arrive k n thenWait)).mapCore x.core Core.tick

def bara (s : State) (i : Instr) (e : ExtC) : Host.Outcome State Fault Refusal :=
  runInstr s i fun x _ => .done (arriveLater s x (barOf e).1 (barOf e).2 false)

/-- Applies an arrival whose release is complete, after the group's earlier operations at the barrier (01 R55). -/
def applyArrive (s : State) (core slot id : Nat) : State :=
  match s.group? core slot with
  | none => s
  | some g =>
    match g.pend? id with
    | some (.arrive k n _) =>
      if g.arrivesBefore k n id then s
      else match releaseStep s core slot (barScope k) id with
        | none => s
        | some (t, false) => t
        | some (t, true) =>
          match t.launch? g.launch, (t.core core).block? g.launch g.block with
          | some l, some b =>
            let phase := phaseOf t core l b k n
            let t := t.mapGroup core slot fun g => (g.dropPend id).setToken k n phase
            let t := arrive t core l b k n
            t.mapGroup core slot fun g =>
              if g.wait = .barrier k n ∧ !g.arriving k n ∧ g.token k n ≠ phaseOf t core l b k n then
                g.acquire (barScope k) (t.core core).nextId
              else g
          | _, _ => t.mapGroup core slot fun g => g.dropPend id
    | _ => s

/-- WAIT: the run goes on, behind the acquire, when PHASE differs from the token and no arrival of the group is outstanding;
else it ends here (02 R66). -/
def barWait (s : State) (x : Issuer) (k : BarKind) (n : Nat) : Act :=
  let g := groupOf s x
  if !g.arriving k n && g.token k n != phaseOf s x.core x.l x.b k n then
    .done (s.mapGroup x.core x.slot fun g => g.acquire (barScope k) (s.core x.core).nextId)
  else .wait (setWait s x.core x.slot (.barrier k n))

def barw (s : State) (i : Instr) (e : ExtC) : Host.Outcome State Fault Refusal :=
  runInstr s i fun x _ => barWait s x (barOf e).1 (barOf e).2

/-- BARAW: its arrival applies at once where REL's actions are complete already. -/
def baraw (s : State) (i : Instr) (e : ExtC) : Host.Outcome State Fault Refusal :=
  runInstr s i fun x _ =>
    let (k, n) := barOf e
    barWait (applyArrive (arriveLater s x k n true) x.core x.slot (s.core x.core).nextId) x k n

/-- ARRIVE_APPLY (01 R55). -/
def execArriveApply (s : State) : Host.Outcome State Fault Refusal := .next (applyArrive s s.sel.core s.sel.slot s.sel.id)

/-! ## Tiles (R204 to R210) -/

/-- A pending operation will write a tile. -/
def PendOp.writesTile (wide : Bool) (t : Nat) (op : PendOp) : Bool :=
  let hits := fun (win : List (Option Nat)) => op.writes.any fun o => match o with
    | .v n k => (List.range k).any fun i => winTile win (vEntry wide (n + i)) == some t
    | _ => false
  match op with
  | .access a => hits a.win
  | .kv a => hits a.win
  | .long win _ _ => hits win
  | .pop _ d => hits d.win
  | .amerge _ _ _ _ _ _ _ win => hits win
  | _ => false

/-- What a GIVE at a place in program order awaits has landed (R206). -/
def giveDone (c : Core) (t giver mark : Nat) : Bool :=
  match c.group? giver with
  | none => true
  | some g => g.accessesDone mark && g.pend.all fun p => decide (mark ≤ p.id) || !p.op.writesTile g.wide t

/-- Clears LAND where nothing is awaited any more. -/
def Core.settleTiles (c : Core) : Core :=
  { c with tiles := c.tiles.mapIdx fun t x =>
      if x.land then
        let ws := x.waits.filter fun w => !giveDone c t w.1 w.2
        { x with waits := ws, land := !ws.isEmpty || x.seqWait }
      else x }

/-- The tile a GIVE, TAKE or OWNQ selects: an entry of the window, a number, or a scalar register. -/
def tileSel (x : Issuer) (w : Base) (e : ExtC) : Option Nat :=
  let n := (e.imm.extractLsb' 16 6).toNat
  match (e.imm.extractLsb' 22 2).toNat with
  | 0 => winTile x.g.winmap n
  | 1 => some n
  | _ => some ((x.g.sreg w.a.toNat).toNat % 64)

/-- A slot of a group of the block that has not ended. -/
def liveSlot (c : Core) (g : Group) (n : Nat) : Bool :=
  match c.group? n with
  | some h => h.launch == g.launch && h.block == g.block && !h.ended
  | none => false

/-- GIVE (R206). -/
def give (s : State) (i : Instr) (w : Base) (e : ExtC) : Host.Outcome State Fault Refusal :=
  runInstr s i fun x _ =>
    let c := s.core x.core
    let n := (e.imm.extractLsb' 0 6).toNat
    match tileSel x w e with
    | none => .trap .tileState 0 0#32
    | some t =>
      if (c.tile t).owner ≠ x.slot then .trap .tileOwner 0 0#32
      else if n = x.slot then .done s
      else if n ≤ 0x1F ∧ !liveSlot c x.g n then .trap .tileState 0 0#32
      else
        let y := c.tile t
        let y := { y with owner := n, offer := y.offer || decide (n ≤ 0x1F), land := true
                          waits := y.waits ++ [(x.slot, c.nextId)] }
        .done (s.setCore x.core (((c.setTile t y).tick).settleTiles))

/-- The group's first pending TAKE, with its place, its tile and its entry: TAKEs complete in program order (R208). -/
def Group.firstTake (g : Group) : Option (Nat × TakeSel × Option Nat) :=
  g.pend.findSome? fun p => match p.op with
    | .take k e => some (p.id, k, e)
    | _ => none

/-- Completes a TAKE of a tile whose condition holds (R207). -/
def Core.completeTake (c : Core) (slot id t : Nat) (bind : Option Nat) : Option Core :=
  let x := c.tile t
  if x.owner = slot ∧ !x.land then
    let done := fun (g : Group) =>
      let g := g.dropPend id
      let g := match bind with | some e => { g with winmap := setNth g.winmap e (some t) } | none => g
      { g with wait := if g.wait = .take then .none else g.wait }
    some ((c.setTile t { x with offer := false }).mapGroup slot done)
  else none

/-- The lowest-numbered tile that is offered to a slot (R207). -/
def offeredTo (tiles : List Tile) (slot : Nat) : Option Nat := findIx (fun (x : Tile) => x.owner == slot && x.offer) tiles

/-- A step of a group's first pending TAKE: an offered tile is fixed, the lowest-numbered one, when one first exists, and the
TAKE completes at the first moment when its condition holds (R207, R208). -/
def Core.stepTake (c : Core) (slot : Nat) : Option Core :=
  match (c.group? slot).bind Group.firstTake with
  | none => none
  | some (id, .tile t, bind) => c.completeTake slot id t bind
  | some (id, .offered, bind) =>
    match offeredTo c.tiles slot with
    | none => none
    | some t =>
      let c := c.mapGroup slot fun g => g.setPend id (.take (.tile t) bind)
      some ((c.completeTake slot id t bind).getD c)

/-- Steps of a group's pending TAKEs, n at most. -/
def Core.stepTakes (c : Core) (slot : Nat) : Nat → Core
  | 0 => c
  | n + 1 =>
    match c.stepTake slot with
    | none => c
    | some d => d.stepTakes slot n

/-- A group's pending TAKEs of any offered tile fix their tile as soon as there is one: each the lowest-numbered, whatever
tile another TAKE of the group names or has fixed (R207; DEDUCED, log 59). -/
def Core.fixTakes (c : Core) (slot : Nat) : Core :=
  match offeredTo c.tiles slot with
  | none => c
  | some t =>
    c.mapGroup slot fun g => { g with pend := g.pend.map fun p => match p.op with
      | .take .offered bind => { p with op := .take (.tile t) bind }
      | _ => p }

/-- The pending TAKEs of a core fix their tiles, and those that can complete do so, in slot order. -/
def Core.settleTakes (c : Core) : Core :=
  c.groups.foldl (fun c p => (c.fixTakes p.1).stepTakes p.1 (2 * p.2.pend.length)) c

/-- TAKE (R207): one that can complete does so at once. -/
def take (s : State) (i : Instr) (w : Base) (e : ExtC) : Host.Outcome State Fault Refusal :=
  runInstr s i fun x _ =>
    let sel := (e.imm.extractLsb' 22 2).toNat
    let bind := if e.imm.getLsbD 15 then some (e.imm.extractLsb' 13 2).toNat else none
    let go := fun (k : TakeSel) =>
      let id := (s.core x.core).nextId
      let s := (s.mapGroup x.core x.slot fun g => g.addPend id (.take k bind)).mapCore x.core Core.tick
      Act.done (s.mapCore x.core fun c => c.stepTakes x.slot 2)
    if sel = 3 then go .offered
    else match tileSel x w e with
      | none => .trap .tileState 0 0#32
      | some t => if sel ≠ 0 ∧ !x.b.tiles.contains t then .trap .tileState 0 0#32 else go (.tile t)

/-- TAKE_COMPLETE (R207). -/
def execTakeComplete (s : State) : Host.Outcome State Fault Refusal :=
  .next (match (s.core s.sel.core).stepTake s.sel.slot with
    | some c => s.setCore s.sel.core c
    | none => s)

/-- OWNQ's value (R210). -/
def ownValue (c : Core) : Option Nat → DWord
  | none => 0xFF3F#64
  | some t =>
    let x := c.tile t
    BitVec.ofNat 64 (t * 256 + (if x.land then 128 else 0) + (if x.offer then 64 else 0) + x.owner)

def ownq (s : State) (i : Instr) (w : Base) (e : ExtC) : Host.Outcome State Fault Refusal :=
  runInstr s i fun x _ => .done (sset s x w.d.toNat (ownValue (s.core x.core) (tileSel x w e)))

/-! ## Counters (R211 to R214) -/

def ctrOf (e : ExtC) : Nat := (e.imm.extractLsb' 0 6).toNat

def ctrValue (x : Issuer) (w : Base) (e : ExtC) : DWord :=
  if e.sa then x.g.sreg w.a.toNat else (e.imm.extractLsb' 8 16).setWidth 64

/-- Codes 0 and 1 both mean core. -/
def ctrScope (e : ExtC) : Nat := max 1 e.scope.toNat

def ctradd (s : State) (i : Instr) (w : Base) (e : ExtC) : Host.Outcome State Fault Refusal :=
  runInstr s i fun x _ =>
    .done ((s.mapGroup x.core x.slot fun g =>
      g.addPend (s.core x.core).nextId (.ctradd (ctrOf e) (ctrValue x w e) (ctrScope e))).mapCore x.core Core.tick)

def ctrwait (s : State) (i : Instr) (w : Base) (e : ExtC) : Host.Outcome State Fault Refusal :=
  runInstr s i fun x _ =>
    let v := ctrValue x w e
    if v ≤ (s.core x.core).counter (ctrOf e) then
      .done (s.mapGroup x.core x.slot fun g => g.acquire (ctrScope e) (s.core x.core).nextId)
    else .wait (setWait s x.core x.slot (.counter (ctrOf e) v (ctrScope e)))

def ctrrd (s : State) (i : Instr) (w : Base) (e : ExtC) : Host.Outcome State Fault Refusal :=
  runInstr s i fun x _ => .done (sset s x w.d.toNat ((s.core x.core).counter (ctrOf e)))

/-- Applies a CTRADD whose release is complete, in program order with the group's others (R212). -/
def applyCtradd (s : State) (core slot id : Nat) : State :=
  match s.group? core slot with
  | none => s
  | some g =>
    match g.pend? id with
    | some (.ctradd k v scope) =>
      let before := g.pend.any fun p => decide (p.id < id) && (match p.op with | .ctradd _ _ _ => true | _ => false)
      if before then s
      else match releaseStep s core slot scope id with
        | none => s
        | some (t, false) => t
        | some (t, true) => (t.mapGroup core slot fun g => g.dropPend id).mapCore core fun c => c.addCounter k v
    | _ => s

/-- CTRADD_APPLY (R212). -/
def execCtraddApply (s : State) : Host.Outcome State Fault Refusal := .next (applyCtradd s s.sel.core s.sel.slot s.sel.id)

/-! ## Rings (R215 to R219) -/

/-- Write and read pointers of a block's ring. -/
def Block.ring (b : Block) (r : Nat) : Nat × Nat := nth (0, 0) b.rings r

def ringDesc (l : Launch) (r : Nat) : RingDesc := nth { slots := 0, lines := 0, base := 0 } l.rec_.rings r

/-- Filled slots from the pointers (R215). -/
def ringFilled (slots : Nat) (p : Nat × Nat) : Nat := (p.1 + slots - p.2) % slots

def ringFree (slots : Nat) (p : Nat × Nat) : Nat := slots - 1 - ringFilled slots p

/-- The scratchpad offset of a slot (01 R27). -/
def slotOffset (d : RingDesc) (j : Nat) : Nat := d.base + j * d.lines * 128

/-- The slot offset a RINGW yields when its condition holds (R217). -/
def ringwValue (d : RingDesc) (p : Nat × Nat) (free : Bool) (n : Nat) : Option DWord :=
  if free then (if n + 1 ≤ ringFree d.slots p then some (BitVec.ofNat 64 (slotOffset d ((p.1 + n) % d.slots))) else none)
  else if n + 1 ≤ ringFilled d.slots p then some (BitVec.ofNat 64 (slotOffset d ((p.2 + n) % d.slots)))
  else none

/-- A RINGW that is satisfied: its offset, and for a filled slot the acquire. -/
def Group.ringGot (g : Group) (free : Bool) (dReg : Nat) (v : DWord) (mark : Nat) : Group :=
  let g := { g.setS dReg v with wait := .none }
  if free then g else g.acquire 1 mark

/-- Moves a pointer of a block's ring, and releases the RINGWs that this satisfies, in slot order (R217, R219). -/
def Core.moveRing (c : Core) (l : Launch) (block r : Nat) (free : Bool) : Core :=
  let d := ringDesc l r
  let c := c.mapBlock l.id block fun b =>
    let p := b.ring r
    { b with rings := setNth b.rings r (if free then ((p.1 + 1) % d.slots, p.2) else (p.1, (p.2 + 1) % d.slots)) }
  match c.block? l.id block with
  | none => c
  | some b =>
    mapGroups c fun _ g =>
      match g.wait with
      | .ring q fr n dReg =>
        if g.launch = l.id ∧ g.block = block ∧ q = r then
          match ringwValue d (b.ring r) fr n with
          | some v => g.ringGot fr dReg v c.nextId
          | none => g
        else g
      | _ => g

def ringOf (e : ExtC) : Nat := (e.imm.extractLsb' 0 3).toNat
def ringN (e : ExtC) : Nat := (e.imm.extractLsb' 16 8).toNat

def ringw (s : State) (i : Instr) (w : Base) (e : ExtC) (free : Bool) : Host.Outcome State Fault Refusal :=
  runInstr s i fun x _ =>
    let r := ringOf e
    let d := ringDesc x.l r
    let n := ringN e
    if d.slots ≤ n + 1 then .trap .queueFault 0 0#32
    else match ringwValue d (x.b.ring r) free n with
      | some v => .done (s.mapGroup x.core x.slot fun g => g.ringGot free w.d.toNat v (s.core x.core).nextId)
      | none => .wait (setWait s x.core x.slot (.ring r free n w.d.toNat))

/-- The pointers as they will stand once the group's RINGLs on the ring have been applied (R218). -/
def ringAhead (g : Group) (slots : Nat) (r : Nat) (p : Nat × Nat) : Nat × Nat :=
  g.pend.foldl (fun p q => match q.op with
    | .ringl k free => if k = r then (if free then ((p.1 + 1) % slots, p.2) else (p.1, (p.2 + 1) % slots)) else p
    | _ => p) p

def ringl (s : State) (i : Instr) (e : ExtC) (free : Bool) : Host.Outcome State Fault Refusal :=
  runInstr s i fun x _ =>
    let r := ringOf e
    let d := ringDesc x.l r
    let p := ringAhead x.g d.slots r (x.b.ring r)
    let ok := d.slots ≠ 0 ∧ 1 ≤ (if free then ringFree d.slots p else ringFilled d.slots p)
    if ok then
      .done ((s.mapGroup x.core x.slot fun g => g.addPend (s.core x.core).nextId (.ringl r free)).mapCore x.core Core.tick)
    else .trap .queueFault 0 0#32

/-- Applies a RINGL whose release is complete, in program order on its ring (R218). -/
def applyRingl (s : State) (core slot id : Nat) : State :=
  match s.group? core slot with
  | none => s
  | some g =>
    match g.pend? id with
    | some (.ringl r free) =>
      let before := g.pend.any fun p => decide (p.id < id) && (match p.op with | .ringl k _ => k == r | _ => false)
      if before || !g.accessesDone id then s
      else match s.launch? g.launch with
        | none => s
        | some l => (s.mapGroup core slot fun g => g.dropPend id).mapCore core fun c => c.moveRing l g.block r free
    | _ => s

/-- RINGL_APPLY (R218). -/
def execRinglApply (s : State) : Host.Outcome State Fault Refusal := .next (applyRingl s s.sel.core s.sel.slot s.sel.id)

/-- RINGQ's value (R219). -/
def ringValue (slots : Nat) (p : Nat × Nat) : DWord :=
  BitVec.ofNat 64 (p.1 + 2 ^ 8 * p.2 + 2 ^ 16 * ringFilled slots p + 2 ^ 24 * slots)

def ringq (s : State) (i : Instr) (w : Base) (e : ExtC) : Host.Outcome State Fault Refusal :=
  runInstr s i fun x _ =>
    .done (sset s x w.d.toNat (ringValue (ringDesc x.l (ringOf e)).slots (x.b.ring (ringOf e))))

/-! ## The instructions -/

/-- FENCE (R199). Short form (R69). -/
def execFence (w : Base) (s : State) : Host.Outcome State Fault Refusal :=
  sync s (.fence w) shortC true true false

/-- FENCE (R199). -/
def execFenceLong (w : Base) (x : ExtC) (s : State) : Host.Outcome State Fault Refusal :=
  sync s (.fenceLong w x) x true true false

/-- FENCE (R200). -/
def execFenceWalk (w : Base) (x : ExtC) (s : State) : Host.Outcome State Fault Refusal :=
  sync s (.fenceWalk w x) x true true true

/-- ACQ (R199). Short form (R69). -/
def execAcq (w : Base) (s : State) : Host.Outcome State Fault Refusal :=
  sync s (.acq w) shortC false true false

/-- ACQ (R199). -/
def execAcqLong (w : Base) (x : ExtC) (s : State) : Host.Outcome State Fault Refusal :=
  sync s (.acqLong w x) x false true false

/-- ACQ (R201). -/
def execAcqRemote (w : Base) (x : ExtC) (s : State) : Host.Outcome State Fault Refusal :=
  acqRemote s (.acqRemote w x) w x

/-- REL (R199). Short form (R69). -/
def execRel (w : Base) (s : State) : Host.Outcome State Fault Refusal :=
  sync s (.rel w) shortC true false false

/-- REL (R199). -/
def execRelLong (w : Base) (x : ExtC) (s : State) : Host.Outcome State Fault Refusal :=
  sync s (.relLong w x) x true false false

/-- BARE (R203). -/
def execBare (w : Base) (x : ExtC) (s : State) : Host.Outcome State Fault Refusal :=
  bare s (.bare w x) x

/-- BARA (R203). -/
def execBara (w : Base) (x : ExtC) (s : State) : Host.Outcome State Fault Refusal :=
  bara s (.bara w x) x

/-- BARW (R203). -/
def execBarw (w : Base) (x : ExtC) (s : State) : Host.Outcome State Fault Refusal :=
  barw s (.barw w x) x

/-- BARAW (R203). -/
def execBaraw (w : Base) (x : ExtC) (s : State) : Host.Outcome State Fault Refusal :=
  baraw s (.baraw w x) x

/-- GIVE (R206). -/
def execGive (w : Base) (x : ExtC) (s : State) : Host.Outcome State Fault Refusal :=
  give s (.give w x) w x

/-- TAKE (R207). -/
def execTake (w : Base) (x : ExtC) (s : State) : Host.Outcome State Fault Refusal :=
  take s (.take w x) w x

/-- OWNQ (R210). -/
def execOwnq (w : Base) (x : ExtC) (s : State) : Host.Outcome State Fault Refusal :=
  ownq s (.ownq w x) w x

/-- CTRADD (R212). -/
def execCtradd (w : Base) (x : ExtC) (s : State) : Host.Outcome State Fault Refusal :=
  ctradd s (.ctradd w x) w x

/-- CTRWAIT (R213). -/
def execCtrwait (w : Base) (x : ExtC) (s : State) : Host.Outcome State Fault Refusal :=
  ctrwait s (.ctrwait w x) w x

/-- CTRRD (R214). -/
def execCtrrd (w : Base) (x : ExtC) (s : State) : Host.Outcome State Fault Refusal :=
  ctrrd s (.ctrrd w x) w x

/-- RINGW (R217). -/
def execRingwFill (w : Base) (x : ExtC) (s : State) : Host.Outcome State Fault Refusal :=
  ringw s (.ringwFill w x) w x false

/-- RINGW (R217). -/
def execRingwFree (w : Base) (x : ExtC) (s : State) : Host.Outcome State Fault Refusal :=
  ringw s (.ringwFree w x) w x true

/-- RINGL (R218). -/
def execRinglFill (w : Base) (x : ExtC) (s : State) : Host.Outcome State Fault Refusal :=
  ringl s (.ringlFill w x) x false

/-- RINGL (R218). -/
def execRinglFree (w : Base) (x : ExtC) (s : State) : Host.Outcome State Fault Refusal :=
  ringl s (.ringlFree w x) x true

/-- RINGQ (R219). -/
def execRingq (w : Base) (x : ExtC) (s : State) : Host.Outcome State Fault Refusal :=
  ringq s (.ringq w x) w x

end Sys2Proof.Machine
end

