-- ==== Sys2Proof/Machine/Sequencer.lean ====
section
/-! DEFINITION. The tensor sequencer: the hand-off of X clauses (02 R92 to R94, 06 R220 to R225), iterators and loops
(R226 to R228), tile passes (R229 to R233), scale latches (R234 to R236), streams and panels (R237, R238), ownership
and signals (R239 to R242), pairs (R243) and faults (R244). -/

namespace Sys2Proof.Machine

/-! ## Bundles at hand-off -/

/-- The word at an offset of a run. -/
def Run.wordAt (r : Run) (off : Word) : Word := nth 0#32 r.code ((off - r.first).toNat / 4)

/-- A word of an X clause before it is checked: word index, base word, and what it decodes to. -/
structure RawWord where
  ix : Nat
  base : Word
  dec : Decoded
  deriving DecidableEq, Repr

/-- The words of a clause of n words from index i on, extension words taken with their base words. -/
def rawWords (r : Run) (c : Cls) (n : Nat) : Nat → Nat → List RawWord
  | 0, _ => []
  | fuel + 1, i =>
    if n ≤ i then []
    else
      let at_ := fun (k : Nat) => r.wordAt (r.cur + BitVec.ofNat 32 (4 + 4 * k))
      let w := at_ i
      { ix := i, base := w, dec := decode c w (at_ (i + 1)) } :: rawWords r c n fuel (i + lengthOf w)

/-- Splits words into the groups that the header's STOP bits end (02 R65). -/
def splitGroups (hdr : Word) : List RawWord → List (List RawWord)
  | [] => []
  | w :: ws =>
    let last := w.ix + lengthOf w.base - 1
    if hdrStop hdr last then [w] :: splitGroups hdr ws
    else match splitGroups hdr ws with
      | [] => [[w]]
      | g :: gs => (w :: g) :: gs

/-- Slot kinds of X words (Table 2.13). -/
inductive SlotKind where
  | m | s | i | l | y
  deriving DecidableEq, Repr

def slotKind : Instr → Option SlotKind
  | .mm _ => some .m | .mmz _ => some .m | .scl _ => some .s
  | .strm _ => some .i | .panel _ => some .i | .iterImm _ => some .i | .iterReg _ => some .i
  | .loop _ => some .l
  | .xgive _ => some .y | .xtake _ => some .y | .xsig _ => some .y | .xsigBar _ => some .y | .xwait _ => some .y
  | .xend _ => some .y
  | _ => none

def slotLimit : SlotKind → Nat
  | .i => 2 | _ => 1

/-- The tiles that a word names (R223). -/
def tilesNamed : Instr → List Nat
  | .mm w => (if w.as then [] else [w.atile.toNat]) ++ [2 * w.apair.toNat, 2 * w.apair.toNat + 1]
  | .mmz w => (if w.as then [] else [w.atile.toNat]) ++ [2 * w.apair.toNat, 2 * w.apair.toNat + 1]
  | .scl w => [w.tile.toNat]
  | .xgive w => [w.tile.toNat]
  | .xtake w => [w.tile.toNat]
  | _ => []

def iterNamed : Instr → Option (Nat × Nat)
  | .iterImm w => some (w.j.toNat, w.field.toNat)
  | .iterReg w => some (w.j.toNat, w.field.toNat)
  | _ => none

def mmFields : Instr → Option MmWord
  | .mm w => some w
  | .mmz w => some w
  | _ => none

/-- The formats that a word names, as element widths. -/
def widthNamed (e : CheckEnv) : Instr → Option Nat
  | .mm w => some (slotBits (nth 0#32 e.formats w.afmt.toNat))
  | .mmz w => some (slotBits (nth 0#32 e.formats w.afmt.toNat))
  | .panel w => some (slotBits (nth 0#32 e.formats w.bfmt.toNat))
  | _ => none

def isPanel : Instr → Bool
  | .panel _ => true | _ => false

def isStrm : Instr → Bool
  | .strm _ => true | _ => false

/-- A word lacks its partner in the bundle (R225). -/
def lacksPartner (all : List Instr) (i : Instr) : Bool :=
  match mmFields i with
  | some w => !all.any isPanel || (w.as && !all.any isStrm)
  | none =>
    if isPanel i then !all.any (fun j => (mmFields j).isSome)
    else if isStrm i then !all.any (fun j => match mmFields j with | some w => w.as | none => false)
    else false

/-- A word breaks the bundle given the words before it (R92, R223, R225). -/
def clashes (e : CheckEnv) (before : List Instr) (i : Instr) : Bool :=
  let kindFull := match slotKind i with
    | some k => decide (slotLimit k ≤ (before.filter fun j => slotKind j == some k).length)
    | none => false
  let tile := (tilesNamed i).any fun t => before.any fun j => (tilesNamed j).contains t
  let iter := match iterNamed i with | some q => before.any fun j => iterNamed j == some q | none => false
  let width := match widthNamed e i with
    | some w => before.any fun j => match widthNamed e j with | some v => v != w | none => false
    | none => false
  kindFull || tile || iter || width

/-- The first word at which the bundle checks find a violation. -/
def bundleClash (e : CheckEnv) (all : List Instr) : List Instr → List (Nat × Instr) → Option Nat
  | _, [] => none
  | before, (ix, i) :: ws =>
    if clashes e before i || lacksPartner all i then some ix else bundleClash e all (before ++ [i]) ws

/-- The failure of a bundle at hand-off: word index, cause and reason (R92). -/
def bundleFailure (e : CheckEnv) (ws : List RawWord) : Option (Nat × Cause × Nat) :=
  let own := ws.findSome? fun w => match w.dec with
    | .illegal r => some (w.ix, Cause.illegalEncoding, r)
    | .ok i => (xFailure e i).map fun r => (w.ix, Cause.illegalEncoding, r)
    | .unassigned => none
  match own with
  | some f => some f
  | none =>
    let oks := ws.filterMap fun w => match w.dec with | .ok i => some (w.ix, i) | _ => none
    match bundleClash e (oks.map fun p => p.2) [] oks with
    | some ix => some (ix, .illegalEncoding, 0xB)
    | none => ws.findSome? fun w => match w.dec with | .unassigned => some (w.ix, Cause.unimpl, 0) | _ => none

/-- A word as the sequencer takes it, scalar values read by the group (R225). -/
def slotWordOf (g : Group) : Instr → Option SlotWord
  | .mm w => some (.mm w false)
  | .mmz w => some (.mm w true)
  | .scl w => some (.scl w)
  | .strm w => some (.strm w)
  | .panel w => some (.panel w)
  | .iterImm w => some (.iter w.j.toNat w.field.toNat w.value)
  | .iterReg w => some (.iter w.j.toNat w.field.toNat (lowWord (g.sreg w.sreg.toNat)))
  | .loop w => some (.loop w)
  | .xgive w => some (.xgive w.tile.toNat w.new.toNat)
  | .xtake w => some (.xtake w.tile.toNat)
  | .xsig w => some (.xsig w.n.toNat w.value.toNat)
  | .xsigBar w => some (.xbar w.n.toNat)
  | .xwait w =>
    some (.xwait w.n.toNat (if w.src then g.sreg (w.value.extractLsb' 8 6).toNat else w.value.setWidth 64))
  | .xend w => some (.xend w.tag)
  | _ => none

def bundleOf (g : Group) (ws : List RawWord) : List BundleWord :=
  ws.filterMap fun w => match w.dec with
    | .ok i => (slotWordOf g i).map fun x => { ix := w.ix, base := w.base, word := x }
    | _ => none

/-- The bundles before the first that fails, and the failure. -/
def takeBundles (e : CheckEnv) (g : Group) : List (List RawWord) → List (List BundleWord) × Option (Nat × Cause × Nat)
  | [] => ([], none)
  | b :: bs =>
    match bundleFailure e b with
    | some f => ([], some f)
    | none =>
      let (r, f) := takeBundles e g bs
      (bundleOf g b :: r, f)

/-- The launch has a level of DOMAIN 2 (R243). -/
def hasPair (r : LaunchRec) : Bool := ((r.levels.take r.nlevels).drop 2).any fun v => v.domain == 2

/-- The scalar registers that an X word reads at hand-off (R225). -/
def xReads : Instr → List Opd
  | .iterReg w => [.s w.sreg.toNat]
  | .xwait w => if w.src then [.s (w.value.extractLsb' 8 6).toNat] else []
  | _ => []

/-- The registers that a failing word reads by R90 have yet to land (R67). -/
def viewPending (g : Group) (r : Run) (ix : Nat) : Bool :=
  let at_ := r.cur + BitVec.ofNat 32 (4 + 4 * ix)
  (viewOpds (r.wordAt at_) (r.wordAt (at_ + 4#32))).any g.pendingOpd

/-- The bundles of an X clause from the run's position on, those that are handed over, and the failure behind them. -/
def handoffBundles (x : Issuer) : List (List RawWord) × List (List BundleWord) × Option (Nat × Cause × Nat) :=
  let r := x.run
  let groups := splitGroups r.hdr (rawWords r .x (hdrCount r.hdr) 16 r.wordIx)
  (groups, takeBundles (checkEnv x.g x.l) x.g groups)

/-- A PAIR clause that this core or launch may not hand over (R93, R243). -/
def pairRefused (x : Issuer) : Bool := hdrHold x.run.hdr && (x.core % 2 == 1 || !hasPair x.l.rec_)

/-- A pending source of the bundles to hand over, or of the word that fails, holds the hand-off up (R67). -/
def handoffWaits (x : Issuer) : Bool :=
  let (groups, bs, f) := handoffBundles x
  let reads := (groups.take bs.length).flatten.flatMap fun w => match w.dec with | .ok i => xReads i | _ => []
  !pairRefused x
    && (reads.any x.g.pendingOpd || (match f with | some (ix, _, _) => viewPending x.g x.run ix | none => false))

/-- Hands over the bundles of an X clause from the run's position on (R92, R220, R225): those before a failure enter
the queue as one clause, and the failure traps. At a full queue the run ends, and the clause enters later, while the group is
not ready (R66). -/
def handoff (s : State) (x : Issuer) : State :=
  let r := x.run
  if pairRefused x then
    -- the trap stands at the first word that would be handed over (R93, R243, DEDUCED, log 19)
    let base := r.wordAt r.pos
    takeTrap s x.core x.sched x.slot r.exec r.pos (some r.cur)
      { Trap.plain .illegalEncoding with
        word := BitVec.ofNat 4 r.wordIx, reason := 0xE#4, words := base ++ r.hdr
        view := oplogView (s.core x.core) x.g x.slot base (r.wordAt (r.pos + 4#32))
                  (r.exec &&& guardMask x.g base (r.wordAt (r.pos + 4#32))) r.exec }
  else
    let (groups, bs, f) := handoffBundles x
    let c := s.core x.core
    if handoffWaits x then s
    else
      let k : XClause :=
        { id := c.nextId, launch := x.g.launch, block := x.g.block, slot := x.slot, hdrOff := r.cur, hdr := r.hdr, bundles := bs
          pair := hdrHold r.hdr, predicted := x.g.predicted.isSome }
      let s := if bs.isEmpty then s else match x.g.predicted with
        | some p => holdItem s x p (.clause k.id)
        | none => s.mapCore x.core Core.tick
      if !bs.isEmpty && decide (8 ≤ c.seqQueue.length) then
        -- the run goes on behind the clause, or at the bundle that fails
        let behind := match f, (nth [] groups bs.length).head? with
          | some _, some w => r.cur + BitVec.ofNat 32 (4 + 4 * w.ix)
          | _, _ => clauseEnd r.cur r.hdr
        suspendRun (setWait s x.core x.slot (.handoff k)) x { r with pos := behind }
      else
      let s := if bs.isEmpty then s else s.mapCore x.core fun c => { c with seqQueue := c.seqQueue ++ [k] }
      match f with
      | none => stepRun s x { r with pos := clauseEnd r.cur r.hdr }
      | some (ix, cause, reason) =>
        let base := r.wordAt (r.cur + BitVec.ofNat 32 (4 + 4 * ix))
        takeTrap s x.core x.sched x.slot r.exec (r.cur + BitVec.ofNat 32 (4 + 4 * ix)) (some r.cur)
          { Trap.plain cause with
            word := BitVec.ofNat 4 ix, chain := r.chained, reason := BitVec.ofNat 4 reason, words := base ++ r.hdr
            view := oplogView c x.g x.slot base (r.wordAt (r.cur + BitVec.ofNat 32 (8 + 4 * ix)))
                      (r.exec &&& guardMask x.g base (r.wordAt (r.cur + BitVec.ofNat 32 (8 + 4 * ix)))) r.exec }

/-- A clause whose hand-off found the queue full enters it once there is room, and its group is no longer held (R220). -/
def enterQueue (s : State) (core slot : Nat) : State :=
  match s.group? core slot with
  | none => s
  | some g =>
    match g.wait with
    | .handoff k =>
      if 8 ≤ (s.core core).seqQueue.length ∨ g.stopped then s
      else
        (setWait s core slot .none).mapCore core fun c =>
          { c with seqQueue := c.seqQueue ++ [k] }
    | _ => s

/-- XCLAUSE_HANDOFF (R220): the run that `sel` names stands in an X clause. -/
def execXclauseHandoff (s : State) : Host.Outcome State Fault Refusal :=
  let t := { s with focus := .group s.sel.core s.sel.sched }
  .next (match issuer t with
    | some x => if hdrClass x.run.hdr == .x && x.g.wait == .none then handoff t x else s
    | none => s)

/-! ## Indices and iterators (R226 to R228) -/

def loopOf (ws : List BundleWord) : Option LoopWord :=
  ws.findSome? fun w => match w.word with | .loop l => some l | _ => none

/-- Counts of the levels a loop uses. -/
def loopCounts (l : LoopWord) : List Nat :=
  (List.range (l.nl.toNat + 1)).map fun k =>
    let c := (l.count.extractLsb' (8 * k) 8).toNat
    if c = 0 then 256 else c

def nestSize : Option LoopWord → Nat
  | none => 1
  | some l => (loopCounts l).foldl (fun n c => n * c) 1

/-- Mixed-radix digits, the first the fastest. -/
def digits : List Nat → Nat → List Nat
  | [], _ => []
  | c :: cs, p => p % c :: digits cs (p / c)

/-- Indices of an issue at nest position p. -/
def indices (l : Option LoopWord) (p : Nat) : List Nat :=
  match l with
  | none => [0, 0, 0, 0]
  | some l =>
    let cs := loopCounts l
    let ds := (digits cs p).mapIdx fun k d => if l.rev.getLsbD k then nth 0 cs k - 1 - d else d
    (ds ++ [0, 0, 0, 0]).take 4

def Iter.zero : Iter := { base := 0#32, strides := [0#32, 0#32, 0#32, 0#32] }

/-- The value of an iterator (R227). -/
def iterValue (its : List Iter) (j : Nat) (ix : List Nat) : Int :=
  let it := nth Iter.zero its j
  let v := (it.strides.zip ix).foldl (fun n p => n + p.1.toInt * (p.2 : Int)) it.base.toInt
  (BitVec.ofInt 32 v).toInt

/-- An ITER write. -/
def iterWrite (its : List Iter) (j field : Nat) (v : Word) : List Iter :=
  let it := nth Iter.zero its j
  setNth its j (if field = 4 then { it with base := v } else { it with strides := setNth it.strides field v })

/-! ## The sides of an issue (R243) -/

/-- A core with the block whose state the issue uses there, and the sequencer's run there. -/
structure Side where
  core : Nat
  b : Block
  run : SeqRun
  deriving DecidableEq, Repr

/-- A partner block that is not there: no tile is its own (R243). -/
def Block.absent (launch index : Nat) : Block :=
  { launch := launch, index := index, slots := [], tiles := [], spadBase := 0, spadSize := 0, rings := [], bars := [], tables := []
    incident := none, lost := false }

/-- The issuing core, and for a PAIR clause the follower with the partner block. -/
def sidesOf (s : State) (core : Nat) (run : SeqRun) : List Side :=
  match (s.core core).block? run.clause.launch run.clause.block with
  | none => []
  | some b =>
    let own : Side := { core := core, b := b, run := run }
    if run.role = .leader then
      let partner := run.clause.block / 2 * 2 + 1
      let p := ((s.core (core + 1)).block? run.clause.launch partner).getD (Block.absent run.clause.launch partner)
      match (s.core (core + 1)).seqRun with
      | some r => [own, { core := core + 1, b := p, run := r }]
      | none => [own]
    else [own]

def slotFormat (l : Launch) (f : Nat) : Word := nth 0#32 l.rec_.formats f

/-- Products per cycle of an element width (Table 6.7). -/
def ppcOf (slot : Word) : Nat := 16 / max 1 (slotBits slot)

/-- What an issue is made of. -/
structure IssueCtx where
  l : Launch
  ws : List BundleWord
  loop : Option LoopWord
  pos : Nat
  ix : List Nat

def issueCtx (l : Launch) (run : SeqRun) : IssueCtx :=
  let ws := nth [] run.clause.bundles run.bundle
  let lp := loopOf ws
  { l := l, ws := ws, loop := lp, pos := run.nestPos, ix := indices lp run.nestPos }

def IssueCtx.mm (c : IssueCtx) : Option (MmWord × Bool) :=
  c.ws.findSome? fun w => match w.word with | .mm m z => some (m, z) | _ => none

/-- The PANEL word that gives operand B: the first one, of a bundle with two, which R225 neither refuses nor orders (DESIGN
CHOICE, log 97). -/
def IssueCtx.panel (c : IssueCtx) : Option PanelWord :=
  c.ws.findSome? fun w => match w.word with | .panel p => some p | _ => none

def IssueCtx.strm (c : IssueCtx) : Option StrmWord :=
  c.ws.findSome? fun w => match w.word with | .strm p => some p | _ => none

/-- The nest position whose indices an SCL word's write uses, when it fires (R235). -/
def sclPos (c : IssueCtx) (w : SclWord) : Option Nat :=
  if w.lead then
    let f := slotFormat c.l w.f.toNat
    let b := slotGroup f / ppcOf f
    if (c.pos + 4) % b = 0 ∧ c.pos + 4 < nestSize c.loop then some (c.pos + 4) else none
  else some c.pos

/-- The byte offset of an SCL read. -/
def sclOffset (run : SeqRun) (c : IssueCtx) (w : SclWord) (p : Nat) : Int :=
  iterValue run.iters w.j.toNat (indices c.loop p)

/-- k-cycle of an issue (R228). -/
def kCycle (c : IssueCtx) : Nat := nth 0 c.ix 0 % 64

/-- The formats and layout of an issue's MM word agree with the open pass. -/
def passMatches (p : Pass) (m : MmWord) (bfmt : BitVec 3) : Bool :=
  p.pair == m.apair.toNat && p.afmt == m.afmt && p.bfmt == bfmt && p.acl == m.acl

/-- The offset of an SCL read fits its tile and its entries (R234). -/
def sclBad (run : SeqRun) (c : IssueCtx) (k : SclWord) : Bool :=
  match sclPos c k with
  | none => false
  | some p =>
    let o := sclOffset run c k p
    let m := metaSize (slotFormat c.l k.f.toNat)
    decide (o % (m : Int) ≠ 0 ∨ o < 0 ∨ 8192 < o + 64 * m)

/-- The checks that a word's own fields and iterators decide (R244, step 1); on a follower every tile it names must be
the partner block's (R243). -/
def wordCheck1 (c : IssueCtx) (d : Side) (w : BundleWord) : Option Cause :=
  let run := d.run
  let follower := run.role == .follower
  let foreign := fun (ts : List Nat) => ts.any fun t => !d.b.tiles.contains t
  match w.word with
  | .mm m _ =>
    let b := match c.panel with | some p => p.bfmt | none => 0#3
    if follower && foreign [2 * m.apair.toNat, 2 * m.apair.toNat + 1] then some .tileState
    else match run.pass with
      | some p => if passMatches p m b then none else some .tileState
      | none => none
  | .scl k =>
    if follower && !k.edge then none
    else if follower && foreign [k.tile.toNat] then some .tileState
    else if sclBad run c k then some .addrRegion else none
  | .strm t =>
    if follower then none
    else
      let v := iterValue run.iters t.j.toNat c.ix
      let first := v + 4 * ((kCycle c / 2 : Nat) : Int)
      let last := first + 4 * ((t.pitch.toNat * 63 : Nat) : Int) + 4
      if v % 4 ≠ 0 then some .addrAlign
      else if first < 0 ∨ (d.b.spadSize : Int) < last then some .addrRegion
      else if t.pitch.toNat % 2 = 0 then some .bankConflict
      else none
  | .panel p =>
    let v := iterValue run.iters p.j.toNat c.ix
    if v < 0 ∨ 127 < v then some .addrRegion else none
  | .xgive t _ => if foreign [t] then some .tileState else none
  | .xtake t => if foreign [t] then some .tileState else none
  | _ => none

/-- The first failing word of step 1, over both cores. -/
def check1 (c : IssueCtx) (sides : List Side) : Option (BundleWord × Cause) :=
  c.ws.findSome? fun w => (sides.findSome? fun d => wordCheck1 c d w).map fun k => (w, k)

/-- The tiles of the pair that an issue reads or writes: at the opening and at the joining step. -/
def pairUsed (run : SeqRun) (m : MmWord) : List Nat :=
  let p := m.apair.toNat
  match run.pass with
  | none => [2 * p, 2 * p + 1]
  | some q => if q.step = 63 then [2 * p, 2 * p + 1] else []

/-- The tiles that a word of an issue reads or writes on a side. -/
def tilesUsed (c : IssueCtx) (d : Side) (w : BundleWord) : List Nat :=
  match w.word with
  | .mm m _ => (if m.as || d.run.role == .follower then [] else [m.atile.toNat]) ++ pairUsed d.run m
  | .scl k =>
    if d.run.role == .follower && !k.edge then []
    else match sclPos c k with | some _ => [k.tile.toNat] | none => []
  | _ => []

/-- The issue conditions of R222 on a side. -/
def conditions (s : State) (c : IssueCtx) (d : Side) : Bool :=
  let k := s.core d.core
  c.ws.all fun w =>
    (tilesUsed c d w).all (fun t => !(k.tile t).land)
      && (match w.word with
          | .xtake t => (k.tile t).owner == 0x20 && !(k.tile t).land
          | .xwait n v => decide (v ≤ k.counter n)
          | .mm m _ => match d.run.pass with
            | none => !d.run.writebacks.any fun b => b.pair == m.apair.toNat
            | some _ => true
          | .xend _ => d.run.role == .follower || decide ((nth [] k.queues 7).length < 16)
          | _ => true)

/-- A slot that holds a group of a block that has not ended. -/
def liveSlotOf (k : Core) (launch block n : Nat) : Bool :=
  match k.group? n with
  | some h => h.launch == launch && h.block == block && !h.ended
  | none => false

/-- The owner checks of R244, step 2, with what R239 asks of an XGIVE. -/
def wordCheck2 (s : State) (c : IssueCtx) (d : Side) (w : BundleWord) : Option Cause :=
  let k := s.core d.core
  if (tilesUsed c d w).any fun t => (k.tile t).owner != 0x20 then some .tileOwner
  else match w.word with
    | .xgive t new =>
      if (k.tile t).owner ≠ 0x20 then some .tileOwner
      else if (match d.run.pass with | some p => p.pair == t / 2 | none => false) then some .tileState
      else if new ≤ 0x1F ∧ !liveSlotOf k d.run.clause.launch d.b.index new then some .tileState
      else none
    | _ => none

def check2 (s : State) (c : IssueCtx) (sides : List Side) : Option (BundleWord × Cause) :=
  c.ws.findSome? fun w => (sides.findSome? fun d => wordCheck2 s c d w).map fun k => (w, k)

/-- The trap of a sequencer fault (R244). -/
def seqTrap (run : SeqRun) (w : BundleWord) (c : Cause) (issue : Nat) : Trap :=
  { Trap.plain c with
    word := BitVec.ofNat 4 w.ix, origin := .sequencer, info := BitVec.ofNat 32 issue, words := w.base ++ run.clause.hdr }

/-! ## Passes (R229 to R233) -/

/-- A element (i, e) (R230). -/
def aElem (s : State) (c : IssueCtx) (lead : Side) (m : MmWord) (bits i e : Nat) : Nat :=
  let k := s.core lead.core
  if m.as then
    match c.strm with
    | some t =>
      -- the sum is formed exactly, its byte first: a value may be below 0 where the byte is not
      let v := iterValue lead.run.iters t.j.toNat c.ix
      let byte := v + 4 * ((t.pitch.toNat * i : Nat) : Int) + ((e * bits / 8 : Nat) : Int)
      elemAt k.spad (lead.b.spadBase + byte.toNat) bits (if bits < 8 then e % (8 / bits) else 0)
    | none => 0
  else elemAt k.tileData (m.atile.toNat * 8192 + 128 * i) bits e

/-- Byte address of accumulator element (i, c) of a pair (R232). -/
def accAddr (acl : Bool) (pair i c : Nat) : Nat :=
  if acl then (2 * pair + c / 32) * 8192 + i * 128 + 4 * (c % 32) else 2 * pair * 8192 + 256 * i + 4 * c

/-- A new pass, seeded from the pair or with +0 (R126, R231). -/
def openPass (k : Core) (m : MmWord) (zero : Bool) (bfmt : BitVec 3) : Pass :=
  { pair := m.apair.toNat, afmt := m.afmt, bfmt := bfmt, acl := m.acl, step := 0
    even := (List.range 4096).map fun n =>
      if zero then Num.zero false else dec .fp32 (k.tileData.nat (accAddr m.acl m.apair.toNat (n / 64) (n % 64)) 4)
    odd := List.replicate 4096 none, rowCap := List.replicate 64 Latch.one, colCap := List.replicate 64 Latch.one }

/-- One product of every cell at a step index (R126). -/
def feed (p : Pass) (op : CellOp) (s : Nat) (as bs : List Num) : Pass :=
  let vs := as.flatMap fun a => bs.map fun b => stepValue op a b
  if s % 2 = 0 then { p with even := p.even.zipWith (fun e v => cellApply op e v) vs }
  else { p with odd := p.odd.zipWith (fun o v => match o with | none => some (rc v) | some x => some (cellApply op x v)) vs }

/-- One MM cycle on a side (R231): latches captured, products fed, and at the 64th step every cell joined. -/
def mmStep (s : State) (c : IssueCtx) (lead d : Side) (m : MmWord) (zero : Bool) (n : Nat) : SeqRun :=
  let k := s.core d.core
  let bw := c.panel.getD { guard := 0#3, j := 0#3, bfmt := 0#3, rsv := 0#15 }
  let af := slotFormat c.l m.afmt.toNat
  let bf := slotFormat c.l bw.bfmt.toNat
  let ppc := ppcOf af
  let p := d.run.pass.getD (openPass k m zero bw.bfmt)
  let p := if p.step * ppc % slotGroup af = 0 then { p with rowCap := lead.run.rows } else p
  let p := if p.step * ppc % slotGroup bf = 0 then { p with colCap := d.run.cols } else p
  let kc := kCycle c
  let panel := (iterValue lead.run.iters bw.j.toNat c.ix).toNat
  let (p, last) := (List.range ppc).foldl (fun (q : Pass × CellOp) j =>
    let e := kc * ppc + j
    let st := q.1.step * ppc + j
    let op := CellOp.ofCode (if st % 2 = 0 then m.ope.toNat else m.opo.toNat)
    let as := (List.range 64).map fun i => elemValue af (aElem s c lead m (slotBits af) i e) (nth Latch.one q.1.rowCap i)
    let bs := (List.range 64).map fun col =>
      elemValue bf (elemAt k.panels (panel * 8192 + 128 * col) (slotBits bf) e) (nth Latch.one q.1.colCap col)
    (feed q.1 op st as bs, op)) (p, CellOp.madd)
  if p.step = 63 then
    { d.run with
      pass := none
      writebacks := d.run.writebacks ++ [{ issue := n, pair := p.pair, acl := p.acl
                                           data := p.even.zipWith (fun e o => BitVec.ofNat 32 (cellJoin last e o)) p.odd }] }
  else { d.run with pass := some { p with step := p.step + 1 } }

/-- The scale entries an SCL word reads (R234). -/
def sclEntries (k : Core) (slot : Word) (tile off : Nat) : List Latch :=
  let m := metaSize slot
  (List.range 64).map fun j => readMeta slot (k.tileData.nat (tile * 8192 + off + j * m) m)

/-! ## Acting of a word -/

/-- Every issue of a run before a place is complete: its writebacks have landed, its signals have acted. -/
def SeqRun.doneBefore (r : SeqRun) (n : Nat) : Bool :=
  r.writebacks.all (fun b => decide (n ≤ b.issue)) && r.signals.all fun g => decide (n ≤ g.1)

/-- The core on which the other side of a PAIR clause runs (R243). -/
def SeqRun.partner? (r : SeqRun) (core : Nat) : Option Nat :=
  match r.role with
  | .own => none
  | .leader => some (core + 1)
  | .follower => some (core - 1)

/-- The other side of the PAIR clause that a core runs. -/
def otherSide (s : State) (core : Nat) : Option SeqRun :=
  (((s.core core).seqRun).bind fun r => r.partner? core).bind fun m => (s.core m).seqRun

/-- Clears LAND of the tiles that nothing earlier of the clause holds back, on the other side of a PAIR clause neither
(R239, R243). -/
def landGives (other : Option SeqRun) (k : Core) : Core :=
  match k.seqRun with
  | none => k
  | some r =>
    let freed := fun (p : Nat × Nat) => r.doneBefore p.2 && other.all fun f => f.doneBefore p.2
    let k := (r.giveLand.filter freed).foldl (fun k p =>
      let x := k.tile p.1
      k.setTile p.1 { x with seqWait := false, land := !x.waits.isEmpty }) k
    { k with seqRun := some { r with giveLand := r.giveLand.filter fun p => !freed p } }

/-- Something of a core's clause has completed: tiles that it has given may be landed, on both sides of a PAIR clause. -/
def landSides (s : State) (core : Nat) : State :=
  let t := s.mapCore core (landGives (otherSide s core))
  match ((s.core core).seqRun).bind fun r => r.partner? core with
  | none => t
  | some m => t.mapCore m (landGives (t.core core).seqRun)

/-- What one word does on a side, from the state before the issue (R223). Of the Y words of a PAIR clause, XSIG at a barrier
and XEND act once, on the leader: R241 has one arrival at a barrier of the issuing group's block, R242 one record, and R243
gives each core its own tiles and counters alone (DEDUCED, log 78). -/
def wordAct (s0 : State) (c : IssueCtx) (lead d : Side) (w : BundleWord) (s : State) : State :=
  let k0 := s0.core d.core
  let n := d.run.issue
  let withRun := fun (f : SeqRun → SeqRun) => s.mapCore d.core fun k => { k with seqRun := k.seqRun.map f }
  match w.word with
  | .mm m z =>
    let r := mmStep s0 c lead d m z n
    withRun fun x => { x with pass := r.pass, writebacks := r.writebacks }
  | .scl q =>
    (match sclPos c q with
     | none => s
     | some p =>
       let src := if q.edge then d.core else lead.core
       let off := (sclOffset lead.run c q p).toNat
       let ls := sclEntries (s0.core src) (slotFormat c.l q.f.toNat) q.tile.toNat off
       withRun fun x => { x with latchWrites := x.latchWrites ++ [{ due := n + 4, col := q.edge, latches := ls }] })
  | .iter j field v => withRun fun x => { x with iters := iterWrite x.iters j field v }
  | .xgive t new =>
    landSides ((s.mapCore d.core fun k =>
      k.setTile t { k0.tile t with owner := new, offer := (k0.tile t).offer || decide (new ≤ 0x1F), land := true
                                   seqWait := true }).mapCore d.core fun k =>
      { k with seqRun := k.seqRun.map fun x => { x with giveLand := x.giveLand ++ [(t, n)] } }) d.core
  | .xsig j v => withRun fun x => { x with signals := x.signals ++ [(n, .add j v)] }
  | .xbar j => if d.run.role = .follower then s else withRun fun x => { x with signals := x.signals ++ [(n, .bar j)] }
  | .xend tag => if d.run.role = .follower then s else withRun fun x => { x with signals := x.signals ++ [(n, .done tag)] }
  | _ => s

/-- The latch writes that land at or before an issue count (R235). -/
def landLatches (r : SeqRun) : SeqRun :=
  let now := r.latchWrites.filter fun w => w.due ≤ r.issue
  let r := { r with latchWrites := r.latchWrites.filter fun w => r.issue < w.due }
  now.foldl (fun r w => if w.col then { r with cols := w.latches } else { r with rows := w.latches }) r

/-- The nest moves on: to the next position, or past the bundle (R226). -/
def advanceNest (c : IssueCtx) (r : SeqRun) : SeqRun :=
  let r := { r with issue := r.issue + 1 }
  if r.nestPos + 1 < nestSize c.loop then { r with nestPos := r.nestPos + 1 } else { r with nestPos := 0, bundle := r.bundle + 1 }

/-- An issue writes state that others see (09 R332). -/
def issueWrites (c : IssueCtx) (run : SeqRun) : Bool :=
  c.ws.any fun w => match w.word with
    | .mm _ _ => (match run.pass with | some p => p.step == 63 | none => false)
    | .xgive _ _ => true | .xtake _ => true | .xsig _ _ => true | .xbar _ => true | .xend _ => true
    | _ => false

def setSeqRun (s : State) (core : Nat) (f : SeqRun → SeqRun) : State :=
  s.mapCore core fun k => { k with seqRun := k.seqRun.map f }

/-- Marks a clause whose last issue has left a pass open: it faults at its last word, and the pass goes (R233); the fault of a
PAIR clause stands on the leader (R243). -/
def endFault (r : SeqRun) : SeqRun :=
  if r.clause.bundles.length ≤ r.bundle ∧ r.pass.isSome then
    if r.role = .follower then { r with pass := none }
    else match (r.clause.bundles.getLast?).bind fun b => b.getLast? with
    | some w => { r with pass := none, stopped := some (seqTrap r w .tileState (r.issue - 1)) }
    | none => { r with pass := none }
  else r

/-- One issue of a core's sequencer, when it can be made (R222, R223, R244); a launch that is stopping makes none
(10 R359). -/
def seqIssue (s : State) (core : Nat) : State :=
  match (s.core core).seqRun with
  | none => s
  | some run =>
    match s.launch? run.clause.launch with
    | none => s
    | some l =>
      if run.role == .follower || run.stopped.isSome || l.phase != .admitted || decide (run.clause.bundles.length ≤ run.bundle) then s
      else
        let c := issueCtx l run
        let sides := sidesOf s core run
        match check1 c sides with
        | some (w, k) => setSeqRun s core fun r => { r with stopped := some (seqTrap run w k run.issue) }
        | none =>
          if run.clause.predicted && issueWrites c run then s
          else if !sides.all (conditions s c) then s
          else match check2 s c sides with
            | some (w, k) => setSeqRun s core fun r => { r with stopped := some (seqTrap run w k run.issue) }
            | none =>
              let s := sides.foldl (fun s d => setSeqRun s d.core landLatches) s
              let sides := sidesOf s core (((s.core core).seqRun).getD run)
              match sides with
              | [] => s
              | lead :: _ =>
                let t := sides.foldl (fun t d => c.ws.foldl (fun t w => wordAct s c lead d w t) t) s
                sides.foldl (fun t d => setSeqRun t d.core fun r => endFault (advanceNest c r)) t

/-- SEQ_ISSUE (R222). -/
def execSeqIssue (s : State) : Host.Outcome State Fault Refusal := .next (seqIssue s s.sel.core)

/-! ## An X word by itself

A word executes within an issue of its bundle; alone, it does to the sequencer in focus what it does in that issue. -/

/-- The run in focus with its launch. -/
def seqFocus (s : State) : Option (Nat × SeqRun × Launch) :=
  match s.focus with
  | .seq core =>
    (match (s.core core).seqRun with
     | some r => (s.launch? r.clause.launch).map fun l => (core, r, l)
     | none => none)
  | _ => none

/-- Acts one word of the current bundle. -/
def xWord (s : State) (i : Instr) (act : State → IssueCtx → Side → BundleWord → State) : Host.Outcome State Fault Refusal :=
  match seqFocus s with
  | none => .refused .noIssuer
  | some (core, run, l) =>
    let c := issueCtx l run
    let base := nth 0#32 (encode i) 0
    match c.ws.find? (fun w => w.base == base), (s.core core).block? run.clause.launch run.clause.block with
    | some w, some b => .next (act s c { core := core, b := b, run := run } w)
    | _, _ => .refused .noIssuer

/-- A word that acts by itself in `wordAct`. -/
def xPlain (s : State) (i : Instr) : Host.Outcome State Fault Refusal :=
  xWord s i fun s c d w => wordAct s c d d w s

/-! ## What completes later -/

/-- The bytes of a writeback, from the first byte of its pair on (R232). -/
def writebackCells (b : Writeback) : Memory :=
  let words := if b.acl then
      (List.range 4096).map fun k => nth 0#32 b.data (k % 2048 / 32 * 64 + 32 * (k / 2048) + k % 32)
    else b.data
  ((words.flatMap fun w => bytesOfNat 4 w.toNat).mapIdx fun i v => (2 * b.pair * 8192 + i, v)).filter fun c => c.2 ≠ 0#8

/-- The oldest joined pass of a core lands (R231). -/
def landWriteback (s : State) (core : Nat) : State :=
  match (s.core core).seqRun with
  | none => s
  | some r =>
    match r.writebacks with
    | [] => s
    | b :: bs =>
      landSides (s.mapCore core fun k =>
        { k with tileData := k.tileData.splice (2 * b.pair * 8192) 16384 (writebackCells b)
                 seqRun := some { r with writebacks := bs } }) core

/-- PASS_WRITEBACK_LAND (R231). -/
def execPassWritebackLand (s : State) : Host.Outcome State Fault Refusal := .next (landWriteback s s.sel.core)

/-- The oldest signal of a core's clause, when every earlier issue has completed, of a PAIR clause on both sides (R241 to
R243). -/
def nextSignal (s : State) (core : Nat) : Option (SeqRun × SeqSignal) :=
  match (s.core core).seqRun with
  | none => none
  | some r =>
    match r.signals with
    | [] => none
    | (n, g) :: _ =>
      if (r.writebacks.all fun b => decide (n ≤ b.issue)) && (otherSide s core).all fun f => f.doneBefore n then some (r, g)
      else none

def dropSignal (s : State) (core : Nat) : State :=
  landSides (s.mapCore core fun k => { k with seqRun := k.seqRun.map fun r => { r with signals := r.signals.drop 1 } }) core

/-- An engine or sequencer signal at a block barrier (01 R55). -/
def signalBar (k : Core) (launch block n : Nat) : Core :=
  match k.block? launch block with
  | some b => k.arriveBlock b n
  | none => k

/-- XSIG_APPLY (R241). -/
def execXsigApply (s : State) : Host.Outcome State Fault Refusal :=
  .next (match nextSignal s s.sel.core with
    | some (_, .add n v) => (dropSignal s s.sel.core).mapCore s.sel.core fun k => k.addCounter n (BitVec.ofNat 64 v)
    | some (r, .bar n) => (dropSignal s s.sel.core).mapCore s.sel.core fun k => signalBar k r.clause.launch r.clause.block n
    | _ => s)

/-- Pushes an entry, when the queue has room. -/
def Core.pushQueue (k : Core) (q : Nat) (e : QEntry) : Core :=
  { k with queues := setNth k.queues q (nth [] k.queues q ++ [e]) }

def Core.queueFull (k : Core) (q : Nat) : Bool := decide (16 ≤ (nth [] k.queues q).length)

/-- The Q7 record of an XEND (R242). -/
def xendRecord (slot : Nat) (tag : BitVec 21) : DWord := BitVec.ofNat 64 (tag.toNat + slot % 64 * 2 ^ 24)

/-- XEND_PUSH (R242). -/
def execXendPush (s : State) : Host.Outcome State Fault Refusal :=
  .next (match nextSignal s s.sel.core with
    | some (r, .done tag) =>
      if (s.core s.sel.core).queueFull 7 then s
      else (dropSignal s s.sel.core).mapCore s.sel.core fun k => k.pushQueue 7
        { launch := r.clause.launch, block := r.clause.block, slot := r.clause.slot, id := 0, value := xendRecord r.clause.slot tag }
    | _ => s)

/-! ## Starting and retiring clauses (R221, R243, 09 R334) -/

def SeqRun.fresh (c : XClause) (role : PairRole) : SeqRun :=
  { clause := c, bundle := 0, nestPos := 0, issue := 0, iters := List.replicate 8 Iter.zero
    rows := List.replicate 64 Latch.one, cols := List.replicate 64 Latch.one, latchWrites := [], pass := none
    writebacks := [], signals := [], giveLand := [], stopped := none, role := role }

/-- A PAIR clause of the leader waits for the follower's sequencer. -/
def pairAhead (s : State) (core : Nat) : Bool := core % 2 == 1 && (s.core (core - 1)).seqQueue.any fun c => c.pair

/-- The launch of a clause is not stopping, so that the clause may begin (10 R359). -/
def mayBegin (s : State) (c : XClause) : Bool :=
  match s.launch? c.launch with
  | some l => l.phase == .admitted
  | none => true

/-- SEQ_CLAUSE_START (09 R334). A clause that runs no longer takes one of the 8 entries of the queue (R220 does not say;
DESIGN CHOICE, log 61). -/
def execSeqClauseStart (s : State) : Host.Outcome State Fault Refusal :=
  let core := s.sel.core
  let k := s.core core
  .next (match k.seqRun, k.seqQueue with
    | none, c :: cs =>
      if c.pair || pairAhead s core || !mayBegin s c then s
      else s.setCore core { k with seqQueue := cs, seqRun := some (.fresh c .own) }
    | _, _ => s)

/-- PAIR_CLAUSE_START (R243). -/
def execPairClauseStart (s : State) : Host.Outcome State Fault Refusal :=
  let core := s.sel.core
  let k := s.core core
  let f := s.core (core + 1)
  .next (match k.seqRun, k.seqQueue, f.seqRun with
    | none, c :: cs, none =>
      if c.pair && core % 2 == 0 && mayBegin s c then
        (s.setCore core { k with seqQueue := cs, seqRun := some (.fresh c .leader) }).setCore (core + 1)
          { f with seqRun := some (.fresh c .follower) }
      else s
    | _, _, _ => s)

/-- A run with nothing left to issue, land or signal. -/
def SeqRun.drained (r : SeqRun) : Bool :=
  decide (r.clause.bundles.length ≤ r.bundle) && r.stopped.isNone && r.writebacks.isEmpty && r.signals.isEmpty
    && r.giveLand.isEmpty

/-- SEQ_CLAUSE_RETIRE (09 R334): both sides of a PAIR clause retire together. A predicted clause that has come to its end has
written nothing, and retires like another (09 R332). -/
def execSeqClauseRetire (s : State) : Host.Outcome State Fault Refusal :=
  let core := s.sel.core
  .next (match (s.core core).seqRun with
    | none => s
    | some r =>
      if !r.drained then s
      else match r.role with
        | .own => s.mapCore core fun k => { k with seqRun := none }
        | .leader =>
          (match (s.core (core + 1)).seqRun with
           | some f =>
             if f.drained then
               (s.mapCore core fun k => { k with seqRun := none }).mapCore (core + 1) fun k => { k with seqRun := none }
             else s
           | none => s.mapCore core fun k => { k with seqRun := none })
        | .follower => s)

/-- RETT `.xdrop` abandons the stopped clause: its pass goes, and what has been joined still lands (R244). -/
def abandonClause (r : SeqRun) : SeqRun :=
  { r with stopped := none, pass := none, bundle := r.clause.bundles.length, latchWrites := [] }

/-! ## The instructions -/

/-- LOOP by itself (R226): the nest of the bundle moves on. -/
def xLoop (s : State) (i : Instr) : Host.Outcome State Fault Refusal :=
  xWord s i fun s c d _ => setSeqRun s d.core (advanceNest c)

/-- MM (R231). -/
def execMm (w : MmWord) (s : State) : Host.Outcome State Fault Refusal :=
  xPlain s (.mm w)

/-- MMZ (R231). -/
def execMmz (w : MmWord) (s : State) : Host.Outcome State Fault Refusal :=
  xPlain s (.mmz w)

/-- SCL (R234). -/
def execScl (w : SclWord) (s : State) : Host.Outcome State Fault Refusal :=
  xPlain s (.scl w)

/-- STRM (R237). The word names where the issue's MM reads operand A. -/
def execStrm (w : StrmWord) (s : State) : Host.Outcome State Fault Refusal :=
  xPlain s (.strm w)

/-- PANEL (R238). The word names the panel that the issue's MM reads. -/
def execPanel (w : PanelWord) (s : State) : Host.Outcome State Fault Refusal :=
  xPlain s (.panel w)

/-- ITER_IMM (R227). -/
def execIterImm (w : IterWord) (s : State) : Host.Outcome State Fault Refusal :=
  xPlain s (.iterImm w)

/-- ITER_REG (R227). -/
def execIterReg (w : IterWord) (s : State) : Host.Outcome State Fault Refusal :=
  xPlain s (.iterReg w)

/-- LOOP (R226). The issue over, the nest moves on. -/
def execLoop (w : LoopWord) (s : State) : Host.Outcome State Fault Refusal :=
  xLoop s (.loop w)

/-- XGIVE (R239). -/
def execXgive (w : XgiveWord) (s : State) : Host.Outcome State Fault Refusal :=
  xPlain s (.xgive w)

/-- XTAKE (R240). The word is an issue condition. -/
def execXtake (w : XtakeWord) (s : State) : Host.Outcome State Fault Refusal :=
  xPlain s (.xtake w)

/-- XSIG (R241). -/
def execXsig (w : XsigWord) (s : State) : Host.Outcome State Fault Refusal :=
  xPlain s (.xsig w)

/-- XSIG_BAR (R241). -/
def execXsigBar (w : XsigWord) (s : State) : Host.Outcome State Fault Refusal :=
  xPlain s (.xsigBar w)

/-- XWAIT (R241). The word is an issue condition. -/
def execXwait (w : XwaitWord) (s : State) : Host.Outcome State Fault Refusal :=
  xPlain s (.xwait w)

/-- XEND (R242). -/
def execXend (w : XendWord) (s : State) : Host.Outcome State Fault Refusal :=
  xPlain s (.xend w)

end Sys2Proof.Machine
end

