-- ==== Sys2Proof/Machine/Attention.lean ====
section
/-! DEFINITION. The attention instructions (07 R288 to R291): the online softmax step SMXUP and the fold AMERGE. -/

namespace Sys2Proof.Machine

/-! ## SMXUP (R289) -/

/-- 2^(x − y) in a format, for FP32 patterns x and y with y finite; 2^−∞ is 0. -/
def expDiff (f : FFmt) (x y : Nat) : Nat :=
  match dec .fp32 x, dec .fp32 y with
  | .inf true, _ => 0
  | a, b =>
    match Num.add false a b.neg with
    | .fin s m e =>
      let code := match f with | .fp32 => 0 | .bf16 => 1 | _ => 2
      exp2In f .std (Config.expValue code (BitVec.ofNat 32 x) (BitVec.ofNat 32 y)).toNat s m e
    | _ => f.canonicalNan

/-- What one row gives: m, l and α as FP32 patterns, absent where unchanged, and the row of P. -/
structure SoftRow where
  ml : Option (Nat × Nat)
  alpha : Nat
  p : List Nat

/-- One processed row: scale, scores, m and l as FP32 patterns. -/
def softRow (pf : FFmt) (c : Nat) (scores : List Nat) (m l : Nat) : SoftRow :=
  let ts := scores.map fun x => rnd .fp32 .std (Num.mul (dec .fp32 c) (dec .fp32 x))
  let nan := FFmt.canonicalNan .fp32
  let mn := ts.foldl (fun (best : Nat) t => if (dec .fp32 best).ltz (dec .fp32 t) then t else best) m
  let anyNan := (m :: l :: ts).any fun x => (dec .fp32 x).isNan
  if anyNan || dec .fp32 mn == .inf false then
    { ml := some (nan, nan), alpha := nan, p := ts.map fun _ => pf.canonicalNan }
  else if dec .fp32 mn == .inf true then
    { ml := none, alpha := 0x3F800000, p := ts.map fun _ => 0 }
  else
    let alpha := expDiff .fp32 m mn
    let ps := ts.map fun t => expDiff pf t mn
    let sum := ps.foldl (fun a p => Num.add false a (dec pf p)) (Num.mul (dec .fp32 l) (dec .fp32 alpha))
    { ml := some (mn, rnd .fp32 .std sum), alpha := alpha, p := ps }

/-- Columns of a row as packed pairs, the even column low (03 R107). -/
def packRow : List Nat → List Word
  | a :: b :: xs => BitVec.ofNat 32 (a + b * 2 ^ 16) :: packRow xs
  | _ => []

/-- SMXUP (R288, R289): its outputs land later. -/
def smxup (s : State) (i : Instr) (w : Base) (e : ExtR) : Host.Outcome State Fault Refusal :=
  runInstr s i fun x m =>
    let d := w.d.toNat
    let a := w.a.toNat
    let b := w.b.toNat
    let pf : FFmt := if e.mod.getLsbD 0 then .fp16 else .bf16
    let c := (lowWord (x.g.sreg e.c.toNat)).toNat
    let writes := (lanesOf m).flatMap fun r =>
      let scores := (List.range 64).map fun j => (vget s x (a + r) j).toNat
      let q := softRow pf c scores (vget s x b r).toNat (vget s x (b + 1) r).toNat
      let ml := match q.ml with
        | some v => [(b, r, BitVec.ofNat 32 v.1), (b + 1, r, BitVec.ofNat 32 v.2)]
        | none => []
      ml ++ [(b + 2, r, BitVec.ofNat 32 q.alpha)] ++ (packRow q.p).mapIdx fun k v => (d + r / 2, 32 * (r % 2) + k, v)
    .done ((s.mapGroup x.core x.slot fun g =>
      g.addPend (s.core x.core).nextId (.long x.g.winmap writes none)).mapCore x.core Core.tick)

/-- SMXUP (R289). -/
def execSmxup (w : Base) (x : ExtR) (s : State) : Host.Outcome State Fault Refusal := smxup s (.smxup w x) w x

/-! ## AMERGE (R290, R291) -/

/-- AMERGE: the partial pair must be the group's. -/
def amerge (s : State) (i : Instr) (w : Base) (e : ExtR) : Host.Outcome State Fault Refusal :=
  runInstr s i fun x m =>
    let q := (x.g.sreg w.a.toNat).toNat % 32
    let c := s.core x.core
    let na := e.mod.getLsbD 0
    if (c.tile (2 * q)).owner ≠ x.slot ∨ (c.tile (2 * q + 1)).owner ≠ x.slot then .trap .tileOwner 0 0#32
    else
      let alpha := (List.range 64).map fun l => if na then 0#32 else vget s x w.b.toNat l
      .done ((s.mapGroup x.core x.slot fun g =>
        g.addPend c.nextId (.amerge (siteOf x i) q w.d.toNat alpha na m (e.c.extractLsb' 0 6).toNat x.g.winmap)).mapCore
          x.core Core.tick)

/-- AMERGE (R290). -/
def execAmerge (w : Base) (x : ExtR) (s : State) : Host.Outcome State Fault Refusal := amerge s (.amerge w x) w x

/-- One element of the fold. -/
def foldElem (na : Bool) (alpha o p : Word) : Word :=
  let a := if na then Num.ofInt 1 else dec .fp32 alpha.toNat
  BitVec.ofNat 32 (rnd .fp32 .std (Num.add false (Num.mul (dec .fp32 o.toNat) a) (dec .fp32 p.toNat)))

/-- The fold of every row and the counter addition, at one instant. -/
def foldAll (s : State) (core slot id : Nat) : State :=
  match s.group? core slot with
  | none => s
  | some g =>
    match g.pend? id with
    | some (.amerge _ q oReg alpha na rows ctr win) =>
      let c := s.core core
      if (c.tile (2 * q)).land || (c.tile (2 * q + 1)).land || !g.accessesDone id then s
      else
        let part := c.tileData
        let c := (lanesOf rows).foldl (fun c i => (List.range 64).foldl (fun (c : Core) j =>
          c.vWrite win g.wide (oReg + i) j (foldElem na (nth 0#32 alpha i) (c.vRead win g.wide (oReg + i) j)
            (BitVec.ofNat 32 (part.nat (accAddr false q i j) 4)))) c) c
        ((s.setCore core c).mapGroup core slot fun g => g.dropPend id).mapCore core fun c => c.addCounter ctr 1#64
    | _ => s

/-- AMERGE_FOLD (R290). -/
def execAmergeFold (s : State) : Host.Outcome State Fault Refusal := .next (foldAll s s.sel.core s.sel.slot s.sel.id)

end Sys2Proof.Machine
end

