-- ==== Sys2Proof/Machine/Move.lean ====
section
/-! DEFINITION. Compare, select, predicate logic, moves and addresses of class V (04 R146 to R152). -/

namespace Sys2Proof.Machine

/-- A source of a compare at issue: its values, or the register when it is pending (02 R67). -/
def cmpSrc (s : State) (x : Issuer) (wide scalar : Bool) (n : Nat) : CmpSrc :=
  if x.g.pendingOpd (opd scalar n (if wide then 2 else 1)) then .reg scalar n
  else .vals ((List.range x.g.width).map fun l => BitVec.ofNat 64 (srcPattern s x wide scalar n l))

def CmpSrc.isPending : CmpSrc → Bool
  | .reg _ _ => true
  | _ => false

def CmpSrc.at : CmpSrc → Nat → Nat
  | .vals vs, l => (nth 0#64 vs l).toNat
  | .reg _ _, _ => 0

/-- The predicate of a compare whose sources have all been read: each lane's, or in the scalar form one result for
every lane of `lanes` (R140, R147). -/
def PendingCmp.result (k : PendingCmp) : LaneMask :=
  let f := fun l => cmpResult (FpMode.ofWord k.mode) k.float k.type.toNat k.cond (k.a.at l) (k.b.at l)
  if k.scalar then allIf (f (elect k.lanes)) else maskBy f

/-- ICMP and FCMP (R146, R147): at once, or when the pending sources have landed. -/
def compare (s : State) (i : Instr) (w : Base) (e : ExtRI) (float : Bool) : Host.Outcome State Fault Refusal :=
  runInstr s i fun x m =>
    let (t, sd, sa) : BitVec 5 × Bool × Bool := match e with | .r y => (y.type, y.sd, y.sa) | .i y => (y.type, y.sd, y.sa)
    let wide := wideType t.toNat
    let b := match e with
      | .r y => cmpSrc s x wide y.sb w.b.toNat
      | .i y => .vals ((List.range x.g.width).map fun _ => BitVec.ofNat 64 (immPattern t.toNat y.imm))
    let k : PendingCmp :=
      { float := float, type := t, cond := (w.d.extractLsb' 3 4).toNat, pred := (w.d.extractLsb' 0 3).toNat, scalar := sd
        lanes := if sd then x.run.exec else m, a := cmpSrc s x wide sa w.a.toNat, b := b, mode := x.g.modeNow
        win := x.g.winmap }
    if k.a.isPending || k.b.isPending then
      .done ((s.mapGroup x.core x.slot fun g => g.addPend (s.core x.core).nextId (.cmp k)).mapCore x.core Core.tick)
    else .done (s.mapGroup x.core x.slot fun g => g.setP k.pred k.lanes k.result)

/-- SEL (R148): in the scalar form the predicate of the elected lane chooses. -/
def select (s : State) (i : Instr) (w : Base) (e : ExtR) : Host.Outcome State Fault Refusal :=
  runInstr s i fun x m =>
    let v := srcR s x w e
    let p := x.g.pred (e.c.extractLsb' 0 3).toNat
    .done (putResult s x m v.sd w.d.toNat v.type fun l => if p.getLsbD l then v.a l else v.b l)

/-- PLOP (R149). -/
def plop (s : State) (i : Instr) (w : Base) (e : ExtR) : Host.Outcome State Fault Refusal :=
  runInstr s i fun x m =>
    let a := x.g.pred (w.a.extractLsb' 0 3).toNat
    let b := x.g.pred (w.b.extractLsb' 0 3).toNat
    let r := maskBy fun l => plopBit (e.mod.toNat % 16) (a.getLsbD l) (b.getLsbD l)
    .done (s.mapGroup x.core x.slot fun g => g.setP (w.d.extractLsb' 0 3).toNat m r)

/-- MOVI (R76, R151): every active lane, or the scalar destination, whose high half `.hi` writes. -/
def moveImm (s : State) (i : Instr) (w : Base) (imm : Word) : Host.Outcome State Fault Refusal :=
  runInstr s i fun x m =>
    let d := w.d.toNat
    if w.a.getLsbD 0 then
      .done (sset s x d (if w.a.getLsbD 2 then imm ++ lowWord (x.g.sreg d) else imm.signExtend 64))
    else .done (vsets s x ((lanesOf m).map fun l => (d, l, imm)))

/-- LEA (R152): B is one 32-bit signed register whatever the type. -/
def lea (s : State) (i : Instr) (w : Base) (e : ExtRI) : Host.Outcome State Fault Refusal :=
  runInstr s i fun x m =>
    let v := srcOf s x w e
    let n := typeBits v.type
    let r := fun l => match e with
      | .i _ => (v.a l + v.b l) % 2 ^ n
      | .r y => wrapInt ((v.a l : Int) + readInt true 32 (val32 s x y.sb w.b.toNat l).toNat * (2 ^ (y.mod.toNat % 4) : Int)) n
    .done (putResult s x m v.sd w.d.toNat v.type r)

/-- ICMP (R147). -/
def execIcmp (w : Base) (x : ExtRI) (s : State) : Host.Outcome State Fault Refusal :=
  compare s (.icmp w x) w x false

/-- FCMP (R147). -/
def execFcmp (w : Base) (x : ExtRI) (s : State) : Host.Outcome State Fault Refusal :=
  compare s (.fcmp w x) w x true

/-- SEL (R148). -/
def execSel (w : Base) (x : ExtR) (s : State) : Host.Outcome State Fault Refusal :=
  select s (.sel w x) w x

/-- PLOP (R149). -/
def execPlop (w : Base) (x : ExtR) (s : State) : Host.Outcome State Fault Refusal :=
  plop s (.plop w x) w x

/-- MOV (R150). Short form (R69). -/
def execMov (w : Base) (s : State) : Host.Outcome State Fault Refusal :=
  laneOp s (.mov w) w (.r (shortR 8)) fun _ v l => v.a l

/-- MOV (R150). -/
def execMovLong (w : Base) (x : ExtR) (s : State) : Host.Outcome State Fault Refusal :=
  laneOp s (.movLong w x) w (.r x) fun _ v l => v.a l

/-- MOVI (R151). -/
def execMovi (w : Base) (imm : Word) (s : State) : Host.Outcome State Fault Refusal :=
  moveImm s (.movi w imm) w imm

/-- LEA (R152). Short form (R69). -/
def execLea (w : Base) (s : State) : Host.Outcome State Fault Refusal :=
  lea s (.lea w) w (.r (shortR 3))

/-- LEA (R152). -/
def execLeaLong (w : Base) (x : ExtRI) (s : State) : Host.Outcome State Fault Refusal :=
  lea s (.leaLong w x) w x

end Sys2Proof.Machine
end

