-- ==== Sys2Proof/Machine/Route.lean ====
section
/-! DEFINITION. Routing (07 R292 to R300): ROUTE with its reassembly table, the landing of rows in inboxes, returns,
timeouts and completion, RRET, RXWAIT and RXSTAT. -/

namespace Sys2Proof.Machine

/-! ## Tables and destinations -/

def Core.table (c : Core) (t : Nat) : RxTable := nth RxTable.empty c.tables t

def Core.setTable (c : Core) (t : Nat) (x : RxTable) : Core := { c with tables := setNth c.tables t x }

def State.mapTable (s : State) (core t : Nat) (f : RxTable → RxTable) : State :=
  s.mapCore core fun c => c.setTable t (f (c.table t))

/-- The physical table of a block's table n (01 R28). -/
def Block.table (b : Block) (n : Nat) : Nat := (assocGet b.tables n).getD 4

/-- The route table of a launch. -/
def routeOf (s : State) (l : Launch) : Option RouteTable := s.routes.find? fun r => r.id == l.rec_.routeTable

/-- The resident block a destination names, by its index; on another module, which tells its own blocks apart, by its
rank, while that module can be reached (R292, DESIGN CHOICE, log 4). -/
def resident (s : State) (d : RouteDest) : Option Nat :=
  if d.device = s.device.toNat then
    let bs := (s.core d.core).blocks.filter fun b => b.launch == d.launch
    (bs.find? fun b => (bs.filter fun c => c.index < b.index).length == d.rank).map fun b => b.index
  else if unreachable s d.device then none else some d.rank

/-! ## The route vector (R293) -/

def vectorEntry (m : Memory) (a r k : Nat) : DWord := BitVec.ofNat 64 (m.nat (a + 32 * r + 8 * k) 8)

/-- An entry has a reserved bit, an NCH or a destination that the checks refuse. An NCH in entries 1 to 3, which Table 7.11 has 0
and R295 does not name, is refused as a reserved bit is (DESIGN CHOICE, log 101). -/
def entryBad (dests : List RouteDest) (k : Nat) (v : DWord) : Bool :=
  v.extractLsb' 43 21 != 0 || (if k = 0 then decide (4 < (v.extractLsb' 40 3).toNat) else v.extractLsb' 40 3 != 0)
    || !dests.any fun d => d.id == (v.extractLsb' 32 8).toNat

/-- The rows of a vector; none where an entry is refused. -/
def readVector (m : Memory) (a : Nat) (dests : List RouteDest) : Option (List RxRow) :=
  if (List.range 64).any (fun r => (List.range 4).any fun k => entryBad dests k (vectorEntry m a r k)) then none
  else some ((List.range 64).map fun r =>
    let es := (List.range 4).map fun k =>
      let v := vectorEntry m a r k
      ((v.extractLsb' 32 8).toNat, v.extractLsb' 0 32)
    let n := ((vectorEntry m a r 0).extractLsb' 40 3).toNat
    { nch := n, entries := es
      choices := (es.take n).map fun e =>
        { dest := e.1, weight := e.2, status := 0, pending := false, redirected := false, device := 0, core := 0
          launch := 0, block := 0, row := [] } })

/-! ## ROUTE (R295) -/

/-- The fault of an elected lane, with the operands A and B that the instruction read (10 R348). -/
def routeFault (x : Issuer) (i : Instr) (lane : Nat) (c : Cause) (d : Nat) (addr a b : DWord) : LateFault :=
  { lane := lane, cause := c, detail := d, addr := addr, site := siteOf x i, a := a, b := b, data := [] }

/-- ROUTE: a parked one changes nothing; else the table is OPEN from here on. -/
def route (s : State) (i : Instr) (w : Base) (e : ExtR) : Host.Outcome State Fault Refusal :=
  runInstr s i fun x m =>
    let a := x.g.sreg w.a.toNat
    let o := (x.g.sreg w.b.toNat).toNat
    let inTile := a.toNat % 64
    let p := a.toNat / 64 % 32
    let c := s.core x.core
    let t := x.b.table (e.mod.extractLsb' 0 2).toNat
    let fault := fun d => doneOrGone (faultLanes s x [routeFault x i (elect m) .routeFault d 0#64 a (x.g.sreg w.b.toNat)]) x
    if [inTile, 2 * p, 2 * p + 1].any fun n => (c.tile n).owner != x.slot then .trap .tileOwner 0 0#32
    else if (c.table t).open_ then fault 1
    else if inTile / 2 = p ∨ a.toNat / 2 ^ 11 ≠ 0 ∨ o % 32 ≠ 0 ∨ x.b.spadSize < o + 2048 then fault 2
    else if x.g.storeBefore c.nextId x.core (x.b.spadBase + o) 2048 then .stall
    else match routeOf s x.l with
      | none => fault 2
      | some rt =>
        match readVector c.spad (x.b.spadBase + o) rt.dests with
        | none => fault 2
        | some rows =>
          let y := c.table t
          let y := { y with
            used := true, open_ := true, dispatched := false, launch := x.l.id, block := x.b.index, slot := x.slot
            mark := c.nextId, pair := p, inTile := inTile, gen := y.gen + 1#32, rows := rows, bf16 := e.type == 11
            ctr := (e.c.extractLsb' 0 6).toNat, res := e.mod.getLsbD 2, policyNext := rt.next, timeout := rt.timeout
            start := 0, timedOut := false, dests := rt.dests }
          .done (s.setCore x.core ((c.setTable t y).tick))

/-- ROUTE (R295). -/
def execRoute (w : Base) (x : ExtR) (s : State) : Host.Outcome State Fault Refusal := route s (.route w x) w x

/-- A token (Table 7.13). -/
def tokenOf (dev : Byte) (core t r k : Nat) (gen : Word) : DWord :=
  BitVec.ofNat 64 (dev.toNat + core * 2 ^ 8 + t * 2 ^ 17 + r * 2 ^ 19 + k * 2 ^ 25 + gen.toNat * 2 ^ 27)

/-- What dispatch carries along: rows sent per destination, spares used by row and entry, the messages. -/
structure Dispatch where
  counts : NatMap
  used : List (Nat × Nat)
  out : List RowMsg

def findDest (ds : List RouteDest) (id : Nat) : Option RouteDest := ds.find? fun d => d.id == id

/-- Sends a row to a destination, if its block is resident and below CAP. -/
def sendRow (s : State) (core t : Nat) (x : RxTable) (q : Dispatch) (r k dest : Nat) : Option (Dispatch × RouteDest × Nat) :=
  match findDest x.dests dest with
  | none => none
  | some d =>
    match resident s d with
    | none => none
    | some b =>
      if d.cap ≤ q.counts.get dest then none
      else
        let row := (s.core core).tileData.bytes (x.inTile * 8192 + 128 * r) 128
        some ({ q with counts := q.counts.set dest (q.counts.get dest + 1)
                       out := q.out ++ [{ link := rowLink s core d.device d.core, srcCore := core, device := d.device, core := d.core, launch := d.launch, block := b
                                          ring := d.ring, token := tokenOf s.device core t r k x.gen, dest := dest, row := row }] },
              d, b)

/-- The choice as a sent row leaves it. -/
def sentChoice (y : RxChoice) (dest : Nat) (d : RouteDest) (b : Nat) (redirected : Bool) : RxChoice :=
  { y with dest := dest, status := 0, pending := true, redirected := redirected, device := d.device, core := d.core
           launch := d.launch, block := b }

/-- Dispatches choice (r, k) (R295). -/
def dispatchOne (s : State) (core t : Nat) (x : RxTable) (q : Dispatch) (r k : Nat) (row : RxRow) (y : RxChoice) :
    Dispatch × RxChoice :=
  let there := match findDest x.dests y.dest with | some d => (resident s d).isSome | none => false
  if !there then (q, { y with status := 4 })
  else match sendRow s core t x q r k y.dest with
    | some (q, d, b) => (q, sentChoice y y.dest d b false)
    | none =>
      if !x.policyNext then (q, { y with status := 1 })
      else
        let spares := ((List.range 4).drop row.nch).filter fun j => !q.used.contains (r, j)
        match spares.findSome? fun j => (sendRow s core t x q r k (nth (0, 0#32) row.entries j).1).map fun z => (j, z) with
        | some (j, q, d, b) => ({ q with used := (r, j) :: q.used }, sentChoice y (nth (0, 0#32) row.entries j).1 d b true)
        | none => (q, { y with status := 1 })

/-- One pass over the rows for choice number k. -/
def dispatchPass (s : State) (core t : Nat) (x : RxTable) (k : Nat) : Nat → List RxRow → Dispatch → Dispatch × List RxRow
  | _, [], q => (q, [])
  | r, row :: rows, q =>
    let (q, row) := match row.choices[k]? with
      | none => (q, row)
      | some y =>
        let (q, y) := dispatchOne s core t x q r k row y
        (q, { row with choices := setNth row.choices k y })
    let (q, rows) := dispatchPass s core t x k (r + 1) rows q
    (q, row :: rows)

/-- A tile goes back to a group's slot with OFFER 1 and LAND 0; it stays where it is when the group has ended. -/
def giveBack (c : Core) (launch block slot t : Nat) : Core :=
  if liveSlotOf c launch block slot then
    c.setTile t { c.tile t with owner := slot, offer := true, land := false, waits := [], seqWait := false }
  else c

/-- Steps 2 to 4 of ROUTE (R295). -/
def dispatchTable (s : State) (core t : Nat) : State :=
  let c := s.core core
  let x := c.table t
  if !x.open_ || x.dispatched || [x.inTile, 2 * x.pair, 2 * x.pair + 1].any (fun n => (c.tile n).land) then s
  else
    let c := [x.inTile, 2 * x.pair, 2 * x.pair + 1].foldl (fun c n => c.setTile n { c.tile n with owner := 0x24, offer := false }) c
    let s := s.setCore core c
    let (q, rows) := (List.range 4).foldl (fun (p : Dispatch × List RxRow) k => dispatchPass s core t x k 0 p.2 p.1)
      ({ counts := [], used := [], out := [] }, x.rows)
    let c := giveBack c x.launch x.block x.slot x.inTile
    { s.setCore core (c.setTable t { x with rows := rows, dispatched := true, start := s.cycle }) with
      rowsOut := s.rowsOut ++ q.out }

/-- ROUTE_DISPATCH (R295). -/
def execRouteDispatch (s : State) : Host.Outcome State Fault Refusal := .next (dispatchTable s s.sel.core s.sel.table)

/-! ## Completion (R298) -/

/-- Element j of a row. -/
def mergeElem (bf16 : Bool) (row : RxRow) (j : Nat) : Word :=
  let f : FFmt := if bf16 then .bf16 else .fp16
  BitVec.ofNat 32 (row.choices.foldl (fun acc y =>
    if !y.pending && (y.status == 0 || y.status == 2) then
      let t := rnd .fp32 .std (Num.mul (dec .fp32 y.weight.toNat) (dec f (nth 0#16 y.row j).toNat))
      rnd .fp32 .std (Num.add false (dec .fp32 acc) (dec .fp32 t))
    else acc) 0)

def RxTable.waiting (x : RxTable) : Bool := x.rows.any fun r => r.choices.any fun y => y.pending

def RxTable.count (x : RxTable) (st : Nat) : Nat :=
  (x.rows.flatMap fun r => r.choices.filter fun y => y.status == st).length

/-- A count in its 8 bits: one above 255 is free (Table 7.14 does not say; DESIGN CHOICE, log 64). -/
def recordCount (n : Nat) : Nat := if n < 256 then n else (Config.wideCount n).toNat

/-- The record of Table 7.14. -/
def routeRecord (x : RxTable) (table : Nat) : DWord :=
  BitVec.ofNat 64 (table + recordCount (x.count 1) * 2 ^ 16 + recordCount (x.count 2) * 2 ^ 24
    + recordCount (x.count 3) * 2 ^ 32 + recordCount (x.count 4) * 2 ^ 40 + x.slot % 256 * 2 ^ 48)

/-- Number by which a block names a physical table. -/
def Block.tableName (b : Block) (t : Nat) : Nat := ((b.tables.find? fun p => p.2 == t).map fun p => p.1).getD 0

/-- Completes a table none of whose choices is pending, when Q6 has room for its record. -/
def completeTable (s : State) (core t : Nat) : State :=
  let c := s.core core
  let x := c.table t
  if !x.open_ || !x.dispatched || x.waiting || (x.res && c.queueFull 6) then s
  else
    let data := (List.range 64).foldl (fun (m : Memory) r => (List.range 64).foldl (fun (m : Memory) j =>
      m.putNat (accAddr false x.pair r j) 4 (mergeElem x.bf16 (nth { nch := 0, entries := [], choices := [] } x.rows r) j).toNat) m)
      c.tileData
    let c := { c with tileData := data }
    let c := giveBack (giveBack c x.launch x.block x.slot (2 * x.pair)) x.launch x.block x.slot (2 * x.pair + 1)
    let c := c.setTable t { x with open_ := false }
    let c := c.addCounter x.ctr 1#64
    let name := match c.block? x.launch x.block with | some b => b.tableName t | none => 0
    let c := if x.res then c.pushQueue 6 { launch := x.launch, block := x.block, slot := x.slot, id := 0
                                           value := routeRecord x name } else c
    s.setCore core (mapGroups c fun _ g => if g.wait = .rx t then g.acquire 1 c.nextId else g)

/-- Turns the pending choices that p names into a status. -/
def RxTable.settle (x : RxTable) (st : Nat) (p : RxChoice → Bool) : RxTable :=
  let one := fun (y : RxChoice) => if y.pending && p y then { y with pending := false, status := st } else y
  { x with rows := x.rows.map fun r => { r with choices := r.choices.map one } }

/-- A destination block has ended or cannot be reached: its pending choices become DEST_FAULT on every table. -/
def faultChoices (s : State) (p : RxChoice → Bool) : State :=
  { s with cores := s.cores.map fun q => (q.1, { q.2 with tables := q.2.tables.map fun x => x.settle 4 p }) }

/-- The timer of a table has reached TIMEOUT. -/
def RxTable.late_ (x : RxTable) (now : Nat) : Bool := x.open_ && x.dispatched && decide (x.start + x.timeout ≤ now)

/-- The pending choices of a table whose timer has run out become TIMEOUT. -/
def expireTable (s : State) (core t : Nat) : State :=
  if ((s.core core).table t).late_ s.cycle then
    completeTable (s.mapTable core t fun x => { x.settle 3 fun _ => true with timedOut := true }) core t
  else s

/-- ROUTE_TIMEOUT (R298). -/
def execRouteTimeout (s : State) : Host.Outcome State Fault Refusal := .next (expireTable s s.sel.core s.sel.table)

/-! ## Inboxes (R296) -/

/-- The bytes of an inbox slot: the row, the token, the destination id, zeros. -/
def inboxBytes (m : RowMsg) : List Byte :=
  (m.row ++ List.replicate 128 0#8).take 128 ++ bytesOfNat 8 m.token.toNat ++ [BitVec.ofNat 8 m.dest] ++ List.replicate 119 0#8

/-- The block of a row is held in the image of a pre-empted launch: it comes back with its inbox (R300). -/
def inImage (s : State) (launch block : Nat) : Bool :=
  match s.launch? launch with
  | some l => l.images.any fun m => m.blocks.any fun b => b.index == block
  | none => false

/-- Lands a row in the next free slot of its inbox: none while the inbox is full, or saved with its block. A row for another
module leaves; a row whose block has ended is lost. A row for a ring whose slots are shorter than its two lines, of which no rule
speaks, stays on its way until its table times out (DESIGN CHOICE, log 102). -/
def landRow (s : State) (m : RowMsg) : Option State :=
  if m.device ≠ s.device.toNat then some s
  else match (s.core m.core).block? m.launch m.block, s.launch? m.launch with
    | some b, some l =>
      let d := ringDesc l m.ring
      if d.slots = 0 ∨ d.lines < 2 ∨ ringFree d.slots (b.ring m.ring) = 0 then none
      else
        some (s.mapCore m.core fun c =>
          let at_ := b.spadBase + slotOffset d (b.ring m.ring).1
          { c with spad := c.spad.put at_ (inboxBytes m) }.moveRing l m.block m.ring true)
    | _, _ => if inImage s m.launch m.block then none else some s

/-- An earlier row of the same source is on its way to the same inbox. -/
def rowBehind (s : State) (i : Nat) (m : RowMsg) : Bool :=
  (s.rowsOut.take i).any fun q => q.srcCore == m.srcCore && q.device == m.device && q.core == m.core && q.launch == m.launch
    && q.block == m.block && q.ring == m.ring

/-- INBOX_LANDING (R296): row `index` of those on their way. -/
def execInboxLanding (s : State) : Host.Outcome State Fault Refusal :=
  .next (match s.rowsOut[s.sel.index]? with
    | none => s
    | some m =>
      if rowBehind s s.sel.index m then s
      else match landRow s m with
        | none => s
        | some t => { t with rowsOut := dropIx t.rowsOut s.sel.index })

/-! ## Returns (R297) -/

/-- A return arrives at its table: accepted, or discarded and counted (R297). -/
def arriveReturn (s : State) (m : RetMsg) : State :=
  let tk := m.token.toNat
  let core := tk / 2 ^ 8 % 512
  let t := tk / 2 ^ 17 % 4
  let r := tk / 2 ^ 19 % 64
  let k := tk / 2 ^ 25 % 4
  let gen : Word := BitVec.ofNat 32 (tk / 2 ^ 27)
  let x := (s.core core).table t
  let late := s.mapTable core t fun x => { x with late := x.late + 1#16 }
  match x.rows[r]? with
  | none => late
  | some row =>
    match row.choices[k]? with
    | none => late
    | some y =>
      let from_ := y.device == m.device && y.core == m.core && y.launch == m.launch && y.block == m.block
      if tk / 2 ^ 59 = 0 ∧ x.open_ ∧ x.gen = gen ∧ !x.late_ s.cycle ∧ y.pending ∧ from_ then
        let data := (List.range 64).map fun j => BitVec.ofNat 16 ((nth 0#8 m.row (2 * j)).toNat + 256 * (nth 0#8 m.row (2 * j + 1)).toNat)
        let y := { y with pending := false, status := if y.redirected then 2 else 0, row := data }
        completeTable (s.mapTable core t fun x =>
          { x with rows := setNth x.rows r { row with choices := setNth row.choices k y } }) core t
      else late

/-- ROUTE_RETURN_ARRIVAL (R297): return `index` of those on their way; one for another module leaves. -/
def execRouteReturnArrival (s : State) : Host.Outcome State Fault Refusal :=
  .next (match s.returns[s.sel.index]? with
    | none => s
    | some m =>
      let s' := { s with returns := dropIx s.returns s.sel.index }
      if m.token.toNat % 256 = s.device.toNat then arriveReturn s' m else s')

/-- RRET: pending in class `st` until its row has left the scratchpad. -/
def rret (s : State) (i : Instr) (w : Base) : Host.Outcome State Fault Refusal :=
  runInstr s i fun x m =>
    let token := x.g.sreg w.a.toNat
    let o := x.g.sreg w.b.toNat
    let fault := fun c d => doneOrGone (faultLanes s x [routeFault x i (elect m) c d o token o]) x
    if o.toNat % 128 ≠ 0 then fault .addrAlign 0
    else if x.b.spadSize < o.toNat + 128 then fault .addrRegion 1
    else
      .done ((s.mapGroup x.core x.slot fun g =>
        g.addPend (s.core x.core).nextId (.rret token (x.b.spadBase + o.toNat))).mapCore x.core Core.tick)

/-- RRET (R297). -/
def execRret (w : Base) (x : ExtR) (s : State) : Host.Outcome State Fault Refusal := rret s (.rret w x) w

/-! ## RXWAIT and RXSTAT (R299) -/

/-- RXWAIT: at once on an IDLE table. -/
def rxwait (s : State) (i : Instr) (e : ExtR) : Host.Outcome State Fault Refusal :=
  runInstr s i fun x _ =>
    let c := s.core x.core
    let t := x.b.table (e.mod.extractLsb' 0 2).toNat
    if (c.table t).open_ then .wait (setWait s x.core x.slot (.rx t))
    else .done (s.mapGroup x.core x.slot fun g => g.acquire 1 c.nextId)

/-- RXWAIT (R299). -/
def execRxwait (w : Base) (x : ExtR) (s : State) : Host.Outcome State Fault Refusal := rxwait s (.rxwait w x) x

/-- The value of RXSTAT for a row of a table. -/
def rowStatus (x : RxTable) (r : Nat) : DWord :=
  match x.rows[r]? with
  | none => 0#64
  | some row =>
    BitVec.ofNat 64 (row.nch * 2 ^ 12 + (row.choices.mapIdx fun k y =>
      (if y.pending then 2 ^ (16 + k) else y.status * 2 ^ (3 * k)) + y.dest * 2 ^ (32 + 8 * k)).foldl (· + ·) 0)

/-- The value of RXSTAT for row 64. -/
def tableStatus (x : RxTable) : DWord :=
  BitVec.ofNat 64 (x.late.toNat + (if x.open_ then 2 ^ 16 else 0) + x.gen.toNat * 2 ^ 32)

/-- RXSTAT. -/
def rxstat (s : State) (i : Instr) (w : Base) (e : ExtR) : Host.Outcome State Fault Refusal :=
  runInstr s i fun x m =>
    let r := (x.g.sreg w.b.toNat).toNat
    let t := (s.core x.core).table (x.b.table (e.mod.extractLsb' 0 2).toNat)
    if 64 < r then doneOrGone (faultLanes s x [routeFault x i (elect m) .routeFault 3 0#64 0#64 (x.g.sreg w.b.toNat)]) x
    else .done (sset s x w.d.toNat (if r = 64 then tableStatus t else rowStatus t r))

/-- RXSTAT (R299). -/
def execRxstat (w : Base) (x : ExtR) (s : State) : Host.Outcome State Fault Refusal := rxstat s (.rxstat w x) w x

end Sys2Proof.Machine
end

