-- ==== Sys2Proof/Machine/Control.lean ====
section
/-! DEFINITION. Control instructions of class V (04 R168 to R175) and the predicted arm of a hinted branch
(09 R331). -/

namespace Sys2Proof.Machine

/-- The offset after the instruction at hand: what `advance` leads to (Table 1.8). -/
def afterInstr (x : Issuer) (i : Instr) : Word := x.run.pos + BitVec.ofNat 32 (4 * lenOf i)

/-- Moves the lanes of `taken` to their targets and the other executing lanes past the instruction. -/
def transfer (s : State) (x : Issuer) (i : Instr) (taken : LaneMask) (target : Nat → Word) : State :=
  s.mapGroup x.core x.slot fun g =>
    let g := g.movePcs x.run.exec (afterInstr x i)
    g.setPcs (mapLanes taken (fun l _ => pcWord (target l)) g.pcs)

/-- The byte offset that IMM24 names (R88). -/
def branchTarget (e : ExtC) : Word := BitVec.ofNat 32 (4 * e.imm.toNat)

/-- The lanes a branch moves: each active lane, or every executing lane by the guard of the lowest one (R168). -/
def branchLanes (uniform : Bool) (exec active : LaneMask) : LaneMask :=
  if uniform then (match lowest exec with | some l => if active.getLsbD l then exec else 0#64 | none => 0#64) else active

/-- A hinted uniform branch whose guard is pending leaves the group in predicted mode, its lanes as though lane e had
the hinted guard (R331). -/
def predictBranch (s : State) (x : Issuer) (i : Instr) (w : Base) (e : ExtC) : State :=
  let pt := (w.d.extractLsb' 1 2).toNat == 1
  let s := transfer s x i (if pt then x.run.exec else 0#64) fun _ => branchTarget e
  s.mapGroup x.core x.slot fun g =>
    let p : Predicted :=
      { braPos := x.run.pos, hdrOff := x.run.cur, exec := x.run.exec, lane := elect x.run.exec, pred := w.guard.toNat
        gn := e.gn, hintTaken := pt, taken := branchTarget e, next := afterInstr x i, clauses := 0, before := g.frame
        items := [], matched := false, heldTrap := none, heldAt := 0#32 }
    { g with predicted := some p }

/-- BRA (R168). A second hinted branch waits for the first to resolve: its group is not ready then (R331). -/
def branch (s : State) (i : Instr) (w : Base) (e : ExtC) : Host.Outcome State Fault Refusal :=
  runAlways s i fun x m =>
    if w.d.extractLsb' 1 2 != 0 && decide (w.guard ≠ 0) && x.g.pendingOpd (.p w.guard.toNat) then
      .jump (predictBranch s x i w e)
    else .jump (transfer s x i (branchLanes (w.d.getLsbD 0) x.run.exec m) fun _ => branchTarget e)

/-- CALL (R169): the link is the offset after the CALL's clause. -/
def call (s : State) (i : Instr) (w : Base) (e : ExtC) : Host.Outcome State Fault Refusal :=
  runAlways s i fun x m =>
    let link := afterInstr x i
    let t := if m = 0#64 then s else putResult s x m e.sd w.d.toNat 8 fun _ => link.toNat
    .jump (transfer t x i m fun _ => branchTarget e)

/-- BRI and RET (R170). -/
def branchReg (s : State) (i : Instr) (w : Base) (e : ExtR) : Host.Outcome State Fault Refusal :=
  runAlways s i fun x m => .jump (transfer s x i m fun l => val32 s x e.sa w.a.toNat l)

/-- The lane-fault trap that CONV and EXIT take when a lane is parked; none in a handler (R45, R173). -/
def convergeTrap (x : Issuer) : Option Trap := if x.g.handler.isSome then none else laneFaultTrap x.g

/-- CONV (R173). With an empty active set it changes nothing, as R141 has it, also while a lane is parked (DESIGN CHOICE, log 65). -/
def converge (s : State) (i : Instr) : Host.Outcome State Fault Refusal :=
  runInstr s i fun x _ =>
    match convergeTrap x with
    | some t => .fault t
    | none => .done s

/-- Lanes leave for good, in the handler and in its frame (R47, 10 R345). -/
def Group.exitLanes (g : Group) (m : LaneMask) : Group :=
  let g := g.setLanes m .exited
  { g with lanes := mapLanes m (fun _ _ => .exited) g.lanes }

/-- A group all of whose lanes have exited ends. -/
def endIfExited (s : State) (core slot : Nat) : State :=
  match s.group? core slot with
  | none => s
  | some g => if g.states.all (fun l => l == .exited) then endGroup s core slot else s

/-- EXIT (R171). -/
def exitInstr (s : State) (i : Instr) : Host.Outcome State Fault Refusal :=
  runAlways s i fun x m =>
    match convergeTrap x with
    | some t => .fault t
    | none =>
      let s := transfer s x i 0#64 fun _ => 0#32
      let s := s.mapGroup x.core x.slot fun g => g.exitLanes m
      .jump (endIfExited s x.core x.slot)

/-- LYIELD (R172): the marked lanes yield at the end of the run. -/
def lyield (s : State) (i : Instr) : Host.Outcome State Fault Refusal :=
  runInstr s i fun x m =>
    .done (s.mapCore x.core fun c => c.mapSched x.sched fun k =>
      { k with run := k.run.map fun r => { r with marked := r.marked ||| m } })

/-- The slot that PRIO names may hold the token: a resident group that has not ended, on the same scheduler (R174). -/
def prioTarget (c : Core) (sched slot : Nat) : Option Nat :=
  match c.group? slot with
  | some g => if g.ended || schedOf slot != sched then none else some slot
  | none => none

/-- PRIO (R174). -/
def prio (s : State) (i : Instr) (w : Base) : Host.Outcome State Fault Refusal :=
  runInstr s i fun x _ =>
    .done (s.mapCore x.core fun c => c.mapSched x.sched fun k =>
      match k.holder with
      | some h => if h = x.slot then { k with holder := prioTarget c x.sched w.a.toNat } else k
      | none => { k with holder := prioTarget c x.sched w.a.toNat })

/-- NOP (R175). -/
def nop (s : State) (i : Instr) : Host.Outcome State Fault Refusal := runInstr s i fun _ _ => .done s

/-- BRA (R168). -/
def execBra (w : Base) (x : ExtC) (s : State) : Host.Outcome State Fault Refusal :=
  branch s (.bra w x) w x

/-- BRI (R170). Short form (R69). -/
def execBri (w : Base) (s : State) : Host.Outcome State Fault Refusal :=
  branchReg s (.bri w) w (shortR 0)

/-- BRI (R170). -/
def execBriLong (w : Base) (x : ExtR) (s : State) : Host.Outcome State Fault Refusal :=
  branchReg s (.briLong w x) w x

/-- CALL (R169). -/
def execCall (w : Base) (x : ExtC) (s : State) : Host.Outcome State Fault Refusal :=
  call s (.call w x) w x

/-- RET (R170). Short form (R69). -/
def execRet (w : Base) (s : State) : Host.Outcome State Fault Refusal :=
  branchReg s (.ret w) w (shortR 0)

/-- RET (R170). -/
def execRetLong (w : Base) (x : ExtR) (s : State) : Host.Outcome State Fault Refusal :=
  branchReg s (.retLong w x) w x

/-- CONV (R173). Short form (R69). -/
def execConv (w : Base) (s : State) : Host.Outcome State Fault Refusal :=
  converge s (.conv w)

/-- CONV (R173). -/
def execConvLong (w : Base) (x : ExtR) (s : State) : Host.Outcome State Fault Refusal :=
  converge s (.convLong w x)

/-- LYIELD (R172). Short form (R69). -/
def execLyield (w : Base) (s : State) : Host.Outcome State Fault Refusal :=
  lyield s (.lyield w)

/-- LYIELD (R172). -/
def execLyieldLong (w : Base) (x : ExtR) (s : State) : Host.Outcome State Fault Refusal :=
  lyield s (.lyieldLong w x)

/-- PRIO (R174). Short form (R69). -/
def execPrio (w : Base) (s : State) : Host.Outcome State Fault Refusal :=
  prio s (.prio w) w

/-- PRIO (R174). -/
def execPrioLong (w : Base) (x : ExtR) (s : State) : Host.Outcome State Fault Refusal :=
  prio s (.prioLong w x) w

/-- EXIT (R171). Short form (R69). -/
def execExit (w : Base) (s : State) : Host.Outcome State Fault Refusal :=
  exitInstr s (.exit w)

/-- EXIT (R171). -/
def execExitLong (w : Base) (x : ExtR) (s : State) : Host.Outcome State Fault Refusal :=
  exitInstr s (.exitLong w x)

/-- NOP (R175). Short form (R69). -/
def execNop (w : Base) (s : State) : Host.Outcome State Fault Refusal :=
  nop s (.nop w)

/-- NOP (R175). -/
def execNopLong (w : Base) (x : ExtR) (s : State) : Host.Outcome State Fault Refusal :=
  nop s (.nopLong w x)

end Sys2Proof.Machine
end

