-- ==== Sys2Proof/Machine/KV.lean ====
section
/-! DEFINITION. KV space (07 R269 to R287): K-space accesses with their statuses, draft windows, the Almanac and its
mapping, and the requantisation of a page. -/

namespace Sys2Proof.Machine

/-! ## Contexts, windows and entries -/

def State.kv? (s : State) (id : Nat) : Option KvContext := s.kvs.find? fun k => k.id == id

def State.mapKv (s : State) (id : Nat) (f : KvContext → KvContext) : State :=
  { s with kvs := s.kvs.map fun k => if k.id = id then f k else k }

/-- The KV context of a launch (R269). -/
def kvOf (s : State) (launch : Nat) : Option KvContext :=
  match s.launch? launch with
  | some l => if l.rec_.kvContext = 0 then none else s.kv? l.rec_.kvContext
  | none => none

def KvContext.window (k : KvContext) (w : Nat) : KvWindow :=
  nth { open_ := false, first := 0, count := 0, depth := [], records := [] } k.windows w

def KvContext.setWindow (k : KvContext) (w : Nat) (x : KvWindow) : KvContext := { k with windows := setNth k.windows w x }

def KvWindow.holds (w : KvWindow) (seq : Nat) : Bool := w.open_ && decide (w.first ≤ seq) && decide (seq < w.first + w.count)

/-- Draft depth D(s). -/
def KvWindow.depthOf (w : KvWindow) (seq : Nat) : Nat := w.depth.get (seq - w.first)

/-- Some window holds the sequence. -/
def KvContext.held? (k : KvContext) (seq : Nat) : Bool := k.windows.any fun w => w.holds seq

def KvContext.len (k : KvContext) (seq : Nat) : Nat := k.lens.get seq

def KvContext.entry? (k : KvContext) (seq head page : Nat) : Option KvEntry :=
  k.entries.find? fun e => e.seq == seq && e.head == head && e.page == page

def KvEntry.isAt (e : KvEntry) (seq head page : Nat) : Bool := e.seq == seq && e.head == head && e.page == page

def KvContext.mapEntry (k : KvContext) (seq head page : Nat) (f : KvEntry → KvEntry) : KvContext :=
  { k with entries := k.entries.map fun e => if e.isAt seq head page then f e else e }

/-- The entry becomes UNMAPPED and its page returns to the pool; a requantisation of the page has nothing left to swap. -/
def KvContext.unmap (k : KvContext) (seq head page : Nat) : KvContext :=
  { k with entries := k.entries.filter fun e => !e.isAt seq head page
           requants := k.requants.map fun r => if r.seq = seq ∧ r.head = head ∧ r.page = page then { r with live := false } else r }

/-- Marks a page POISONED (R286). -/
def KvContext.poison (k : KvContext) (seq head page : Nat) : KvContext :=
  k.mapEntry seq head page fun e => if e.state = .unmapped then e else { e with state := .poisoned }

/-- A page of the pool is free (Table 7.1). -/
def KvContext.hasPage (k : KvContext) : Bool := decide (k.entries.length + k.held < k.pool)

/-- A zeroed page in DEFAULT_ENC (R279, R285). -/
def KvContext.alloc (k : KvContext) (seq head page : Nat) (wh : Bool) (win : Nat) : KvContext :=
  { k with entries := k.entries ++
      [{ seq := seq, head := head, page := page, state := .resident, wh := wh, win := win, busy := false, fetch := 0
         enc := k.defaultEnc, elems := [], metas := [], frame := 0 }] }

def slotOfEnc (enc : BitVec 11) : Word := enc.setWidth 32

/-- Index of an element within a page. -/
def KvContext.elemIx (k : KvContext) (plane pos e : Nat) : Nat := (plane * 64 + pos % 64) * k.headDim + e

/-- The exact value of an element of a page (R279). -/
def KvContext.value (k : KvContext) (p : KvEntry) (plane pos e : Nat) : Num :=
  let slot := slotOfEnc p.enc
  let group := (plane * 64 + pos % 64) * (k.headDim / slotGroup slot) + e / slotGroup slot
  elemValue slot (p.elems.get (k.elemIx plane pos e)).toNat (readMeta slot (p.metas.get group))

/-- A value in the element format of a slot without scale (R279, KLD). -/
def toElem (slot : Word) (v : Num) : Nat :=
  match elemKind slot with
  | .flt f => rnd f .std v
  | .int sg w => wrapInt (rndi sg w .rne v) w
  | _ => 0

/-- A value stored into a page of an unscaled encoding: saturated, infinities kept where the encoding has them
(R279, KST). -/
def toPage (slot : Word) (v : Num) : Nat :=
  match elemKind slot, v with
  | .flt f, .inf s => f.withSign s (if f.hasInf then f.infPattern else f.maxFinite)
  | .flt f, v => rndSatNum f v
  | _, v => toElem slot v

/-! ## Coordinates (R273, R277) -/

structure KvCoord where
  plane : Nat
  head : Nat
  seq : Nat
  word : Nat
  pos : Nat

def kvCoord (sel pos : Word) : KvCoord :=
  { plane := (sel.extractLsb' 28 2).toNat, head := (sel.extractLsb' 20 8).toNat, seq := (sel.extractLsb' 0 20).toNat
    word := (pos.extractLsb' 22 8).toNat, pos := (pos.extractLsb' 0 22).toNat }

def KvOp.isStore : KvOp → Bool
  | .kld => false | _ => true

/-- The checks of Table 7.6 that coordinates decide, details 0x01 to 0x05. -/
def kvCheckCoord (k : KvContext) (op : KvOp) (bits : Nat) (tagged : Bool) (sel pos : Word) : Option Nat :=
  let c := kvCoord sel pos
  if sel.extractLsb' 30 2 ≠ 0 ∨ pos.extractLsb' 30 2 ≠ 0 ∨ (c.plane = 2 ∧ !tagged ∧ c.pos ≠ 0) then some 0x01
  else if k.nseq ≤ c.seq then some 0x02
  else if (c.plane < 2 ∧ k.nhead ≤ c.head) ∨ (c.plane = 2 ∧ k.nstate ≤ c.head) then some 0x03
  else if c.plane = 3 ∨ (c.plane = 2 ∧ op = .kst) ∨ (c.plane < 2 ∧ op = .ksts) then some 0x04
  else if (if c.plane = 2 then k.stateElems else k.headDim) * bits / 32 ≤ c.word then some 0x05
  else none

/-- The window that an access is tagged with holds the sequence. -/
def KvContext.mine (k : KvContext) (tag : Option Nat) (seq : Nat) : Bool :=
  match tag with
  | some w => (k.window w).holds seq
  | none => false

/-- The checks that windows and pages decide, details 0x06 to 0x08. -/
def kvCheckState (k : KvContext) (op : KvOp) (tag : Option Nat) (sel pos : Word) : Option Nat :=
  let c := kvCoord sel pos
  if tag.isSome ∧ op.isStore ∧ !k.mine tag c.seq then some 0x06
  else if tag = none ∧ k.held? c.seq ∧ (op = .ksts ∨ (op = .kst ∧ k.len c.seq ≤ c.pos)) then some 0x07
  else match op, k.entry? c.seq c.head (c.pos / 64) with
    | .kst, some e => if slotScale (slotOfEnc e.enc) ≠ 0 then some 0x08 else none
    | _, _ => none

/-! ## Performing one lane (R278 to R280) -/

/-- The last position of the draft range. -/
def KvContext.draftTop (k : KvContext) (seq : Nat) : Nat := min (k.len seq + 255) (k.capacity - 1)

def KvContext.inDraft (k : KvContext) (seq pos : Nat) : Bool :=
  decide (k.len seq ≤ pos) && decide (pos ≤ k.draftTop seq)

/-- Elements of a word, lowest first. -/
def wordElems (bits : Nat) (x : Word) : List Nat := (List.range (32 / bits)).map fun i => x.toNat / 2 ^ (bits * i) % 2 ^ bits

def packElems (bits : Nat) (xs : List Nat) : Word :=
  BitVec.ofNat 32 ((xs.mapIdx fun i x => x * 2 ^ (bits * i)).foldl (· + ·) 0)

/-- The element numbers of a word of a row. -/
def elemNums (bits word : Nat) : List Nat := (List.range (32 / bits)).map fun i => word * (32 / bits) + i

/-- A status is 3, 1, 2, 4 or 0 (Table 7.7); a SECOND_TIER page begins to be fetched. -/
def pageStatus (k : KvContext) (c : KvCoord) : KvContext × Nat × Option KvEntry :=
  match k.entry? c.seq c.head (c.pos / 64) with
  | none => (k, 1, none)
  | some e =>
    match e.state with
    | .unmapped => (k, 1, none)
    | .secondTier => (k.mapEntry c.seq c.head (c.pos / 64) fun e => { e with fetch := 1 }, 2, none)
    | .poisoned => (k, 4, none)
    | .resident => (k, 0, some e)

def stateIx (k : KvContext) (seq slot e : Nat) : Nat := (seq * k.nstate + slot) * k.stateElems + e

/-- The value of a state element that a tagged write at the highest position not above a bound gave (R280). -/
def KvWindow.stateAt (w : KvWindow) (seq slot e below : Nat) : Option (Nat × Word) :=
  (w.records.filter fun r => r.seq == seq && r.slot == slot && decide (r.pos < below)).foldl (fun (best : Option (Nat × Word)) r =>
    match assocGet r.elems e with
    | none => best
    | some v =>
      match best with
      | none => some (r.pos, v)
      | some b => if b.1 ≤ r.pos then some (r.pos, v) else best) none

/-- KLD of one lane: status and data. -/
def kvLoad (k : KvContext) (fmt : Word) (tag : Option Nat) (c : KvCoord) : KvContext × Nat × Word :=
  let bits := slotBits fmt
  let es := elemNums bits c.word
  if c.plane = 2 then
    let val := fun e =>
      let committed := k.committed.get (stateIx k c.seq c.head e)
      match tag with
      | some w => if k.mine tag c.seq then
          (match (k.window w).stateAt c.seq c.head e (c.pos + 1) with | some b => b.2 | none => committed)
        else committed
      | none => committed
    (k, 0, packElems bits (es.map fun e => toElem fmt (dec .fp32 (val e).toNat)))
  else
    let visible := k.len c.seq + (match tag with | some w => if k.mine tag c.seq then (k.window w).depthOf c.seq else 0 | none => 0)
    if visible ≤ c.pos then (k, 3, 0#32)
    else match pageStatus k c with
      | (k, _, some p) => (k, 0, packElems bits (es.map fun e => toElem fmt (k.value p c.plane c.pos e)))
      | (k, st, none) => (k, st, 0#32)

/-- KST of one lane: the context after it and the status. -/
def kvStore (k : KvContext) (fmt : Word) (tag : Option Nat) (c : KvCoord) (data : Word) : KvContext × Nat :=
  let bits := slotBits fmt
  let page := c.pos / 64
  let allowed := match tag with | some _ => k.inDraft c.seq c.pos | none => decide (c.pos < k.capacity)
  if !allowed then (k, 3)
  else
    let k := match tag with
      | some w => if (k.entry? c.seq c.head page).isNone && k.hasPage then k.alloc c.seq c.head page true w else k
      | none => k
    match pageStatus k c with
    | (k, _, some p) =>
      let slot := slotOfEnc p.enc
      let vs := (wordElems bits data).map fun x => toPage slot (elemValue fmt x Latch.one)
      let k := k.mapEntry c.seq c.head page fun p =>
        { p with elems := ((elemNums bits c.word).zip vs).foldl (fun (m : WordMap) x =>
            m.set (k.elemIx c.plane c.pos x.1) (BitVec.ofNat 32 x.2)) p.elems }
      (match tag with
       | some w =>
         let x := k.window w
         k.setWindow w { x with depth := x.depth.set (c.seq - x.first) (max (x.depthOf c.seq) (c.pos - k.len c.seq + 1)) }
       | none => k, 0)
    | (k, st, none) => (k, st)

/-- KSTS of one lane. -/
def kvStateStore (k : KvContext) (fmt : Word) (tag : Option Nat) (c : KvCoord) (data : Word) : KvContext × Nat :=
  let bits := slotBits fmt
  let vs := (elemNums bits c.word).zip ((wordElems bits data).map fun x => BitVec.ofNat 32 (rnd .fp32 .std (elemValue fmt x Latch.one)))
  match tag with
  | none =>
    ({ k with committed := vs.foldl (fun (m : WordMap) x => m.set (stateIx k c.seq c.head x.1) x.2) k.committed }, 0)
  | some w =>
    let x := k.window w
    if !k.inDraft c.seq c.pos then (k, 3)
    else
      let mine := x.records.filter fun r => r.seq == c.seq
      if !mine.any (fun r => r.pos == c.pos) && decide (k.draftStates ≤ (dedup (mine.map fun r => r.pos)).length) then (k, 1)
      else
        let isIt := fun (r : KvRecord) => r.seq == c.seq && r.pos == c.pos && r.slot == c.head
        let rs := if x.records.any isIt then x.records
          else x.records ++ [{ seq := c.seq, pos := c.pos, slot := c.head, elems := [] }]
        let rs := rs.map fun r =>
          if isIt r then { r with elems := vs.foldl (fun m y => assocSet m y.1 y.2) r.elems } else r
        (k.setWindow w { x with records := rs }, 0)

/-! ## KLD, KST and KSTS (R276, R281) -/

def kvLate (site : Site) (l : KvLane) (d : Nat) : LateFault :=
  { lane := l.lane, cause := .kvFault, detail := d, addr := 0#64, site := site, a := l.sel.setWidth 64, b := l.pos.setWidth 64
    data := [l.data] }

/-- A control operation of KV space is pending: what it will change is not known yet. -/
def Group.kvCtlPending (g : Group) : Bool := g.pend.any fun p => match p.op with | .kvCtl _ => true | _ => false

/-- Issues a K-space access. The checks that windows and pages decide are made here unless an operation of the group
that changes them is pending, and again when the access is performed (DEDUCED, log 22). -/
def kvAccess (s : State) (i : Instr) (op : KvOp) (w : Base) (e : ExtM) : Host.Outcome State Fault Refusal :=
  runInstr s i fun x m =>
    match kvOf s x.g.launch with
    | none => .trap .illegalEncoding 0xE 0#32
    | some k =>
      let fmt := nth 0#32 x.l.rec_.formats e.size.toNat
      let tag := if e.off.getLsbD 4 then some (e.off.extractLsb' 0 4).toNat else none
      let site := siteOf x i
      let lanes := (lanesOf m).map fun l =>
        ({ lane := l, sel := val32 s x e.sa w.a.toNat l, pos := vget s x w.b.toNat l
           data := if op.isStore then vget s x w.d.toNat l else 0#32, stage := .issued } : KvLane)
      let check := fun (l : KvLane) =>
        (kvCheckCoord k op (slotBits fmt) tag.isSome l.sel l.pos) <|>
          (if x.g.kvCtlPending then none else kvCheckState k op tag l.sel l.pos)
      let bad := lanes.filterMap fun l => (check l).map fun d => kvLate site l d
      let ok := lanes.filter fun l => (check l).isNone
      let a : KvAccess :=
        { site := site, op := op, ctx := k.id, fmt := fmt, dReg := w.d.toNat, stReg := (e.off.extractLsb' 5 7).toNat
          tag := tag, win := x.g.winmap, scalarSel := e.sa, lanes := ok }
      let s := if ok.isEmpty then s else
        (s.mapGroup x.core x.slot fun g => g.addPend (s.core x.core).nextId (.kv a)).mapCore x.core Core.tick
      doneOrGone (faultLanes s x bad) x

/-- Lands one lane: the status in ST, and for KLD the data in D (R278). -/
def landKv (s : State) (core slot : Nat) (a : KvAccess) (l : KvLane) (st : Nat) (v : Word) : State :=
  match s.group? core slot with
  | none => s
  | some g =>
    s.mapCore core fun c =>
      let c := c.vWrite a.win g.wide a.stReg l.lane (BitVec.ofNat 32 st)
      if a.op.isStore then c else c.vWrite a.win g.wide a.dReg l.lane v

/-- The device address n bytes into a page or a state slot: all of it lies on one die (R272). -/
def kvAddr (base n : Nat) : Nat := homeDie base * 2 ^ 46 + (base + n) % 2 ^ 46

/-- Where the page of coordinates lies, or their state slot. -/
def kvBase (k : KvContext) (c : KvCoord) : Nat :=
  if c.plane = 2 then Config.kvDpa k.id c.seq c.head 65536 0
  else Config.kvDpa k.id c.seq c.head (c.pos / 64) (match k.entry? c.seq c.head (c.pos / 64) with | some e => e.frame | none => 0)

/-- Bytes of a page in an encoding, with its metadata, which lie behind its elements. -/
def pageBytes (k : KvContext) (slot : Word) : Nat :=
  128 * k.headDim * slotBits slot / 8
    + (if slotScale slot = 0 then 0 else 128 * (k.headDim / slotGroup slot) * metaSize slot)

/-- Device addresses of bytes: the first, and how many. -/
abbrev KvSpan := Nat × Nat

/-- The lines of a span. -/
def spanLines (p : KvSpan) : List Nat :=
  if p.2 = 0 then [] else (List.range ((p.1 % 128 + p.2 + 127) / 128)).map fun i => lineOf p.1 + 128 * i

/-- Reads of spans reach their lines' homes (08 R434). -/
def readSpans (s : State) (ps : List KvSpan) : State := (ps.flatMap spanLines).foldl (fun s d => touchL2 s d false) s

/-- Writes of spans reach their lines' homes; a line written whole is poisoned no longer (10 R366). -/
def writeSpans (s : State) (ps : List KvSpan) : State :=
  ps.foldl (fun s p => (spanLines p).foldl (fun s d =>
    touchL2 { s with poisoned := if p.1 ≤ d ∧ d + 128 ≤ p.1 + p.2 then s.poisoned.filter (· ≠ d) else s.poisoned } d true) s) s

/-- A line of a span is poisoned. -/
def spansPoisoned (s : State) (ps : List KvSpan) : Bool := (ps.flatMap spanLines).any s.poisonedAt

/-- Where an entry's page lies in bonded DRAM, and in the second tier of the same die (R271, R285). -/
def bondedBase (k : KvContext) (e : KvEntry) : Nat := Config.kvDpa k.id e.seq e.head e.page e.frame
def tierBase (k : KvContext) (e : KvEntry) : Nat :=
  homeDie (bondedBase k e) * 2 ^ 46 + 2 ^ 45 + Config.kvTier k.id e.seq e.head e.page e.frame % 2 ^ 45

/-- Where an entry's page lies. -/
def pageBase (k : KvContext) (e : KvEntry) : Nat := if e.state = .secondTier then tierBase k e else bondedBase k e

/-- The metadata of n elements of a page from element index i on, where the encoding has some. -/
def metaSpans (k : KvContext) (slot : Word) (base i n : Nat) : List KvSpan :=
  if slotScale slot = 0 then []
  else
    let first := i / slotGroup slot
    let last := (i + n - 1) / slotGroup slot
    [(kvAddr base (128 * k.headDim * slotBits slot / 8 + first * metaSize slot), (last + 1 - first) * metaSize slot)]

/-- The bytes of n elements of a page from element index i on, and of their metadata. -/
def elemSpans (k : KvContext) (slot : Word) (base i n : Nat) : List KvSpan :=
  (kvAddr base (i * slotBits slot / 8), (n * slotBits slot + 7) / 8) :: metaSpans k slot base i n

/-- The bytes that an access's word names (08 R434). -/
def kvSpans (k : KvContext) (fmt : Word) (c : KvCoord) : List KvSpan :=
  let n := 32 / slotBits fmt
  if c.plane = 2 then [(kvAddr (kvBase k c) (4 * (c.word * n)), 4 * n)]
  else match k.entry? c.seq c.head (c.pos / 64) with
    | some p => elemSpans k (slotOfEnc p.enc) (pageBase k p) (k.elemIx c.plane c.pos (c.word * n)) n
    | none => []

/-- The bytes of an entry's page. -/
def pageSpan (k : KvContext) (base : Nat) (slot : Word) : KvSpan := (kvAddr base 0, pageBytes k slot)

/-- A poisoned line under a page that a load reads marks the page POISONED (10 R366). -/
def poisonRead (k : KvContext) (poisoned : Bool) (c : KvCoord) (r : KvContext × Nat × Word) : KvContext × Nat × Word :=
  if poisoned && r.2.1 == 0 then (k.poison c.seq c.head (c.pos / 64), 4, 0#32) else r

/-- The context after a write of one lane, whose bytes reach their homes if its status is 0; a page that it has allocated is
written whole, zeroed (R279). -/
def kvWritten (s : State) (k q : KvContext) (a : KvAccess) (c : KvCoord) (st : Nat) : State :=
  let s := s.mapKv a.ctx fun _ => q
  let s := if (k.entry? c.seq c.head (c.pos / 64)).isNone then
      (match q.entry? c.seq c.head (c.pos / 64) with
       | some e => writeSpans s [pageSpan q (pageBase q e) (slotOfEnc e.enc)]
       | none => s)
    else s
  if st = 0 then writeSpans s (kvSpans q a.fmt c) else s

/-- The access of one lane at the home of its word (R272): the lane parks, or its status and data are given. State has no
page: a load of it that meets a poisoned line parks as any lane's read does (10 R366, DEDUCED, log 22). -/
def kvEffect (s : State) (core slot : Nat) (a : KvAccess) (l : KvLane) : State × Option (Nat × Word) :=
  match s.kv? a.ctx with
  | none => (s, none)
  | some k =>
    match kvCheckState k a.op a.tag l.sel l.pos with
    | some d => (lateFault s core slot (s.core core).nextId (kvLate a.site l d), none)
    | none =>
      let c := kvCoord l.sel l.pos
      let bad := spansPoisoned s (kvSpans k a.fmt c)
      match a.op with
      | .kld =>
        let r := kvLoad k a.fmt (if k.mine a.tag c.seq then a.tag else none) c
        let s := if r.2.1 = 0 then readSpans s (kvSpans k a.fmt c) else s
        if bad && c.plane == 2 then
          (lateFault s core slot (s.core core).nextId { kvLate a.site l 2 with cause := .uncorrectable }, none)
        else
          let (k, st, v) := poisonRead k bad c r
          (s.mapKv a.ctx fun _ => k, some (st, v))
      | .kst =>
        let (q, st) := kvStore k a.fmt a.tag c l.data
        (kvWritten s k q a c st, some (st, 0#32))
      | .ksts =>
        let (q, st) := kvStateStore k a.fmt a.tag c l.data
        (kvWritten s k q a c st, some (st, 0#32))

/-- Performs one lane: parks it, or lands it. -/
def performKvLane (s : State) (core slot : Nat) (a : KvAccess) (l : KvLane) : State :=
  match kvEffect s core slot a l with
  | (s, some (st, v)) => landKv s core slot a l st v
  | (s, none) => s

/-- A KST lane waits while its page is being requantised (R287). -/
def kvBusy (k : KvContext) (a : KvAccess) (l : KvLane) : Bool :=
  a.op == .kst && (let c := kvCoord l.sel l.pos
    match k.entry? c.seq c.head (c.pos / 64) with | some e => e.busy | none => false)

/-- A write to a page, or to state, that is homed on the other die: it crosses the bridge (08 R305). -/
def kvFar (k : KvContext) (core : Nat) (a : KvAccess) (l : KvLane) : Bool :=
  a.op.isStore && homeDie (kvBase k (kvCoord l.sel l.pos)) != dieOf core

/-- Sets the stage of lanes of an access that p names. -/
def KvAccess.stage (a : KvAccess) (p : KvLane → Bool) (g : KvStage) : KvAccess :=
  { a with lanes := a.lanes.map fun l => if p l then { l with stage := g } else l }

/-- Changes a pending access, which ends with its last lane. -/
def Group.setKv (g : Group) (id : Nat) (a : KvAccess) : Group := if a.lanes.isEmpty then g.dropPend id else g.setPend id (.kv a)

/-- Writes that lie at their home on the other die are performed there, but for those to a page that is BUSY, and their
statuses go back. -/
def serveKv (s : State) (core slot id : Nat) (a : KvAccess) (k : KvContext) : State :=
  let now := a.lanes.filter fun l => l.stage == .arrived && !kvBusy k a l
  if now.isEmpty then s
  else
    let step := fun (x : State × List (Nat × Nat) × List Nat) (l : KvLane) =>
      match kvEffect x.1 core slot a l with
      | (s, some (st, _)) => (s, x.2.1 ++ [(l.lane, st)], x.2.2)
      | (s, none) => (s, x.2.1, x.2.2 ++ [l.lane])
    let (s, sts, gone) := now.foldl step (s, [], [])
    let s := s.mapGroup core slot fun g => match g.pend? id with
      | some (.kv a) =>
        g.setKv id { (a.stage (fun l => sts.any fun q => q.1 == l.lane) .answered) with
          lanes := (a.stage (fun l => sts.any fun q => q.1 == l.lane) .answered).lanes.filter fun l => !gone.contains l.lane }
      | _ => g
    if sts.isEmpty then s else sendMsg s (1 - dieOf core) (.ack (.kv core slot id sts))

/-- Writes of a KST or KSTS arrive at the other die. -/
def arriveKv (s : State) (core slot id : Nat) (lanes : List Nat) : State :=
  match (s.group? core slot).bind fun g => g.pend? id with
  | some (.kv a) =>
    let a := a.stage (fun l => lanes.contains l.lane) .arrived
    let s := s.mapGroup core slot fun g => g.setPend id (.kv a)
    (match s.kv? a.ctx with | some k => serveKv s core slot id a k | none => s)
  | _ => s

/-- The statuses of writes on the other die land (R278). -/
def landKvStatuses (s : State) (core slot id : Nat) (sts : List (Nat × Nat)) : State :=
  match (s.group? core slot).bind fun g => g.pend? id with
  | some (.kv a) =>
    let s := sts.foldl (fun s q => match a.lanes.find? fun l => l.lane == q.1 with
      | some l => landKv s core slot a l q.2 0#32
      | none => s) s
    s.mapGroup core slot fun g => g.setKv id { a with lanes := a.lanes.filter fun l => !sts.any fun q => q.1 == l.lane }
  | _ => s

/-- Earlier K-space operations of the group are complete (R272). -/
def Group.kvFirst (g : Group) (id : Nat) : Bool :=
  g.pend.all fun p => decide (id ≤ p.id) || (match p.op with | .kv _ => false | .kvCtl _ => false | _ => true)

/-! ## KOPEN, KCOMMIT, KDROP and KMAP (R282 to R286) -/

def ctlLate (c : KvCtl) (cause : Cause) (d : Nat) (addr : DWord) : LateFault :=
  { lane := c.lane, cause := cause, detail := d, addr := addr, site := c.site, a := c.sel, b := 0#64, data := [] }

/-- Fields of a page selector (R285). -/
def pageSel (v : DWord) : Nat × Nat × Nat :=
  ((v.extractLsb' 0 20).toNat, (v.extractLsb' 20 8).toNat, (v.extractLsb' 28 16).toNat)

/-- The operand checks of a control operation: cause detail. Bits of KOPEN's selector that Table 7.8 has 0 park with detail 0x01,
which it does not name (DESIGN CHOICE, log 95). -/
def ctlCheck (k : KvContext) (c : KvCtl) : Option Nat :=
  let v := c.sel
  match c.op with
  | .kopen =>
    if v.extractLsb' 32 32 ≠ 0 then some 0x01
    else if k.nseq < (v.extractLsb' 0 20).toNat + (v.extractLsb' 20 12).toNat + 1 then some 0x02
    else none
  | .kcommit => none
  | .kdrop => none
  | .len =>
    if v.extractLsb' 20 20 ≠ 0 then some 0x01
    else if k.nseq ≤ (v.extractLsb' 0 20).toNat then some 0x02
    else if k.capacity < (v.extractLsb' 40 24).toNat then some 0x0B
    else none
  | _ =>
    let (seq, head, page) := pageSel v
    if v.extractLsb' 44 20 ≠ 0 then some 0x01
    else if k.nseq ≤ seq then some 0x02
    else if k.nhead ≤ head then some 0x03
    else if k.capacity / 64 ≤ page then some 0x0B
    else none

/-- The checks that windows and entries decide. -/
def ctlCheckState (k : KvContext) (c : KvCtl) : Option Nat :=
  match c.op with
  | .kopen =>
    let first := (c.sel.extractLsb' 0 20).toNat
    let last := first + (c.sel.extractLsb' 20 12).toNat
    if (k.window c.window).open_ || k.windows.any (fun w => w.open_ && decide (w.first ≤ last) && decide (first < w.first + w.count))
    then some 0x09 else none
  | .kcommit => if (k.window c.window).open_ then none else some 0x0A
  | .kdrop => if (k.window c.window).open_ then none else some 0x0A
  | .len => if k.held? (c.sel.extractLsb' 0 20).toNat then some 0x0B else none
  | .free => whPage
  | .evict => whPage
  | _ => none
where
  whPage : Option Nat :=
    let (seq, head, page) := pageSel c.sel
    match k.entry? seq head page with
    | some e => if e.wh then some 0x0B else none
    | none => none

/-- The count bytes of a KCOMMIT `.vec` lie in the block's allocation. -/
def commitBytes (k : KvContext) (b : Block) (c : KvCtl) : Bool :=
  !c.vec || decide (c.sel.toNat + (k.window c.window).count ≤ b.spadSize)

/-- Issues a control operation. -/
def kvCtl (s : State) (i : Instr) (op : KvCtlOp) (w : Base) (e : ExtC) : Host.Outcome State Fault Refusal :=
  runInstr s i fun x m =>
    match kvOf s x.g.launch with
    | none => .trap .illegalEncoding 0xE 0#32
    | some k =>
      let win := match op with | .kopen => true | .kcommit => true | .kdrop => true | _ => false
      let c : KvCtl :=
        { site := siteOf x i, op := op, ctx := k.id, lane := elect m, window := if win then (e.imm.extractLsb' 0 4).toNat else 0
          sel := if e.sa then x.g.sreg w.a.toNat else 0#64, vec := win && e.imm.getLsbD 4, cv := win && e.imm.getLsbD 5
          ctr := (e.imm.extractLsb' 6 6).toNat, n := match op with | .kcommit => (e.imm.extractLsb' 12 8).toNat | _ => 0
          dReg := w.d.toNat, stage := .issued }
      let fault := fun (f : LateFault) => doneOrGone (faultLanes s x [f]) x
      let before := x.g.kvCtlPending
      match (ctlCheck k c) <|> (if before then none else ctlCheckState k c) with
      | some d => fault (ctlLate c .kvFault d 0#64)
      | none =>
        if !before && !commitBytes k x.b c then fault (ctlLate c .addrRegion 4 c.sel)
        else
          .done ((s.mapGroup x.core x.slot fun g => g.addPend (s.core x.core).nextId (.kvCtl c)).mapCore x.core Core.tick)

/-- An entry as `.query` returns it (Table 7.2). -/
def entryValue (k : KvContext) (seq head page : Nat) : DWord :=
  let len := BitVec.ofNat 32 (k.len seq)
  match k.entry? seq head page with
  | none => len ++ 0#32
  | some e =>
    let st : BitVec 2 := match e.state with | .unmapped => 0 | .resident => 1 | .secondTier => 2 | .poisoned => 3
    len ++ (st ++ BitVec.ofBool e.wh ++ (if e.wh then BitVec.ofNat 4 e.win else 0#4) ++ BitVec.ofBool e.busy
      ++ BitVec.ofNat 2 e.fetch ++ 0#11 ++ e.enc)

/-- KOPEN and KMAP: the context after it and what goes to S[D] (R283, R285). -/
def ctlApply (k : KvContext) (c : KvCtl) : KvContext × Nat :=
  let (seq, head, page) := pageSel c.sel
  let e := k.entry? seq head page
  match c.op with
  | .kopen =>
    (k.setWindow c.window { open_ := true, first := seq, count := (c.sel.extractLsb' 20 12).toNat + 1, depth := [], records := [] }, 0)
  | .alloc =>
    if e.isSome then (k, 0) else if k.hasPage then (k.alloc seq head page false 0, 0) else (k, 1)
  | .free => if e.isSome then (k.unmap seq head page, 0) else (k, 1)
  | .fetch =>
    (match e with
     | none => (k, 1)
     | some p => match p.state with
       | .poisoned => (k, 4)
       | .secondTier => (k.mapEntry seq head page fun p => { p with fetch := 1 }, 0)
       | _ => (k, 0))
  | .evict =>
    (match e with
     | none => (k, 1)
     | some p => match p.state with
       | .poisoned => (k, 4)
       | .resident => (k.mapEntry seq head page fun p => { p with state := .secondTier, fetch := 2 }, 0)
       | _ => (k, 0))
  | .len => ({ k with lens := k.lens.set (c.sel.extractLsb' 0 20).toNat (c.sel.extractLsb' 40 24).toNat }, 0)
  | .query => (k, (entryValue k seq head page).toNat)
  | _ => (k, 0)

/-- The page that a `.alloc` zeroes, if it takes one. -/
def allocSpan (k : KvContext) (c : KvCtl) : Option KvSpan :=
  let (seq, head, page) := pageSel c.sel
  if c.op == .alloc && (k.entry? seq head page).isNone && k.hasPage then
    some (pageSpan k (Config.kvDpa k.id seq head page 0) (slotOfEnc k.defaultEnc))
  else none

/-- A KOPEN or KMAP takes effect: the state after it, and what goes to S[D]. -/
def applyCtl (s : State) (k : KvContext) (c : KvCtl) : State × Nat :=
  let (q, v) := ctlApply k c
  (writeSpans (s.mapKv c.ctx fun _ => q) (allocSpan k c).toList, v)

/-- A control operation is complete: its result lands, where it has one. -/
def endCtl (s : State) (core slot id : Nat) (c : KvCtl) (v : Nat) : State :=
  let s := s.mapGroup core slot fun g => g.dropPend id
  match c.op with
  | .kopen => s
  | .kcommit => s
  | .kdrop => s
  | _ => s.mapGroup core slot fun g => g.setS c.dReg (BitVec.ofNat 64 v)

/-- The writes of a control operation set out for the other die (08 R305). -/
def sendCtl (s : State) (core slot id : Nat) (c : KvCtl) (counts : List Nat) : State :=
  sendMsg (s.mapGroup core slot fun g => g.setPend id (.kvCtl { c with stage := .crossing })) (dieOf core) (.kvCtl core slot id counts)

/-- Lands the access or operation that `id` names, after the group's earlier ones. -/
def landKvOp (s : State) (core slot id : Nat) : State :=
  match s.group? core slot with
  | none => s
  | some g =>
    if !g.kvFirst id then s
    else match g.pend? id with
      | some (.kv a) =>
        (match s.kv? a.ctx with
         | none => s
         | some k =>
           let now := fun (l : KvLane) => l.stage == .issued && !kvBusy k a l
           let near := a.lanes.filter fun l => now l && !kvFar k core a l
           let far := a.lanes.filter fun l => now l && kvFar k core a l
           let b := { a.stage (fun l => now l && kvFar k core a l) .crossing with
             lanes := (a.stage (fun l => now l && kvFar k core a l) .crossing).lanes.filter fun l => !near.contains l }
           let s := (near.foldl (fun s l => performKvLane s core slot a l) s).mapGroup core slot fun g => g.setKv id b
           let s := (dedup (far.map fun l => kvBase k (kvCoord l.sel l.pos))).foldl (fun s p =>
             sendMsg s (dieOf core) (.kv core slot id
               ((far.filter fun l => kvBase k (kvCoord l.sel l.pos) == p).map fun l => l.lane))) s
           serveKv s core slot id a k)
      | some (.kvCtl c) =>
        (match c.op, s.kv? c.ctx with
         | .kcommit, _ => s
         | .kdrop, _ => s
         | _, none => s
         | _, some k =>
           if c.stage != .issued then s
           else match ctlCheckState k c with
           | some d => lateFault (s.mapGroup core slot fun g => g.dropPend id) core slot id (ctlLate c .kvFault d 0#64)
           | none =>
             if (allocSpan k c).any fun p => homeDie p.1 != dieOf core then sendCtl s core slot id c []
             else
               let (s, v) := applyCtl s k c
               endCtl s core slot id c v)
      | _ => s

/-- KV_STATUS_LAND (R281). -/
def execKvStatusLand (s : State) : Host.Outcome State Fault Refusal := .next (landKvOp s s.sel.core s.sel.slot s.sel.id)

/-! ## The commit point (R284) -/

/-- Zeroes the elements of the positions of a range in one page. -/
def zeroDrafts (k : KvContext) (lo hi : Nat) (e : KvEntry) : KvEntry :=
  let out := fun (ix : Nat) =>
    let pos := e.page * 64 + ix / k.headDim % 64
    decide (pos < lo) || decide (hi < pos)
  let slot := slotOfEnc e.enc
  if slotScale slot = 0 then { e with elems := e.elems.filter fun x => out x.1 }
  else
    -- in a scaled page a zero element is one whose pattern means 0 under its entry
    let per := k.headDim / slotGroup slot
    let outM := fun (ix : Nat) =>
      let pos := e.page * 64 + ix / per % 64
      decide (pos < lo) || decide (hi < pos)
    { e with elems := e.elems.filter fun x => out x.1, metas := e.metas.filter fun x => outM x.1 }

/-- Commits c of one sequence's drafts. -/
def commitSeq (k : KvContext) (w n seq : Nat) : KvContext :=
  let x := k.window w
  let len := k.len seq + min n (x.depthOf seq)
  let elems := dedup ((x.records.filter fun r => r.seq == seq).flatMap fun r => r.elems.map fun e => (r.slot, e.1))
  let committed := elems.foldl (fun (m : WordMap) e =>
    match x.stateAt seq e.1 e.2 len with
    | some b => m.set (stateIx k seq e.1 e.2) b.2
    | none => m) k.committed
  let k := { k with committed := committed, lens := k.lens.set seq len }
  let mine := fun (e : KvEntry) => e.seq == seq && e.wh && e.win == w
  let entries := (k.entries.filter fun e => !(mine e && decide (len ≤ e.page * 64))).map fun e =>
    if mine e then { e with wh := false, win := 0 } else e
  { k with entries := entries.map fun e => if e.seq = seq then zeroDrafts k len (min (len + 255) (k.capacity - 1)) e else e }

/-- The commit of every sequence of a window, which becomes IDLE. -/
def commitWindow (k : KvContext) (w : Nat) (n : Nat → Nat) : KvContext :=
  let x := k.window w
  let k := (List.range x.count).foldl (fun k i => commitSeq k w (n i) (x.first + i)) k
  k.setWindow w { open_ := false, first := 0, count := 0, depth := [], records := [] }

/-- The bytes that a commit writes: the elements that it zeroes in the pages that are left, and the state that it commits. -/
def commitSpans (k : KvContext) (w : Nat) (n : Nat → Nat) : List KvSpan :=
  let x := k.window w
  let after := commitWindow k w n
  (List.range x.count).flatMap fun i =>
    let seq := x.first + i
    let lo := after.len seq
    let hi := min (lo + 255) (k.capacity - 1)
    let zeroed := after.entries.flatMap fun e =>
      let a := max lo (e.page * 64)
      let b := min hi (e.page * 64 + 63)
      if e.seq = seq ∧ a ≤ b then
        [0, 1].flatMap fun plane => elemSpans k (slotOfEnc e.enc) (pageBase k e) (k.elemIx plane a 0) ((b + 1 - a) * k.headDim)
      else []
    let kept := ((x.records.filter fun r => r.seq == seq && decide (r.pos < lo)).flatMap fun r =>
      r.elems.map fun e => (kvAddr (Config.kvDpa k.id seq r.slot 65536 0) (4 * e.1), 4))
    zeroed ++ kept

/-- How many drafts of each held sequence a commit keeps at most. -/
def commitCounts (s : State) (core : Nat) (b : Block) (k : KvContext) (c : KvCtl) : List Nat :=
  (List.range (k.window c.window).count).map fun i =>
    if c.vec then ((s.core core).spad.get (b.spadBase + c.sel.toNat + i)).toNat else c.n

/-- The commit point: the window's drafts are kept or dropped, what that writes reaches its homes, and with CV the counter
rises. -/
def commitPoint (s : State) (core : Nat) (k : KvContext) (c : KvCtl) (counts : List Nat) : State :=
  let n := fun (i : Nat) => nth 0 counts i
  let s := writeSpans (s.mapKv c.ctx fun _ => commitWindow k c.window n) (commitSpans k c.window n)
  if c.cv then s.mapCore core fun x => x.addCounter c.ctr 1#64 else s

/-- The writes of a control operation arrive at the other die: it takes effect at this instant, and its answer goes back. -/
def arriveCtl (s : State) (core slot id : Nat) (counts : List Nat) : State :=
  match (s.group? core slot).bind fun g => g.pend? id with
  | some (.kvCtl c) =>
    (match s.kv? c.ctx with
     | none => s.mapGroup core slot fun g => g.dropPend id
     | some k =>
       match ctlCheckState k c with
       | some d => lateFault (s.mapGroup core slot fun g => g.dropPend id) core slot id (ctlLate c .kvFault d 0#64)
       | none =>
         let (s, v) := match c.op with
           | .kcommit => (commitPoint s core k c counts, 0)
           | .kdrop => (commitPoint s core k c counts, 0)
           | _ => applyCtl s k c
         sendMsg (s.mapGroup core slot fun g => g.setPend id (.kvCtl { c with stage := .answered })) (1 - dieOf core)
           (.ack (.kvCtl core slot id v)))
  | _ => s

/-- The answer has come back: the operation is complete. -/
def ctlAnswered (s : State) (core slot id v : Nat) : State :=
  match (s.group? core slot).bind fun g => g.pend? id with
  | some (.kvCtl c) => endCtl s core slot id c v
  | _ => s

/-- KV_COMMIT_POINT (R284): after the group's earlier K-space accesses and, with VEC, its earlier stores to the count bytes
(05 R183), and with CV after a release at device scope. Where it writes a page or state that is homed on the other die, its
writes cross the bridge, and the commit point comes with their arrival (08 R305; DEDUCED, log 93). -/
def execKvCommitPoint (s : State) : Host.Outcome State Fault Refusal :=
  let core := s.sel.core
  let slot := s.sel.slot
  let id := s.sel.id
  .next (match s.group? core slot with
    | none => s
    | some g =>
      match g.pend? id with
      | some (.kvCtl c) =>
        let ours := c.op == .kcommit || c.op == .kdrop
        if !ours || c.stage != .issued || !g.kvFirst id then s
        else match (if c.cv then releaseStep s core slot 5 id else some (s, true)) with
          | none => s
          | some (t, false) => t
          | some (t, true) =>
            match t.kv? c.ctx, (t.core core).block? g.launch g.block with
            | some k, some b =>
              let drop := fun (t : State) => t.mapGroup core slot fun g => g.dropPend id
              if c.vec && g.storeBefore id core (b.spadBase + c.sel.toNat) (k.window c.window).count then t
              else if ctlCheckState k c ≠ none then lateFault (drop t) core slot id (ctlLate c .kvFault 0x0A 0#64)
              else if !commitBytes k b c then lateFault (drop t) core slot id (ctlLate c .addrRegion 4 c.sel)
              else
                let counts := commitCounts t core b k c
                if (commitSpans k c.window fun i => nth 0 counts i).any fun p => homeDie p.1 != dieOf core then
                  sendCtl t core slot id c counts
                else commitPoint (drop t) core k c counts
            | _, _ => t.mapGroup core slot fun g => g.dropPend id
      | _ => s)

/-- A page moves between the tiers of its die: its lines are read here and written there (08 R434). A poisoned line among them
marks the page POISONED (R286, 10 R366). -/
def movePage (s : State) (k : KvContext) (e : KvEntry) (from_ to_ : Nat) : State :=
  let slot := slotOfEnc e.enc
  let bad := spansPoisoned s [pageSpan k from_ slot]
  let s := writeSpans (readSpans s [pageSpan k from_ slot]) [pageSpan k to_ slot]
  if bad then s.mapKv k.id fun k => k.poison e.seq e.head e.page else s

/-- The entry that `sel` names, with its context. -/
def selEntry (s : State) : Option (KvContext × KvEntry) :=
  match s.kv? s.sel.ctx with
  | some k => (k.entry? s.sel.seq s.sel.head s.sel.page).map fun e => (k, e)
  | none => none

/-- KV_FETCH_COMPLETE (R285). -/
def execKvFetchComplete (s : State) : Host.Outcome State Fault Refusal :=
  .next (match selEntry s with
    | some (k, e) =>
      if e.fetch = 1 then
        let t := s.mapKv k.id fun k => k.mapEntry e.seq e.head e.page fun e =>
          { e with fetch := 0, state := if e.state = .secondTier then .resident else e.state }
        if e.state = .secondTier then movePage t k e (tierBase k e) (bondedBase k e) else t
      else s
    | none => s)

/-- KV_EVICT_COMPLETE (R285). -/
def execKvEvictComplete (s : State) : Host.Outcome State Fault Refusal :=
  .next (match selEntry s with
    | some (k, e) =>
      if e.fetch = 2 then
        movePage (s.mapKv k.id fun k => k.mapEntry e.seq e.head e.page fun e => { e with fetch := 0 }) k e (bondedBase k e) (tierBase k e)
      else s
    | none => s)

/-! ## Requantisation of a page (R287) -/

/-- The page that a requantisation writes: every element's exact value, group by group (R123). -/
def requantPage (k : KvContext) (e : KvEntry) (to_ : Word) : WordMap × NatMap :=
  let grp := if slotScale to_ = 0 then k.headDim else slotGroup to_
  let per := k.headDim / grp
  (List.range (2 * 64 * per)).foldl (fun (m : WordMap × NatMap) g =>
    let plane := g / per / 64
    let pos := g / per % 64
    let xs := (List.range grp).map fun j => k.value e plane (e.page * 64 + pos) (g % per * grp + j)
    let put := fun (els : List Nat) => els.foldl (fun (a : WordMap × Nat) v =>
      (a.1.set (g * grp + a.2) (BitVec.ofNat 32 v), a.2 + 1)) (m.1, 0)
    if slotScale to_ = 0 then
      ((put (xs.map fun v => match elemKind to_ with | .flt f => rndSatNum f v | _ => toElem to_ v)).1, m.2)
    else
      let q := quantGroup to_ xs
      ((put q.elems).1, m.2.set g (metaOf to_ q))) ([], [])

/-- Why a page is not eligible, or the pool has no page: the cause of the command's fault. A page that another command is
requantising is eligible (R287 does not name BUSY). -/
def requantFault (k : KvContext) (sel : DWord) (from_ to_ : Word) : Option Cause :=
  let (seq, head, page) := pageSel sel
  match k.entry? seq head page with
  | none => some .kvFault
  | some e =>
    let ok := decide (sel.extractLsb' 44 20 = 0) && e.state == .resident && !e.wh
      && decide (page * 64 + 64 ≤ k.len seq) && decide (e.enc.toNat = from_.toNat % 2048)
      && (slotScale to_ == 0 || decide (k.headDim % slotGroup to_ = 0))
    if !ok then some .kvFault
    else if !k.hasPage then some .queueFault
    else none

/-- BUSY is set and the fresh page is written (R287, steps 1 and 2). -/
def requantStart (k : KvContext) (sel : DWord) (to_ : Word) (core cmd : Nat) : KvContext :=
  let (seq, head, page) := pageSel sel
  match k.entry? seq head page with
  | none => k
  | some e =>
    let (els, ms) := requantPage k e to_
    let k := k.mapEntry seq head page fun e => { e with busy := true }
    { k with held := k.held + 1
             requants := k.requants ++ [{ seq := seq, head := head, page := page, core := core, cmd := cmd, live := true
                                          enc := to_.setWidth 11, elems := els, metas := ms }] }

/-- The page that a requantisation reads, or the fresh one. -/
def requantSpan (k : KvContext) (sel : DWord) (fresh : Bool) (slot : Word) : KvSpan :=
  let (seq, head, page) := pageSel sel
  let frame := match k.entry? seq head page with | some e => e.frame | none => 0
  pageSpan k (Config.kvDpa k.id seq head page (if fresh then frame + 1 else frame)) slot

/-- A requantisation reads the old page and writes the fresh one at their homes (08 R434), and the number of answers to await: a
fresh page that is homed on the other die crosses the bridge (08 R305). -/
def moveRequant (s : State) (core cmd : Nat) (k : KvContext) (sel : DWord) (from_ to_ : Word) : State × Nat :=
  let s := readSpans s [requantSpan k sel false from_]
  let p := requantSpan k sel true to_
  if homeDie p.1 = dieOf core then (writeSpans s [p], 0)
  else (sendMsg s (dieOf core) (.page p.1 p.2 (.engine core .quant cmd)), 1)

/-- The swap (R287, step 3): the fresh page is the entry's, and the old one returns to the pool once the accesses begun
before have completed. Of a page freed meanwhile, the fresh one returns at once. -/
def requantSwap (k : KvContext) (core cmd : Nat) (begun : List (Nat × Nat)) : KvContext :=
  match k.requants.find? fun r => r.core == core && r.cmd == cmd with
  | none => k
  | some r =>
    let k := { k with requants := k.requants.filter fun q => !(q.core == core && q.cmd == cmd) }
    if r.live then
      let k := k.mapEntry r.seq r.head r.page fun e =>
        { e with busy := false, enc := r.enc, elems := r.elems, metas := r.metas, frame := e.frame + 1 }
      { k with returns := k.returns ++ [begun] }
    else { k with held := k.held - 1 }

/-- The K-space accesses of a context that have begun and are not complete, by core and number. -/
def kvBegun (s : State) (ctx : Nat) : List (Nat × Nat) :=
  s.cores.flatMap fun p => p.2.groups.flatMap fun q => q.2.pend.filterMap fun r => match r.op with
    | .kv a => if a.ctx = ctx then some (p.1, r.id) else none
    | _ => none

/-- Old pages whose last access has completed return to the pool (R287). -/
def settlePages (s : State) : State :=
  let one := fun (k : KvContext) =>
    if k.returns.isEmpty then k
    else
      let left := (k.returns.map fun l => l.filter (kvBegun s k.id).contains).filter fun l => !l.isEmpty
      { k with returns := left, held := k.held - (k.returns.length - left.length) }
  { s with kvs := s.kvs.map one }

/-! ## The instructions -/

/-- KLD (R279). -/
def execKld (w : Base) (x : ExtM) (s : State) : Host.Outcome State Fault Refusal :=
  kvAccess s (.kld w x) .kld w x

/-- KST (R279). -/
def execKst (w : Base) (x : ExtM) (s : State) : Host.Outcome State Fault Refusal :=
  kvAccess s (.kst w x) .kst w x

/-- KSTS (R280). -/
def execKsts (w : Base) (x : ExtM) (s : State) : Host.Outcome State Fault Refusal :=
  kvAccess s (.ksts w x) .ksts w x

/-- KOPEN (R283). -/
def execKopen (w : Base) (x : ExtC) (s : State) : Host.Outcome State Fault Refusal :=
  kvCtl s (.kopen w x) .kopen w x

/-- KCOMMIT (R284). -/
def execKcommit (w : Base) (x : ExtC) (s : State) : Host.Outcome State Fault Refusal :=
  kvCtl s (.kcommit w x) .kcommit w x

/-- KDROP (R284). -/
def execKdrop (w : Base) (x : ExtC) (s : State) : Host.Outcome State Fault Refusal :=
  kvCtl s (.kdrop w x) .kdrop w x

/-- KMAP_ALLOC (R285). -/
def execKmapAlloc (w : Base) (x : ExtC) (s : State) : Host.Outcome State Fault Refusal :=
  kvCtl s (.kmapAlloc w x) .alloc w x

/-- KMAP_FREE (R285). -/
def execKmapFree (w : Base) (x : ExtC) (s : State) : Host.Outcome State Fault Refusal :=
  kvCtl s (.kmapFree w x) .free w x

/-- KMAP_FETCH (R285). -/
def execKmapFetch (w : Base) (x : ExtC) (s : State) : Host.Outcome State Fault Refusal :=
  kvCtl s (.kmapFetch w x) .fetch w x

/-- KMAP_EVICT (R285). -/
def execKmapEvict (w : Base) (x : ExtC) (s : State) : Host.Outcome State Fault Refusal :=
  kvCtl s (.kmapEvict w x) .evict w x

/-- KMAP_LEN (R285). -/
def execKmapLen (w : Base) (x : ExtC) (s : State) : Host.Outcome State Fault Refusal :=
  kvCtl s (.kmapLen w x) .len w x

/-- KMAP_QUERY (R285). -/
def execKmapQuery (w : Base) (x : ExtC) (s : State) : Host.Outcome State Fault Refusal :=
  kvCtl s (.kmapQuery w x) .query w x

end Sys2Proof.Machine
end

