-- ==== Sys2Proof/Machine/Engines.lean ====
section
/-! DEFINITION. The copy, quantisation and link engines (06 R245 to R263, 09 R335): the commands that instructions push,
their start, progress, faults and retirement, the queue instructions, and indirect commands. -/

namespace Sys2Proof.Machine

/-! ## Fields of a command -/

def engineOf : EngOp → Engine
  | .cnest => .copy | .cgo => .copy | .cpy => .copy | .cred => .copy
  | .qtz => .quant | .dqz => .quant | .rqz => .quant | .rqzKv => .quant
  | .lsend => .link | .lsendPort => .link | .lradd => .link | .lwin => .link

/-- Owner code of an engine (Table 2.17). -/
def engineCode : Engine → Nat
  | .copy => 0x21 | .quant => 0x22 | .link => 0x23

/-- Result queue of an engine (01 Table 1.5). -/
def resultQueue : Engine → Nat
  | .copy => 1 | .quant => 3 | .link => 5

/-- Queue of an engine's indirect commands. -/
def entryQueue : Engine → Nat
  | .copy => 0 | .quant => 2 | .link => 4

def EngCmd.imm (k : EngCmd) : BitVec 24 := (readExtC k.ext).imm

def EngCmd.x (k : EngCmd) : ExtR := readExtR k.ext

/-- Layout C, which the copy engine's commands use. -/
def EngCmd.isC (k : EngCmd) : Bool := engineOf k.op == .copy

/-- Context (Tables 6.12, 6.14). -/
def EngCmd.ctx (k : EngCmd) : Nat :=
  if k.isC then (k.imm.extractLsb' 18 2).toNat else (k.vb.extractLsb' 38 2).toNat

/-- The counter that retirement adds to; CNEST names none (R250). -/
def EngCmd.ctr (k : EngCmd) : Option Nat :=
  if k.op = .cnest then none
  else if k.isC then some (k.imm.extractLsb' 12 6).toNat
  else some (k.vb.extractLsb' 32 6).toNat

def EngCmd.res (k : EngCmd) : Bool :=
  if k.op = .cnest then false else if k.isC then k.imm.getLsbD 11 else k.vb.getLsbD 40

def EngCmd.ret (k : EngCmd) : Bool :=
  match k.op with
  | .cpy => k.imm.getLsbD 10
  | .cred => k.imm.getLsbD 10
  | .cnest => false
  | .cgo => false
  | _ => k.vb.getLsbD 41

/-- Codes 0 and 1 both mean core (R245). -/
def EngCmd.scope (k : EngCmd) : Nat :=
  max 1 (if k.isC then (readExtC k.ext).scope.toNat else k.x.scope.toNat)

/-- Destination and source spaces (Table 6.12; R256, R257). -/
def EngCmd.dsp (k : EngCmd) : Nat :=
  match k.op with
  | .qtz => (k.x.mod.extractLsb' 2 2).toNat
  | .dqz => (k.x.mod.extractLsb' 0 2).toNat
  | .rqz => 1
  | _ => (k.imm.extractLsb' 22 2).toNat

def EngCmd.ssp (k : EngCmd) : Nat :=
  match k.op with
  | .qtz => (k.x.mod.extractLsb' 0 2).toNat
  | .dqz => (k.x.mod.extractLsb' 2 2).toNat
  | .rqz => 1
  | _ => (k.imm.extractLsb' 20 2).toNat

/-- COUNT of the control word, or the length or count in S[B]. -/
def EngCmd.count (k : EngCmd) : Nat := (lowWord k.vb).toNat

def EngCmd.setNo (k : EngCmd) : Nat := (k.imm.extractLsb' 9 2).toNat

/-- The command enters the copy engine's store queue (R249). -/
def EngCmd.storeSide (k : EngCmd) : Bool :=
  match k.op with
  | .cpy => k.dsp == 1
  | .cgo => k.dsp == 1
  | .cred => k.dsp == 1
  | _ => false

/-! ## Engines of a core -/

def Core.eng (c : Core) : Engine → EngineState
  | .copy => c.copy | .quant => c.quant | .link => c.link

def Core.setEng (c : Core) (e : Engine) (x : EngineState) : Core :=
  match e with
  | .copy => { c with copy := x } | .quant => { c with quant := x } | .link => { c with link := x }

def Core.mapCmd (c : Core) (e : Engine) (id : Nat) (f : EngCmd → EngCmd) : Core :=
  c.setEng e { c.eng e with cmds := (c.eng e).cmds.map fun k => if k.id = id then f k else k }

def Core.cmd? (c : Core) (e : Engine) (id : Nat) : Option EngCmd := (c.eng e).cmds.find? fun k => k.id == id

def State.mapCmd (s : State) (core : Nat) (e : Engine) (id : Nat) (f : EngCmd → EngCmd) : State :=
  s.mapCore core fun c => c.mapCmd e id f

/-- Two commands belong to one context of one block. -/
def EngCmd.sameCtx (k j : EngCmd) : Bool := k.launch == j.launch && k.block == j.block && k.ctx == j.ctx

/-- The queue that a command enters is full (R249, 09 R335). -/
def Core.cmdFull (c : Core) (k : EngCmd) : Bool :=
  let e := engineOf k.op
  decide (16 ≤ ((c.eng e).cmds.filter fun j => j.storeSide == k.storeSide).length)

/-- Puts a command in its place in push order. -/
def insertCmd (k : EngCmd) : List EngCmd → List EngCmd
  | [] => [k]
  | j :: js => if k.id < j.id then k :: j :: js else j :: insertCmd k js

def Core.pushCmd (c : Core) (k : EngCmd) : Core :=
  let e := engineOf k.op
  c.setEng e { c.eng e with cmds := insertCmd k (c.eng e).cmds }

/-- The trap of a command's fault (R248). -/
def EngCmd.trap (k : EngCmd) (c : Cause) : Trap :=
  { Trap.plain c with
    origin := .engine (engineOf k.op) k.id, ctx := BitVec.ofNat 2 k.ctx, words := k.ext ++ k.base }

/-! ## Pushing a command (R245) -/

def freshCmd (op : EngOp) (launch block slot id : Nat) (base ext : Word) (vd va vb vc vd1 : DWord) : EngCmd :=
  { id := id, launch := launch, block := block, slot := slot, op := op, base := base, ext := ext, vd := vd, va := va
    vb := vb, vc := vc, vd1 := vd1, mark := id, started := false, progress := 0, published := 0, buffer := [], acks := 0
    finished := false, fault := none, status := 0#8, page := none }

/-- A link-engine command marks its launch as a user of the fabric (11 R377). -/
def usesFabric (s : State) (k : EngCmd) : State :=
  match engineOf k.op with
  | .link => s.mapLaunch k.launch fun l => { l with fabric := true }
  | _ => s

/-- Pushes a command to its engine; a full queue holds the scheduler (09 R329, R335). In predicted mode the command
waits outside (09 R332). -/
def pushCommand (s : State) (x : Issuer) (k : EngCmd) : Act :=
  match x.g.predicted with
  | some p => .done (holdItem s x p (.cmd (engineOf k.op) k))
  | none =>
    let c := s.core x.core
    if c.cmdFull k then .stall else .done (usesFabric (s.setCore x.core ((c.pushCmd k).tick)) k)

/-- An engine instruction of layout C. -/
def engineC_ (s : State) (i : Instr) (op : EngOp) (w : Base) : Host.Outcome State Fault Refusal :=
  runInstr s i fun x _ =>
    let p := siteOf x i
    pushCommand s x (freshCmd op x.l.id x.b.index x.slot (s.core x.core).nextId p.base p.ext (x.g.sreg w.d.toNat)
      (x.g.sreg w.a.toNat) (x.g.sreg w.b.toNat) 0#64 0#64)

/-- An engine instruction of layout R. -/
def engineR_ (s : State) (i : Instr) (op : EngOp) (w : Base) (e : ExtR) : Host.Outcome State Fault Refusal :=
  runInstr s i fun x _ =>
    let p := siteOf x i
    pushCommand s x (freshCmd op x.l.id x.b.index x.slot (s.core x.core).nextId p.base p.ext (x.g.sreg w.d.toNat)
      (x.g.sreg w.a.toNat) (x.g.sreg w.b.toNat) (x.g.sreg e.c.toNat) (x.g.sreg (w.d.toNat + 1)))

/-! ## Locations in the engine spaces (Table 6.11) -/

/-- Where bytes of an engine access lie. -/
inductive EngLoc where
  | spad (a : Nat)
  | glob (dpa : Nat)
  | pnl (a : Nat)
  | tile (a : Nat)
  deriving DecidableEq, Repr

/-- What becomes of an access to a few bytes of one line. -/
inductive Located where
  | ok (l : EngLoc)
  | wait (s : State) (page : Option (Nat × Nat))
  | fault (c : Cause)

/-- An address as an engine forms it: 64 bits, in every space (Table 6.11); only a nest's sums wrap to 32 (R253). -/
def engAddr (a : Nat) : Nat := a % 2 ^ 64

/-- Checks and translates n bytes of one line at an address of a space (R247, Table 6.11, 10 R353, R355, R366). A tile that
is not allocated to the block breaks a bound, whoever owns it (DEDUCED, log 82). A miss starts a walk, but for a command that
awaits the page already (10 R353, R354). -/
def locate (s : State) (core : Nat) (l : Launch) (b : Block) (awaited : Option (Nat × Nat)) (code sp : Nat) (rd wr : Bool)
    (a n : Nat) : Located :=
  let a := engAddr a
  match sp with
  | 0 => if b.spadSize < a + n then .fault .addrRegion else .ok (.spad (b.spadBase + a))
  | 1 =>
    match regionOf l a with
    | none => .fault .addrRegion
    | some (i, r) =>
      let d := dieOf core
      if r.vbase + r.length < a + n then .fault .addrRegion
      else if r.kind = 2 ∨ (rd ∧ !r.rd) ∨ (wr ∧ !r.wr) then .fault .accessRights
      else
        let put := fun (dpa : Nat) =>
          if rd ∧ (s.poisonedAt dpa ∨ s.poisonedAt (dpa + n - 1)) then Located.fault .uncorrectable else .ok (.glob dpa)
        if r.kind = 0 then put (r.target + (a - r.vbase))
        else
          let page := (a - r.vbase) / 2 ^ r.pageBits
          match (s.die d).tlbFind l.asid i page with
          | some e =>
            if wr && e.ro then .fault .accessRights else put (e.dpa + (a - r.vbase) % 2 ^ r.pageBits)
          | none =>
            if awaited = some (i, page) then .wait s awaited
            else
              .wait (s.mapDie d fun x => x.startWalk { asid := l.asid, launch := l.id, region := i, page := page, write := wr })
                (some (i, page))
  | 2 => if 1048576 < a + n then .fault .addrRegion else .ok (.pnl a)
  | _ =>
    let t := a / 8192
    let x := (s.core core).tile t
    if 524288 < a + n ∨ !b.tiles.contains t then .fault .addrRegion
    else if x.owner ≠ code then .fault .tileOwner
    else if x.land then .wait s none
    else .ok (.tile a)

def readLoc (s : State) (core : Nat) (l : EngLoc) (n : Nat) : List Byte :=
  match l with
  | .spad a => (s.core core).spad.bytes a n
  | .glob d => readHome s d n
  | .pnl a => (s.core core).panels.bytes a n
  | .tile a => (s.core core).tileData.bytes a n

/-- The parts of a range are used: the pages of their addresses are the most recent of their TLB sets (10 R353), and lines
read come into their home L2 strips (08 R434). -/
def useParts (s : State) (core : Nat) (l : Launch) (sp : Nat) (rd : Bool) (ps : List (Nat × Nat)) (qs : List (EngLoc × Nat)) :
    State :=
  let page := fun (s : State) (p : Nat × Nat) => match regionOf l (engAddr p.1) with
    | some (i, r) =>
      if r.kind = 1 then s.mapDie (dieOf core) fun d => d.tlbTouch l.asid i ((engAddr p.1 - r.vbase) / 2 ^ r.pageBits) else s
    | none => s
  let line := fun (s : State) (q : EngLoc × Nat) => match q.1 with | .glob d => touchSpan s d q.2 false | _ => s
  let s := if sp = 1 then ps.foldl page s else s
  if rd then qs.foldl line s else s

/-- Writes bytes of one line, and the number of acknowledgements to await: engines write global memory at the home
(R246). -/
def writeLoc (s : State) (core : Nat) (e : Engine) (id : Nat) (l : EngLoc) (bs : List Byte) : State × Nat :=
  match l with
  | .spad a => (s.mapCore core fun c => { c with spad := c.spad.put a bs }, 0)
  | .glob d =>
    (writeCells s (dieOf core) (bs.mapIdx fun i v => (d + i, v)) (.engine core e id), 1)
  | .pnl a => (s.mapCore core fun c => { c with panels := c.panels.put a bs }, 0)
  | .tile a => (s.mapCore core fun c => { c with tileData := c.tileData.put a bs }, 0)

/-- Splits a range at the lines of its addresses. -/
def lineParts (a n : Nat) : Nat → List (Nat × Nat)
  | 0 => []
  | fuel + 1 =>
    if n = 0 then []
    else
      let k := min n (128 - a % 128)
      (a, k) :: lineParts (a + k) (n - k) fuel

/-- The parts of a range located, all of them or none. -/
def locateAll (s : State) (core : Nat) (l : Launch) (b : Block) (awaited : Option (Nat × Nat)) (code sp : Nat) (rd wr : Bool) :
    List (Nat × Nat) → Except Located (List (EngLoc × Nat))
  | [] => .ok []
  | (a, n) :: ps =>
    match locate s core l b awaited code sp rd wr a n with
    | .ok q =>
      (match locateAll s core l b awaited code sp rd wr ps with
       | .ok qs => .ok ((q, n) :: qs)
       | .error r => .error r)
    | r => .error r

def readAll (s : State) (core : Nat) (qs : List (EngLoc × Nat)) : List Byte := qs.flatMap fun q => readLoc s core q.1 q.2

def writeAll (s : State) (core : Nat) (e : Engine) (id : Nat) : List (EngLoc × Nat) → List Byte → State × Nat
  | [], _ => (s, 0)
  | (q, n) :: qs, bs =>
    let (s, k) := writeLoc s core e id q (bs.take n)
    let (s, j) := writeAll s core e id qs (bs.drop n)
    (s, k + j)

/-! ## One step of a command -/

/-- The outcome of a step: it waits, it faults, or it has moved on. -/
inductive CmdStep where
  | wait (s : State) (page : Option (Nat × Nat))
  | fault (c : Cause)
  | go (s : State) (k : EngCmd)

/-- What a step of a command knows. -/
structure CmdCtx where
  s : State
  core : Nat
  l : Launch
  b : Block
  k : EngCmd

def CmdCtx.eng (x : CmdCtx) : Engine := engineOf x.k.op

/-- The parts of a range. -/
def partsOf (a n : Nat) : List (Nat × Nat) := lineParts (engAddr a) n (n / 128 + 2)

def CmdCtx.find (x : CmdCtx) (sp : Nat) (rd wr : Bool) (a n : Nat) : Except Located (List (EngLoc × Nat)) :=
  locateAll x.s x.core x.l x.b x.k.page (engineCode x.eng) sp rd wr (partsOf a n)

/-- The context after the parts of a range have been used. -/
def CmdCtx.used (x : CmdCtx) (sp : Nat) (rd : Bool) (a n : Nat) (qs : List (EngLoc × Nat)) : CmdCtx :=
  { x with s := useParts x.s x.core x.l sp rd (partsOf a n) qs }

def CmdStep.ofLocated : Located → CmdStep
  | .ok _ => .fault .addrRegion
  | .wait s p => .wait s p
  | .fault c => .fault c

/-- Reads a range, or stops. -/
def CmdCtx.read (x : CmdCtx) (sp a n : Nat) (next : CmdCtx → List Byte → CmdStep) : CmdStep :=
  match x.find sp true false a n with
  | .ok qs => next (x.used sp true a n qs) (readAll x.s x.core qs)
  | .error r => .ofLocated r

/-- Writes a range with what a function gives, then goes on with the command. -/
def CmdCtx.write (x : CmdCtx) (sp a n : Nat) (bs : List Byte) (next : State → EngCmd → CmdStep) : CmdStep :=
  match x.find sp false true a n with
  | .ok qs =>
    let (s, acks) := writeAll (x.used sp false a n qs).s x.core x.eng x.k.id qs bs
    next s { x.k with acks := x.k.acks + acks }
  | .error r => .ofLocated r

/-- Ranges of one space meet. -/
def rangesMeet (sp a n tp b k : Nat) : Bool :=
  let a := engAddr a
  let b := engAddr b
  sp == tp && decide (a < b + k) && decide (b < a + n)

/-- One chunk of a copy of n bytes at offset `off`: at most 128 bytes within one line on either side. Overlapping ranges
are read whole before the first write (R251). `next` gets the bytes done. -/
def CmdCtx.copy (x : CmdCtx) (ssp src dsp dst n off : Nat) (next : State → EngCmd → Nat → CmdStep) : CmdStep :=
  let srcA := engAddr src
  let dstA := engAddr dst
  if rangesMeet ssp src n dsp dst n then
    let have_ := x.k.buffer.length
    if off = 0 ∧ have_ < n then
      let m := min (n - have_) (128 - (srcA + have_) % 128)
      x.read ssp (srcA + have_) m fun x bs => .go x.s { x.k with buffer := x.k.buffer ++ bs, page := none }
    else
      let m := min (n - off) (128 - (dstA + off) % 128)
      x.write dsp (dstA + off) m ((x.k.buffer.drop off).take m) fun s k => next s { k with page := none } (off + m)
  else
    let m := min (n - off) (min (128 - (srcA + off) % 128) (128 - (dstA + off) % 128))
    x.read ssp (srcA + off) m fun x bs =>
      x.write dsp (dstA + off) m bs fun s k => next s { k with page := none } (off + m)

/-- CPY (R251). -/
def cpyStep (x : CmdCtx) : CmdStep :=
  let k := x.k
  let n := k.count
  if n < 4 ∨ 1048576 < n then .fault .queueFault
  else if n % 4 ≠ 0 ∨ k.va.toNat % 4 ≠ 0 ∨ k.vd.toNat % 4 ≠ 0 then .fault .addrAlign
  else x.copy k.ssp k.va.toNat k.dsp k.vd.toNat n k.progress fun s k off =>
    .go s { k with progress := off, finished := decide (n ≤ off), buffer := if n ≤ off then [] else k.buffer }

/-! ### Nests (R252, R253) -/

/-- A descriptor (Table 6.13); none where a field is refused. -/
def readNest (m : Memory) (a : Nat) : Option Nest :=
  let nl := m.nat a 1
  let elem := m.nat (a + 4) 4
  let counts := (List.range 6).map fun i => m.nat (a + 8 + 2 * i) 2
  let ss := (List.range 6).map fun i => (BitVec.ofNat 32 (m.nat (a + 0x18 + 4 * i) 4)).toInt
  let ds := (List.range 6).map fun i => (BitVec.ofNat 32 (m.nat (a + 0x30 + 4 * i) 4)).toInt
  let rsv := m.nat (a + 1) 3 + m.nat (a + 0x14) 4 + m.nat (a + 0x48) 56
  let ok := decide (1 ≤ nl ∧ nl ≤ 6 ∧ rsv = 0 ∧ elem % 4 = 0 ∧ 4 ≤ elem ∧ elem ≤ 8192)
    && (List.range 6).all fun i =>
      if i < nl then nth 0 counts i != 0 else nth 0 counts i == 0 && nth 0 ss i == 0 && nth 0 ds i == 0
  if ok then some { nl := nl, elem := elem, counts := counts.take nl, sstride := ss.take nl, dstride := ds.take nl } else none

/-- CNEST: the descriptor's address is a scratchpad offset. One that is no multiple of 128 is misaligned as R249 names it,
also where it is a multiple of 4 (R252 names no cause; DEDUCED, log 83). -/
def cnestStep (x : CmdCtx) : CmdStep :=
  let a := x.k.va.toNat
  if a % 128 ≠ 0 then .fault .addrAlign
  else if x.b.spadSize < a + 128 then .fault .addrRegion
  else match readNest (x.s.core x.core).spad (x.b.spadBase + a) with
    | none => .fault .queueFault
    | some d =>
      let set : NestSet := { launch := x.k.launch, block := x.k.block, ctx := x.k.ctx, set := x.k.setNo, nest := d }
      let is := fun (y : NestSet) => y.launch == set.launch && y.block == set.block && y.ctx == set.ctx && y.set == set.set
      let s := x.s.mapCore x.core fun c =>
        { c with copy := { c.copy with nests := set :: c.copy.nests.filter fun y => !is y } }
      .go s { x.k with finished := true }

def EngCmd.nest? (k : EngCmd) (c : Core) : Option Nest :=
  (c.copy.nests.find? fun y => y.launch == k.launch && y.block == k.block && y.ctx == k.ctx && y.set == k.setNo).map
    fun y => y.nest

def Nest.total (d : Nest) : Nat := d.counts.foldl (· * ·) 1

/-- Iterations of the innermost level that one iteration of level `lvl` holds. A level that the nest does not have is one
above them all: the whole nest is its one iteration (R253 does not say; DESIGN CHOICE, log 84). -/
def Nest.span (d : Nest) (lvl : Nat) : Nat := (d.counts.take lvl).foldl (· * ·) 1

/-- An address of iteration `it`. -/
def Nest.addr (base : Nat) (strides : List Int) (counts : List Nat) (it sp : Nat) : Nat :=
  let sum := (strides.zip (digits counts it)).foldl (fun (v : Int) p => v + p.1 * (p.2 : Int)) (base : Int)
  (sum % (2 ^ (if sp = 1 then 64 else 32) : Int)).toNat

/-- RNG, RING and LVL of a CGO. -/
def EngCmd.rng (k : EngCmd) : Bool := k.imm.getLsbD 8
def EngCmd.ring (k : EngCmd) : Nat := (k.imm.extractLsb' 5 3).toNat
def EngCmd.lvl (k : EngCmd) : Nat := (k.imm.extractLsb' 2 3).toNat

/-- CGO: one chunk of the current copy. With RNG, the first copy of a ring-level iteration waits for a free slot and for
the publication of the iterations before it (DEDUCED, log 21). -/
def cgoStep (x : CmdCtx) : CmdStep :=
  let k := x.k
  match k.nest? (x.s.core x.core) with
  | none => .fault .queueFault
  | some d =>
    let it := k.progress / d.elem
    let off := k.progress % d.elem
    let all := d.total * d.elem
    let span := d.span k.lvl
    if d.total ≤ it then .wait x.s none
    else
      let slots := (ringDesc x.l k.ring).slots
      let begins := off = 0 ∧ it % span = 0 ∧ k.buffer = []
      if k.rng ∧ begins ∧ (k.published ≠ it / span ∨ ringFree slots (x.b.ring k.ring) = 0) then .wait x.s none
      else
        let src := Nest.addr k.va.toNat d.sstride d.counts it k.ssp
        let dst := Nest.addr k.vd.toNat d.dstride d.counts it k.dsp
        if src % 4 ≠ 0 ∨ dst % 4 ≠ 0 then .fault .addrAlign
        else x.copy k.ssp src k.dsp dst d.elem off fun s k o =>
          let p := it * d.elem + o
          .go s { k with progress := p, buffer := if o = d.elem then [] else k.buffer
                         finished := decide (all ≤ p) && !k.rng }

/-! ### CRED (R254) -/

/-- Source format, destination format (none: WS96), and their sizes. -/
def credForms (conv : Nat) : FFmt × Nat × Option FFmt × Nat :=
  match conv with
  | 0 => (.fp32, 4, some .fp32, 4)
  | 1 => (.fp32, 4, some .bf16, 2)
  | 2 => (.bf16, 2, some .fp32, 4)
  | 3 => (.bf16, 2, some .bf16, 2)
  | _ => (.fp32, 4, none, 16)

/-- The new pattern of a destination element. -/
def credNew (sf : FFmt) (df : Option FFmt) (anchor old src : Nat) : Nat :=
  let x := dec sf src
  match df with
  | none => wsAdd (old % 2 ^ 96) (wsFrom x anchor .rne)
  | some f => rnd f .std (Num.add false (dec f old) x)

/-- The home service group performs an element: the addition, and what R304 asks (R254, R336). -/
def serveCred (s : State) (e : CredElem) : State :=
  let (sf, _, df, ds) := credForms e.conv
  let new := credNew sf df e.anchor (natOfBytes (readHome s e.dpa ds)) e.src
  let s := (byLine ((bytesOfNat ds new).mapIdx fun i v => (e.dpa + i, v))).foldl performHome (dequeue s e.dpa (.cred e))
  afterSpans s (dieOf e.core) (.engine e.core .copy e.id) (lineSpans e.dpa (e.dpa + ds - 1))

/-- The element of a command that is the oldest of its service group. -/
def credFront (s : State) (core id : Nat) : Option CredElem :=
  (s.die0.svc ++ s.die1.svc).findSome? fun r => match r.ref with
    | .cred e => if e.core = core ∧ e.id = id ∧ atFront s e.dpa r.ref then some e else none
    | _ => none

/-- An element sets out for its home: to the service group, or over the bridge. -/
def sendCred (s : State) (e : CredElem) : State :=
  if homeDie e.dpa = dieOf e.core then enqueue s e.dpa (.cred e) else sendMsg s (dieOf e.core) (.cred e)

/-- CRED: one element, in ascending order; in space G one at a time is on its way to its home or back. -/
def credStep (x : CmdCtx) : CmdStep :=
  let k := x.k
  let n := k.count
  let conv := (k.imm.extractLsb' 7 3).toNat
  let anchor := (k.vb.extractLsb' 32 8).toNat
  let (sf, ss, df, ds) := credForms conv
  let dAlign := max 4 ds
  let e := k.progress
  if n < 1 ∨ 65536 < n ∨ k.vb.extractLsb' 40 24 ≠ 0 then .fault .queueFault
  else if k.va.toNat % 4 ≠ 0 ∨ k.vd.toNat % dAlign ≠ 0 then .fault .addrAlign
  else if k.acks ≠ 0 then
    match credFront x.s x.core k.id with
    | none => .wait x.s none
    | some c =>
      -- a destination that has been poisoned meanwhile is found by the service group
      if x.s.poisonedAt c.dpa || x.s.poisonedAt (c.dpa + ds - 1) then
        .go (dequeue x.s c.dpa (.cred c)) { k with acks := 0, progress := e - 1, fault := some (k.trap .uncorrectable) }
      else .go (serveCred x.s c) { k with finished := decide (n ≤ e) }
  else if n ≤ e then .go x.s { k with finished := true }
  else
    x.read k.ssp (k.va.toNat + e * ss) ss fun x bs =>
      let a := k.vd.toNat + e * ds
      match locate x.s x.core x.l x.b k.page 0x21 k.dsp true true a ds with
      | .ok q =>
        let x := x.used k.dsp false a ds [(q, ds)]
        (match q with
         | .glob d =>
           .go (sendCred x.s { core := x.core, id := k.id, dpa := d, conv := conv, anchor := anchor, src := natOfBytes bs })
             { k with progress := e + 1, acks := 1, page := none }
         | _ =>
           let new := credNew sf df anchor (natOfBytes (readLoc x.s x.core q ds)) (natOfBytes bs)
           let (s, _) := writeLoc x.s x.core .copy k.id q (bytesOfNat ds new)
           .go s { k with progress := e + 1, finished := decide (n ≤ e + 1), page := none })
      | r => .ofLocated r

/-! ### Quantisation (R255 to R258) -/

/-- Reserved bits of the control word (Table 6.14). -/
def EngCmd.badControl (k : EngCmd) : Bool := k.vb.extractLsb' 42 22 != 0

def EngCmd.slotOf (k : EngCmd) (l : Launch) : Word := slotFormat l (k.x.type.toNat - 16)

/-- Bytes that n elements of a plane occupy. -/
def planeBytes (bits n : Nat) : Nat := (n * bits + 7) / 8

/-- Elements as bytes; the high half of a last odd 4-bit element keeps `old` (R120). -/
def elemBytes (bits : Nat) (vs : List Nat) (old : List Byte) : List Byte :=
  let m := (vs.foldl (fun (a : Memory × Nat) v => (elemPut a.1 0 bits a.2 v, a.2 + 1))
    (Memory.put [] 0 old, 0)).1
  m.bytes 0 (planeBytes bits vs.length)

/-- Elements from bytes. -/
def elemsFrom (bits n : Nat) (bs : List Byte) : List Nat :=
  let m := Memory.put [] 0 bs
  (List.range n).map fun i => elemAt m 0 bits i

/-- Elements that one step handles: a group, or 32 of a slot without scale. -/
def unitOf (slot : Word) (left : Nat) : Nat := min left (if slotScale slot = 0 then 32 else slotGroup slot)

/-- Writes the elements and the metadata entry of a unit that begins at element e. -/
def CmdCtx.putUnit (x : CmdCtx) (slot : Word) (dsp d m e : Nat) (xs : List Num) (n : Nat) : CmdStep :=
  let bits := slotBits slot
  let len := planeBytes bits xs.length
  let at_ := d + e * bits / 8
  let (els, entry) := if slotScale slot = 0 then
      (xs.map fun v => match elemKind slot with | .flt f => rndSatNum f v | .int sg w => wrapInt (rndi sg w .rne v) w | _ => 0, [])
    else
      let q := quantGroup slot xs
      (q.elems, bytesOfNat (metaSize slot) (metaOf slot q))
  match x.find dsp false true at_ len, x.find dsp false true (m + e / slotGroup slot * metaSize slot) entry.length with
  | .ok qs, .ok ms =>
    let s := ((x.used dsp false at_ len qs).used dsp false (m + e / slotGroup slot * metaSize slot) entry.length ms).s
    let (s, i) := writeAll s x.core .quant x.k.id qs (elemBytes bits els (readAll x.s x.core qs))
    let (s, j) := writeAll s x.core .quant x.k.id ms entry
    .go s { x.k with progress := e + xs.length, acks := x.k.acks + i + j, page := none, finished := decide (n ≤ e + xs.length) }
  | .error r, _ => .ofLocated r
  | _, .error r => .ofLocated r

/-- Source or destination format of QTZ and DQZ. -/
def valueFmt (k : EngCmd) : FFmt × Nat :=
  match (k.x.mod.extractLsb' 4 2).toNat with
  | 0 => (.fp32, 4)
  | 1 => (.bf16, 2)
  | _ => (.fp16, 2)

/-- QTZ (R256): one group. -/
def qtzStep (x : CmdCtx) : CmdStep :=
  let k := x.k
  let slot := k.slotOf x.l
  let n := k.count
  let (f, size) := valueFmt k
  let okCount := if slotScale slot = 0 then decide (1 ≤ n) else decide (n % slotGroup slot = 0)
  let okTile := k.ssp != 3 || decide (engAddr k.va.toNat % 8192 + n * size ≤ 8192)
  if k.badControl || !okCount || decide (1048576 < n) || !okTile then .fault .queueFault
  else if n = 0 then .go x.s { k with finished := true }
  else
    let e := k.progress
    let u := unitOf slot (n - e)
    x.read k.ssp (k.va.toNat + e * size) (u * size) fun x bs =>
      let m := Memory.put [] 0 bs
      x.putUnit slot k.dsp k.vd.toNat k.vc.toNat e ((List.range u).map fun i => dec f (m.nat (i * size) size)) n

/-- The exact values of u elements of a slot from element e on, read from its planes; a unit lies in one group. -/
def CmdCtx.slotValues (x : CmdCtx) (slot : Word) (sp a m e u : Nat) (next : CmdCtx → List Num → CmdStep) : CmdStep :=
  let bits := slotBits slot
  x.read sp (a + e * bits / 8) (planeBytes bits u) fun x bs =>
    x.read sp (m + e / slotGroup slot * metaSize slot) (metaSize slot) fun x ms =>
      let latch := readMeta slot (natOfBytes ms)
      next x ((elemsFrom bits u bs).map fun q => elemValue slot q latch)

/-- DQZ (R257): the elements of one group. -/
def dqzStep (x : CmdCtx) : CmdStep :=
  let k := x.k
  let slot := k.slotOf x.l
  let n := k.count
  let (f, size) := valueFmt k
  if k.badControl then .fault .queueFault
  else if n = 0 then .go x.s { k with finished := true }
  else
    let e := k.progress
    let u := unitOf slot (n - e)
    x.slotValues slot k.ssp k.va.toNat k.vc.toNat e u fun x vs =>
      let bs := vs.flatMap fun v => bytesOfNat size (rnd f .std v)
      x.write k.dsp (k.vd.toNat + e * size) (u * size) bs fun s k =>
        .go s { k with progress := e + u, finished := decide (n ≤ e + u), page := none }

/-- The values of a run of elements that may span groups. -/
def manyValues (slot : Word) (sp a m : Nat) (next : CmdCtx → List Num → CmdStep) :
    Nat → CmdCtx → Nat → Nat → List Num → CmdStep
  | 0, x, _, _, acc => next x acc
  | fuel + 1, x, e, left, acc =>
    if left = 0 then next x acc
    else
      let g := if slotScale slot = 0 then 32 else slotGroup slot
      let u := min left (g - e % g)
      x.slotValues slot sp a m e u fun x vs => manyValues slot sp a m next fuel x (e + u) (left - u) (acc ++ vs)

/-- RQZ in space G (R258): one group of the destination slot. R258 limits COUNT no further than its field does: a last group
may be short, and the limits that R256 gives QTZ do not hold here (DESIGN CHOICE, log 85). -/
def rqzStep (x : CmdCtx) : CmdStep :=
  let k := x.k
  let from_ := k.slotOf x.l
  let to_ := slotFormat x.l (k.x.mod.extractLsb' 0 3).toNat
  let n := k.count
  let planes := fun (slot : Word) (a m : Nat) =>
    [(a, planeBytes (slotBits slot) n), (m, if slotScale slot = 0 then 0 else (n + slotGroup slot - 1) / slotGroup slot * metaSize slot)]
  let overlap := (planes from_ k.va.toNat k.vc.toNat).any fun p =>
    (planes to_ k.vd.toNat k.vd1.toNat).any fun q => p.2 != 0 && q.2 != 0 && rangesMeet 1 p.1 p.2 1 q.1 q.2
  if k.badControl || overlap then .fault .queueFault
  else if n = 0 then .go x.s { k with finished := true }
  else
    let e := k.progress
    let u := unitOf to_ (n - e)
    manyValues from_ 1 k.va.toNat k.vc.toNat (fun x vs => x.putUnit to_ 1 k.vd.toNat k.vd1.toNat e vs n) 10 x e u []

/-- RQZ of a KV page (R287): its check and its reading; RQZ_KV_SWAP ends it. -/
def rqzKvStep (x : CmdCtx) : CmdStep :=
  let k := x.k
  let from_ := k.slotOf x.l
  let to_ := slotFormat x.l (k.x.mod.extractLsb' 0 3).toNat
  if k.badControl then .fault .queueFault
  else if k.progress ≠ 0 then .wait x.s none
  else match kvOf x.s k.launch with
    | none => .fault .kvFault
    | some q =>
      match requantFault q k.va from_ to_ with
      | some c => .fault c
      | none =>
        if spansPoisoned x.s [requantSpan q k.va false from_] then
          let (seq, head, page) := pageSel k.va
          .go (x.s.mapKv q.id fun q => q.poison seq head page) { k with fault := some (k.trap .uncorrectable) }
        else
          let (t, n) := moveRequant (x.s.mapKv q.id fun q => requantStart q k.va to_ x.core k.id) x.core k.id q k.va from_ to_
          .go t { k with progress := 1, acks := n }

/-! ### The link engine (R259 to R261) -/

/-- The check of a put's destination, as for PUT (05 R193, 11 R372): the registration, or the cause of a fault. -/
def putCheck (s : State) (sel : Nat) (off n : Nat) : Option Cause :=
  if sel / 16384 ≠ 0 then some .addrRegion
  else match registration? s (sel % 256) (sel / 256 % 64) with
    | none => some .addrRegion
    | some r =>
      if r.length < off + n then some .addrRegion
      else if r.rights / 2 % 2 = 0 then some .accessRights
      else if r.down || unreachable s (sel % 256) then some .uncorrectable
      else none

/-- LSEND as a put: one message per line, the last of which moves the window's counters by 1. -/
def lsendStep (x : CmdCtx) : CmdStep :=
  let k := x.k
  let n := k.count
  let sel := (lowWord k.vd).toNat
  let off := k.vc.toNat
  if k.badControl || decide (n < 4) || decide (1048576 < n) || decide (n % 4 ≠ 0) then .fault .queueFault
  else match putCheck x.s sel off n with
    | some c => .fault c
    | none =>
      let p := k.progress
      let m := min (n - p) (128 - (off + p) % 128)
      let (d, w) := (sel % 256, sel / 256 % 64)
      let link := streamLink x.s x.core d w
      if streamMoves x.s x.core d w link then .wait x.s none
      else x.read 0 (k.va.toNat + p) m fun x bs =>
        let last := decide (n ≤ p + m)
        let msg : PutMsg :=
          { id := 0, link := link, out := true, device := d, window := w, cells := bs.mapIdx fun i v => (off + p + i, v)
            n := if last then 1 else 0, core := x.core, ref := .engine x.core .link k.id, landed := false, final := last
            acks := 0, late := [] }
        .go (sendPut x.s msg) { k with progress := p + m, finished := last, acks := k.acks + 1 }

/-- Device, core and port that S[D] names; its bits 63:22, of which R260 says nothing, are not looked at (DESIGN CHOICE,
log 99). -/
def portOf (v : DWord) : Nat × Nat × Nat :=
  ((v.extractLsb' 0 8).toNat, (v.extractLsb' 8 9).toNat, (v.extractLsb' 17 5).toNat)

/-- LSEND to a port: it waits for receives, which take its bytes (R259). -/
def lsendPortStep (x : CmdCtx) : CmdStep :=
  let k := x.k
  let n := k.count
  let (dev, _, _) := portOf k.vd
  if k.badControl || decide (n < 4) || decide (1048576 < n) || decide (n % 4 ≠ 0) then .fault .queueFault
  else if dev ≠ x.s.device.toNat ∧ unreachable x.s dev then .fault .uncorrectable
  else x.read 0 (k.va.toNat + k.progress) (4 - k.progress % 4) fun x _ => .wait x.s none

/-- A started send of a core of this module on a port channel, the oldest with bytes left. -/
def sender? (s : State) (core dev dst port : Nat) : Option EngCmd :=
  (s.core core).link.cmds.find? fun k =>
    k.op == .lsendPort && k.started && !k.finished && k.fault.isNone && portOf k.vd == (dev, dst, port)

/-- Takes up to n bytes, word by word of the source, from the sends of a core of this module: as many as have started to send
and pass their checks, and whose launch is not stopping (10 R359). The first number bounds the words. -/
def takeLocal (s : State) (core dev dst port : Nat) : Nat → Nat → List Byte → State × List Byte
  | 0, _, acc => (s, acc)
  | fuel + 1, n, acc =>
    match sender? s core dev dst port with
    | none => (s, acc)
    | some k =>
      match s.launch? k.launch, (s.core core).block? k.launch k.block with
      | some l, some b =>
        let m := min n (min (4 - k.progress % 4) (k.count - k.progress))
        (match lsendPortStep { s := s, core := core, l := l, b := b, k := k } with
         | .wait _ _ =>
           if l.phase ≠ .admitted ∨ m = 0 then (s, acc)
           else
             let bs := (s.core core).spad.bytes (b.spadBase + k.va.toNat + k.progress) m
             let s := s.mapCmd core .link k.id fun k =>
               { k with progress := k.progress + m, finished := decide (k.count ≤ k.progress + m) }
             takeLocal s core dev dst port fuel (n - m) (acc ++ bs)
         | _ => (s, acc))
      | _, _ => (s, acc)

/-- The bytes that wait on a channel from a peer's core. -/
def PortChannel.isOf (c : PortChannel) (dev src core port : Nat) : Bool :=
  c.srcDevice == dev && c.srcCore == src && c.core == core && c.port == port

/-- Takes up to n bytes of a channel that ends at a core: from the sends of this module, or from what a peer has sent. -/
def takeBytes (s : State) (core src port dev n : Nat) : State × List Byte :=
  if dev = s.device.toNat then takeLocal s src dev core port n n []
  else
    match s.channels.find? fun c => c.isOf dev src core port with
    | none => (s, [])
    | some x =>
      let rest := x.bytes.drop n
      let others := s.channels.filter fun c => !c.isOf dev src core port
      ({ s with channels := if rest.isEmpty then others else others ++ [{ x with bytes := rest }] }, x.bytes.take n)

/-- Size of an LRADD element. -/
def laddSize (k : EngCmd) : Nat :=
  match k.x.type.toNat with
  | 11 => 2
  | 15 => 16
  | _ => 4

/-- The sum that an arriving element makes (R260). -/
def laddNew (type old x : Nat) : Nat :=
  match type with
  | 15 => wsAdd (old % 2 ^ 96) (x % 2 ^ 96)
  | 11 => rnd .bf16 .std (Num.add false (dec .bf16 old) (dec .bf16 x))
  | _ => rnd .fp32 .std (Num.add false (dec .fp32 old) (dec .fp32 x))

/-- Bytes that an LRADD has still to receive. -/
def EngCmd.owed (k : EngCmd) : Nat := (k.count - k.progress) * laddSize k - k.buffer.length

/-- Every byte of an LRADD, and of those before it on its channel, has arrived from the peer (11 R372). -/
def lraddDelivered (s : State) (core : Nat) (k : EngCmd) : Bool :=
  let (dev, src, port) := portOf k.vd
  let due := (((s.core core).link.cmds.filter fun j =>
    j.op == .lradd && decide (j.id ≤ k.id) && !j.finished && portOf j.vd == portOf k.vd).map EngCmd.owed).foldl (· + ·) 0
  match s.channels.find? fun c => c.isOf dev src core port with
  | some c => decide (due ≤ c.bytes.length)
  | none => due == 0

/-- LRADD before an element: its checks, and whether it has received its last. Bytes that arrived while their source could be
reached are added all the same (11 R372). -/
def lraddStep (x : CmdCtx) : CmdStep :=
  let k := x.k
  let (dev, _, _) := portOf k.vd
  if k.badControl then .fault .queueFault
  else if k.progress = k.count then .go x.s { k with finished := true }
  else if dev ≠ x.s.device.toNat ∧ unreachable x.s dev ∧ !lraddDelivered x.s x.core k then .fault .uncorrectable
  else .wait x.s none

/-- LRADD: the next element, once its bytes have arrived, from one send or several, and once earlier receives on the channel
have had theirs. An element of any format goes where R260 says, also when that is no multiple of its size (DESIGN CHOICE,
log 63). -/
def lraddElement (x : CmdCtx) : CmdStep :=
  let k := x.k
  let (dev, src, port) := portOf k.vd
  let size := laddSize k
  let before := (x.s.core x.core).link.cmds.any fun j =>
    j.op == .lradd && decide (j.id < k.id) && !j.finished && portOf j.vd == portOf k.vd
  match lraddStep x with
  | .wait _ _ =>
    if before then .wait x.s none
    else
      (match locate x.s x.core x.l x.b k.page 0x23 0 true true (k.va.toNat + k.progress * size) size with
       | .ok q =>
         let (s, bs) := takeBytes x.s x.core src port dev (size - k.buffer.length)
         let got := k.buffer ++ bs
         if bs.isEmpty then .wait x.s none
         else if got.length < size then .go s { k with buffer := got }
         else
           let old := natOfBytes (readLoc s x.core q size)
           let (s, _) := writeLoc s x.core .link k.id q (bytesOfNat size (laddNew k.x.type.toNat old (natOfBytes got)))
           .go s { k with progress := k.progress + 1, buffer := [], finished := decide (k.count ≤ k.progress + 1) }
       | r => .ofLocated r)
  | r => r

/-- LWIN (R261). Bits 63:22 of S[A] that are not 0 fault the command with QUEUE_FAULT, which R261 does not name (DESIGN CHOICE,
log 99). -/
def lwinStep (x : CmdCtx) : CmdStep :=
  let v := x.k.va
  let dev := (v.extractLsb' 0 8).toNat
  let w := (v.extractLsb' 8 6).toNat
  let ctr := (v.extractLsb' 14 6).toNat
  let send := v.getLsbD 21
  if x.k.badControl || x.k.count != 0 || v.extractLsb' 22 42 != 0 || (!send && dev != 0) then .fault .queueFault
  else
    let known := if send then (registration? x.s dev w).isSome else x.s.exposures.any fun q => q.window == w
    if !known then .fault .accessRights
    else
      let side := if send then some dev else none
      let same := fun (y : Binding) => y.device == side && y.window == w && (!send || y.core == x.core)
      let rest := x.s.bindings.filter fun y => !same y
      let new : Binding := { device := side, window := w, core := x.core, ctr := ctr, launch := x.k.launch }
      .go { x.s with bindings := if v.getLsbD 20 then rest else rest ++ [new] } { x.k with finished := true }

def cmdStep (x : CmdCtx) : CmdStep :=
  match x.k.op with
  | .cnest => cnestStep x
  | .cgo => cgoStep x
  | .cpy => cpyStep x
  | .cred => credStep x
  | .qtz => qtzStep x
  | .dqz => dqzStep x
  | .rqz => rqzStep x
  | .rqzKv => rqzKvStep x
  | .lsend => lsendStep x
  | .lsendPort => lsendPortStep x
  | .lradd => lraddStep x
  | .lwin => lwinStep x

/-- Puts the outcome of a step back. -/
def putStep (s : State) (core : Nat) (k : EngCmd) : CmdStep → State
  | .wait t p => t.mapCmd core (engineOf k.op) k.id fun k => { k with page := p }
  | .fault c => s.mapCmd core (engineOf k.op) k.id fun k => { k with fault := some (k.trap c), page := none }
  | .go t j => t.mapCmd core (engineOf k.op) k.id fun _ => j

/-! ## Starting (R245, 09 R335) -/

/-- An earlier command of a context keeps a later one from working: it stands before it in its queue (R335), it has faulted
(R248), or it is to load a nest or to run one in the context's order (R252). -/
def EngCmd.holdsBack (j k : EngCmd) : Bool :=
  j.storeSide == k.storeSide || j.fault.isSome || (!j.finished && (j.op == .cnest || k.op == .cnest))

/-- No command of the context that was pushed before holds it back, and no unread entry of the block stands before it
(R263). -/
def atHead (c : Core) (k : EngCmd) : Bool :=
  let e := c.eng (engineOf k.op)
  let q := nth [] c.queues (entryQueue (engineOf k.op))
  e.cmds.all (fun j => decide (k.id ≤ j.id) || !j.sameCtx k || !j.holdsBack k)
    && q.all fun n => decide (k.id ≤ n.id) || n.launch != k.launch || n.block != k.block
      || (k.ctx != 0 && e.bad.any fun b => b.1 == n.id)

/-- The command may work: it has not finished or faulted, it is its turn in its context, and its launch is not stopping (10
R359: a context stops at its next grant; DEDUCED, log 29). -/
def cmdReady (s : State) (core : Nat) (k : EngCmd) : Bool :=
  !k.finished && k.fault.isNone && atHead (s.core core) k
    && (match s.launch? k.launch with | some l => l.phase == .admitted | none => false)

/-- What a step of a command needs. -/
def cmdCtx (s : State) (core : Nat) (e : Engine) (id : Nat) : Option CmdCtx :=
  let c := s.core core
  match c.cmd? e id with
  | none => none
  | some k =>
    match s.launch? k.launch, c.block? k.launch k.block with
    | some l, some b => some { s := s, core := core, l := l, b := b, k := k }
    | _, _ => none

/-! ### The round of grants (09 R335) -/

/-- Place of a command's context in the round: lowest slot of its block, then context number. -/
def grantKey (c : Core) (k : EngCmd) : Nat :=
  let slot := match c.block? k.launch k.block with | some b => b.slots.foldl min 127 | none => 127
  (4 * slot + k.ctx) % 512

/-- The place that took the last grant of the queue of a command. -/
def EngineState.last (e : EngineState) (k : EngCmd) : Nat := if k.storeSide then e.granted.2 else e.granted.1

def EngineState.grant (e : EngineState) (k : EngCmd) (key : Nat) : EngineState :=
  { e with granted := if k.storeSide then (e.granted.1, key) else (key, e.granted.2) }

/-- How far on in the round a place lies. -/
def roundDist (last key : Nat) : Nat := (key + 1023 - last) % 512

/-- The step that a command would take, by whichever event. -/
def CmdCtx.next (x : CmdCtx) : CmdStep :=
  match x.k.op with
  | .lradd => lraddElement x
  | _ => cmdStep x

/-- A command takes no grant: it waits, or may not work. -/
def takesNone (s : State) (core : Nat) (e : Engine) (id : Nat) : Bool :=
  match cmdCtx s core e id with
  | none => true
  | some x => !x.k.started || !cmdReady s core x.k || (match x.next with | .go _ _ => false | _ => true)

/-- The next grant of the queue is the command's: every context before it in the round takes none. -/
def hasTurn (x : CmdCtx) : Bool :=
  let c := x.s.core x.core
  let e := c.eng x.eng
  let dist := fun (j : EngCmd) => roundDist (e.last x.k) (grantKey c j)
  e.cmds.all fun j => j.storeSide != x.k.storeSide || decide (dist x.k ≤ dist j) || takesNone x.s x.core x.eng j.id

/-- A step with a grant. -/
def grantStep (x : CmdCtx) (t : State) (j : EngCmd) : State :=
  (putStep x.s x.core x.k (.go t j)).mapCore x.core fun c =>
    c.setEng x.eng ((c.eng x.eng).grant x.k (grantKey (x.s.core x.core) x.k))

/-- Steps of a command: the release first, then its work, as many steps as the event grants. -/
def cmdRun (s : State) (core : Nat) (e : Engine) (id : Nat) : Nat → State
  | 0 => s
  | n + 1 =>
    match cmdCtx s core e id with
    | none => s
    | some x =>
      if !cmdReady s core x.k then s
      else if x.k.started then
        (match cmdStep x with
         | .go t j => if hasTurn x then cmdRun (grantStep x t j) core e id n else s
         | r => putStep s core x.k r)
      else match releaseStep s core x.k.slot x.k.scope x.k.mark with
        | none => s
        | some (t, false) => t
        | some (t, true) => cmdRun (t.mapCmd core e id fun k => { k with started := true }) core e id n

/-- ENGINE_COMMAND_START (R245): the command that `sel` names starts, or goes on; `count` bounds its steps. -/
def execEngineCommandStart (s : State) : Host.Outcome State Fault Refusal :=
  .next (cmdRun s s.sel.core s.sel.engine s.sel.id (max 1 s.sel.count))

/-- LRADD_ELEMENT_ADD (R260). -/
def execLraddElementAdd (s : State) : Host.Outcome State Fault Refusal :=
  .next (match cmdCtx s s.sel.core .link s.sel.id with
    | none => s
    | some x =>
      if x.k.op = .lradd ∧ x.k.started ∧ cmdReady s s.sel.core x.k then
        (match lraddElement x with
         | .go t j => if hasTurn x then grantStep x t j else s
         | r => putStep s s.sel.core x.k r)
      else s)

/-- CGO_SLOT_PUBLISH (R253): every copy of the next ring-level iteration has landed. -/
def execCgoSlotPublish (s : State) : Host.Outcome State Fault Refusal :=
  let core := s.sel.core
  .next (match cmdCtx s core .copy s.sel.id with
    | none => s
    | some x =>
      match x.k.nest? (s.core core) with
      | none => s
      | some d =>
        let span := d.span x.k.lvl
        if x.k.op = .cgo ∧ x.k.rng ∧ x.k.fault = none ∧ !x.k.finished ∧ x.k.acks = 0
            ∧ (x.k.published + 1) * span * d.elem ≤ x.k.progress then
          (s.mapCore core fun c => c.moveRing x.l x.k.block x.k.ring true).mapCmd core .copy x.k.id fun k =>
            { k with published := k.published + 1, finished := decide (d.total ≤ (k.published + 1) * span) }
        else s)

/-- RQZ_KV_SWAP (R287), once the fresh page has been written at its home. -/
def execRqzKvSwap (s : State) : Host.Outcome State Fault Refusal :=
  let core := s.sel.core
  .next (match cmdCtx s core .quant s.sel.id with
    | none => s
    | some x =>
      match kvOf s x.k.launch with
      | none => s
      | some q =>
        if x.k.op = .rqzKv ∧ x.k.progress = 1 ∧ x.k.acks = 0 ∧ x.k.fault = none ∧ !x.k.finished then
          (s.mapKv q.id fun k => requantSwap k core x.k.id (kvBegun s q.id)).mapCmd core .quant x.k.id fun k => { k with finished := true }
        else s)

/-! ## Retirement (R246, R247) -/

/-- Tiles that a range of tile space touches. -/
def tileRange (sp a n : Nat) : List Nat :=
  if sp ≠ 3 ∨ n = 0 then [] else (List.range 64).filter fun t => decide (engAddr a < (t + 1) * 8192) && decide (t * 8192 < engAddr a + n)

/-- The tiles that a command names. -/
def EngCmd.tiles (k : EngCmd) : List Nat :=
  match k.op with
  | .cpy => tileRange k.ssp k.va.toNat k.count ++ tileRange k.dsp k.vd.toNat k.count
  | .cred => tileRange k.ssp k.va.toNat (k.count * (credForms (k.imm.extractLsb' 7 3).toNat).2.1)
  | .qtz => tileRange k.ssp k.va.toNat (k.count * (valueFmt k).2)
  | .dqz => tileRange k.dsp k.vd.toNat (k.count * (valueFmt k).2)
  | _ => []

/-- Returns the tiles of a command with RET to its group (R247). -/
def returnTiles (c : Core) (k : EngCmd) : Core :=
  if !k.ret || !liveSlotOf c k.launch k.block k.slot then c
  else k.tiles.foldl (fun c t =>
    if (c.tile t).owner = engineCode (engineOf k.op) then
      c.setTile t { c.tile t with owner := k.slot, offer := true, land := false, waits := [], seqWait := false }
    else c) c

/-- The result record (Table 6.10). -/
def resultRecord (k : EngCmd) (ctr : Nat) (num : DWord) : DWord :=
  (0#16 : BitVec 16) ++ k.status ++ BitVec.ofNat 2 k.ctx ++ BitVec.ofNat 6 ctr ++ num.extractLsb' 0 32

/-- A command retires: tiles, counter, record, barrier. -/
def retireCmd (c : Core) (k : EngCmd) : Core :=
  let e := engineOf k.op
  let c := c.setEng e { c.eng e with cmds := (c.eng e).cmds.filter fun j => j.id ≠ k.id }
  let c := returnTiles c k
  let c := match k.ctr with
    | none => c
    | some n =>
      let c := c.addCounter n 1#64
      if k.res then c.pushQueue (resultQueue e) { launch := k.launch, block := k.block, slot := k.slot, id := 0
                                                  value := resultRecord k n (c.counter n) } else c
  if k.op = .cred ∧ k.imm.getLsbD 6 then signalBar c k.launch k.block (k.imm.extractLsb' 2 4).toNat else c

/-- The command's reads and writes have completed, every earlier one of its context has retired, and its result queue
has room. -/
def canRetire (c : Core) (k : EngCmd) : Bool :=
  k.finished && k.acks == 0 && k.fault.isNone
    && (c.eng (engineOf k.op)).cmds.all (fun j => decide (k.id ≤ j.id) || !j.sameCtx k)
    && !(k.res && c.queueFull (resultQueue (engineOf k.op)))

/-- ENGINE_COMMAND_RETIRE (R246). -/
def execEngineCommandRetire (s : State) : Host.Outcome State Fault Refusal :=
  .next (s.mapCore s.sel.core fun c =>
    match c.cmd? s.sel.engine s.sel.id with
    | none => c
    | some k => if canRetire c k then retireCmd c k else c)

/-- RETT `.xdrop`: the command retires with STATUS set to the cause (R248). -/
def dropCmd (k : EngCmd) : EngCmd :=
  match k.fault with
  | none => k
  | some t => { k with fault := none, finished := true, status := BitVec.ofNat 8 t.cause.code, buffer := [] }

/-! ## Indirect commands (R263) -/

/-- The command that an instruction of an engine makes of five values. -/
def cmdOf (e : Engine) (i : Instr) : Option EngOp :=
  let op : Option EngOp := match i with
    | .cnest _ _ => some .cnest | .cgo _ _ => some .cgo | .cpy _ _ => some .cpy | .cred _ _ => some .cred
    | .qtz _ _ => some .qtz | .dqz _ _ => some .dqz | .rqz _ _ => some .rqz | .rqzKv _ _ => some .rqzKv
    | .lsend _ _ => some .lsend | .lsendPort _ _ => some .lsendPort | .lradd _ _ => some .lradd | .lwin _ _ => some .lwin
    | _ => none
  match op with
  | some o => if engineOf o = e then some o else none
  | none => none

/-- The checks of an indirect command's fields: register limits do not apply. -/
def recordBad (l : Launch) (i : Instr) : Bool :=
  let f := infoOf { wide := false, barUse := l.rec_.barrierUse, xtables := l.rec_.xtables, rings := l.rec_.rings
                    formats := l.rec_.formats, kv := l.rec_.kvContext != 0, route := l.rec_.routeTable != 0, handler := false } i
  f.bad7 || f.bad9 || f.badE || f.badRing

/-- A command that a record gave, and whose fields fail their checks: it faults whenever it is run. -/
def badRecord (s : State) (k : EngCmd) : Bool :=
  match s.launch? k.launch, decode .e k.base k.ext with
  | some l, .ok i => recordBad l i
  | _, _ => false

/-- The trap of an entry that is no command: a fault of context 0, with what TRAP_WORDS shows. -/
def entryTrap (e : Engine) (n : QEntry) (c : Cause) (words : DWord) : Trap :=
  { Trap.plain c with origin := .engine e n.id, words := words }

/-- Reads the next entry of an engine's queue that has not faulted and whose launch is not stopping (10 R359). A record with
another engine's opcode, or one that does not decode, names no context: it faults like an entry that cannot be read, in context 0,
and `.xdrop` discards the entry while RETT reads it again, where R263 states that of the entry's own three faults only (DESIGN
CHOICE, log 98). -/
def readEntry (s : State) (core : Nat) (e : Engine) : State :=
  let c := s.core core
  let q := nth [] c.queues (entryQueue e)
  let st := c.eng e
  let runs := fun (n : QEntry) => match s.launch? n.launch with | some l => l.phase == .admitted | none => false
  match q.find? fun n => runs n && !st.bad.any fun b => b.1 == n.id with
  | none => s
  | some n =>
    let fail := fun (t : Trap) => s.setCore core (c.setEng e { st with bad := st.bad ++ [(n.id, t)] })
    match s.launch? n.launch, c.block? n.launch n.block with
    | some l, some b =>
      let o := (lowWord n.value).toNat
      if highWord n.value ≠ 0#32 then fail (entryTrap e n .queueFault n.value)
      else if o % 8 ≠ 0 then fail (entryTrap e n .addrAlign n.value)
      else if b.spadSize < o + 48 then fail (entryTrap e n .addrRegion n.value)
      else
        let at_ := fun (k w : Nat) => c.spad.nat (b.spadBase + o + k) w
        let base : Word := BitVec.ofNat 32 (at_ 0 4)
        let ext : Word := BitVec.ofNat 32 (at_ 4 4)
        let v := fun (k : Nat) => BitVec.ofNat 64 (at_ (8 + 8 * k) 8)
        match (match decode .e base ext with | .ok i => (cmdOf e i).map fun op => (i, op) | _ => none) with
        | none => fail (entryTrap e n .queueFault (ext ++ base))
        | some (i, op) =>
          let k := freshCmd op n.launch n.block n.slot n.id base ext (v 0) (v 1) (v 2) (v 3) (v 4)
          if c.cmdFull k then s
          else
            let k := if recordBad l i then { k with fault := some (k.trap .queueFault) } else k
            let c := { c with queues := setNth c.queues (entryQueue e) (q.filter fun m => m.id ≠ n.id) }
            usesFabric (s.setCore core (c.pushCmd k)) k
    | _, _ => s

/-- INDIRECT_COMMAND (R263). -/
def execIndirectCommand (s : State) : Host.Outcome State Fault Refusal := .next (readEntry s s.sel.core s.sel.engine)

/-! ## QPUSH and QPOP (R262, 01 R25) -/

/-- Queues that groups may only push to, and only pop from. -/
def pushOnly (q : Nat) : Bool := q == 0 || q == 2 || q == 4
def popOnly (q : Nat) : Bool := q == 1 || q == 3 || q == 5 || q == 6 || q == 7

/-- A group's entry. -/
def pushEntry (c : Core) (x : Issuer) (q : Nat) (v : DWord) : Core :=
  (c.pushQueue q { launch := x.l.id, block := x.b.index, slot := x.slot, id := c.nextId, value := v }).tick

/-- QPUSH: a full engine queue holds the scheduler, a full queue between groups leaves the group not ready (R66). -/
def qpush (s : State) (i : Instr) (w : Base) (e : ExtR) : Host.Outcome State Fault Refusal :=
  runInstr s i fun x m =>
    let q := (w.b.extractLsb' 0 4).toNat
    let l := elect m
    let v := if e.sa then x.g.sreg w.a.toNat
      else if e.type = 7#5 then pair (vget s x w.a.toNat l) (vget s x (w.a.toNat + 1) l)
      else (vget s x w.a.toNat l).setWidth 64
    let c := s.core x.core
    if popOnly q then .trap .queueFault 0 0#32
    else match x.g.predicted with
      | some p => .done (holdItem s x p (.push q v))
      | none =>
        if !c.queueFull q then .done (s.setCore x.core (pushEntry c x q v))
        else if pushOnly q then .stall
        else .wait (setWait s x.core x.slot (.push q v))

/-- QPOP: pending until its entry arrives. -/
def qpop (s : State) (i : Instr) (w : Base) (e : ExtR) : Host.Outcome State Fault Refusal :=
  runInstr s i fun x m =>
    let q := (w.b.extractLsb' 0 4).toNat
    if pushOnly q then .trap .queueFault 0 0#32
    else
      let d : PopDst := { scalar := e.sd, wide := e.type == 7#5, reg := w.d.toNat, lanes := m, win := x.g.winmap }
      .done ((s.mapGroup x.core x.slot fun g => g.addPend (s.core x.core).nextId (.pop q d)).mapCore x.core Core.tick)

/-- An entry reaches the destination of a pop. -/
def landPop (c : Core) (slot : Nat) (d : PopDst) (v : DWord) : Core :=
  match c.group? slot with
  | none => c
  | some g =>
    if d.scalar then c.setGroup slot (g.setS d.reg v)
    else (lanesOf d.lanes).foldl (fun c l =>
      let c := c.vWrite d.win g.wide d.reg l (lowWord v)
      if d.wide then c.vWrite d.win g.wide (d.reg + 1) l (highWord v) else c) c

/-- The oldest entry of a block in a queue, and the queue without it. -/
def takeEntry (launch block : Nat) : List QEntry → Option (DWord × List QEntry)
  | [] => none
  | n :: ns =>
    if n.launch = launch ∧ n.block = block then some (n.value, ns)
    else (takeEntry launch block ns).map fun p => (p.1, n :: p.2)

/-- The pending pops of a core, by their place in program order. -/
def pendingPops (c : Core) : List (Nat × Nat × Nat × PopDst) :=
  c.groups.flatMap fun p => p.2.pend.filterMap fun q => match q.op with
    | .pop n d => some (q.id, p.1, n, d)
    | _ => none

/-- The pop of lowest place among some. -/
def firstPop : List (Nat × Nat × Nat × PopDst) → Option (Nat × Nat × Nat × PopDst)
  | [] => none
  | p :: ps => match firstPop ps with | none => some p | some q => if p.1 ≤ q.1 then some p else some q

/-- Serves pending pops in order, each with the oldest entry of its block (01 R25). -/
def servePops (c : Core) : Nat → List (Nat × Nat × Nat × PopDst) → Core
  | 0, _ => c
  | fuel + 1, ps =>
    match firstPop ps with
    | none => c
    | some (id, slot, q, d) =>
      let rest := ps.filter fun p => p.1 ≠ id
      match c.group? slot with
      | none => servePops c fuel rest
      | some g =>
        match takeEntry g.launch g.block (nth [] c.queues q) with
        | none => servePops c fuel rest
        | some (v, ns) =>
          let c := landPop { c with queues := setNth c.queues q ns } slot d v
          servePops (c.mapGroup slot fun g => g.dropPend id) fuel rest

/-- A push that waited for room (R66), in slot order. -/
def servePushes (c : Core) : Core :=
  c.groups.foldl (fun c p =>
    match p.2.wait with
    | .push q v =>
      if c.queueFull q then c
      else
        ((c.pushQueue q { launch := p.2.launch, block := p.2.block, slot := p.1, id := c.nextId, value := v }).tick).mapGroup p.1
          fun g => { g with wait := .none }
    | _ => c) c

/-! ## The instructions -/

/-- CNEST (R252). -/
def execCnest (w : Base) (x : ExtC) (s : State) : Host.Outcome State Fault Refusal :=
  engineC_ s (.cnest w x) .cnest w

/-- CGO (R253). -/
def execCgo (w : Base) (x : ExtC) (s : State) : Host.Outcome State Fault Refusal :=
  engineC_ s (.cgo w x) .cgo w

/-- CPY (R251). -/
def execCpy (w : Base) (x : ExtC) (s : State) : Host.Outcome State Fault Refusal :=
  engineC_ s (.cpy w x) .cpy w

/-- CRED (R254). -/
def execCred (w : Base) (x : ExtC) (s : State) : Host.Outcome State Fault Refusal :=
  engineC_ s (.cred w x) .cred w

/-- QTZ (R256). -/
def execQtz (w : Base) (x : ExtR) (s : State) : Host.Outcome State Fault Refusal :=
  engineR_ s (.qtz w x) .qtz w x

/-- DQZ (R257). -/
def execDqz (w : Base) (x : ExtR) (s : State) : Host.Outcome State Fault Refusal :=
  engineR_ s (.dqz w x) .dqz w x

/-- RQZ (R258). -/
def execRqz (w : Base) (x : ExtR) (s : State) : Host.Outcome State Fault Refusal :=
  engineR_ s (.rqz w x) .rqz w x

/-- RQZ_KV (R287). -/
def execRqzKv (w : Base) (x : ExtR) (s : State) : Host.Outcome State Fault Refusal :=
  engineR_ s (.rqzKv w x) .rqzKv w x

/-- LSEND (R259). -/
def execLsend (w : Base) (x : ExtR) (s : State) : Host.Outcome State Fault Refusal :=
  engineR_ s (.lsend w x) .lsend w x

/-- LSEND_PORT (R259). -/
def execLsendPort (w : Base) (x : ExtR) (s : State) : Host.Outcome State Fault Refusal :=
  engineR_ s (.lsendPort w x) .lsendPort w x

/-- LRADD (R260). -/
def execLradd (w : Base) (x : ExtR) (s : State) : Host.Outcome State Fault Refusal :=
  engineR_ s (.lradd w x) .lradd w x

/-- LWIN (R261). -/
def execLwin (w : Base) (x : ExtR) (s : State) : Host.Outcome State Fault Refusal :=
  engineR_ s (.lwin w x) .lwin w x

/-- QPUSH (R262). Short form (R69). -/
def execQpush (w : Base) (s : State) : Host.Outcome State Fault Refusal :=
  qpush s (.qpush w) w (shortR 8)

/-- QPUSH_LONG (R262). -/
def execQpushLong (w : Base) (x : ExtR) (s : State) : Host.Outcome State Fault Refusal :=
  qpush s (.qpushLong w x) w x

/-- QPOP (R262). Short form (R69). -/
def execQpop (w : Base) (s : State) : Host.Outcome State Fault Refusal :=
  qpop s (.qpop w) w (shortR 8)

/-- QPOP_LONG (R262). -/
def execQpopLong (w : Base) (x : ExtR) (s : State) : Host.Outcome State Fault Refusal :=
  qpop s (.qpopLong w x) w x

end Sys2Proof.Machine
end

