-- ==== Sys2Proof/Machine/Float.lean ====
section
/-! DEFINITION. Floating-point arithmetic of class V (04 R153 to R157) and the long operations (R158, R159), in the
clause's float modes. -/

namespace Sys2Proof.Machine

/-- An FP32 opcode of two sources. -/
def fpOp2 (s : State) (i : Instr) (w : Base) (e : ExtRI) (f : FpMode → FFmt → Nat → Nat → Nat) :
    Host.Outcome State Fault Refusal :=
  laneOp s i w e fun md v l => f md .fp32 (v.a l) (v.b l)

/-- FSCL (R155): the result is a float in either layout. -/
def fscl (s : State) (i : Instr) (w : Base) (e : ExtRI) : Host.Outcome State Fault Refusal :=
  runInstr s i fun x m =>
    let v := srcOf s x w e
    .done (putResult s x m v.sd w.d.toNat 9 fun l => fpScale (fpMode x) (v.a l) (readInt true 32 (v.b l)))

/-- FRND (R156): modifier 0 is the group's mode, 1 to 4 fix it. -/
def frnd (s : State) (i : Instr) (w : Base) (e : ExtRI) : Host.Outcome State Fault Refusal :=
  laneOp s i w e fun md v l =>
    fpIntegral md (match v.mod with | 1 => .rne | 2 => .rtz | 3 => .rup | 4 => .rdn | _ => md.rm) (v.a l)

/-- An operation on both elements of packed pairs (R107, R157). -/
def halfOp (s : State) (i : Instr) (w : Base) (e : ExtR) (f : FpMode → FFmt → Nat → Nat → Nat → Nat) :
    Host.Outcome State Fault Refusal :=
  laneOp s i w (.r e) fun md v l =>
    let fmt := cmpHalf v.type
    let lo := f md fmt (v.a l % 65536) (v.b l % 65536) (v.c l % 65536)
    let hi := f md fmt (v.a l / 65536) (v.b l / 65536) (v.c l / 65536)
    lo + 65536 * hi
where
  /-- The element format of a TYPE. -/
  cmpHalf (t : Nat) : FFmt := if t = 10 then .fp16 else .bf16

/-- A long operation (R158, R159): its registers are checked at issue, and its result lands later. -/
def longInstr (s : State) (i : Instr) (w : Base) (e : ExtR) (fn : LongFn) : Host.Outcome State Fault Refusal :=
  runInstr s i fun x m =>
    let v := srcR s x w e
    let r := fun l => longOp (fpMode x) fn (v.a l)
    let op : PendOp :=
      if v.sd then .long x.g.winmap [] (some (w.d.toNat, scalarOf 9 (r (elect m))))
      else .long x.g.winmap ((lanesOf m).map fun l => (w.d.toNat, l, BitVec.ofNat 32 (r l))) none
    .done ((s.mapGroup x.core x.slot fun g => g.addPend (s.core x.core).nextId op).mapCore x.core Core.tick)

/-- A pending long operation lands in every active lane (R159). -/
def landLong (s : State) (core slot id : Nat) : State :=
  match s.group? core slot with
  | none => s
  | some g =>
    match g.pend? id with
    | some (.long win ws sc) =>
      let s := s.mapCore core fun c => ws.foldl (fun c w => c.vWrite win g.wide w.1 w.2.1 w.2.2) c
      s.mapGroup core slot fun g =>
        (match sc with | none => g | some p => g.setS p.1 p.2).dropPend id
    | _ => s

/-- FADD (R153). Short form (R69). -/
def execFadd (w : Base) (s : State) : Host.Outcome State Fault Refusal :=
  fpOp2 s (.fadd w) w (.r (shortR 9)) fpAdd

/-- FADD (R153). -/
def execFaddLong (w : Base) (x : ExtRI) (s : State) : Host.Outcome State Fault Refusal :=
  fpOp2 s (.faddLong w x) w x fpAdd

/-- FSUB (R153). Short form (R69). -/
def execFsub (w : Base) (s : State) : Host.Outcome State Fault Refusal :=
  fpOp2 s (.fsub w) w (.r (shortR 9)) fpSub

/-- FSUB (R153). -/
def execFsubLong (w : Base) (x : ExtRI) (s : State) : Host.Outcome State Fault Refusal :=
  fpOp2 s (.fsubLong w x) w x fpSub

/-- FMUL (R153). Short form (R69). -/
def execFmul (w : Base) (s : State) : Host.Outcome State Fault Refusal :=
  fpOp2 s (.fmul w) w (.r (shortR 9)) fpMul

/-- FMUL (R153). -/
def execFmulLong (w : Base) (x : ExtRI) (s : State) : Host.Outcome State Fault Refusal :=
  fpOp2 s (.fmulLong w x) w x fpMul

/-- FFMA (R153). -/
def execFfma (w : Base) (x : ExtR) (s : State) : Host.Outcome State Fault Refusal :=
  laneOp s (.ffma w x) w (.r x) fun md v l => fpFma md .fp32 (v.a l) (v.b l) (v.c l)

/-- FMIN (R154). Short form (R69). -/
def execFmin (w : Base) (s : State) : Host.Outcome State Fault Refusal :=
  fpOp2 s (.fmin w) w (.r (shortR 9)) fun md f => fpMinMax md f false

/-- FMIN (R154). -/
def execFminLong (w : Base) (x : ExtRI) (s : State) : Host.Outcome State Fault Refusal :=
  fpOp2 s (.fminLong w x) w x fun md f => fpMinMax md f false

/-- FMAX (R154). Short form (R69). -/
def execFmax (w : Base) (s : State) : Host.Outcome State Fault Refusal :=
  fpOp2 s (.fmax w) w (.r (shortR 9)) fun md f => fpMinMax md f true

/-- FMAX (R154). -/
def execFmaxLong (w : Base) (x : ExtRI) (s : State) : Host.Outcome State Fault Refusal :=
  fpOp2 s (.fmaxLong w x) w x fun md f => fpMinMax md f true

/-- FSCL (R155). Short form (R69). -/
def execFscl (w : Base) (s : State) : Host.Outcome State Fault Refusal :=
  fscl s (.fscl w) w (.r (shortR 9))

/-- FSCL (R155). -/
def execFsclLong (w : Base) (x : ExtRI) (s : State) : Host.Outcome State Fault Refusal :=
  fscl s (.fsclLong w x) w x

/-- FRND (R156). Short form (R69). -/
def execFrnd (w : Base) (s : State) : Host.Outcome State Fault Refusal :=
  frnd s (.frnd w) w (.r (shortR 9))

/-- FRND (R156). -/
def execFrndLong (w : Base) (x : ExtRI) (s : State) : Host.Outcome State Fault Refusal :=
  frnd s (.frndLong w x) w x

/-- HADD2 (R157). Short form (R69). -/
def execHadd2 (w : Base) (s : State) : Host.Outcome State Fault Refusal :=
  halfOp s (.hadd2 w) w (shortR 11) fun md f a b _ => fpAdd md f a b

/-- HADD2 (R157). -/
def execHadd2Long (w : Base) (x : ExtR) (s : State) : Host.Outcome State Fault Refusal :=
  halfOp s (.hadd2Long w x) w x fun md f a b _ => fpAdd md f a b

/-- HMUL2 (R157). Short form (R69). -/
def execHmul2 (w : Base) (s : State) : Host.Outcome State Fault Refusal :=
  halfOp s (.hmul2 w) w (shortR 11) fun md f a b _ => fpMul md f a b

/-- HMUL2 (R157). -/
def execHmul2Long (w : Base) (x : ExtR) (s : State) : Host.Outcome State Fault Refusal :=
  halfOp s (.hmul2Long w x) w x fun md f a b _ => fpMul md f a b

/-- HFMA2 (R157). -/
def execHfma2 (w : Base) (x : ExtR) (s : State) : Host.Outcome State Fault Refusal :=
  halfOp s (.hfma2 w x) w x fpFma

/-- FRCP (R158). Short form (R69). -/
def execFrcp (w : Base) (s : State) : Host.Outcome State Fault Refusal :=
  longInstr s (.frcp w) w (shortR 9) .rcp

/-- FRCP (R158). -/
def execFrcpLong (w : Base) (x : ExtR) (s : State) : Host.Outcome State Fault Refusal :=
  longInstr s (.frcpLong w x) w x .rcp

/-- FRSQ (R158). Short form (R69). -/
def execFrsq (w : Base) (s : State) : Host.Outcome State Fault Refusal :=
  longInstr s (.frsq w) w (shortR 9) .rsq

/-- FRSQ (R158). -/
def execFrsqLong (w : Base) (x : ExtR) (s : State) : Host.Outcome State Fault Refusal :=
  longInstr s (.frsqLong w x) w x .rsq

/-- FSQRT (R158). Short form (R69). -/
def execFsqrt (w : Base) (s : State) : Host.Outcome State Fault Refusal :=
  longInstr s (.fsqrt w) w (shortR 9) .sqrt

/-- FSQRT (R158). -/
def execFsqrtLong (w : Base) (x : ExtR) (s : State) : Host.Outcome State Fault Refusal :=
  longInstr s (.fsqrtLong w x) w x .sqrt

/-- FEXP2 (R158). Short form (R69). -/
def execFexp2 (w : Base) (s : State) : Host.Outcome State Fault Refusal :=
  longInstr s (.fexp2 w) w (shortR 9) .exp2

/-- FEXP2 (R158). -/
def execFexp2Long (w : Base) (x : ExtR) (s : State) : Host.Outcome State Fault Refusal :=
  longInstr s (.fexp2Long w x) w x .exp2

/-- FLOG2 (R158). Short form (R69). -/
def execFlog2 (w : Base) (s : State) : Host.Outcome State Fault Refusal :=
  longInstr s (.flog2 w) w (shortR 9) .log2

/-- FLOG2 (R158). -/
def execFlog2Long (w : Base) (x : ExtR) (s : State) : Host.Outcome State Fault Refusal :=
  longInstr s (.flog2Long w x) w x .log2

/-- FSIN (R158). Short form (R69). -/
def execFsin (w : Base) (s : State) : Host.Outcome State Fault Refusal :=
  longInstr s (.fsin w) w (shortR 9) .sin

/-- FSIN (R158). -/
def execFsinLong (w : Base) (x : ExtR) (s : State) : Host.Outcome State Fault Refusal :=
  longInstr s (.fsinLong w x) w x .sin

/-- FCOS (R158). Short form (R69). -/
def execFcos (w : Base) (s : State) : Host.Outcome State Fault Refusal :=
  longInstr s (.fcos w) w (shortR 9) .cos

/-- FCOS (R158). -/
def execFcosLong (w : Base) (x : ExtR) (s : State) : Host.Outcome State Fault Refusal :=
  longInstr s (.fcosLong w x) w x .cos

/-- FTANH (R158). Short form (R69). -/
def execFtanh (w : Base) (s : State) : Host.Outcome State Fault Refusal :=
  longInstr s (.ftanh w) w (shortR 9) .tanh

/-- FTANH (R158). -/
def execFtanhLong (w : Base) (x : ExtR) (s : State) : Host.Outcome State Fault Refusal :=
  longInstr s (.ftanhLong w x) w x .tanh

end Sys2Proof.Machine
end

