-- ==== Sys2Proof/Machine/System.lean ====
section
/-! DEFINITION. The system instructions of class E (06 R264 to R268): the special registers of 01 Table 1.7, MODE, TRAP,
RETT and SLEEP; and the trap of an unassigned opcode (02 R84). -/

namespace Sys2Proof.Machine

/-! ## Special registers (01 Table 1.7) -/

/-- Digits of a block index over the levels from 2 on that are not a domain level (01 R33). -/
def blockDigits (r : LaunchRec) (block : Nat) : List Nat := digits ((innerLevels r).map fun v => v.extent) block

/-- LEVEL_INDEX_k (01 R33). -/
def levelIndex (r : LaunchRec) (block group k : Nat) : Nat :=
  if r.nlevels ≤ k + 1 then 0
  else if k = 0 then group
  else match r.levels[k + 1]? with
    | none => 0
    | some v => if v.domain = 6 then r.domainIndex else nth 0 (blockDigits r block) (k - 1)

/-- WINMAP: a byte for each of the four window entries, and 0 above them (01 Table 1.7; DEDUCED, log 88). -/
def winmapWord (win : List (Option Nat)) : DWord :=
  BitVec.ofNat 64 ((win.mapIdx fun e t => (match t with | some n => n | none => 0xFF) * 2 ^ (8 * e)).foldl (· + ·) 0)

/-- The entries that give one value for the group. -/
def sreadGroup (s : State) (x : Issuer) (n : Nat) : DWord :=
  let r := x.l.rec_
  let num := fun (v : Nat) => BitVec.ofNat 64 v
  match n with
  | 0x00 => num x.core
  | 0x01 => num (x.core / 64)
  | 0x02 => num (dieOf x.core)
  | 0x03 => num x.slot
  | 0x05 => num x.g.block
  | 0x06 => num (x.g.block % r.grid.1)
  | 0x07 => num (x.g.block / r.grid.1 % r.grid.2.1)
  | 0x08 => num (x.g.block / r.grid.1 / r.grid.2.1)
  | 0x09 => num x.g.index
  | 0x0A => num r.domainIndex
  | 0x0B => num s.cycle
  | 0x0C => (match x.g.handler with | some h => h.trap.causeWord | none => 0#64)
  | 0x0D => (match x.g.handler with | some h => h.trap.words | none => 0#64)
  | 0x0F => winmapWord x.g.winmap
  | _ => num (levelIndex r x.g.block x.g.index (n - 0x10))

/-- LFR bits 63:0 and 127:64 (01 Table 1.3). -/
def Lfr.lo (r : Lfr) : DWord := r.pc ++ r.detail ++ 0#7 ++ BitVec.ofBool r.valid ++ r.cause

def lfrOf (g : Group) (l : Nat) : Lfr :=
  nth { addr := 0#64, pc := 0#32, detail := 0#16, valid := false, cause := 0#8 } g.lfr l

/-- The successive OPLOG reads of a lane at a lane-fault trap (10 Table 10.4). -/
def faultView (g : Group) (l : Nat) : List Word :=
  match nth none g.faultLog l with
  | some f =>
    if g.parkedValid.getLsbD l then
      [f.site.base, f.site.ext, lowWord f.a, highWord f.a, lowWord f.b, highWord f.b]
        ++ (List.range 4).map (fun i => nth 0#32 f.data i) ++ [f.reached]
    else []
  | none => []

/-- The value of an OPLOG read (10 R349). -/
def oplogValue (g : Group) (l : Nat) : Word :=
  match g.handler with
  | none => 0#32
  | some h =>
    nth 0#32 (if h.trap.lanef then faultView g l else nth [] h.trap.view l) h.readPos

/-- The entries that give one value per lane. -/
def sreadLane (g : Group) (n l : Nat) : DWord :=
  match n with
  | 0x04 => BitVec.ofNat 64 l
  | 0x0E => (oplogValue g l).setWidth 64
  | 0x18 => (lfrOf g l).lo
  | 0x19 => (lfrOf g l).addr
  | _ => (nth 0#32 g.lpc l).setWidth 64

/-- SREAD (R264): a read of OPLOG moves its position on. -/
def sread (s : State) (i : Instr) (w : Base) (e : ExtC) : Host.Outcome State Fault Refusal :=
  runInstr s i fun x m =>
    let n := (e.imm.extractLsb' 0 8).toNat
    if srLane n then
      let wide := n == 0x18 || n == 0x19
      let s := vsets s x ((lanesOf m).flatMap fun l => laneWrites wide w.d.toNat l (sreadLane x.g n l).toNat)
      .done (if n = 0x0E then
        s.mapGroup x.core x.slot fun g => { g with handler := g.handler.map fun h => { h with readPos := h.readPos + 1 } }
      else s)
    else .done (sset s x w.d.toNat (sreadGroup s x n))

/-- SWRITE (R264): LFR_LO's VALID as W1C, which drops the lane's fault entry (10 R348), or the frame's LPC. -/
def swrite (s : State) (i : Instr) (w : Base) (e : ExtC) : Host.Outcome State Fault Refusal :=
  runInstr s i fun x m =>
    let n := (e.imm.extractLsb' 0 8).toNat
    let v := fun l => if e.sa then lowWord (x.g.sreg w.a.toNat) else vget s x w.a.toNat l
    .done (s.mapGroup x.core x.slot fun g =>
      if n = 0x18 then
        let hit := fun l => (v l).getLsbD 8
        let clear := maskBy fun l => m.getLsbD l && hit l
        { g with lfr := mapLanes clear (fun _ r => { r with valid := false }) g.lfr
                 faultLog := mapLanes clear (fun _ _ => none) g.faultLog }
      else { g with lpc := mapLanes m (fun l _ => pcWord (v l)) g.lpc })

/-! ## MODE, TRAP, RETT and SLEEP -/

/-- MODE with some of its bits 4:0 replaced (R265). -/
def modeWith (old : Word) (value mask : BitVec 5) : Word :=
  let k : Word := mask.setWidth 32
  (old &&& ~~~k) ||| (value.setWidth 32 &&& k)

/-- MODE (R265): from the group's next clause on. -/
def setMode (s : State) (i : Instr) (w : Base) (e : ExtC) : Host.Outcome State Fault Refusal :=
  runInstr s i fun x _ =>
    let (v, k) := if e.sa then
        ((x.g.sreg w.a.toNat).extractLsb' 0 5, (x.g.sreg w.a.toNat).extractLsb' 8 5)
      else (e.imm.extractLsb' 0 5, e.imm.extractLsb' 8 5)
    .done (s.mapGroup x.core x.slot fun g => { g with mode := modeWith g.mode v k })

/-- TRAP (R266). -/
def userTrap (s : State) (i : Instr) (e : ExtC) : Host.Outcome State Fault Refusal :=
  runInstr s i fun _ _ => .trap .userTrap 0 (e.imm.setWidth 32)

/-- The stopped clause of a core's sequencer goes on, or is abandoned on every core that runs it (R244). -/
def resumeClause (s : State) (core : Nat) (xdrop : Bool) : State :=
  let f := fun (r : SeqRun) => if xdrop then abandonClause r else { r with stopped := none }
  let lead : Bool := match (s.core core).seqRun with | some r => r.role == .leader | none => false
  let s := setSeqRun s core fun r => if r.stopped.isSome then f r else r
  if lead && xdrop then setSeqRun s (core + 1) fun r => if r.role = .follower then abandonClause r else r else s

/-- The stopped command, or the entry that was no command, goes on or is dropped (R248, R263). -/
def resumeCmd (c : Core) (e : Engine) (id : Nat) (xdrop : Bool) (bad : EngCmd → Bool) : Core :=
  let st := c.eng e
  if st.bad.any fun b => b.1 == id then
    let c := c.setEng e { st with bad := st.bad.filter fun b => b.1 ≠ id }
    if xdrop then
      { c with queues := setNth c.queues (entryQueue e) ((nth [] c.queues (entryQueue e)).filter fun n => n.id ≠ id) }
    else c
  else c.mapCmd e id fun k =>
    if xdrop then dropCmd k else if bad k then k else { k with fault := none }

/-- What RETT does to the clause or command whose fault the handler was entered for (R267). -/
def resumeStopped (s : State) (core : Nat) (t : Trap) (xdrop : Bool) : State :=
  match t.origin with
  | .sequencer => resumeClause s core xdrop
  | .engine e id => s.mapCore core fun c => resumeCmd c e id xdrop (badRecord s)
  | _ => s

/-- Every lane of a group exits, and it ends (01 R47). -/
def exitGroup (s : State) (core slot : Nat) : State :=
  let s := s.mapGroup core slot fun g => { g with lanes := g.lanes.map fun _ => .exited }
  endGroup s core slot

/-- RETT (R267, 10 R346); after GANG_LOST it acts as EXIT (10 R363). -/
def rett (s : State) (i : Instr) (e : ExtR) : Host.Outcome State Fault Refusal :=
  runInstr s i fun x _ =>
    match x.g.handler with
    | none => .trap .illegalEncoding 0xE 0#32
    | some h =>
      -- the handler's marks of LYIELD go with its lane states
      let s := s.mapCore x.core fun c => c.mapSched x.sched fun k => { k with run := k.run.map fun r => { r with marked := 0#64 } }
      let s := s.mapGroup x.core x.slot leaveHandler
      let s := resumeStopped s x.core h.trap (e.mod.getLsbD 0)
      .jump (if h.trap.cause = .gangLost then exitGroup s x.core x.slot else s)

/-- SLEEP (R268). -/
def sleep (s : State) (i : Instr) (w : Base) (e : ExtC) : Host.Outcome State Fault Refusal :=
  runInstr s i fun x _ =>
    let n := if e.sa then (x.g.sreg w.a.toNat).toNat % 2 ^ 24 else e.imm.toNat
    if n = 0 then .done s else .wait (setWait s x.core x.slot (.sleep (s.cycle + n)))

/-- SLEEP_EXPIRE (R268). -/
def execSleepExpire (s : State) : Host.Outcome State Fault Refusal :=
  .next (s.mapGroup s.sel.core s.sel.slot fun g =>
    match g.wait with
    | .sleep t => if t ≤ s.cycle then { g with wait := .none } else g
    | _ => g)

/-! ## Unassigned opcodes (02 R84, R90) -/

/-- UNASSIGNED_OPCODE: UNIMPL, even with an empty active set, once the registers that its encoding names have landed
(R67, R90). -/
def execUnassignedOpcode (cls : Cls) (base : Word) (ext : Option Word) (s : State) : Host.Outcome State Fault Refusal :=
  match issuer s with
  | none => .refused .noIssuer
  | some x =>
    let i : Instr := .unassignedOpcode cls base ext
    .next (settleAct s x i ((holdUp x i).getD (.trap .unimpl 0 0#32)))

/-- LONG_OP_LAND (04 R159). -/
def execLongOpLand (s : State) : Host.Outcome State Fault Refusal := .next (landLong s s.sel.core s.sel.slot s.sel.id)

/-! ## The instructions -/

/-- SREAD (R264). -/
def execSread (w : Base) (x : ExtC) (s : State) : Host.Outcome State Fault Refusal :=
  sread s (.sread w x) w x

/-- SWRITE (R264). -/
def execSwrite (w : Base) (x : ExtC) (s : State) : Host.Outcome State Fault Refusal :=
  swrite s (.swrite w x) w x

/-- MODE (R265). -/
def execMode (w : Base) (x : ExtC) (s : State) : Host.Outcome State Fault Refusal :=
  setMode s (.mode w x) w x

/-- TRAP (R266). -/
def execTrap (w : Base) (x : ExtC) (s : State) : Host.Outcome State Fault Refusal :=
  userTrap s (.trap w x) x

/-- RETT (R267). Short form (R69). -/
def execRett (w : Base) (s : State) : Host.Outcome State Fault Refusal :=
  rett s (.rett w) (shortR 0)

/-- RETT_LONG (R267). -/
def execRettLong (w : Base) (x : ExtR) (s : State) : Host.Outcome State Fault Refusal :=
  rett s (.rettLong w x) x

/-- SLEEP (R268). -/
def execSleep (w : Base) (x : ExtC) (s : State) : Host.Outcome State Fault Refusal :=
  sleep s (.sleep w x) w x

end Sys2Proof.Machine
end

