-- ==== Sys2Proof/Machine/Events.lean ====
section
/-! DEFINITION. The firmware's event records: the event ring of a host port, the messages that wait for the other
masters (11 R387, R388), and the interrupt vectors of a port (R381). -/

namespace Sys2Proof.Machine

/-! ## Ports and masters -/

def State.port (s : State) (n : Nat) : HostPort := if n = 0 then s.port0 else s.port1

def State.mapPort (s : State) (n : Nat) (f : HostPort → HostPort) : State :=
  if n = 0 then { s with port0 := f s.port0 } else { s with port1 := f s.port1 }

/-- The module sends something to the outside world. -/
def State.send (s : State) (o : Output) : State := { s with outputs := s.outputs ++ [o] }

/-- A vector of a port is masked in its table. -/
def HostPort.masked (p : HostPort) (v : Nat) : Bool := p.msix.nat (16 * v + 12) 4 % 2 == 1

/-- Raises the MSI-X vector that a register of a port names and enables: a masked one is left pending, another goes out
(R381, PCIe). -/
def raiseVector (s : State) (port : Nat) (ctl : Word) : State :=
  let v := (ctl.extractLsb' 0 6).toNat
  if !ctl.getLsbD 31 then s
  else if (s.port port).masked v then s.mapPort port fun p => { p with pba := p.pba ||| (1#64 <<< v) }
  else s.send (.interrupt port v)

/-- The pending vectors of a port that are no longer masked go out (PCIe). -/
def sendPending (s : State) (port : Nat) : State :=
  (List.range 64).foldl (fun s v =>
    let p := s.port port
    if p.pba.getLsbD v && !p.masked v then
      (s.mapPort port fun p => { p with pba := p.pba &&& ~~~(1#64 <<< v) }).send (.interrupt port v)
    else s) s

/-! ## Event records (Table 11.11) -/

def pad (n : Nat) (bs : List Byte) : List Byte := (bs ++ List.replicate n 0#8).take n

def eventRecord (s : State) (type : Nat) (body : List Byte) : List Byte :=
  bytesOfNat 2 type ++ bytesOfNat 2 0 ++ bytesOfNat 4 s.eventSeq.toNat ++ bytesOfNat 8 s.cycle ++ pad 16 body

/-- Writes a record to a port's ring in host memory: a full ring loses its oldest record, and a base of 0 loses the new
one (R388). -/
def ringWrite (s : State) (n : Nat) (r : List Byte) : State :=
  let p := s.port n
  if p.evrBase = 0#64 then s.mapPort n fun p => { p with evrLost := p.evrLost + 1#32 }
  else
    let full := decide ((p.evrHead + 1) % 4096 = p.evrTail)
    let s := { s with hostMem := s.hostMem.put (p.evrBase.toNat + 32 * p.evrHead) r }
    raiseVector (s.mapPort n fun p =>
      let p := if full then { p with evrTail := (p.evrTail + 1) % 4096, evrLost := p.evrLost + 1#32 } else p
      { p with evrHead := (p.evrHead + 1) % 4096 }) n p.evrCtl

/-- Leaves a record for a master that takes messages: 4,096 wait at most. -/
def MctpPort.post (p : MctpPort) (r : List Byte) : MctpPort :=
  if p.events.length < 4096 then { p with events := p.events ++ [r] }
  else { p with events := p.events.drop 1 ++ [r], lost := p.lost + 1 }

/-- Raises an event: it takes the next SEQ, and goes to the owner's ring or nowhere (R387). -/
def postEvent (s : State) (type : Nat) (body : List Byte) : State :=
  let r := eventRecord s type body
  let t := { s with eventSeq := s.eventSeq + 1#32 }
  match s.owner with
  | none => t
  | some 0 => { t with mctp := t.mctp.post r }
  | some 1 => ringWrite t 0 r
  | some 2 => ringWrite t 1 r
  | some _ => { t with debug := MctpPort.post t.debug r }

def DoneStatus.code : DoneStatus → Nat
  | .completed => 0 | .completedWithFault => 1 | .killed => 2 | .trapInHandler => 3 | .gangLost => 4
  | .fabricPayload => 5 | .fabricDown => 6 | .bridgeFailed => 7

/-- LAUNCH_DONE of a launch: its status, and its first incident as cause, core and address. -/
def postDone (s : State) (l : Launch) (st : DoneStatus) : State :=
  let (c, core, a) := l.incident.getD (0, 0xFFFF, 0)
  postEvent s 1 (bytesOfNat 2 l.id ++ bytesOfNat 1 st.code ++ bytesOfNat 1 c ++ bytesOfNat 2 core ++ bytesOfNat 2 0
    ++ bytesOfNat 8 a)

def postPageFault (s : State) (w : Walk) : State :=
  postEvent s 2 (bytesOfNat 1 w.asid ++ bytesOfNat 1 w.region ++ bytesOfNat 1 w.write.toNat ++ bytesOfNat 1 0
    ++ bytesOfNat 4 w.page)

/-- ERROR: unit class, whether it is lasting, whether a unit is fenced, its index, its DPA. -/
def postError (s : State) (cls : Nat) (lasting : Bool) (fenced : Bool) (index dpa : Nat) : State :=
  postEvent s 3 (bytesOfNat 1 cls ++ bytesOfNat 1 lasting.toNat ++ bytesOfNat 1 fenced.toNat ++ bytesOfNat 1 0
    ++ bytesOfNat 4 index ++ bytesOfNat 8 dpa)

/-- Class of a sensor, and its index in the class (11 Table 11.9, Table 11.13 page 4). -/
def sensorClass (n : Nat) : Nat × Nat := if n < 32 then (0, n) else if n < 40 then (1, n - 32) else (2, n - 40)

def postThermal (s : State) (sensor level : Nat) (reading : Half) : State :=
  let (c, i) := sensorClass sensor
  postEvent s 4 (bytesOfNat 1 c ++ bytesOfNat 1 i ++ bytesOfNat 1 level ++ bytesOfNat 1 0 ++ bytesOfNat 2 reading.toNat)

def LinkState.code : LinkState → Nat
  | .up => 0 | .degraded => 1 | .down => 2 | .foreign => 3

def postLink (s : State) (n : Nat) : State :=
  match s.links[n]? with
  | none => s
  | some k => postEvent s 5 (bytesOfNat 1 n ++ bytesOfNat 1 k.state.code ++ bytesOfNat 1 k.lanes)

end Sys2Proof.Machine
end

