-- ==== Sys2Proof/Machine/Walk.lean ====
section
/-! DEFINITION. Page walks: what a walk finds and what becomes of the lanes, engine commands and code fetches that
await its page (10 R353 to R356, R435), and the firmware's answer to a demand miss (R354). -/

namespace Sys2Proof.Machine

/-! ## What awaits a page -/

/-- A page of an address space as the groups and engines of one die await it. -/
structure PageKey where
  die : Nat
  asid : Nat
  region : Nat
  page : Nat

def PageKey.lane (k : PageKey) (l : LaneAcc) : Bool :=
  match l.target, l.progress with
  | .walk r p _, .waiting => r == k.region && p == k.page
  | _, _ => false

def PageKey.coreIs (k : PageKey) (core : Nat) : Bool := dieOf core == k.die

/-- Groups of the die and address space, with their cores and slots. -/
def PageKey.groups (k : PageKey) (s : State) : List (Nat × Nat × Group) :=
  (s.cores.filter fun p => k.coreIs p.1).flatMap fun p =>
    (p.2.groups.filter fun q => asidOf s q.2.launch == k.asid).map fun q => (p.1, q.1, q.2)

/-- The requests that await the page: core, slot, operation, request, the access and its lanes there. -/
def PageKey.parts (k : PageKey) (s : State) : List (Nat × Nat × Nat × Nat × Access × List LaneAcc) :=
  (k.groups s).flatMap fun (core, slot, g) => g.pend.flatMap fun p => match p.op with
    | .access a =>
      let ls := a.lanes.filter k.lane
      (dedup (ls.map fun l => l.part)).map fun n => (core, slot, p.id, n, a, ls.filter fun l => l.part == n)
    | _ => []

/-- Groups whose next clause awaits words of the page, with the issue address. -/
def PageKey.fetches (k : PageKey) (s : State) : List (Nat × Nat × Word) :=
  (k.groups s).filterMap fun (core, slot, g) => match g.wait with
    | .fetch r p a => if r = k.region ∧ p = k.page then some (core, slot, a) else none
    | _ => none

/-- Engine commands that await the page. -/
def PageKey.cmds (k : PageKey) (s : State) : List (Nat × EngCmd) :=
  (s.cores.filter fun p => k.coreIs p.1).flatMap fun p =>
    ((p.2.copy.cmds ++ p.2.quant.cmds ++ p.2.link.cmds).filter fun c =>
      asidOf s c.launch == k.asid && c.page == some (k.region, k.page)).map fun c => (p.1, c)

def PageKey.forget (k : PageKey) (s : State) : State :=
  s.mapDie k.die fun d => { d with faults := d.faults.filter fun f => f != (k.asid, k.region, k.page) }

/-! ## What a walk does -/

/-- Maps every lane of a group's pending accesses. -/
def Group.mapLaneAcc (g : Group) (f : LaneAcc → LaneAcc) : Group :=
  let one := fun (p : Pend) => match p.op with
    | .access a => { p with op := .access { a with lanes := a.lanes.map f } }
    | _ => p
  { g with pend := g.pend.map one }

/-- Gives the lanes of a group that await the page their device addresses. -/
def fillGroup (k : PageKey) (r : Region) (dpa : Nat) (g : Group) : Group :=
  (g.mapLaneAcc fun l =>
    if k.lane l then { l with target := .dram (dpa + (l.loc.toNat - r.vbase) % 2 ^ r.pageBits) } else l).logFree

/-- The page is present: the TLB takes its entry, its lanes, commands and fetches go on, and a write to a page marked RO
parks (R353). -/
def pagePresent (s : State) (k : PageKey) (r : Region) (dpa : Nat) (ro : Bool) : State :=
  let s := k.forget (s.mapDie k.die fun d =>
    d.tlbFill { asid := k.asid, region := k.region, page := k.page, dpa := dpa, ro := ro })
  let writes := if ro then (k.parts s).filter fun p => isWrite p.2.2.2.2.1.kind else []
  let s := writes.foldl (fun s (core, slot, id, n, a, ls) => parkPart s core slot id n a.site ls .accessRights 3) s
  let s := (k.groups s).foldl (fun s (core, slot, _) => s.mapGroup core slot (fillGroup k r dpa)) s
  let s := (k.fetches s).foldl (fun s (core, slot, _) => setWait s core slot .none) s
  (k.cmds s).foldl (fun s (core, c) => s.mapCmd core (engineOf c.op) c.id fun c => { c with page := none }) s

/-- The page is not to be had: its lanes park with PAGE_FAULT, its commands fault, its fetches trap (R353, R354,
R435). -/
def pageLost (s : State) (k : PageKey) (detail : Nat) : State :=
  let s := k.forget s
  let s := (k.parts s).foldl (fun s (core, slot, id, n, a, ls) => parkPart s core slot id n a.site ls .pageFault detail) s
  let s := (k.cmds s).foldl (fun s (core, c) => putStep s core c (.fault .pageFault)) s
  (k.fetches s).foldl (fun s (core, slot, a) =>
    raiseTrap (setWait s core slot .none) core slot 0#64 a none { Trap.plain .pageFault with info := a }) s

/-- A demand miss: the lanes stay pending, and the first one of the page posts a fault record (R354). -/
def pageMiss (s : State) (k : PageKey) (w : Walk) : State :=
  let miss := fun (l : LaneAcc) => if k.lane l then { l with target := .walk k.region k.page true } else l
  let s := (k.groups s).foldl (fun s (core, slot, _) => s.mapGroup core slot fun g => g.mapLaneAcc miss) s
  if (s.die k.die).faults.contains (k.asid, k.region, k.page) then s
  else postPageFault (s.mapDie k.die fun d => { d with faults := d.faults ++ [(k.asid, k.region, k.page)] }) w

/-- The walk numbered `index` of those in flight on a die reads its entry (R353). -/
def completeWalk (s : State) (die index : Nat) : State :=
  match ((s.die die).walks.take 64)[index]? with
  | none => s
  | some w =>
    let s := s.mapDie die fun d => { d with walks := dropIx d.walks index }
    let k : PageKey := { die := die, asid := w.asid, region := w.region, page := w.page }
    let s := match (s.launch? w.launch).bind fun l => l.regions[w.region]? with
      | none => s
      | some r =>
        let s := touchL2 s (pteAddr r w.page) false
        match readPte s r w.page with
        | .present dpa ro => pagePresent s k r dpa ro
        | .bad => pageLost s k 2
        | .never => pageLost s k 1
        | .absent => pageMiss s k w
    (dedup (s.launches.map fun l => l.asid)).foldl (fun s a => startWalks s a fun _ => false) s

/-- TLB_WALK_COMPLETE (R353). -/
def execTlbWalkComplete (s : State) : Host.Outcome State Fault Refusal := .next (completeWalk s s.sel.die s.sel.index)

/-! ## The firmware's answer (R354) -/

/-- PAGE_RESOLVE: the pending misses of the page are walked again. -/
def resolvePage (s : State) (asid region page : Nat) : State := rewalk s asid (some (region, page))

/-- PAGE_REFUSE: what is pending on a demand miss of the page parks on both dies. -/
def refusePage (s : State) (asid region page : Nat) : State :=
  let one := fun (s : State) (die : Nat) =>
    if (s.die die).faults.contains (asid, region, page) then
      pageLost s { die := die, asid := asid, region := region, page := page } 3
    else s
  one (one s 0) 1

end Sys2Proof.Machine
end

