-- ==== Sys2Proof/Machine/Fabric.lean ====
section
/-! DEFINITION. What crosses the die bridge (08 R304, R305), puts and what peers ask for (05 R192, R193, 11 R373 to
R375), and what becomes of traffic toward devices that cannot be reached (11 R372, R377). -/

namespace Sys2Proof.Machine

/-! ## The die bridge (R305) -/

/-- An acknowledgement reaches what it answers. -/
def applyAck (s : State) : AckRef → State
  | .none => s
  | .part core slot id part => ackPart s core slot id part
  | .writeback core asid va => s.mapCore core fun c => c.l1Acked asid va
  | .engine core e id => s.mapCmd core e id fun k => { k with acks := k.acks - 1 }
  | .put id => { s with puts := s.puts.map fun p => if p.id = id ∧ !p.out then { p with acks := p.acks - 1 } else p }
  | .host => { s with hostAcks := s.hostAcks - 1 }
  | .reply bytes => { s with peerReply := some bytes }
  | .kv core slot id sts => landKvStatuses s core slot id sts
  | .kvCtl core slot id v => ctlAnswered s core slot id v

/-- The lanes of a request that is on its way to its home. -/
def onWay (s : State) (core slot id part : Nat) : List LaneAcc :=
  match (s.group? core slot).bind fun g => g.pend? id with
  | some (.access a) => a.lanes.filter fun l => l.part == part && l.progress == .sent
  | _ => []

/-- What a message does at its receiver. -/
def receiveMsg (s : State) (snd : Nat) : BridgeKind → State
  | .write cells mask ref =>
    (match cells with
     | [] => s
     | c :: _ => afterHome (performHome s cells) snd (lineOf c.1) mask ref)
  | .atom core slot id part =>
    (match onWay s core slot id part with
     | [] => s
     | l :: _ => arriveService s core slot id part (dramOf l))
  | .cred e => enqueue s e.dpa (.cred e)
  | .kv core slot id lanes => arriveKv s core slot id lanes
  | .kvCtl core slot id counts => arriveCtl s core slot id counts
  | .page dpa n ref => sendMsg (writeSpans s [(dpa, n)]) (1 - snd) (.ack ref)
  | .inval dpa mask ref =>
    let s := s.mapDie (1 - snd) fun d => d.rdcDrop (.line dpa) mask
    (match ref with | .none => s | r => sendMsg s (1 - snd) (.ack r))
  | .ack ref => applyAck s ref

/-- The oldest message of a die is applied at the other, whose record of the sender's messages moves on. -/
def applyBridge (s : State) (snd : Nat) : State :=
  match (s.die snd).out with
  | [] => s
  | m :: ms =>
    let t := s.mapDie snd fun d => { d with out := ms }
    let t := t.mapDie (1 - snd) fun d =>
      { d with clock := if snd = 0 then (m.c0, d.clock.2) else (d.clock.1, m.c1) }
    receiveMsg t snd m.kind

/-- BRIDGE_MESSAGE_APPLY (R305): the messages of the die that `sel` names. -/
def execBridgeMessageApply (s : State) : Host.Outcome State Fault Refusal := .next (applyBridge s (s.sel.die % 2))

/-- A write from the host or a peer, line by line: performed at the home, and to be acknowledged once the other die has lost
each line's span (R304, R306). -/
def writeOutside (s : State) (cells : List Host.Cell) (ref : AckRef) : State :=
  (byLine cells).foldl (fun s cs => writeIn s cs ref) s

/-! ## Windows of this module (R373, R374) -/

def exposure? (s : State) (w : Nat) : Option Exposure := s.exposures.find? fun e => e.window == w

/-- A device may use an exposed window with a right (bit number of RIGHTS), n bytes from an offset. -/
def Exposure.allows (e : Exposure) (device bit offset n : Nat) : Bool :=
  !e.down && e.mask.getLsbD (device % 256) && e.rights / 2 ^ bit % 2 == 1 && decide (offset + n ≤ e.length)

/-- The acknowledgement of a peer's put goes back (R374). -/
def ackPeer (s : State) (p : PutMsg) : State := s.send (.putAck p.link p.device p.window)

/-- A put of a peer arrives, at place i of those in flight: its data are performed at their home; a put to a window that is
not exposed to the device is discarded and counted (R374). -/
def landIncoming (s : State) (i : Nat) (p : PutMsg) : State :=
  match (exposure? s p.window).filter fun e => p.cells.all fun c => e.allows p.device 1 c.1 1 with
  | none =>
    ackPeer { s with puts := dropIx s.puts i
                     windowDrops := setNth s.windowDrops p.window (nth 0 s.windowDrops p.window + 1) } p
  | some e =>
    let cells := p.cells.map fun c => (e.target + c.1, c.2)
    writeOutside { s with puts := setNth s.puts i { p with landed := true, acks := (byLine cells).length } } cells (.put p.id)

/-- A put whose data have all landed moves the receive counter of its window (R193, R374). -/
def countIncoming (s : State) (p : PutMsg) : State :=
  match s.bindings.find? fun y => y.device.isNone && y.window == p.window with
  | some y => if p.final then s.mapCore y.core fun c => c.addCounter y.ctr (BitVec.ofNat 64 p.n) else s
  | none => s

/-- A put of this module lands at a peer. -/
def landOutgoing (s : State) (p : PutMsg) : State :=
  setPeerData s p.device p.window ((peerData s p.device p.window).putCells p.cells)

/-- Two puts of one stream (R371). -/
def PutMsg.sameStream (p q : PutMsg) : Bool := p.out == q.out && p.device == q.device && p.window == q.window && p.core == q.core

/-- The link of a put carries traffic: its ends' keys agree (R370). -/
def onOwnFabric (s : State) (p : PutMsg) : Bool := match s.links[p.link]? with | some l => l.state != .foreign | none => true

/-- PUT_LANDING (R193): put `index`, after the earlier ones of its stream. One of a peer counts, and is acknowledged, once its
data have landed and no die holds an older copy of them (08 R304). -/
def execPutLanding (s : State) : Host.Outcome State Fault Refusal :=
  let i := s.sel.index
  .next (match s.puts[i]? with
    | none => s
    | some p =>
      if p.out then
        if p.landed || !onOwnFabric s p || (s.puts.take i).any (fun q => q.sameStream p && !q.landed) then s
        else landOutgoing { s with puts := setNth s.puts i { p with landed := true } } p
      else if (s.puts.take i).any fun q => q.sameStream p then s
      else if !p.landed then (if onOwnFabric s p then landIncoming s i p else s)
      else if p.acks = 0 then ackPeer (countIncoming { s with puts := dropIx s.puts i } p) p
      else s)

/-- PUT_ACK (R193): the acknowledgement of put `index` returns. -/
def execPutAck (s : State) : Host.Outcome State Fault Refusal :=
  let i := s.sel.index
  .next (match s.puts[i]? with
    | none => s
    | some p =>
      if !p.out || !p.landed || (s.puts.take i).any (fun q => q.sameStream p) then s
      else
        let s := applyAck { s with puts := dropIx s.puts i } (match p.ref with | .engine c e n => .engine c e n | _ => .none)
        if p.final then sendDone s p.core p.device p.window p.n else s)

/-- The module can be reached over a link: it is not in STANDBY, off, or cut off from its partition, and the link carries
traffic (R370, R377, R394, R395). -/
def reachedBy (s : State) (link : Nat) : Bool :=
  s.power != .standby && s.power != .off && !s.fabricDown && (match s.links[link]? with | some l => l.works | none => false)

/-- The lines of a range come into their home L2 strips. -/
def touchRange (s : State) (a n : Nat) : State := (lineParts a n (n / 128 + 2)).foldl (fun s p => touchL2 s (lineOf p.1) false) s

/-- No byte of a range is poisoned. -/
def rangeSound (s : State) (a n : Nat) : Bool := (lineParts a n (n / 128 + 2)).all fun p => !s.poisonedAt p.1

/-- REMOTE_READ_ARRIVAL (R192): a peer reads `count` bytes of an exposed window at the home, over link `link`. -/
def execRemoteReadArrival (s : State) : Host.Outcome State Fault Refusal :=
  let k := s.sel
  .next (match (exposure? s k.window).filter fun e => e.allows k.device 0 k.offset k.count && reachedBy s k.link with
    | none => { s with peerReply := none }
    | some e =>
      if rangeSound s (e.target + k.offset) k.count then
        { touchRange s (e.target + k.offset) k.count with peerReply := some (s.dram.bytes (e.target + k.offset) k.count) }
      else { s with peerReply := none })

/-- A peer's PATOM arrives at the service group of its location (R197, 09 R336). -/
def peerAtomic (s : State) (device window offset aop size : Nat) (data : List Word) : State :=
  match (exposure? s window).filter fun e => e.allows device 2 offset (sizeBytes size) && decide (offset % sizeBytes size = 0) with
  | none => { s with peerReply := none }
  | some e => enqueue s (e.target + offset) (.peer (e.target + offset) aop size data)

/-- The service group performs a peer's PATOM; the old value is the answer, once the other die has lost the span (R304). A
poisoned line gives no answer but that it may not be had (10 R366). -/
def servePeer (s : State) (a aop size : Nat) (data : List Word) : State :=
  let n := sizeBytes size
  let s := dequeue s a (.peer a aop size data)
  if s.poisonedAt a then { s with peerReply := none }
  else
    let (m, olds) := atomicMany aop size s.dram [(a, data)]
    sendMsg (touchL2 { s with dram := m } (lineOf a) true) (homeDie a)
      (.inval (lineOf a) (wordSpan (a % 128) (a % 128 + n - 1)) (.reply (bytesOfNat n (nth 0 olds 0))))

/-- WINDOW_REGISTER_FETCH (R373): length in 64 KiB units, rights and mode, for a device the window is exposed to. -/
def execWindowRegisterFetch (s : State) : Host.Outcome State Fault Refusal :=
  let k := s.sel
  .next (match exposure? s k.window with
    | none => { s with peerReply := none }
    | some e =>
      if e.down || !e.mask.getLsbD (k.device % 256) || !reachedBy s k.link then { s with peerReply := none }
      else
        let add := fun (x : Exposure) =>
          if x.window = k.window ∧ !x.registrants.contains k.device then { x with registrants := x.registrants ++ [k.device] } else x
        let reply := bytesOfNat 4 (e.length / 65536) ++ bytesOfNat 1 e.rights ++ bytesOfNat 1 e.fallBack.toNat ++ bytesOfNat 2 0
        { s with exposures := s.exposures.map add, peerReply := some reply })

/-- WINDOW_MODE_NOTIFY (R375): the new mode of a registered window arrives over link `link`; both dies lose their copies of
its lines (R318), and the module acknowledges. -/
def execWindowModeNotify (s : State) : Host.Outcome State Fault Refusal :=
  let k := s.sel
  let mine := fun (dev w : Nat) => dev == k.device && w == k.window
  let set := fun (r : Registration) => if mine r.device r.window then { r with fallBack := k.flag } else r
  .next (if !reachedBy s k.link then s
    else
      let s := { s with registrations := s.registrations.map set }
      ((s.mapDie 0 fun d => d.rdcDropPeers mine).mapDie 1 fun d => d.rdcDropPeers mine).send (.modeAck k.device k.window))

/-! ## Devices that cannot be reached (R372) -/

/-- Discards the puts that p names before they land: their lanes park, their commands fault, and a put whose other lanes
have gone still counts those (R193, R372). -/
def dropPuts (s : State) (p : PutMsg → Bool) : State :=
  let gone := s.puts.filter fun q => !q.landed && p q
  let s := { s with puts := s.puts.filter fun q => q.landed || !p q }
  gone.foldl (fun s q =>
    match q.ref with
    | .engine core e id =>
      (match (s.core core).cmd? e id with
       | some k => putStep (s.mapCmd core e id fun k => { k with acks := k.acks - 1 }) core k (.fault .uncorrectable)
       | none => s)
    | .part core slot id _ =>
      let s := q.late.foldl (fun s f => lateFault s core slot id f) s
      if !q.final then s
      else
        let ours := fun (r : PutMsg) => r.sameStream q && (match r.ref with | .part c t i _ => c == core && t == slot && i == id | _ => false)
        let n := q.n - ((gone.filter ours).map fun r => r.late.length).foldl (· + ·) 0
        if n = 0 then s
        else match findIx ours s.puts.reverse with
          | some k =>
            let i := s.puts.length - 1 - k
            { s with puts := s.puts.mapIdx fun j r => if j = i then { r with n := n, final := true } else r }
          | none => sendDone s core q.device q.window n
    | _ => s) s

/-- Commands on port channels toward or from devices that cannot be reached fault, waiting ones too, but for receives whose
bytes have all arrived (R372). -/
def faultPorts (s : State) : State :=
  s.cores.foldl (fun s p => p.2.link.cmds.foldl (fun s k =>
    let dev := (portOf k.vd).1
    let port := k.op == .lsendPort || k.op == .lradd
    if port && k.started && !k.finished && k.fault.isNone && dev != s.device.toNat && unreachable s dev
        && !(k.op == .lradd && lraddDelivered s p.1 k) then
      putStep s p.1 k (.fault .uncorrectable)
    else s) s) s

/-- The fabric has changed: what is under way toward devices that can no longer be reached meets R372, R297, R298. -/
def loseDevices (s : State) : State :=
  let lost := fun (d : Nat) => d != s.device.toNat && unreachable s d
  let s := dropPuts s fun q => q.out && lost q.device
  let s := faultPorts s
  let s := faultChoices s fun y => lost y.device
  { s with rowsOut := s.rowsOut.filter fun m => !lost m.device
           returns := s.returns.filter fun m => !lost (m.token.toNat % 256) }

/-! ## Links and the fabric partition (R370, R371, R377) -/

def setLink (s : State) (n : Nat) (f : Link → Link) : State :=
  { s with links := s.links.mapIdx fun i l => if i = n then f l else l }

/-- The flits in flight on a link that goes down are delivered or discarded, which the spec leaves open (R371): a put that is
discarded has the effect of R372, a routed row or a return is lost (DESIGN CHOICE, log 66). -/
def loseFlits (s : State) (n : Nat) : State :=
  let kept := fun (i : Nat) => Config.flitKept s.cycle i
  let rows := fun (k : Nat) (link : Option Nat) => link != some n || kept k
  let s := dropPuts s fun q => q.link == n && !kept q.id
  { s with rowsOut := (s.rowsOut.zipIdx.filter fun p => rows p.2 p.1.link).map fun p => p.1
           returns := (s.returns.zipIdx.filter fun p => rows p.2 p.1.link).map fun p => p.1 }

/-- What is in flight on a link that turns FOREIGN goes, since it carries no traffic (R370). -/
def loseForeign (s : State) (n : Nat) : State :=
  let s := dropPuts s fun q => q.link == n
  { s with rowsOut := s.rowsOut.filter fun m => m.link != some n, returns := s.returns.filter fun m => m.link != some n }

/-- A link goes down, and the firmware reports it. -/
def linkDown (s : State) (n : Nat) : State :=
  match s.links[n]? with
  | none => s
  | some l =>
    if l.state = .down then s
    else loseDevices (loseFlits (postLink (setLink s n fun l => { l with state := .down }) n) n)

/-- LINK_GOES_DOWN (R372). -/
def execLinkGoesDown (s : State) : Host.Outcome State Fault Refusal := .next (linkDown s s.sel.link)

/-- The state of a link that has trained: FOREIGN when the keys of its ends differ (R370), DEGRADED with lanes fenced. -/
def Link.trained (l : Link) (key : DWord) : LinkState :=
  if l.key ≠ key then .foreign else if l.lanes < 8 then .degraded else .up

/-- A link has trained, or its key has changed: its new state is reported. -/
def retrain (s : State) (n : Nat) (l : Link) : State :=
  let st := l.trained s.partitionKey
  let s := if st = .foreign then loseForeign s n else s
  postLink (setLink s n fun _ => { l with state := st }) n

/-- LINK_UP (R377): the link has retrained with a partner whose partition key is `value`. A key of its own makes it
FOREIGN; fewer than 4 lanes keep it down. After a FABRIC_RESET of this module, `flag` of one that is not FOREIGN tells that
every module of the partition has executed one (DEDUCED, log 79). -/
def execLinkUp (s : State) : Host.Outcome State Fault Refusal :=
  let n := s.sel.link
  .next (match s.links[n]? with
    | none => s
    | some l =>
      if l.lanes < 4 ∨ s.power = .standby then s
      else
        let l := { l with key := s.sel.value }
        let all := s.fabricReset && s.sel.flag && l.trained s.partitionKey != .foreign
        let s := if all then { s with fabricDown := false, fabricReset := false } else s
        loseDevices (retrain s n l))

/-- The launches that a fabric loss ends (R377). -/
def onFabric (s : State) (l : Launch) : Bool :=
  l.fabric || (l.rec_.levels.take l.rec_.nlevels).any (fun v => v.domain == 6) || s.bindings.any fun b => b.launch == l.id

/-- A launch is admitted from its admission to its report; one that is saved awaits RESUME or its restoration (09 R322,
11 R384, R395). -/
def Launch.admitted (l : Launch) : Bool :=
  match l.phase with
  | .queued => false
  | .saved _ => false
  | _ => true

/-- A DOWN flit goes out on every link to the partition (R377). -/
def sendDown (s : State) : State :=
  (List.range 18).foldl (fun s n => match s.links[n]? with
    | some l => if l.works then s.send (.downFlit n) else s
    | none => s) s

/-- The fabric partition goes down at this module: DOWN flits go out, every flit in flight is discarded, and windows and
launches on the fabric go (R377). -/
def fabricFails (s : State) : State :=
  let offE := fun (e : Exposure) => { e with down := true }
  let offR := fun (r : Registration) => { r with down := true }
  let s := sendDown s
  let s : State := { s with fabricDown := true, fabricReset := false
                            exposures := s.exposures.map offE, registrations := s.registrations.map offR }
  let hit := s.launches.filter fun l => l.admitted && onFabric s l
  let s := loseDevices { s with puts := s.puts.filter fun p => p.out || p.landed
                                rowsOut := s.rowsOut.filter fun m => m.link.isNone
                                returns := s.returns.filter fun m => m.link.isNone }
  hit.foldl (fun s l => abortLaunch s l.id .fabricDown (0, 0xFFFF, 0)) s

/-- A link of this module carries flits, also while its partition is down. -/
def carries (s : State) (link : Nat) : Bool :=
  s.power != .standby && s.power != .off && (match s.links[link]? with | some l => l.works | none => false)

/-- DOWN_FLIT_RECEIVE (R377): on link `link`; one of another partition carries nothing (R370). One that comes while the
partition is down does the same again, and a FABRIC_RESET that came before it counts no longer (DEDUCED, log 79). -/
def execDownFlitReceive (s : State) : Host.Outcome State Fault Refusal :=
  .next (if carries s s.sel.link then fabricFails s else s)

end Sys2Proof.Machine
end

