-- ==== Sys2Proof/Machine/Schedule.lean ====
section
/-! DEFINITION. From a group's lane PCs to the instruction that executes next: the issue address (01 R41 to R43), the
fetch of a run's words (10 R435), the header checks (02 R64), readiness and the choice of a run (02 R67, 09 R327, R328),
the predicted arm (R331, R332), and the checks of a group of instructions as the run reaches it (02 R85, R86). -/

namespace Sys2Proof.Machine

/-! ## Reading code (10 R435) -/

inductive CodeRead where
  | word (w : Word)
  | miss (region page : Nat)
  | lost
  deriving DecidableEq, Repr

/-- The word of a launch's code at an offset, as a core of a die reads it: at its home, through the region and the
TLB. -/
def readCode (s : State) (die : Nat) (l : Launch) (off : Nat) : CodeRead :=
  let va := (l.rec_.codeBase + off) % 2 ^ 64
  match regionOf l va with
  | none => .lost
  | some (i, r) =>
    let at_ := fun (dpa : Nat) => CodeRead.word (BitVec.ofNat 32 (s.dram.nat dpa 4))
    if r.kind = 0 then at_ (r.target + (va - r.vbase))
    else if r.kind = 1 then
      let page := (va - r.vbase) / 2 ^ r.pageBits
      match (s.die die).tlbFind l.asid i page with
      | some e => at_ (e.dpa + (va - r.vbase) % 2 ^ r.pageBits)
      | none => .miss i page
    else .lost

/-- Why words cannot be had. -/
inductive NoCode where
  | miss (region page : Nat)
  | lost
  deriving DecidableEq, Repr

/-- n words from an offset on; words at or beyond CODE_LEN are not read (R43) and stand as 0. Offsets are exact here: they
do not wrap past the last offset. -/
def readWords (s : State) (die : Nat) (l : Launch) (off : Nat) : Nat → Except NoCode (List Word)
  | 0 => .ok []
  | n + 1 =>
    if l.rec_.codeLen ≤ off then .ok (List.replicate (n + 1) 0#32)
    else match readCode s die l off with
      | .miss r p => .error (.miss r p)
      | .lost => .error .lost
      | .word w =>
        match readWords s die l (off + 4) n with
        | .ok ws => .ok (w :: ws)
        | .error e => .error e

/-- The exact offset behind a clause whose header lies at h. -/
def endOf (h : Nat) (hdr : Word) : Nat := h + 4 + 4 * hdrCount hdr

/-- The words of a run whose first header lies at an offset: its clause, and the chained clause (02 R66). -/
def readRun (s : State) (die : Nat) (l : Launch) (h : Nat) : Except NoCode (List Word) :=
  match readWords s die l h 1 with
  | .error e => .error e
  | .ok hs =>
    let hdr := nth 0#32 hs 0
    match readWords s die l (h + 4) (hdrCount hdr) with
    | .error e => .error e
    | .ok ws =>
      if !chains hdr then .ok (hs ++ ws)
      else match readWords s die l (endOf h hdr) 1 with
        | .error e => .error e
        | .ok ks =>
          match readWords s die l (endOf h hdr + 4) (hdrCount (nth 0#32 ks 0)) with
          | .error e => .error e
          | .ok us => .ok (hs ++ ws ++ ks ++ us)

/-! ## The issue address (01 R41, 02 R91) -/

/-- Whether an offset is a resume position. -/
inductive Resume where
  | no
  /-- It lies inside the clause whose header lies here. -/
  | inside (h : Word)
  /-- The header that would tell cannot be read yet (10 R435). -/
  | unread (e : NoCode)
  deriving DecidableEq, Repr

/-- An offset against the clause whose header lies at h: strictly inside it is a resume position. No clause is longer
than its header and 15 words. -/
def insideClause (s : State) (die : Nat) (l : Launch) (pos h : Word) : Resume :=
  if pos ≤ h ∨ 64 ≤ pos.toNat - h.toNat then .no
  else match readWords s die l h.toNat 1 with
    | .ok ws => if pos.toNat < endOf h.toNat (nth 0#32 ws 0) then .inside h else .no
    | .error e => .unread e

/-- The resume headers of a lane set: the group's, then the one that its lowest lane brought from PARKED or from a run
that pre-emption stopped (02 R91, 10 R346, R359); in a handler, the handler's own. -/
def resumeHdrs (g : Group) (exec : LaneMask) : List Word :=
  match g.handler with
  | some h => h.resume.toList
  | none => g.resumeHdr.toList ++ ((lowest exec).bind fun k => nth none g.laneHdr k).toList

/-- The resume header under which a lane set at an offset issues, if the offset is a resume position. -/
def resumeAt (s : State) (die : Nat) (l : Launch) (g : Group) (exec : LaneMask) (pos : Word) : Resume :=
  ((resumeHdrs g exec).map (insideClause s die l pos)).find? (fun r => r != .no) |>.getD .no

/-- The header at an offset has the convergence bit; false while it cannot be read. -/
def convAt (s : State) (die : Nat) (l : Launch) (pos : Word) : Bool :=
  match readWords s die l pos.toNat 1 with
  | .ok ws => hdrConv (nth 0#32 ws 0)
  | .error _ => false

/-- A lane at an offset rests: the offset is that of a clause with the convergence bit (R41). -/
def restsAt (s : State) (die : Nat) (l : Launch) (g : Group) (lane : Nat) (pos : Word) : Bool :=
  decide (pos.toNat < l.rec_.codeLen) && resumeAt s die l g (1#64 <<< lane) pos == .no && convAt s die l pos

/-- The lowest PC of a set of lanes. -/
def lowestPc (g : Group) (m : LaneMask) : Option Word :=
  ((lanesOf m).map fun l => nth 0#32 g.pcs l).foldl (fun a p => match a with
    | none => some p
    | some q => some (if p < q then p else q)) none

/-- The group after the release of its YIELDED lanes, if it is due, and its issue address with the executing set
(R41, R42); none when no lane is in RUN. -/
def issueOf (s : State) (die : Nat) (l : Launch) (g : Group) : Group × Option (Word × LaneMask) :=
  let at_ := fun (g : Group) (m : LaneMask) => (lowestPc g m).map fun p =>
    (p, m &&& maskBy fun k => nth 0#32 g.pcs k == p)
  let runs := g.lanesIn .run
  let yields := g.lanesIn .yielded
  if yields = 0#64 then (g, at_ g runs)
  else
    let active := runs &&& maskBy fun k => !restsAt s die l g k (nth 0#32 g.pcs k)
    if active ≠ 0#64 then (g, at_ g active)
    else
      let g := g.setLanes yields .run
      (g, at_ g (runs ||| yields))

/-! ## Header checks (02 R64) -/

/-- STOP bits of a header that are out of range, or stand inside an instruction, the words from index k on being read as
instructions. -/
def badStops (hdr : Word) (k : Nat) (ws : List Word) : Bool :=
  let n := hdrCount hdr
  let long := fun (i : Nat) => decide (i ∈ longs n k (ws.drop k))
  (List.range 15).any fun i => hdrStop hdr i && (decide (n ≤ i + 1) || long i)
where
  /-- Indices of the base words, among n, whose long bit is set. -/
  longs (n i : Nat) : List Word → List Nat
    | [] => []
    | w :: ws =>
      if n ≤ i then []
      else if longOf w then
        match ws with
        | [] => [i]
        | _ :: us => i :: longs n (i + 2) us
      else longs n (i + 1) ws

/-- The base words of a clause with their indices. -/
def baseWords (i : Nat) : List Word → List (Nat × Word)
  | [] => []
  | w :: ws =>
    if longOf w then
      match ws with
      | [] => [(i, w)]
      | _ :: us => (i, w) :: baseWords (i + 2) us
    else (i, w) :: baseWords (i + 1) ws

/-- A header's own checks, the words from index k on being read as instructions: the reason of the first that fails. -/
def headerFailure (hdr : Word) (k : Nat) (ws : List Word) : Option Nat :=
  let n := hdrCount hdr
  if n = 0 then some 0x1
  else if hdr.getLsbD 0 then some 0x2
  else if badStops hdr k ws then some 0x3
  else match (baseWords k ((ws.take n).drop k)).getLast? with
    | some (i, w) => if longOf w && decide (n ≤ i + 1) then some 0x6 else none
    | none => none

/-- The word is a control transfer of class V (02 R88). -/
def isTransfer (c : Cls) (w : Word) : Bool :=
  match c with
  | .v => decide (opOf w ∈ [0x60, 0x61, 0x62, 0x63, 0x67])
  | _ => false

/-- How the checks before a run end. -/
inductive HeaderResult where
  | pass
  /-- An address of the run lies at or beyond CODE_LEN (R43). -/
  | region (chain : Bool)
  | enc (reason : Nat) (chain : Bool) (hdr : Word)
  deriving DecidableEq, Repr

/-- The checks of R64 from step 2 on, over the words of a run whose header lies at an offset and whose issue starts at the
word of index k of its clause. At a resume position the words from there on are read anew as instructions, so that an
extension word may become a base word: one that is long and has no word behind it fails as reason 0x6, and a STOP bit
inside an instruction as reason 0x3 (02 R91 names no reason; DESIGN CHOICE, log 58). -/
def checkRun (len : Nat) (h k : Nat) (code : List Word) : HeaderResult :=
  let hdr := nth 0#32 code 0
  let n := hdrCount hdr
  let ws := (code.drop 1).take n
  let e := endOf h hdr
  match headerFailure hdr 0 ws <|> headerFailure hdr k ws with
  | some r => .enc r false hdr
  | none =>
    if len ≤ h + 4 * n then .region false
    else if !chains hdr then .pass
    else if len ≤ e then .region true
    else
      let kdr := nth 0#32 code (n + 1)
      let m := hdrCount kdr
      match headerFailure kdr 0 ((code.drop (n + 2)).take m) with
      | some r => .enc r true kdr
      | none =>
        if len ≤ e + 4 * m then .region true
        else if hdrClass kdr = .x ∨ hdrHold kdr then .enc 0x4 false hdr
        else if (match (baseWords 0 ws).getLast? with | some (_, w) => isTransfer (hdrClass hdr) w | none => false) then
          .enc 0xC false hdr
        else if 24 < n + m then .enc 0x5 false hdr
        else .pass

/-! ## What a group would do next -/

/-- What the next selection of a group finds. -/
inductive Probe where
  /-- It has nothing to issue: it ends, waits, or awaits a trap. -/
  | idle
  /-- A word of its next run lies on a page that is not at hand. -/
  | fetch (g : Group) (region page : Nat) (addr : Word)
  /-- Its next run fails before anything is issued. -/
  | fail (g : Group) (t : Trap)
  /-- It stands at a convergence clause, or has no lane left, with an unhandled lane fault (R45). -/
  | laneTrap (g : Group) (t : Trap)
  | run (g : Group) (r : Run)
  deriving DecidableEq, Repr

/-- The trap of R43 and of a fetch: the issue address in INFO, no words, WORD 0 (DEDUCED, log 40). -/
def codeTrap (c : Cause) (addr : Word) (chain : Bool) : Trap := { Trap.plain c with info := addr, chain := chain }

def headerTrap (reason : Nat) (chain : Bool) (hdr : Word) : Trap :=
  { Trap.plain .illegalEncoding with word := 0xF#4, reason := BitVec.ofNat 4 reason, chain := chain, words := hdr ++ hdr }

/-- A group issues from a header: its resume header is gone, and the lanes' own; a run of the handler leaves the frame's
alone (10 R344). -/
def Group.freshHeader (g : Group) (exec : LaneMask) : Group :=
  match g.handler with
  | some h => { g with handler := some { h with resume := none } }
  | none => { g with resumeHdr := none, laneHdr := g.laneHdr.mapIdx fun l h => if exec.getLsbD l then none else h }

/-- What a run of a group from an issue address finds: its words, the checks of R64, and the lane-fault trap of a
convergence clause, which comes after a trap of the clause's own (10 R340) but does not wait for its words. -/
def probeAt (s : State) (core slot : Nat) (g : Group) (l : Launch) (fault : Option Trap) (addr : Word) (exec : LaneMask)
    (res : Option Word) : Probe :=
  let die := dieOf core
  let h := res.getD addr
  let fault := if res.isNone && convAt s die l addr then fault else none
  match readRun s die l h.toNat with
  | .error e =>
    (match e, fault with
     | .lost, _ => .fail g (codeTrap .pageFault addr false)
     | .miss _ _, some t => .laneTrap g t
     | .miss r p, none => .fetch g r p addr)
  | .ok code =>
    let first := if res.isSome then (addr.toNat - h.toNat) / 4 - 1 else 0
    match checkRun l.rec_.codeLen h.toNat first code, fault with
    | .region c, _ => .fail g (codeTrap .addrRegion addr c)
    | .enc r c k, _ => .fail g (headerTrap r c k)
    | .pass, some t => .laneTrap g t
    | .pass, none =>
      let pos := if res.isSome then addr else addr + 4#32
      .run (if res.isSome then g else g.freshHeader exec)
        { slot := slot, first := h, cur := h, hdr := nth 0#32 code 0, chained := false, pos := pos, exec := exec
          checked := pos, waited := true, marked := if res.isSome then g.marks &&& exec else 0#64, code := code }

/-- Looks at a group that is in no run: where it issues, and what the checks before its run say. -/
def probe (s : State) (core slot : Nat) (g : Group) (l : Launch) : Probe :=
  let die := dieOf core
  let fault := if g.handler.isSome then none else laneFaultTrap g
  let (g, at_) := issueOf s die l g
  match at_ with
  | none => match fault with | some t => .laneTrap g t | none => .idle
  | some (addr, exec) =>
    if l.rec_.codeLen ≤ addr.toNat then .fail g (codeTrap .addrRegion addr false)
    else match resumeAt s die l g exec addr with
      | .unread (.miss r p) => .fetch g r p addr
      | .unread .lost => .fail g (codeTrap .pageFault addr false)
      | .inside h => probeAt s core slot g l fault addr exec (some h)
      | .no => probeAt s core slot g l fault addr exec none

/-! ## Readiness (R327, R67, R331) -/

/-- An XTAKE of one of the group's X clauses has not issued: 02 Table 2.2 has the class `take` cover it, where 06 R220 says
that no class covers sequencer work (DEDUCED, log 77). -/
def xtakesPending (c : Core) (g : Group) (slot : Nat) : Bool :=
  let mine := fun (k : XClause) => k.launch == g.launch && k.block == g.block && k.slot == slot
  let has := fun (bs : List (List BundleWord)) => bs.any fun b => b.any fun w => match w.word with | .xtake _ => true | _ => false
  (c.seqQueue.any fun k => mine k && has k.bundles)
    || (match c.seqRun with | some r => mine r.clause && has (r.clause.bundles.drop r.bundle) | none => false)

/-- The instructions of a clause of a run: its words from an offset to its end. -/
def clauseInstrs (r : Run) (cur hdr pos : Word) : List Decoded :=
  let n := hdrCount hdr
  ((baseWords ((pos - cur).toNat / 4 - 1) (((List.range n).map fun i => r.wordAt (cur + BitVec.ofNat 32 (4 + 4 * i))).drop
    ((pos - cur).toNat / 4 - 1))).map fun p => decode (hdrClass hdr) p.2 (r.wordAt (cur + BitVec.ofNat 32 (8 + 4 * p.1))))

/-- The sources that hold up the issue of a clause when they are its first instruction's. -/
def firstSources (e : CheckEnv) : Decoded → List Opd
  | .ok (.icmp w _) => if w.guard = 0 then [] else [.p w.guard.toNat]
  | .ok (.fcmp w _) => if w.guard = 0 then [] else [.p w.guard.toNat]
  | .ok (.bra w x) => if w.d.extractLsb' 1 2 = 0 then readsOf e (.bra w x) else []
  | .ok i => readsOf e i ++ xReads i
  | _ => []

/-- An instruction that a predicted E clause may hold (Table 9.2). -/
def mayPredict : Decoded → Bool
  | .ok (.cnest _ _) => true | .ok (.cgo _ _) => true | .ok (.cpy _ _) => true | .ok (.cred _ _) => true
  | .ok (.qtz _ _) => true | .ok (.dqz _ _) => true | .ok (.rqz _ _) => true | .ok (.rqzKv _ _) => true
  | .ok (.lsend _ _) => true | .ok (.lsendPort _ _) => true | .ok (.lradd _ _) => true | .ok (.lwin _ _) => true
  | .ok (.qpush _) => true | .ok (.qpushLong _ _) => true
  | _ => false

/-- Clauses of a run: one, or two in a chain. -/
def Run.clauses (r : Run) : Nat := if chains r.hdr then 2 else 1

/-- The header of the chained clause, and its offset. -/
def Run.chainHdr (r : Run) : Word × Word := (clauseEnd r.cur r.hdr, r.wordAt (clauseEnd r.cur r.hdr))

/-- The commit buffer takes the run of a group in predicted mode (Table 9.2, R332). -/
def acceptPredicted (c : Core) (slot : Nat) (r : Run) : Bool :=
  let ok := fun (cur hdr pos : Word) => match hdrClass hdr with
    | .x => true
    | .e => (clauseInstrs r cur hdr pos).all mayPredict
    | _ => false
  let used := ((c.groups.filter fun p => schedOf p.1 == schedOf slot).filterMap fun p => p.2.predicted.map fun q => q.clauses).foldl
    (· + ·) 0
  ok r.cur r.hdr r.pos && (!chains r.hdr || ok r.chainHdr.1 r.chainHdr.2 (r.chainHdr.1 + 4#32))
    && decide (used + r.clauses ≤ 4)

/-- The run may begin: its WAIT mask is met, its first instruction's sources have landed, and a predicted group's
commit buffer takes it. -/
def runReady (s : State) (core slot : Nat) (g : Group) (l : Launch) (r : Run) : Bool :=
  let c := s.core core
  g.waitClear (hdrWait r.hdr) (xtakesPending c g slot)
    && !(match clauseInstrs r r.cur r.hdr r.pos with
         | d :: _ => (firstSources (checkEnv g l) d).any g.pendingOpd
         | [] => false)
    && (match g.predicted with | some _ => acceptPredicted c slot r | none => true)

/-- The group takes part in issue: it has not ended or been stopped, waits for nothing, and no trap of its own stands
between it and its next clause. -/
def Group.issues (g : Group) : Bool :=
  !g.ended && !g.stopped && !g.gangLost && g.wait == .none && g.due.isNone
    && (match g.predicted with | some p => p.heldTrap.isNone | none => true)

/-- The continuation of a run may go on: at a chained clause its WAIT mask is met (R67). -/
def contReady (s : State) (core slot : Nat) (g : Group) (r : Run) : Bool :=
  r.exec != 0#64 && (!r.mustChain || g.waitClear (hdrWait r.chainHdr.2) (xtakesPending (s.core core) g slot))

/-- A launch whose groups may be selected: one that is admitted, and not stopping. -/
def Launch.runs (l : Launch) : Bool := l.phase == .admitted

/-- The slots of a scheduler with their groups. -/
def schedGroups (c : Core) (k : Nat) : List (Nat × Group) := c.groups.filter fun p => schedOf p.1 == k

/-- What a scheduler may select of a group: a continuation, a run, or a failure of its header. -/
inductive Pick where
  | cont (r : Run)
  | run (g : Group) (r : Run)
  | fail (g : Group) (t : Trap)
  deriving DecidableEq, Repr

def pickOf (s : State) (core slot : Nat) (g : Group) : Option Pick :=
  match s.launch? g.launch with
  | none => none
  | some l =>
    if !l.runs || !g.issues then none
    else match g.cont with
      | some r => if contReady s core slot g r then some (.cont r) else none
      | none =>
        match probe s core slot g l with
        | .run h r =>
          -- a delivered fault is taken before the next clause (06 R248), but after a trap of the clause's header (10 R340)
          if g.handler.isNone && g.predicted.isNone && !g.delivered.isEmpty then none
          else if runReady s core slot h l r then some (.run h r) else none
        | .fail h t => some (.fail h t)
        | _ => none

/-! ## The choice (R328) -/

/-- The age of a ready group at a selection. -/
def Group.ageNow (g : Group) : Nat := if g.ready then g.age else 0

/-- The ready group of greatest age, the lowest slot on a tie. -/
def oldest : List (Nat × Group × Pick) → Option (Nat × Group × Pick)
  | [] => none
  | p :: ps => match oldest ps with
    | none => some p
    | some q => if p.2.1.ageNow < q.2.1.ageNow || (p.2.1.ageNow == q.2.1.ageNow && decide (q.1 < p.1)) then some q else some p

/-- The group that the scheduler selects. -/
def choose (k : Scheduler) (ps : List (Nat × Group × Pick)) : Option (Nat × Group × Pick) :=
  match k.holder.bind fun h => ps.find? fun p => p.1 == h with
  | some p => if (k.last ≠ some p.1 ∨ k.streak < 4) ∧ ps.all (fun q => q.2.1.ageNow < 4) then some p else oldest ps
  | none => oldest ps

/-- Ages after a selection: the chosen group's is 0, other ready groups grow older, the rest have none. -/
def ageGroups (c : Core) (k slot : Nat) (ready : List Nat) : Core :=
  mapGroups c fun n g =>
    if schedOf n ≠ k then g
    else if n = slot then { g with ready := true, age := 0 }
    else if ready.contains n then { g with ready := true, age := g.ageNow + 1 }
    else { g with ready := false, age := 0 }

/-- The fetch of a run's words uses the pages and lines they lie in (10 R353, R435, 08 R434). -/
def touchCode (s : State) (die : Nat) (l : Launch) (r : Run) : State :=
  let a := l.rec_.codeBase + r.first.toNat
  (lineParts a (4 * r.code.length) (r.code.length + 1)).foldl (fun s p =>
    match regionOf l (p.1 % 2 ^ 64) with
    | none => s
    | some (i, q) =>
      let off := p.1 % 2 ^ 64 - q.vbase
      if q.kind = 0 then touchSpan s (q.target + off) p.2 false
      else match (s.die die).tlbFind l.asid i (off / 2 ^ q.pageBits) with
        | some e => touchL2 (s.mapDie die fun d => d.tlbTouch l.asid i (off / 2 ^ q.pageBits)) (e.dpa + off % 2 ^ q.pageBits) false
        | none => s) s

/-- A run begins, from a header or from inside the clause of a resume header, which it then keeps (02 R91), under the
MODE that stands now (01 R21; a run that resumes inside a clause takes the MODE that stands then, DESIGN CHOICE,
log 54). The first predicted run keeps what it finds of the lanes (09 R332). -/
def startRun (s : State) (core k slot : Nat) (g : Group) (r : Run) : State :=
  let g := g.noteFrame ((s.group? core slot).getD g).frame
  let g := { g.beginClause with marks := g.marks &&& ~~~r.exec }.movePcs r.exec r.pos
  let g := { g with predicted := g.predicted.map fun p => { p with clauses := p.clauses + r.clauses } }
  let s := match s.launch? g.launch with | some l => touchCode s (dieOf core) l r | none => s
  (s.setGroup core slot g).mapCore core fun c => c.mapSched k fun x => { x with run := some r }

/-- Readiness is exact to the cycle: a group that is not ready at this moment has no age, though it be ready again at the next
selection (R328). -/
def settleAges (s : State) : State :=
  { s with cores := s.cores.map fun p => (p.1, mapGroups p.2 fun n g =>
      if g.age ≠ 0 ∧ (pickOf s p.1 n g).isNone then { g with ready := false, age := 0 } else g) }

/-- SCHEDULER_SELECT (R328). A header failure traps before anything is issued (02 R64), and is no run. It has no trapping
word, and the group keeps the resume header that it has (02 R91 does not say; DESIGN CHOICE, log 76). -/
def schedulerSelect (s : State) (core k : Nat) : State :=
  let c := s.core core
  if (c.sched k).run.isSome then s
  else
    let ps := (schedGroups c k).filterMap fun p => (pickOf s core p.1 p.2).map fun q => (p.1, p.2, q)
    match choose (c.sched k) ps with
    | none => s.setCore core (ageGroups c k 64 [])
    | some (slot, old, .fail g t) => raiseTrap (s.setGroup core slot (g.noteFrame old.frame)) core slot 0#64 0#32 none t
    | some (slot, _, q) =>
      let s := s.setCore core (ageGroups c k slot (ps.map fun p => p.1))
      let s := s.mapCore core fun c => c.mapSched k fun x =>
        { x with last := some slot, streak := if x.last = some slot then x.streak + 1 else 1 }
      match q with
      | .cont r =>
        (s.mapGroup core slot fun g => { g with cont := none }).mapCore core fun c => c.mapSched k fun x => { x with run := some r }
      | .run g r => startRun s core k slot { g with ready := true, age := 0 } r
      | .fail _ _ => s

/-- SCHEDULER_SELECT (R328). -/
def execSchedulerSelect (s : State) : Host.Outcome State Fault Refusal := .next (schedulerSelect s s.sel.core (s.sel.sched % 4))

/-! ## The next instruction of a run (02 R85) -/

/-- What comes next in a run. -/
inductive NextInstr where
  /-- An instruction executes, in the state that its group's checks leave. -/
  | instr (i : Instr) (s : State)
  /-- The run has come to something else: a chained clause, a failed check, a wait. -/
  | moved (s : State)
  | none

/-- The words of the group of instructions that starts at the run's position, decoded: word index, whether it ends the
clause, and what it is (02 R65). -/
def groupWords (r : Run) : List (Nat × Bool × Decoded) :=
  let n := hdrCount r.hdr
  let ws := rawWords r (hdrClass r.hdr) n 16 r.wordIx
  match splitGroups r.hdr ws with
  | [] => []
  | b :: _ => b.map fun w => (w.ix, decide (n ≤ w.ix + lengthOf w.base), w.dec)

/-- The trap of a failed check at a word of the run's clause (02 R89). -/
def checkTrap (s : State) (x : Issuer) (ix : Nat) (f : Failure) : State :=
  let r := x.run
  let at_ := r.cur + BitVec.ofNat 32 (4 + 4 * ix)
  let base := r.wordAt at_
  let (c, reason) := match f with | .enc n => (Cause.illegalEncoding, n) | .ring => (Cause.queueFault, 0)
  takeTrap s x.core x.sched x.slot r.exec at_ (some r.cur)
    { Trap.plain c with
      word := BitVec.ofNat 4 ix, chain := r.chained, reason := BitVec.ofNat 4 reason, words := base ++ r.hdr
      view := oplogView (s.core x.core) x.g x.slot base (r.wordAt (at_ + 4#32)) (r.exec &&& guardMask x.g base (r.wordAt (at_ + 4#32))) r.exec }

/-- Enters the chained clause of a run, when its WAIT mask is met (R67). Until then the run stands there, and no other group
of the scheduler issues (R66). -/
def enterChain (s : State) (x : Issuer) : State :=
  let r := x.run
  if contReady s x.core x.slot x.g r then
    let (cur, hdr) := r.chainHdr
    let r := { r with cur := cur, hdr := hdr, chained := true, pos := cur + 4#32, checked := cur + 4#32 }
    let s := s.mapGroup x.core x.slot fun g => (g.beginClause).movePcs r.exec r.pos
    s.mapCore x.core fun c => c.mapSched x.sched fun k => { k with run := some r }
  else s

/-- The group stands in a run that waits: for the actions of a synchronisation instruction, or for the WAIT mask of the
chained clause. -/
def heldInRun (s : State) (core slot : Nat) : Bool :=
  match ((s.core core).sched (schedOf slot)).run, s.group? core slot with
  | some r, some g => r.slot == slot && (g.wait != .none || (r.mustChain && !contReady s core slot g r))
  | _, _ => false

/-- The next instruction of the run of a scheduler, its group of instructions checked when the run reaches it. A run whose
lanes have all parked ends at once, whatever words are left of it; R45 speaks only of the executing lanes that go on (DESIGN
CHOICE, log 90). -/
def nextInstr (s : State) (core k : Nat) : NextInstr :=
  let s := { s with focus := .group core k }
  match issuer s with
  | none => .none
  | some x =>
    let r := x.run
    if x.g.wait ≠ .none then .none
    else if r.exec = 0#64 then .moved (endRun s core k)
    else if r.mustChain then .moved (enterChain s x)
    else if r.atEnd then .moved (endRun s core k)
    else if hdrClass r.hdr = .x then .instr .xclauseHandoff { s with sel := { s.sel with core := core, sched := k } }
    else
      let failure := if r.pos < r.checked then none else groupFailure (checkEnv x.g x.l) [] (groupWords r)
      match failure with
      | some (ix, f) => if viewPending x.g r ix then .none else .moved (checkTrap s x ix f)
      | none =>
        let stop := match (groupWords r).getLast? with
          | some (ix, _, _) => r.cur + BitVec.ofNat 32 (8 + 4 * ix)
          | none => r.pos
        let r := if r.pos < r.checked then r else { r with checked := stop }
        let s := s.mapCore core fun c => c.mapSched k fun y => { y with run := some r }
        let base := r.wordAt r.pos
        match decode (hdrClass r.hdr) base (r.wordAt (r.pos + 4#32)) with
        | .ok i => .instr i s
        | .unassigned =>
          .instr (.unassignedOpcode (hdrClass r.hdr) base (if longOf base then some (r.wordAt (r.pos + 4#32)) else none)) s
        | .illegal n => if viewPending x.g r r.wordIx then .none else .moved (checkTrap s x r.wordIx (.enc n))

end Sys2Proof.Machine
end

