-- ==== Sys2Proof/Machine/Settle.lean ====
section
/-! DEFINITION. What happens of itself once its condition holds: deferred compares (02 R67), the resolution of a
predicted branch (09 R332, R333), waits that are met, queue entries that find a taker or room (01 R25), tables that may
complete, and the delivery of faults (06 R244, R248, 10 R340). It is applied after every step (`settleAll`). -/

namespace Sys2Proof.Machine

/-! ## Compares whose sources have landed (02 R67) -/

/-- A compare's source, read once nothing earlier of the group is still to write it. -/
def landSrc (c : Core) (g : Group) (id : Nat) (k : PendingCmp) : CmpSrc → CmpSrc
  | .vals vs => .vals vs
  | .reg scalar n =>
    let wide := wideType k.type.toNat
    let o := opd scalar n (if wide then 2 else 1)
    if g.pend.any fun p => decide (p.id < id) && p.op.writes.any fun w => w.meets o then .reg scalar n
    else
      let one := fun (l : Nat) =>
        if scalar then (if wide then g.sreg n else (lowWord (g.sreg n)).setWidth 64)
        else pair (c.vRead k.win g.wide n l) (if wide then c.vRead k.win g.wide (n + 1) l else 0#32)
      .vals ((List.range g.width).map one)

/-- Reads what has landed of a compare, and completes it when both sources have. -/
def landCmp (c : Core) (g : Group) (id : Nat) (k : PendingCmp) : Group :=
  let k := { k with a := landSrc c g id k k.a, b := landSrc c g id k k.b }
  if k.a.isPending || k.b.isPending then g.setPend id (.cmp k) else (g.dropPend id).setP k.pred k.lanes k.result

def landCmps (c : Core) (g : Group) : Group :=
  g.pend.foldl (fun g p => match p.op with | .cmp k => landCmp c g p.id k | _ => g) g

/-! ## The predicted arm (R332, R333) -/

/-- Maps the clauses of a group, queued and running, on a core. -/
def Core.mapClauses (c : Core) (mine : XClause → Bool) (f : XClause → XClause) : Core :=
  let one := fun (k : XClause) => if mine k then f k else k
  { c with seqQueue := c.seqQueue.map one, seqRun := c.seqRun.map fun r => { r with clause := one r.clause } }

/-- Discards the clauses that p names, on a core; nothing awaits their writebacks any more. -/
def Core.dropClauses (c : Core) (p : XClause → Bool) : Core :=
  let free := c.seqRun.any fun r => p r.clause
  let land := fun (x : Tile) => if x.seqWait then { x with seqWait := false, land := !x.waits.isEmpty } else x
  { c with
    seqQueue := c.seqQueue.filter fun k => !p k, seqRun := c.seqRun.filter fun r => !p r.clause
    tiles := if free then c.tiles.map land else c.tiles }

/-- A predicted clause of a group's. -/
def predictedOf (g : Group) (slot : Nat) (k : XClause) : Bool :=
  k.predicted && k.launch == g.launch && k.block == g.block && k.slot == slot

/-- Both cores of a core's pair that may run a clause of the core. -/
def pairCores (core : Nat) : List Nat := if core % 2 = 0 then [core, core + 1] else [core]

/-- The core has begun to hold blocks; a core that never has holds no clause. -/
def State.mapKnown (s : State) (core : Nat) (f : Core → Core) : State :=
  match assocGet s.cores core with | some _ => s.mapCore core f | none => s

/-- The lanes of a group as a branch left them (R332, R333): the branch's own at a PC, the others where they stood before the
predicted clauses ran, yielded if they had yielded. A lane that has parked since keeps its place, and has reached that PC. The
resume header is the handler's own in handler mode: the frame's stands (10 R344). -/
def Group.unpredict (g : Group) (p : Predicted) (pc : Word) (resume : Option Word) : Group :=
  let back := fun (l : Nat) => if p.exec.getLsbD l then pcWord pc else nth 0#32 p.before.pcs l
  let was := fun (l : Nat) => nth LaneState.exited p.before.states l
  let parked := g.lanesIn .parked &&& maskBy fun l => was l != .parked
  let log := mapLanes parked (fun l (e : Option FaultEntry) => e.map fun e => { e with reached := back l }) g.faultLog
  let live := g.lanesIn .run ||| g.lanesIn .yielded
  let g := g.setPcs (mapLanes live (fun l _ => back l) g.pcs)
  let g := g.setLanes (g.lanesIn .run &&& maskBy fun l => was l == .yielded) .yielded
  let g := match g.handler with
    | some h => { g with handler := some { h with resume := resume } }
    | none => { g with resumeHdr := resume }
  { g with laneHdr := p.before.laneHdr, marks := p.before.marks, faultLog := log, predicted := none, cont := none, wait := .none
           ready := false, age := 0 }

/-- Discards what a group did in predicted mode, and puts its lanes back. -/
def discardPredicted (s : State) (core slot : Nat) (g : Group) (p : Predicted) (pc : Word) (resume : Option Word) : State :=
  let s := (pairCores core).foldl (fun s n => s.mapKnown n fun c => c.dropClauses (predictedOf g slot)) s
  let s := s.mapCore core fun c =>
    match (c.sched (schedOf slot)).run with
    | some r => if r.slot = slot then c.mapSched (schedOf slot) fun x => { x with run := none } else c
    | none => c
  s.mapGroup core slot fun g => (g.unpredict p pc resume).parkAll

/-- A clause of a group is no longer predicted, in the clause queue, in the sequencer, or waiting to enter. -/
def releaseClause (s : State) (core slot : Nat) (g : Group) (id : Nat) : State :=
  let mine := fun (k : XClause) => predictedOf g slot k && k.id == id
  let plain := fun (k : XClause) => { k with predicted := false }
  let s := (pairCores core).foldl (fun s n => s.mapKnown n fun c => c.mapClauses mine plain) s
  s.mapGroup core slot fun g => match g.wait with
    | .handoff k => if mine k then { g with wait := .handoff (plain k) } else g
    | _ => g

/-- Releases withheld items in order, as far as there is room: an item goes when those before it have gone. -/
def flushItems (s : State) (core slot : Nat) (g : Group) : List PredItem → State × List PredItem
  | [] => (s, [])
  | .cmd e k :: is =>
    let c := s.core core
    if c.cmdFull k then (s, .cmd e k :: is)
    else
      let k := { k with id := c.nextId }
      flushItems (usesFabric (s.setCore core ((c.pushCmd k).tick)) k) core slot g is
  | .push q v :: is =>
    let c := s.core core
    if c.queueFull q then (s, .push q v :: is)
    else
      let n : QEntry := { launch := g.launch, block := g.block, slot := slot, id := c.nextId, value := v }
      flushItems (s.setCore core (c.pushQueue q n).tick) core slot g is
  | .clause id :: is => flushItems (releaseClause s core slot g id) core slot g is

/-- The branch has resolved as hinted: its clauses proceed in their order, X clauses no longer predicted and what was withheld
going out, and a held trap falls due behind them (R332), before a delivered fault that has fallen due meanwhile (10 R340); in
handler mode it aborts the launch (10 R345). -/
def flushPredicted (s : State) (core slot : Nat) (g : Group) (p : Predicted) : State :=
  let (s, left) := flushItems s core slot g p.items
  if !left.isEmpty then s.mapGroup core slot fun g => { g with predicted := some { p with items := left, matched := true } }
  else
    let s := s.mapGroup core slot fun g => { g with predicted := none }
    match p.heldTrap with
    | none => s
    | some t =>
      if g.handler.isSome then abortLaunch s g.launch .trapInHandler (t.cause.code, core, p.heldAt.toNat)
      else s.mapGroup core slot fun g => { g with due := some t, delivered := g.due.toList ++ g.delivered }

/-- Resolves a group's branch once its guard has landed. -/
def resolveBranch (s : State) (core slot : Nat) : State :=
  match s.group? core slot with
  | none => s
  | some g =>
    match g.predicted with
    | none => s
    | some p =>
      if p.matched then flushPredicted s core slot g p
      else if g.pendingOpd (.p p.pred) then s
      else
        let taken := (g.pred p.pred).getLsbD p.lane != p.gn
        if taken = p.hintTaken then flushPredicted s core slot g p
        else discardPredicted s core slot g p (if taken then p.taken else p.next) p.before.hdr

/-- Abandons a prediction that has not resolved: the branch is to execute anew (R333). -/
def abandonPrediction (s : State) (core slot : Nat) : State :=
  match (s.group? core slot).map fun g => (g, g.predicted) with
  | some (g, some p) =>
    if p.matched then s else discardPredicted s core slot g p p.braPos (some p.hdrOff)
  | _ => s

/-! ## Waits that are met -/

/-- A group whose wait's condition holds goes on (R362: waits are evaluated again). -/
def recheck (s : State) (core slot : Nat) (g : Group) : Group :=
  let c := s.core core
  let g := match g.cont with | some r => if r.exec = 0#64 ∧ g.wait = Wait.none then { g with cont := Option.none } else g | none => g
  match g.wait, s.launch? g.launch, c.block? g.launch g.block with
  | .barrier k n, some l, some b =>
    if !g.arriving k n && g.token k n != phaseOf s core l b k n then g.acquire (barScope k) c.nextId else g
  | .counter k v scope, _, _ => if v ≤ c.counter k then g.acquire scope c.nextId else g
  | .ring r free n d, some l, some b =>
    (match ringwValue (ringDesc l r) (b.ring r) free n with
     | some v => g.ringGot free d v c.nextId
     | none => g)
  | .rx t, _, _ => if (c.table t).open_ then g else g.acquire 1 c.nextId
  | .take, _, _ => if g.takePending then g else { g with wait := .none }
  | .service id, _, _ => if g.svcWaits s core slot id then g else { g with wait := .none }
  | _, _, _ => g

/-! ## Traps and fetches that the issue address brings -/

/-- A wait that a trap may interrupt, and that comes back at RETT (06 R248). -/
def Wait.interruptible : Wait → Bool
  | .none => true | .barrier _ _ => true | .counter _ _ _ => true | .ring _ _ _ _ => true | .take => true
  | _ => false

/-- A fetch of code is under way (10 R435). -/
def Wait.isFetch : Wait → Bool
  | .fetch _ _ _ => true
  | _ => false

/-- The group stands in no scheduler's run. -/
def Core.offRun (c : Core) (slot : Nat) : Bool := !(c.sched (schedOf slot)).run.any fun r => r.slot == slot

/-- A group whose issue address is a convergence clause, or that has no lane left, takes the lane-fault trap at once,
whatever it waits for (R340); the wait comes back at RETT (DEDUCED, log 41). A delivered fault goes first where the group may
take it at this moment. One whose next words are not at hand starts their walk (R435). -/
def watchIssue (s : State) (core slot : Nat) : State :=
  match s.group? core slot with
  | none => s
  | some g =>
    match s.launch? g.launch with
    | none => s
    | some l =>
      if g.ended || g.stopped || g.due.isSome || !(s.core core).offRun slot || g.cont.isSome || l.phase == .queued then s
      else match probe s core slot g l with
        | .laneTrap h t =>
          if g.predicted.isSome || (!g.delivered.isEmpty && g.handler.isNone && g.wait.interruptible) then s
          else
            let h := if h.wait.isFetch then { h with wait := .none } else h
            raiseTrap (s.setGroup core slot h) core slot 0#64 0#32 none t
        | .fetch h region page addr =>
          if !g.issues then s
          else
            let s := s.setGroup core slot { h with wait := .fetch region page addr }
            let w : Walk := { asid := l.asid, launch := l.id, region := region, page := page, write := false }
            s.mapDie (dieOf core) fun d => d.startWalk w
        | _ => s

/-! ## Delivered faults (06 R244, R248) -/

/-- Slots of a block whose groups have not ended, lowest first. -/
def Core.liveSlots (c : Core) (launch block : Nat) : List Nat :=
  (c.groups.filter fun p => p.2.launch == launch && p.2.block == block && !p.2.ended).map fun p => p.1

/-- The group already has the fault of an origin. -/
def Group.hasFault (g : Group) (o : Origin) : Bool :=
  g.delivered.any (fun t => t.origin == o) || g.due.any (fun t => t.origin == o) || g.handler.any fun h => h.trap.origin == o

/-- Notes a drop with its block: the cause, and the address (10 R357, 06 R248). -/
def noteDrop (c : Core) (launch block : Nat) (t : Trap) : Core :=
  c.mapBlock launch block fun b => { b with incident := b.incident <|> some (t.cause.code, 0) }

/-- Delivers one fault: to the issuing group, else to the lowest slot of its block that has not ended, else the work is
dropped. -/
def deliver (s : State) (core launch block slot : Nat) (t : Trap) : State :=
  let c := s.core core
  let live := c.liveSlots launch block
  match if live.contains slot then some slot else live.head? with
  | none => resumeStopped (s.mapCore core fun c => noteDrop c launch block t) core t true
  | some n =>
    if live.any fun m => (c.group? m).any fun g => g.hasFault t.origin then s
    else s.mapGroup core n fun g => { g with delivered := g.delivered ++ [t] }

/-- Everything that the issues of a sequencer's run have begun is complete. -/
def Core.issuesDone (c : Core) : Bool :=
  match c.seqRun with
  | some r => r.writebacks.isEmpty && r.signals.isEmpty
  | none => true

/-- The faults that stand on a core, with the block and slot they come from. One of the sequencer is delivered once every
earlier issue is complete, on the follower too (06 R244). -/
def standing (s : State) (core : Nat) : List (Nat × Nat × Nat × Trap) :=
  let c := s.core core
  let seq := match c.seqRun with
    | some r => if r.role = .follower || r.clause.predicted || !c.issuesDone
                  || (r.role == .leader && !(s.core (core + 1)).issuesDone) then []
                else (match r.stopped with | some t => [(r.clause.launch, r.clause.block, r.clause.slot, t)] | none => [])
    | none => []
  let eng := fun (e : Engine) =>
    let st := c.eng e
    let q := nth [] c.queues (entryQueue e)
    (st.cmds.filterMap fun k => k.fault.map fun t => (k.launch, k.block, k.slot, t))
      ++ st.bad.filterMap fun b => (q.find? fun n => n.id == b.1).map fun n => (n.launch, n.block, n.slot, b.2)
  seq ++ eng .copy ++ eng .quant ++ eng .link

/-- Order of delivered faults (R340): sequencer, copy, quantisation, link; contexts ascending. -/
def Trap.rank (t : Trap) : Nat := t.origin.code * 4 + t.ctx.toNat

/-- The first of the delivered faults in that order. -/
def firstDelivered : List Trap → Option Trap
  | [] => none
  | t :: ts => match firstDelivered ts with | none => some t | some u => if t.rank ≤ u.rank then some t else some u

/-! ## The whole -/

def settleGroup (s : State) (core slot : Nat) : State :=
  match s.group? core slot with
  | none => s
  | some g =>
    if g.ended then s
    else
      let s := if g.pend.any (fun p => match p.op with | .cmp _ => true | _ => false) then
          s.mapGroup core slot fun g => landCmps (s.core core) g else s
      let s := resolveBranch s core slot
      match s.group? core slot with
      | none => s
      | some g =>
        let s := if g.stopped || g.ended then s else s.setGroup core slot (recheck s core slot g)
        watchIssue s core slot

/-- Applies the EXPECTs behind arrivals that have been applied, and the arrivals of groups that have ended (01 R55, R56). -/
def settleBars (s : State) (core : Nat) : State :=
  (s.core core).groups.foldl (fun s p => p.2.pend.foldl (fun s q =>
    applyExpect (applyLeave s core p.1 q) core p.1 q) s) s

/-- Hand-offs that have found room, and accesses that have found an operand-log entry (02 R66). -/
def settleWaits (s : State) (core : Nat) : State :=
  (s.core core).groups.foldl (fun s p => admitWaiting (enterQueue s core p.1) core p.1) s

def settleCore (s : State) (core : Nat) : State :=
  let c := s.core core
  let settleTable := fun (s : State) (t : Nat) =>
    if ((s.core core).table t).open_ then completeTable (expireTable (dispatchTable s core t) core t) core t else s
  let s := s.setCore core (servePushes (servePops c (pendingPops c).length (pendingPops c))).settleTiles.settleTakes
  let s := settleWaits (settleBars s core) core
  let s := (List.range 4).foldl settleTable s
  let s := (standing s core).foldl (fun s f => deliver s core f.1 f.2.1 f.2.2.1 f.2.2.2) s
  (s.core core).groups.foldl (fun s p => settleGroup s core p.1) s

/-! ## Service groups (09 R336) -/

/-- What a request is for is still there. -/
def SvcRef.live (s : State) : SvcRef → Bool
  | .part core slot id n =>
    (match (s.group? core slot).bind fun g => g.pend? id with
     | some (.access a) => a.lanes.any fun l => l.part == n && (l.progress == .queued || l.progress == .held)
     | _ => false)
  | .cred e => ((s.core e.core).cmd? .copy e.id).isSome
  | .peer _ _ _ _ => false

/-- A request has come into its strip's queue from before it: its group is held no longer. -/
def SvcRef.letIn (s : State) : SvcRef → State
  | .part core slot id n =>
    (match (s.group? core slot).bind fun g => g.pend? id with
     | some (.access a) =>
       if a.lanes.any fun l => l.part == n && l.progress == .held then
         s.mapGroup core slot fun g => g.setPart id n fun l => { l with progress := .queued }
       else s
     | _ => s)
  | _ => s

/-- The oldest request of a strip's service group, where no event of a group or command performs it: a peer's, once its
cycle is over, or an element of a CRED that is gone, or whose context may not work meanwhile. -/
def serveHead (s : State) (die strip : Nat) : State :=
  match ((s.die die).queueAt strip).head? with
  | some r =>
    (match r.ref with
     | .peer a aop size data => if r.since < s.cycle then servePeer s a aop size data else s
     | .cred e =>
       (match (s.core e.core).cmd? .copy e.id with
        | some k => if cmdReady s e.core k then s else serveCred s e
        | none => serveCred s e)
     | .part _ _ _ _ => s)
  | none => s

/-- Requests of accesses that are gone leave their queues, and the oldest ones that nothing else performs are performed. -/
def settleService (s : State) (die : Nat) : State :=
  if (s.die die).svc.isEmpty then s
  else
    let keep := fun (r : SvcReq) => match r.ref with | .part _ _ _ _ => r.ref.live s | _ => true
    let s := s.mapDie die fun d => { d with svc := d.svc.filter keep }
    let s := (List.range 16).foldl (fun s k => serveHead s die k) s
    (List.range 16).foldl (fun s k => (((s.die die).queueAt k).take 128).foldl (fun s r => r.ref.letIn s) s) s

/-- A page is still awaited on a die. -/
def PageKey.awaited (k : PageKey) (s : State) : Bool := !(k.parts s).isEmpty || !(k.fetches s).isEmpty || !(k.cmds s).isEmpty

/-- A fault record stands while a miss of its page is outstanding (R354). -/
def settleFaults (s : State) (die : Nat) : State :=
  s.mapDie die fun d =>
    { d with faults := d.faults.filter fun f =>
        ({ die := die, asid := f.1, region := f.2.1, page := f.2.2 } : PageKey).awaited s }

/-- Groups of a launch that have not ended, on the cores that hold it. -/
def State.liveGroups (s : State) (launch : Nat) : List (Nat × Nat × Group) :=
  s.cores.flatMap fun p => (p.2.groups.filter fun q => q.2.launch == launch && !q.2.ended).map fun q => (p.1, q.1, q.2)

/-- A launch whose groups have all stopped may be saved (R360). -/
def settleLaunch (s : State) (l : Launch) : State :=
  match l.phase with
  | .stopping auto =>
    if (s.liveGroups l.id).all fun x => x.2.2.stopped then s.mapLaunch l.id fun l => { l with phase := .stopped auto } else s
  | _ => s

/-- What the cores, the service groups and the KV pools do of themselves. -/
def settle (s : State) : State :=
  let s := s.cores.foldl (fun s p => settleCore s p.1) s
  settlePages (settleService (settleService s 0) 1)

/-- What follows from everything else: fault records that nothing awaits end, launches that have stopped can be saved, and
groups that are not ready have no age. -/
def settleLast (s : State) : State :=
  let s := settleFaults (settleFaults s 0) 1
  settleAges (s.launches.foldl settleLaunch s)

end Sys2Proof.Machine
end

