-- ==== Sys2Proof/Machine/Entry.lean ====
section
/-! DEFINITION. Taking a trap: a delivered fault becomes the group's trap (06 R248, 10 R340), and the group enters its
handler (10 R344, R363). The return is `leaveHandler` and RETT (Machine/Ops.lean, Machine/System.lean). -/

namespace Sys2Proof.Machine

/-! ## What must have landed (R344) -/

/-- The accesses of a group that a demand miss holds: those with a lane whose page is missing, and those logged behind them
(R354, R355). -/
def Group.missHeld (g : Group) : List Nat :=
  g.pend.foldl (fun ids p => match p.op with
    | .access a =>
      if a.lanes.any (fun l => l.open_ && (match l.target with | .walk _ _ true => true | _ => false))
        || a.behind.any ids.contains then ids ++ [p.id] else ids
    | _ => ids) []

/-- Every lane of an access has landed, parked or is held in the operand log as a demand miss, by its own page or behind
an access that is (R344, R355). -/
def Group.atRest (g : Group) (a : Access) : Bool :=
  a.behind.any g.missHeld.contains || a.lanes.all fun l => match l.target, l.progress with
    | .walk _ _ true, _ => true
    | _, .done => true
    | _, .parked => true
    | _, _ => false

/-- A KCOMMIT or KDROP, which runs to its commit point before its group is trapped or pre-empted (07 R284). -/
def KvCtl.commits (k : KvCtl) : Bool :=
  match k.op with
  | .kcommit => true
  | .kdrop => true
  | _ => false

/-- A pending operation does not keep its group from its handler. -/
def Group.entryFree (g : Group) : PendOp → Bool
  | .access a => (match a.kind with | .load => g.atRest a | .atom => g.atRest a | _ => false)
  | .kv _ => false
  | .kvCtl k => !k.commits
  | .long _ _ _ => false
  | .pop _ _ => false
  | .take _ _ => true
  | .cmp _ => true
  | .arrive _ _ _ => true
  | .expect _ _ _ _ _ => true
  | .leave _ => true
  | .ctradd _ _ _ => true
  | .ringl _ _ => true
  | .amerge _ _ _ _ _ _ _ _ => false
  | .rret _ _ => false
  | .pref _ _ _ => true

def Group.entryClear (g : Group) : Bool := g.pend.all fun p => g.entryFree p.op

/-! ## Entry (R344) -/

/-- The group as it begins to handle a trap: every lane that has not exited runs from TRAP_ENTRY. -/
def Group.enter (g : Group) (t : Trap) (entry : Word) (mark : Nat) : Group :=
  { g with
    handler := some
      { trap := t, mark := mark, wait := g.wait, cont := g.cont, resume := none, pcs := g.lpc.map fun _ => pcWord entry
        lanes := g.lanes.map fun l => if l = .exited then .exited else .run, readPos := 0 }
    due := none, wait := .none, cont := none, ready := false, age := 0 }

/-- The GANG_LOST trap (R363). -/
def gangTrap : Trap := { Trap.plain .gangLost with origin := .module }

/-- What GANG_LOST leaves pending: everything but the outstanding accesses, which are abandoned (R363). An arrival at a wide
barrier goes too: the block counts on its segments no longer (R364). -/
def PendOp.outlasts : PendOp → Bool
  | .access _ => false
  | .kv _ => false
  | .rret _ _ => false
  | .pref _ _ _ => false
  | .arrive k _ _ => k == .block
  | .expect _ k _ _ _ => k == .block
  | _ => true

/-- A group of a lost gang has abandoned its accesses and a handler in progress (R363). -/
def Group.abandon (g : Group) : Group :=
  { g with handler := none, pend := g.pend.filter fun p => p.op.outlasts, oplog := g.oplog.map fun _ => none, late := [], delivered := []
           wait := .none, cont := none, predicted := none, due := none }

/-- A KCOMMIT or KDROP that has begun reaches its commit point before its group takes a trap (07 R284). -/
def Group.committing (g : Group) : Bool := g.pend.any fun p => match p.op with | .kvCtl k => k.commits | _ => false

/-- A group of a lost gang takes GANG_LOST (R363). -/
def Group.enterLost (g : Group) (entry : Word) (mark : Nat) : Group :=
  if g.committing then g.abandon else { g.abandon with gangLost := false }.enter gangTrap entry mark

/-- The command queue that an instruction would push to is full. -/
def queueWait (s : State) (x : Issuer) (i : Instr) : Bool :=
  let c := s.core x.core
  let full := fun (op : EngOp) => c.cmdFull (freshCmd op 0 0 0 0 (nth 0#32 (encode i) 0) (nth 0#32 (encode i) 1) 0#64 0#64 0#64 0#64 0#64)
  let engine := [Engine.copy, .quant, .link].any fun e => match cmdOf e i with | some op => full op | none => false
  let push := match i with
    | .qpush w => pushOnly (w.b.toNat % 16) && c.queueFull (w.b.toNat % 16)
    | .qpushLong w _ => pushOnly (w.b.toNat % 16) && c.queueFull (w.b.toNat % 16)
    | _ => false
  engine || push

/-- The run of a scheduler waits inside itself: for a pending source or a full queue, for the WAIT mask of its chained clause,
or for the actions of a synchronisation instruction. -/
def runWaits (s : State) (core slot : Nat) : Bool :=
  heldInRun s core slot || match nextInstr s core (schedOf slot) with
  | .instr .xclauseHandoff t => (match issuer t with | some x => handoffWaits x | none => false)
  | .instr i t => (match issuer t with | some x => (holdUp x i).isSome || queueWait t x i | none => false)
  | .none => true
  | .moved _ => false

/-- Enters the handler of the trap that is due, when nothing stands in the way; a prediction is abandoned first
(R333). -/
def trapEntry (s : State) (core slot : Nat) : State :=
  match s.group? core slot with
  | none => s
  | some g =>
    match s.launch? g.launch, g.due with
    | some l, due =>
      if g.ended || g.stopped then s
      else if g.gangLost then
        -- at the end of its run, or at once where it is not ready (R363)
        if !(s.core core).offRun slot && !runWaits s core slot then s
        else
        let s := abandonPrediction (s.mapCore core fun c => c.dropRunOf slot) core slot
        s.mapGroup core slot fun g => g.enterLost l.rec_.trapEntry (s.core core).nextId
      else match due with
        | none => s
        | some t =>
          if !(s.core core).offRun slot || g.handler.isSome || !g.entryClear || (match g.predicted with | some p => p.matched | none => false) then s
          else
            let s := abandonPrediction s core slot
            s.mapGroup core slot fun g => g.enter t l.rec_.trapEntry (s.core core).nextId
    | none, _ => s

/-- TRAP_ENTRY (R344). -/
def execTrapEntry (s : State) : Host.Outcome State Fault Refusal := .next (trapEntry s s.sel.core s.sel.slot)

/-! ## Delivered faults (06 R248) -/

/-- The group waits on the WAIT mask of its next clause, or of the chained clause of its run. -/
def waitsOnMask (s : State) (core slot : Nat) (g : Group) : Bool :=
  match g.cont with
  | some r => g.wait == .none && r.mustChain && !contReady s core slot g r
  | none => false

/-- The group stands in its run before the chained clause, whose WAIT mask is not met. -/
def maskHolds (s : State) (core slot : Nat) (g : Group) : Bool :=
  g.wait == .none && heldInRun s core slot

/-- Its next clause fails the checks of its header: that trap comes first (10 R340). -/
def headerFails (s : State) (core slot : Nat) (g : Group) : Bool :=
  match pickOf s core slot g with
  | some (.fail _ _) => true
  | _ => false

/-- A delivered fault is taken before the group's next clause, or at once where it waits in a BARW, BARAW, CTRWAIT,
RINGW, TAKE or wait mask. -/
def mayTake (s : State) (core slot : Nat) (g : Group) : Bool :=
  !g.ended && !g.stopped && g.handler.isNone && g.due.isNone && !g.gangLost
    && (if (s.core core).offRun slot then
          (match g.wait with
           | .none => (g.cont.isNone && !headerFails s core slot g) || waitsOnMask s core slot g
           | w => w.interruptible)
        else maskHolds s core slot g)

/-- The scheduler leaves the run of a group; what is left of it comes back at RETT (06 R248). -/
def setRunAside (s : State) (core slot : Nat) : State :=
  match ((s.core core).sched (schedOf slot)).run with
  | some r =>
    if r.slot = slot then
      (s.mapCore core fun c => c.mapSched (schedOf slot) fun k => { k with run := none }).mapGroup core slot fun g =>
        { g with cont := some r }.parkAll
    else s
  | none => s

/-- DELIVERED_FAULT_TRAP (R340): the first delivered fault falls due to the group. -/
def execDeliveredFaultTrap (s : State) : Host.Outcome State Fault Refusal :=
  .next (match s.group? s.sel.core s.sel.slot with
    | none => s
    | some g =>
      match firstDelivered g.delivered with
      | none => s
      | some t =>
        if mayTake s s.sel.core s.sel.slot g then
          (setRunAside s s.sel.core s.sel.slot).mapGroup s.sel.core s.sel.slot fun g =>
            { g with due := some t, delivered := g.delivered.filter fun u => u.origin != t.origin, ready := false, age := 0 }
        else s)

end Sys2Proof.Machine
end

