-- ==== Sys2Proof/Machine/Place.lean ====
section
/-! DEFINITION. From the launch queues to running groups: admission (09 R322, R323), block placement and the state a
block starts with (01 R39, R40, R54, 09 R324 to R326), and the end of a block (01 R47, R52, 10 R358) and of a launch
(08 R315, 11 R387). -/

namespace Sys2Proof.Machine

/-! ## What a launch asks for -/

/-- The launch has been aborted as a whole: none of its blocks is placed any more. -/
def Launch.aborted (l : Launch) : Bool :=
  match l.status with
  | none => false
  | some .gangLost => false
  | some _ => true

/-- Bits set among the low n of a word. -/
def countBits (n x : Nat) : Nat := ((List.range n).filter fun i => x.testBit i).length

def LaunchRec.nblock (r : LaunchRec) : Nat := countBits 16 r.barrierUse.toNat
def LaunchRec.ntables (r : LaunchRec) : Nat := countBits 4 r.xtables.toNat
def LaunchRec.tilesPerBlock (r : LaunchRec) : Nat := groupsPerBlock r * r.wtiles + r.ptiles

/-- Blocks per core (R38). -/
def blocksPerCore (r : LaunchRec) : Nat :=
  let lim := fun (n d : Nat) => if d = 0 then 64 else n / d
  let g := groupsPerBlock r
  [lim (if r.wide then 16 else 32) g, lim 64 r.tilesPerBlock, lim 524288 r.scratch, lim 16 r.nblock, lim 4 r.ntables].foldl min 64

/-- The launch needs all its blocks at once (R57). -/
def needsAll (r : LaunchRec) : Bool := r.barrierUse.extractLsb' 24 8 != 0#8

/-- The launch has a level of a domain. -/
def hasDomain (r : LaunchRec) (d : Nat) : Bool := ((r.levels.take r.nlevels).drop 2).any fun v => v.domain == d

/-! ## Where a block fits (R324) -/

/-- A core that placement may use for a partition (R366, R390). -/
def usable (s : State) (part core : Nat) : Bool :=
  decide (core < 512) && !s.fenced.contains core && nth 4 s.partitions (core / 64) == part

/-- Slot positions that the groups of a core take. -/
def takenSlots (c : Core) : List Nat := c.groups.flatMap fun p => if p.2.wide then [p.1, p.1 + 16] else [p.1]

def freeSlots (c : Core) : Nat := 32 - (takenSlots c).length

/-- Slot codes that a group of a width may take, lowest first. -/
def slotCodes (c : Core) (wide : Bool) : List Nat :=
  let t := takenSlots c
  if wide then (List.range 16).filter fun n => !t.contains n && !t.contains (n + 16)
  else (List.range 32).filter fun n => !t.contains n

def freeTiles (c : Core) : List Nat := (List.range 64).filter fun t => (c.tile t).owner == 0x3F

/-- The lowest free scratchpad range of n bytes. -/
def spadRange (c : Core) (n : Nat) : Option Nat :=
  let free := fun (a : Nat) => decide (a + n ≤ 524288) && c.blocks.all fun b =>
    b.spadSize == 0 || decide (b.spadBase + b.spadSize ≤ a) || decide (a + n ≤ b.spadBase)
  let starts := (0 :: c.blocks.map fun b => b.spadBase + b.spadSize).filter free
  if n = 0 then some 0 else starts.foldl (fun m a => match m with | none => some a | some k => some (min k a)) none

/-- Physical barriers and tables that no resident block holds. -/
def freeBars (c : Core) : List Nat := (List.range 16).filter fun p => c.blocks.all fun b => b.bars.all fun q => q.2 != p
def freeTables (c : Core) : List Nat := (List.range 4).filter fun p => c.blocks.all fun b => b.tables.all fun q => q.2 != p

/-- Another launch resident on the core claims a counter of this one (R26). -/
def claimClash (s : State) (c : Core) (l : Launch) : Bool :=
  c.blocks.any fun b => b.launch != l.id && (match s.launch? b.launch with
    | some m => m.rec_.counterReset &&& l.rec_.counterReset != 0#64
    | none => false)

/-- A block of a launch fits on a core (R324). -/
def fits (s : State) (l : Launch) (core : Nat) : Bool :=
  let c := s.core core
  let r := l.rec_
  usable s l.partition core
    && decide (groupsPerBlock r ≤ (slotCodes c r.wide).length)
    && decide (r.tilesPerBlock ≤ (freeTiles c).length)
    && (spadRange c r.scratch).isSome
    && decide (r.nblock ≤ (freeBars c).length)
    && decide (r.ntables ≤ (freeTables c).length)
    && !claimClash s c l
    && decide ((c.blocks.filter fun b => b.launch == l.id).length < blocksPerCore r)

/-! ## The state a block starts with (R39, R40, R54) -/

/-- Wide barriers that a launch uses: cluster 0–7, die 0–3, device 0–3 (Table 1.12). -/
def wideBars (use_ : Word) : List (BarKind × Nat) :=
  ((List.range 8).filter fun n => use_.getLsbD (16 + n)).map (fun n => (BarKind.cluster, n))
    ++ ((List.range 4).filter fun n => use_.getLsbD (24 + n)).map (fun n => (BarKind.die, n))
    ++ ((List.range 4).filter fun n => use_.getLsbD (28 + n)).map fun n => (BarKind.device, n)

/-- MODE of a launch's groups: WID from WIDTH. -/
def startMode (r : LaunchRec) : Word := (r.mode &&& 0x1F#32) ||| (if r.wide then 0x20#32 else 0#32)

def Lfr.clear : Lfr := { addr := 0#64, pc := 0#32, detail := 0#16, valid := false, cause := 0#8 }

/-- A group as placement leaves it (R39), with its window tiles. -/
def freshGroup (l : Launch) (block index : Nat) (tiles : List Nat) : Group :=
  let r := l.rec_
  let n := if r.wide then 64 else 32
  { launch := l.id, block := block, index := index, ended := false
    sregs := List.replicate 32 0#64 ++ (List.range 32).map fun i => nth 0#64 r.params i
    preds := BitVec.allOnes 64 :: List.replicate 7 0#64
    lpc := List.replicate n r.entry, lanes := List.replicate n .run, lfr := List.replicate n Lfr.clear
    mode := startMode r, modeNow := startMode r, winmap := (List.range 4).map fun e => tiles[e]?
    handler := none, resumeHdr := none, laneHdr := List.replicate n none, due := none, delivered := [], gangLost := false
    oplog := List.replicate 16 none, faultLog := List.replicate n none, late := []
    tokens := (blockBars r.barrierUse).map (fun k => ((BarKind.block, k), false)) ++ (wideBars r.barrierUse).map fun k => (k, false)
    pend := [], wait := .none, cont := none, predicted := none, ready := false, age := 0, stopped := false
    marks := 0#64, stopCause := none }

/-- The block joins its segments (R53, R54). -/
def joinSegments (segs : List Segment) (l : Launch) (core block : Nat) : List Segment :=
  (wideBars l.rec_.barrierUse).foldl (fun segs k =>
    let inst := barInstance l core block k.1
    if segs.any (isSeg l.id inst k.1 k.2) then
      segs.map fun g => if isSeg l.id inst k.1 k.2 g then
        { g with bar := { g.bar with members := g.bar.members + 1, pending := g.bar.pending + 1 } } else g
    else segs ++ [{ launch := l.id, instance_ := inst, kind := k.1, id := k.2
                    bar := { Barrier.empty with pending := 1, members := 1 } }]) segs

/-- Places a block on a core where it fits. A block is the first of its launch on the core, so that the counters that the
launch claims begin at 0, whenever no other block of the launch stands there (R26 does not say what of a launch that comes
back after its last block there has ended; DESIGN CHOICE, log 67). -/
def Core.placeBlock (c : Core) (l : Launch) (core block : Nat) : Core :=
  let r := l.rec_
  let n := groupsPerBlock r
  let first := c.blocks.all fun b => b.launch != l.id
  let slots := (slotCodes c r.wide).take n
  let tiles := (freeTiles c).take r.tilesPerBlock
  let base := (spadRange c r.scratch).getD 0
  let bars := (blockBars r.barrierUse).zip (freeBars c)
  let tables := ((List.range 4).filter fun i => r.xtables.getLsbD i).zip (freeTables c)
  let b : Block :=
    { launch := l.id, index := block, slots := slots, tiles := tiles, spadBase := base, spadSize := r.scratch
      rings := List.replicate 8 (0, 0), bars := bars, tables := tables, incident := none, lost := false }
  let window := fun (i : Nat) => (tiles.drop (i * r.wtiles)).take r.wtiles
  let ownerOf := fun (k : Nat) => if k < n * r.wtiles then nth 0x20 slots (k / r.wtiles) else 0x20
  let c := { c with
    blocks := c.blocks ++ [b]
    groups := (slots.mapIdx fun i slot => (slot, freshGroup l block i (window i))).foldl (fun gs p => assocSet gs p.1 p.2) c.groups
    tiles := (tiles.mapIdx fun k t => (t, ownerOf k)).foldl (fun ts p => setNth ts p.1 { Tile.free with owner := p.2 }) c.tiles
    tileData := tiles.foldl (fun m t => m.zero (t * 8192) 8192) c.tileData
    spad := c.spad.zero base r.scratch
    counters := if first then c.counters.mapIdx fun k x => if r.counterReset.getLsbD k then 0#64 else x else c.counters
    bars := bars.foldl (fun bs p => setNth bs p.2 { Barrier.empty with pending := n, members := n }) c.bars
    tables := tables.foldl (fun ts p => setNth ts p.2 RxTable.empty) c.tables
    segs := joinSegments c.segs l core block }
  c

/-! ## The choice of cores (R325) -/

/-- The candidate with the most of a measure, the first on a tie. -/
def bestBy (f : Nat → Nat) : List Nat → Option Nat
  | [] => none
  | n :: ns => match bestBy f ns with
    | none => some n
    | some m => if f n < f m then some m else some n

/-- The instance of the outermost level of DOMAIN 4 that holds a block. -/
def dieInstance (r : LaunchRec) (block : Nat) : Option Nat :=
  if hasDomain r 4 then
    some (block / (((r.levels.take r.nlevels).drop 2).filter fun v => v.domain ≤ 4).foldl (fun n v => n * v.extent) 1)
  else none

def dieFree (s : State) (part die : Nat) : Nat :=
  (((List.range 256).map fun k => 256 * die + k).filter (usable s part)).foldl (fun n k => n + freeSlots (s.core k)) 0

/-- The die to which a block is bound, when its launch has a level of DOMAIN 4: its instance's, or the one the instance
takes now. -/
def dieFor (s : State) (l : Launch) (block : Nat) : Option (Nat × Nat) :=
  (dieInstance l.rec_ block).map fun i => match assocGet l.dies i with
    | some d => (i, d)
    | none => (i, if dieFree s l.partition 0 < dieFree s l.partition 1 then 1 else 0)

/-- Cores on which a block may stand, ascending. -/
def coresFor (s : State) (l : Launch) (block : Nat) : List Nat :=
  (List.range 512).filter fun k => usable s l.partition k && (match dieFor s l block with | some p => k / 256 == p.2 | none => true)

def setDie (l : Launch) (p : Option (Nat × Nat)) : Launch :=
  match p with | some p => { l with dies := assocSet l.dies p.1 p.2 } | none => l

/-- Puts a block on a core. -/
def putBlock (s : State) (l : Launch) (block core : Nat) : State :=
  let d := dieFor s l block
  (s.mapCore core fun c => c.placeBlock l core block).mapLaunch l.id fun l =>
    setDie { l with placed := l.placed + 1 } d

/-- The launch as it stands. -/
def nowOf (s : State) (l : Launch) : Launch := (s.launch? l.id).getD l

/-- A block by the first rule, among some cores. -/
def placeOne (s : State) (l : Launch) (cores : List Nat) (block : Nat) : Option State :=
  let l := nowOf s l
  (bestBy (fun k => freeSlots (s.core k)) (cores.filter (fits s l))).map (putBlock s l block)

/-- A pair's two blocks by the second rule, among some cores: the lower index on the leader (R58). -/
def placePair (s : State) (l : Launch) (cores : List Nat) (block : Nat) : Option State :=
  let l := nowOf s l
  let leads := cores.filter fun k => k % 2 == 0 && cores.contains (k + 1) && fits s l k && fits s l (k + 1)
  (bestBy (fun k => freeSlots (s.core k) + freeSlots (s.core (k + 1))) leads).map fun k =>
    let s := putBlock s l block k
    putBlock s (nowOf s l) (block + 1) (k + 1)

/-- Consecutive blocks within some cores: pair instances on pairs, other blocks one by one (R58, DEDUCED, log 28). -/
def placeRun (s : State) (l : Launch) (cores : List Nat) : Nat → Nat → Option State
  | 0, _ => some s
  | 1, block => placeOne s l cores block
  | n + 2, block =>
    if hasDomain l.rec_ 2 then (placePair s l cores block).bind fun s => placeRun s l cores n (block + 2)
    else (placeOne s l cores block).bind fun s => placeRun s l cores (n + 1) (block + 1)

/-- The next unit of a launch, beginning at a block: a block, a pair or a cluster gang. -/
def placeUnit (s : State) (l : Launch) (block : Nat) : Option State :=
  let l := nowOf s l
  let cores := coresFor s l block
  if hasDomain l.rec_ 3 then
    let n := gangSize l.rec_
    let inside := fun (c : Nat) => cores.filter fun k => k / 64 == c
    let able := ((List.range 8).filter fun c => !(inside c).isEmpty).filterMap fun c =>
      (placeRun s l (inside c) n block).map fun t => (c, t)
    let free := fun (c : Nat) => (inside c).foldl (fun m k => m + freeSlots (s.core k)) 0
    (bestBy free (able.map fun p => p.1)).bind fun c => (able.find? fun p => p.1 == c).map fun p => p.2
  else placeRun s l cores (gangSize l.rec_) block

/-- All the units of a launch from a block on. -/
def placeAll (s : State) (l : Launch) : Nat → Option State
  | 0 => some s
  | n + 1 =>
    let l := nowOf s l
    if blocksOnModule l.rec_ ≤ l.placed then some s else (placeUnit s l l.placed).bind fun s => placeAll s l n

/-- The module leaves IDLE at a placement (11 R395). -/
def leaveIdle (s : State) : State := { s with power := if s.power = .idle then .active else s.power }

/-! ## Admission (R322, R323) -/

/-- The oldest record of the highest-numbered queue that is not empty. -/
def headRecord (s : State) : Option Launch :=
  s.launches.foldl (fun (h : Option Launch) l =>
    if l.phase ≠ .queued then h
    else match h with
      | none => some l
      | some m => if m.rec_.priority < l.rec_.priority || (m.rec_.priority == l.rec_.priority && decide (l.order < m.order)) then some l
                  else some m) none

/-- A launch that waits to be restored goes ahead of the records of its own queue and of lower ones (R323). -/
def restoreAhead (s : State) (h : Launch) : Bool :=
  s.launches.any fun l => l.phase == .saved true && decide (h.rec_.priority ≤ l.rec_.priority)

def admittedCount (s : State) : Nat := (s.launches.filter Launch.admitted).length

/-- The launch with its first placement made, if that can be done now. -/
def admitLaunch (s : State) (h : Launch) : Option State :=
  let s' := { (s.mapLaunch h.id fun l => { l with phase := .admitted, order := s.launchSeq }) with
    launchSeq := s.launchSeq + 1, launchRun := true }
  (if needsAll h.rec_ then placeAll s' h (blocksOnModule h.rec_) else placeUnit s' h 0).map leaveIdle

/-- The admitted launch that gives way to a record that cannot be admitted (R323). -/
def preemptee (s : State) (h : Launch) : Option Launch :=
  s.launches.foldl (fun (v : Option Launch) l =>
    if !l.admitted ∨ l.partition ≠ h.partition ∨ h.rec_.priority ≤ l.rec_.priority ∨ l.placed ≤ l.ended then v
    else match v with
      | none => some l
      | some m => if l.rec_.priority < m.rec_.priority || (l.rec_.priority == m.rec_.priority && decide (m.order < l.order)) then some l
                  else some m) none

/-- Every L1 writes back its dirty bytes. -/
def writeBackAll (s : State) : State := s.cores.foldl (fun s p => if p.2.l1Dirty then writeBack s p.1 fun _ => true else s) s

/-- Every L1 loses every word. -/
def invalidateAll (s : State) : State := { s with cores := s.cores.map fun p => (p.1, { p.2 with l1 := [] }) }

/-- An action of the firmware, which takes place between commands, has to wait for the one under way (11 R383). -/
def romBusy (s : State) : Bool := s.modeChange.isSome

/-- The module admits, places and restores launches. -/
def mayStart (s : State) : Bool := !s.failed && !s.halted && s.power != .standby && s.power != .off && !romBusy s

/-! ## What restoration needs (R323, 10 R362) -/

/-- Everything that an image names is free on its core. -/
def imageFits (s : State) (l : Launch) (m : Image) : Bool :=
  let c := s.core m.core
  let taken := takenSlots c
  let positions := m.groups.flatMap fun p => if p.2.wide then [p.1, p.1 + 16] else [p.1]
  let inSpad := fun (b d : Block) =>
    b.spadSize != 0 && d.spadSize != 0 && decide (b.spadBase < d.spadBase + d.spadSize) && decide (d.spadBase < b.spadBase + b.spadSize)
  usable s l.partition m.core
    && positions.all (fun n => !taken.contains n)
    && m.tiles.all (fun p => (c.tile p.1).owner == 0x3F)
    && m.blocks.all (fun b => c.blocks.all fun d => !inSpad b d)
    && m.bars.all (fun p => (freeBars c).contains p.1)
    && m.tables.all (fun p => (freeTables c).contains p.1)
    && !claimClash s c l
    && (m.seqRun.isNone || c.seqRun.isNone)

/-- A launch waits for restoration or admission before this one: of two pre-empted launches of equal PRIORITY, the one admitted
earlier (R323 does not say; DESIGN CHOICE, log 96). -/
def restoreBefore (s : State) (l : Launch) : Bool :=
  s.launches.any fun m => m.id != l.id && ((m.phase == .queued && decide (l.rec_.priority < m.rec_.priority))
    || (m.phase == .saved true && (decide (l.rec_.priority < m.rec_.priority)
          || (m.rec_.priority == l.rec_.priority && decide (m.order < l.order)))))

/-- A pre-empted launch may be restored now (R323, 10 R362). -/
def mayRestore (s : State) (l : Launch) : Bool :=
  l.phase == .saved true && !l.aborted && mayStart s && decide (admittedCount s < 32) && !restoreBefore s l && l.images.all (imageFits s l)

/-- One step of admission: the head record is admitted, or a launch of lower priority gives way to it, which may be giving way
already: also while a pre-empted launch that goes before the record awaits its own place (R323). Writes of the host that came
before are performed first, and the launch acts as the acquire of a kernel boundary: every L1 writes back and loses its words
before it starts (08 R315, R319). -/
def admissionStep (s : State) : State :=
  if !mayStart s || s.hostAcks != 0 then s
  else match headRecord s with
    | none => s
    | some h =>
      if restoreAhead s h && s.launches.any (mayRestore s) then s
      else match (if admittedCount s < 32 && !restoreAhead s h then admitLaunch s h else none) with
        | some t =>
          if s.cores.any fun p => p.2.l1Dirty then writeBackAll s
          else if s.cores.any fun p => p.2.wbOut != 0 then s
          else invalidateAll t
        | none =>
          match preemptee s h with
          | some v => s.mapLaunch v.id fun l => { l with phase := if l.phase = .admitted then .stopping true else l.phase }
          | none => s

/-- Admission until a step admits nothing (R322): it is considered at every moment, so at every submission, block end,
completion and save. -/
def considerAdmission (s : State) : Nat → State
  | 0 => s
  | n + 1 =>
    let t := admissionStep s
    if admittedCount t ≤ admittedCount s then t else considerAdmission t n

/-- ADMISSION (R322). -/
def execAdmission (s : State) : Host.Outcome State Fault Refusal := .next (admissionStep s)

/-! ## Placement of what remains (R325) -/

/-- The oldest admitted launch with blocks to place. -/
def nextToPlace (s : State) : Option Launch :=
  s.launches.foldl (fun (v : Option Launch) l =>
    if l.phase ≠ .admitted ∨ l.aborted ∨ blocksOnModule l.rec_ ≤ l.placed then v
    else match v with | none => some l | some m => if l.order < m.order then some l else some m) none

/-- BLOCK_PLACEMENT (R325): the next unit of the oldest launch that has one, between commands (11 R383). -/
def execBlockPlacement (s : State) : Host.Outcome State Fault Refusal :=
  .next (if romBusy s then s else match nextToPlace s with
    | none => s
    | some l => match placeUnit s l l.placed with | some t => leaveIdle t | none => s)

/-! ## The end of a block (01 R47, R52, 10 R357, R358) -/

/-- A pending operation does not hold the end of its block up. -/
def PendOp.endClear : PendOp → Bool
  | .pop _ _ => true
  | .take _ _ => true
  | .cmp _ => true
  | _ => false

/-- Nothing of a block is under way any more; a PAIR clause that runs holds the partner block too (06 R243; DEDUCED, log 69). -/
def blockOver (s : State) (core : Nat) (b : Block) : Bool :=
  let c := s.core core
  let mine := fun (launch block : Nat) => launch == b.launch && block == b.index
  let clause := fun (c : Core) => c.seqQueue.any (fun k => mine k.launch k.block) || c.seqRun.any fun r =>
    mine r.clause.launch r.clause.block || (r.role == .follower && mine r.clause.launch (r.clause.block / 2 * 2 + 1))
  let engine := fun (e : Engine) => (c.eng e).cmds.any (fun k => mine k.launch k.block)
    || (nth [] c.queues (entryQueue e)).any fun n => mine n.launch n.block
  -- what of a restored launch's image has not entered yet (10 R362)
  let saved := fun (m : Image) => m.core == core
    && ((m.copy.cmds ++ m.quant.cmds ++ m.link.cmds).any (fun k => mine k.launch k.block)
      || [Engine.copy, .quant, .link].any (fun e => (nth [] m.queues (entryQueue e)).any fun n => mine n.launch n.block)
      || m.seqQueue.any fun k => mine k.launch k.block)
  (c.groups.all fun p => !mine p.2.launch p.2.block || (p.2.ended && p.2.pend.all fun q => q.op.endClear))
    && !(pairCores core).any (fun k => clause (s.core k))
    && !engine .copy && !engine .quant && !engine .link
    && !(match s.launch? b.launch with | some l => l.images.any saved | none => false)
    && b.tables.all (fun p => !(c.table p.2).open_)
    && !s.returns.any fun m => m.device == s.device.toNat && m.core == core && mine m.launch m.block

/-- The block leaves its segments: one arrival in the current phase of each, and a member fewer from the next (R47). -/
def leaveSegments (s : State) (core : Nat) (l : Launch) (b : Block) : State :=
  (wideBars l.rec_.barrierUse).foldl (fun s k =>
    let inst := barInstance l core b.index k.1
    let go := fun (g : Segment) =>
      if isSeg l.id inst k.1 k.2 g then { g with bar := { g.bar with leaving := g.bar.leaving + 1 } } else g
    arriveSeg (s.mapCore core fun c => { c with segs := c.segs.map go }) core l.id inst k.1 k.2) s

/-- Frees what a block holds on its core (R25, R52). -/
def Core.freeBlock (c : Core) (b : Block) : Core :=
  let mine := fun (launch block : Nat) => launch == b.launch && block == b.index
  { c with
    blocks := c.blocks.filter fun d => !mine d.launch d.index
    groups := c.groups.filter fun p => !mine p.2.launch p.2.block
    tiles := b.tiles.foldl (fun ts t => setNth ts t Tile.free) c.tiles
    queues := c.queues.map fun q => q.filter fun n => !mine n.launch n.block
    copy := { c.copy with nests := c.copy.nests.filter fun n => !mine n.launch n.block } }

/-- The stores of a core have gone home before an arrival at a wider barrier (01 R56): none while a write-back is not
acknowledged; with true, they have. -/
def releaseCore (s : State) (core : Nat) (l : Launch) : Option (State × Bool) :=
  if (wideBars l.rec_.barrierUse).isEmpty then some (s, true)
  else if (s.core core).l1Dirty then some (writeBack s core fun _ => true, false)
  else if (s.core core).wbOut ≠ 0 then none
  else some (s, true)

/-- The choices that wait for a block become DEST_FAULT when it ends (07 R298). -/
def loseDest (s : State) (core launch block : Nat) : State :=
  faultChoices s fun y => y.device == s.device.toNat && y.core == core && y.launch == launch && y.block == block

/-- Ends a block nothing of which is under way. -/
def endBlock (s : State) (core : Nat) (l : Launch) (b : Block) : State :=
  let s := if b.lost then s else leaveSegments s core l b
  let s := s.mapCore core fun c => c.freeBlock b
  let s := loseDest s core b.launch b.index
  s.mapLaunch l.id fun l =>
    { l with ended := l.ended + 1, incident := l.incident <|> b.incident.map fun p => (p.1, core, p.2) }

/-- BLOCK_END (R52, R358): block `block` of launch `launch` on core `core`, whose arrivals at wider barriers are releases
(01 R47, R56). -/
def execBlockEnd (s : State) : Host.Outcome State Fault Refusal :=
  let k := s.sel
  .next (match (s.core k.core).block? k.launch k.block, s.launch? k.launch with
    | some b, some l =>
      if !blockOver s k.core b then s
      else (match releaseCore s k.core l with
        | none => s
        | some (t, done) => if done then endBlock t k.core l b else t)
    | _, _ => s)

/-! ## The end of a launch (08 R315, 11 R387) -/

/-- Every block of the launch has ended, and none is to be placed; one whose saved image KILL has discarded is over too. -/
def launchOver (l : Launch) : Bool :=
  (if l.admitted then l.aborted || blocksOnModule l.rec_ == l.placed else l.phase != .queued && l.aborted && l.images.isEmpty)
    && l.placed == l.ended

/-- How a launch ended. -/
def finalStatus (l : Launch) : DoneStatus :=
  match l.status with
  | some st => st
  | none => if l.incident.isSome then .completedWithFault else .completed

/-- Where no launch is admitted any more, the time to IDLE begins (11 R395). -/
def noteIdle (s : State) : State := if admittedCount s = 0 then { s with idleSince := s.cycle } else s

/-- The launch leaves the module: its report is written, its bindings end (11 R374). One that was queued or saved was not
admitted, and the time to IDLE runs on (11 R395). -/
def reportLaunch (s : State) (l : Launch) : State :=
  let s := postDone s l (finalStatus l)
  let s : State := { s with
    launches := s.launches.filter fun m => m.id ≠ l.id
    bindings := s.bindings.filter fun b => b.launch ≠ l.id
    cores := s.cores.map fun p => (p.1, { p.2 with segs := p.2.segs.filter fun g => g.launch ≠ l.id }) }
  if l.admitted then noteIdle s else s

/-- Writes are on their way over the bridge, or wait at a service group. -/
def writesUnderWay (s : State) : Bool :=
  ((s.die0.out ++ s.die1.out).any fun m => match m.kind with | .write _ _ _ => true | .atom _ _ _ _ => true | .cred _ => true | .kv _ _ _ _ => true | .kvCtl _ _ _ _ => true | .page _ _ _ => true | _ => false)
    || (s.die0.svc ++ s.die1.svc).any fun r => match r.ref with | .cred _ => true | _ => false

/-- KERNEL_BOUNDARY (R315): every L1 writes back, then every word goes, then the report is written. -/
def execKernelBoundary (s : State) : Host.Outcome State Fault Refusal :=
  .next (match s.launch? s.sel.launch with
    | none => s
    | some l =>
      if !launchOver l || romBusy s then s
      else if s.cores.any fun p => p.2.l1Dirty then writeBackAll s
      else if (s.cores.any fun p => p.2.wbOut != 0) || writesUnderWay s then s
      else reportLaunch (invalidateAll s) l)

end Sys2Proof.Machine
end

