-- ==== Sys2Proof/Machine/Preempt.lean ====
section
/-! DEFINITION. Pre-emption: where groups stop (10 R359), the save of a launch's context (R360, R361) and its restoration
(R362). -/

namespace Sys2Proof.Machine

/-! ## Stopping (R359) -/

/-- A pending operation is in a state that an image may hold: an access all of whose lanes have landed, parked or been
logged; a pop, a TAKE, a compare, an arrival or addition that waits for its release (DEDUCED, log 29). -/
def Group.saveFree (g : Group) : PendOp → Bool
  | .access a => g.atRest a
  | .kv _ => false
  | .kvCtl _ => false
  | .long _ _ _ => false
  | .pop _ _ => true
  | .take _ _ => true
  | .cmp _ => true
  | .arrive _ _ _ => true
  | .expect _ _ _ _ _ => true
  | .leave _ => true
  | .ctradd _ _ _ => true
  | .ringl _ _ => true
  | .amerge _ _ _ _ _ _ _ _ => false
  | .rret _ _ => false
  | .pref _ _ _ => false

/-- The group is at a pre-emption point, with its work in flight in a state that an image may hold. -/
def mayStop (s : State) (core slot : Nat) (g : Group) : Bool :=
  !g.ended && !g.stopped && !g.gangLost
    && ((s.core core).offRun slot || runWaits s core slot)
    && g.pend.all (fun p => g.saveFree p.op)
    && (match g.predicted with | some p => !p.matched | none => true)
    && (match s.launch? g.launch with
        | some l => (match l.phase with | .stopping _ => true | _ => false)
        | none => false)

/-- A run that is stopped at an instruction resumes there under 02 R91: the clause is the resume header of its lanes, in a
handler the handler's own, and lanes that LYIELD has marked stay marked. -/
def Group.stopRun (g : Group) (r : Run) : Group :=
  let g := { g.parkAll with marks := r.marked, cont := none }
  match g.handler with
  | some h => { g with handler := some { h with resume := some r.cur } }
  | none => { g with laneHdr := mapLanes r.exec (fun _ _ => some r.cur) g.laneHdr }

/-- A run that waits before its chained clause, or in a synchronisation instruction, goes on where it stands. -/
def Group.keepRun (g : Group) (r : Run) : Group :=
  { g.parkAll with cont := some { r with exec := r.exec &&& g.parkAll.lanesIn .run } }

/-- What a stopped group's wait keeps: of a sleep, the count that is left (06 R268). -/
def Wait.atStop (now : Nat) : Wait → Wait
  | .sleep t => .sleepLeft (t - now)
  | w => w

def Wait.atResume (now : Nat) : Wait → Wait
  | .sleepLeft n => .sleep (now + n)
  | w => w

/-- A group's wait, and the one that its handler holds back. -/
def Group.mapWaits (g : Group) (f : Wait → Wait) : Group :=
  { g with wait := f g.wait, handler := g.handler.map fun h => { h with wait := f h.wait } }

/-- The group stops; a prediction is abandoned (R333), and a run goes on later where it stands (R359). Its stop cause is
PREEMPT (R361). -/
def stopGroup (s : State) (core slot : Nat) : State :=
  let s := abandonPrediction s core slot
  let k := schedOf slot
  let run := ((s.core core).sched k).run.filter fun r => r.slot == slot
  let s := match run with
    | none => s
    | some r =>
      let held := heldInRun s core slot
      (s.mapCore core fun c => c.mapSched k fun x => { x with run := none }).mapGroup core slot fun g =>
        if held then g.keepRun r else g.stopRun r
  s.mapGroup core slot fun g =>
    { g.mapWaits (Wait.atStop s.cycle) with stopped := true, stopCause := some .preempt, ready := false, age := 0 }

/-- PREEMPTION_STOP (R359). -/
def execPreemptionStop (s : State) : Host.Outcome State Fault Refusal :=
  let k := s.sel
  .next (match s.group? k.core k.slot with
    | some g => if mayStop s k.core k.slot g then stopGroup s k.core k.slot else s
    | none => s)

/-! ## Saving (R360, R361) -/

/-- The cores that hold blocks of a launch. -/
def coresOf (s : State) (launch : Nat) : List Nat :=
  (s.cores.filter fun p => p.2.blocks.any fun b => b.launch == launch).map fun p => p.1

/-- What has to complete on a core before its part of a launch is saved has done so. -/
def coreQuiet (c : Core) (launch : Nat) : Bool :=
  let engine := fun (e : Engine) => (c.eng e).cmds.all fun k => k.launch != launch || k.acks == 0
  let bs := c.blocks.filter fun b => b.launch == launch
  c.groups.all (fun p => p.2.launch != launch || (if p.2.ended then p.2.pend.all (fun q => p.2.saveFree q.op) else p.2.stopped))
    && engine .copy && engine .quant && engine .link
    && bs.all (fun b => b.tables.all fun p => !(c.table p.2).open_)
    && (match c.seqRun with | some r => r.clause.launch != launch || (r.writebacks.isEmpty && r.giveLand.isEmpty) | none => true)

/-- Commands, nest sets and faulted entries of the blocks that p names. -/
def EngineState.part (e : EngineState) (q : List QEntry) (p : Nat → Nat → Bool) : EngineState :=
  let owned := fun (id : Nat) => (q.find? fun n => n.id == id).any fun n => p n.launch n.block
  { cmds := e.cmds.filter fun k => p k.launch k.block
    nests := e.nests.filter fun n => p n.launch n.block
    bad := e.bad.filter fun b => owned b.1
    granted := e.granted }

/-- The image of the blocks that p names of a launch on a core (Table 10.8). -/
def imageOf (c : Core) (core launch : Nat) (p : Nat → Nat → Bool) : Image :=
  let bs := c.blocks.filter fun b => p b.launch b.index
  let tiles := bs.flatMap fun b => b.tiles
  let eng := fun (e : Engine) => (c.eng e).part (nth [] c.queues (entryQueue e)) p
  let gs := c.groups.filter fun q => p q.2.launch q.2.block
  { core := core, groups := gs, blocks := bs, tiles := tiles.map fun t => (t, c.tile t)
    tileData := c.tileData.filter fun p => tiles.contains (p.1 / 8192)
    spad := c.spad.filter fun p => bs.any fun b => decide (b.spadBase ≤ p.1) && decide (p.1 < b.spadBase + b.spadSize)
    counters := c.counters
    queues := c.queues.map fun q => q.filter fun n => p n.launch n.block
    tables := (bs.flatMap fun b => b.tables.map fun p => p.2).map fun t => (t, c.table t)
    bars := (bs.flatMap fun b => b.bars.map fun p => p.2).map fun n => (n, nth Barrier.empty c.bars n)
    segs := c.segs.filter fun g => g.launch == launch
    holders := (List.range 4).filterMap fun k => match (c.sched k).holder with
      | some n => if gs.any (fun p => p.1 == n) then some (k, n) else none
      | none => none
    seqQueue := c.seqQueue.filter fun k => p k.launch k.block
    seqRun := c.seqRun.filter fun r => p r.clause.launch r.clause.block
    copy := eng .copy, quant := eng .quant, link := eng .link }

/-- A core without what it held of a launch. -/
def Core.without (c : Core) (launch : Nat) : Core :=
  let eng := fun (e : Engine) => (c.eng e).part (nth [] c.queues (entryQueue e)) fun l _ => l != launch
  let gone := c.blocks.filter fun b => b.launch == launch
  let slots := (c.groups.filter fun p => p.2.launch == launch).map fun p => p.1
  let c := { c with
    copy := eng .copy, quant := eng .quant, link := eng .link
    seqQueue := c.seqQueue.filter fun k => k.launch != launch
    seqRun := c.seqRun.filter fun r => r.clause.launch != launch
    segs := c.segs.filter fun g => g.launch != launch
    scheds := c.scheds.map fun k =>
      if k.last.any slots.contains then { k with holder := k.holder.filter fun n => !slots.contains n, last := none, streak := 0 }
      else { k with holder := k.holder.filter fun n => !slots.contains n } }
  gone.foldl Core.freeBlock c

/-- Queue entries, commands and clauses that were saved with an image and had not come back yet go behind what has (R362). -/
def Image.addRest (m rest : Image) : Image :=
  let eng := fun (a b : EngineState) => { a with cmds := a.cmds ++ b.cmds, bad := a.bad ++ b.bad }
  { m with queues := m.queues.mapIdx fun q es => es ++ nth [] rest.queues q
           seqQueue := m.seqQueue ++ rest.seqQueue
           copy := eng m.copy rest.copy, quant := eng m.quant rest.quant, link := eng m.link rest.link }

/-- CONTEXT_SAVE (R360, R361): each core of the launch writes back and loses its L1; then the images are made and what
the launch held is free. -/
def execContextSave (s : State) : Host.Outcome State Fault Refusal :=
  let id := s.sel.launch
  let phase := (s.launch? id).map fun (l : Launch) => (l.phase, l.images)
  .next (match phase with
    | some (.stopped auto, left) =>
      let ks := coresOf s id
      if romBusy s || !ks.all (fun k => coreQuiet (s.core k) id) then s
      else match ks.find? fun k => (s.core k).l1Dirty with
        | some k => writeBack s k fun _ => true
        | none =>
          if ks.any fun k => (s.core k).wbOut != 0 then s
          else
            let images := ks.map fun k =>
              let m := imageOf (s.core k) k id fun l _ => l == id
              match left.find? fun r => r.core == k with | some r => m.addRest r | none => m
            let s := ks.foldl (fun s k => s.mapCore k fun c => { c.without id with l1 := [] }) s
            noteIdle (s.mapLaunch id fun l => { l with phase := .saved auto, images := images })
    | _ => s)

/-! ## Restoring (R362) -/

/-- Puts an image back on its core, but for its queue entries, commands and clauses. Its groups stay stopped until these have
entered too. -/
def Core.putImage (c : Core) (l : Launch) (m : Image) : Core :=
  { c with
    groups := m.groups.foldl (fun gs p => assocSet gs p.1 p.2) c.groups
    blocks := c.blocks ++ m.blocks
    tiles := m.tiles.foldl (fun ts p => setNth ts p.1 p.2) c.tiles
    tileData := m.tileData.foldl (fun d p => d.set p.1 p.2) (m.tiles.foldl (fun d p => d.zero (p.1 * 8192) 8192) c.tileData)
    spad := m.spad.foldl (fun d p => d.set p.1 p.2) (m.blocks.foldl (fun d b => d.zero b.spadBase b.spadSize) c.spad)
    counters := c.counters.mapIdx fun k x => if l.rec_.counterReset.getLsbD k then nth 0#64 m.counters k else x
    tables := m.tables.foldl (fun ts p => setNth ts p.1 p.2) c.tables
    bars := m.bars.foldl (fun bs p => setNth bs p.1 p.2) c.bars
    segs := c.segs ++ m.segs
    scheds := m.holders.foldl (fun ks p => ks.mapIdx fun i k => if i = p.1 then { k with holder := some p.2 } else k) c.scheds
    seqRun := match c.seqRun with | some r => some r | none => m.seqRun
    copy := { c.copy with nests := c.copy.nests ++ m.copy.nests } }

/-- What is left of an image once its queues have come back. -/
def Image.rest (m : Image) : Image :=
  { m with groups := [], blocks := [], tiles := [], tileData := [], spad := [], counters := [], tables := [], bars := [], segs := []
           holders := [], seqRun := none, copy := { m.copy with nests := [] } }

def Image.isEntered (m : Image) : Bool :=
  m.queues.all List.isEmpty && m.seqQueue.isEmpty && m.copy.cmds.isEmpty && m.quant.cmds.isEmpty && m.link.cmds.isEmpty

/-- Saved entries of a queue enter behind those already there, as many as it has room for; an entry that was no command
enters with its fault. -/
def enterEntries (p : Core × Image) (q : Nat) : Core × Image :=
  let (c, m) := p
  let here := nth [] c.queues q
  let mine := nth [] m.queues q
  let n := 16 - here.length
  ({ c with queues := setNth c.queues q (here ++ mine.take n) }, { m with queues := setNth m.queues q (mine.drop n) })

/-- Saved commands of an engine enter in their order, while their queue has room. -/
def enterCmds (c : Core) : List EngCmd → Core × List EngCmd
  | [] => (c, [])
  | k :: ks =>
    if c.cmdFull k then
      let (c, ls) := enterCmds c ks
      (c, k :: ls)
    else enterCmds (c.pushCmd k) ks

/-- The saved queue entries, commands and clauses of an image enter as entries free (R362). -/
def enterImage (c : Core) (m : Image) : Core × Image :=
  let (c, m) := (List.range 16).foldl enterEntries (c, m)
  let (c, a) := enterCmds c m.copy.cmds
  let (c, b) := enterCmds c m.quant.cmds
  let (c, d) := enterCmds c m.link.cmds
  let bad := fun (c : Core) (e : Engine) (xs : List (Nat × Trap)) =>
    c.setEng e { c.eng e with bad := (c.eng e).bad ++ xs.filter fun b => !((c.eng e).bad.any fun y => y.1 == b.1) }
  let c := bad (bad (bad c .copy m.copy.bad) .quant m.quant.bad) .link m.link.bad
  let n := 8 - c.seqQueue.length
  ({ c with seqQueue := c.seqQueue ++ m.seqQueue.take n },
   { m with seqQueue := m.seqQueue.drop n, copy := { m.copy with cmds := a }, quant := { m.quant with cmds := b }
            link := { m.link with cmds := d } })

/-- A restored group resumes at its pre-emption point. -/
def Group.resumed (g : Group) (now : Nat) : Group :=
  { g.mapWaits (Wait.atResume now) with stopped := false, stopCause := none }

/-- What is left of a restored launch's images enters; once all has, its groups resume (R362). -/
def enterLaunch (s : State) (l : Launch) : State :=
  if l.phase ≠ .admitted ∨ l.images.isEmpty then s
  else
    let (s, left) := l.images.foldl (fun (p : State × List Image) m =>
      let (c, m) := enterImage (p.1.core m.core) m
      (p.1.setCore m.core c, if m.isEntered then p.2 else p.2 ++ [m])) (s, [])
    let s := s.mapLaunch l.id fun l => { l with images := left }
    if !left.isEmpty then s
    else
      let go := fun (_ : Nat) (g : Group) => if g.launch = l.id then g.resumed s.cycle else g
      { s with cores := s.cores.map fun p => (p.1, mapGroups p.2 go) }

/-- Every restored launch's images, in the order of admission. -/
def settleRestored (s : State) : State := s.launches.foldl enterLaunch s

/-- CONTEXT_RESTORE (R362): the launch comes back to its cores, its L1s having lost their words, and its logged misses
are walked again. -/
def execContextRestore (s : State) : Host.Outcome State Fault Refusal :=
  .next (match s.launch? s.sel.launch with
    | none => s
    | some l =>
      if !mayRestore s l then s
      else
        let ks := l.images.map fun m => m.core
        match ks.find? fun k => (s.core k).l1Dirty with
        | some k => writeBack s k fun _ => true
        | none =>
          if ks.any fun k => (s.core k).wbOut != 0 then s
          else
            let s := l.images.foldl (fun s m => s.mapCore m.core fun c => { c.putImage l m with l1 := [] }) s
            let s := s.mapLaunch l.id fun l => { l with phase := .admitted, images := l.images.map Image.rest }
            rewalk (leaveIdle s) l.asid none)

end Sys2Proof.Machine
end

