-- ==== Sys2Proof/Machine/Errors.lean ====
section
/-! DEFINITION. Errors: their retry and what a lasting one leaves (10 R365 to R368), the loss of a gang (R363, R364),
flits and bridge messages that fail their checks (11 R376), and the host ports (11 R379). -/

namespace Sys2Proof.Machine

/-! ## Counts and fences (R367) -/

/-- One more error of a unit class. -/
def countError (s : State) (cls : Nat) (lasting : Bool) : State :=
  let one := fun (p : Nat × Nat) => if lasting then (p.1, p.2 + 1) else (p.1 + 1, p.2)
  { s with errors := s.errors.mapIdx fun i p => if i = cls then one p else p }

/-- A transient error is counted and reported; it changes nothing else (R367). -/
def transientError (s : State) (cls index dpa : Nat) : State := postError (countError s cls false) cls false false index dpa

/-- A lasting error is counted, and the event posted. -/
def lastingError (s : State) (cls index dpa : Nat) : State := postError (countError s cls true) cls true true index dpa

/-- A unit, or a way of one, has been fenced off: measurement block 5 lists it (11 R392). -/
def noteFence (s : State) (cls unit set : Nat) : State := { s with fencedUnits := s.fencedUnits ++ [(cls, unit, set)] }

/-- One way of a set, or a strip's service group, is out of use from now on (R366). -/
def fenceWay (s : State) (cls unit set : Nat) : State :=
  noteFence { s with fencedWays := s.fencedWays ++ [(cls, unit, set)] } cls unit set

/-! ## Memory errors (R365, R366, R368) -/

def poisonLine (s : State) (dpa : Nat) : State :=
  if s.poisonedAt dpa then s else { s with poisoned := s.poisoned ++ [lineOf dpa] }

/-- The read that found the error: its lanes on the line park (R368). -/
def parkReader (s : State) (line : Nat) (core slot id part : Nat) : State :=
  match (s.group? core slot).bind fun g => g.pend? id with
  | some (.access a) =>
    let ls := a.lanes.filter fun l => l.part == part && l.progress == .waiting && lineOf (dramOf l) == line
      && (match l.target with | .dram _ => true | _ => false)
    if ls.isEmpty || !isRead a.kind then s else parkPart s core slot id part a.site ls .uncorrectable 1
  | _ => s

/-- A line of memory is lost: it is poisoned, its 2 MiB page retired, and the reader that found it parks. -/
def loseLine (s : State) (dpa : Nat) (k : Sel) : State :=
  let page := dpa / 2 ^ 21
  let s := poisonLine s dpa
  let s := { s with retired := if s.retired.contains page then s.retired else s.retired ++ [page] }
  parkReader s (lineOf dpa) k.core k.slot k.id k.part

/-- The level below a clean copy has failed too: the line's home, where a dirty L2 line holds it alone, or its memory. -/
def loseBelow (s : State) (dpa : Nat) (k : Sel) : State :=
  if (s.die (homeDie dpa)).l2.any fun l => l.dpa == lineOf dpa && l.dirty then
    parkReader (poisonLine s dpa) (lineOf dpa) k.core k.slot k.id k.part
  else loseLine s dpa k

/-! ## Gang loss (R363, R364) -/

/-- The gangs with a block on a core: launch and gang index. -/
def gangsOn (s : State) (core : Nat) : List (Nat × Nat) :=
  dedup ((s.core core).blocks.filterMap fun b => (s.launch? b.launch).map fun l => (l.id, gangOf l b.index))

def inGang (s : State) (gang : Nat × Nat) (launch block : Nat) : Bool :=
  launch == gang.1 && (match s.launch? launch with | some l => gangOf l block == gang.2 | none => false)

/-- The blocks of a gang with their cores. -/
def gangBlocks (s : State) (gang : Nat × Nat) : List (Nat × Block) :=
  s.cores.flatMap fun p => (p.2.blocks.filter fun b => inGang s gang b.launch b.index).map fun b => (p.1, b)

/-- The wide barriers' phase completes where the loss of a member leaves nothing to wait for. -/
def loseMember (s : State) (core : Nat) (l : Launch) (b : Block) : State :=
  (wideBars l.rec_.barrierUse).foldl (fun s k =>
    let inst := barInstance l core b.index k.1
    let go := fun (g : Segment) =>
      if isSeg l.id inst k.1 k.2 g then
        if g.bar.sent then { g with bar := { g.bar with members := g.bar.members - 1 } }
        else { g with bar := { g.bar with members := g.bar.members - 1, pending := g.bar.pending - 1
                                          sent := decide (g.bar.pending ≤ 1) } }
      else g
    let s := s.mapCore core fun c => { c with segs := c.segs.map go }
    if segsComplete s l.id inst k.1 k.2 then segsAdvance s l.id inst k.1 k.2 else s) s

/-- The pages that discarded requantisations held come back (07 R287). -/
def dropRequants (s : State) (core : Nat) (gone : Nat → Bool) : State :=
  let one := fun (k : KvContext) =>
    let rs := k.requants.filter fun r => r.core == core && gone r.cmd
    let free := fun (e : KvEntry) => if rs.any fun r => r.seq == e.seq && r.head == e.head && r.page == e.page then { e with busy := false } else e
    { k with held := k.held - rs.length, requants := k.requants.filter fun r => !(r.core == core && gone r.cmd)
             entries := k.entries.map free }
  { s with kvs := s.kvs.map one }

/-- Discards the sequencer clauses and engine commands of the blocks that p names on a core. -/
def discardWork (s : State) (core : Nat) (p : Nat → Nat → Bool) : State :=
  let c := s.core core
  let cmds := fun (e : Engine) => (c.eng e).cmds
  let gone := fun (id : Nat) => (cmds .quant).any fun k => k.id == id && p k.launch k.block
  let s := dropRequants s core gone
  s.mapCore core fun c =>
    let c := c.dropClauses fun k => p k.launch k.block
    let cut := fun (c : Core) (e : Engine) =>
      let q := nth [] c.queues (entryQueue e)
      let st := c.eng e
      let c := c.setEng e
        { cmds := st.cmds.filter fun k => !p k.launch k.block
          nests := st.nests.filter fun n => !p n.launch n.block
          bad := st.bad.filter fun b => !(q.any fun n => n.id == b.1 && p n.launch n.block)
          granted := st.granted }
      { c with queues := setNth c.queues (entryQueue e) (q.filter fun n => !p n.launch n.block) }
    cut (cut (cut c .copy) .quant) .link

/-- The diagnostic images of the members of a gang on other cores (R363, Table 10.8). -/
def diagnose (s : State) (struck : Nat) (gang : Nat × Nat) (bs : List (Nat × Block)) : State :=
  let cores := dedup ((bs.map fun q => q.1).filter fun n => n != struck)
  { s with diagnostics := s.diagnostics ++ cores.map fun n => (gang.1, imageOf (s.core n) n gang.1 (inGang s gang)) }

/-- A launch that loses a gang: its status, and the struck core of its first loss, in place of a command or store dropped
before (R364, 11 R387). -/
def Launch.loseOne (l : Launch) (struck : Nat) : Launch :=
  match l.status with
  | none => { l with status := some .gangLost, incident := some (Cause.code .gangLost, struck, 0) }
  | some _ => l

/-- One gang is lost with a core: its groups there end, images of its other members are kept and these take GANG_LOST, its
clauses and commands go, and its blocks leave their segments. -/
def loseGang (s : State) (struck : Nat) (gang : Nat × Nat) : State :=
  let bs := gangBlocks s gang
  let s := diagnose s struck gang bs
  let s := bs.foldl (fun s q => discardWork s q.1 (inGang s gang)) s
  let s := bs.foldl (fun s q =>
    if q.1 = struck then q.2.slots.foldl (fun s n => endGroup s struck n) s
    else s.mapCore q.1 fun c => mapGroups c fun _ g =>
      if inGang s gang g.launch g.block ∧ !g.ended then { g with gangLost := true } else g) s
  let s := bs.foldl (fun s q => match s.launch? gang.1 with
    | some l => loseMember (s.mapCore q.1 fun c => c.mapBlock gang.1 q.2.index fun b => { b with lost := true }) q.1 l q.2
    | none => s) s
  s.mapLaunch gang.1 fun l => l.loseOne struck

/-- The L1 of a lost core: its dirty bytes go home, but for those that the error itself has struck (08 R303; DEDUCED, log 94), and
its words are gone. -/
def loseL1 (s : State) (core : Nat) (struck : L1Line → BitVec 128) : State :=
  let s := writeBackBytes s core fun l => ~~~(struck l)
  s.mapCore core fun c => { c with l1 := [] }

/-- A lasting error in core state (R363, R366): the core is fenced, and every gang with a block on it is lost. What
its groups and sequencer had under way goes with them. -/
def loseCore (s : State) (core : Nat) (struck : L1Line → BitVec 128) : State :=
  let s := { s with fenced := if s.fenced.contains core then s.fenced else s.fenced ++ [core] }
  let s := loseL1 ((gangsOn s core).foldl (fun s g => loseGang s core g) s) core struck
  s.mapCore core fun c => mapGroups c fun _ g => { g with pend := [], due := none, delivered := [], gangLost := false }

/-! ## ERROR_RETRY (R365) -/

/-- The words of a line that the home lacks bytes of: dirty, or on their way there. -/
def L1Line.ownWords (l : L1Line) : BitVec 32 := byteWords (l.dirty ||| l.inFlight)

/-- Drops the clean words of an L1 line: the retry refetches them from the level below. A word with a byte that is dirty, or
whose write-back is not acknowledged, stays (08 R303). -/
def dropL1 (c : Core) (l : L1Line) : Core :=
  c.l1Drop fun x => if x.asid == l.asid && x.va == l.va then ~~~l.ownWords else 0#32

def dropRdc (d : Die) (i : Nat) : Die := { d with rdc := dropIx d.rdc i }

/-- A KV page is lost: it is POISONED (07 R286), and the 2 MiB page of memory that holds it is retired. -/
def losePage (s : State) (ctx seq head page dpa : Nat) : State :=
  let s := s.mapKv ctx fun k => k.poison seq head page
  { s with retired := if s.retired.contains (dpa / 2 ^ 21) then s.retired else s.retired ++ [dpa / 2 ^ 21] }

/-- The requests of a strip whose service group is fenced off go to the next group of its cluster (Table 10.9). -/
def moveQueue (s : State) (die strip : Nat) : State :=
  let next := servingStrip s die strip
  s.mapDie die fun d => { d with svc := d.svc.map fun r => if r.strip = strip then { r with strip := next } else r }

/-- A strip and its die as one unit number. -/
def stripUnit (dpa : Nat) : Nat := stripOf dpa + 16 * homeDie dpa

/-- A strip's service group is fenced off after a request for a location failed for good: the location is poisoned, and the
queue goes to the next group of the cluster. -/
def fenceStrip (s : State) (dpa : Nat) : State :=
  moveQueue (fenceWay (lastingError (poisonLine s dpa) 5 (stripUnit dpa) dpa) 5 (stripUnit dpa) 0) (homeDie dpa) (stripOf dpa)

/-- The location of a queued request. -/
def SvcRef.location (s : State) : SvcRef → Option Nat
  | .part core slot id n =>
    (match (s.group? core slot).bind fun g => g.pend? id with
     | some (.access a) => (a.lanes.find? fun l => l.part == n && l.progress == .queued).map dramOf
     | _ => none)
  | .cred e => some e.dpa
  | .peer dpa _ _ _ => some dpa

/-- A request's second attempt succeeds: the error is counted (R367). -/
def retryRequest (s : State) (r : SvcRef) : State :=
  match r.location s with
  | some dpa => transientError s 5 (stripUnit dpa) dpa
  | none => s

/-- The request of lane `lane` at a service group fails for good: that lane parks, its location is poisoned, and the strip's
service group is fenced off. -/
def loseRequest (s : State) (core slot id part lane : Nat) : State :=
  match (s.group? core slot).bind fun g => g.pend? id with
  | some (.access a) =>
    let ls := a.lanes.filter fun l => l.part == part && l.lane == lane && l.progress == .queued
    if ls.isEmpty || a.kind == .load || a.kind == .store then s
    else
      parkPart (fenceStrip s ((ls.head?.map dramOf).getD 0)) core slot id part a.site ls .uncorrectable 1
  | _ => s

/-- The request of a CRED or of a peer fails for good: the command faults, as on a poisoned line, or the peer is answered that
the location may not be had (R366). -/
def loseQueued (s : State) (r : SvcReq) : State :=
  match r.ref with
  | .cred e =>
    (dequeue (fenceStrip s e.dpa) e.dpa r.ref).mapCmd e.core .copy e.id fun k =>
      { k with acks := 0, progress := k.progress - 1, fault := some (k.trap .uncorrectable) }
  | .peer dpa _ _ _ => { dequeue (fenceStrip s dpa) dpa r.ref with peerReply := none }
  | .part _ _ _ _ => s

/-- Data of a peer window or of host memory that lane `lane` awaits is lost: it parks, and the lanes that read the same data
(R368). -/
def loseRemote (s : State) (core slot id part lane : Nat) : State :=
  match (s.group? core slot).bind fun g => g.pend? id with
  | some (.access a) =>
    let away := fun (l : LaneAcc) => match l.target with | .host _ => true | .peer _ _ _ _ => true | _ => false
    let hit := fun (l : LaneAcc) => a.lanes.any fun x => x.part == part && x.lane == lane && x.target == l.target
    let ls := a.lanes.filter fun l => l.part == part && l.open_ && away l && hit l
    if ls.isEmpty || !isRead a.kind then s else parkPart s core slot id part a.site ls .uncorrectable 1
  | _ => s

/-- An error that the checking codes detect and cannot correct at a site; `ok` says that the second attempt succeeds. -/
def errorRetry (s : State) (site : ErrorSite) (ok : Bool) (k : Sel) : State :=
  match site with
  | .memLine dpa =>
    if !s.installed dpa then s
    else if ok then transientError s 0 (dpa / 2 ^ 21) (lineOf dpa)
    else loseLine (lastingError s 0 (dpa / 2 ^ 21) (lineOf dpa)) dpa k
  | .l1Line core i =>
    (match (s.core core).l1[i]? with
     | none => s
     | some l =>
       if l.valid &&& ~~~l.ownWords = 0#32 then s
       else
         let t := s.mapCore core fun c => dropL1 c l
         if ok then transientError t 1 core l.dpa
         else loseBelow (fenceWay (lastingError t 1 core l.dpa) 1 core (l1Set l.va)) l.dpa k)
  | .l2Line die i =>
    (match (s.die die).l2[i]? with
     | none => s
     | some l =>
       let unit := l.strip + 16 * die
       if ok then transientError s 2 unit l.dpa
       else
         let t := s.mapDie die fun d => { d with l2 := dropIx d.l2 i }
         let t := fenceWay (lastingError t 2 unit l.dpa) 2 unit l.set
         if l.dirty then parkReader (poisonLine t l.dpa) l.dpa k.core k.slot k.id k.part else loseLine t l.dpa k)
  | .rdcLine die i =>
    (match (s.die die).rdc[i]? with
     | none => s
     | some l =>
       let t := s.mapDie die fun d => dropRdc d i
       (match l.key with
        | .line dpa => if ok then transientError t 3 die dpa else loseBelow (fenceWay (lastingError t 3 die dpa) 3 die 0) dpa k
        | .peer _ _ _ =>
          if ok then transientError t 3 die 0
          else loseRemote (fenceWay (lastingError t 3 die 0) 3 die 0) k.core k.slot k.id k.part k.index))
  | .coreState core =>
    if 512 ≤ core ∨ s.fenced.contains core then s
    else if ok then transientError s 4 core 0
    else loseCore (noteFence (lastingError s 4 core 0) 4 core 0) core fun _ => 0#128
  | .dirtyWord core i w =>
    (match (s.core core).l1[i]? with
     | none => s
     | some l =>
       let bytes := wordBytes (1#32 <<< w)
       if l.dirty &&& bytes = 0#128 ∨ s.fenced.contains core then s
       else if ok then transientError s 4 core 0
       else loseCore (noteFence (lastingError s 4 core 0) 4 core 0) core fun y =>
         if y.asid = l.asid ∧ y.va = l.va then bytes else 0#128)
  | .service core slot id part =>
    if ok then retryRequest s (.part core slot id part) else loseRequest s core slot id part k.index
  | .request die i =>
    (match (s.die die).svc[i]? with
     | some r => if ok then retryRequest s r.ref else loseQueued s r
     | none => s)
  | .remoteRead core slot id part => if ok then s else loseRemote s core slot id part k.index
  | .kvPage ctx seq head page =>
    (match (s.kv? ctx).bind fun k => (k.entry? seq head page).map fun e => Config.kvDpa ctx seq head page e.frame with
     | some dpa =>
       if ok then transientError s 0 (dpa / 2 ^ 21) (lineOf dpa)
       else losePage (lastingError s 0 (dpa / 2 ^ 21) (lineOf dpa)) ctx seq head page dpa
     | none => s)

/-- ERROR_RETRY (R365): the error at `site`, whose retry succeeds when `flag` says so. -/
def execErrorRetry (s : State) : Host.Outcome State Fault Refusal := .next (errorRetry s s.sel.site s.sel.flag s.sel)

/-! ## Flits and bridge messages (11 R376) -/

/-- The lane of a link that failed is fenced; with fewer than 4 lanes the link goes down. -/
def fenceLane (s : State) (n : Nat) : State :=
  match s.links[n]? with
  | none => s
  | some l =>
    let s := noteFence (lastingError s 6 (8 * n + (l.lanes - 1)) 0) 6 (8 * n + (l.lanes - 1)) 0
    let s := setLink s n fun l => { l with lanes := l.lanes - 1 }
    if l.lanes - 1 < 4 then linkDown s n
    else if l.state = .up ∨ l.state = .degraded then postLink (setLink s n fun l => { l with state := .degraded }) n
    else s

/-- The data of a flit received on a link are discarded: place `i` of the puts, the routed rows or the returns, as `kind`
says (Table 11.2). -/
def dropFlit (s : State) (link kind i : Nat) : State :=
  match kind with
  | 0 =>
    (match s.puts[i]? with
     | some p => if p.out || p.landed || p.link != link then s else ackPeer { s with puts := dropIx s.puts i } p
     | none => s)
  | 1 =>
    (match s.rowsOut[i]? with
     | some m => if m.device = s.device.toNat ∧ m.link = some link then { s with rowsOut := dropIx s.rowsOut i } else s
     | none => s)
  | _ =>
    (match s.returns[i]? with
     | some m => if m.token.toNat % 256 = s.device.toNat ∧ m.link = some link then { s with returns := dropIx s.returns i } else s
     | none => s)

/-- FLIT_CHECK_FAIL (Table 11.2): a flit received on link `link` fails its check. -/
def execFlitCheckFail (s : State) : Host.Outcome State Fault Refusal :=
  let k := s.sel
  .next (if 18 ≤ k.link then s
    else match k.failure with
      | .transient =>
        let s := setLink s k.link fun l => { l with transient := l.transient + 1#16 }
        transientError s 6 (8 * k.link) 0
      | .payload launch =>
        let s := dropFlit (fenceLane s k.link) k.link k.count k.index
        (match launch with
         | some id => (match s.launch? id with
             | some l => if l.admitted then abortLaunch s id .fabricPayload (0, 0xFFFF, 0) else s
             | none => s)
         | none => s)
      | .header => if carries s k.link then fabricFails (fenceLane s k.link) else s)

/-- The module enters FAILED: every admitted launch is aborted. -/
def enterFailed (s : State) : State :=
  let s := { s with failed := true }
  (s.launches.filter Launch.admitted).foldl (fun s l => abortLaunch s l.id .bridgeFailed (0, 0xFFFF, 0)) s

/-- BRIDGE_MESSAGE_FAIL (Table 11.2): a message of die `die` fails; `failure` tells whether its retransmission succeeds,
`flag` whether another lane group carries it. -/
def execBridgeMessageFail (s : State) : Host.Outcome State Fault Refusal :=
  let k := s.sel
  .next (match k.failure with
    | .transient => transientError s 7 (k.index % 64) 0
    | _ =>
      let s := noteFence (lastingError s 7 (k.index % 64) 0) 7 (k.index % 64) 0
      let s := { s with bridgeFenced := setNth s.bridgeFenced (k.die % 2) (nth 0 s.bridgeFenced (k.die % 2) + 1) }
      if s.failed then s
      else if !k.flag || decide (8 < s.bridgeFenced.foldl (· + ·) 0) then enterFailed s
      else s)

/-! ## Host ports (11 R379) -/

/-- Both host ports are down: lanes on their way to host memory park. -/
def parkHost (s : State) : State :=
  let parts := s.cores.flatMap fun p => p.2.groups.flatMap fun q => q.2.pend.flatMap fun e => match e.op with
    | .access a =>
      let ls := a.lanes.filter fun l => l.open_ && (match l.target with | .host _ => true | _ => false)
      (dedup (ls.map fun l => l.part)).map fun n => (p.1, q.1, e.id, n, a, ls.filter fun l => l.part == n)
    | _ => []
  parts.foldl (fun s (core, slot, id, n, a, ls) =>
    parkPart s core slot id n a.site ls .uncorrectable 3) s

/-- HOST_PORT_DOWN (R379). -/
def execHostPortDown (s : State) : Host.Outcome State Fault Refusal :=
  let s := s.mapPort (s.sel.port % 2) fun p => { p with up := false }
  .next (if hostDown s then parkHost s else s)

/-- HOST_PORT_UP (R379). -/
def execHostPortUp (s : State) : Host.Outcome State Fault Refusal := .next (s.mapPort (s.sel.port % 2) fun p => { p with up := true })

end Sys2Proof.Machine
end

