-- ==== Sys2Proof/Machine/Host.lean ====
section
/-! DEFINITION. The host port: the registers of BAR0 (11 R381, R388) and the BAR2 aperture (R379). -/

namespace Sys2Proof.Machine

/-! ## BAR0 (Table 11.10) -/

/-- Bits that DONE_VECTOR and EVR_CTL hold: the vector and the enable. -/
def vectorMask : Word := 0x8000003F#32

/-- A write to EVR_BASE: ignored where it is not a multiple of 128 KiB; else the ring begins anew (R388). -/
def HostPort.setEvrBase (p : HostPort) (v : DWord) : HostPort :=
  if v.extractLsb' 0 17 ≠ 0 then p else { p with evrBase := v, evrHead := 0, evrTail := 0, evrLost := 0#32 }

/-- SLOT_DONE is cleared by writing ones. -/
def HostPort.clearDone (p : HostPort) (v : Word) : HostPort := { p with slotDone := p.slotDone &&& ~~~(v.extractLsb' 0 16) }

/-- What the MSI-X table holds of bytes written to it: of an entry's Vector Control only the mask bit, its other bits being
reserved (00 R10, PCIe). -/
def msixBytes (o : Nat) (bs : List Byte) : List Byte :=
  bs.mapIdx fun i b => if (o + i) % 16 = 12 then b &&& 1#8 else if 12 < (o + i) % 16 then 0#8 else b

/-- A 32-bit write to a register of BAR0 at 0x1_0000 or above. -/
def HostPort.write32 (p : HostPort) (o : Nat) (v : Word) : HostPort :=
  match o with
  | 0x1000C => p.clearDone v
  | 0x10010 => { p with doneVector := v &&& vectorMask }
  | 0x20000 => p.setEvrBase (highWord p.evrBase ++ v)
  | 0x20004 => p.setEvrBase (v ++ lowWord p.evrBase)
  | 0x2000C => { p with evrTail := v.toNat % 4096 }
  | 0x20010 => { p with evrCtl := v &&& vectorMask }
  | 0x20014 => { p with evrLost := v }
  | _ => p

/-- A write of n bytes at an offset of BAR0: aligned and of 4 or 8 bytes, else ignored (R381). The doorbell has a step
of its own. -/
def HostPort.write (p : HostPort) (o n : Nat) (v : DWord) : HostPort :=
  if (n ≠ 4 ∧ n ≠ 8) ∨ o % n ≠ 0 then p
  else if o < 0x10000 then
    if p.slotBusy.getLsbD (o / 4096) then p else { p with slots := p.slots.put o (bytesOfNat n v.toNat) }
  else if 0x30000 ≤ o ∧ o < 0x30400 then { p with msix := p.msix.put (o - 0x30000) (msixBytes o (bytesOfNat n v.toNat)) }
  else if n = 4 then p.write32 o (lowWord v)
  else if o = 0x20000 then p.setEvrBase v
  else (p.write32 o (lowWord v)).write32 (o + 4) (highWord v)

/-- A 32-bit read of BAR0. -/
def HostPort.read32 (p : HostPort) (o : Nat) : Nat :=
  if o < 0x10000 then p.slots.nat o 4
  else if 0x30000 ≤ o ∧ o < 0x30400 then p.msix.nat (o - 0x30000) 4
  else match o with
    | 0x10008 => p.slotBusy.toNat
    | 0x1000C => p.slotDone.toNat
    | 0x10010 => p.doneVector.toNat
    | 0x20000 => (lowWord p.evrBase).toNat
    | 0x20004 => (highWord p.evrBase).toNat
    | 0x20008 => p.evrHead
    | 0x2000C => p.evrTail
    | 0x20010 => p.evrCtl.toNat
    | 0x20014 => p.evrLost.toNat
    | 0x31000 => (lowWord p.pba).toNat
    | 0x31004 => (highWord p.pba).toNat
    | _ => 0

/-- A read of n bytes of BAR0; ill-sized or misaligned ones read 0. -/
def HostPort.read (p : HostPort) (o n : Nat) : Nat :=
  if n = 4 ∧ o % 4 = 0 then p.read32 o
  else if n = 8 ∧ o % 8 = 0 then p.read32 o + 2 ^ 32 * p.read32 (o + 4)
  else 0

/-- REGISTER_WRITE (R381): `count` bytes of `value` at `offset` of port `port`. Vectors that wait and are masked no longer go
out. -/
def execRegisterWrite (s : State) : Host.Outcome State Fault Refusal :=
  let k := s.sel
  .next (sendPending (s.mapPort (k.port % 2) fun p => p.write k.offset k.count k.value) (k.port % 2))

/-- SLOT_DONE_CLEAR (R381). -/
def execSlotDoneClear (s : State) : Host.Outcome State Fault Refusal :=
  .next (s.mapPort (s.sel.port % 2) fun p => p.clearDone (lowWord s.sel.value))

/-- EVR_BASE_WRITE (R388). -/
def execEvrBaseWrite (s : State) : Host.Outcome State Fault Refusal :=
  .next (s.mapPort (s.sel.port % 2) fun p => p.setEvrBase s.sel.value)

/-! ## The aperture (R379) -/

/-- The device addresses of n bytes of BAR2: none outside installed memory, or while no aperture is in force. -/
def apertureAt (s : State) (o n : Nat) : Option Nat :=
  match s.aperture with
  | none => none
  | some base =>
    if n = 0 ∨ 2 ^ 36 < o + n ∨ !s.installed (base + o) ∨ !s.installed (base + o + n - 1) then none else some (base + o)

/-- APERTURE_WRITE (R379): the bytes at `offset` are performed at their home, and acknowledged once no die holds an older copy
(08 R304, R319). -/
def execApertureWrite (s : State) : Host.Outcome State Fault Refusal :=
  let k := s.sel
  .next (match apertureAt s k.offset k.bytes.length with
    | none => s
    | some a =>
      let cells := k.bytes.mapIdx fun i b => (a + i, b)
      writeOutside { s with hostAcks := s.hostAcks + (byLine cells).length } cells .host)

/-- APERTURE_READ (R379): `count` bytes at `offset`, from their home; none is an Unsupported Request, or data that are
lost (R366). -/
def execApertureRead (s : State) : Host.Outcome State Fault Refusal :=
  let k := s.sel
  .next (match apertureAt s k.offset k.count with
    | none => { s with apertureData := none }
    | some a =>
      if !rangeSound s a k.count then { s with apertureData := none }
      else { touchRange s a k.count with apertureData := some (s.dram.bytes a k.count) })

end Sys2Proof.Machine
end

