-- ==== Sys2Proof/Machine/Power.lean ====
section
/-! DEFINITION. Resets (11 R394), power states (R395) and the thermal limits (R396). -/

namespace Sys2Proof.Machine

/-! ## Resets (Table 11.8) -/

/-- Dirty L1 bytes and writes that are crossing the bridge reach memory, which a warm reset keeps. -/
def flushMemory (s : State) : State :=
  let s := (s.die0.out ++ s.die1.out).foldl (fun s m => match m.kind with | .write cells _ _ => performHome s cells | _ => s) s
  s.cores.foldl (fun s p => p.2.l1.foldl (fun s l => (byLine l.dirtyCells).foldl performHome s) s) s

/-- A put that is under way as the module resets: one of a peer is acknowledged all the same, and one that has not landed finds
no window, is discarded and counted (R374); one of this module lands, and moves no counter of the launches that are gone. -/
def PutMsg.overReset (p : PutMsg) : PutMsg :=
  if p.out then { p with ref := .none, final := false, late := [] } else { p with acks := 0 }

/-- A warm reset: every launch is aborted with KILLED and reported; contexts, tables, windows and partitions are
cleared. The L2 stays as it is (08 R434). -/
def warmReset (s : State) : State :=
  let s := flushMemory s
  let ls := s.launches
  let s : State := { s with
    cores := [], die0 := { Die.reset with l2 := s.die0.l2 }, die1 := { Die.reset with l2 := s.die1.l2 }, hostLines := [], hostAcks := 0
    launches := [], kvs := [], routes := [], rowsOut := [], returns := []
    puts := s.puts.map PutMsg.overReset, exposures := [], windowDrops := List.replicate 64 0, modeChange := none, registrations := [], bindings := [], channels := [], partitions := List.replicate 8 0
    power := if s.power = .idle then .active else s.power }
  let s := ls.foldl (fun s l => postDone s l .killed) s
  { s with cycle := 0, idleSince := 0 }

/-- A cold reset: the module is as `State.reset` says, but for what lies outside it (host memory, peers, the installed
second tier, temperatures, the host's side of its ports, links that have to train again) and for what stays fenced off
(R366: a fenced core is never used again; DEDUCED, log 33). `fencedUnits` tells what was fenced since (R392). -/
def coldReset (s : State) : State :=
  let down := fun (l : Link) => { l with state := .down, lanes := 8, transient := 0#16 }
  let up := fun (p : HostPort) => { HostPort.reset with up := p.up }
  { State.reset with
    fenced := s.fenced, fencedWays := s.fencedWays, retired := s.retired
    tier0 := s.tier0, tier1 := s.tier1, hostMem := s.hostMem, peers := s.peers, links := s.links.map down
    port0 := up s.port0, port1 := up s.port1, sensors := s.sensors, response := s.response, outputs := s.outputs
    agenda := s.agenda
    sel := s.sel }

/-- RESET_PIN (R394). -/
def execResetPin (s : State) : Host.Outcome State Fault Refusal := .next (coldReset s)

/-! ## Power (R395) -/

/-- POWER_DUTY_UPDATE: between commands (R383), the firmware sets the duty value to `count`, 48 at most. It changes timing only. -/
def execPowerDutyUpdate (s : State) : Host.Outcome State Fault Refusal :=
  .next (if romBusy s then s else { s with duty := min 48 s.sel.count })

/-- IDLE_ENTRY: 600,000 cycles have passed with no admitted launch. -/
def execIdleEntry (s : State) : Host.Outcome State Fault Refusal :=
  .next (if s.power = .active ∧ admittedCount s = 0 ∧ s.idleSince + 600000 ≤ s.cycle then { s with power := .idle } else s)

/-! ## Heat (R396) -/

/-- Throttle limit of a sensor, in units of 0.125 °C; halt and shutdown lie 10 °C and 20 °C above (Table 11.9). -/
def throttleLimit (n : Nat) : Int := if n < 40 then 760 else 680

def haltLimit (n : Nat) : Int := throttleLimit n + 80
def shutdownLimit (n : Nat) : Int := throttleLimit n + 160

/-- The reading that a thermal event brings. -/
def reading (s : State) : Half := s.sel.value.extractLsb' 0 16

/-- A sensor's new reading, at a level of which an event tells. -/
def thermal (s : State) (level : Nat) : State :=
  let n := s.sel.sensor
  postThermal { s with sensors := setNth s.sensors n (reading s), sensorLevel := setNth s.sensorLevel n level } n level (reading s)

/-- The sensor exists, has not been at a level, and its reading is at a limit. -/
def crosses (s : State) (level : Nat) (limit : Nat → Int) : Bool :=
  decide (s.sel.sensor < 52) && decide (nth 0 s.sensorLevel s.sel.sensor < level) && decide (limit s.sel.sensor ≤ (reading s).toInt)

/-- The sensor has been at a limit before, and its new reading is still at the throttle limit and crosses no further one. -/
def stays (s : State) : Bool :=
  let level := nth 0 s.sensorLevel s.sel.sensor
  decide (s.sel.sensor < 52) && decide (1 ≤ level) && decide (throttleLimit s.sel.sensor ≤ (reading s).toInt)
    && !(decide (level < 2) && decide (haltLimit s.sel.sensor ≤ (reading s).toInt))
    && !decide (shutdownLimit s.sel.sensor ≤ (reading s).toInt)

/-- THERMAL_THROTTLE: a sensor is at its throttle limit, or still there with a new reading, and the firmware raises the duty
value, to `count` where that is more. -/
def execThermalThrottle (s : State) : Host.Outcome State Fault Refusal :=
  let t := { s with duty := min 48 (max (s.duty + 1) s.sel.count) }
  .next (if romBusy s then s
    else if crosses s 1 throttleLimit then thermal t 1
    else if stays s then { t with sensors := setNth s.sensors s.sel.sensor (reading s) }
    else s)

/-- THERMAL_HALT: every admitted launch is pre-empted, and none is admitted. -/
def execThermalHalt (s : State) : Host.Outcome State Fault Refusal :=
  let stop := fun (l : Launch) => match l.phase with | .admitted => { l with phase := .stopping true } | _ => l
  .next (if crosses s 2 haltLimit && !romBusy s then thermal { s with halted := true, launches := s.launches.map stop } 2 else s)

/-- THERMAL_SHUTDOWN: power goes without any save. -/
def execThermalShutdown (s : State) : Host.Outcome State Fault Refusal :=
  .next (if crosses s 3 shutdownLimit then { thermal s 3 with power := .off } else s)

/-- BACK_BELOW_THROTTLE: a sensor's reading lies below its throttle limit. -/
def execBackBelowThrottle (s : State) : Host.Outcome State Fault Refusal :=
  let n := s.sel.sensor
  .next (if romBusy s || decide (52 ≤ n) || decide (throttleLimit n ≤ (reading s).toInt) then s
    else if nth 0 s.sensorLevel n = 0 then { s with sensors := setNth s.sensors n (reading s) }
    else thermal s 0)

/-- THERMAL_RECOVER: every sensor lies 5 °C below its throttle limit, and the launches may resume. -/
def execThermalRecover (s : State) : Host.Outcome State Fault Refusal :=
  let cool := (List.range 52).all fun n => decide ((nth 0#16 s.sensors n).toInt ≤ throttleLimit n - 40)
  .next (if s.halted && cool && !romBusy s then { s with halted := false } else s)

end Sys2Proof.Machine
end

