-- ==== Sys2Proof/Machine/Launching.lean ====
section
/-! DEFINITION. The launch record: its reading (01 Table 1.10) and the checks of Table 1.13 in their order (R32 to R38,
R57, R59, 10 R350), and the commands that concern launches (11 R384). -/

namespace Sys2Proof.Machine

/-! ## Reading (Table 1.10) -/

/-- A little-endian field of n bytes. -/
def field (bs : List Byte) (o n : Nat) : Nat := natOfBytes ((bs.drop o).take n)

/-- Bytes o to o + n − 1 are zero. -/
def zeros (bs : List Byte) (o n : Nat) : Bool := ((bs.drop o).take n).all fun b => b == 0#8

def readLevel (x : Nat) : Level := { domain := x / 2 ^ 29, scope := x / 2 ^ 26 % 8, extent := x % 2 ^ 24 }

def readRing (x : Nat) : RingDesc := { slots := x / 2 ^ 32 % 256, lines := x / 2 ^ 20 % 4096, base := x % 2 ^ 19 }

def readRecord (bs : List Byte) : LaunchRec :=
  let u := field bs
  { codeBase := u 0x00 8, codeLen := u 0x08 4, wide := u 0x0C 1 == 1, nlevels := u 0x0D 1, priority := u 0x0E 1
    levels := (List.range 8).map fun i => readLevel (u (0x10 + 4 * i) 4)
    grid := (u 0x30 4, u 0x34 4, u 0x38 4), wtiles := u 0x40 1, ptiles := u 0x41 1, scratch := u 0x44 4
    formats := (List.range 8).map fun i => BitVec.ofNat 32 (u (0x48 + 4 * i) 4)
    regionTable := u 0x68 8, trapEntry := BitVec.ofNat 32 (u 0x70 4), entry := BitVec.ofNat 32 (u 0x74 4)
    mode := BitVec.ofNat 32 (u 0x78 4), barrierUse := BitVec.ofNat 32 (u 0x7C 4), kvContext := u 0x80 4
    routeTable := u 0x84 4, domainIndex := u 0x88 4, xtables := BitVec.ofNat 8 (u 0x8C 1)
    rings := (List.range 8).map fun i => readRing (u (0x90 + 8 * i) 8)
    counterReset := BitVec.ofNat 64 (u 0xD0 8)
    params := (List.range 32).map fun i => BitVec.ofNat 64 (u (0x100 + 8 * i) 8) }

/-- A region table entry (10 Table 10.5). -/
def readRegion (m : Memory) (a : Nat) : Region :=
  { vbase := m.nat a 8, length := m.nat (a + 8) 8, target := m.nat (a + 16) 8, kind := m.nat (a + 24) 1
    rights := m.nat (a + 25) 1, pgsz := m.nat (a + 26) 1 }

def readRegions (m : Memory) (a : Nat) : List Region := (List.range 32).map fun i => readRegion m (a + 32 * i)

/-! ## The checks (Table 1.13) -/

/-- Check 1: reserved bytes and fields. -/
def reservedOk (bs : List Byte) : Bool :=
  let u := field bs
  decide (u 0x0C 1 < 2) && decide (u 0x0E 1 < 8) && decide (u 0x78 4 < 32) && decide (u 0x8C 1 < 16)
    && zeros bs 0x0F 1 && zeros bs 0x3C 4 && zeros bs 0x42 2 && zeros bs 0x8D 3 && zeros bs 0xD8 40
    && (List.range 8).all (fun i => u (0x10 + 4 * i) 4 / 2 ^ 24 % 4 == 0)
    && (List.range 8).all (fun i => u (0x48 + 4 * i) 4 < 2 ^ 11)
    && (List.range 8).all fun i => let x := u (0x90 + 8 * i) 8; x / 2 ^ 40 == 0 && x / 2 ^ 19 % 2 == 0

/-- The levels from 2 on, each with the one below it, obey R32. -/
def levelsRise : Level → List Level → Bool
  | _, [] => true
  | p, v :: vs =>
    decide (2 ≤ v.domain) && decide (v.domain ≤ 6) && decide (p.domain ≤ v.domain) && decide (v.domain ≤ v.scope)
      && decide (p.scope ≤ v.scope) && levelsRise v vs

/-- Check 2 (R32). -/
def levelsOk (r : LaunchRec) : Bool :=
  let n := r.nlevels
  let ls := r.levels.take n
  let l0 := nth (readLevel 0) ls 0
  let l1 := nth (readLevel 0) ls 1
  let up := ls.drop 2
  let count := fun (d : Nat) => (up.filter fun v => v.domain == d).length
  decide (2 ≤ n) && decide (n ≤ 8) && (r.levels.drop n).all (fun v => v == readLevel 0)
    && l0.domain == 0 && l0.scope == 0 && l0.extent == (if r.wide then 64 else 32)
    && l1.domain == 1 && decide (1 ≤ l1.scope) && decide (1 ≤ l1.extent) && decide (l1.extent ≤ if r.wide then 16 else 32)
    && levelsRise l1 up
    && decide (count 2 ≤ 1) && decide (count 3 ≤ 1) && decide (count 6 ≤ 1)
    && (match up with
        | [] => true
        | v :: vs => (v.domain != 2 || v.extent == 2) && vs.all fun w => w.domain != 2)
    && up.all (fun v => v.domain != 6 || (v == (up.getLast?).getD v && decide (v.extent ≤ 256)))
    && (ls.dropLast).all (fun v => v.scope != 7)
    && ls.all (fun v => decide (1 ≤ v.extent))
    && (match up.find? fun v => v.domain == 6 with
        | some v => decide (r.domainIndex < v.extent)
        | none => r.domainIndex == 0)

/-- Check 3 (R33). -/
def shapeOk (r : LaunchRec) : Bool :=
  let (x, y, z) := r.grid
  decide (1 ≤ x) && decide (1 ≤ y) && decide (1 ≤ z) && x * y * z == blocksOnModule r

/-- One format slot (R35). -/
def formatOk (f : Word) : Bool :=
  let elem := (f.extractLsb' 0 4).toNat
  let scale := (f.extractLsb' 4 4).toNat
  let group := (f.extractLsb' 8 2).toNat
  let zp := f.getLsbD 10
  decide (elem ≤ 7) && decide (scale ≤ 3) && decide (group ≤ 2)
    && (scale != 0 || (group == 0 && !zp)) && (decide (2 < elem) || scale == 0)
    && (decide (elem < 6) || scale == 1 || scale == 3)
    && (scale != 2 || (decide (3 ≤ elem) && decide (elem ≤ 5) && group == 0 && !zp))
    && (!zp || decide (6 ≤ elem))

/-- A range of device addresses lies in installed memory. -/
def rangeInstalled (s : State) (a n : Nat) : Bool :=
  n == 0 || (s.installed a && s.installed (a + n - 1) && a / 2 ^ 45 == (a + n - 1) / 2 ^ 45)

/-- One used entry of a region table (10 R350). -/
def regionOk (s : State) (r : Region) : Bool :=
  let unit := if r.kind = 1 ∧ r.pgsz = 0 then 2 ^ 21 else 2 ^ 16
  decide (r.kind ≤ 2) && decide (r.rights < 8) && (if r.kind = 1 then decide (r.pgsz ≤ 1) && r.target % 8 == 0 else r.pgsz == 0)
    && r.vbase % unit == 0 && r.length % unit == 0 && decide (r.vbase + r.length ≤ 2 ^ 64)
    && (if r.kind = 0 then rangeInstalled s r.target r.length
        else if r.kind = 1 then rangeInstalled s r.target (8 * (r.length / 2 ^ r.pageBits)) else true)

def disjoint : List Region → Bool
  | [] => true
  | r :: rs => (rs.all fun q => decide (r.vbase + r.length ≤ q.vbase) || decide (q.vbase + q.length ≤ r.vbase)) && disjoint rs

/-- Code from `a` up to `e` lies in regions with CODE set, resident or demand. -/
def codeCovered (rs : List Region) (e : Nat) : Nat → Nat → Bool
  | 0, a => decide (e ≤ a)
  | n + 1, a =>
    if e ≤ a then true
    else match rs.find? fun r => r.covers a with
      | some r => r.code && decide (r.kind ≤ 1) && codeCovered rs e n (r.vbase + r.length)
      | none => false

/-- Check 5 (R34, 10 R350, R435). -/
def codeOk (s : State) (r : LaunchRec) : Bool :=
  let rs := readRegions s.dram r.regionTable
  let used := rs.filter fun q => q.length != 0
  r.codeBase % 128 == 0 && r.codeLen % 4 == 0 && decide (4 ≤ r.codeLen)
    && r.entry.toNat % 4 == 0 && decide (r.entry.toNat < r.codeLen) && r.trapEntry.toNat % 4 == 0 && decide (r.trapEntry.toNat < r.codeLen)
    && r.regionTable % 32 == 0 && rangeInstalled s r.regionTable 1024
    && (rs.mapIdx fun i q => q.length == 0 || s.dram.nat (r.regionTable + 32 * i + 27) 5 == 0).all id
    && used.all (regionOk s) && disjoint used && codeCovered used (r.codeBase + r.codeLen) 33 r.codeBase

/-- Check 6. Of a ring that is not used, with SLOTS 0, the other fields have no limit (Table 1.13 says only "ring limits";
DESIGN CHOICE, log 68). -/
def resourcesOk (r : LaunchRec) : Bool :=
  let ring := fun (d : RingDesc) => d.slots == 0 || (decide (1 ≤ d.lines) && d.base % 128 == 0 && decide (d.base + d.slots * d.lines * 128 ≤ r.scratch))
  decide (1 ≤ r.wtiles) && decide (r.wtiles ≤ if r.wide then 4 else 2) && decide (r.ptiles ≤ 64)
    && r.scratch % 128 == 0 && decide (r.scratch ≤ 524288) && r.rings.all ring && decide (1 ≤ blocksPerCore r)

/-- Check 7. -/
def barriersOk (r : LaunchRec) : Bool :=
  let has := fun (d : Nat) => ((r.levels.take r.nlevels).drop 2).any fun v => decide (d ≤ v.domain)
  (r.barrierUse.extractLsb' 16 8 == 0#8 || hasDomain r 3) && (r.barrierUse.extractLsb' 24 4 == 0#4 || has 4)
    && (r.barrierUse.extractLsb' 28 4 == 0#4 || has 5)

/-- Check 8. -/
def contextsOk (s : State) (r : LaunchRec) : Bool :=
  (r.kvContext == 0 || s.kvs.any fun k => k.id == r.kvContext) && (r.routeTable == 0 || s.routes.any fun t => t.id == r.routeTable)

/-- Usable cores of a partition, and of its part on a die. -/
def usableCores (s : State) (part : Nat) : Nat := ((List.range 512).filter (usable s part)).length
def usableOn (s : State) (part die : Nat) : Nat := ((List.range 256).filter fun k => usable s part (256 * die + k)).length

/-- The instances of DOMAIN 4, placed in turn on the die with more free slot positions of an empty partition, stay
within each die's share (R57). -/
def diesHold (s : State) (r : LaunchRec) (part : Nat) : Bool :=
  if !hasDomain r 4 then true
  else
    let per := (((r.levels.take r.nlevels).drop 2).filter fun v => v.domain ≤ 4).foldl (fun n v => n * v.extent) 1
    let slots := groupsPerBlock r * (if r.wide then 2 else 1)
    let go := fun (p : Nat × Nat) (_ : Nat) =>
      let free := fun (d n : Nat) => 32 * usableOn s part d - n * slots
      if free 0 p.1 < free 1 p.2 then (p.1, p.2 + per) else (p.1 + per, p.2)
    let (a, b) := (List.range (blocksOnModule r / max 1 per)).foldl go (0, 0)
    decide (a ≤ blocksPerCore r * usableOn s part 0) && decide (b ≤ blocksPerCore r * usableOn s part 1)

/-- A partition without load takes all the blocks of a launch at once, its gangs included (R57, R58, 09 R325). -/
def packs (s : State) (r : LaunchRec) (part : Nat) : Bool :=
  let l : Launch :=
    { id := 0, rec_ := r, partition := part, asid := 0, phase := .admitted, regions := [], order := 0, placed := 0, ended := 0
      status := none, incident := none, fabric := false, images := [], dies := [] }
  (placeAll { s with cores := [], launches := [l] } l (blocksOnModule r)).isSome

/-- Check 9 (R57, R59, 11 R390). -/
def residencyOk (s : State) (r : LaunchRec) (part : Nat) : Bool :=
  decide (1 ≤ usableCores s part)
    && (!hasDomain r 3 || decide (gangSize r ≤ 64 * blocksPerCore r))
    && (!needsAll r
      || (decide (blocksOnModule r ≤ blocksPerCore r * usableCores s part) && diesHold s r part && packs s r part))

/-- A status of Table 11.5 other than OK, where the spec names none (R386). -/
def openStatus (op : Nat) : Nat :=
  let codes := (List.range 9).map (· + 1) ++ (List.range 10).map (· + 0x10)
  nth 1 codes (Config.openStatus op % 19)

/-- The firmware reads a region table at its home (10 R350, 08 R434). -/
def touchRegions (s : State) (a : Nat) : State := (List.range 9).foldl (fun s i => touchL2 s (lineOf (min (a + 128 * i) (a + 1023))) false) s

/-- The first reason for which a record is refused, as a status code (11 Table 11.5). -/
def launchRefusal (s : State) (bs : List Byte) (part : Nat) : Option Nat :=
  let r := readRecord bs
  if !reservedOk bs then some 0x10
  else if !levelsOk r then some 0x11
  else if !shapeOk r then some 0x12
  else if !r.formats.all formatOk then some 0x13
  else if !codeOk s r then some 0x14
  else if !resourcesOk r then some 0x15
  else if !barriersOk r then some 0x16
  else if !contextsOk s r then some 0x17
  else if !residencyOk s r part then some 0x18
  else if 64 ≤ (s.launches.filter fun l => l.phase == .queued && l.rec_.priority == r.priority).length then some 0x19
  else none

/-! ## Commands that concern launches (11 R384) -/

/-- What a command gives: the state, its status and its response payload. -/
structure Reply where
  s : State
  status : Byte
  payload : List Byte

def okReply (s : State) : Reply := { s := s, status := 0#8, payload := [] }
def failReply (s : State) (n : Nat) : Reply := { s := s, status := BitVec.ofNat 8 n, payload := [] }

/-- An id of 1 to 65,535 that is not in use: the one proposed, else the lowest. -/
def freshId (used : List Nat) (pick : Nat) : Option Nat :=
  if 1 ≤ pick ∧ pick ≤ 65535 ∧ !used.contains pick then some pick
  else ((List.range (used.length + 1)).map fun i => i + 1).find? fun i => decide (i ≤ 65535) && !used.contains i

/-- LAUNCH: the record is checked and queued (01 R37, 09 R321). -/
def cmdLaunch (s : State) (p : List Byte) (pick : Nat) : Reply :=
  let part := field p 0x200 1
  let asid := field p 0x201 1
  let r := readRecord (p.take 512)
  -- check 5 reads the region table, whatever becomes of the record (10 R350, 08 R434)
  let read := reservedOk (p.take 512) && levelsOk r && shapeOk r && r.formats.all formatOk && rangeInstalled s r.regionTable 1024
  let touched := if read then touchRegions s r.regionTable else s
  if !zeros p 0x202 6 then failReply s 2
  else if 3 < part ∨ asid = 0 then failReply s 3
  else match launchRefusal s (p.take 512) part with
    | some n => failReply touched n
    | none =>
      match freshId (s.launches.map fun l => l.id) pick with
      | none => failReply touched 4
      | some id =>
        let l : Launch :=
          { id := id, rec_ := r, partition := part, asid := asid, phase := .queued, regions := readRegions s.dram r.regionTable
            order := s.launchSeq, placed := 0, ended := 0, status := none, incident := none, fabric := false, images := []
            dies := [] }
        { s := { touched with launches := s.launches ++ [l], launchSeq := s.launchSeq + 1 }, status := 0#8
          payload := bytesOfNat 2 id ++ bytesOfNat 2 0 }

/-- The clauses of a launch are discarded on every core (09 R334). -/
def dropLaunchClauses (s : State) (id : Nat) : State :=
  { s with cores := s.cores.map fun p => (p.1, p.2.dropClauses fun k => k.launch == id) }

/-- Requantisations among the commands of a launch's images are discarded with them (07 R287). -/
def dropSaved (s : State) (l : Launch) : State :=
  l.images.foldl (fun s m => dropRequants s m.core fun id => m.quant.cmds.any fun k => k.id == id) s

/-- KILL: a queued record is reported at once; a launch that has run ends as after an abort, a saved image being
discarded. -/
def cmdKill (s : State) (id : Nat) : Reply :=
  match s.launch? id with
  | none => failReply s 6
  | some l =>
    match l.phase with
    | .queued => okReply (reportLaunch s { l with status := some .killed })
    | .saved _ =>
      let done := fun (l : Launch) =>
        { l with phase := .saved false, images := [], ended := l.placed, status := (if l.aborted then l.status else some .killed) }
      -- its blocks end, with what waits for them (07 R298)
      let s := dropSaved s l
      let s := l.images.foldl (fun s m => m.blocks.foldl (fun s b => loseDest s m.core l.id b.index) s) s
      okReply (s.mapLaunch id done)
    | _ =>
      let s := dropLaunchClauses (abortLaunch (dropSaved s l) id .killed (0, 0xFFFF, 0)) id
      okReply (s.mapLaunch id fun l => { l with phase := .admitted, images := [] })

/-- PREEMPT (10 R359): the launch stops, and awaits RESUME once saved. -/
def cmdPreempt (s : State) (id : Nat) : Reply :=
  match s.launch? id with
  | none => failReply s 6
  | some l =>
    match l.phase with
    | .admitted => okReply (s.mapLaunch id fun l => { l with phase := .stopping false })
    | .stopping _ => okReply (s.mapLaunch id fun l => { l with phase := .stopping false })
    | .stopped _ => okReply (s.mapLaunch id fun l => { l with phase := .stopped false })
    | _ => failReply s (openStatus 0x04)

/-- RESUME (09 R323): the launch may be restored. -/
def cmdResume (s : State) (id : Nat) : Reply :=
  match s.launch? id with
  | none => failReply s 6
  | some l =>
    match l.phase with
    | .saved _ => okReply (s.mapLaunch id fun l => { l with phase := .saved true })
    | .stopping _ => okReply (s.mapLaunch id fun l => { l with phase := .stopping true })
    | .stopped _ => okReply (s.mapLaunch id fun l => { l with phase := .stopped true })
    | _ => failReply s (openStatus 0x05)

end Sys2Proof.Machine
end

