-- ==== Sys2Proof/Machine/Spdm.lean ====
section
/-! DEFINITION. SPDM (11 R385, R391, R392): the answers of the ROM to the requests it knows, and their chunks. The layouts of the
messages are those of the public standard, SPDM 1.3 (PRESUMED, log 11). -/

namespace Sys2Proof.Machine

/-! ## What attestation and QUERY report -/

def ownerByte (o : Option Nat) : Nat := o.getD 0xFF

/-- A bitmap of n bytes with the bits of a list. -/
def bitmap (n : Nat) (xs : List Nat) : List Byte :=
  (List.range n).map fun i => BitVec.ofNat 8 ((List.range 8).foldl (fun a j => if xs.contains (8 * i + j) then a + 2 ^ j else a) 0)

/-- The harvested positions: 16 of the 272 of each die, position k of die d as 272 d + k (00 R4). -/
def harvested : List Nat :=
  [0, 1].flatMap fun d => (arrange 16 (Config.harvestCode d) (List.range 272)).map fun k => 272 * d + k

def patchVersionOf (s : State) : Nat := match s.patch with | some p => (Config.patchVersion p).toNat | none => 0

/-- A measurement block of Table 11.7. What is fenced stands as class, unit and, of a way, its set, in the order in which it was
fenced (DESIGN CHOICE, log 87). -/
def measurement (s : State) (n : Nat) : List Byte :=
  match n with
  | 1 => sha384 Config.maskRom
  | 2 => (match s.patch with | none => List.replicate 48 0#8 | some t => sha384 t)
  | 3 => bytesOfNat 4 (patchVersionOf s) ++ bytesOfNat 4 Config.rollbackFloor.toNat
  | 4 => bitmap 68 harvested ++ bytesOfNat 1 Config.debugFuse.toNat
  | 5 => s.fencedUnits.flatMap fun u => bytesOfNat 1 u.1 ++ bytesOfNat 4 u.2.1 ++ bytesOfNat 4 u.2.2
  | _ => bytesOfNat 1 (ownerByte s.owner) ++ bytesOfNat 4 s.ownerChanges

/-! ## Messages -/

/-- Response code of a request code (SPDM 1.3). -/
def spdmAnswer (code : Nat) : Option Nat :=
  match code with
  | 0x84 => some 0x04 | 0xE1 => some 0x61 | 0xE3 => some 0x63 | 0x81 => some 0x01 | 0x82 => some 0x02
  | 0x83 => some 0x03 | 0xE0 => some 0x60 | 0x85 => some 0x05 | 0x86 => some 0x06
  | _ => none

/-- The header of a message of SPDM 1.3. -/
def spdmHeader (code p1 p2 : Nat) : List Byte := [0x13#8, BitVec.ofNat 8 code, BitVec.ofNat 8 p1, BitVec.ofNat 8 p2]

/-- The error of a code, with what follows its header. -/
def spdmError (code data : Nat) (more : List Byte) : List Byte := spdmHeader 0x7F code data ++ more

def invalidRequest : List Byte := spdmError 0x01 0 []

/-- A measurement block in the DMTF form: 1 and 2 are digests, the others raw. -/
def spdmBlock (s : State) (n : Nat) : List Byte :=
  let v := measurement s n
  let type := match n with | 1 => 0x00 | 2 => 0x01 | 4 => 0x82 | 5 => 0x82 | _ => 0x83
  bytesOfNat 1 n ++ [1#8] ++ bytesOfNat 2 (v.length + 3) ++ bytesOfNat 1 type ++ bytesOfNat 2 v.length ++ v

/-- The transcript of a requester. -/
def transcriptOf (s : State) (m : Nat) : SpdmTranscript :=
  (s.spdmLogs.find? fun t => t.master == m).getD { master := m, vca := [], certs := [], meas := [] }

/-- What ends a signed answer: the SLH-DSA signature in the opaque data, the requester's context, and the RSA signature, both over
one transcript hash (R391): SHA-384 of the messages before, the request, and the answer without its two signatures (PRESUMED,
log 11). -/
def spdmSigned (before req body : List Byte) (context : Nat) : List Byte :=
  let size := bytesOfNat 2 16224
  let ctx := pad 8 ((req.drop context).take 8)
  let h := sha384 (before ++ req ++ body ++ size ++ ctx)
  size ++ pad 16224 (Config.slhSign h) ++ ctx ++ pad 384 (Config.rsaSign h)

/-- A requester's transcript after a request and its answer: an error is no part of it (SPDM 1.3). -/
def SpdmTranscript.note (t : SpdmTranscript) (req resp : List Byte) : SpdmTranscript :=
  let both := req ++ resp
  if field resp 1 1 = 0x7F then t
  else match field req 1 1 with
    | 0x84 => { t with vca := both, certs := [], meas := [] }
    | 0xE1 => { t with vca := t.vca ++ both, meas := [] }
    | 0xE3 => { t with vca := t.vca ++ both, meas := [] }
    | 0x81 => { t with certs := t.certs ++ both, meas := [] }
    | 0x82 => { t with certs := t.certs ++ both, meas := [] }
    | 0x83 => { t with certs := [], meas := [] }
    | 0xE0 => { t with meas := if field req 2 1 % 2 = 1 then [] else t.meas ++ both }
    | _ => t

/-- GET_DIGESTS: slots 0 and 1 hold the RSA and the SLH-DSA chain. -/
def spdmDigests : List Byte := spdmHeader 0x01 3 3 ++ sha384 (Config.certChain 0) ++ sha384 (Config.certChain 1)

/-- GET_CERTIFICATE: the part of a slot's chain from an offset. -/
def spdmCertificate (req : List Byte) : List Byte :=
  let slot := field req 2 1 % 16
  let chain := Config.certChain slot
  let o := field req 4 2
  if 1 < slot ∨ chain.length < o then invalidRequest
  else
    let part := (chain.drop o).take (min (field req 6 2) 4056)
    spdmHeader 0x02 slot 0 ++ bytesOfNat 2 part.length ++ bytesOfNat 2 (chain.length - o - part.length) ++ part

/-- NEGOTIATE_ALGORITHMS: of what the requester offers, RSASSA-3072 and SHA-384 are accepted. -/
def spdmAlgorithms (req : List Byte) : List Byte :=
  let pick := fun (o bit : Nat) => bytesOfNat 4 (if field req o 4 / bit % 2 = 1 then bit else 0)
  spdmHeader 0x63 0 0 ++ bytesOfNat 2 36 ++ bytesOfNat 1 (field req 6 1 % 2) ++ [0#8] ++ bytesOfNat 4 4 ++ pick 8 4 ++ pick 12 2
    ++ List.replicate 16 0#8

/-- CHALLENGE: a signed answer with the digest of the measurements where one is asked for. -/
def spdmChallenge (s : State) (m : Nat) (req : List Byte) : List Byte :=
  let slot := field req 2 1 % 16
  if 1 < slot then invalidRequest
  else
    let all := (List.range 6).flatMap fun i => spdmBlock s (i + 1)
    let t := transcriptOf s m
    let body := spdmHeader 0x03 slot 3 ++ sha384 (Config.certChain slot) ++ pad 32 (Config.spdmNonce s.spdmCount)
      ++ (if field req 3 1 = 0 then [] else sha384 all)
    body ++ spdmSigned (t.vca ++ t.certs) req body 36

/-- GET_MEASUREMENTS: how many blocks there are, one, or all; signed where asked. -/
def spdmMeasurements (s : State) (m : Nat) (req : List Byte) : List Byte :=
  let op := field req 3 1
  if 6 < op ∧ op ≠ 0xFF then invalidRequest
  else
    let ns := if op = 0 then [] else if op = 0xFF then (List.range 6).map fun i => i + 1 else [op]
    let record := ns.flatMap (spdmBlock s)
    let t := transcriptOf s m
    let body := spdmHeader 0x60 (if op = 0 then 6 else 0) 0 ++ bytesOfNat 1 ns.length ++ bytesOfNat 3 record.length ++ record
      ++ pad 32 (Config.spdmNonce s.spdmCount)
    body ++ (if field req 2 1 % 2 = 1 then spdmSigned (t.vca ++ t.meas) req body 37 else bytesOfNat 2 0 ++ pad 8 ((req.drop 4).take 8))

/-- The answer to a request that is not one of chunks. KEY_EXCHANGE, and any request of no listed code, gets the error
UnsupportedRequest. -/
def spdmMessage (s : State) (m : Nat) (req : List Byte) : List Byte :=
  match field req 1 1 with
  | 0x84 => [0x10#8, 0x04#8, 0#8, 0#8, 0#8, 1#8, 0#8, 0x13#8]
  | 0xE1 => spdmHeader 0x61 0 0 ++ [0#8, Config.ctExponent, 0#8, 0#8] ++ bytesOfNat 4 0x20016 ++ bytesOfNat 4 4064 ++ bytesOfNat 4 65536
  | 0xE3 => spdmAlgorithms req
  | 0x81 => spdmDigests
  | 0x82 => spdmCertificate req
  | 0x83 => spdmChallenge s m req
  | 0xE0 => spdmMeasurements s m req
  | code => spdmError 0x07 code []

/-! ## Chunks (R385) -/

/-- One SPDM message more has been answered. -/
def State.spdmDone (s : State) (large : List SpdmLarge) : State := { s with spdmCount := s.spdmCount + 1, spdmLarge := large }

/-- The large messages of other masters, and this one's other way. -/
def otherLarge (s : State) (m : Nat) (answer : Bool) : List SpdmLarge :=
  s.spdmLarge.filter fun x => !(x.master == m && x.answer == answer)

/-- An answer of up to `limit` bytes as it is; of a larger one the error LargeResponse, and the answer is kept to be fetched. -/
def spdmCarry (s : State) (m limit : Nat) (r : List Byte) : List Byte × List SpdmLarge :=
  if r.length ≤ limit then (r, s.spdmLarge)
  else
    let h := s.spdmCount % 256
    (spdmError 0x0F 0 [BitVec.ofNat 8 h],
     otherLarge s m true ++ [{ master := m, handle := h, answer := true, next := 0, size := r.length, bytes := r }])

/-- CHUNK_GET: chunk `n` of the answer that is kept; with the last one it is given up. -/
def chunkGet (s : State) (m limit : Nat) (req : List Byte) : List Byte × List SpdmLarge :=
  let h := field req 3 1
  let n := field req 4 2
  match s.spdmLarge.find? fun x => x.master == m && x.answer && x.handle == h with
  | none => (invalidRequest, s.spdmLarge)
  | some x =>
    let o := if n = 0 then 0 else (limit - 16) + (n - 1) * (limit - 12)
    let bs := (x.bytes.drop o).take (if n = 0 then limit - 16 else limit - 12)
    let last := decide (x.bytes.length ≤ o + bs.length)
    if bs.isEmpty then (invalidRequest, s.spdmLarge)
    else
      (spdmHeader 0x06 last.toNat h ++ bytesOfNat 2 n ++ bytesOfNat 2 0 ++ bytesOfNat 4 bs.length
         ++ (if n = 0 then bytesOfNat 4 x.size else []) ++ bs,
       if last then otherLarge s m true else s.spdmLarge)

/-- A request and its answer join the requester's transcript. -/
def State.spdmNote (s : State) (m : Nat) (req resp : List Byte) : State :=
  { s with spdmLogs := s.spdmLogs.filter (fun t => t.master != m) ++ [(transcriptOf s m).note req resp] }

/-- CHUNK_SEND: a chunk of a large request comes in; the acknowledgement of the last one carries the answer. -/
def chunkSend (s : State) (m limit : Nat) (req : List Byte) : State × List Byte × List SpdmLarge :=
  let last := decide (field req 2 1 % 2 = 1)
  let h := field req 3 1
  let n := field req 4 2
  let old := s.spdmLarge.find? fun x => x.master == m && !x.answer && x.handle == h && x.next == n
  let size := if n = 0 then field req 12 4 else (old.map fun x => x.size).getD 0
  let bs := ((old.filter fun _ => n != 0).map fun x => x.bytes).getD [] ++ (req.drop (if n = 0 then 16 else 12)).take (field req 8 4)
  let ack := fun (bad : Bool) => spdmHeader 0x05 bad.toNat h ++ bytesOfNat 2 n
  if (n ≠ 0 ∧ old.isNone) ∨ size < bs.length ∨ (last ∧ bs.length ≠ size) then
    (s, ack true ++ invalidRequest, otherLarge s m false)
  else if last then
    let whole := spdmMessage s m bs
    let (r, large) := spdmCarry { s with spdmLarge := otherLarge s m false } m (limit - 6) whole
    (s.spdmNote m bs whole, ack false ++ r, large)
  else
    (s, ack false, otherLarge s m false ++ [{ master := m, handle := h, answer := false, next := n + 1, size := size, bytes := bs }])

/-- The answer to a request of a master, in messages of up to `limit` bytes. -/
def spdmReply (s : State) (m limit : Nat) (req : List Byte) : State × List Byte :=
  let (t, r, large) := match field req 1 1 with
    | 0x85 => chunkSend s m limit req
    | 0x86 => (s, chunkGet s m limit req)
    | _ =>
      let whole := spdmMessage s m req
      (s.spdmNote m req whole, spdmCarry s m limit whole)
  (t.spdmDone large, r)

/-- A request by a port's DOE mailbox, whose messages have a limit of their own; the answer stands in the mailbox (R378). -/
def receiveDoe (s : State) (port : Nat) (req : List Byte) : State :=
  let (t, r) := spdmReply s (4 + port % 2) (42 + Config.doeLimit) req
  t.mapPort (port % 2) fun p => { p with doe := r }

end Sys2Proof.Machine
end

