-- ==== Sys2Proof/Machine/Firmware.lean ====
section
/-! DEFINITION. The firmware's commands (11 R380 to R386, R389 to R395): their order of checks, what each does, the pages
of QUERY, SPDM and PATCH_LOAD, and the doorbell. -/

namespace Sys2Proof.Machine

/-! ## QUERY (Table 11.13) -/

/-- State of a launch: queued, which one that RESUME has re-queued is again, admitted, or pre-empted and awaiting RESUME
(R384, R385). -/
def launchState (l : Launch) : Nat :=
  match l.phase with
  | .queued => 0 | .saved resumed => if resumed then 0 else 2 | _ => 1

/-- The page of a launch, field by field as in Table 11.13: it names no block's core or rank (14 R428; DEDUCED, log 73). -/
def queryLaunch (l : Launch) : List Byte :=
  let (c, core, a) := l.incident.getD (0, 0xFFFF, 0)
  bytesOfNat 1 (launchState l) ++ bytesOfNat 1 l.rec_.priority ++ bytesOfNat 1 l.partition ++ bytesOfNat 1 l.asid
    ++ bytesOfNat 4 l.placed ++ bytesOfNat 4 l.ended ++ bytesOfNat 1 c ++ [0#8] ++ bytesOfNat 2 core ++ bytesOfNat 8 a

def queryWindow (s : State) (w : Nat) : List Byte :=
  match s.exposures.find? fun e => e.window == w with
  | none => List.replicate 48 0#8 ++ bytesOfNat 4 (nth 0 s.windowDrops w)
  | some e =>
    bytesOfNat 1 (!e.down).toNat ++ bytesOfNat 1 e.fallBack.toNat ++ bytesOfNat 1 e.rights ++ [0#8] ++ bytesOfNat 4 (e.length / 65536)
      ++ bytesOfNat 8 e.target ++ bytesOfNat 32 e.mask.toNat ++ bytesOfNat 4 (nth 0 s.windowDrops w)

/-- A page, or the status of a refusal. -/
def queryPage (s : State) (page arg : Nat) : Except Nat (List Byte) :=
  if page ≠ 6 ∧ page ≠ 8 ∧ arg ≠ 0 then .error 3
  else match page with
  | 0 => .ok (Config.partNumber ++ bytesOfNat 4 Config.siliconRevision.toNat ++ bytesOfNat 4 Config.romVersion.toNat
      ++ bytesOfNat 4 (patchVersionOf s) ++ [s.device] ++ bytesOfNat 1 (ownerByte s.owner) ++ bytesOfNat 1 (ownerByte s.offer) ++ [0#8])
  | 1 => .ok (bitmap 68 harvested ++ bytesOfNat 1 Config.debugFuse.toNat ++ List.replicate 3 0#8
      ++ bytesOfNat 4 Config.rollbackFloor.toNat)
  | 2 => .ok (bitmap 64 s.fenced ++ bytesOfNat 2 (512 - s.fenced.length))
  | 3 => .ok ((List.range 8).map fun c => BitVec.ofNat 8 (nth 0 s.partitions c))
  | 4 => .ok (s.sensors.flatMap fun x => bytesOfNat 2 x.toNat)
  | 5 => .ok (s.errors.flatMap fun p => bytesOfNat 8 p.1 ++ bytesOfNat 8 p.2)
  | 6 => match s.launch? arg with | some l => .ok (queryLaunch l) | none => .error 6
  | 7 => .ok (s.links.flatMap fun l => bytesOfNat 1 l.state.code ++ bytesOfNat 1 l.lanes ++ bytesOfNat 2 l.transient.toNat)
  | 8 => if arg < 64 then .ok (queryWindow s arg) else .error 3
  | 9 => .ok (bytesOfNat 8 Config.bondedBytes ++ bytesOfNat 8 Config.bondedBytes ++ bytesOfNat 8 s.tier0 ++ bytesOfNat 8 s.tier1
      ++ bytesOfNat 2 Config.channels.toNat ++ bytesOfNat 2 0 ++ bytesOfNat 4 s.retired.length)
  | _ => .error 3

def cmdQuery (s : State) (p : List Byte) : Reply :=
  match queryPage s (field p 0 4) (field p 4 4) with
  | .ok bs => { s := s, status := 0#8, payload := bs }
  | .error n => failReply s n

/-! ## Pages (10 R354, R356) -/

/-- The outstanding record of a page is answered on both dies. -/
def answerPage (s : State) (asid region page : Nat) : State :=
  [0, 1].foldl (fun s d => ({ die := d, asid := asid, region := region, page := page } : PageKey).forget s) s

def cmdPage (s : State) (p : List Byte) (resolve : Bool) : Reply :=
  let asid := field p 0 1
  let region := field p 1 1
  let page := field p 4 4
  if !zeros p 2 2 then failReply s 2
  else if asid = 0 ∨ 31 < region then failReply s 3
  else if resolve then okReply (resolvePage (answerPage s asid region page) asid region page)
  else okReply (refusePage s asid region page)

def cmdInvalidate (s : State) (p : List Byte) : Reply :=
  if !zeros p 1 3 then failReply s 2
  else if field p 0 1 = 0 then failReply s 3
  else okReply (walkFence s (field p 0 1))

/-! ## KV contexts and route tables (07 R269, R292) -/

def inRange (x lo hi : Nat) : Bool := decide (lo ≤ x) && decide (x ≤ hi)

/-- The limits of Table 7.1. -/
def kvLimits (p : List Byte) : Bool :=
  let enc : Word := BitVec.ofNat 32 (field p 0x0C 2)
  inRange (field p 0 4) 1 1048576 && inRange (field p 4 2) 1 256 && decide (field p 6 2 ∈ [32, 64, 128, 256])
    && inRange (field p 8 4) 64 4194304 && field p 8 4 % 64 == 0
    && decide (field p 0x0C 2 < 2 ^ 11) && formatOk enc && slotScale enc == 0 && decide ((enc.extractLsb' 0 4).toNat ≤ 5)
    && decide (field p 0x0E 2 ≤ 256) && inRange (field p 0x10 2) 32 256 && field p 0x10 2 % 32 == 0
    && decide (field p 0x12 1 ≤ 16) && decide (1 ≤ field p 0x14 4)

def KvWindow.closed : KvWindow := { open_ := false, first := 0, count := 0, depth := [], records := [] }

def cmdKvCreate (s : State) (p : List Byte) (pick : Nat) : Reply :=
  if !zeros p 0x13 1 then failReply s 2
  else if !kvLimits p then failReply s 3
  else match freshId (s.kvs.map fun k => k.id) pick with
    | none => failReply s 4
    | some id =>
      let k : KvContext :=
        { id := id, nseq := field p 0 4, nhead := field p 4 2, headDim := field p 6 2, capacity := field p 8 4
          defaultEnc := BitVec.ofNat 11 (field p 0x0C 2), nstate := field p 0x0E 2, stateElems := field p 0x10 2
          draftStates := field p 0x12 1, pool := field p 0x14 4, held := 0, lens := [], entries := [], committed := []
          windows := List.replicate 16 KvWindow.closed, requants := [], returns := [] }
      { s := { s with kvs := s.kvs ++ [k] }, status := 0#8, payload := bytesOfNat 2 id ++ bytesOfNat 2 0 }

/-- A queued or admitted launch names an object. -/
def named (s : State) (p : LaunchRec → Bool) : Bool := s.launches.any fun l => launchState l != 2 && p l.rec_

def cmdKvDestroy (s : State) (p : List Byte) : Reply :=
  let id := field p 0 2
  if !zeros p 2 2 then failReply s 2
  else if !s.kvs.any (fun k => k.id == id) then failReply s 6
  else if named s fun r => r.kvContext == id then failReply s 5
  else okReply { s with kvs := s.kvs.filter fun k => k.id ≠ id }

def cmdKvPool (s : State) (p : List Byte) : Reply :=
  let id := field p 0 2
  let n := field p 4 4
  if !zeros p 2 2 then failReply s 2
  else if n = 0 then failReply s 3
  else match s.kv? id with
    | none => failReply s 6
    | some k => if n < k.entries.length + k.held then failReply s 5 else okReply (s.mapKv id fun k => { k with pool := n })

def cmdRouteCreate (s : State) (p : List Byte) (pick : Nat) : Reply :=
  if !zeros p 1 3 then failReply s 2
  else if 1 < field p 0 1 ∨ field p 4 4 = 0 then failReply s 3
  else match freshId (s.routes.map fun t => t.id) pick with
    | none => failReply s 4
    | some id =>
      let t : RouteTable := { id := id, next := field p 0 1 == 1, timeout := field p 4 4, dests := [] }
      { s := { s with routes := s.routes ++ [t] }, status := 0#8, payload := bytesOfNat 2 id ++ bytesOfNat 2 0 }

/-- One entry of ROUTE_SET: its id with the destination, or with none; `error` is the status of a bad one. -/
def routeEntry (p : List Byte) (o : Nat) : Except Nat (Nat × Option RouteDest) :=
  let u := fun (i n : Nat) => field p (o + i) n
  if u 7 1 ≠ 0 ∨ !zeros p (o + 12) 4 then .error 2
  else if 1 < u 1 1 then .error 3
  else if u 1 1 = 0 then (if zeros p (o + 2) 10 then .ok (u 0 1, none) else .error 3)
  else if 7 < u 3 1 ∨ 511 < u 4 2 ∨ u 8 2 = 0 ∨ 4096 < u 8 2 then .error 3
  else .ok (u 0 1, some { id := u 0 1, device := u 2 1, core := u 4 2, rank := u 6 1, launch := u 10 2, ring := u 3 1, cap := u 8 2 })

def setDests (p : List Byte) : Nat → Nat → List RouteDest → Except Nat (List RouteDest)
  | 0, _, ds => .ok ds
  | n + 1, o, ds =>
    match routeEntry p o with
    | .error e => .error e
    | .ok (id, d) => setDests p n (o + 16) ((ds.filter fun q => q.id ≠ id) ++ d.toList)

def cmdRouteSet (s : State) (p : List Byte) : Reply :=
  let id := field p 0 2
  let n := field p 4 4
  if n < 1 ∨ 253 < n ∨ p.length ≠ 8 + 16 * n ∨ !zeros p 2 2 then failReply s 2
  else match s.routes.find? fun t => t.id == id with
    | none => failReply s 6
    | some t =>
      match setDests p n 8 t.dests with
      | .error e => failReply s e
      | .ok ds => okReply { s with routes := s.routes.map fun t => if t.id = id then { t with dests := ds } else t }

def cmdRouteDestroy (s : State) (p : List Byte) : Reply :=
  let id := field p 0 2
  if !zeros p 2 2 then failReply s 2
  else if !s.routes.any (fun t => t.id == id) then failReply s 6
  else if named s fun r => r.routeTable == id then failReply s 5
  else okReply { s with routes := s.routes.filter fun t => t.id ≠ id }

/-! ## Windows (R373 to R375) -/

/-- WINDOW_EXPOSE of a window that is not DOWN finds no free one; its drop count goes on (DEDUCED, log 45). -/
def cmdExpose (s : State) (p : List Byte) : Reply :=
  let w := field p 0 1
  let target := field p 8 8
  let length := 65536 * field p 4 4
  if !zeros p 2 2 then failReply s 2
  else if 63 < w ∨ 7 < field p 1 1 ∨ !inRange (field p 4 4) 1 65536 ∨ target % 65536 ≠ 0 ∨ !rangeInstalled s target length then failReply s 3
  else if s.fabricDown then failReply s 7
  else if s.exposures.any fun e => e.window == w && !e.down then failReply s 4
  else
    let e : Exposure :=
      { window := w, target := target, length := length, rights := field p 1 1, mask := BitVec.ofNat 256 (field p 0x10 32)
        fallBack := false, down := false, registrants := [] }
    okReply { s with exposures := (s.exposures.filter fun e => e.window ≠ w) ++ [e] }

/-- WINDOW_REGISTER: what the peer exposes is fetched from it (DESIGN CHOICE, log 4). -/
def cmdRegister (s : State) (p : List Byte) : Reply :=
  let d := field p 0 1
  let w := field p 1 1
  if !zeros p 2 2 then failReply s 2
  else if 63 < w then failReply s 3
  else if unreachable s d then failReply s 7
  else match s.peers.find? fun x => x.device == d && x.window == w with
    | none => failReply s 7
    | some x =>
      let r : Registration := { device := d, window := w, length := x.length, rights := x.rights, fallBack := x.fallBack, down := false }
      { s := { s with registrations := (s.registrations.filter fun q => q.device ≠ d ∨ q.window ≠ w) ++ [r] }
        status := 0#8
        payload := bytesOfNat 4 (x.length / 65536) ++ bytesOfNat 1 x.rights ++ bytesOfNat 1 x.fallBack.toNat ++ bytesOfNat 2 0 }

/-- The registrants of a window that can be reached: their acknowledgement is awaited (R375). -/
def registrantsOf (s : State) (w : Nat) : List Nat :=
  (((s.exposures.filter fun e => e.window == w).flatMap fun e => e.registrants).filter fun d => !unreachable s d)

/-- WINDOW_MODE: the new mode goes to every registrant, and the answer waits for their acknowledgements (R375). -/
def cmdWindowMode (s : State) (p : List Byte) (m : Nat) : Reply :=
  let w := field p 0 1
  if !zeros p 2 2 then failReply s 2
  else if 63 < w ∨ 1 < field p 1 1 then failReply s 3
  else if !s.exposures.any fun e => e.window == w then failReply s 6
  else
    let fall := field p 1 1 == 1
    let set := fun (e : Exposure) => if e.window = w then { e with fallBack := fall } else e
    let ds := registrantsOf s w
    let s := ds.foldl (fun s d => s.send (.windowMode d w fall)) { s with exposures := s.exposures.map set }
    okReply (if ds.isEmpty then s else { s with modeChange := some { window := w, awaiting := ds, master := m, slot := none } })

def cmdWindowRemove (s : State) (p : List Byte) : Reply :=
  let kind := field p 0 1
  let d := field p 1 1
  let w := field p 2 1
  if !zeros p 3 1 then failReply s 2
  else if 1 < kind ∨ 63 < w ∨ (kind = 0 ∧ d ≠ 0) then failReply s 3
  else if kind = 0 then
    if s.exposures.any fun e => e.window == w then okReply { s with exposures := s.exposures.filter fun e => e.window ≠ w }
    else failReply s 6
  else if s.registrations.any fun r => r.device == d && r.window == w then
    okReply { s with registrations := s.registrations.filter fun r => r.device ≠ d ∨ r.window ≠ w }
  else failReply s 6

/-! ## Partitions, fabric, aperture (R370, R371, R377, R379, R390) -/

def cmdPartition (s : State) (p : List Byte) : Reply :=
  if p.any fun b => decide (3 < b.toNat) then failReply s 3
  else if s.launches.any fun l => launchState l != 2 then failReply s 5
  else okReply { s with partitions := p.map fun b => b.toNat }

/-- An entry of the route map: up to four link numbers, unused bytes 0xFF. -/
def mapEntry (p : List Byte) (d : Nat) : List Nat := ((p.drop (16 + 4 * d)).take 4).map fun b => b.toNat

/-- Links whose ends' keys now differ are FOREIGN, and those whose keys agree work again; each change is reported. -/
def rekeyLinks (s : State) : State :=
  (List.range 18).foldl (fun s n => match s.links[n]? with
    | none => s
    | some l =>
      if l.state = .down ∨ l.trained s.partitionKey = l.state then s
      else retrain s n l) s

/-- FABRIC_CONFIG: an id of a module that this one reaches is refused (R370, DEDUCED, log 71). -/
def cmdFabric (s : State) (p : List Byte) : Reply :=
  let id := field p 0 1
  let map := (List.range 256).map (mapEntry p)
  if !zeros p 1 7 then failReply s 2
  else if map.any fun e => e.any fun n => decide (17 < n) && n != 255 then failReply s 3
  else if id ≠ s.device.toNat ∧ !unreachable s id then failReply s 3
  else
    let s := { s with device := BitVec.ofNat 8 id, partitionKey := BitVec.ofNat 64 (field p 8 8)
                      routeMap := map.map fun e => e.filter fun n => n != 255 }
    okReply (loseDevices (rekeyLinks s))

/-- FABRIC_RESET: after a DOWN the links retrain, and are down until they have (R377). -/
def cmdFabricReset (s : State) : Reply :=
  if !s.fabricDown then okReply s
  else okReply ((List.range 18).foldl linkDown { s with fabricReset := true })

def cmdAperture (s : State) (p : List Byte) : Reply :=
  let b := field p 0 8
  if b = 2 ^ 64 - 1 then okReply { s with aperture := none }
  else if b % 2 ^ 36 ≠ 0 ∨ 2 ^ 47 ≤ b then failReply s 3
  else okReply { s with aperture := some b }

/-! ## Ownership (R389) -/

def setOwner (s : State) (o : Option Nat) (offer : Option Nat) : State :=
  { s with owner := o, offer := offer, ownerChanges := s.ownerChanges + (if s.owner = o then 0 else 1) }

def cmdClaim (s : State) (m : Nat) : Reply :=
  if s.owner.isSome ∨ (m = 3 ∧ !Config.debugFuse) then failReply s 8 else okReply (setOwner s (some m) s.offer)

/-- OWNER_HANDOVER: any master may be offered the module, the debug port too (R389; DEDUCED, log 75). -/
def cmdHandover (s : State) (p : List Byte) : Reply :=
  if !zeros p 1 3 then failReply s 2
  else if 3 < field p 0 1 then failReply s 3
  else okReply { s with offer := some (field p 0 1) }

/-- OWNER_ACCEPT: the debug port becomes owner only with its fuse set (R389). -/
def cmdAccept (s : State) (m : Nat) : Reply :=
  if s.offer = some m ∧ !(m = 3 ∧ !Config.debugFuse) then okReply (setOwner s (some m) none) else failReply s 8

/-! ## SPDM (R391, R392) -/

def cmdSpdm (s : State) (p : List Byte) (m : Nat) : Reply :=
  let (t, r) := spdmReply s m 4064 p
  { s := t, status := 0#8, payload := r }

/-! ## PATCH_LOAD (R393) -/

def stageBytes : Nat := 262144

def cmdPatch (s : State) (p : List Byte) : Reply :=
  let o := field p 0 4
  let flags := field p 4 4
  let chunk := p.drop 8
  if 1 < flags then failReply s 2
  else if s.owner.isSome ∨ s.launchRun ∨ s.patch.isSome then failReply s 8
  else if stageBytes < o + chunk.length then failReply s 3
  else
    let s := { s with patchStage := s.patchStage.put o chunk }
    if flags = 0 then okReply s
    else
      let t := s.patchStage.bytes 0 (o + chunk.length)
      if !Config.patchSigned t then failReply s 9
      else if Config.patchVersion t < Config.rollbackFloor then failReply s 8
      else if 64 < Config.patchEntries t then failReply s 3
      else okReply { s with patch := some t }

/-! ## RESET and POWER_SET (R394, R395) -/

def cmdReset (s : State) (p : List Byte) : Reply :=
  if !zeros p 1 3 then failReply s 2
  else if 1 < field p 0 1 then failReply s 3
  else if field p 0 1 = 0 then okReply (warmReset s) else okReply s

/-- STANDBY is refused while a launch is queued or admitted, a fault record stands, or a WINDOW_MODE or FABRIC_RESET is under
way. -/
def standbyBusy (s : State) : Bool :=
  s.modeChange.isSome || s.launches.any (fun l => launchState l != 2) || !s.die0.faults.isEmpty || !s.die1.faults.isEmpty || s.fabricReset

def cmdPower (s : State) (p : List Byte) : Reply :=
  let st := field p 0 1
  let cap := field p 2 2
  if !zeros p 1 1 then failReply s 2
  else if (st ≠ 0 ∧ st ≠ 2) ∨ (cap ≠ 0 ∧ (cap < 600 ∨ 1500 < cap ∨ cap % 25 ≠ 0)) then failReply s 3
  else if st = 2 ∧ standbyBusy s then failReply s 5
  else
    let t := { s with cap := if cap = 0 then s.cap else cap }
    if st = 0 then okReply { t with power := .active, idleSince := if s.power = .active then s.idleSince else s.cycle }
    else okReply { (List.range 18).foldl linkDown t with power := .standby }

/-! ## One command (R383, R384) -/

/-- Who may issue a command: any master, the owner, the management controller, or for RESET `.cold` either of these. -/
def mayIssue (s : State) (m op : Nat) (p : List Byte) : Bool :=
  match op with
  | 0x01 => true | 0x30 => true | 0x32 => true | 0x38 => true
  | 0x39 => m == 0
  | 0x40 => s.owner == some m || (m == 0 && field p 0 1 == 1)
  | _ => s.owner == some m

/-- LENGTH of a command (Table 11.12): none for a code of no command. -/
def lengthOk (op n : Nat) : Option Bool :=
  match op with
  | 0x01 => some (n == 8) | 0x02 => some (n == 520) | 0x03 => some (n == 4) | 0x04 => some (n == 4) | 0x05 => some (n == 4)
  | 0x08 => some (n == 8) | 0x09 => some (n == 8) | 0x0A => some (n == 4)
  | 0x10 => some (n == 24) | 0x11 => some (n == 4) | 0x12 => some (n == 8)
  | 0x18 => some (n == 8) | 0x19 => some (inRange n 24 4056 && n % 16 == 8) | 0x1A => some (n == 4)
  | 0x20 => some (n == 48) | 0x21 => some (n == 4) | 0x22 => some (n == 4) | 0x23 => some (n == 4)
  | 0x28 => some (n == 8) | 0x29 => some (n == 1040) | 0x2A => some (n == 0) | 0x2B => some (n == 8)
  | 0x30 => some (n == 0) | 0x31 => some (n == 4) | 0x32 => some (n == 0) | 0x33 => some (n == 0)
  | 0x38 => some (inRange n 4 4064) | 0x39 => some (inRange n 8 4064) | 0x40 => some (n == 4) | 0x41 => some (n == 4)
  | _ => none

/-- What a command does, its issuer and LENGTH being in order. -/
def perform (s : State) (m op : Nat) (p : List Byte) (pick : Nat) : Reply :=
  let onLaunch := fun (f : State → Nat → Reply) => if zeros p 2 2 then f s (field p 0 2) else failReply s 2
  match op with
  | 0x01 => cmdQuery s p
  | 0x02 => cmdLaunch s p pick
  | 0x03 => onLaunch cmdKill
  | 0x04 => onLaunch cmdPreempt
  | 0x05 => onLaunch cmdResume
  | 0x08 => cmdPage s p true
  | 0x09 => cmdPage s p false
  | 0x0A => cmdInvalidate s p
  | 0x10 => cmdKvCreate s p pick
  | 0x11 => cmdKvDestroy s p
  | 0x12 => cmdKvPool s p
  | 0x18 => cmdRouteCreate s p pick
  | 0x19 => cmdRouteSet s p
  | 0x1A => cmdRouteDestroy s p
  | 0x20 => cmdExpose s p
  | 0x21 => cmdRegister s p
  | 0x22 => cmdWindowMode s p m
  | 0x23 => cmdWindowRemove s p
  | 0x28 => cmdPartition s p
  | 0x29 => cmdFabric s p
  | 0x2A => cmdFabricReset s
  | 0x2B => cmdAperture s p
  | 0x30 => cmdClaim s m
  | 0x31 => cmdHandover s p
  | 0x32 => cmdAccept s m
  | 0x33 => okReply (setOwner s none none)
  | 0x38 => cmdSpdm s p m
  | 0x39 => cmdPatch s p
  | 0x40 => cmdReset s p
  | 0x41 => cmdPower s p
  | _ => failReply s 2

/-- Commands that a module in STANDBY, and one in FAILED, accepts. -/
def acceptedIn (failed : Bool) (op : Nat) : Bool := op == 0x01 || op == 0x38 || op == 0x40 || (!failed && op == 0x41)

/-- One command of a master: a code or LENGTH that is wrong is BAD_COMMAND, then a master that may not issue it gets
NOT_OWNER (DEDUCED, log 31). -/
def command (s : State) (m op : Nat) (p : List Byte) (pick : Nat) : Reply :=
  match lengthOk op p.length with
  | none => failReply s 2
  | some false => failReply s 2
  | some true =>
    if !mayIssue s m op p then failReply s 1
    else if s.failed && !acceptedIn true op then failReply s (openStatus op)
    else if s.power == .standby && !acceptedIn false op then failReply s 5
    else perform s m op p pick

/-- A cold reset that the command asked for takes effect after its answer. -/
def afterAnswer (s : State) (op : Nat) (p : List Byte) (status : Byte) : State :=
  if op = 0x40 ∧ field p 0 1 = 1 ∧ status = 0#8 then coldReset s else s

/-- A command that reaches the firmware by itself, its answer left in `response`; the ROM takes none while one is under way. An
answer that has to wait comes later (R375, R383). -/
def runCommand (s : State) (op : Nat) (p : List Byte) : Host.Outcome State Fault Refusal :=
  let m := s.sel.master
  let r := command s m op p s.sel.pick
  .next (if s.modeChange.isSome then s
    else if r.s.modeChange.isSome then r.s
    else afterAnswer { r.s with response := some { master := m, status := r.status, payload := r.payload } } op p r.status)

/-! ## The doorbell (R380 to R383) -/

def mctpOf (s : State) (m : Nat) : MctpPort := if m = 0 then s.mctp else s.debug

def setMctp (s : State) (m : Nat) (f : MctpPort → MctpPort) : State :=
  if m = 0 then { s with mctp := f s.mctp } else { s with debug := f s.debug }

/-- The answer as it stands in a slot: TAG, status, LENGTH, payload. -/
def answerBytes (tag : Nat) (r : Reply) : List Byte :=
  bytesOfNat 4 tag ++ [r.status, 0#8] ++ bytesOfNat 2 0 ++ bytesOfNat 4 r.payload.length ++ List.replicate 20 0#8 ++ r.payload

/-- Reads the record of a slot and executes it (R380, R383). -/
def runRecord (s : State) (m : Nat) (rec_ : List Byte) (pick : Nat) : Reply :=
  let n := field rec_ 8 4
  if 4064 < n ∨ !zeros rec_ 6 2 ∨ !zeros rec_ 12 20 then failReply s 2
  else command s m (field rec_ 4 2) ((rec_.drop 32).take n) pick

/-- The bytes of a master's slot. -/
def slotBytes (s : State) (m n : Nat) : List Byte :=
  match m with
  | 1 => s.port0.slots.bytes (4096 * n) 4096
  | 2 => s.port1.slots.bytes (4096 * n) 4096
  | _ => (mctpOf s m).slots.bytes (4096 * n) 4096

/-- Writes an answer into a host port's slot: it is no longer busy, and done; the vector is raised where it is enabled. -/
def answerPort (s : State) (port n : Nat) (answer : List Byte) : State :=
  let done := fun (p : HostPort) =>
    { p with slots := p.slots.put (4096 * n) answer, slotBusy := p.slotBusy &&& ~~~(1#16 <<< n)
             slotDone := p.slotDone ||| (1#16 <<< n) }
  let s := s.mapPort port done
  raiseVector s port (s.port port).doneVector

/-- Writes an answer into the slot of a master. -/
def answerSlot (s : State) (m n : Nat) (answer : List Byte) : State :=
  match m with
  | 1 => answerPort s 0 n answer
  | 2 => answerPort s 1 n answer
  | _ => setMctp s m fun p => { p with slots := p.slots.put (4096 * n) answer, busy := p.busy &&& ~~~(1#16 <<< n) }

/-- A command of a slot is answered. -/
def answer (m n tag : Nat) (r : Reply) : State :=
  { answerSlot r.s m n (answerBytes tag r) with response := some { master := m, status := r.status, payload := r.payload } }

/-- Executes the command of a slot that has been rung; an answer that has to wait comes later (R375). -/
def runSlot (s : State) (k : Rung) : State :=
  let bs := slotBytes s k.master k.slot
  let r := runRecord s k.master bs k.pick
  match r.s.modeChange with
  | some c => { r.s with modeChange := some { c with slot := some k.slot } }
  | none => afterAnswer (answer k.master k.slot (field bs 0 4) r) (field bs 4 2) (bs.drop 32) r.status

/-- The commands that wait are executed one at a time, in the order of their doorbells, while none is under way (R383). -/
def serveRung : Nat → State → State
  | 0, s => s
  | n + 1, s =>
    match s.modeChange, s.rung with
    | none, k :: ks => serveRung n (runSlot { s with rung := ks } k)
    | _, _ => s

/-- Every command that waits is served: there are at most 64 slots. -/
def serveAll (s : State) : State := serveRung 64 s

/-- A host port's slot n is rung. -/
def ringPort (s : State) (port n pick : Nat) : State :=
  let s := s.mapPort port fun p => { p with slotBusy := p.slotBusy ||| (1#16 <<< n) }
  { s with rung := s.rung ++ [{ master := port + 1, slot := n, pick := pick }] }

/-- A message of a master that takes MCTP: the record is its slot, the answer its response. -/
def ringMctp (s : State) (m n pick : Nat) (bs : List Byte) : State :=
  let s := setMctp s m fun p => { p with slots := p.slots.put (4096 * n) (pad 4096 bs), busy := p.busy ||| (1#16 <<< n) }
  { s with rung := s.rung ++ [{ master := m, slot := n, pick := pick }] }

/-- A doorbell arrives (R382): `value` is what is written, or the tag of the message `bytes`; one with a bit above 3 set, or of
a busy slot, is ignored. -/
def ring (s : State) (d : Doorbell) : State :=
  let n := (d.value.extractLsb' 0 4).toNat
  if s.power = .off then s
  else match d.master with
    | 1 => if d.value.extractLsb' 4 28 ≠ 0 ∨ s.port0.slotBusy.getLsbD n then s else ringPort s 0 n d.pick
    | 2 => if d.value.extractLsb' 4 28 ≠ 0 ∨ s.port1.slotBusy.getLsbD n then s else ringPort s 1 n d.pick
    | m => if (mctpOf s m).busy.getLsbD n then s else ringMctp s m n d.pick d.bytes

/-- Doorbells of one cycle are taken in ascending master code (R383); then the ROM serves what waits. -/
def doorbells (s : State) (ds : List Doorbell) : State :=
  serveAll (((List.range 4).flatMap fun m => ds.filter fun d => d.master == m).foldl ring s)

/-- DOORBELL (R382): one alone. -/
def doorbell (s : State) (m : Nat) (v : Word) (pick : Nat) (bs : List Byte) : State :=
  serveAll (ring s { master := m, value := v, pick := pick, bytes := bs })

/-! ## A change of mode (R375) -/

/-- Every registrant has acknowledged: the command is answered. -/
def endMode (s : State) (c : ModeChange) : State :=
  let r := okReply { s with modeChange := none }
  match c.slot with
  | some n => answer c.master n (field (slotBytes s c.master n) 0 4) r
  | none => { r.s with response := some { master := c.master, status := 0#8, payload := [] } }

/-- The ROM after each move: registrants that can no longer be reached are awaited no longer (DESIGN CHOICE, log 72); a change
of mode that awaits none ends, and what waits behind it is served. -/
def settleRom (s : State) : State :=
  match s.modeChange with
  | none => s
  | some c =>
    let left := c.awaiting.filter fun d => !unreachable s d
    if left.isEmpty then serveAll (endMode s c) else { s with modeChange := some { c with awaiting := left } }

/-- A registrant's acknowledgement arrives. -/
def receiveModeAck (s : State) (device window : Nat) : State :=
  let drop := fun (c : ModeChange) => if c.window = window then { c with awaiting := c.awaiting.filter fun d => d != device } else c
  { s with modeChange := s.modeChange.map drop }

end Sys2Proof.Machine
end

