-- ==== Sys2Proof/Machine/Commands.lean ====
section
/-! DEFINITION. The commands of 11 Table 11.4 as steps: each is executed for the master and the payload that `sel` gives,
and leaves its answer in `response`; a DOORBELL executes the one its slot holds. -/

namespace Sys2Proof.Machine

/-- QUERY (R384). -/
def execQuery (s : State) : Host.Outcome State Fault Refusal := runCommand s 0x01 s.sel.bytes

/-- LAUNCH (R384, 01 R37, 09 R321). -/
def execLaunch (s : State) : Host.Outcome State Fault Refusal := runCommand s 0x02 s.sel.bytes

/-- KILL (R384). -/
def execKill (s : State) : Host.Outcome State Fault Refusal := runCommand s 0x03 s.sel.bytes

/-- PREEMPT (R384). -/
def execPreempt (s : State) : Host.Outcome State Fault Refusal := runCommand s 0x04 s.sel.bytes

/-- RESUME (R384). -/
def execResume (s : State) : Host.Outcome State Fault Refusal := runCommand s 0x05 s.sel.bytes

/-- PAGE_RESOLVE (R384, 10 R354). -/
def execPageResolve (s : State) : Host.Outcome State Fault Refusal := runCommand s 0x08 s.sel.bytes

/-- PAGE_REFUSE (R384, 10 R354). -/
def execPageRefuse (s : State) : Host.Outcome State Fault Refusal := runCommand s 0x09 s.sel.bytes

/-- PT_INVALIDATE (R384, 10 R356). -/
def execPtInvalidate (s : State) : Host.Outcome State Fault Refusal := runCommand s 0x0A s.sel.bytes

/-- KV_CREATE (R384). -/
def execKvCreate (s : State) : Host.Outcome State Fault Refusal := runCommand s 0x10 s.sel.bytes

/-- KV_DESTROY (R384). -/
def execKvDestroy (s : State) : Host.Outcome State Fault Refusal := runCommand s 0x11 s.sel.bytes

/-- KV_POOL (R384). -/
def execKvPool (s : State) : Host.Outcome State Fault Refusal := runCommand s 0x12 s.sel.bytes

/-- ROUTE_CREATE (R384). -/
def execRouteCreate (s : State) : Host.Outcome State Fault Refusal := runCommand s 0x18 s.sel.bytes

/-- ROUTE_SET (R384). -/
def execRouteSet (s : State) : Host.Outcome State Fault Refusal := runCommand s 0x19 s.sel.bytes

/-- ROUTE_DESTROY (R384). -/
def execRouteDestroy (s : State) : Host.Outcome State Fault Refusal := runCommand s 0x1A s.sel.bytes

/-- WINDOW_EXPOSE (R373). -/
def execWindowExpose (s : State) : Host.Outcome State Fault Refusal := runCommand s 0x20 s.sel.bytes

/-- WINDOW_REGISTER (R373). -/
def execWindowRegister (s : State) : Host.Outcome State Fault Refusal := runCommand s 0x21 s.sel.bytes

/-- WINDOW_MODE (R375). -/
def execWindowMode (s : State) : Host.Outcome State Fault Refusal := runCommand s 0x22 s.sel.bytes

/-- WINDOW_REMOVE (R384). -/
def execWindowRemove (s : State) : Host.Outcome State Fault Refusal := runCommand s 0x23 s.sel.bytes

/-- PARTITION_SET (R390). -/
def execPartitionSet (s : State) : Host.Outcome State Fault Refusal := runCommand s 0x28 s.sel.bytes

/-- FABRIC_CONFIG (R370, R371). -/
def execFabricConfig (s : State) : Host.Outcome State Fault Refusal := runCommand s 0x29 s.sel.bytes

/-- FABRIC_RESET (R377). -/
def execFabricReset (s : State) : Host.Outcome State Fault Refusal := runCommand s 0x2A s.sel.bytes

/-- APERTURE_SET (R379). -/
def execApertureSet (s : State) : Host.Outcome State Fault Refusal := runCommand s 0x2B s.sel.bytes

/-- OWNER_CLAIM (R389). -/
def execOwnerClaim (s : State) : Host.Outcome State Fault Refusal := runCommand s 0x30 s.sel.bytes

/-- OWNER_HANDOVER (R389). -/
def execOwnerHandover (s : State) : Host.Outcome State Fault Refusal := runCommand s 0x31 s.sel.bytes

/-- OWNER_ACCEPT (R389). -/
def execOwnerAccept (s : State) : Host.Outcome State Fault Refusal := runCommand s 0x32 s.sel.bytes

/-- OWNER_RELEASE (R389). -/
def execOwnerRelease (s : State) : Host.Outcome State Fault Refusal := runCommand s 0x33 s.sel.bytes

/-- SPDM (R391). -/
def execSpdm (s : State) : Host.Outcome State Fault Refusal := runCommand s 0x38 s.sel.bytes

/-- PATCH_LOAD (R393). -/
def execPatchLoad (s : State) : Host.Outcome State Fault Refusal := runCommand s 0x39 s.sel.bytes

/-- An SPDM request of a code: its other bytes are those given. -/
def spdmRequest (code : Nat) (bs : List Byte) : List Byte :=
  let b := pad (max 4 bs.length) bs
  [nth 0#8 b 0, BitVec.ofNat 8 code] ++ b.drop 2

/-- GET_VERSION (R391). -/
def execGetVersion (s : State) : Host.Outcome State Fault Refusal := runCommand s 0x38 (spdmRequest 0x84 s.sel.bytes)

/-- GET_CAPABILITIES (R391). -/
def execGetCapabilities (s : State) : Host.Outcome State Fault Refusal := runCommand s 0x38 (spdmRequest 0xE1 s.sel.bytes)

/-- NEGOTIATE_ALGORITHMS (R391). -/
def execNegotiateAlgorithms (s : State) : Host.Outcome State Fault Refusal := runCommand s 0x38 (spdmRequest 0xE3 s.sel.bytes)

/-- GET_DIGESTS (R391). -/
def execGetDigests (s : State) : Host.Outcome State Fault Refusal := runCommand s 0x38 (spdmRequest 0x81 s.sel.bytes)

/-- GET_CERTIFICATE (R391). -/
def execGetCertificate (s : State) : Host.Outcome State Fault Refusal := runCommand s 0x38 (spdmRequest 0x82 s.sel.bytes)

/-- CHALLENGE (R391). -/
def execChallenge (s : State) : Host.Outcome State Fault Refusal := runCommand s 0x38 (spdmRequest 0x83 s.sel.bytes)

/-- GET_MEASUREMENTS (R391). -/
def execGetMeasurements (s : State) : Host.Outcome State Fault Refusal := runCommand s 0x38 (spdmRequest 0xE0 s.sel.bytes)

/-- KEY_EXCHANGE (R391). -/
def execKeyExchange (s : State) : Host.Outcome State Fault Refusal := runCommand s 0x38 (spdmRequest 0xE4 s.sel.bytes)

/-- CHUNK_SEND (R385). -/
def execChunkSend (s : State) : Host.Outcome State Fault Refusal := runCommand s 0x38 (spdmRequest 0x85 s.sel.bytes)

/-- CHUNK_GET (R385). -/
def execChunkGet (s : State) : Host.Outcome State Fault Refusal := runCommand s 0x38 (spdmRequest 0x86 s.sel.bytes)

/-- RESET_WARM (R394). -/
def execResetWarm (s : State) : Host.Outcome State Fault Refusal := runCommand s 0x40 (bytesOfNat 4 0)

/-- RESET_COLD (R394). -/
def execResetCold (s : State) : Host.Outcome State Fault Refusal := runCommand s 0x40 (bytesOfNat 4 1)

/-- POWER_SET_ACTIVE (R395): `count` is the cap, or 0. -/
def execPowerSetActive (s : State) : Host.Outcome State Fault Refusal := runCommand s 0x41 (bytesOfNat 2 0 ++ bytesOfNat 2 s.sel.count)

/-- POWER_SET_STANDBY (R395): `count` is the cap, or 0. -/
def execPowerSetStandby (s : State) : Host.Outcome State Fault Refusal := runCommand s 0x41 (bytesOfNat 2 2 ++ bytesOfNat 2 s.sel.count)

/-- DOORBELL (R382). -/
def execDoorbell (s : State) : Host.Outcome State Fault Refusal :=
  .next (doorbell s s.sel.master (lowWord s.sel.value) s.sel.pick s.sel.bytes)

end Sys2Proof.Machine
end

