-- ==== Sys2Proof/Machine/Agenda.lean ====
section
/-! DEFINITION. What may happen next of itself, in a fixed order of preference (DESIGN CHOICE, log 3): the events of the device that the
state has under way. One that its rule does not allow yet changes nothing, and is passed over. -/

namespace Sys2Proof.Machine

/-! ## What a group has under way -/

def atGroup (core slot id part : Nat) : Sel := { Sel.none with core := core, slot := slot, id := id, part := part }

/-- The events of a pending operation. -/
def pendMoves (core slot : Nat) (p : Pend) : List Move :=
  let one := fun (i : Instr) => [Move.event i (atGroup core slot p.id 0)]
  match p.op with
  | .access a =>
    (dedup ((a.lanes.filter LaneAcc.open_).map fun l => l.part)).map fun n =>
      Move.event (match a.kind with | .load => .loadLand | .store => .storeDrain | _ => .atomicPerform) (atGroup core slot p.id n)
  | .kv _ => one .kvStatusLand
  | .kvCtl k =>
    (match k.op with
     | .kcommit => one .kvCommitPoint
     | .kdrop => one .kvCommitPoint
     | _ => one .kvStatusLand)
  | .long _ _ _ => one .longOpLand
  | .take _ _ => one .takeComplete
  | .arrive _ _ _ => one .arriveApply
  | .ctradd _ _ _ => one .ctraddApply
  | .ringl _ _ => one .ringlApply
  | .amerge _ _ _ _ _ _ _ _ => one .amergeFold
  | .rret _ _ => one .storeDrain
  | .pref _ _ _ => one .loadLand
  | _ => []

/-- The events that a group awaits. -/
def groupMoves (core slot : Nat) (g : Group) : List Move :=
  let one := fun (i : Instr) => [Move.event i (atGroup core slot 0 0)]
  g.pend.flatMap (pendMoves core slot)
    ++ (match g.wait with | .sync _ => one .syncActionsComplete | .sleep _ => one .sleepExpire | _ => [])
    ++ (if g.delivered.isEmpty then [] else one .deliveredFaultTrap)
    ++ (if g.due.isSome || g.gangLost then one .trapEntry else [])

/-! ## A core -/

def atCore (core : Nat) : Sel := { Sel.none with core := core }

/-- What a sequencer may do. -/
def seqMoves (core : Nat) (c : Core) : List Move :=
  let all := [Instr.passWritebackLand, .xsigApply, .xendPush, .seqClauseRetire, .seqClauseStart, .pairClauseStart, .seqIssue]
  if c.seqRun.isNone && c.seqQueue.isEmpty then [] else all.map fun i => Move.event i (atCore core)

/-- What an engine may do. -/
def engineMoves (core : Nat) (c : Core) (e : Engine) : List Move :=
  let cmds := (c.eng e).cmds.flatMap fun k =>
    let at_ := { atCore core with engine := e, id := k.id, count := 64 }
    [Instr.engineCommandRetire, .cgoSlotPublish, .lraddElementAdd, .rqzKvSwap, .engineCommandStart].map fun i => Move.event i at_
  (if (nth [] c.queues (entryQueue e)).isEmpty then [] else [Move.event .indirectCommand { atCore core with engine := e }]) ++ cmds

/-- What the tables of a core may do. -/
def tableMoves (core : Nat) (c : Core) : List Move :=
  ((List.range 4).filter fun t => (c.table t).open_).flatMap fun t =>
    [Instr.routeDispatch, .routeTimeout].map fun i => Move.event i { atCore core with table := t }

/-- The events of a core. -/
def coreMoves (core : Nat) (c : Core) : List Move :=
  c.groups.flatMap (fun p => groupMoves core p.1 p.2) ++ seqMoves core c
    ++ engineMoves core c .copy ++ engineMoves core c .quant ++ engineMoves core c .link ++ tableMoves core c

/-- The schedulers of a core: a run goes on, or one is selected. -/
def issueMoves (core : Nat) (c : Core) : List Move :=
  (List.range 4).flatMap fun k =>
    if (c.sched k).run.isSome then [Move.issue core k]
    else if c.groups.any (fun p => schedOf p.1 == k && !p.2.ended) then
      [Move.event .schedulerSelect { atCore core with sched := k }]
    else []

/-! ## The module -/

def byIndex (n : Nat) (i : Instr) : List Move := (List.range n).map fun k => Move.event i { Sel.none with index := k }

/-- Messages, walks, rows, returns and puts on their way. -/
def wayMoves (s : State) : List Move :=
  let die := fun (d : Nat) =>
    (if (s.die d).out.isEmpty then [] else [Move.event .bridgeMessageApply { Sel.none with die := d }])
      ++ (if (s.die d).walks.isEmpty then [] else [Move.event .tlbWalkComplete { Sel.none with die := d }])
  die 0 ++ die 1 ++ byIndex s.rowsOut.length .inboxLanding ++ byIndex s.returns.length .routeReturnArrival
    ++ byIndex s.puts.length .putAck ++ byIndex s.puts.length .putLanding

/-- Moves of KV pages between the tiers. -/
def kvMoves (s : State) : List Move :=
  s.kvs.flatMap fun k => (k.entries.filter fun e => e.fetch != 0).flatMap fun e =>
    let at_ := { Sel.none with ctx := k.id, seq := e.seq, head := e.head, page := e.page }
    [Move.event .kvFetchComplete at_, .event .kvEvictComplete at_]

/-- Groups of launches that are stopping. -/
def stoppingGroups (s : State) : List (Nat × Nat) :=
  s.launches.flatMap fun l => match l.phase with
    | .stopping _ => (s.liveGroups l.id).map fun x => (x.1, x.2.1)
    | _ => []

/-- What the firmware may do about launches. -/
def firmMoves (s : State) : List Move :=
  let launch := fun (l : Launch) =>
    let at_ := { Sel.none with launch := l.id }
    [Move.event .kernelBoundary at_, .event .contextSave at_, .event .contextRestore at_]
  (s.cores.flatMap fun p => p.2.blocks.map fun b => Move.event .blockEnd { atCore p.1 with launch := b.launch, block := b.index })
    ++ s.launches.flatMap launch
    ++ (stoppingGroups s).map (fun p => Move.event .preemptionStop (atGroup p.1 p.2 0 0))
    ++ (if s.launches.isEmpty then [] else [Move.event .blockPlacement Sel.none, .event .admission Sel.none])

/-- What may complete, or be done by the engines, the sequencers and the firmware. -/
def eventMoves (s : State) : List Move :=
  wayMoves s ++ s.cores.flatMap (fun p => coreMoves p.1 p.2) ++ kvMoves s ++ firmMoves s

/-- The schedulers, from the one whose turn it is on: none is passed over for good. -/
def turnMoves (s : State) : List Move :=
  let ms := s.cores.flatMap fun p => issueMoves p.1 p.2
  let n := s.turn % ms.length
  ms.drop n ++ ms.take n

end Sys2Proof.Machine
end

