-- ==== Sys2Proof/Machine/Convert.lean ====
section
/-! DEFINITION. Conversions of class V (03 R117 to R119, 04 R160, R161). -/

namespace Sys2Proof.Machine

/-- `cvt` (R119): a pattern of one kind as a pattern of another. An integer result is given sign-extended to 64 bits
(R160). `m` is the rounding mode, `an` the anchor of a WS96 destination. -/
def cvt (md : FpMode) (m : Rnd) (sk dk : TyKind) (an x : Nat) : Nat :=
  let md' := { md with rm := m }
  match sk, dk with
  | .int sg w, .int dg v => wrapInt (clampI (readInt sg w x) (intMin dg v) (intMax dg v)) 64
  | .int sg w, .flt f => rnd f md' (Num.ofInt (readInt sg w x))
  | .ws96, _ => wsTo x md'
  | .flt f, .int dg v => wrapInt (rndi dg v m (din md f x)) 64
  | .flt f, .flt d => if (dec f x).isNan then nanres md d [(f, x)] else rnd d md' (din md f x)
  | .flt f, .ws96 => wsFrom (din md f x) an m
  | _, _ => 0

/-- A source of CVT: one register, a pair, or the three registers of a WS96 value (R128). -/
def cvtSrc (s : State) (x : Issuer) (t : Nat) (scalar : Bool) (n l : Nat) : Nat :=
  if t = 15 then (vget s x n l).toNat + 2 ^ 32 * (vget s x (n + 1) l).toNat + 2 ^ 64 * (vget s x (n + 2) l).toNat
  else srcPattern s x (wideType t) scalar n l

/-- The registers that a result of CVT fills (R160). -/
def cvtWrites (t d l v : Nat) : List (Nat × Nat × Word) :=
  if t = 15 then
    [(d, l, BitVec.ofNat 32 v), (d + 1, l, BitVec.ofNat 32 (v / 2 ^ 32)), (d + 2, l, BitVec.ofNat 32 (v / 2 ^ 64))]
  else laneWrites (wideType t) d l v

/-- The rounding mode of a conversion: stochastic with the random value u under `.sr` (R160). -/
def cvtRnd (x : Issuer) (sr : Bool) (u : Nat) : Rnd := if sr then .sr (u % 65536) else (fpMode x).rm

/-- CVT (R160). -/
def convert (s : State) (i : Instr) (w : Base) (e : ExtR) : Host.Outcome State Fault Refusal :=
  runInstr s i fun x m =>
    let t := e.type.toNat
    let d := (e.mod.extractLsb' 0 5).toNat
    let fs := x.l.rec_.formats
    let r := fun l =>
      cvt (fpMode x) (cvtRnd x (e.mod.getLsbD 5) (val32 s x e.sc e.c.toNat l).toNat) (tyKind fs t) (tyKind fs d)
        ((val32 s x e.sb w.b.toNat l).toNat % 256) (cvtSrc s x t e.sa w.a.toNat l)
    if e.sd then .done (sset s x w.d.toNat (BitVec.ofNat 64 (r (elect m))))
    else .done (vsets s x ((lanesOf m).flatMap fun l => cvtWrites d w.d.toNat l (r l)))

/-- CVTP (R161): packs two FP32 values, or unpacks a pair; element 1 takes its random bits from bits 31:16. -/
def convertPair (s : State) (i : Instr) (w : Base) (e : ExtR) : Host.Outcome State Fault Refusal :=
  runInstr s i fun x m =>
    let t := e.type.toNat
    let d := (e.mod.extractLsb' 0 5).toNat
    let sr := e.mod.getLsbD 5
    let sk := tyKind [] t
    let dk := tyKind [] d
    let a := fun l => (val32 s x e.sa w.a.toNat l).toNat
    let b := fun l => (val32 s x e.sb w.b.toNat l).toNat
    let u := fun l => (val32 s x e.sc e.c.toNat l).toNat
    if d = 9 then
      .done (vsets s x ((lanesOf m).flatMap fun l =>
        [(w.d.toNat, l, BitVec.ofNat 32 (cvt (fpMode x) (fpMode x).rm sk dk 0 (a l % 65536))),
         (w.d.toNat + 1, l, BitVec.ofNat 32 (cvt (fpMode x) (fpMode x).rm sk dk 0 (a l / 65536)))]))
    else
      let width := if d = 10 ∨ d = 11 then 65536 else if d = 14 then 16 else 256
      let r := fun l => cvt (fpMode x) (cvtRnd x sr (u l)) sk dk 0 (a l)
        + width * cvt (fpMode x) (cvtRnd x sr (u l / 65536)) sk dk 0 (b l)
      .done (putResult s x m e.sd w.d.toNat 9 r)

/-- CVT (R160). -/
def execCvt (w : Base) (x : ExtR) (s : State) : Host.Outcome State Fault Refusal :=
  convert s (.cvt w x) w x

/-- CVTP (R161). -/
def execCvtp (w : Base) (x : ExtR) (s : State) : Host.Outcome State Fault Refusal :=
  convertPair s (.cvtp w x) w x

end Sys2Proof.Machine
end

