-- ==== Sys2Proof/Machine/Integer.lean ====
section
/-! DEFINITION. Integer arithmetic of class V (04 R144): the result is computed on mathematical integers and narrowed
at the end. -/

namespace Sys2Proof.Machine

inductive IntOp where
  | add | sub | mul | mulh | mad | min | max | abs | neg | sad
  deriving DecidableEq, Repr

/-- The exact result before narrowing. -/
def IntOp.exact (op : IntOp) (n : Nat) (a b c : Int) : Int :=
  match op with
  | .add => a + b
  | .sub => a - b
  | .mul => a * b
  | .mulh => a * b / (2 ^ n : Int)
  | .mad => a * b + c
  | .min => if a ≤ b then a else b
  | .max => if a ≤ b then b else a
  | .abs => (a.natAbs : Int)
  | .neg => -a
  | .sad => ((a - b).natAbs : Int) + c

/-- Opcodes that accept `.sat`. -/
def IntOp.saturates : IntOp → Bool
  | .add => true | .sub => true | .abs => true | .neg => true | _ => false

/-- The result pattern at a type. -/
def intResult (op : IntOp) (t : Nat) (sat : Bool) (a b c : Nat) : Nat :=
  let n := typeBits t
  let sg := signedType t
  let v := op.exact n (readInt sg n a) (readInt sg n b) (readInt sg n c)
  wrapInt (if sat && op.saturates then clampI v (intMin sg n) (intMax sg n) else v) n

def intOp (s : State) (i : Instr) (w : Base) (e : ExtRI) (op : IntOp) : Host.Outcome State Fault Refusal :=
  laneOp s i w e fun _ v l => intResult op v.type (v.mod.testBit 0) (v.a l) (v.b l) (v.c l)

/-- Integer opcodes of layout R alone. -/
def intOpR (s : State) (i : Instr) (w : Base) (e : ExtR) (op : IntOp) : Host.Outcome State Fault Refusal :=
  intOp s i w (.r e) op

/-- IADD (R144). Short form (R69). -/
def execIadd (w : Base) (s : State) : Host.Outcome State Fault Refusal :=
  intOp s (.iadd w) w (.r (shortR 2)) .add

/-- IADD (R144). -/
def execIaddLong (w : Base) (x : ExtRI) (s : State) : Host.Outcome State Fault Refusal :=
  intOp s (.iaddLong w x) w x .add

/-- ISUB (R144). Short form (R69). -/
def execIsub (w : Base) (s : State) : Host.Outcome State Fault Refusal :=
  intOp s (.isub w) w (.r (shortR 2)) .sub

/-- ISUB (R144). -/
def execIsubLong (w : Base) (x : ExtRI) (s : State) : Host.Outcome State Fault Refusal :=
  intOp s (.isubLong w x) w x .sub

/-- IMUL (R144). Short form (R69). -/
def execImul (w : Base) (s : State) : Host.Outcome State Fault Refusal :=
  intOp s (.imul w) w (.r (shortR 2)) .mul

/-- IMUL (R144). -/
def execImulLong (w : Base) (x : ExtRI) (s : State) : Host.Outcome State Fault Refusal :=
  intOp s (.imulLong w x) w x .mul

/-- IMULH (R144). Short form (R69). -/
def execImulh (w : Base) (s : State) : Host.Outcome State Fault Refusal :=
  intOp s (.imulh w) w (.r (shortR 2)) .mulh

/-- IMULH (R144). -/
def execImulhLong (w : Base) (x : ExtRI) (s : State) : Host.Outcome State Fault Refusal :=
  intOp s (.imulhLong w x) w x .mulh

/-- IMAD (R144). -/
def execImad (w : Base) (x : ExtR) (s : State) : Host.Outcome State Fault Refusal :=
  intOpR s (.imad w x) w x .mad

/-- IMIN (R144). Short form (R69). -/
def execImin (w : Base) (s : State) : Host.Outcome State Fault Refusal :=
  intOp s (.imin w) w (.r (shortR 2)) .min

/-- IMIN (R144). -/
def execIminLong (w : Base) (x : ExtRI) (s : State) : Host.Outcome State Fault Refusal :=
  intOp s (.iminLong w x) w x .min

/-- IMAX (R144). Short form (R69). -/
def execImax (w : Base) (s : State) : Host.Outcome State Fault Refusal :=
  intOp s (.imax w) w (.r (shortR 2)) .max

/-- IMAX (R144). -/
def execImaxLong (w : Base) (x : ExtRI) (s : State) : Host.Outcome State Fault Refusal :=
  intOp s (.imaxLong w x) w x .max

/-- IABS (R144). Short form (R69). -/
def execIabs (w : Base) (s : State) : Host.Outcome State Fault Refusal :=
  intOp s (.iabs w) w (.r (shortR 2)) .abs

/-- IABS (R144). -/
def execIabsLong (w : Base) (x : ExtRI) (s : State) : Host.Outcome State Fault Refusal :=
  intOp s (.iabsLong w x) w x .abs

/-- INEG (R144). Short form (R69). -/
def execIneg (w : Base) (s : State) : Host.Outcome State Fault Refusal :=
  intOp s (.ineg w) w (.r (shortR 2)) .neg

/-- INEG (R144). -/
def execInegLong (w : Base) (x : ExtRI) (s : State) : Host.Outcome State Fault Refusal :=
  intOp s (.inegLong w x) w x .neg

/-- ISAD (R144). -/
def execIsad (w : Base) (x : ExtR) (s : State) : Host.Outcome State Fault Refusal :=
  intOpR s (.isad w x) w x .sad

end Sys2Proof.Machine
end

