-- ==== Sys2Proof/Machine/Logic.lean ====
section
/-! DEFINITION. Logic, shifts and bit fields of class V (04 R145), on n-bit patterns. -/

namespace Sys2Proof.Machine

inductive BitOp where
  | and | or | xor | andn | not | shl | shr | sar | rotl | popc | clz | brev | bfx | bfi | perm
  deriving DecidableEq, Repr

/-- Number of 1 bits below bit n. -/
def popCount : Nat → Nat → Nat
  | 0, _ => 0
  | n + 1, a => a % 2 + popCount n (a / 2)

/-- Bit i of the result is bit n − 1 − i of a. -/
def bitReverse : Nat → Nat → Nat
  | 0, _ => 0
  | n + 1, a => a % 2 * 2 ^ n + bitReverse n (a / 2)

/-- One byte of PERM's result: zero, or the selected byte of B over A. -/
def permByte (ab c i : Nat) : Nat :=
  let e := c / 16 ^ i % 16
  if 8 ≤ e then 0 else ab / 256 ^ (e % 8) % 256

/-- The result pattern of n bits; `sg` tells a signed type. -/
def bitResult (op : BitOp) (n : Nat) (sg : Bool) (a b c : Nat) : Nat :=
  let s := b % 256
  match op with
  | .and => a &&& b
  | .or => a ||| b
  | .xor => a ^^^ b
  | .andn => a &&& (b ^^^ (2 ^ n - 1))
  | .not => a ^^^ (2 ^ n - 1)
  | .shl => if n ≤ s then 0 else a * 2 ^ s % 2 ^ n
  | .shr => if n ≤ s then 0 else a / 2 ^ s
  | .sar => wrapInt (readInt true n a / (2 ^ (if s < n then s else n - 1) : Int)) n
  | .rotl => a * 2 ^ (s % n) % 2 ^ n + a / 2 ^ (n - s % n)
  | .popc => popCount n a
  | .clz => if a = 0 then n else n - 1 - a.log2
  | .brev => bitReverse n a
  | .bfx =>
    let w := min (b / 256 % 256) n
    let f := a / 2 ^ s % 2 ^ w
    if sg && decide (0 < w) then wrapInt (readInt true w f) n else f
  | .bfi =>
    let p := c % 256
    let w := min (c / 256 % 256) n
    let m := (2 ^ w - 1) * 2 ^ p % 2 ^ n
    (a &&& (m ^^^ (2 ^ n - 1))) ||| (b * 2 ^ p % 2 ^ n &&& m)
  | .perm =>
    let ab := b * 2 ^ 32 + a
    permByte ab c 0 + 256 * permByte ab c 1 + 65536 * permByte ab c 2 + 16777216 * permByte ab c 3

def bitOp (s : State) (i : Instr) (w : Base) (e : ExtRI) (op : BitOp) : Host.Outcome State Fault Refusal :=
  laneOp s i w e fun _ v l => bitResult op (typeBits v.type) (signedType v.type) (v.a l) (v.b l) (v.c l)

def bitOpR (s : State) (i : Instr) (w : Base) (e : ExtR) (op : BitOp) : Host.Outcome State Fault Refusal :=
  bitOp s i w (.r e) op

/-- AND (R145). Short form (R69). -/
def execAndW (w : Base) (s : State) : Host.Outcome State Fault Refusal :=
  bitOp s (.andW w) w (.r (shortR 8)) .and

/-- AND (R145). -/
def execAndLong (w : Base) (x : ExtRI) (s : State) : Host.Outcome State Fault Refusal :=
  bitOp s (.andLong w x) w x .and

/-- OR (R145). Short form (R69). -/
def execOrW (w : Base) (s : State) : Host.Outcome State Fault Refusal :=
  bitOp s (.orW w) w (.r (shortR 8)) .or

/-- OR (R145). -/
def execOrLong (w : Base) (x : ExtRI) (s : State) : Host.Outcome State Fault Refusal :=
  bitOp s (.orLong w x) w x .or

/-- XOR (R145). Short form (R69). -/
def execXorW (w : Base) (s : State) : Host.Outcome State Fault Refusal :=
  bitOp s (.xorW w) w (.r (shortR 8)) .xor

/-- XOR (R145). -/
def execXorLong (w : Base) (x : ExtRI) (s : State) : Host.Outcome State Fault Refusal :=
  bitOp s (.xorLong w x) w x .xor

/-- ANDN (R145). Short form (R69). -/
def execAndn (w : Base) (s : State) : Host.Outcome State Fault Refusal :=
  bitOp s (.andn w) w (.r (shortR 8)) .andn

/-- ANDN (R145). -/
def execAndnLong (w : Base) (x : ExtRI) (s : State) : Host.Outcome State Fault Refusal :=
  bitOp s (.andnLong w x) w x .andn

/-- NOT (R145). Short form (R69). -/
def execNotW (w : Base) (s : State) : Host.Outcome State Fault Refusal :=
  bitOp s (.notW w) w (.r (shortR 8)) .not

/-- NOT (R145). -/
def execNotLong (w : Base) (x : ExtRI) (s : State) : Host.Outcome State Fault Refusal :=
  bitOp s (.notLong w x) w x .not

/-- SHL (R145). Short form (R69). -/
def execShl (w : Base) (s : State) : Host.Outcome State Fault Refusal :=
  bitOp s (.shl w) w (.r (shortR 8)) .shl

/-- SHL (R145). -/
def execShlLong (w : Base) (x : ExtRI) (s : State) : Host.Outcome State Fault Refusal :=
  bitOp s (.shlLong w x) w x .shl

/-- SHR (R145). Short form (R69). -/
def execShr (w : Base) (s : State) : Host.Outcome State Fault Refusal :=
  bitOp s (.shr w) w (.r (shortR 8)) .shr

/-- SHR (R145). -/
def execShrLong (w : Base) (x : ExtRI) (s : State) : Host.Outcome State Fault Refusal :=
  bitOp s (.shrLong w x) w x .shr

/-- SAR (R145). Short form (R69). -/
def execSar (w : Base) (s : State) : Host.Outcome State Fault Refusal :=
  bitOp s (.sar w) w (.r (shortR 8)) .sar

/-- SAR (R145). -/
def execSarLong (w : Base) (x : ExtRI) (s : State) : Host.Outcome State Fault Refusal :=
  bitOp s (.sarLong w x) w x .sar

/-- ROTL (R145). Short form (R69). -/
def execRotl (w : Base) (s : State) : Host.Outcome State Fault Refusal :=
  bitOp s (.rotl w) w (.r (shortR 8)) .rotl

/-- ROTL (R145). -/
def execRotlLong (w : Base) (x : ExtRI) (s : State) : Host.Outcome State Fault Refusal :=
  bitOp s (.rotlLong w x) w x .rotl

/-- POPC (R145). Short form (R69). -/
def execPopc (w : Base) (s : State) : Host.Outcome State Fault Refusal :=
  bitOp s (.popc w) w (.r (shortR 8)) .popc

/-- POPC (R145). -/
def execPopcLong (w : Base) (x : ExtRI) (s : State) : Host.Outcome State Fault Refusal :=
  bitOp s (.popcLong w x) w x .popc

/-- CLZ (R145). Short form (R69). -/
def execClz (w : Base) (s : State) : Host.Outcome State Fault Refusal :=
  bitOp s (.clz w) w (.r (shortR 8)) .clz

/-- CLZ (R145). -/
def execClzLong (w : Base) (x : ExtRI) (s : State) : Host.Outcome State Fault Refusal :=
  bitOp s (.clzLong w x) w x .clz

/-- BREV (R145). Short form (R69). -/
def execBrev (w : Base) (s : State) : Host.Outcome State Fault Refusal :=
  bitOp s (.brev w) w (.r (shortR 8)) .brev

/-- BREV (R145). -/
def execBrevLong (w : Base) (x : ExtRI) (s : State) : Host.Outcome State Fault Refusal :=
  bitOp s (.brevLong w x) w x .brev

/-- BFX (R145). Short form (R69). -/
def execBfx (w : Base) (s : State) : Host.Outcome State Fault Refusal :=
  bitOp s (.bfx w) w (.r (shortR 8)) .bfx

/-- BFX (R145). -/
def execBfxLong (w : Base) (x : ExtRI) (s : State) : Host.Outcome State Fault Refusal :=
  bitOp s (.bfxLong w x) w x .bfx

/-- BFI (R145). -/
def execBfi (w : Base) (x : ExtR) (s : State) : Host.Outcome State Fault Refusal :=
  bitOpR s (.bfi w x) w x .bfi

/-- PERM (R145). -/
def execPerm (w : Base) (x : ExtR) (s : State) : Host.Outcome State Fault Refusal :=
  bitOpR s (.perm w x) w x .perm

end Sys2Proof.Machine
end

