-- ==== Sys2Proof/Machine/Dispatch.lean ====
section
/-! DEFINITION. One arm for each constructor of Instr: what it does is the definition the arm calls. -/

namespace Sys2Proof.Machine

def exec (i : Instr) (s : State) : Host.Outcome State Fault Refusal :=
  match i with
  | .unassignedOpcode cls base ext => Sys2Proof.Machine.execUnassignedOpcode cls base ext s
  | .iadd w => Sys2Proof.Machine.execIadd w s
  | .iaddLong w x => Sys2Proof.Machine.execIaddLong w x s
  | .isub w => Sys2Proof.Machine.execIsub w s
  | .isubLong w x => Sys2Proof.Machine.execIsubLong w x s
  | .imul w => Sys2Proof.Machine.execImul w s
  | .imulLong w x => Sys2Proof.Machine.execImulLong w x s
  | .imulh w => Sys2Proof.Machine.execImulh w s
  | .imulhLong w x => Sys2Proof.Machine.execImulhLong w x s
  | .imad w x => Sys2Proof.Machine.execImad w x s
  | .imin w => Sys2Proof.Machine.execImin w s
  | .iminLong w x => Sys2Proof.Machine.execIminLong w x s
  | .imax w => Sys2Proof.Machine.execImax w s
  | .imaxLong w x => Sys2Proof.Machine.execImaxLong w x s
  | .iabs w => Sys2Proof.Machine.execIabs w s
  | .iabsLong w x => Sys2Proof.Machine.execIabsLong w x s
  | .ineg w => Sys2Proof.Machine.execIneg w s
  | .inegLong w x => Sys2Proof.Machine.execInegLong w x s
  | .isad w x => Sys2Proof.Machine.execIsad w x s
  | .andW w => Sys2Proof.Machine.execAndW w s
  | .andLong w x => Sys2Proof.Machine.execAndLong w x s
  | .orW w => Sys2Proof.Machine.execOrW w s
  | .orLong w x => Sys2Proof.Machine.execOrLong w x s
  | .xorW w => Sys2Proof.Machine.execXorW w s
  | .xorLong w x => Sys2Proof.Machine.execXorLong w x s
  | .andn w => Sys2Proof.Machine.execAndn w s
  | .andnLong w x => Sys2Proof.Machine.execAndnLong w x s
  | .notW w => Sys2Proof.Machine.execNotW w s
  | .notLong w x => Sys2Proof.Machine.execNotLong w x s
  | .shl w => Sys2Proof.Machine.execShl w s
  | .shlLong w x => Sys2Proof.Machine.execShlLong w x s
  | .shr w => Sys2Proof.Machine.execShr w s
  | .shrLong w x => Sys2Proof.Machine.execShrLong w x s
  | .sar w => Sys2Proof.Machine.execSar w s
  | .sarLong w x => Sys2Proof.Machine.execSarLong w x s
  | .rotl w => Sys2Proof.Machine.execRotl w s
  | .rotlLong w x => Sys2Proof.Machine.execRotlLong w x s
  | .popc w => Sys2Proof.Machine.execPopc w s
  | .popcLong w x => Sys2Proof.Machine.execPopcLong w x s
  | .clz w => Sys2Proof.Machine.execClz w s
  | .clzLong w x => Sys2Proof.Machine.execClzLong w x s
  | .brev w => Sys2Proof.Machine.execBrev w s
  | .brevLong w x => Sys2Proof.Machine.execBrevLong w x s
  | .bfx w => Sys2Proof.Machine.execBfx w s
  | .bfxLong w x => Sys2Proof.Machine.execBfxLong w x s
  | .bfi w x => Sys2Proof.Machine.execBfi w x s
  | .perm w x => Sys2Proof.Machine.execPerm w x s
  | .icmp w x => Sys2Proof.Machine.execIcmp w x s
  | .fcmp w x => Sys2Proof.Machine.execFcmp w x s
  | .sel w x => Sys2Proof.Machine.execSel w x s
  | .plop w x => Sys2Proof.Machine.execPlop w x s
  | .mov w => Sys2Proof.Machine.execMov w s
  | .movLong w x => Sys2Proof.Machine.execMovLong w x s
  | .movi w imm => Sys2Proof.Machine.execMovi w imm s
  | .lea w => Sys2Proof.Machine.execLea w s
  | .leaLong w x => Sys2Proof.Machine.execLeaLong w x s
  | .fadd w => Sys2Proof.Machine.execFadd w s
  | .faddLong w x => Sys2Proof.Machine.execFaddLong w x s
  | .fsub w => Sys2Proof.Machine.execFsub w s
  | .fsubLong w x => Sys2Proof.Machine.execFsubLong w x s
  | .fmul w => Sys2Proof.Machine.execFmul w s
  | .fmulLong w x => Sys2Proof.Machine.execFmulLong w x s
  | .ffma w x => Sys2Proof.Machine.execFfma w x s
  | .fmin w => Sys2Proof.Machine.execFmin w s
  | .fminLong w x => Sys2Proof.Machine.execFminLong w x s
  | .fmax w => Sys2Proof.Machine.execFmax w s
  | .fmaxLong w x => Sys2Proof.Machine.execFmaxLong w x s
  | .fscl w => Sys2Proof.Machine.execFscl w s
  | .fsclLong w x => Sys2Proof.Machine.execFsclLong w x s
  | .frnd w => Sys2Proof.Machine.execFrnd w s
  | .frndLong w x => Sys2Proof.Machine.execFrndLong w x s
  | .hadd2 w => Sys2Proof.Machine.execHadd2 w s
  | .hadd2Long w x => Sys2Proof.Machine.execHadd2Long w x s
  | .hmul2 w => Sys2Proof.Machine.execHmul2 w s
  | .hmul2Long w x => Sys2Proof.Machine.execHmul2Long w x s
  | .hfma2 w x => Sys2Proof.Machine.execHfma2 w x s
  | .frcp w => Sys2Proof.Machine.execFrcp w s
  | .frcpLong w x => Sys2Proof.Machine.execFrcpLong w x s
  | .frsq w => Sys2Proof.Machine.execFrsq w s
  | .frsqLong w x => Sys2Proof.Machine.execFrsqLong w x s
  | .fsqrt w => Sys2Proof.Machine.execFsqrt w s
  | .fsqrtLong w x => Sys2Proof.Machine.execFsqrtLong w x s
  | .fexp2 w => Sys2Proof.Machine.execFexp2 w s
  | .fexp2Long w x => Sys2Proof.Machine.execFexp2Long w x s
  | .flog2 w => Sys2Proof.Machine.execFlog2 w s
  | .flog2Long w x => Sys2Proof.Machine.execFlog2Long w x s
  | .fsin w => Sys2Proof.Machine.execFsin w s
  | .fsinLong w x => Sys2Proof.Machine.execFsinLong w x s
  | .fcos w => Sys2Proof.Machine.execFcos w s
  | .fcosLong w x => Sys2Proof.Machine.execFcosLong w x s
  | .ftanh w => Sys2Proof.Machine.execFtanh w s
  | .ftanhLong w x => Sys2Proof.Machine.execFtanhLong w x s
  | .cvt w x => Sys2Proof.Machine.execCvt w x s
  | .cvtp w x => Sys2Proof.Machine.execCvtp w x s
  | .shfl w => Sys2Proof.Machine.execShfl w s
  | .shflLong w x => Sys2Proof.Machine.execShflLong w x s
  | .ballot w => Sys2Proof.Machine.execBallot w s
  | .ballotLong w x => Sys2Proof.Machine.execBallotLong w x s
  | .vote w => Sys2Proof.Machine.execVote w s
  | .voteLong w x => Sys2Proof.Machine.execVoteLong w x s
  | .redux w => Sys2Proof.Machine.execRedux w s
  | .reduxLong w x => Sys2Proof.Machine.execReduxLong w x s
  | .scan w => Sys2Proof.Machine.execScan w s
  | .scanLong w x => Sys2Proof.Machine.execScanLong w x s
  | .bcast w => Sys2Proof.Machine.execBcast w s
  | .bcastLong w x => Sys2Proof.Machine.execBcastLong w x s
  | .vrand w x => Sys2Proof.Machine.execVrand w x s
  | .bra w x => Sys2Proof.Machine.execBra w x s
  | .bri w => Sys2Proof.Machine.execBri w s
  | .briLong w x => Sys2Proof.Machine.execBriLong w x s
  | .call w x => Sys2Proof.Machine.execCall w x s
  | .ret w => Sys2Proof.Machine.execRet w s
  | .retLong w x => Sys2Proof.Machine.execRetLong w x s
  | .conv w => Sys2Proof.Machine.execConv w s
  | .convLong w x => Sys2Proof.Machine.execConvLong w x s
  | .lyield w => Sys2Proof.Machine.execLyield w s
  | .lyieldLong w x => Sys2Proof.Machine.execLyieldLong w x s
  | .prio w => Sys2Proof.Machine.execPrio w s
  | .prioLong w x => Sys2Proof.Machine.execPrioLong w x s
  | .exit w => Sys2Proof.Machine.execExit w s
  | .exitLong w x => Sys2Proof.Machine.execExitLong w x s
  | .nop w => Sys2Proof.Machine.execNop w s
  | .nopLong w x => Sys2Proof.Machine.execNopLong w x s
  | .sld w => Sys2Proof.Machine.execSld w s
  | .sldLong w x => Sys2Proof.Machine.execSldLong w x s
  | .sst w => Sys2Proof.Machine.execSst w s
  | .sstLong w x => Sys2Proof.Machine.execSstLong w x s
  | .satom w x => Sys2Proof.Machine.execSatom w x s
  | .cld w => Sys2Proof.Machine.execCld w s
  | .cldLong w x => Sys2Proof.Machine.execCldLong w x s
  | .cst w => Sys2Proof.Machine.execCst w s
  | .cstLong w x => Sys2Proof.Machine.execCstLong w x s
  | .catom w x => Sys2Proof.Machine.execCatom w x s
  | .gld w => Sys2Proof.Machine.execGld w s
  | .gldLong w x => Sys2Proof.Machine.execGldLong w x s
  | .gst w => Sys2Proof.Machine.execGst w s
  | .gstLong w x => Sys2Proof.Machine.execGstLong w x s
  | .gatom w x => Sys2Proof.Machine.execGatom w x s
  | .gred w x => Sys2Proof.Machine.execGred w x s
  | .hld w => Sys2Proof.Machine.execHld w s
  | .hldLong w x => Sys2Proof.Machine.execHldLong w x s
  | .hst w => Sys2Proof.Machine.execHst w s
  | .hstLong w x => Sys2Proof.Machine.execHstLong w x s
  | .pld w x => Sys2Proof.Machine.execPld w x s
  | .put w x => Sys2Proof.Machine.execPut w x s
  | .patom w x => Sys2Proof.Machine.execPatom w x s
  | .kld w x => Sys2Proof.Machine.execKld w x s
  | .kst w x => Sys2Proof.Machine.execKst w x s
  | .ksts w x => Sys2Proof.Machine.execKsts w x s
  | .fence w => Sys2Proof.Machine.execFence w s
  | .fenceLong w x => Sys2Proof.Machine.execFenceLong w x s
  | .fenceWalk w x => Sys2Proof.Machine.execFenceWalk w x s
  | .acq w => Sys2Proof.Machine.execAcq w s
  | .acqLong w x => Sys2Proof.Machine.execAcqLong w x s
  | .acqRemote w x => Sys2Proof.Machine.execAcqRemote w x s
  | .rel w => Sys2Proof.Machine.execRel w s
  | .relLong w x => Sys2Proof.Machine.execRelLong w x s
  | .pref w => Sys2Proof.Machine.execPref w s
  | .prefLong w x => Sys2Proof.Machine.execPrefLong w x s
  | .bare w x => Sys2Proof.Machine.execBare w x s
  | .bara w x => Sys2Proof.Machine.execBara w x s
  | .barw w x => Sys2Proof.Machine.execBarw w x s
  | .baraw w x => Sys2Proof.Machine.execBaraw w x s
  | .give w x => Sys2Proof.Machine.execGive w x s
  | .take w x => Sys2Proof.Machine.execTake w x s
  | .ownq w x => Sys2Proof.Machine.execOwnq w x s
  | .ctradd w x => Sys2Proof.Machine.execCtradd w x s
  | .ctrwait w x => Sys2Proof.Machine.execCtrwait w x s
  | .ctrrd w x => Sys2Proof.Machine.execCtrrd w x s
  | .ringwFill w x => Sys2Proof.Machine.execRingwFill w x s
  | .ringwFree w x => Sys2Proof.Machine.execRingwFree w x s
  | .ringlFill w x => Sys2Proof.Machine.execRinglFill w x s
  | .ringlFree w x => Sys2Proof.Machine.execRinglFree w x s
  | .ringq w x => Sys2Proof.Machine.execRingq w x s
  | .mm w => Sys2Proof.Machine.execMm w s
  | .mmz w => Sys2Proof.Machine.execMmz w s
  | .scl w => Sys2Proof.Machine.execScl w s
  | .strm w => Sys2Proof.Machine.execStrm w s
  | .panel w => Sys2Proof.Machine.execPanel w s
  | .iterImm w => Sys2Proof.Machine.execIterImm w s
  | .iterReg w => Sys2Proof.Machine.execIterReg w s
  | .loop w => Sys2Proof.Machine.execLoop w s
  | .xgive w => Sys2Proof.Machine.execXgive w s
  | .xtake w => Sys2Proof.Machine.execXtake w s
  | .xsig w => Sys2Proof.Machine.execXsig w s
  | .xsigBar w => Sys2Proof.Machine.execXsigBar w s
  | .xwait w => Sys2Proof.Machine.execXwait w s
  | .xend w => Sys2Proof.Machine.execXend w s
  | .cnest w x => Sys2Proof.Machine.execCnest w x s
  | .cgo w x => Sys2Proof.Machine.execCgo w x s
  | .cpy w x => Sys2Proof.Machine.execCpy w x s
  | .cred w x => Sys2Proof.Machine.execCred w x s
  | .qtz w x => Sys2Proof.Machine.execQtz w x s
  | .dqz w x => Sys2Proof.Machine.execDqz w x s
  | .rqz w x => Sys2Proof.Machine.execRqz w x s
  | .rqzKv w x => Sys2Proof.Machine.execRqzKv w x s
  | .lsend w x => Sys2Proof.Machine.execLsend w x s
  | .lsendPort w x => Sys2Proof.Machine.execLsendPort w x s
  | .lradd w x => Sys2Proof.Machine.execLradd w x s
  | .lwin w x => Sys2Proof.Machine.execLwin w x s
  | .qpush w => Sys2Proof.Machine.execQpush w s
  | .qpushLong w x => Sys2Proof.Machine.execQpushLong w x s
  | .qpop w => Sys2Proof.Machine.execQpop w s
  | .qpopLong w x => Sys2Proof.Machine.execQpopLong w x s
  | .kopen w x => Sys2Proof.Machine.execKopen w x s
  | .kcommit w x => Sys2Proof.Machine.execKcommit w x s
  | .kdrop w x => Sys2Proof.Machine.execKdrop w x s
  | .kmapAlloc w x => Sys2Proof.Machine.execKmapAlloc w x s
  | .kmapFree w x => Sys2Proof.Machine.execKmapFree w x s
  | .kmapFetch w x => Sys2Proof.Machine.execKmapFetch w x s
  | .kmapEvict w x => Sys2Proof.Machine.execKmapEvict w x s
  | .kmapLen w x => Sys2Proof.Machine.execKmapLen w x s
  | .kmapQuery w x => Sys2Proof.Machine.execKmapQuery w x s
  | .route w x => Sys2Proof.Machine.execRoute w x s
  | .rret w x => Sys2Proof.Machine.execRret w x s
  | .rxwait w x => Sys2Proof.Machine.execRxwait w x s
  | .rxstat w x => Sys2Proof.Machine.execRxstat w x s
  | .amerge w x => Sys2Proof.Machine.execAmerge w x s
  | .smxup w x => Sys2Proof.Machine.execSmxup w x s
  | .sread w x => Sys2Proof.Machine.execSread w x s
  | .swrite w x => Sys2Proof.Machine.execSwrite w x s
  | .mode w x => Sys2Proof.Machine.execMode w x s
  | .trap w x => Sys2Proof.Machine.execTrap w x s
  | .rett w => Sys2Proof.Machine.execRett w s
  | .rettLong w x => Sys2Proof.Machine.execRettLong w x s
  | .sleep w x => Sys2Proof.Machine.execSleep w x s
  | .schedulerSelect => Sys2Proof.Machine.execSchedulerSelect s
  | .trapEntry => Sys2Proof.Machine.execTrapEntry s
  | .deliveredFaultTrap => Sys2Proof.Machine.execDeliveredFaultTrap s
  | .loadLand => Sys2Proof.Machine.execLoadLand s
  | .storeDrain => Sys2Proof.Machine.execStoreDrain s
  | .longOpLand => Sys2Proof.Machine.execLongOpLand s
  | .takeComplete => Sys2Proof.Machine.execTakeComplete s
  | .arriveApply => Sys2Proof.Machine.execArriveApply s
  | .ctraddApply => Sys2Proof.Machine.execCtraddApply s
  | .ringlApply => Sys2Proof.Machine.execRinglApply s
  | .sleepExpire => Sys2Proof.Machine.execSleepExpire s
  | .syncActionsComplete => Sys2Proof.Machine.execSyncActionsComplete s
  | .atomicPerform => Sys2Proof.Machine.execAtomicPerform s
  | .bridgeMessageApply => Sys2Proof.Machine.execBridgeMessageApply s
  | .blockEnd => Sys2Proof.Machine.execBlockEnd s
  | .xclauseHandoff => Sys2Proof.Machine.execXclauseHandoff s
  | .seqClauseStart => Sys2Proof.Machine.execSeqClauseStart s
  | .pairClauseStart => Sys2Proof.Machine.execPairClauseStart s
  | .seqIssue => Sys2Proof.Machine.execSeqIssue s
  | .passWritebackLand => Sys2Proof.Machine.execPassWritebackLand s
  | .xsigApply => Sys2Proof.Machine.execXsigApply s
  | .xendPush => Sys2Proof.Machine.execXendPush s
  | .seqClauseRetire => Sys2Proof.Machine.execSeqClauseRetire s
  | .engineCommandStart => Sys2Proof.Machine.execEngineCommandStart s
  | .engineCommandRetire => Sys2Proof.Machine.execEngineCommandRetire s
  | .cgoSlotPublish => Sys2Proof.Machine.execCgoSlotPublish s
  | .indirectCommand => Sys2Proof.Machine.execIndirectCommand s
  | .lraddElementAdd => Sys2Proof.Machine.execLraddElementAdd s
  | .routeDispatch => Sys2Proof.Machine.execRouteDispatch s
  | .inboxLanding => Sys2Proof.Machine.execInboxLanding s
  | .routeReturnArrival => Sys2Proof.Machine.execRouteReturnArrival s
  | .routeTimeout => Sys2Proof.Machine.execRouteTimeout s
  | .kvStatusLand => Sys2Proof.Machine.execKvStatusLand s
  | .kvCommitPoint => Sys2Proof.Machine.execKvCommitPoint s
  | .kvFetchComplete => Sys2Proof.Machine.execKvFetchComplete s
  | .kvEvictComplete => Sys2Proof.Machine.execKvEvictComplete s
  | .rqzKvSwap => Sys2Proof.Machine.execRqzKvSwap s
  | .amergeFold => Sys2Proof.Machine.execAmergeFold s
  | .putLanding => Sys2Proof.Machine.execPutLanding s
  | .putAck => Sys2Proof.Machine.execPutAck s
  | .tlbWalkComplete => Sys2Proof.Machine.execTlbWalkComplete s
  | .preemptionStop => Sys2Proof.Machine.execPreemptionStop s
  | .contextSave => Sys2Proof.Machine.execContextSave s
  | .contextRestore => Sys2Proof.Machine.execContextRestore s
  | .admission => Sys2Proof.Machine.execAdmission s
  | .blockPlacement => Sys2Proof.Machine.execBlockPlacement s
  | .kernelBoundary => Sys2Proof.Machine.execKernelBoundary s
  | .errorRetry => Sys2Proof.Machine.execErrorRetry s
  | .flitCheckFail => Sys2Proof.Machine.execFlitCheckFail s
  | .downFlitReceive => Sys2Proof.Machine.execDownFlitReceive s
  | .bridgeMessageFail => Sys2Proof.Machine.execBridgeMessageFail s
  | .linkUp => Sys2Proof.Machine.execLinkUp s
  | .windowModeNotify => Sys2Proof.Machine.execWindowModeNotify s
  | .hostPortDown => Sys2Proof.Machine.execHostPortDown s
  | .apertureWrite => Sys2Proof.Machine.execApertureWrite s
  | .apertureRead => Sys2Proof.Machine.execApertureRead s
  | .slotDoneClear => Sys2Proof.Machine.execSlotDoneClear s
  | .evrBaseWrite => Sys2Proof.Machine.execEvrBaseWrite s
  | .registerWrite => Sys2Proof.Machine.execRegisterWrite s
  | .powerDutyUpdate => Sys2Proof.Machine.execPowerDutyUpdate s
  | .idleEntry => Sys2Proof.Machine.execIdleEntry s
  | .thermalThrottle => Sys2Proof.Machine.execThermalThrottle s
  | .thermalHalt => Sys2Proof.Machine.execThermalHalt s
  | .thermalRecover => Sys2Proof.Machine.execThermalRecover s
  | .thermalShutdown => Sys2Proof.Machine.execThermalShutdown s
  | .resetPin => Sys2Proof.Machine.execResetPin s
  | .query => Sys2Proof.Machine.execQuery s
  | .launch => Sys2Proof.Machine.execLaunch s
  | .kill => Sys2Proof.Machine.execKill s
  | .preempt => Sys2Proof.Machine.execPreempt s
  | .resume => Sys2Proof.Machine.execResume s
  | .pageResolve => Sys2Proof.Machine.execPageResolve s
  | .pageRefuse => Sys2Proof.Machine.execPageRefuse s
  | .ptInvalidate => Sys2Proof.Machine.execPtInvalidate s
  | .kvCreate => Sys2Proof.Machine.execKvCreate s
  | .kvDestroy => Sys2Proof.Machine.execKvDestroy s
  | .kvPool => Sys2Proof.Machine.execKvPool s
  | .routeCreate => Sys2Proof.Machine.execRouteCreate s
  | .routeSet => Sys2Proof.Machine.execRouteSet s
  | .routeDestroy => Sys2Proof.Machine.execRouteDestroy s
  | .windowExpose => Sys2Proof.Machine.execWindowExpose s
  | .windowRegister => Sys2Proof.Machine.execWindowRegister s
  | .windowMode => Sys2Proof.Machine.execWindowMode s
  | .windowRemove => Sys2Proof.Machine.execWindowRemove s
  | .partitionSet => Sys2Proof.Machine.execPartitionSet s
  | .fabricConfig => Sys2Proof.Machine.execFabricConfig s
  | .fabricReset => Sys2Proof.Machine.execFabricReset s
  | .apertureSet => Sys2Proof.Machine.execApertureSet s
  | .ownerClaim => Sys2Proof.Machine.execOwnerClaim s
  | .ownerHandover => Sys2Proof.Machine.execOwnerHandover s
  | .ownerAccept => Sys2Proof.Machine.execOwnerAccept s
  | .ownerRelease => Sys2Proof.Machine.execOwnerRelease s
  | .spdm => Sys2Proof.Machine.execSpdm s
  | .getVersion => Sys2Proof.Machine.execGetVersion s
  | .getCapabilities => Sys2Proof.Machine.execGetCapabilities s
  | .negotiateAlgorithms => Sys2Proof.Machine.execNegotiateAlgorithms s
  | .getDigests => Sys2Proof.Machine.execGetDigests s
  | .getCertificate => Sys2Proof.Machine.execGetCertificate s
  | .challenge => Sys2Proof.Machine.execChallenge s
  | .getMeasurements => Sys2Proof.Machine.execGetMeasurements s
  | .keyExchange => Sys2Proof.Machine.execKeyExchange s
  | .chunkSend => Sys2Proof.Machine.execChunkSend s
  | .chunkGet => Sys2Proof.Machine.execChunkGet s
  | .patchLoad => Sys2Proof.Machine.execPatchLoad s
  | .resetWarm => Sys2Proof.Machine.execResetWarm s
  | .resetCold => Sys2Proof.Machine.execResetCold s
  | .powerSetActive => Sys2Proof.Machine.execPowerSetActive s
  | .powerSetStandby => Sys2Proof.Machine.execPowerSetStandby s
  | .doorbell => Sys2Proof.Machine.execDoorbell s
  | .hostPortUp => Sys2Proof.Machine.execHostPortUp s
  | .linkGoesDown => Sys2Proof.Machine.execLinkGoesDown s
  | .remoteReadArrival => Sys2Proof.Machine.execRemoteReadArrival s
  | .windowRegisterFetch => Sys2Proof.Machine.execWindowRegisterFetch s
  | .backBelowThrottle => Sys2Proof.Machine.execBackBelowThrottle s

end Sys2Proof.Machine
end

