-- ==== Sys2Proof/Machine/Run.lean ====
section
/-! DEFINITION. One move of the agenda carried out, the move that the module makes of itself when the agenda is empty, and
what follows every move (DESIGN CHOICE, log 3). -/

namespace Sys2Proof.Machine

/-! ## What comes from outside (DESIGN CHOICE, log 4) -/

/-- A peer's put reaches the module over a link. -/
def receivePut (s : State) (link device window : Nat) (cells : List Host.Cell) (n : Nat) : State :=
  if !reachedBy s link then s
  else
    sendPut s { id := 0, link := link, out := false, device := device, window := window, cells := cells, n := n, core := 0
                ref := .none, landed := false, final := true, acks := 0, late := [] }

/-- What a peer exposes, or what its window holds, is as given. -/
def peerSays (s : State) (w : PeerWindow) : State :=
  { s with peers := (s.peers.filter fun p => p.device ≠ w.device ∨ p.window ≠ w.window) ++ [w] }

/-- Bytes arrive on a port channel, over a link. -/
def receiveBytes (s : State) (link device core dst port : Nat) (bs : List Byte) : State :=
  let here := fun (c : PortChannel) => c.isOf device core dst port
  if !reachedBy s link then s
  else if s.channels.any here then
    { s with channels := s.channels.map fun c => if here c then { c with bytes := c.bytes ++ bs } else c }
  else { s with channels := s.channels ++ [{ srcDevice := device, srcCore := core, core := dst, port := port, bytes := bs }] }

/-- The target that a port channel is among the streams of a core (11 R371). -/
def portTarget (dst port : Nat) : Nat := 1024 + 32 * dst + port

/-- A peer's receive takes up to n bytes that a core of this module sends, over the link of their stream (11 R371): they are
delivered as they leave, so that none is in flight when the stream moves to another link. -/
def giveBytes (s : State) (link core device dst port n : Nat) : State :=
  if !reachedBy s link || unreachable s device || link != streamLink s core device (portTarget dst port) then s
  else
    let (t, bs) := takeLocal s core device dst port n n []
    { t with peerReply := some bs }

/-- A routed row or a return arrives from a peer on a link that carries traffic. -/
def arrivesOn (s : State) (link : Option Nat) : Bool := match link with | some n => reachedBy s n | none => false

/-- What follows when a destination block of a peer has ended (07 R298). -/
def peerGone (s : State) (device core launch rank : Nat) : State :=
  faultChoices s fun y => y.device == device && y.core == core && y.launch == launch && y.block == rank

/-- A master that takes MCTP messages takes the oldest of its event records (11 R388). -/
def takeRecords (s : State) (m n : Nat) : State :=
  if m = 0 ∨ m = 3 then setMctp s m fun p => { p with events := p.events.drop n } else s

/-! ## Moves -/

/-- The resets, which act while the module is off (11 R396). -/
def Move.resets : Move → Bool
  | .event i _ => i == .resetPin || i == .resetCold
  | _ => false

/-- Carries a move out. An event of the device has no run or sequencer in focus. -/
def carryOut (s : State) (m : Move) : Host.Outcome State Fault Refusal :=
  if s.power == .off && !m.resets then .next s
  else match m with
    | .event i k => exec i { s with sel := k, focus := .none }
    | .issue core k =>
      (match nextInstr s core k with
       | .instr i t => exec i t
       | .moved t => .next t
       | .none => .next s)
    | .hostWrite pa bs => .next { s with hostMem := s.hostMem.put pa bs }
    | .peerPut link device window cells n => .next (receivePut s link device window cells n)
    | .peerWindow w => .next (peerSays s w)
    | .portBytes link device core dst port bs => .next (receiveBytes s link device core dst port bs)
    | .portTake link core device dst port n => .next (giveBytes s link core device dst port n)
    | .peerRow m => .next (if arrivesOn s m.link then { s with rowsOut := s.rowsOut ++ [m] } else s)
    | .peerReturn m => .next (if arrivesOn s m.link then { s with returns := s.returns ++ [m] } else s)
    | .peerDestGone link device core launch rank => .next (if reachedBy s link then peerGone s device core launch rank else s)
    | .peerAtom link device window offset aop size data =>
      .next (if reachedBy s link then peerAtomic s device window offset aop size data else { s with peerReply := none })
    | .modeAck link device window => .next (if reachedBy s link then receiveModeAck s device window else s)
    | .doorbells ds => .next (doorbells s ds)
    | .doe port bs => .next (receiveDoe s port bs)
    | .takeEvents m n => .next (takeRecords s m n)
    | .takeOutputs n => .next { s with outputs := s.outputs.drop n }
    | .tick _ => .next s

/-- Core cycles that a move takes in the model (DESIGN CHOICE, log 3). -/
def Move.cycles : Move → Nat
  | .tick n => n
  | _ => 1

/-- What follows from any move: what its outcome allows has happened, restored work goes in, launches are admitted while one can
be, and the ROM answers (09 R322, 10 R362, 11 R375). -/
def settleAll (s : State) : State :=
  settleLast (settleRom (considerAdmission (settleRestored (settle s)) 32))

/-- After a move: its cycles have passed, and whatever its outcome allows has happened. -/
def afterMove (n : Nat) : Host.Outcome State Fault Refusal → Host.Outcome State Fault Refusal
  | .next t => .next (if t.power = .off then t else settleAll { t with cycle := t.cycle + n })
  | o => o

/-! ## Moves of the module's own -/

/-- Nothing has changed but what a move concerns. -/
def unchanged (s t : State) : Bool := { t with sel := s.sel, focus := s.focus } == s

/-- The first move that changes something. -/
def firstMove (s : State) : List Move → Option (Host.Outcome State Fault Refusal)
  | [] => none
  | m :: ms =>
    match carryOut s m with
    | .next t => if unchanged s t then firstMove s ms else some (.next t)
    | _ => firstMove s ms

/-- A scheduler has had its turn. -/
def turned : Host.Outcome State Fault Refusal → Host.Outcome State Fault Refusal
  | .next t => .next { t with turn := t.turn + 1 }
  | o => o

/-- What the module does of itself: an event that can happen, else an issue of the scheduler whose turn it is, else an
entry to IDLE; else a cycle passes. -/
def ownMove (s : State) : Host.Outcome State Fault Refusal :=
  match firstMove s (eventMoves s) with
  | some o => o
  | none =>
    match firstMove s (turnMoves s) with
    | some o => turned o
    | none => (firstMove s [.event .idleEntry Sel.none]).getD (.next s)

/-- One step: the head of the agenda, or a move of the module's own. A module that is off stays off until a reset. -/
def advance (s : State) : Host.Outcome State Fault Refusal :=
  match s.agenda with
  | m :: ms => afterMove m.cycles (carryOut { s with agenda := ms } m)
  | [] => if s.power = .off then .fault .moduleOff else afterMove 1 (ownMove s)

/-! ## Placing one instruction -/

/-- The launch, and the memory, of a single clause at offset 0: for `State.withFetchWord`. -/
def soloLaunch : Launch :=
  let none_ : Level := { domain := 0, scope := 0, extent := 0 }
  let code : Region := { vbase := 0, length := 65536, target := 0, kind := 0, rights := 7, pgsz := 0 }
  let r : LaunchRec :=
    { codeBase := 0, codeLen := 64, wide := false, nlevels := 2, priority := 0
      levels := [{ domain := 0, scope := 0, extent := 32 }, { domain := 1, scope := 1, extent := 1 }, none_, none_, none_, none_, none_, none_]
      grid := (1, 1, 1), wtiles := 2, ptiles := 0, scratch := 0, formats := List.replicate 8 0#32, regionTable := 0
      trapEntry := 0#32, entry := 0#32, mode := 0#32, barrierUse := 0#32, kvContext := 0, routeTable := 0, domainIndex := 0
      xtables := 0#8, rings := List.replicate 8 { slots := 0, lines := 0, base := 0 }, counterReset := 0#64
      params := List.replicate 32 0#64 }
  { id := 1, rec_ := r, partition := 0, asid := 1, phase := .admitted, regions := [code], order := 0, placed := 1, ended := 0
    status := none, incident := none, fabric := false, images := [], dies := [] }

/-- Class bits of a header. -/
def classBits : Cls → Nat
  | .v => 0 | .m => 1 | .x => 2 | .e => 3

/-- The class in which a word stands: the first of V, M, E and X in which it is an instruction, as in
`decodeTableWord`. -/
def classFor (b x : Word) : Cls :=
  match [Cls.v, .m, .e, .x].find? (fun c => match decode c b x with | .ok _ => true | _ => false) with
  | some c => c
  | none => .v

/-- The header of a clause of n words. -/
def soloHeader (n : Nat) (c : Cls) : Word := BitVec.ofNat 32 (n * 2 ^ 28 + classBits c * 2 ^ 26)

/-- A state in which core 0 has placed the launch's one block, and scheduler 0 stands before the words. -/
def placeWords (s : State) (b x : Word) : State :=
  let l := soloLaunch
  let n := if longOf b then 2 else 1
  let hdr := soloHeader n (classFor b x)
  let code := [hdr, b] ++ (if longOf b then [x] else [])
  let run : Run :=
    { slot := 0, first := 0#32, cur := 0#32, hdr := hdr, chained := false, pos := 4#32, exec := 0xFFFFFFFF#64
      checked := 4#32 + BitVec.ofNat 32 (4 * n), waited := true, marked := 0#64, code := code }
  let c := (Core.reset.placeBlock l 0 0).mapSched 0 fun k => { k with run := some run }
  { s with
    dram := s.dram.put 0 (code.flatMap fun w => bytesOfNat 4 w.toNat), launches := [l], cores := [(0, c)]
    agenda := [.issue 0 0] }

end Sys2Proof.Machine
end

