-- ==== Sys2Proof/Machine/Step.lean ====
section
/-! DEFINITION. One step of the module, and the placing of one instruction where a step fetches it (DESIGN CHOICE, log 5). -/

namespace Sys2Proof.Machine

/-- One step of the module (DESIGN CHOICE, log 3). -/
def step (s : State) : Host.Outcome State Fault Refusal := advance s

/-- The state in which the very next step runs the instruction whose bits are w: the first word is bits 31:0, the second
bits 63:32. It stands for the load of a program by the host (DESIGN CHOICE, log 5). -/
def State.withFetchWord (s : State) (_nbits w : Nat) : State := placeWords s (BitVec.ofNat 32 w) (BitVec.ofNat 32 (w / 2 ^ 32))

end Sys2Proof.Machine
end

