-- ==== Sys2Proof/Safety.lean ====
section
/-! DEFINITION. What a safe run of the module is, and the terms in which statements speak of one instruction: that it
executes normally, and how the run of its group goes on behind it. -/

namespace Sys2Proof

/-- The first n steps from a state all answer a next state. -/
def runsFor : Nat → Machine.State → Prop
  | 0, _ => True
  | n + 1, s => ∃ t, Machine.step s = .next t ∧ runsFor n t

/-- A run that never stops. -/
def Safe (s : Machine.State) : Prop := ∀ n, runsFor n s

namespace Machine

/-- The registers that an instruction's operands name. -/
def operandsOf (x : Issuer) (i : Instr) : List Opd :=
  (infoOf (checkEnv x.g x.l) i).reads ++ (infoOf (checkEnv x.g x.l) i).writes

/-- The instruction is issued by x and nothing holds it up (02 R67, 05 R208). -/
def Issues (s : State) (x : Issuer) (i : Instr) : Prop := issuer s = some x ∧ holdUp x i = none

/-- Its registers lie in tiles that the group owns (01 R17). -/
def Owns (s : State) (x : Issuer) (i : Instr) : Prop := opdChecks (s.core x.core) x.g x.slot (operandsOf x i) = none

/-- The instruction executes normally: it is issued, a lane is active, and its registers can be reached. -/
def Executes (s : State) (x : Issuer) (i : Instr) : Prop := Issues s x i ∧ activeOf x i ≠ 0#64 ∧ Owns s x i

/-- As `Executes`, or with no lane active, for an instruction that acts on the executing set (02 R73). -/
def Acts (s : State) (x : Issuer) (i : Instr) : Prop := Issues s x i ∧ (activeOf x i = 0#64 ∨ Owns s x i)

/-- The state that an instruction's effect has led to, with the run moved behind the instruction. -/
def goesOn (t : State) (x : Issuer) (i : Instr) : State := stepRun t x ((runNow t x).moved (lenOf i))

/-- Nothing of the module but its cores differs: its memories, launches, devices and ports are as they were. -/
def OnlyCores (s t : State) : Prop := t = { s with cores := t.cores }

/-! ## Instructions of one shape, with their words (04 Table 4.1) -/

/-- Integer arithmetic. -/
def integerForm : Instr → Option (Base × ExtRI × IntOp)
  | .iadd w => some (w, .r (shortR 2), .add)
  | .iaddLong w e => some (w, e, .add)
  | .isub w => some (w, .r (shortR 2), .sub)
  | .isubLong w e => some (w, e, .sub)
  | .imul w => some (w, .r (shortR 2), .mul)
  | .imulLong w e => some (w, e, .mul)
  | .imulh w => some (w, .r (shortR 2), .mulh)
  | .imulhLong w e => some (w, e, .mulh)
  | .imad w e => some (w, .r e, .mad)
  | .imin w => some (w, .r (shortR 2), .min)
  | .iminLong w e => some (w, e, .min)
  | .imax w => some (w, .r (shortR 2), .max)
  | .imaxLong w e => some (w, e, .max)
  | .iabs w => some (w, .r (shortR 2), .abs)
  | .iabsLong w e => some (w, e, .abs)
  | .ineg w => some (w, .r (shortR 2), .neg)
  | .inegLong w e => some (w, e, .neg)
  | .isad w e => some (w, .r e, .sad)
  | _ => none

/-- Logic, shifts and bit fields. -/
def bitForm : Instr → Option (Base × ExtRI × BitOp)
  | .andW w => some (w, .r (shortR 8), .and)
  | .andLong w e => some (w, e, .and)
  | .orW w => some (w, .r (shortR 8), .or)
  | .orLong w e => some (w, e, .or)
  | .xorW w => some (w, .r (shortR 8), .xor)
  | .xorLong w e => some (w, e, .xor)
  | .andn w => some (w, .r (shortR 8), .andn)
  | .andnLong w e => some (w, e, .andn)
  | .notW w => some (w, .r (shortR 8), .not)
  | .notLong w e => some (w, e, .not)
  | .shl w => some (w, .r (shortR 8), .shl)
  | .shlLong w e => some (w, e, .shl)
  | .shr w => some (w, .r (shortR 8), .shr)
  | .shrLong w e => some (w, e, .shr)
  | .sar w => some (w, .r (shortR 8), .sar)
  | .sarLong w e => some (w, e, .sar)
  | .rotl w => some (w, .r (shortR 8), .rotl)
  | .rotlLong w e => some (w, e, .rotl)
  | .popc w => some (w, .r (shortR 8), .popc)
  | .popcLong w e => some (w, e, .popc)
  | .clz w => some (w, .r (shortR 8), .clz)
  | .clzLong w e => some (w, e, .clz)
  | .brev w => some (w, .r (shortR 8), .brev)
  | .brevLong w e => some (w, e, .brev)
  | .bfx w => some (w, .r (shortR 8), .bfx)
  | .bfxLong w e => some (w, e, .bfx)
  | .bfi w e => some (w, .r e, .bfi)
  | .perm w e => some (w, .r e, .perm)
  | _ => none

inductive FpOp where
  | add | sub | mul | fma | min | max | integral
  deriving DecidableEq, Repr

/-- FP32 arithmetic of one value a lane. -/
def floatForm : Instr → Option (Base × ExtRI × FpOp)
  | .fadd w => some (w, .r (shortR 9), .add)
  | .faddLong w e => some (w, e, .add)
  | .fsub w => some (w, .r (shortR 9), .sub)
  | .fsubLong w e => some (w, e, .sub)
  | .fmul w => some (w, .r (shortR 9), .mul)
  | .fmulLong w e => some (w, e, .mul)
  | .ffma w e => some (w, .r e, .fma)
  | .fmin w => some (w, .r (shortR 9), .min)
  | .fminLong w e => some (w, e, .min)
  | .fmax w => some (w, .r (shortR 9), .max)
  | .fmaxLong w e => some (w, e, .max)
  | .frnd w => some (w, .r (shortR 9), .integral)
  | .frndLong w e => some (w, e, .integral)
  | _ => none

/-- Arithmetic of packed pairs. -/
def halfForm : Instr → Option (Base × ExtR × FpOp)
  | .hadd2 w => some (w, shortR 11, .add)
  | .hadd2Long w e => some (w, e, .add)
  | .hmul2 w => some (w, shortR 11, .mul)
  | .hmul2Long w e => some (w, e, .mul)
  | .hfma2 w e => some (w, e, .fma)
  | _ => none

/-- Long operations. -/
def longForm : Instr → Option (Base × ExtR × LongFn)
  | .frcp w => some (w, shortR 9, .rcp)
  | .frcpLong w e => some (w, e, .rcp)
  | .frsq w => some (w, shortR 9, .rsq)
  | .frsqLong w e => some (w, e, .rsq)
  | .fsqrt w => some (w, shortR 9, .sqrt)
  | .fsqrtLong w e => some (w, e, .sqrt)
  | .fexp2 w => some (w, shortR 9, .exp2)
  | .fexp2Long w e => some (w, e, .exp2)
  | .flog2 w => some (w, shortR 9, .log2)
  | .flog2Long w e => some (w, e, .log2)
  | .fsin w => some (w, shortR 9, .sin)
  | .fsinLong w e => some (w, e, .sin)
  | .fcos w => some (w, shortR 9, .cos)
  | .fcosLong w e => some (w, e, .cos)
  | .ftanh w => some (w, shortR 9, .tanh)
  | .ftanhLong w e => some (w, e, .tanh)
  | _ => none

/-- FSCL. -/
def fsclForm : Instr → Option (Base × ExtRI)
  | .fscl w => some (w, .r (shortR 9))
  | .fsclLong w e => some (w, e)
  | _ => none

/-- MOV. -/
def movForm : Instr → Option (Base × ExtR)
  | .mov w => some (w, shortR 8)
  | .movLong w e => some (w, e)
  | _ => none

/-- LEA. -/
def leaForm : Instr → Option (Base × ExtRI)
  | .lea w => some (w, .r (shortR 3))
  | .leaLong w e => some (w, e)
  | _ => none

/-- SHFL. -/
def shuffleForm : Instr → Option (Base × ExtRI)
  | .shfl w => some (w, .r (shortR 8))
  | .shflLong w e => some (w, e)
  | _ => none

/-- BALLOT. -/
def ballotForm : Instr → Option (Base × ExtR)
  | .ballot w => some (w, shortR 8)
  | .ballotLong w e => some (w, e)
  | _ => none

/-- VOTE. -/
def voteForm : Instr → Option (Base × ExtR)
  | .vote w => some (w, shortR 0)
  | .voteLong w e => some (w, e)
  | _ => none

/-- REDUX. -/
def reduxForm : Instr → Option (Base × ExtR)
  | .redux w => some (w, shortR 8)
  | .reduxLong w e => some (w, e)
  | _ => none

/-- SCAN. -/
def scanForm : Instr → Option (Base × ExtR)
  | .scan w => some (w, shortR 8)
  | .scanLong w e => some (w, e)
  | _ => none

/-- BCAST. -/
def bcastForm : Instr → Option (Base × ExtRI)
  | .bcast w => some (w, .r (shortR 8))
  | .bcastLong w e => some (w, e)
  | _ => none

/-- BRI and RET. -/
def jumpForm : Instr → Option (Base × ExtR)
  | .bri w => some (w, shortR 0)
  | .briLong w e => some (w, e)
  | .ret w => some (w, shortR 0)
  | .retLong w e => some (w, e)
  | _ => none

/-- CONV, in either form. -/
def convForm : Instr → Bool
  | .conv _ => true
  | .convLong _ _ => true
  | _ => false

/-- LYIELD, in either form. -/
def lyieldForm : Instr → Bool
  | .lyield _ => true
  | .lyieldLong _ _ => true
  | _ => false

/-- EXIT, in either form. -/
def exitForm : Instr → Bool
  | .exit _ => true
  | .exitLong _ _ => true
  | _ => false

/-- NOP, in either form. -/
def nopForm : Instr → Bool
  | .nop _ => true
  | .nopLong _ _ => true
  | _ => false

/-- PRIO. -/
def prioForm : Instr → Option (Base)
  | .prio w => some w
  | .prioLong w _ => some w
  | _ => none

/-- Class V instructions whose whole effect is one result, in a vector register, a pair, or a scalar register. -/
def resultForm (i : Instr) : Bool :=
  (integerForm i).isSome || (bitForm i).isSome || (floatForm i).isSome || (halfForm i).isSome || (fsclForm i).isSome
    || (movForm i).isSome || (leaForm i).isSome || (shuffleForm i).isSome || (ballotForm i).isSome || (reduxForm i).isSome
    || (scanForm i).isSome || (bcastForm i).isSome
    || match i with
      | .sel _ _ => true | .movi _ _ => true | .cvt _ _ => true | .cvtp _ _ => true
      | _ => false

/-- Class V instructions that do nothing at all with no lane active (04 R141): all but VRAND and the control transfers. -/
def maskedForm (i : Instr) : Bool :=
  resultForm i || (longForm i).isSome || (voteForm i).isSome || convForm i || lyieldForm i || nopForm i
    || (prioForm i).isSome
    || match i with
      | .icmp _ _ => true | .fcmp _ _ => true | .plop _ _ => true
      | _ => false

/-- An operand list names register Vn, predicate p or register Sn. -/
def names (os : List Opd) (o : Opd) : Bool := os.any fun p => p.meets o

/-- The destinations of an instruction. -/
def writesOf (x : Issuer) (i : Instr) : List Opd := (infoOf (checkEnv x.g x.l) i).writes

/-- The byte at an address of a core's tiles belongs to Vn of an active lane, through the window of the group. -/
def laneByte (x : Issuer) (m : LaneMask) (n a : Nat) : Prop :=
  ∃ l b, m.getLsbD l = true ∧ vAddr x.g.winmap x.g.wide n l = some b ∧ b ≤ a ∧ a < b + 4

/-- Two groups that differ only in what the course of a run moves: PCs, lane states, faults that park, and in scalar
registers and predicates. -/
def SameButCourse (g h : Group) : Prop :=
  h = { g with lpc := h.lpc, lanes := h.lanes, handler := h.handler, lfr := h.lfr, faultLog := h.faultLog, late := h.late
               cont := h.cont, sregs := h.sregs, preds := h.preds }

/-- Only one group, one scheduler and the tile contents of one core differ. -/
def OnlyGroup (s t : State) (x : Issuer) : Prop :=
  OnlyCores s t ∧ (∀ n, n ≠ x.core → t.core n = s.core n) ∧
  (t.core x.core = { s.core x.core with
    groups := (t.core x.core).groups, scheds := (t.core x.core).scheds, tileData := (t.core x.core).tileData }) ∧
  (∀ k, k ≠ x.slot → t.group? x.core k = s.group? x.core k) ∧
  (∀ k, k ≠ x.sched → (t.core x.core).sched k = (s.core x.core).sched k)

/-- The state in which the instruction's effect t stands and the group waits behind the instruction: its run ends, and
goes on there when the group is selected again (01 R66). -/
def waitsBehind (t : State) (x : Issuer) (i : Instr) : State := suspendRun t x ((runNow t x).moved (lenOf i))

/-- Access instructions, with their space and kind (05 Table 5.1). -/
def accessForm : Instr → Option AccForm
  | .sld w => some (.mk .s .load w (shortM 2))
  | .sldLong w e => some (.mk .s .load w e)
  | .sst w => some (.mk .s .store w (shortM 2))
  | .sstLong w e => some (.mk .s .store w e)
  | .satom w e => some (.mk .s .atom w e)
  | .cld w => some (.mk .c .load w (shortM 2))
  | .cldLong w e => some (.mk .c .load w e)
  | .cst w => some (.mk .c .store w (shortM 2))
  | .cstLong w e => some (.mk .c .store w e)
  | .catom w e => some (.mk .c .atom w e)
  | .gld w => some (.mk .g .load w (shortM 2))
  | .gldLong w e => some (.mk .g .load w e)
  | .gst w => some (.mk .g .store w (shortM 2))
  | .gstLong w e => some (.mk .g .store w e)
  | .gatom w e => some (.mk .g .atom w e)
  | .gred w e => some (.mk .g .red w e)
  | .hld w => some (.mk .h .load w (shortM 2))
  | .hldLong w e => some (.mk .h .load w e)
  | .hst w => some (.mk .h .store w (shortM 2))
  | .hstLong w e => some (.mk .h .store w e)
  | .pld w e => some (.mk .p .load w e)
  | .put w e => some (.mk .p .store w e)
  | .patom w e => some (.mk .p .atom w e)
  | _ => none

/-- FENCE, ACQ and REL: the extension word, and whether it releases, acquires and walks (05 R198 to R200). -/
def syncForm : Instr → Option (ExtC × Bool × Bool × Bool)
  | .fence _ => some (shortC, true, true, false)
  | .fenceLong _ e => some (e, true, true, false)
  | .fenceWalk _ e => some (e, true, true, true)
  | .acq _ => some (shortC, false, true, false)
  | .acqLong _ e => some (e, false, true, false)
  | .rel _ => some (shortC, true, false, false)
  | .relLong _ e => some (e, true, false, false)
  | _ => none

/-- PREF. -/
def prefForm : Instr → Option (Base × ExtM)
  | .pref w => some (w, shortM 0)
  | .prefLong w e => some (w, e)
  | _ => none

/-- RINGW and RINGL: whether the slot is a free one. -/
def ringForm : Instr → Option (Base × ExtC × Bool × Bool)
  | .ringwFill w e => some (w, e, true, false)
  | .ringwFree w e => some (w, e, true, true)
  | .ringlFill w e => some (w, e, false, false)
  | .ringlFree w e => some (w, e, false, true)
  | _ => none

/-- The X word i stands in the current bundle of the sequencer in focus, as w, for block b of launch l. -/
def SeqWord (s : State) (core : Nat) (run : SeqRun) (l : Launch) (b : Block) (i : Instr) (w : BundleWord) : Prop :=
  seqFocus s = some (core, run, l) ∧
  (issueCtx l run).ws.find? (fun v => v.base == nth 0#32 (encode i) 0) = some w ∧
  (s.core core).block? run.clause.launch run.clause.block = some b

/-- The state in which the sequencer's run on a core has been changed. -/
def runSet (s : State) (core : Nat) (f : SeqRun → SeqRun) : State :=
  s.mapCore core fun k => { k with seqRun := k.seqRun.map f }


/-! ## Forms of the class E instructions -/

/-- The instructions that push a command: its operation, the base word, and the layout R extension word where it has
one (Table 6.12). -/
def engineForm : Instr → Option (EngOp × Base × Option ExtR)
  | .cnest w _ => some (.cnest, w, none)
  | .cgo w _ => some (.cgo, w, none)
  | .cpy w _ => some (.cpy, w, none)
  | .cred w _ => some (.cred, w, none)
  | .qtz w e => some (.qtz, w, some e)
  | .dqz w e => some (.dqz, w, some e)
  | .rqz w e => some (.rqz, w, some e)
  | .rqzKv w e => some (.rqzKv, w, some e)
  | .lsend w e => some (.lsend, w, some e)
  | .lsendPort w e => some (.lsendPort, w, some e)
  | .lradd w e => some (.lradd, w, some e)
  | .lwin w e => some (.lwin, w, some e)
  | _ => none

/-- QPUSH and QPOP: whether it is a push. -/
def queueForm : Instr → Option (Bool × Base × ExtR)
  | .qpush w => some (true, w, shortR 8)
  | .qpushLong w e => some (true, w, e)
  | .qpop w => some (false, w, shortR 8)
  | .qpopLong w e => some (false, w, e)
  | _ => none

/-- KLD, KST and KSTS. -/
def kvForm : Instr → Option (KvOp × Base × ExtM)
  | .kld w e => some (.kld, w, e)
  | .kst w e => some (.kst, w, e)
  | .ksts w e => some (.ksts, w, e)
  | _ => none

/-- The control operations of KV space. -/
def kvCtlForm : Instr → Option (KvCtlOp × Base × ExtC)
  | .kopen w e => some (.kopen, w, e)
  | .kcommit w e => some (.kcommit, w, e)
  | .kdrop w e => some (.kdrop, w, e)
  | .kmapAlloc w e => some (.alloc, w, e)
  | .kmapFree w e => some (.free, w, e)
  | .kmapFetch w e => some (.fetch, w, e)
  | .kmapEvict w e => some (.evict, w, e)
  | .kmapLen w e => some (.len, w, e)
  | .kmapQuery w e => some (.query, w, e)
  | _ => none

/-- RETT: whether it drops the stopped clause or command. -/
def rettForm : Instr → Option (Base × Bool)
  | .rett w => some (w, false)
  | .rettLong w e => some (w, e.mod.getLsbD 0)
  | _ => none

/-- Where n bytes of one line at an address of a space lie, when a copy engine's command may read and write them there without
waiting: the block's scratchpad, the panels, a tile that the engine owns, or a resident region of device memory with both rights
(Table 6.11). -/
def EngPlace (x : CmdCtx) (sp a n : Nat) : EngLoc → Prop
  | .spad p => sp = 0 ∧ a + n ≤ x.b.spadSize ∧ p = x.b.spadBase + a
  | .pnl p => sp = 2 ∧ a + n ≤ 1048576 ∧ p = a
  | .tile p => sp = 3 ∧ a + n ≤ 524288 ∧ p = a ∧ a / 8192 ∈ x.b.tiles ∧ ((x.s.core x.core).tile (a / 8192)).owner = 0x21 ∧
      ((x.s.core x.core).tile (a / 8192)).land = false
  | .glob p => sp = 1 ∧ ∃ i r, regionOf x.l a = some (i, r) ∧ a + n ≤ r.vbase + r.length ∧ r.kind = 0 ∧ r.rights % 4 = 3 ∧
      p = r.target + (a - r.vbase) ∧ x.s.poisonedAt p = false ∧ x.s.poisonedAt (p + n - 1) = false

/-- What stands in n bytes of a place. -/
def EngLoc.bytes (s : State) (core n : Nat) : EngLoc → List Byte
  | .spad a => (s.core core).spad.bytes a n
  | .pnl a => (s.core core).panels.bytes a n
  | .tile a => (s.core core).tileData.bytes a n
  | .glob d => s.dram.bytes d n

/-- A copy of n bytes, read at one place and written at another: those of device memory come into the home's L2 as they are read,
and go home as writes of the command. -/
def copied (x : CmdCtx) (p q : EngLoc) (n : Nat) : State :=
  let bs := p.bytes x.s x.core n
  let u := match p with | .glob d => touchSpan x.s d n false | _ => x.s
  match q with
  | .spad a => u.mapCore x.core fun c => { c with spad := c.spad.put a bs }
  | .pnl a => u.mapCore x.core fun c => { c with panels := c.panels.put a bs }
  | .tile a => u.mapCore x.core fun c => { c with tileData := c.tileData.put a bs }
  | .glob d => writeCells u (dieOf x.core) (bs.mapIdx fun i v => (d + i, v)) (.engine x.core .copy x.k.id)

/-- Acknowledgements that a write at a place awaits. -/
def EngLoc.answers : EngLoc → Nat
  | .glob _ => 1
  | _ => 0

/-! ## Sums of WS96 values -/

/-- A sum in some order and some tree. -/
inductive WsSum where
  | one (x : Nat)
  | add (a b : WsSum)

def WsSum.terms : WsSum → List Nat
  | .one x => [x]
  | .add a b => a.terms ++ b.terms

def WsSum.value : WsSum → Nat
  | .one x => x
  | .add a b => wsAdd a.value b.value

/-- The two chains of a cell after steps number k and on, each an operation with its two elements (03 R126). -/
def cellChains (e : Num) (o : Option Num) (k : Nat) : List (CellOp × Num × Num) → Num × Option Num
  | [] => (e, o)
  | (op, a, b) :: steps =>
    let v := stepValue op a b
    if k % 2 = 0 then cellChains (cellApply op e v) o (k + 1) steps
    else cellChains e (some (match o with | none => rc v | some x => cellApply op x v)) (k + 1) steps

/-- `cell` of 03 R126: the result of a cell over a pass that begins from a seed. -/
def cellResult (seed : Num) (steps : List (CellOp × Num × Num)) : Nat :=
  let (e, o) := cellChains seed none 0 steps
  match o with
  | none => rnd .fp32 .std e
  | some x => rnd .fp32 .std (cellApply ((steps.getLast?.map fun s => s.1).getD .madd) e x)

/-- The cells of an open pass stand where the steps of its history have led them from their seeds. -/
def PassHolds (p : Pass) (seed : Nat → Num) (hist : Nat → List (CellOp × Num × Num)) : Prop :=
  p.even.length = 4096 ∧ p.odd.length = 4096 ∧
  ∀ n, n < 4096 → (nth .nan p.even n, nth none p.odd n) = cellChains (seed n) none 0 (hist n)

/-- The steps that one MM cycle adds to cell n (row n / 64, column n mod 64) of a pass: A from ATILE or the stream of the leading
side, B from this side's panel, both with the captured scales (06 R230, R231, R236). -/
def mmSteps (s : State) (c : IssueCtx) (lead d : Side) (m : MmWord) (panel : PanelWord) (p : Pass) (n : Nat) :
    List (CellOp × Num × Num) :=
  let af := slotFormat c.l m.afmt.toNat
  let bf := slotFormat c.l panel.bfmt.toNat
  let w := (iterValue lead.run.iters panel.j.toNat c.ix).toNat
  let row := if p.step * ppcOf af % slotGroup af = 0 then lead.run.rows else p.rowCap
  let col := if p.step * ppcOf af % slotGroup bf = 0 then d.run.cols else p.colCap
  (List.range (ppcOf af)).map fun j =>
    let e := kCycle c * ppcOf af + j
    (CellOp.ofCode (if (p.step * ppcOf af + j) % 2 = 0 then m.ope.toNat else m.opo.toNat),
     elemValue af (aElem s c lead m (slotBits af) (n / 64) e) (nth Latch.one row (n / 64)),
     elemValue bf (elemAt (s.core d.core).panels (w * 8192 + 128 * (n % 64)) (slotBits bf) e) (nth Latch.one col (n % 64)))


/-! ## Commands of the firmware -/

/-- The firmware takes the command: no WINDOW_MODE is under way (11 R375, R383), its code and LENGTH are in order, the master
may issue it, and it is one that a FAILED module, or one in STANDBY, accepts where the module is (11 R384, R395). -/
def Accepts (s : State) (op : Nat) (p : List Byte) : Prop :=
  s.modeChange = none ∧ lengthOk op p.length = some true ∧ mayIssue s s.sel.master op p = true ∧
  (s.failed = true → acceptedIn true op = true) ∧ (s.power = .standby → acceptedIn false op = true)

/-- The module with the answer to the master that issued the command. -/
def answered (s t : State) (status : Byte) (payload : List Byte) : State :=
  { t with response := some { master := s.sel.master, status := status, payload := payload } }

/-- The SPDM requests: the code of each (log 11). -/
def spdmForm : Instr → Option Nat
  | .getVersion => some 0x84
  | .getCapabilities => some 0xE1
  | .negotiateAlgorithms => some 0xE3
  | .getDigests => some 0x81
  | .getCertificate => some 0x82
  | .challenge => some 0x83
  | .getMeasurements => some 0xE0
  | .keyExchange => some 0xE4
  | .chunkSend => some 0x85
  | .chunkGet => some 0x86
  | _ => none

/-- The code and the payload with which each command's event reaches the firmware (Table 11.12). -/
def commandForm (s : State) : Instr → Option (Nat × List Byte)
  | .query => some (0x01, s.sel.bytes)
  | .launch => some (0x02, s.sel.bytes)
  | .kill => some (0x03, s.sel.bytes)
  | .preempt => some (0x04, s.sel.bytes)
  | .resume => some (0x05, s.sel.bytes)
  | .pageResolve => some (0x08, s.sel.bytes)
  | .pageRefuse => some (0x09, s.sel.bytes)
  | .ptInvalidate => some (0x0A, s.sel.bytes)
  | .kvCreate => some (0x10, s.sel.bytes)
  | .kvDestroy => some (0x11, s.sel.bytes)
  | .kvPool => some (0x12, s.sel.bytes)
  | .routeCreate => some (0x18, s.sel.bytes)
  | .routeSet => some (0x19, s.sel.bytes)
  | .routeDestroy => some (0x1A, s.sel.bytes)
  | .windowExpose => some (0x20, s.sel.bytes)
  | .windowRegister => some (0x21, s.sel.bytes)
  | .windowMode => some (0x22, s.sel.bytes)
  | .windowRemove => some (0x23, s.sel.bytes)
  | .partitionSet => some (0x28, s.sel.bytes)
  | .fabricConfig => some (0x29, s.sel.bytes)
  | .fabricReset => some (0x2A, s.sel.bytes)
  | .apertureSet => some (0x2B, s.sel.bytes)
  | .ownerClaim => some (0x30, s.sel.bytes)
  | .ownerHandover => some (0x31, s.sel.bytes)
  | .ownerAccept => some (0x32, s.sel.bytes)
  | .ownerRelease => some (0x33, s.sel.bytes)
  | .spdm => some (0x38, s.sel.bytes)
  | .patchLoad => some (0x39, s.sel.bytes)
  | .resetWarm => some (0x40, [0#8, 0#8, 0#8, 0#8])
  | .resetCold => some (0x40, [1#8, 0#8, 0#8, 0#8])
  | .powerSetActive => some (0x41, [0#8, 0#8] ++ bytesOfNat 2 s.sel.count)
  | .powerSetStandby => some (0x41, [2#8, 0#8] ++ bytesOfNat 2 s.sel.count)
  | i => (spdmForm i).map fun c => (0x38, spdmRequest c s.sel.bytes)

/-- A registration of a window of a device in a mode. -/
def modeTo (device window : Nat) (fallBack : Bool) (r : Registration) : Registration :=
  if device = r.device ∧ window = r.window then { r with fallBack := fallBack } else r

def State.mapRoute (s : State) (id : Nat) (f : RouteTable → RouteTable) : State :=
  { s with routes := s.routes.map fun t => if t.id = id then f t else t }

def State.mapExposure (s : State) (w : Nat) (f : Exposure → Exposure) : State :=
  { s with exposures := s.exposures.map fun e => if e.window = w then f e else e }


/-! ## What every step leaves -/

/-- What follows every move has happened: while the module has power, every outstanding fault record stands for a miss
that is still awaited (10 R354), and a launch that is stopping still has a group that has not stopped (10 R359, R360). -/
def Settled (s : State) : Prop :=
  s.power = .off ∨
  ((∀ d, d < 2 → ∀ f ∈ (s.die d).faults, ({ die := d, asid := f.1, region := f.2.1, page := f.2.2 } : PageKey).awaited s = true) ∧
   ∀ l ∈ s.launches, ∀ auto, l.phase = .stopping auto → ∃ x ∈ s.liveGroups l.id, x.2.2.stopped = false)

/-- One round of `vrand` on a natural number (03 R137). -/
def vrandStep (x : Nat) : Nat :=
  ((x ^^^ (x >>> 29)) * 0xB5C81E47D2A9637D + 0x3D916AF208C7E45B) % 2 ^ 64

end Machine

end Sys2Proof
end

