-- ==== Sys2Proof/Certificates/Slice0/Obligations.lean ====
section
/-! DEFINITION. The statements about the model. Each docstring names the rule of spec/ that it formalises, or says that it
states a choice of the model and names the log entry. -/

open Sys2Proof Sys2Proof.Machine

/-- IADD, ISUB, IMUL, IMULH, IMAD, IMIN, IMAX, IABS, INEG and ISAD, in every form, answer a next state: the destination
takes, in each active lane (in the scalar form once), the result computed on the mathematical integers of the
sources, clamped to the limits of the type under .sat where the opcode accepts it, and wrapped to the width of the
type; the run goes on behind the instruction. (04 R144, 04 R138, 04 R139, 04 R140) -/
def Obligations.IntegerArithmeticResult : Prop :=
  ∀ (s : State) (x : Issuer) (i : Instr) (w : Base) (e : ExtRI) (op : IntOp),
    integerForm i = some (w, e, op) → Executes s x i →
    let v := srcOf s x w e
    let n := typeBits v.type
    let sg := signedType v.type
    let z : Nat → Int := fun l =>
      let a := readInt sg n (v.a l)
      let b := readInt sg n (v.b l)
      let c := readInt sg n (v.c l)
      match op with
      | .add => a + b
      | .sub => a - b
      | .mul => a * b
      | .mulh => a * b / 2 ^ n
      | .mad => a * b + c
      | .min => min a b
      | .max => max a b
      | .abs => |a|
      | .neg => -a
      | .sad => |a - b| + c
    let sat := v.mod.testBit 0 && (op == .add || op == .sub || op == .abs || op == .neg)
    exec i s = .next (goesOn (putResult s x (activeOf x i) v.sd w.d.toNat v.type fun l =>
      ((if sat then max (intMin sg n) (min (z l) (intMax sg n)) else z l) % 2 ^ n).toNat) x i)

/-- AND, OR, XOR, ANDN, NOT, SHL, SHR, SAR, ROTL, BFX, BFI, PERM, POPC, CLZ and BREV, in every form, answer a next state
whose destination takes the result of their operation on the n-bit patterns of the sources; a shift of n or more
gives 0 in SHL and SHR and the sign in SAR. For every width n and every number, bit j of what BREV writes is bit n −
1 − j of its source, and no bit above n is set. (04 R145, 04 R138, 04 R140) -/
def Obligations.BitwiseAndShiftResult : Prop :=
  (∀ (s : State) (x : Issuer) (i : Instr) (w : Base) (e : ExtRI) (op : BitOp),
      bitForm i = some (w, e, op) → Executes s x i →
      let v := srcOf s x w e
      let n := typeBits v.type
      let r : Nat → Nat := fun l =>
        let a := v.a l
        let b := v.b l
        let c := v.c l
        let k := b % 256
        match op with
        | .and => a &&& b
        | .or => a ||| b
        | .xor => a ^^^ b
        | .andn => a &&& (b ^^^ (2 ^ n - 1))
        | .not => a ^^^ (2 ^ n - 1)
        | .shl => if n ≤ k then 0 else a * 2 ^ k % 2 ^ n
        | .shr => if n ≤ k then 0 else a / 2 ^ k
        | .sar => ((readInt true n a / 2 ^ min k (n - 1)) % 2 ^ n).toNat
        | .rotl => a * 2 ^ (k % n) % 2 ^ n + a / 2 ^ (n - k % n)
        | .bfx =>
          let u := min (b / 256 % 256) n
          let f := a / 2 ^ k % 2 ^ u
          if signedType v.type = true ∧ 0 < u then (readInt true u f % 2 ^ n).toNat else f
        | .bfi =>
          let m := (2 ^ min (c / 256 % 256) n - 1) * 2 ^ (c % 256) % 2 ^ n
          (a &&& (m ^^^ (2 ^ n - 1))) ||| (b * 2 ^ (c % 256) % 2 ^ n &&& m)
        | .perm => natOfBytes ((List.range 4).map fun j =>
            let s := c / 16 ^ j % 16
            if 8 ≤ s then 0#8 else BitVec.ofNat 8 ((b * 2 ^ 32 + a) / 256 ^ (s % 8)))
        | .popc => ((List.range n).filter fun j => (v.a l).testBit j).length
        | .clz => if a = 0 then n else n - 1 - a.log2
        | .brev => bitReverse n a
      exec i s = .next (goesOn (putResult s x (activeOf x i) v.sd w.d.toNat v.type r) x i)) ∧
  (
  ∀ (n a j : Nat), (bitReverse n a).testBit j = (decide (j < n) && a.testBit (n - 1 - j)))

/-- FADD, FSUB, FMUL, FFMA, FMIN, FMAX and FRND, in every form, answer a next state whose destination takes, in each
active lane, the exact sum, difference, product or fused result of the sources (subnormals flushed as MODE says)
rounded once in the mode of the clause, or the NaN that the operands give when it is invalid; FMIN, FMAX and FRND
take the value of their own rule. FSCL answers a next state whose destination takes its float source times 2 to the
power of its signed second source, rounded once, as a float result in either layout. HADD2, HMUL2 and HFMA2 answer
one whose destination holds in its low half the result of the operation on the low elements and in its high half
that on the high elements, in the 16-bit format that TYPE names. (04 R153, 04 R154, 04 R156, 03 R112, 03 R115, 04 R155, 04 R157) -/
def Obligations.FloatArithmeticResult : Prop :=
  (∀ (s : State) (x : Issuer) (i : Instr) (w : Base) (e : ExtRI) (op : FpOp),
      floatForm i = some (w, e, op) → Executes s x i →
      let v := srcOf s x w e
      let md := FpMode.ofWord x.g.modeNow
      let once : List Nat → Machine.Num → Nat := fun ops z =>
        if z.isNan then nanres md .fp32 (ops.map fun p => (.fp32, p)) else rnd .fp32 md z
      let down := md.rm == Rnd.rdn
      let r : Nat → Nat := fun l =>
        let a := din md .fp32 (v.a l)
        let b := din md .fp32 (v.b l)
        let c := din md .fp32 (v.c l)
        match op with
        | .add => once [v.a l, v.b l] (Machine.Num.add down a b)
        | .sub => once [v.a l, v.b l] (Machine.Num.add down a b.neg)
        | .mul => once [v.a l, v.b l] (Machine.Num.mul a b)
        | .fma => once [v.a l, v.b l, v.c l] (Machine.Num.add down (Machine.Num.mul a b) c)
        | .min => fpMinMax md .fp32 false (v.a l) (v.b l)
        | .max => fpMinMax md .fp32 true (v.a l) (v.b l)
        | .integral =>
          fpIntegral md (match v.mod with | 1 => .rne | 2 => .rtz | 3 => .rup | 4 => .rdn | _ => md.rm) (v.a l)
      exec i s = .next (goesOn (putResult s x (activeOf x i) v.sd w.d.toNat v.type r) x i)) ∧
  (
  (∀ (s : State) (x : Issuer) (i : Instr) (w : Base) (e : ExtRI), fsclForm i = some (w, e) → Executes s x i →
      let v := srcOf s x w e
      exec i s = .next (goesOn (putResult s x (activeOf x i) v.sd w.d.toNat 9 fun l =>
        fpScale (FpMode.ofWord x.g.modeNow) (v.a l) (readInt true 32 (v.b l))) x i)) ∧
    (∀ (s : State) (x : Issuer) (i : Instr) (w : Base) (e : ExtR) (op : FpOp), halfForm i = some (w, e, op) →
      Executes s x i →
      let v := srcR s x w e
      let md := FpMode.ofWord x.g.modeNow
      let f : FFmt := if v.type = 10 then .fp16 else .bf16
      let r : Nat → Nat → Nat → Nat := fun a b c =>
        match op with
        | .add => fpAdd md f a b
        | .mul => fpMul md f a b
        | _ => fpFma md f a b c
      exec i s = .next (goesOn (putResult s x (activeOf x i) v.sd w.d.toNat v.type fun l =>
        r (v.a l % 65536) (v.b l % 65536) (v.c l % 65536)
          + 65536 * r (v.a l / 65536) (v.b l / 65536) (v.c l / 65536)) x i)))

/-- FRCP, FRSQ, FSQRT, FEXP2, FLOG2, FSIN, FCOS and FTANH answer a next state in which the group has one more pending
operation of class long, which holds the value of the function in each active lane (or in the scalar form one
value), and no register has changed. LONG_OP_LAND of that operation writes the registers it holds and ends it. Which
value the function has is that of its own definition; where the rounding of a transcendental cannot be decided from
the spec it is a free value (log 7). (04 R158, 04 R159) -/
def Obligations.LongOperationIssuesAndLands : Prop :=
  (∀ (s : State) (x : Issuer) (i : Instr) (w : Base) (e : ExtR) (fn : LongFn), longForm i = some (w, e, fn) →
    Executes s x i →
    let v := srcR s x w e
    let r := fun l => longOp (FpMode.ofWord x.g.modeNow) fn (v.a l)
    let op : PendOp :=
      if v.sd then .long x.g.winmap [] (some (w.d.toNat, (BitVec.ofNat 32 (r (elect (activeOf x i)))).setWidth 64))
      else .long x.g.winmap ((lanesOf (activeOf x i)).map fun l => (w.d.toNat, l, BitVec.ofNat 32 (r l))) none
    exec i s = .next (goesOn ((s.mapGroup x.core x.slot fun g => g.addPend (s.core x.core).nextId op).mapCore x.core
      fun c => { c with nextId := c.nextId + 1 }) x i)) ∧
  (∀ (s : State) (g : Group) (win : List (Option Nat)) (ws : List (Nat × Nat × Word)) (sc : Option (Nat × DWord)),
    s.group? s.sel.core s.sel.slot = some g → g.pend? s.sel.id = some (.long win ws sc) →
    exec .longOpLand s = .next
      ((s.mapCore s.sel.core fun c => ws.foldl (fun c u => c.vWrite win g.wide u.1 u.2.1 u.2.2) c).mapGroup s.sel.core
        s.sel.slot fun g => (match sc with | none => g | some p => g.setS p.1 p.2).dropPend s.sel.id))

/-- MOV copies its source; SEL takes A where its predicate holds and B elsewhere, by the elected lane in the scalar
form; MOVI writes its 32-bit immediate in each active lane, or in the scalar form the sign-extended immediate, or
only the high half under .hi; LEA adds to A the immediate, or the signed 32-bit B times 2 to the shift, wrapped to
the width of the type. Each answers a next state in which its run goes on. ICMP and FCMP whose vector sources are
not pending write their condition on A and B to the destination predicate in each active lane, and in the scalar
form one result in every lane of the executing set; PLOP writes the bit of its table that the two predicates select;
VOTE writes one result in every active lane: all active lanes hold the predicate, at least one does, or all agree.
Each answers a next state. (04 R148, 04 R150, 04 R151, 04 R152, 02 R76, 04 R146, 04 R147, 04 R149, 04 R165) -/
def Obligations.MoveSelectAndAddressResult : Prop :=
  ((∀ (s : State) (x : Issuer) (i : Instr) (w : Base) (e : ExtR), movForm i = some (w, e) → Executes s x i →
      let v := srcR s x w e
      exec i s = .next (goesOn (putResult s x (activeOf x i) v.sd w.d.toNat v.type v.a) x i)) ∧
    (∀ (s : State) (x : Issuer) (w : Base) (e : ExtR), Executes s x (.sel w e) →
      let v := srcR s x w e
      exec (.sel w e) s = .next (goesOn (putResult s x (activeOf x (.sel w e)) v.sd w.d.toNat v.type fun l =>
        if (x.g.pred (e.c.extractLsb' 0 3).toNat).getLsbD l then v.a l else v.b l) x (.sel w e))) ∧
    (∀ (s : State) (x : Issuer) (w : Base) (imm : Word), Executes s x (.movi w imm) →
      exec (.movi w imm) s = .next (goesOn
        (if w.a.getLsbD 0 = true then
          sset s x w.d.toNat (if w.a.getLsbD 2 = true then imm ++ lowWord (x.g.sreg w.d.toNat) else imm.signExtend 64)
        else vsets s x ((lanesOf (activeOf x (.movi w imm))).map fun l => (w.d.toNat, l, imm))) x (.movi w imm))) ∧
    (∀ (s : State) (x : Issuer) (i : Instr) (w : Base) (e : ExtRI), leaForm i = some (w, e) → Executes s x i →
      let v := srcOf s x w e
      let n := typeBits v.type
      exec i s = .next (goesOn (putResult s x (activeOf x i) v.sd w.d.toNat v.type fun l =>
        match e with
        | .i _ => (v.a l + v.b l) % 2 ^ n
        | .r y => (((v.a l : Int) + (val32 s x y.sb w.b.toNat l).toInt * 2 ^ (y.mod.toNat % 4)) % 2 ^ n).toNat) x i))) ∧
  (
  (∀ (s : State) (x : Issuer) (i : Instr) (w : Base) (e : ExtRI) (float : Bool),
      (i = .icmp w e ∧ float = false ∨ i = .fcmp w e ∧ float = true) → Executes s x i →
      let v := srcOf s x w e
      (∀ o ∈ (infoOf (checkEnv x.g x.l) i).reads, x.g.pendingOpd o = false) →
      (∀ l, x.run.exec.getLsbD l = true → l < x.g.width) →
      let holds : Nat → Bool := fun l =>
        cmpResult (FpMode.ofWord x.g.modeNow) float v.type (w.d.extractLsb' 3 4).toNat (v.a l) (v.b l)
      exec i s = .next (goesOn (s.mapGroup x.core x.slot fun g =>
        if v.sd then g.setP (w.d.extractLsb' 0 3).toNat x.run.exec (allIf (holds (elect x.run.exec)))
        else g.setP (w.d.extractLsb' 0 3).toNat (activeOf x i) (maskBy holds)) x i)) ∧
    (∀ (s : State) (x : Issuer) (w : Base) (e : ExtR), Executes s x (.plop w e) →
      exec (.plop w e) s = .next (goesOn (s.mapGroup x.core x.slot fun g =>
        g.setP (w.d.extractLsb' 0 3).toNat (activeOf x (.plop w e)) (maskBy fun l =>
          (e.mod.toNat % 16).testBit (2 * ((x.g.pred (w.a.extractLsb' 0 3).toNat).getLsbD l).toNat
            + ((x.g.pred (w.b.extractLsb' 0 3).toNat).getLsbD l).toNat))) x (.plop w e))) ∧
    (∀ (s : State) (x : Issuer) (i : Instr) (w : Base) (e : ExtR), voteForm i = some (w, e) → Executes s x i →
      let m := activeOf x i
      let p := x.g.pred (w.a.extractLsb' 0 3).toNat
      let r : Bool :=
        if e.mod.toNat % 4 = 0 then decide (m &&& p = m)
        else if e.mod.toNat % 4 = 1 then decide (m &&& p ≠ 0#64)
        else decide (m &&& p = m) || decide (m &&& p = 0#64)
      exec i s = .next (goesOn (s.mapGroup x.core x.slot fun g =>
        g.setP (w.d.extractLsb' 0 3).toNat m (if r then BitVec.allOnes 64 else 0#64)) x i)))

/-- CVT answers a next state whose destination takes, in each active lane, the source converted once from the source
type to the destination type, in the rounding mode of the clause or stochastically with the 16 random bits of C
under .sr: one register, an even pair for a 64-bit type, three registers for .ws96; in the scalar form one 64-bit
value. CVTP packs two converted FP32 values low first, or unpacks a 16-bit pair into two registers. (04 R160, 04 R161, 03 R119) -/
def Obligations.ConversionResult : Prop :=
  (∀ (s : State) (x : Issuer) (w : Base) (e : ExtR), Executes s x (.cvt w e) →
    let d := (e.mod.extractLsb' 0 5).toNat
    let md := FpMode.ofWord x.g.modeNow
    let r : Nat → Nat := fun l =>
      let u := (val32 s x e.sc e.c.toNat l).toNat % 65536
      cvt md (if e.mod.getLsbD 5 then .sr u else md.rm) (tyKind x.l.rec_.formats e.type.toNat)
        (tyKind x.l.rec_.formats d) ((val32 s x e.sb w.b.toNat l).toNat % 256)
        (cvtSrc s x e.type.toNat e.sa w.a.toNat l)
    let regs : Nat → List (Nat × Nat × Word) := fun l =>
      if d = 15 then (List.range 3).map fun j => (w.d.toNat + j, l, BitVec.ofNat 32 (r l / 2 ^ (32 * j)))
      else if d = 3 ∨ d = 7 then (List.range 2).map fun j => (w.d.toNat + j, l, BitVec.ofNat 32 (r l / 2 ^ (32 * j)))
      else [(w.d.toNat, l, BitVec.ofNat 32 (r l))]
    exec (.cvt w e) s = .next (goesOn
      (if e.sd = true then sset s x w.d.toNat (BitVec.ofNat 64 (r (elect (activeOf x (.cvt w e)))))
       else vsets s x ((lanesOf (activeOf x (.cvt w e))).flatMap regs)) x (.cvt w e))) ∧
  (∀ (s : State) (x : Issuer) (w : Base) (e : ExtR), Executes s x (.cvtp w e) →
    let d := (e.mod.extractLsb' 0 5).toNat
    let md := FpMode.ofWord x.g.modeNow
    let one : Nat → Nat → Nat := fun u a =>
      cvt md (if e.mod.getLsbD 5 then .sr (u % 65536) else md.rm) (tyKind [] e.type.toNat) (tyKind [] d) 0 a
    let a : Nat → Nat := fun l => (val32 s x e.sa w.a.toNat l).toNat
    let b : Nat → Nat := fun l => (val32 s x e.sb w.b.toNat l).toNat
    let u : Nat → Nat := fun l => (val32 s x e.sc e.c.toNat l).toNat
    exec (.cvtp w e) s = .next (goesOn
      (if d = 9 then
        vsets s x ((lanesOf (activeOf x (.cvtp w e))).flatMap fun l =>
          [(w.d.toNat, l, BitVec.ofNat 32 (cvt md md.rm (tyKind [] e.type.toNat) (tyKind [] d) 0 (a l % 65536))),
           (w.d.toNat + 1, l, BitVec.ofNat 32 (cvt md md.rm (tyKind [] e.type.toNat) (tyKind [] d) 0 (a l / 65536)))])
      else putResult s x (activeOf x (.cvtp w e)) e.sd w.d.toNat 9 fun l =>
        one (u l) (a l) + (if d = 10 ∨ d = 11 then 65536 else if d = 14 then 16 else 256) * one (u l / 65536) (b l))
      x (.cvtp w e)))

/-- SHFL gives each active lane the source of the lane its mode and lane operand name, or its own when that is below 0,
beyond the width or outside the executing set; BALLOT gives the mask of active lanes whose predicate holds; REDUX
combines the values of the active lanes from the lowest up, and SCAN those at or below each lane (below it under
.excl, the identity at the lowest); BCAST gives one lane. Each answers a next state. VRAND answers a next state in
which each active lane of its destination holds the random word of its seed, its global lane index and its counter,
and the counter register has grown by 1 modulo 2^64, also when no lane is active. (04 R162, 04 R163, 04 R164, 04 R166, 04 R167, 03 R135, 03 R136, 03 R137) -/
def Obligations.LaneExchangeResult : Prop :=
  ((∀ (s : State) (x : Issuer) (i : Instr) (w : Base) (e : ExtRI), shuffleForm i = some (w, e) → Executes s x i →
      let v := srcOf s x w e
      let mode : Nat := match e with | .r y => y.mod.toNat % 4 | .i y => y.imm.toNat / 256 % 4
      let b : Nat → Int := fun l => match e with | .r _ => ((v.b l % 256 : Nat) : Int) | .i y => ((y.imm.toNat % 256 : Nat) : Int)
      let from_ : Nat → Int := fun l =>
        if mode = 0 then b l else if mode = 1 then (l : Int) - b l else if mode = 2 then (l : Int) + b l
        else ((l ^^^ (b l).toNat : Nat) : Int)
      exec i s = .next (goesOn (putResult s x (activeOf x i) false w.d.toNat 8 fun l =>
        v.a (if 0 ≤ from_ l ∧ from_ l < x.g.width ∧ x.run.exec.getLsbD (from_ l).toNat = true then (from_ l).toNat else l))
        x i)) ∧
    (∀ (s : State) (x : Issuer) (i : Instr) (w : Base) (e : ExtR), ballotForm i = some (w, e) → Executes s x i →
      exec i s = .next (goesOn (putResult s x (activeOf x i) (e.mod.getLsbD 5) w.d.toNat (if x.g.wide then 7 else 8)
        fun _ => (activeOf x i &&& x.g.pred (w.a.extractLsb' 0 3).toNat).toNat) x i)) ∧
    (∀ (s : State) (x : Issuer) (i : Instr) (w : Base) (e : ExtR), reduxForm i = some (w, e) → Executes s x i →
      let v := srcR s x w e
      exec i s = .next (goesOn (putResult s x (activeOf x i) (e.mod.getLsbD 5) w.d.toNat v.type fun _ =>
        combineAll (FpMode.ofWord x.g.modeNow) (e.mod.toNat % 16) v.type ((lanesOf (activeOf x i)).map v.a)) x i)) ∧
    (∀ (s : State) (x : Issuer) (i : Instr) (w : Base) (e : ExtR), scanForm i = some (w, e) → Executes s x i →
      let v := srcR s x w e
      exec i s = .next (goesOn (putResult s x (activeOf x i) false w.d.toNat v.type fun l =>
        combineAll (FpMode.ofWord x.g.modeNow) (e.mod.toNat % 16) v.type
          (((lanesOf (activeOf x i)).filter fun j => if e.mod.getLsbD 4 then decide (j < l) else decide (j ≤ l)).map v.a))
        x i)) ∧
    (∀ (s : State) (x : Issuer) (i : Instr) (w : Base) (e : ExtRI), bcastForm i = some (w, e) → Executes s x i →
      let v := srcOf s x w e
      let m := activeOf x i
      let k : Nat := match e with | .r _ => v.b (elect m) % 256 | .i y => y.imm.toNat
      let tos : Bool := match e with | .r y => y.mod.getLsbD 5 | .i _ => false
      exec i s = .next (goesOn (putResult s x m tos w.d.toNat 8 fun _ =>
        v.a (if k < x.g.width ∧ x.run.exec.getLsbD k = true then k else elect m)) x i))) ∧
  (
  ∀ (s : State) (x : Issuer) (w : Base) (e : ExtR), Acts s x (.vrand w e) →
      exec (.vrand w e) s = .next (goesOn
        (sset (vsets s x ((lanesOf (activeOf x (.vrand w e))).map fun l =>
            (w.d.toNat, l, vrand (x.g.sreg w.a.toNat) (globalLane x.l.rec_ x.g.block x.g.index x.g.width l)
              (x.g.sreg w.b.toNat))))
          x w.b.toNat (x.g.sreg w.b.toNat + 1#64)) x (.vrand w e)))

/-- BRA without a pending hinted guard sends each active lane, or under .u every executing lane when the lowest
executing lane is active and none otherwise, to IMM24 times 4; BRI and RET send each active lane to its A with bits
1:0 dropped; CALL sends each active lane to IMM24 times 4 and writes the offset behind it to the link. Every other
executing lane stands behind the instruction, the run ends, and exec answers a next state. A hinted BRA whose guard
is pending leaves its group in predicted mode, every executing lane where the hint sends it. Once the guard has
landed, a branch that went as hinted lets its clauses go on and releases, in order and as far as there is room, the
commands and pushes they withheld, X clauses being predicted no longer in the same order, and a held trap falls due
when all are out, or ends the launch in a handler; else its clauses, what they withheld and the held trap go, its
lanes stand where the branch sends them, and every other lane, its header offset and the marks as they stood before
the first predicted clause. Until then a predicted clause makes no issue that writes, and its trap is held, in a
handler too. Abandonment discards the same, puts the branch's lanes at the BRA with its clause as the resume header,
and leaves the compare pending. (04 R168, 04 R169, 04 R170, 01 R19, 09 R331, 09 R332, 09 R333) -/
def Obligations.BranchMovesLanes : Prop :=
  ((∀ (s : State) (x : Issuer) (w : Base) (e : ExtC), Acts s x (.bra w e) →
      (w.d.extractLsb' 1 2 = 0#2 ∨ w.guard = 0#3 ∨ x.g.pendingOpd (.p w.guard.toNat) = false) →
      let act := activeOf x (.bra w e)
      let moved : LaneMask :=
        if w.d.getLsbD 0 = true then
          (match lowest x.run.exec with | some l => if act.getLsbD l then x.run.exec else 0#64 | none => 0#64)
        else act
      exec (.bra w e) s = .next (endRun (s.mapGroup x.core x.slot fun g =>
        let g := g.movePcs x.run.exec (x.run.pos + BitVec.ofNat 32 (4 * lenOf (.bra w e)))
        g.setPcs (mapLanes moved (fun _ _ => pcWord (BitVec.ofNat 32 (4 * e.imm.toNat))) g.pcs)) x.core x.sched)) ∧
    (∀ (s : State) (x : Issuer) (i : Instr) (w : Base) (e : ExtR), jumpForm i = some (w, e) → Acts s x i →
      exec i s = .next (endRun (s.mapGroup x.core x.slot fun g =>
        let g := g.movePcs x.run.exec (x.run.pos + BitVec.ofNat 32 (4 * lenOf i))
        g.setPcs (mapLanes (activeOf x i) (fun l _ => pcWord (val32 s x e.sa w.a.toNat l)) g.pcs)) x.core x.sched)) ∧
    (∀ (s : State) (x : Issuer) (w : Base) (e : ExtC), Acts s x (.call w e) →
      let act := activeOf x (.call w e)
      let after := x.run.pos + BitVec.ofNat 32 (4 * lenOf (.call w e))
      let linked := if act = 0#64 then s else putResult s x act e.sd w.d.toNat 8 fun _ => after.toNat
      exec (.call w e) s = .next (endRun (linked.mapGroup x.core x.slot fun g =>
        let g := g.movePcs x.run.exec after
        g.setPcs (mapLanes act (fun _ _ => pcWord (BitVec.ofNat 32 (4 * e.imm.toNat))) g.pcs)) x.core x.sched))) ∧
  (
  (∀ (s : State) (x : Issuer) (w : Base) (e : ExtC), Acts s x (.bra w e) →
      (w.d.extractLsb' 1 2 = 1#2 ∨ w.d.extractLsb' 1 2 = 2#2) → w.guard ≠ 0#3 →
      x.g.pendingOpd (.p w.guard.toNat) = true →
      let pt := decide (w.d.extractLsb' 1 2 = 1#2)
      let target := BitVec.ofNat 32 (4 * e.imm.toNat)
      let after := x.run.pos + BitVec.ofNat 32 (4 * lenOf (.bra w e))
      let p : Group → Predicted := fun g =>
        { braPos := x.run.pos, hdrOff := x.run.cur, exec := x.run.exec, lane := elect x.run.exec, pred := w.guard.toNat
          gn := e.gn, hintTaken := pt, taken := target, next := after, clauses := 0, before := g.frame, items := []
          matched := false, heldTrap := none, heldAt := 0#32 }
      exec (.bra w e) s = .next (endRun ((s.mapGroup x.core x.slot fun g =>
        let g := g.movePcs x.run.exec after
        g.setPcs (mapLanes (if pt then x.run.exec else 0#64) (fun _ _ => pcWord target) g.pcs)).mapGroup x.core x.slot
          fun g => { g with predicted := some (p g) }) x.core x.sched)) ∧
    (∀ (s : State) (core slot : Nat) (g : Group) (p : Predicted), s.group? core slot = some g → g.predicted = some p →
      p.matched = false → g.late = [] →
      let c := s.core core
      let taken := (g.pred p.pred).getLsbD p.lane != p.gn
      let r := resolveBranch s core slot
      let a := abandonPrediction s core slot
      let noneLeft := fun (t : State) => ∀ n ∈ pairCores core, (∀ k ∈ (t.core n).seqQueue, predictedOf g slot k = false) ∧
        ∀ k, (t.core n).seqRun = some k → predictedOf g slot k.clause = false
      let gone := fun (t : State) (pc : Word) (h : Group) => t.group? core slot = some h ∧ noneLeft t ∧ h.predicted = none ∧
        h.due = g.due ∧ h.pend = g.pend ∧ h.laneHdr = p.before.laneHdr ∧ h.marks = p.before.marks ∧
        h.pcs = mapLanes (g.lanesIn .run ||| g.lanesIn .yielded)
          (fun l _ => if p.exec.getLsbD l then pcWord pc else nth 0#32 p.before.pcs l) g.pcs ∧
        h.states = mapLanes (g.lanesIn .run &&& maskBy fun l => nth .exited p.before.states l == .yielded)
          (fun _ _ => .yielded) g.states ∧
        (t.core core).queues = c.queues ∧ (t.core core).copy = c.copy ∧ (t.core core).quant = c.quant ∧
        (t.core core).link = c.link ∧ (t.core core).tileData = c.tileData ∧ (t.core core).spad = c.spad ∧
        (t.core core).counters = c.counters
      (g.pendingOpd (.p p.pred) = true → r = s) ∧
      (g.pendingOpd (.p p.pred) = false → taken ≠ p.hintTaken → ∃ h, gone r (if taken then p.taken else p.next) h ∧
        (g.handler = none → h.resumeHdr = p.before.hdr)) ∧
      (∀ u, g.pendingOpd (.p p.pred) = false → taken = p.hintTaken → g.handler.isSome = true → p.items = [] → p.heldTrap = some u →
        r = abortLaunch (s.mapGroup core slot fun g => { g with predicted := none }) g.launch .trapInHandler
          (u.cause.code, core, p.heldAt.toNat)) ∧
      (g.pendingOpd (.p p.pred) = false → taken = p.hintTaken → (g.handler = none ∨ p.heldTrap = none) →
        ∃ h, r.group? core slot = some h ∧ h.pcs = g.pcs ∧ h.pend = g.pend ∧
          ((h.predicted = none ∧ h.due = (p.heldTrap <|> g.due)) ∨
            ∃ q, h.predicted = some q ∧ q.matched = true ∧ q.heldTrap = p.heldTrap ∧ h.due = g.due ∧ q.items ≠ [] ∧
              q.items <:+ p.items) ∧
          (∀ id, p.items = [.clause id] → h.predicted = none ∧ ∀ n ∈ pairCores core, (r.core n).seqQueue =
            (s.core n).seqQueue.map fun k => if predictedOf g slot k && k.id == id then { k with predicted := false } else k) ∧
          (∀ n v, p.items = [.push n v] → n < c.queues.length → c.queueFull n = false → h.predicted = none ∧
            nth [] (r.core core).queues n = nth [] c.queues n ++
              [{ launch := g.launch, block := g.block, slot := slot, id := c.nextId, value := v }]) ∧
          (∀ m k, p.items = [.cmd m k] → c.cmdFull k = false → (∀ j ∈ (c.eng (engineOf k.op)).cmds, j.id ≤ c.nextId) →
            h.predicted = none ∧
            ((r.core core).eng (engineOf k.op)).cmds = (c.eng (engineOf k.op)).cmds ++ [{ k with id := c.nextId }])) ∧
      ∃ h, gone a p.braPos h ∧ (g.handler = none → h.resumeHdr = some p.hdrOff)) ∧
    (∀ (s : State) (run : SeqRun) (l : Launch) (w : BundleWord), (s.core s.sel.core).seqRun = some run →
      s.launch? run.clause.launch = some l → run.clause.predicted = true →
      check1 (issueCtx l run) (sidesOf s s.sel.core run) = none → w ∈ (issueCtx l run).ws →
      ((∃ t n, w.word = .xgive t n) ∨ (∃ t, w.word = .xtake t) ∨ (∃ n v, w.word = .xsig n v) ∨ (∃ n, w.word = .xbar n) ∨
        (∃ t, w.word = .xend t) ∨ ∃ m z q, w.word = .mm m z ∧ run.pass = some q ∧ q.step = 63) →
      exec .seqIssue s = .next s) ∧
    (∀ (s : State) (core slot : Nat) (ex : LaneMask) (pc : Word) (hdr : Option Word) (t : Trap) (g : Group) (p : Predicted),
      s.group? core slot = some g → g.predicted = some p → g.late = [] →
      ∃ h, (raiseTrap s core slot ex pc hdr t).group? core slot = some h ∧ h.due = g.due ∧
        h.predicted = some { p with heldTrap := some t, heldAt := pc }))

/-- With no lane parked with an unhandled fault, or in a handler, CONV answers a next state that differs only by its run
going on; so does NOP. LYIELD adds the active lanes to the lanes of the run that yield at its end. PRIO gives the
issue-priority token of its scheduler to the named slot when the group holds it or nobody does, releases it when
that slot holds no group of this scheduler that has not ended, and does nothing when another group holds it. Outside
a handler, with a lane parked whose fault record is valid, CONV (with an active lane) and EXIT do not execute: the
group takes the lane-fault trap, with the cause of the lowest such lane, at the position of the instruction. With no
lane parked with an unhandled fault, or in a handler, EXIT answers a next state: every executing lane stands behind
it, each active lane is EXITED in the handler and in the frame below it, the run ends, and a group all of whose
lanes have exited ends. (04 R172, 04 R173, 04 R174, 04 R175, 04 R171, 01 R45, 02 R91, 01 R47) -/
def Obligations.ConvergeYieldPriorityNop : Prop :=
  ((∀ (s : State) (x : Issuer) (i : Instr), nopForm i = true ∨ (convForm i = true ∧ convergeTrap x = none) →
      Executes s x i → exec i s = .next (goesOn s x i)) ∧
    (∀ (s : State) (x : Issuer) (i : Instr), lyieldForm i = true → Executes s x i →
      exec i s = .next (goesOn (s.mapCore x.core fun c => c.mapSched x.sched fun k =>
        { k with run := k.run.map fun r => { r with marked := r.marked ||| activeOf x i } }) x i)) ∧
    (∀ (s : State) (x : Issuer) (i : Instr) (w : Base), prioForm i = some w → Executes s x i →
      exec i s = .next (goesOn (s.mapCore x.core fun c => c.mapSched x.sched fun k =>
        if k.holder = none ∨ k.holder = some x.slot then
          { k with holder := match c.group? w.a.toNat with
              | some g => if g.ended = false ∧ w.a.toNat % 4 = x.sched then some w.a.toNat else none
              | none => none }
        else k) x i))) ∧
  (
  (∀ (s : State) (x : Issuer) (i : Instr) (t : Trap),
        (convForm i = true ∧ Executes s x i ∨ exitForm i = true ∧ Acts s x i) →
        x.g.handler = none → laneFaultTrap x.g = some t →
        exec i s = .next (takeTrap s x.core x.sched x.slot x.run.exec x.run.pos (some x.run.cur) t)) ∧
    (
    ∀ (s : State) (x : Issuer) (i : Instr), exitForm i = true → Acts s x i → convergeTrap x = none →
        let t := s.mapGroup x.core x.slot fun g =>
          let g := g.movePcs x.run.exec (x.run.pos + BitVec.ofNat 32 (4 * lenOf i))
          let g := g.setLanes (activeOf x i) .exited
          { g with lanes := mapLanes (activeOf x i) (fun _ _ => .exited) g.lanes }
        let gone := (t.group? x.core x.slot).any fun g => g.states.all fun l => l == .exited
        exec i s = .next (endRun (if gone then endGroup t x.core x.slot else t) x.core x.sched)))

/-- For every issuer, register bound to a tile, set of lanes within the width and function of the lane: after the result
is written, the register of each of those lanes holds the result modulo 2^32, for a 64-bit type the pair holds its
low and high words, every other lane of the register holds what it held, every byte of the tiles that belongs to no
written register of those lanes is as it was, and the tile contents keep their canonical form. In the scalar form
the result of the elected lane is what the scalar register then holds: a 64-bit result whole, a 32-bit result of
signed type sign-extended, every other one zero-extended; no other scalar register of the group changes. (04 R139, 01 R17, 01 Table 1.2, 04 R140) -/
def Obligations.VectorResultReadsBack : Prop :=
  (∀ (s : State) (x : Issuer) (m : LaneMask) (d t : Nat) (f : Nat → Nat) (lo : Nat),
      issuer s = some x → (s.core x.core).tileData.wf = true → winTile x.g.winmap (vEntry x.g.wide d) = some lo →
      (∀ l, m.getLsbD l = true → l < x.g.width) →
      let u := putResult s x m false d t f
      (∀ l, l < x.g.width → vget u x d l = if m.getLsbD l then BitVec.ofNat 32 (f l) else vget s x d l) ∧
      (∀ hi, wideType t = true → winTile x.g.winmap (vEntry x.g.wide (d + 1)) = some hi → ∀ l, l < x.g.width →
        vget u x (d + 1) l = if m.getLsbD l then BitVec.ofNat 32 (f l / 2 ^ 32) else vget s x (d + 1) l) ∧
      (∀ a, ¬laneByte x m d a → (wideType t = true → ¬laneByte x m (d + 1) a) →
        (u.core x.core).tileData.get a = (s.core x.core).tileData.get a) ∧
      (u.core x.core).tileData.wf = true) ∧
  (
  ∀ (s : State) (x : Issuer) (m : LaneMask) (d t : Nat) (f : Nat → Nat), issuer s = some x → d < x.g.sregs.length →
      let u := putResult s x m true d t f
      (groupOf u x).sreg d =
        (if t = 3 ∨ t = 7 then BitVec.ofNat 64 (f (elect m))
         else if t = 2 then (BitVec.ofNat 32 (f (elect m))).signExtend 64
         else (BitVec.ofNat 32 (f (elect m))).setWidth 64) ∧
      ∀ n, n ≠ d → (groupOf u x).sreg n = x.g.sreg n)

/-- For every well-formed class V instruction whose effect is one result (integer, logic, float, move, select, address,
conversion and lane instructions): when exec answers a next state, nothing of the module outside its core differs,
no other core, group or scheduler changes, the core differs in nothing but that group, its scheduler and tile bytes;
the group differs only in what the course of a run moves and in its destination; no predicate changes; no scalar
register but a destination changes; and every byte of the tiles that belongs to no destination register of an active
lane reads as before. For PLOP, VOTE, and ICMP and FCMP whose sources are not pending: when exec answers a next
state, nothing of the module outside the group and its scheduler differs, no byte of any memory or tile and no
scalar register changes, and no predicate but the destination changes. (04 R138, 04 R139, 04 R140, 04 R142, 04 R146, 04 R147, 04 R149, 04 R165) -/
def Obligations.ResultInstructionsFrame : Prop :=
  (∀ (s t : State) (x : Issuer) (i : Instr), resultForm i = true → i.wellFormed (checkEnv x.g x.l) = true → Executes s x i →
      (s.core x.core).tileData.wf = true → exec i s = .next t →
      OnlyGroup s t x ∧
      (∀ a, (∀ n, names (writesOf x i) (.v n 1) = true → ¬laneByte x (activeOf x i) n a) →
        (t.core x.core).tileData.get a = (s.core x.core).tileData.get a) ∧
      ∃ h, t.group? x.core x.slot = some h ∧ SameButCourse x.g h ∧ h.preds = x.g.preds ∧
        ∀ n, names (writesOf x i) (.s n) = false → h.sreg n = x.g.sreg n) ∧
  (
  ∀ (s t : State) (x : Issuer) (i : Instr) (p : Nat),
      ((∃ w e, (i = .plop w e ∨ voteForm i = some (w, e)) ∧ p = (w.d.extractLsb' 0 3).toNat) ∨
       (∃ w e, (i = .icmp w e ∨ i = .fcmp w e) ∧ p = (w.d.extractLsb' 0 3).toNat ∧
         ∀ o ∈ (infoOf (checkEnv x.g x.l) i).reads, x.g.pendingOpd o = false)) →
      Executes s x i → exec i s = .next t →
      OnlyGroup s t x ∧ (t.core x.core).tileData = (s.core x.core).tileData ∧
      ∃ h, t.group? x.core x.slot = some h ∧ SameButCourse x.g h ∧ h.sregs = x.g.sregs ∧
        ∀ q, q ≠ p → h.pred q = x.g.pred q)

/-- Every class V instruction but VRAND and the control transfers, issued with an empty active set, answers the next
state in which its run goes on behind it: no register of a tile, no scalar register, no predicate, no other group,
core or scheduler and nothing outside the cores has changed. For CONV with a lane parked this is the model's choice
(log 65). Every class V instruction but the control transfers and VRAND, issued with an active lane and a named
register whose window entry is empty or whose tile another slot owns, answers the next state in which the group
takes that trap, TILE_STATE or TILE_OWNER, and no byte of a tile of the core has changed. Which of several failing
registers gives the cause is the model's choice (log 51). (04 R141, 02 R73, 04 R139, 01 R17) -/
def Obligations.NoActiveLaneChangesNothing : Prop :=
  (∀ (s : State) (x : Issuer) (i : Instr), maskedForm i = true → Issues s x i → activeOf x i = 0#64 →
      exec i s = .next (goesOn s x i) ∧ OnlyGroup s (goesOn s x i) x ∧
      ((goesOn s x i).core x.core).tileData = (s.core x.core).tileData ∧
      ∃ h, (goesOn s x i).group? x.core x.slot = some h ∧ SameButCourse x.g h ∧ h.sregs = x.g.sregs ∧ h.preds = x.g.preds) ∧
  (
  ∀ (s : State) (x : Issuer) (i : Instr) (c : Cause), maskedForm i = true → Issues s x i → activeOf x i ≠ 0#64 →
      opdChecks (s.core x.core) x.g x.slot (operandsOf x i) = some c →
      (c = .tileState ∨ c = .tileOwner) ∧ exec i s = .next (instrTrap s x i c 0 0#32) ∧
      (x.g.handler = none → ((instrTrap s x i c 0 0#32).core x.core).tileData = (s.core x.core).tileData))

/-- For every load, store, atomic and reduction of the S, C, G, H and P spaces: with every lane's location in bounds,
aligned, permitted and not in a demand region (and, for a global atomic, its spans gone from the core's L1, which is
held up while their dirty bytes go home), exec answers a next state in which the group has one more pending access
of that kind, space and size (and waits at a global atomic until its requests have come into the queues of their
service groups), whose lanes are those of the active set (or the elected one in the scalar form) at the locations of
Table 5.2 with the data of their registers, and the run goes on behind the instruction; a P access marks its launch
as a user of the fabric. (05 R177, 05 R178, 05 R180, 05 R181, 05 R182, 05 R197, 09 R336) -/
def Obligations.AccessBecomesPending : Prop :=
  ∀ (s : State) (x : Issuer) (i : Instr) (f : AccForm), accessForm i = some f → Executes s x i → x.g.ended = false →
    let ls := accLanes s x f (activeOf x i)
    let bytes := sizeBytes f.x.size.toNat
    let ok := numberParts f.sp f.kind bytes (ls.map fun p => p.1)
    let isGAtom := f.sp == .g && (f.kind == .atom || f.kind == .red)
    (∀ p ∈ ls, ∃ loc t, p.2 = .ok loc t ∧ ∀ r pg b, t ≠ .walk r pg b) →
    (isGAtom = true → flushAtom s x.core x.l.asid bytes ok = none → exec i s = .next s) ∧
    (∀ u, isGAtom = true → flushAtom s x.core x.l.asid bytes ok = some (u, false) → exec i s = .next u) ∧
    (∀ u, (isGAtom = true → flushAtom s x.core x.l.asid bytes ok = some (u, true)) → (isGAtom = false → u = s) →
      ∃ a : Access,
        a.site = siteOf x i ∧ a.kind = f.kind ∧ a.space = f.sp ∧ a.size = f.x.size.toNat ∧ a.fresh = f.x.fr ∧
        a.hint = f.x.hint ∧ a.aop = f.x.off.extractLsb' 12 4 ∧ a.dReg = f.w.d.toNat ∧ a.scalar = f.x.sd ∧
        a.win = x.g.winmap ∧ a.logged = false ∧ a.behind = [] ∧ (∀ l, l ∈ a.lanes ↔ l ∈ ok) ∧
        let t := if f.sp == .p then u.mapLaunch x.l.id fun l => { l with fabric := true } else u
        let id := (s.core x.core).nextId
        let v := (t.mapGroup x.core x.slot fun g => (g.addPend id (.access a)).logFree).mapCore x.core
          fun c => { c with nextId := c.nextId + 1 }
        exec i s = .next (goesOn
          (if isGAtom then v.mapGroup x.core x.slot fun g => { g with wait := .service id } else v) x i))

/-- For a lane of an access at its base, scaled index and offset, in each space: a misaligned location gives ADDR_ALIGN,
one out of bounds ADDR_REGION, one that its region or window forbids ACCESS_RIGHTS. S reaches byte o of the block's
allocation; C byte o of the allocation of the block of rank q of the gang on core c of the cluster; G byte a − VBASE
of a region's target, or its page where the region is translated; H byte a − VBASE of a host region's target, or
parks late while both host ports are down; P byte o of a registered window, or parks late while its module cannot be
reached. (05 R177, 05 R178, 05 R181, 05 R186, 10 R351) -/
def Obligations.LaneLocations : Prop :=
  (∀ (s : State) (x : Issuer) (k : AccKind) (bytes : Nat) (base : DWord) (idx off : Int),
    let o : Int := ((lowWord base).toNat : Int) + idx + off
    let r := formLane s x .s k bytes base idx off
    (o % bytes ≠ 0 → r = .fault .addrAlign 0 (BitVec.ofInt 64 o)) ∧
    (o % bytes = 0 → (o < 0 ∨ x.b.spadSize < o + bytes) → r = .fault .addrRegion 1 (BitVec.ofInt 64 o)) ∧
    (o % bytes = 0 → 0 ≤ o → o + bytes ≤ x.b.spadSize → r = .ok (BitVec.ofInt 64 o) (.spad x.core (x.b.spadBase + o.toNat)))) ∧
  (∀ (s : State) (x : Issuer) (k : AccKind) (bytes : Nat) (base : DWord) (idx off : Int),
    let o : Int := idx + off
    let b := (lowWord base).toNat
    let r := formLane s x .c k bytes base idx off
    (o % bytes ≠ 0 → r = .fault .addrAlign 0 (BitVec.ofInt 64 o)) ∧
    (o % bytes = 0 → 2 ^ 11 ≤ b → r = .fault .addrRegion 1 (BitVec.ofInt 64 o)) ∧
    (o % bytes = 0 → b < 2 ^ 11 → targetBlock s x (b % 64) (b / 64) = none → r = .fault .addrRegion 2 (BitVec.ofInt 64 o)) ∧
    (∀ n t, o % bytes = 0 → b < 2 ^ 11 → targetBlock s x (b % 64) (b / 64) = some (n, t) →
      ((o < 0 ∨ t.spadSize < o + bytes) → r = .fault .addrRegion 1 (BitVec.ofInt 64 o)) ∧
      (0 ≤ o → o + bytes ≤ t.spadSize → r = .ok (BitVec.ofInt 64 o) (.spad n (t.spadBase + o.toNat))))) ∧
  (∀ (s : State) (x : Issuer) (c q n : Nat) (t : Block), targetBlock s x c q = some (n, t) →
    let mine := (s.core n).blocks.filter fun d => d.launch == x.g.launch && gangOf x.l d.index == gangOf x.l x.g.block
    n = x.core / 64 * 64 + c ∧ t ∈ mine ∧ (mine.filter fun d => d.index < t.index).length = q) ∧
  (∀ (s : State) (x : Issuer) (k : AccKind) (bytes : Nat) (base : DWord) (idx off : Int),
    let d := BitVec.ofInt 64 ((base.toNat : Int) + idx + off)
    let a := d.toNat
    let g := formLane s x .g k bytes base idx off
    let h := formLane s x .h k bytes base idx off
    (a % bytes ≠ 0 → g = .fault .addrAlign 0 d ∧ h = .fault .addrAlign 0 d) ∧
    (a % bytes = 0 → regionOf x.l a = none → g = .fault .addrRegion 1 d ∧ h = .fault .addrRegion 1 d) ∧
    (∀ n r, a % bytes = 0 → regionOf x.l a = some (n, r) →
      let reads := k ≠ .store
      let writes := k ≠ .load
      let rd := r.rights % 2 = 1
      let wr := r.rights / 2 % 2 = 1
      (r.kind = 2 → g = .fault .accessRights 4 d) ∧
      (r.kind ≠ 2 → h = .fault .addrRegion 1 d ∧
        (reads → ¬rd → g = .fault .accessRights 1 d) ∧
        ((reads → rd) → writes → ¬wr → g = .fault .accessRights 2 d) ∧
        ((reads → rd) → (writes → wr) →
          (r.kind = 0 → g = .ok d (.dram (r.target + (a - r.vbase)))) ∧
          (r.kind = 1 → g = .ok d (.walk n ((a - r.vbase) / 2 ^ r.pageBits) false)))) ∧
      (r.kind = 2 →
        (reads → ¬rd → h = .fault .accessRights 1 d) ∧
        ((reads → rd) → writes → ¬wr → h = .fault .accessRights 2 d) ∧
        ((reads → rd) → (writes → wr) →
          h = if hostDown s then .late .uncorrectable 3 d else .ok d (.host (r.target + (a - r.vbase))))))) ∧
  (∀ (l : Launch) (a : Nat),
    (∀ n r, regionOf l a = some (n, r) → l.regions[n]? = some r ∧ r.length ≠ 0 ∧ r.vbase ≤ a ∧ a < r.vbase + r.length) ∧
    (regionOf l a = none → ∀ r ∈ l.regions, r.length = 0 ∨ a < r.vbase ∨ r.vbase + r.length ≤ a)) ∧
  (∀ (s : State) (x : Issuer) (k : AccKind) (bytes : Nat) (base : DWord) (idx off : Int),
    let o : Int := idx + off
    let e := BitVec.ofInt 64 o
    let b := (lowWord base).toNat
    let d := b % 256
    let w := b / 256 % 64
    let p := formLane s x .p k bytes base idx off
    let need := match k with | .load => 0 | .store => 1 | _ => 2
    (o % bytes ≠ 0 → p = .fault .addrAlign 0 e) ∧
    (o % bytes = 0 → 2 ^ 14 ≤ b → p = .fault .addrRegion 1 e) ∧
    (o % bytes = 0 → b < 2 ^ 14 → registration? s d w = none → p = .fault .addrRegion 3 e) ∧
    (∀ r, o % bytes = 0 → b < 2 ^ 14 → registration? s d w = some r →
      ((o < 0 ∨ r.length < o + bytes) → p = .fault .addrRegion 1 e) ∧
      (0 ≤ o → o + bytes ≤ r.length → r.rights.testBit need = false → p = .fault .accessRights 5 e) ∧
      (0 ≤ o → o + bytes ≤ r.length → r.rights.testBit need = true →
        p = if r.down || unreachable s d then .late .uncorrectable 3 e else .ok e (.peer d w o.toNat r.fallBack))))

/-- Outside a handler, an access none of whose lanes awaits a page (and, for a global atomic, its spans gone from the
core's L1) answers a next state, whatever mixture of its lanes fail at issue, fail late or may be made. A failing
lane is PARKED, its PC at its clause, with an LFR that held no unhandled fault now VALID with the cause, the detail
and word index, the address and the clause, and with its base, index and data in its fault entry; a lane that fails
late parks no later than the end of the run; every other lane keeps its state, LFR and entry. The lanes that may be
made are one more pending access of the group, and with none nothing is pending anew. No register changes, nor any
memory, nor anything else of the core but its groups, schedulers and, for a global atomic, its L1, nor any other
group or core, nor anything else of the module (a P access marks its launch). In a handler a failing lane ends the
launch with TRAP_IN_HANDLER and its cause, and no memory changes. A late fault that an event finds, and lanes that
an event parks, change no memory and no L1, and outside the handler's own instructions no register, no pending
operation and no other group. (01 R20, 01 R45, 05 R181, 10 R345, 10 R347, 10 R348) -/
def Obligations.FaultingLanesPark : Prop :=
  (∀ (s : State) (x : Issuer) (i : Instr) (f : AccForm), accessForm i = some f → Executes s x i →
    x.g.ended = false → x.g.handler = none → x.g.late = [] → x.g.logFull = false → x.run.marked = 0#64 →
    let ls := accLanes s x f (activeOf x i)
    let bytes := sizeBytes f.x.size.toNat
    let good := numberParts f.sp f.kind bytes (ls.filterMap fun p => match p.2 with | .ok _ _ => some p.1 | _ => none)
    let isGAtom := f.sp == .g && (f.kind == .atom || f.kind == .red)
    (∀ p ∈ ls, ∀ loc r pg b, p.2 ≠ .ok loc (.walk r pg b)) →
    (isGAtom = true → ∃ u, flushAtom s x.core x.l.asid bytes good = some (u, true)) →
    ∃ t g', exec i s = .next t ∧ t.group? x.core x.slot = some g' ∧ g'.sregs = x.g.sregs ∧ g'.preds = x.g.preds ∧
      t = { s with cores := t.cores, launches := t.launches } ∧ (f.sp ≠ .p → t.launches = s.launches) ∧
      (∀ k, k ≠ x.core → t.core k = s.core k) ∧ (∀ n, n ≠ x.slot → t.group? x.core n = s.group? x.core n) ∧
      (let c := t.core x.core
       c = { s.core x.core with groups := c.groups, scheds := c.scheds, nextId := c.nextId, l1 := c.l1 } ∧
       (isGAtom = false → c.l1 = (s.core x.core).l1)) ∧
      (good = [] → g'.pend = x.g.pend) ∧
      (good ≠ [] → ∃ a : Access, g'.pend = x.g.pend ++ [{ id := (s.core x.core).nextId, op := .access a }] ∧
        a.kind = f.kind ∧ a.space = f.sp ∧ a.size = f.x.size.toNat ∧ ∀ l, l ∈ a.lanes ↔ l ∈ good) ∧
      ∀ n, n < 64 → n < x.g.lanes.length → n < x.g.lfr.length → n < x.g.faultLog.length → n < x.g.lpc.length →
        ((∀ p ∈ ls, p.1.lane = n → ∃ loc t, p.2 = .ok loc t) → nth .exited g'.lanes n = nth .exited x.g.lanes n ∧
          g'.lfr[n]? = x.g.lfr[n]? ∧ nth none g'.faultLog n = nth none x.g.faultLog n) ∧
        (∀ p ∈ ls, p.1.lane = n → ∀ c d a, p.2 = .late c d a → nth .exited x.g.lanes n = .run →
          nth .exited g'.lanes n = .parked ∨ ∃ e ∈ g'.late, e.lane = n ∧ e.cause = c ∧ e.detail = d ∧ e.addr = a ∧
            e.site = siteOf x i) ∧
        (∀ p ∈ ls, p.1.lane = n → ∀ c d a, p.2 = .fault c d a → nth .exited g'.lanes n = .parked ∧
          (x.sched = schedOf x.slot → nth 0#32 g'.lpc n = x.run.cur) ∧
          (∀ r, x.g.lfr[n]? = some r → r.valid = false →
            g'.lfr[n]? = some { addr := a, pc := x.run.cur, valid := true, cause := BitVec.ofNat 8 c.code
                                detail := BitVec.ofNat 16 (d * 16 + (siteOf x i).wordIx % 16) } ∧
            ∃ e, nth none g'.faultLog n = some e ∧ e.cause = c ∧ e.site = siteOf x i ∧ e.a = p.1.a ∧ e.b = p.1.b ∧
              e.data = p.1.data))) ∧
  (∀ (s : State) (x : Issuer) (i : Instr) (f : AccForm) (p : LaneAcc × LaneForm) (rest : List (LaneAcc × LaneForm))
    (c : Cause) (d : Nat) (a : DWord), accessForm i = some f → Executes s x i →
    x.g.ended = false → x.g.handler.isSome = true → x.g.logFull = false → f.sp ≠ .g →
    accLanes s x f (activeOf x i) = p :: rest → p.2 = .fault c d a → (∀ q ∈ rest, ∃ c d a, q.2 = .fault c d a) →
    let u := if f.sp == .p then s.mapLaunch x.l.id fun l => { l with fabric := true } else s
    exec i s = .next (endRun (abortLaunch u x.g.launch .trapInHandler (c.code, x.core, a.toNat)) x.core x.sched)) ∧
  (∀ (s : State) (x : Issuer) (i : Instr) (f : AccForm), accessForm i = some f → Executes s x i →
    x.g.ended = false → x.g.handler.isSome = true → x.g.logFull = false →
    let ls := accLanes s x f (activeOf x i)
    (f.sp = .g → (f.kind = .atom ∨ f.kind = .red) → ∀ p ∈ ls, ∀ loc t, p.2 ≠ .ok loc t) →
    (∃ p ∈ ls, ∃ c d a, p.2 = .fault c d a) →
    ∃ t, exec i s = .next t ∧ (∀ l, t.launch? x.g.launch = some l → l.status ≠ none) ∧
      t.dram = s.dram ∧ t.hostMem = s.hostMem ∧ t.peers = s.peers ∧
      ∀ k, (t.core k).spad = (s.core k).spad ∧ (t.core k).tileData = (s.core k).tileData) ∧
  (∀ (s : State) (core slot id : Nat) (f : LateFault) (g : Group), s.group? core slot = some g →
    let t := lateFault s core slot id f
    t.dram = s.dram ∧ t.hostMem = s.hostMem ∧ t.peers = s.peers ∧ t.die0 = s.die0 ∧ t.die1 = s.die1 ∧
    (∀ k, (t.core k).spad = (s.core k).spad ∧ (t.core k).tileData = (s.core k).tileData ∧ (t.core k).l1 = (s.core k).l1) ∧
    ((g.handler.any fun h => decide (h.mark ≤ id)) = false → ∃ h, t.group? core slot = some h ∧ h.sregs = g.sregs ∧
      h.preds = g.preds ∧ h.pend = g.pend ∧ (∀ n, n ≠ slot → t.group? core n = s.group? core n) ∧
      ∀ k, k ≠ core → t.core k = s.core k)) ∧
  (∀ (s : State) (core slot id part : Nat) (site : Site) (ls : List LaneAcc) (c : Cause) (d : Nat) (g : Group),
    s.group? core slot = some g →
    let t := parkPart s core slot id part site ls c d
    t.dram = s.dram ∧ t.hostMem = s.hostMem ∧ t.peers = s.peers ∧ t.die0 = s.die0 ∧ t.die1 = s.die1 ∧
    (∀ k, (t.core k).spad = (s.core k).spad ∧ (t.core k).tileData = (s.core k).tileData ∧ (t.core k).l1 = (s.core k).l1) ∧
    ((g.handler.any fun h => decide (h.mark ≤ id)) = false → ∃ h, t.group? core slot = some h ∧ h.sregs = g.sregs ∧
      h.preds = g.preds ∧ (∀ p ∈ h.pend, p.id ≠ id → p ∈ g.pend) ∧ (∀ n, n ≠ slot → t.group? core n = s.group? core n) ∧
      ∀ k, k ≠ core → t.core k = s.core k))

/-- For a pending access whose part that the event names has lanes that wait and that nothing of the group holds up,
exec answers a next state. S and C: loads land the little-endian value of each lane's bytes, stores write them, the
highest lane winning a byte, atomics apply lane by lane. H: the same in host memory, or the lanes park when both
ports are down. G: a .fresh load lands the home's bytes, once the bytes of its span that the core's own L1 holds
dirty have gone home (log 91, the model's reading), a .stale one the bytes of the line in L1 after its fill; a
.fresh store is performed at the home, its bytes entering a valid copy, or sent to the other die behind the older
dirty bytes of its line (log 16), a .stale one sets bytes and dirty bits in L1; an atomic at the head of its service
group changes the home for its lanes in lines that are not poisoned and keeps the old values until acknowledged;
lanes in poisoned lines park. P: PLD lands the window's bytes, on the main path by way of the RDC when .stale, PUT
leaves one message in order, PATOM applies at the owner; lanes toward a module that is out of reach park. (05 R179, 05 R182, 05 R183, 05 R187, 05 R188, 05 R191, 05 R192, 05 R193, 05 R196, 05 R197) -/
def Obligations.AccessPartPerforms : Prop :=
  ∀ (s : State) (g : Group) (a : Access),
    s.group? s.sel.core s.sel.slot = some g → g.pend? s.sel.id = some (.access a) →
    let core := s.sel.core
    let slot := s.sel.slot
    let id := s.sel.id
    let part := s.sel.part
    let n := sizeBytes a.size
    let mine := a.lanes.filter fun l => l.part == part && l.open_
    let ls := a.lanes.filter fun l => l.part == part && l.progress == .waiting
    let free := ls ≠ [] ∧ partFree s core slot id g a ls = true
    let lost : Nat → Host.Outcome State Fault Refusal := fun d =>
      .next (parkPart s core slot id part a.site ls .uncorrectable d)
    let badPark : Host.Outcome State Fault Refusal := .next (parkPart s core slot id part a.site (ls.filter (s.lanePoisoned n)) .uncorrectable 2)
    -- S and C
    (∀ c, free → (a.space = .s ∨ a.space = .c) → (∀ l ∈ ls, ∃ o, l.target = .spad c o) →
      (a.kind = .load → exec .loadLand s = .next (finishPart
        (landLanes s core slot a (ls.map fun l => (l.lane, (s.core c).spad.nat (spadOf l).2 n))) core slot id part)) ∧
      (a.kind = .store → exec .storeDrain s = .next (finishPart
        (s.mapCore c fun d => { d with spad := d.spad.putCells (storeCells a ls fun l => (spadOf l).2) }) core slot id part)) ∧
      (a.kind = .atom →
        let r := atomicMany a.aop.toNat a.size (s.core c).spad (ls.map fun l => ((spadOf l).2, l.data))
        exec .atomicPerform s = .next (finishPart
          (landLanes (s.mapCore c fun d => { d with spad := r.1 }) core slot a ((ls.map fun l => l.lane).zip r.2))
          core slot id part))) ∧
    -- H
    (∀ l0 rest, free → a.space = .h → ls = l0 :: rest → (∀ l ∈ ls, ∃ p, l.target = .host p) →
      (a.kind = .load → exec .loadLand s = if hostDown s then lost 3 else .next (finishPart
        (landLanes (touchHost s (hostOf l0)) core slot a (ls.map fun l => (l.lane, s.hostMem.nat (hostOf l) n))) core slot id part)) ∧
      (a.kind = .store → exec .storeDrain s = if hostDown s then lost 3 else .next (finishPart
        { touchHost s (hostOf l0) with hostMem := s.hostMem.putCells (storeCells a ls hostOf) } core slot id part))) ∧
    -- G
    (∀ l0 rest lc, free → a.space = .g → ls = l0 :: rest → s.launch? g.launch = some lc → (∀ l ∈ ls, ∃ p, l.target = .dram p) →
      (a.kind = .load → a.fresh = true →
        let own := ownSpan lc.asid n ls
        ((∃ y ∈ (s.core core).l1, y.dirty &&& own y ≠ 0#128) → exec .loadLand s = .next (writeBackBytes s core own)) ∧
        ((∀ y ∈ (s.core core).l1, y.dirty &&& own y = 0#128) → (∃ y ∈ (s.core core).l1, y.inFlight &&& own y ≠ 0#128) →
          exec .loadLand s = .next s) ∧
        ((∀ y ∈ (s.core core).l1, y.dirty &&& own y = 0#128 ∧ y.inFlight &&& own y = 0#128) →
          exec .loadLand s = if ∃ l ∈ ls, s.lanePoisoned n l = true then badPark else
            .next (finishPart (landLanes ((homeSpans n ls).foldl (fun s p => touchL2 s p.1 false) s) core slot a
              (ls.map fun l => (l.lane, s.dram.nat (dramOf l) n))) core slot id part))) ∧
      (a.kind = .load → a.fresh = false → exec .loadLand s =
        match fillL1 s core lc.asid l0.loc.toNat (dramOf l0) (spanMask n ls) 0#32 (hintPrio a.hint) (a.hint == 1#2) with
        | .blocked => .next s
        | .held t => .next t
        | .poisoned => badPark
        | .ready t => match (t.core core).l1Find lc.asid l0.loc.toNat with
          | none => .next s
          | some y => .next (finishPart (landLanes t core slot a
              (ls.map fun l => (l.lane, y.data.nat (l.loc.toNat % 128) n))) core slot id part)) ∧
      (a.kind = .store → a.fresh = true →
        let t := s.mapGroup core slot fun g => g.setPart id part fun l => { l with progress := .sent }
        exec .storeDrain s = .next (writeHomes
          (if homeDie (dramOf l0) = dieOf core then freshCopy t core lc.asid a ls
           else sendOlder t core lc.asid l0 (storeCells a ls fun l => l.loc.toNat % 128)) (dieOf core) (.part core slot id part)
          ((homeSpans n ls).map fun p => ((storeCells a ls dramOf).filter fun c => lineOf c.1 == p.1, p.2)))) ∧
      (a.kind = .store → a.fresh = false →
        let cells := storeCells a ls fun l => l.loc.toNat % 128
        exec .storeDrain s =
          match fillL1 s core lc.asid l0.loc.toNat (dramOf l0) (spanMask n ls) (wholeWords cells) (hintPrio a.hint) false with
          | .blocked => .next s
          | .held t => .next t
          | .poisoned => badPark
          | .ready t => .next (finishPart (t.mapCore core fun c => c.l1Store lc.asid l0.loc.toNat cells) core slot id part))) ∧
    (∀ l0 rest, a.space = .g → (a.kind = .atom ∨ a.kind = .red) → mine = l0 :: rest → (∀ l ∈ mine, l.progress = .queued) →
      atFront s (dramOf l0) (.part core slot id part) = true →
      let t := dequeue s (dramOf l0) (.part core slot id part)
      exec .atomicPerform s = .next (atomicAtHome t core slot id part a mine) ∧
      (atomicAtHome t core slot id part a mine).dram = (atomicMany a.aop.toNat a.size s.dram
        ((mine.filter fun l => !s.lanePoisoned n l).map fun l => (dramOf l, l.data))).1) ∧
    -- P
    (∀ l0 rest d w o f, free → a.space = .p → ls = l0 :: rest → l0.target = .peer d w o f →
      (∀ l ∈ ls, ∃ p h, l.target = .peer d w p h) →
      let gone := unreachable s d || (match registration? s d w with | some r => r.down | none => true)
      let data := peerData s d w
      (a.kind = .load → exec .loadLand s =
        if gone then lost 3
        else if a.fresh || f then .next (finishPart
          (landLanes s core slot a (ls.map fun l => (l.lane, data.nat (peerOf l).2.2 n))) core slot id part)
        else
          let r := viaRdc s (dieOf core) (.peer d w (o / 128)) (spanMask n ls) (data.bytes (o / 128 * 128) 128)
          .next (finishPart (landLanes r.1 core slot a (ls.map fun l => (l.lane, r.2.nat ((peerOf l).2.2 % 128) n)))
            core slot id part)) ∧
      (a.kind = .atom → exec .atomicPerform s =
        if gone then lost 3
        else
          let r := atomicMany a.aop.toNat a.size data (ls.map fun l => ((peerOf l).2.2, l.data))
          .next (finishPart (landLanes (setPeerData s d w r.1) core slot a ((ls.map fun l => l.lane).zip r.2)) core slot id part)) ∧
      (a.kind = .store → gone = true → exec .storeDrain s = .next (closePut
        (parkPart s core slot id part a.site ls .uncorrectable 3) core slot id d w
        { a with lanes := a.lanes.map fun q => if q.part = part then { q with progress := .parked } else q })) ∧
      (a.kind = .store → gone = false → lsendBefore (s.core core) slot id d w = false →
        (∀ q ∈ a.lanes, q.part < part → q.open_ = true → (peerOf q).1 ≠ d ∨ (peerOf q).2.1 ≠ w) →
        streamMoves s core d w (streamLink s core d w) = false →
        ∃ m : PutMsg, m.out = true ∧ m.device = d ∧ m.window = w ∧ m.core = core ∧ m.landed = false ∧
          m.cells = storeCells a ls (fun l => (peerOf l).2.2) ∧ m.ref = .part core slot id part ∧
          m.link = streamLink s core d w ∧
          (let same := a.lanes.filter fun q => (peerOf q).1 == d && (peerOf q).2.1 == w && q.progress != .parked
           m.final = !(same.any fun q => decide (part < q.part)) ∧ m.n = if m.final then same.length else 0) ∧
          exec .storeDrain s = .next (finishPart (sendPut s m) core slot id part)))

/-- A fill of L1 for words that are valid there changes no byte of the line. A fill of an absent line of the core's own
die into a set with room, none of whose words the core's groups have a write under way to (log 16), brings the bytes
of the home into the words asked for, clean, wherever the line begins there (10 R351). A .stale store leaves the
bytes it writes in the line and marks exactly those dirty too. A word that the RDC holds keeps its bytes, and a word
that it lacks takes those given. A write-back leaves the dirty bytes of every line at their places in the home, and
every other byte as it was, when the lines lie on the core's die at places that do not meet. (05 R187, 05 R188, 08 R303, 08 R304, 08 R308, 05 Table 5.4) -/
def Obligations.FillsAndCopies : Prop :=
  (∀ (s : State) (core asid va dpa : Nat) (mask whole : BitVec 32) (prio : Nat) (ro : Bool) (l : L1Line),
    (s.core core).l1Find asid va = some l → l.valid &&& mask = mask →
    ∃ t y, fillL1 s core asid va dpa mask whole prio ro = .ready t ∧ (t.core core).l1Find asid va = some y ∧
      y.data = l.data ∧ y.valid = l.valid ∧ y.dirty = l.dirty ∧ y.prio = l.prio ∧ t.dram = s.dram) ∧
  (∀ (s : State) (core asid va dpa : Nat) (mask : BitVec 32) (prio : Nat) (ro : Bool),
    (s.core core).l1Find asid va = none → (s.core core).l1Victim asid (lineOf va) (s.waysLeft 1 core (l1Set (lineOf va)) 8) = none →
    let p := dpa - va % 128
    va % 128 ≤ dpa → homeDie p = dieOf core → homeDie (p + 127) = dieOf core → s.poisonedAt p = false →
    s.poisonedAt (p + 127) = false → mask ≠ 0#32 → mask &&& homeBusy s core asid (lineOf va) = 0#32 →
    ∃ t y, fillL1 s core asid va dpa mask 0#32 prio ro = .ready t ∧ (t.core core).l1Find asid va = some y ∧
      y.dpa = p ∧ y.valid = mask ∧ y.dirty = 0#128 ∧ y.prio = prio ∧ t.dram = s.dram ∧
      ∀ b, b < 128 → mask.getLsbD (b / 4) = true → y.data.get b = s.dram.get (p + b)) ∧
  (∀ (c : Core) (asid va : Nat) (l : L1Line) (cells : List (Nat × Byte)), c.l1Find asid va = some l → l.data.wf = true →
    (∀ p ∈ cells, p.1 < 128) → (cells.map fun p => p.1).Nodup →
    ∃ y, (c.l1Store asid va cells).l1Find asid va = some y ∧ y.valid = l.valid ∧ y.prio = l.prio ∧
      ∀ b, b < 128 →
        (∀ v, (b, v) ∈ cells → y.data.get b = v ∧ y.dirty.getLsbD b = true) ∧
        ((∀ v, (b, v) ∉ cells) → y.data.get b = l.data.get b ∧ y.dirty.getLsbD b = l.dirty.getLsbD b)) ∧
  (∀ (s : State) (d : Nat) (key : RdcKey) (mask : BitVec 32) (home : List Byte) (b : Nat), b < 128 →
    mask.getLsbD (b / 4) = true →
    ((s.die d).rdcFind key = none → (viaRdc s d key mask home).2.get b = nth 0#8 home b) ∧
    (∀ l, (s.die d).rdcFind key = some l → l.data.wf = true → (viaRdc s d key mask home).2.get b =
      if l.valid.getLsbD (b / 4) then l.data.get b else nth 0#8 home b)) ∧
  (∀ (s : State) (core : Nat), s.dram.wf = true → (s.core core).l1.Pairwise (fun y z => y.dpa + 128 ≤ z.dpa ∨ z.dpa + 128 ≤ y.dpa) →
    (∀ y ∈ (s.core core).l1, ∀ b, b < 128 → homeDie (y.dpa + b) = dieOf core) →
    let t := writeBack s core fun _ => true
    (∀ y ∈ (s.core core).l1, ∀ b, b < 128 → y.dirty.getLsbD b = true → t.dram.get (y.dpa + b) = y.data.get b) ∧
    (∀ a, (∀ y ∈ (s.core core).l1, a < y.dpa ∨ y.dpa + 128 ≤ a ∨ y.dirty.getLsbD (a - y.dpa) = false) →
      t.dram.get a = s.dram.get a) ∧
    (t.core core).l1Dirty = false ∧ t.hostMem = s.hostMem ∧ ∀ k, (t.core k).spad = (s.core k).spad)

/-- When STORE_DRAIN of a part answers a next state: in S or C space, every byte of the scratchpad of its lanes that no
lane stores reads as before, and so does every byte of every other core's scratchpad, of device memory and of host
memory; in H space the same holds of host memory; of a .fresh store to a line of the core's die the same holds of
device memory; a PUT changes no memory at all before it lands. Memories keep their canonical form. (05 R182, 05 R183, 05 R188, 05 R191, 05 R193) -/
def Obligations.DrainFrame : Prop :=
  ∀ (s t : State) (g : Group) (a : Access),
    s.group? s.sel.core s.sel.slot = some g → g.pend? s.sel.id = some (.access a) → a.kind = .store →
    let n := sizeBytes a.size
    let ls := a.lanes.filter fun l => l.part == s.sel.part && l.progress == .waiting
    ls ≠ [] → exec .storeDrain s = .next t →
    (∀ c, (a.space = .s ∨ a.space = .c) → (∀ l ∈ ls, ∃ o, l.target = .spad c o) → (s.core c).spad.wf = true →
      (∀ b, (∀ l ∈ ls, b < (spadOf l).2 ∨ (spadOf l).2 + n ≤ b) → (t.core c).spad.get b = (s.core c).spad.get b) ∧
      (∀ k, k ≠ c → (t.core k).spad = (s.core k).spad) ∧ t.dram = s.dram ∧ t.hostMem = s.hostMem ∧ t.peers = s.peers ∧
      (t.core c).spad.wf = true) ∧
    (a.space = .h → (∀ l ∈ ls, ∃ p, l.target = .host p) → s.hostMem.wf = true →
      (∀ b, (∀ l ∈ ls, b < hostOf l ∨ hostOf l + n ≤ b) → t.hostMem.get b = s.hostMem.get b) ∧
      (∀ k, (t.core k).spad = (s.core k).spad) ∧ t.dram = s.dram ∧ t.peers = s.peers ∧ t.hostMem.wf = true) ∧
    (a.space = .g → a.fresh = true → (∀ l ∈ ls, ∃ p, l.target = .dram p ∧ homeDie p = dieOf s.sel.core) → s.dram.wf = true →
      (∀ b, (∀ l ∈ ls, b < dramOf l ∨ dramOf l + n ≤ b) → t.dram.get b = s.dram.get b) ∧
      (∀ k, (t.core k).spad = (s.core k).spad) ∧ t.hostMem = s.hostMem ∧ t.peers = s.peers ∧ t.dram.wf = true) ∧
    (a.space = .p → (∀ l ∈ ls, ∃ d w o f, l.target = .peer d w o f) →
      (∀ k, (t.core k).spad = (s.core k).spad) ∧ t.dram = s.dram ∧ t.hostMem = s.hostMem ∧ t.peers = s.peers)

/-- FENCE, ACQ and REL answer a next state: at scope group nothing but the position changes; at a wider scope the group
waits, with the release, the acquire and the walk fence that the instruction names, at its scope, for the accesses
before it (which ones: log 18, the model's reading); its run stands until they are complete (log 55, the model's
reading). ACQ .remote with a victim core of its instance other than its own waits for that victim first; a victim
outside the instance parks the elected lane with ACCESS_RIGHTS. For a group that waits for a synchronisation: a
release at core scope with no earlier access pending, or an acquire there with no earlier load pending, is complete;
at a wider scope a core with dirty spans in L1 writes them all back, and once they are acknowledged the release is
complete (at domain and system scope also once earlier PUTs are), while an acquire takes from L1 every word outside
.ro spans, and at domain and system scope the lines of peers from the RDC; the victim of an ACQ .remote does so
first; a walk fence drops the TLB entries of the address space. With every action complete the group waits no more.
Each step answers a next state. (05 R198, 05 R199, 05 R200, 05 R201, 05 Table 5.4) -/
def Obligations.FenceAcquireReleaseWait : Prop :=
  ((∀ (s : State) (x : Issuer) (i : Instr) (e : ExtC) (rel acq walk : Bool), syncForm i = some (e, rel, acq, walk) →
      Executes s x i →
      exec i s = .next (if e.scope = 0#3 then goesOn s x i
        else goesOn (s.mapGroup x.core x.slot fun g =>
          { g with wait := .sync { rel := rel, acq := acq, scope := e.scope.toNat, walk := walk, victim := none
                                   mark := (s.core x.core).nextId, sent := false } }) x i)) ∧
    (∀ (s : State) (x : Issuer) (w : Base) (e : ExtC), Executes s x (.acqRemote w e) →
      let v := if e.sa then (x.g.sreg w.a.toNat).toNat else (vget s x w.a.toNat (elect (activeOf x (.acqRemote w e)))).toNat
      v < 512 → sameInstance e.scope.toNat x.core v = true → e.scope ≠ 0#3 →
      exec (.acqRemote w e) s = .next (goesOn (s.mapGroup x.core x.slot fun g =>
        { g with wait := .sync { rel := false, acq := true, scope := e.scope.toNat, walk := false
                                 victim := if v = x.core then none else some v, mark := (s.core x.core).nextId, sent := false } })
        x (.acqRemote w e))) ∧
    (∀ (s : State) (x : Issuer) (w : Base) (e : ExtC), Executes s x (.acqRemote w e) → x.g.ended = false → x.g.handler = none →
      let l := elect (activeOf x (.acqRemote w e))
      let v := if e.sa then (x.g.sreg w.a.toNat).toNat else (vget s x w.a.toNat l).toNat
      (512 ≤ v ∨ sameInstance e.scope.toNat x.core v = false) →
      exec (.acqRemote w e) s = .next (goesOn (parkAtIssue s x.core x.slot
        [{ lane := l, cause := .accessRights, detail := 6, addr := 0#64, site := siteOf x (.acqRemote w e)
           a := BitVec.ofNat 64 v, b := 0#64, data := [] }]) x (.acqRemote w e)))) ∧
  (
  ∀ (s : State) (g : Group) (op : SyncOp), s.group? s.sel.core s.sel.slot = some g → g.wait = .sync op →
      (op.rel = true → op.scope = 1 → g.accessesDone op.mark = true →
        exec .syncActionsComplete s = .next (setWait s s.sel.core s.sel.slot (.sync { op with rel := false }))) ∧
      (op.rel = true → 2 ≤ op.scope → g.accessesDone op.mark = true → (s.core s.sel.core).l1Dirty = true →
        exec .syncActionsComplete s = .next (writeBack s s.sel.core fun _ => true)) ∧
      (op.rel = true → 2 ≤ op.scope → g.accessesDone op.mark = true → (s.core s.sel.core).l1Dirty = false →
        (s.core s.sel.core).wbOut = 0 → (6 ≤ op.scope → putsDone s s.sel.core s.sel.slot op.mark = true) →
        exec .syncActionsComplete s = .next (setWait s s.sel.core s.sel.slot (.sync { op with rel := false }))) ∧
      (∀ v, op.rel = false → op.victim = some v → g.loadsDone op.mark = true →
        ((s.core v).l1Dirty = true → exec .syncActionsComplete s = .next (writeBack s v fun _ => true)) ∧
        ((s.core v).l1Dirty = false → (s.core v).wbOut = 0 → exec .syncActionsComplete s = .next
          (setWait (s.mapCore v Core.l1Acquire) s.sel.core s.sel.slot (.sync { op with victim := none })))) ∧
      (op.rel = false → op.victim = none → op.acq = true → op.scope < 2 → g.loadsDone op.mark = true →
        exec .syncActionsComplete s = .next (setWait s s.sel.core s.sel.slot (.sync { op with acq := false }))) ∧
      (op.rel = false → op.victim = none → op.acq = true → 2 ≤ op.scope → g.loadsDone op.mark = true →
        ((s.core s.sel.core).l1Dirty = true → exec .syncActionsComplete s = .next (writeBack s s.sel.core fun _ => true)) ∧
        ((s.core s.sel.core).l1Dirty = false → (s.core s.sel.core).wbOut = 0 → exec .syncActionsComplete s = .next
          (setWait (let t := s.mapCore s.sel.core Core.l1Acquire
                    if 6 ≤ op.scope then t.mapDie (dieOf s.sel.core) fun d => d.rdcDropPeers fun _ _ => true else t)
            s.sel.core s.sel.slot (.sync { op with acq := false })))) ∧
      (op.rel = false → op.victim = none → op.acq = false → op.walk = false →
        exec .syncActionsComplete s = .next (setWait s s.sel.core s.sel.slot .none)) ∧
      (op.rel = false → op.victim = none → op.acq = false → op.walk = true →
        exec .syncActionsComplete s = .next (walkFence (setWait s s.sel.core s.sel.slot .none) (asidOf s g.launch))) ∧
      (∀ (c : Core) (y : L1Line), y ∈ c.l1Acquire.l1 ↔ y.valid ≠ 0#32 ∧ ∃ z ∈ c.l1, y = { z with valid := z.valid &&& z.ro }) ∧
      (∀ (t : State) (asid : Nat) (d : Nat), d < 2 → ∀ e ∈ ((walkFence t asid).die d).tlb, e.asid ≠ asid))

/-- PREF answers a next state whose run goes on, the lines of its active lanes prefetched in ascending lane order. One
prefetch reads the line where the address lies: a readable resident region's target, or the page that the TLB holds;
an address outside every region, or one that is not readable, host memory or not translated changes nothing at all.
Under .fresh the line is in the L2 of its home afterwards, and nothing differs but the L2s. Else L1 holds the whole
line: words that were valid keep their bytes, and the others have those of the home, at the retention priority of
the hint, .ro under that hint, when no way must be freed and no write of the core is under way to it; a poisoned
line changes nothing; for a way to be freed that is dirty the write-back sets out and the prefetch stays pending, in
no class, until LOAD_LAND fills its line. No register, scratchpad, device or host memory changes. (05 R187, 05 R190, 08 R303, 10 R351, 10 R366) -/
def Obligations.PrefetchFillsLines : Prop :=
  (∀ (s : State) (x : Issuer) (i : Instr) (w : Base) (e : ExtM), prefForm i = some (w, e) → Executes s x i →
    let f : AccForm := { sp := .g, kind := .load, w := w, x := e }
    let va : Nat → Nat := fun l =>
      (BitVec.ofInt 64 (((accBase s x f l).toNat : Int) + (accIndex s x f l).toInt * 2 ^ e.xs.toNat + e.off.toInt)).toNat
    exec i s = .next (goesOn ((lanesOf (activeOf x i)).foldl (fun t l => prefetchOne t x e.fr e.hint (va l)) s) x i)) ∧
  (∀ (t : State) (x : Issuer) (a : Nat),
    let line := prefetchLine t x a
    (line = none → ∀ fresh hint, prefetchOne t x fresh hint a = t) ∧
    (regionOf x.l a = none → line = none) ∧
    (∀ n r, regionOf x.l a = some (n, r) → (r.kind = 2 ∨ r.rights % 2 = 0) → line = none) ∧
    (∀ n r, regionOf x.l a = some (n, r) → r.kind = 0 → r.rights % 2 = 1 →
      line = some (t, r.target + (a - r.vbase) - a % 128)) ∧
    (∀ n r, regionOf x.l a = some (n, r) → r.kind = 1 → r.rights % 2 = 1 →
      let d := dieOf x.core
      let page := (a - r.vbase) / 2 ^ r.pageBits
      ((t.die d).tlbFind x.l.asid n page = none → line = none) ∧
      (∀ e, (t.die d).tlbFind x.l.asid n page = some e →
        line = some (t.mapDie d fun y => y.tlbTouch x.l.asid n page, lineOf (e.dpa + (a - r.vbase) % 2 ^ r.pageBits))))) ∧
  (∀ (t u : State) (x : Issuer) (hint : BitVec 2) (a d : Nat), prefetchLine t x a = some (u, d) →
    let v := prefetchOne t x true hint a
    (∃ y ∈ (v.die (homeDie (d + 127))).l2, y.dpa = lineOf (d + 127)) ∧
    v = { u with die0 := { u.die0 with l2 := v.die0.l2 }, die1 := { u.die1 with l2 := v.die1.l2 } }) ∧
  (∀ (t u : State) (x : Issuer) (hint : BitVec 2) (a d : Nat), prefetchLine t x a = some (u, d) →
    let c := u.core x.core
    let v := prefetchOne t x false hint a
    let prio := if hint = 2#2 then 0 else if hint = 3#2 then 2 else 1
    let only := v = { u with cores := v.cores, die0 := v.die0, die1 := v.die1 } ∧ (∀ k, k ≠ x.core → v.core k = u.core k) ∧
      v.core x.core = { c with l1 := (v.core x.core).l1 }
    let near := homeDie d = dieOf x.core ∧ homeDie (d + 127) = dieOf x.core
    let clean := u.poisonedAt d = false ∧ u.poisonedAt (d + 127) = false
    let quiet := homeBusy u x.core x.l.asid (lineOf a) = 0#32
    let room := c.l1Victim x.l.asid (lineOf a) (u.waysLeft 1 x.core (l1Set (lineOf a)) 8) = none
    (∀ y, c.l1Find x.l.asid a = some y → y.valid = BitVec.allOnes 32 → only ∧ v.die0 = u.die0 ∧ v.die1 = u.die1 ∧
      ∃ z, (v.core x.core).l1Find x.l.asid a = some z ∧ z.valid = y.valid ∧ z.data = y.data ∧ z.dirty = y.dirty) ∧
    (∀ y, c.l1Find x.l.asid a = some y → y.data.wf = true → y.valid ≠ BitVec.allOnes 32 → near → clean → quiet → only ∧
      ∃ z, (v.core x.core).l1Find x.l.asid a = some z ∧ z.valid = BitVec.allOnes 32 ∧ z.dirty = y.dirty ∧ z.prio = prio ∧
        (hint = 1#2 → z.ro = BitVec.allOnes 32) ∧
        ∀ b, b < 128 → z.data.get b = if y.valid.getLsbD (b / 4) then y.data.get b else u.dram.get (d + b)) ∧
    (c.l1Find x.l.asid a = none → room → near → clean → quiet → only ∧
      ∃ z, (v.core x.core).l1Find x.l.asid a = some z ∧ z.valid = BitVec.allOnes 32 ∧ z.dirty = 0#128 ∧ z.prio = prio ∧
        z.dpa = d ∧ z.ro = (if hint = 1#2 then BitVec.allOnes 32 else 0#32) ∧
        ∀ b, b < 128 → z.data.get b = u.dram.get (d + b)) ∧
    (c.l1Find x.l.asid a = none → room → homeDie d ≠ dieOf x.core → d % 128 = 0 → u.poisonedAt d = false → quiet →
      (u.die (dieOf x.core)).rdcFind (.line d) = none → only ∧
      ∃ z, (v.core x.core).l1Find x.l.asid a = some z ∧ z.valid = BitVec.allOnes 32 ∧
        ∀ b, b < 128 → z.data.get b = u.dram.get (d + b)) ∧
    (c.l1Find x.l.asid a = none → room → near → u.poisonedAt d = true → quiet → v = u) ∧
    (∀ y g, c.l1Find x.l.asid a = none → quiet → u.group? x.core x.slot = some g →
      c.l1Victim x.l.asid (lineOf a) (u.waysLeft 1 x.core (l1Set (lineOf a)) 8) = some y → y.dirty ≠ 0#128 →
      let op : PendOp := .pref (lineOf a) d hint
      op.classes = 0#8 ∧ ∃ h, v.group? x.core x.slot = some h ∧ h.pend = g.pend ++ [{ id := c.nextId, op := op }] ∧
        h.sregs = g.sregs ∧ h.preds = g.preds ∧ (v.core x.core).spad = c.spad ∧ (v.core x.core).tileData = c.tileData ∧
        ∀ z ∈ (v.core x.core).l1, z.asid = y.asid → z.va = y.va → z.dirty = 0#128)) ∧
  (∀ (s : State) (g : Group) (l : Launch) (va d : Nat) (hint : BitVec 2), s.group? s.sel.core s.sel.slot = some g →
    g.pend? s.sel.id = some (.pref va d hint) → s.launch? g.launch = some l → va % 128 = 0 →
    let core := s.sel.core
    (s.core core).l1Find l.asid va = none → (s.core core).l1Victim l.asid va (s.waysLeft 1 core (l1Set va) 8) = none →
    homeDie d = dieOf core → homeDie (d + 127) = dieOf core → s.poisonedAt d = false → s.poisonedAt (d + 127) = false →
    homeBusy s core l.asid va = 0#32 →
    ∃ t h z, exec .loadLand s = .next t ∧ t.group? core s.sel.slot = some h ∧ h.pend? s.sel.id = none ∧ h.sregs = g.sregs ∧
      (t.core core).l1Find l.asid va = some z ∧ z.valid = BitVec.allOnes 32 ∧ t.dram = s.dram ∧
      ∀ b, b < 128 → z.data.get b = s.dram.get (d + b))

/-- BARE adds its count to PENDING when the sum is at most 63, and traps with BAR_OVERFLOW otherwise; behind an arrival
of the group at the barrier that is not applied it becomes pending, whatever the sum is then, and applies after that
arrival (log 60, the model's reading). BARA leaves an arrival pending and the group goes on; BARW goes on to the
acquire of the barrier's scope when no arrival of the group is outstanding and its token differs from the phase, and
waits otherwise; BARAW leaves its arrival, which applies at once when nothing holds it up, and then does as BARW.
Each answers a next state. ARRIVE_APPLY of a block barrier's arrival, the group's first at that barrier, with no
earlier access pending: the arrival is pending no more, the group's token is the phase at that moment, and PENDING
above 1 falls by 1. At PENDING 1 or less PHASE turns and PENDING becomes MEMBERS less those that leave. At a wider
barrier it first writes L1 back; then the arrival counts at the core's segment, which sends its own at PENDING 1 or
less; once every segment of the instance has sent, the phase of each turns and its PENDING becomes its members less
those that leave and those that have arrived early. What an arrival or an EXPECT does at a segment that has sent
already is the model's choice (log 52). An EXPECT that is pending behind an arrival applies then; where PENDING
would pass 63, BAR_OVERFLOW is delivered to its group, or ends the launch of one whose handler made it (log 60, the
model's reading), and with its group ended it is dropped (log 86, the model's choice). (05 R203, 01 R55, 01 R56) -/
def Obligations.BarrierInstructions : Prop :=
  (∀ (s : State) (x : Issuer) (w : Base) (e : ExtC),
      let k := (barOf e).1
      let n := (barOf e).2
      let count := (e.imm.extractLsb' 8 6).toNat
      let id := (s.core x.core).nextId
      let later : PendOp → State := fun op =>
        (s.mapGroup x.core x.slot fun g => g.addPend id op).mapCore x.core fun c => { c with nextId := c.nextId + 1 }
      let waits : State → Instr → State := fun t i =>
        let g := groupOf t x
        if g.arriving k n = false ∧ g.token k n ≠ phaseOf t x.core x.l x.b k n then
          goesOn (t.mapGroup x.core x.slot fun g => g.acquire (barScope k) (t.core x.core).nextId) x i
        else waitsBehind (setWait t x.core x.slot (.barrier k n)) x i
      let fit := pendingOf s x.core x.l x.b k n + count ≤ 63
      (Executes s x (.bare w e) → x.g.arrivesBefore k n id = false →
        exec (.bare w e) s = .next
          (if fit then goesOn (expectBar s x.core x.l x.b k n count) x (.bare w e)
           else instrTrap s x (.bare w e) .barOverflow 0 0#32)) ∧
      (Executes s x (.bare w e) → x.g.arrivesBefore k n id = true →
        exec (.bare w e) s = .next (goesOn (later (.expect (siteOf x (.bare w e)) k n count (issueView s x (.bare w e)))) x (.bare w e))) ∧
      (Executes s x (.bara w e) → exec (.bara w e) s = .next (goesOn (later (.arrive k n false)) x (.bara w e))) ∧
      (Executes s x (.barw w e) → exec (.barw w e) s = .next (waits s (.barw w e))) ∧
      (Executes s x (.baraw w e) →
        exec (.baraw w e) s = .next (waits (applyArrive (later (.arrive k n true)) x.core x.slot id) (.baraw w e)))) ∧
  (
  (∀ (s : State) (g : Group) (l : Launch) (b : Block) (n : Nat) (w : Bool),
      s.group? s.sel.core s.sel.slot = some g → g.pend? s.sel.id = some (.arrive .block n w) →
      s.launch? g.launch = some l → (s.core s.sel.core).block? g.launch g.block = some b →
      (∀ p ∈ g.pend, p.id < s.sel.id → p.op.isAccess = false ∧ (∀ v, p.op ≠ .arrive .block n v) ∧
        ∀ q c v, p.op ≠ .expect q .block n c v) →
      b.bar n < (s.core s.sel.core).bars.length →
      let y := nth Barrier.empty (s.core s.sel.core).bars (b.bar n)
      ∃ t h, exec .arriveApply s = .next t ∧ t.group? s.sel.core s.sel.slot = some h ∧ h.pend? s.sel.id = none ∧
        ((∃ v, (((BarKind.block, n), v) : (BarKind × Nat) × Bool) ∈ g.tokens) → h.token .block n = y.phase) ∧
        nth Barrier.empty (t.core s.sel.core).bars (b.bar n) =
          (if y.pending ≤ 1 then
            { y with pending := y.members - y.leaving, members := y.members - y.leaving, phase := !y.phase, leaving := 0 }
          else { y with pending := y.pending - 1 })) ∧
    (∀ (s : State) (g : Group) (l : Launch) (b : Block) (k : BarKind) (n : Nat) (w : Bool), k ≠ .block →
      s.group? s.sel.core s.sel.slot = some g → g.pend? s.sel.id = some (.arrive k n w) →
      s.launch? g.launch = some l → (s.core s.sel.core).block? g.launch g.block = some b →
      g.arrivesBefore k n s.sel.id = false → g.accessesDone s.sel.id = true →
      let core := s.sel.core
      ((s.core core).l1Dirty = true → exec .arriveApply s = .next (writeBack s core fun _ => true)) ∧
      ((s.core core).l1Dirty = false → (s.core core).wbOut = 0 →
        let u := arriveSeg (s.mapGroup core s.sel.slot fun g =>
          (g.dropPend s.sel.id).setToken k n (phaseOf s core l b k n)) core l.id (barInstance l core b.index k) k n
        exec .arriveApply s = .next (u.mapGroup core s.sel.slot fun g =>
          if g.wait = .barrier k n ∧ g.arriving k n = false ∧ g.token k n ≠ phaseOf u core l b k n then
            g.acquire (barScope k) (u.core core).nextId else g))) ∧
    (∀ (s : State) (core launch inst n : Nat) (k : BarKind) (y : Segment), y ∈ (s.core core).segs →
      isSeg launch inst k n y = true → y.bar.sent = false → 2 ≤ y.bar.pending →
      { y with bar := { y.bar with pending := y.bar.pending - 1 } } ∈ ((arriveSeg s core launch inst k n).core core).segs) ∧
    (∀ (s : State) (core launch inst n m : Nat) (k : BarKind) (z : Segment),
      (∀ y ∈ (s.core core).segs, isSeg launch inst k n y = true → y.bar.sent = false ∧ y.bar.pending ≤ 1) →
      (∃ y ∈ (s.core core).segs, isSeg launch inst k n y = true ∧ y.bar.leaving < y.bar.members) →
      (∀ p ∈ s.cores, p.1 ≠ core → ∀ y ∈ p.2.segs, isSeg launch inst k n y = true → y.bar.sent = true) →
      (s.cores.map fun p => p.1).Pairwise (· < ·) →
      z ∈ ((arriveSeg s core launch inst k n).core m).segs → isSeg launch inst k n z = true →
      ∃ y ∈ (s.core m).segs, isSeg launch inst k n y = true ∧ z.bar.phase = !y.bar.phase ∧
        z.bar.members = y.bar.members - y.bar.leaving ∧ z.bar.pending = z.bar.members - y.bar.extra) ∧
    (∀ (s : State) (core slot : Nat) (p : Pend) (q : Site) (k : BarKind) (n count : Nat) (v : List (List Word)) (g : Group) (l : Launch)
      (b : Block), p.op = .expect q k n count v → s.group? core slot = some g → g.arrivesBefore k n p.id = false →
      s.launch? g.launch = some l → (s.core core).block? g.launch g.block = some b → pendingOf s core l b k n + count ≤ 63 →
      applyExpect s core slot p = expectBar (s.mapGroup core slot fun g => g.dropPend p.id) core l b k n count) ∧
    (∀ (s : State) (core slot : Nat) (p : Pend) (q : Site) (k : BarKind) (n count : Nat) (v : List (List Word)) (g : Group) (l : Launch)
      (b : Block), p.op = .expect q k n count v → s.group? core slot = some g → g.arrivesBefore k n p.id = false →
      s.launch? g.launch = some l → (s.core core).block? g.launch g.block = some b → 63 < pendingOf s core l b k n + count →
      let t := s.mapGroup core slot fun g => g.dropPend p.id
      (g.ended = true → applyExpect s core slot p = t) ∧
      (g.ended = false → g.handler = none → applyExpect s core slot p = t.mapGroup core slot fun g =>
        { g with delivered := g.delivered ++ [{ Trap.plain .barOverflow with
            word := BitVec.ofNat 4 q.wordIx, chain := q.chained, words := q.base ++ q.hdr, view := v }] }) ∧
      (∀ h, g.ended = false → g.handler = some h → h.mark ≤ p.id →
        applyExpect s core slot p = abortLaunch t g.launch .trapInHandler (Cause.barOverflow.code, core, q.hdrOff.toNat))))

/-- GIVE of a tile that the group owns, to another live group of the block or to a unit, makes that the owner, sets
OFFER for a group, and sets LAND until the group's earlier accesses and pending writes of the tile have landed; to
itself it changes nothing. TAKE leaves a pending TAKE, which completes at once when the tile is the group's own with
LAND clear. OWNQ writes the tile number, LAND, OFFER and the owner, or 0xFF3F for an empty entry. Each answers a
next state. TAKE_COMPLETE of a group's first pending TAKE of a named tile: when the group owns the tile and LAND is
clear, OFFER is cleared, the entry it names is bound to the tile and the TAKE is pending no more; otherwise nothing
changes. One of an offered tile changes nothing while none is offered to the group, and becomes a TAKE of the
lowest-numbered one when one is, completing at once where it can. (05 R206, 05 R207, 05 R210, 05 R208) -/
def Obligations.TileHandOff : Prop :=
  ((∀ (s : State) (x : Issuer) (w : Base) (e : ExtC) (t : Nat), Executes s x (.give w e) → tileSel x w e = some t →
      let n := (e.imm.extractLsb' 0 6).toNat
      let y := (s.core x.core).tile t
      y.owner = x.slot → (n ≠ x.slot → n ≤ 0x1F → liveSlot (s.core x.core) x.g n = true) →
      exec (.give w e) s = .next (goesOn
        (if n = x.slot then s
         else s.mapCore x.core fun c =>
          ({ c.setTile t { y with owner := n, offer := y.offer || decide (n ≤ 0x1F), land := true
                                  waits := y.waits ++ [(x.slot, c.nextId)] } with nextId := c.nextId + 1 }).settleTiles)
        x (.give w e))) ∧
    (∀ (s : State) (x : Issuer) (w : Base) (e : ExtC) (k : TakeSel), Executes s x (.take w e) →
      ((e.imm.extractLsb' 22 2).toNat = 3 ∧ k = .offered ∨
        ∃ t, (e.imm.extractLsb' 22 2).toNat ≠ 3 ∧ tileSel x w e = some t ∧ k = .tile t ∧
          ((e.imm.extractLsb' 22 2).toNat = 0 ∨ x.b.tiles.contains t = true)) →
      let id := (s.core x.core).nextId
      let bind := if e.imm.getLsbD 15 then some (e.imm.extractLsb' 13 2).toNat else none
      let u := (s.mapGroup x.core x.slot fun g => g.addPend id (.take k bind)).mapCore x.core
        fun c => { c with nextId := c.nextId + 1 }
      exec (.take w e) s = .next (goesOn (u.mapCore x.core fun c => c.stepTakes x.slot 2) x (.take w e)) ∧
      (x.g.takePending = false → ∀ t, k = .tile t → t < (s.core x.core).tiles.length →
        let y := (s.core x.core).tile t
        let v := u.mapCore x.core fun c => c.stepTakes x.slot 2
        (¬(y.owner = x.slot ∧ y.land = false) → v = u) ∧
        (y.owner = x.slot → y.land = false → (v.core x.core).tile t = { y with offer := false } ∧
          (∀ p ∈ (groupOf v x).pend, p ∈ x.g.pend) ∧
          ∀ n, bind = some n → n < x.g.winmap.length → winTile (groupOf v x).winmap n = some t))) ∧
    (∀ (s : State) (x : Issuer) (w : Base) (e : ExtC), Executes s x (.ownq w e) →
      exec (.ownq w e) s = .next (goesOn (sset s x w.d.toNat
        (match tileSel x w e with
         | none => 0xFF3F#64
         | some t =>
           let y := (s.core x.core).tile t
           BitVec.ofNat 64 (t * 256 + (if y.land then 128 else 0) + (if y.offer then 64 else 0) + y.owner))) x (.ownq w e)))) ∧
  (
  (∀ (s : State) (g : Group) (id : Nat) (bind : Option Nat), s.group? s.sel.core s.sel.slot = some g →
      g.firstTake = some (id, .offered, bind) →
      let mine := fun (t : Nat) => t < (s.core s.sel.core).tiles.length ∧ ((s.core s.sel.core).tile t).owner = s.sel.slot ∧
        ((s.core s.sel.core).tile t).offer = true
      ((∀ t, ¬mine t) → exec .takeComplete s = .next s) ∧
      (∀ t, mine t → (∀ u, u < t → ¬mine u) →
        let c := (s.core s.sel.core).mapGroup s.sel.slot fun g => g.setPend id (.take (.tile t) bind)
        exec .takeComplete s = .next (s.setCore s.sel.core ((c.completeTake s.sel.slot id t bind).getD c)))) ∧
    ∀ (s : State) (g : Group) (id t : Nat) (bind : Option Nat), s.group? s.sel.core s.sel.slot = some g →
      g.firstTake = some (id, .tile t, bind) → t < (s.core s.sel.core).tiles.length →
      let y := (s.core s.sel.core).tile t
      (¬(y.owner = s.sel.slot ∧ y.land = false) → exec .takeComplete s = .next s) ∧
      (y.owner = s.sel.slot → y.land = false → ∃ u h, exec .takeComplete s = .next u ∧
        (u.core s.sel.core).tile t = { y with offer := false } ∧ u.group? s.sel.core s.sel.slot = some h ∧
        h.pend? id = none ∧ ∀ e, bind = some e → e < g.winmap.length → winTile h.winmap e = some t))

/-- CTRADD leaves its addition pending and the group goes on; CTRADD_APPLY of the group's first pending addition, with
no earlier access pending, at a scope wider than core writes L1 back first, and once the release of its scope is
complete adds its value to the counter modulo 2^64 and releases the groups that this satisfies. CTRWAIT goes on to
its acquire when the counter is at least its operand and waits otherwise. CTRRD writes the counter. Each answers a
next state. After CTRADD's addition of v to counter k, counter k holds its old value plus v modulo 2^64 and every
other counter of the core holds what it held; tiles, scratchpad, panels, queues and barriers of the core are as they
were. (05 R211, 05 R212, 05 R213, 05 R214, 01 R26) -/
def Obligations.CounterInstructions : Prop :=
  ((∀ (s : State) (x : Issuer) (w : Base) (e : ExtC), Executes s x (.ctradd w e) →
      exec (.ctradd w e) s = .next (goesOn ((s.mapGroup x.core x.slot fun g =>
        g.addPend (s.core x.core).nextId (.ctradd (e.imm.extractLsb' 0 6).toNat
          (if e.sa then x.g.sreg w.a.toNat else (e.imm.extractLsb' 8 16).setWidth 64) (max 1 e.scope.toNat))).mapCore x.core
        fun c => { c with nextId := c.nextId + 1 }) x (.ctradd w e))) ∧
    (∀ (s : State) (g : Group) (k scope : Nat) (v : DWord), s.group? s.sel.core s.sel.slot = some g →
      g.pend? s.sel.id = some (.ctradd k v scope) →
      (∀ p ∈ g.pend, p.id < s.sel.id → p.op.isAccess = false ∧ ∀ j u c, p.op ≠ .ctradd j u c) →
      let c := s.core s.sel.core
      (2 ≤ scope → c.l1Dirty = true → exec .ctraddApply s = .next (writeBack s s.sel.core fun _ => true)) ∧
      ((2 ≤ scope → c.l1Dirty = false ∧ c.wbOut = 0) → (6 ≤ scope → putsDone s s.sel.core s.sel.slot s.sel.id = true) →
        exec .ctraddApply s = .next ((s.mapGroup s.sel.core s.sel.slot fun g => g.dropPend s.sel.id).mapCore s.sel.core
          fun c => c.addCounter k v))) ∧
    (∀ (s : State) (x : Issuer) (w : Base) (e : ExtC), Executes s x (.ctrwait w e) →
      let v := if e.sa then x.g.sreg w.a.toNat else (e.imm.extractLsb' 8 16).setWidth 64
      let k := (e.imm.extractLsb' 0 6).toNat
      exec (.ctrwait w e) s = .next
        (if v ≤ (s.core x.core).counter k then
          goesOn (s.mapGroup x.core x.slot fun g => g.acquire (max 1 e.scope.toNat) (s.core x.core).nextId) x (.ctrwait w e)
        else waitsBehind (setWait s x.core x.slot (.counter k v (max 1 e.scope.toNat))) x (.ctrwait w e))) ∧
    (∀ (s : State) (x : Issuer) (w : Base) (e : ExtC), Executes s x (.ctrrd w e) →
      exec (.ctrrd w e) s = .next (goesOn
        (sset s x w.d.toNat ((s.core x.core).counter (e.imm.extractLsb' 0 6).toNat)) x (.ctrrd w e)))) ∧
  (
  ∀ (c : Core) (k : Nat) (v : DWord), k < c.counters.length →
      (c.addCounter k v).counter k = BitVec.ofNat 64 (((c.counter k).toNat + v.toNat) % 2 ^ 64) ∧
      (∀ j, j ≠ k → (c.addCounter k v).counter j = c.counter j) ∧
      (c.addCounter k v).tileData = c.tileData ∧ (c.addCounter k v).spad = c.spad ∧ (c.addCounter k v).panels = c.panels ∧
      (c.addCounter k v).queues = c.queues ∧ (c.addCounter k v).bars = c.bars ∧ (c.addCounter k v).tiles = c.tiles)

/-- With filled = (write − read) mod SLOTS and free = SLOTS − 1 − filled: RINGW traps with QUEUE_FAULT when N is SLOTS −
1 or more; otherwise with filled (or free) at least N + 1 it writes the scratchpad offset of slot read + N (write +
N) modulo SLOTS, and on the filled side acquires at core scope; else the group waits. RINGL whose requirement holds
leaves its move pending, and traps with QUEUE_FAULT otherwise. RINGQ writes both pointers, filled and SLOTS.
RINGL_APPLY of a group's first pending RINGL on its ring, with no earlier access of the group pending, answers a
next state in which it is pending no more and the pointer it names has moved on by one slot modulo SLOTS, releasing
the groups that wait for that. (05 R215, 05 R217, 05 R218, 05 R219) -/
def Obligations.RingInstructions : Prop :=
  ((∀ (s : State) (x : Issuer) (i : Instr) (w : Base) (e : ExtC) (free : Bool), ringForm i = some (w, e, true, free) →
      Executes s x i →
      let r := (e.imm.extractLsb' 0 3).toNat
      let n := (e.imm.extractLsb' 16 8).toNat
      let d := ringDesc x.l r
      let p := x.b.ring r
      let filled := (p.1 + d.slots - p.2) % d.slots
      let have_ := if free then d.slots - 1 - filled else filled
      let j := ((if free then p.1 else p.2) + n) % d.slots
      let v := BitVec.ofNat 64 (d.base + j * d.lines * 128)
      exec i s = .next
        (if d.slots - 1 ≤ n then instrTrap s x i .queueFault 0 0#32
         else if n + 1 ≤ have_ then
          (if free then goesOn (s.mapGroup x.core x.slot fun g => { g.setS w.d.toNat v with wait := .none }) x i
           else goesOn (s.mapGroup x.core x.slot fun g =>
            (g.setS w.d.toNat v).acquire 1 (s.core x.core).nextId) x i)
         else waitsBehind (setWait s x.core x.slot (.ring r free n w.d.toNat)) x i)) ∧
    (∀ (s : State) (x : Issuer) (i : Instr) (w : Base) (e : ExtC) (free : Bool), ringForm i = some (w, e, false, free) →
      Executes s x i →
      let r := (e.imm.extractLsb' 0 3).toNat
      let d := ringDesc x.l r
      let p := ringAhead x.g d.slots r (x.b.ring r)
      let filled := (p.1 + d.slots - p.2) % d.slots
      exec i s = .next
        (if d.slots ≠ 0 ∧ 1 ≤ (if free then d.slots - 1 - filled else filled) then
          goesOn ((s.mapGroup x.core x.slot fun g => g.addPend (s.core x.core).nextId (.ringl r free)).mapCore x.core
            fun c => { c with nextId := c.nextId + 1 }) x i
         else instrTrap s x i .queueFault 0 0#32)) ∧
    (∀ (s : State) (x : Issuer) (w : Base) (e : ExtC), Executes s x (.ringq w e) →
      let r := (e.imm.extractLsb' 0 3).toNat
      let k := (ringDesc x.l r).slots
      let p := x.b.ring r
      exec (.ringq w e) s = .next (goesOn (sset s x w.d.toNat (BitVec.ofNat 64
        (p.1 + 2 ^ 8 * p.2 + 2 ^ 16 * ((p.1 + k - p.2) % k) + 2 ^ 24 * k))) x (.ringq w e)))) ∧
  (
  ∀ (s : State) (g : Group) (l : Launch) (r : Nat) (free : Bool), s.group? s.sel.core s.sel.slot = some g →
      g.pend? s.sel.id = some (.ringl r free) → s.launch? g.launch = some l →
      (∀ p ∈ g.pend, p.id < s.sel.id → p.op.isAccess = false ∧ ∀ b, p.op ≠ .ringl r b) →
      exec .ringlApply s = .next ((s.mapGroup s.sel.core s.sel.slot fun g => g.dropPend s.sel.id).mapCore s.sel.core
        fun c => c.moveRing l g.block r free) ∧
      ∀ (c : Core) (b : Block), c.block? l.id g.block = some b → r < b.rings.length →
        ∃ b', (c.moveRing l g.block r free).block? l.id g.block = some b' ∧
          b'.ring r = (if free then (((b.ring r).1 + 1) % (ringDesc l r).slots, (b.ring r).2)
                       else ((b.ring r).1, ((b.ring r).2 + 1) % (ringDesc l r).slots)))

/-- MM and MMZ in the bundle at hand answer the next state in which the pass of their sequencer has taken one step
(opened, from the pair or from zero, if none was open): at step 63 it is joined and waits to be written back, else
it stays open one step on. A pass opens with the FP32 at (i, c) of the pair, or +0 for MMZ, in each cell; each cycle
takes every cell through the steps of its ppc products; and a joined pass holds in every cell the `cell` of 03 R126
over all its steps. SCL answers one in which the latches of its entries are on their way and land four issues later,
or nothing when its entry is not due. In the bundle at hand: ITER writes the base or one stride of its iterator;
LOOP moves the nest on, or past the bundle at its last position; STRM and PANEL name where MM reads, and XTAKE and
XWAIT are conditions of the issue, so that alone they change nothing; XGIVE gives the tile its new owner, for a
group sets OFFER, and sets LAND until every earlier issue is complete (writebacks landed, signals acted) and the
tile waits for nothing else; XSIG, XSIG at a barrier, and XEND leave a signal that waits for the earlier issues of
the clause, the last two on the leader of a PAIR clause alone (log 78, the model's reading). Each answers that next
state. (03 R126, 06 R230, 06 R231, 06 R234, 06 R236, 06 R226, 06 R227, 06 R237, 06 R238, 06 R239, 06 R241, 06 R242) -/
def Obligations.TilePassWords : Prop :=
  ((∀ (s : State) (core : Nat) (run : SeqRun) (l : Launch) (b : Block) (i : Instr) (w : BundleWord) (m : MmWord) (z : Bool),
      (i = .mm m ∧ z = false ∨ i = .mmz m ∧ z = true) → SeqWord s core run l b i w → w.word = .mm m z →
      let c := issueCtx l run
      let d : Side := { core := core, b := b, run := run }
      let r := mmStep s c d d m z run.issue
      exec i s = .next (runSet s core fun y => { y with pass := r.pass, writebacks := r.writebacks }) ∧
      (let p := run.pass.getD (openPass (s.core core) m z ((c.panel.map fun q => q.bfmt).getD 0#3))
       if p.step = 63 then r.pass = none ∧ ∃ u, r.writebacks = run.writebacks ++ [u] ∧ u.issue = run.issue ∧ u.pair = p.pair
       else (∃ q, r.pass = some q ∧ q.step = p.step + 1 ∧ q.pair = p.pair) ∧ r.writebacks = run.writebacks)) ∧
    (∀ (k : Core) (m : MmWord) (z : Bool) (bfmt : BitVec 3),
      PassHolds (openPass k m z bfmt)
        (fun n => if z then Machine.Num.zero false else dec .fp32 (k.tileData.nat (accAddr m.acl m.apair.toNat (n / 64) (n % 64)) 4))
        (fun _ => []) ∧ (openPass k m z bfmt).step = 0) ∧
    (∀ (s : State) (c : IssueCtx) (lead d : Side) (m : MmWord) (z : Bool) (q : PanelWord) (issue : Nat) (p : Pass)
        (seed : Nat → Machine.Num) (hist : Nat → List (CellOp × Machine.Num × Machine.Num)),
      c.panel = some q → d.run.pass.getD (openPass (s.core d.core) m z q.bfmt) = p → PassHolds p seed hist →
      0 < ppcOf (slotFormat c.l m.afmt.toNat) →
      (∀ n, (hist n).length = p.step * ppcOf (slotFormat c.l m.afmt.toNat)) →
      let r := mmStep s c lead d m z issue
      let all : Nat → List (CellOp × Machine.Num × Machine.Num) := fun n => hist n ++ mmSteps s c lead d m q p n
      (p.step ≠ 63 → ∃ t, r.pass = some t ∧ t.step = p.step + 1 ∧ PassHolds t seed all) ∧
      (p.step = 63 → ∃ u, r.writebacks = d.run.writebacks ++ [u] ∧ u.acl = p.acl ∧ u.data.length = 4096 ∧
        ∀ n, n < 4096 → nth 0#32 u.data n = BitVec.ofNat 32 (cellResult (seed n) (all n)))) ∧
    (∀ (s : State) (core : Nat) (run : SeqRun) (l : Launch) (b : Block) (q : SclWord) (w : BundleWord),
      SeqWord s core run l b (.scl q) w → w.word = .scl q →
      let c := issueCtx l run
      exec (.scl q) s = .next
        (match sclPos c q with
         | none => s
         | some p => runSet s core fun y => { y with latchWrites := y.latchWrites ++
            [LatchWrite.mk (run.issue + 4) q.edge
              (sclEntries (s.core core) (slotFormat l q.f.toNat) q.tile.toNat (sclOffset run c q p).toNat)] }))) ∧
  (
  (∀ (s : State) (core : Nat) (run : SeqRun) (l : Launch) (b : Block) (i : Instr) (w : BundleWord) (j f : Nat) (v : Word),
      (∃ u, i = .iterImm u ∨ i = .iterReg u) → SeqWord s core run l b i w → w.word = .iter j f v →
      exec i s = .next (runSet s core fun y => 
        let it := nth Iter.zero y.iters j
        let new := if f = 4 then { it with base := v } else { it with strides := setNth it.strides f v }
        { y with iters := setNth y.iters j new })) ∧
    (∀ (s : State) (core : Nat) (run : SeqRun) (l : Launch) (b : Block) (u : LoopWord) (w : BundleWord),
      SeqWord s core run l b (.loop u) w →
      exec (.loop u) s = .next (runSet s core fun y =>
        if y.nestPos + 1 < nestSize (loopOf (issueCtx l run).ws) then
          { y with issue := y.issue + 1, nestPos := y.nestPos + 1 }
        else { y with issue := y.issue + 1, nestPos := 0, bundle := y.bundle + 1 })) ∧
    (∀ (s : State) (core : Nat) (run : SeqRun) (l : Launch) (b : Block) (i : Instr) (w : BundleWord),
      ((∃ u, i = .strm u ∧ w.word = .strm u) ∨ (∃ u, i = .panel u ∧ w.word = .panel u) ∨
       (∃ u t, i = .xtake u ∧ w.word = .xtake t) ∨ (∃ u n v, i = .xwait u ∧ w.word = .xwait n v)) →
      SeqWord s core run l b i w → exec i s = .next s) ∧
    (∀ (s : State) (core : Nat) (run : SeqRun) (l : Launch) (b : Block) (i : Instr) (w : BundleWord) (g : SeqSignal),
      ((∃ u j v, i = .xsig u ∧ w.word = .xsig j v ∧ g = .add j v) ∨ (∃ u j, i = .xsigBar u ∧ w.word = .xbar j ∧ g = .bar j) ∨
       (∃ u t, i = .xend u ∧ w.word = .xend t ∧ g = .done t)) →
      SeqWord s core run l b i w →
      let posts := exec i s = .next (runSet s core fun y => { y with signals := y.signals ++ [(run.issue, g)] })
      ((∃ j v, g = .add j v) → posts) ∧ (run.role ≠ .follower → posts) ∧
      (run.role = .follower → (∀ j v, g ≠ .add j v) → exec i s = .next s)) ∧
    (∀ (s : State) (core : Nat) (run : SeqRun) (l : Launch) (b : Block) (u : XgiveWord) (w : BundleWord) (t n : Nat),
      SeqWord s core run l b (.xgive u) w → w.word = .xgive t n → t < (s.core core).tiles.length →
      ∃ v, exec (.xgive u) s = .next v ∧
        ((v.core core).tile t).owner = n ∧
        ((v.core core).tile t).offer = (((s.core core).tile t).offer || decide (n ≤ 0x1F)) ∧
        ((∀ p ∈ run.giveLand, p.1 ≠ t) → ((v.core core).tile t).land =
          (!(run.doneBefore run.issue && (otherSide s core).all fun f => f.doneBefore run.issue) ||
            !((s.core core).tile t).waits.isEmpty))))

/-- XCLAUSE_HANDOFF of a clause whose bundles all pass their checks puts them as one clause at the end of the queue when
it holds fewer than eight, and the group goes past the clause; at a full queue the run ends behind the clause with
the clause kept, which enters the queue as soon as that has room, and the group is no longer held. A predicted group
notes the clause among what it withholds. SEQ_CLAUSE_START of a free sequencer takes the oldest clause of a launch
that is not stopping: it begins at its first bundle, with iterators of base and strides 0, every row and column
latch at scale 1.0 and zero point 0, no latch write under way, no pass, and nothing to land or to signal.
PAIR_CLAUSE_START does the same on leader and follower together. SEQ_CLAUSE_RETIRE of a drained clause, predicted or
not, frees the sequencer; of a PAIR clause it frees both once both are drained, and nothing happens before. Nothing
else of the module changes in a start or a retirement. That the clause which runs takes none of the eight entries is
the model's choice (log 61). (06 R220, 06 R221, 06 R225, 06 R243, 09 R332, 09 R334) -/
def Obligations.SequencerClauseCourse : Prop :=
  (∀ (s : State) (x : Issuer) (bs : List (List BundleWord)),
    issuer { s with focus := .group s.sel.core s.sel.sched } = some x → hdrClass x.run.hdr = .x → x.g.wait = .none →
    (hdrHold x.run.hdr = true → x.core % 2 = 0 ∧ hasPair x.l.rec_ = true) → bs ≠ [] →
    let ws := rawWords x.run .x (hdrCount x.run.hdr) 16 x.run.wordIx
    takeBundles (checkEnv x.g x.l) x.g (splitGroups x.run.hdr ws) = (bs, none) →
    ((ws.flatMap fun w => match w.dec with | .ok i => xReads i | _ => []).any x.g.pendingOpd) = false →
    let t : State := { s with focus := .group s.sel.core s.sel.sched }
    let id := (s.core x.core).nextId
    let k : XClause :=
      { id := id, launch := x.g.launch, block := x.g.block, slot := x.slot, hdrOff := x.run.cur, hdr := x.run.hdr, bundles := bs
        pair := hdrHold x.run.hdr, predicted := x.g.predicted.isSome }
    let u := (match x.g.predicted with
      | some p => t.mapGroup x.core x.slot fun g => { g with predicted := some { p with items := p.items ++ [PredItem.clause id] } }
      | none => t).mapCore x.core fun c => { c with nextId := c.nextId + 1 }
    exec .xclauseHandoff s = .next
      (if (t.core x.core).seqQueue.length < 8 then
        stepRun (u.mapCore x.core fun c => { c with seqQueue := c.seqQueue ++ [k] }) x
          { x.run with pos := clauseEnd x.run.cur x.run.hdr }
      else suspendRun (setWait u x.core x.slot (.handoff k)) x { x.run with pos := clauseEnd x.run.cur x.run.hdr })) ∧
  (∀ (s : State) (core slot : Nat) (g : Group) (k : XClause), s.group? core slot = some g → g.wait = .handoff k →
    g.stopped = false → (s.core core).seqQueue.length < 8 →
    ∃ h, (enterQueue s core slot).group? core slot = some h ∧ h = { g with wait := .none } ∧
      ((enterQueue s core slot).core core).seqQueue = (s.core core).seqQueue ++ [k]) ∧
  (let fresh : XClause → PairRole → SeqRun := fun c role =>
    let one : Latch := { scale := .fin false 1 0, zero := 0 }
    { clause := c, bundle := 0, nestPos := 0, issue := 0
      iters := List.replicate 8 { base := 0#32, strides := List.replicate 4 0#32 }
      rows := List.replicate 64 one, cols := List.replicate 64 one, latchWrites := [], pass := none, writebacks := []
      signals := [], giveLand := [], stopped := none, role := role }
   (∀ (s : State) (c : XClause) (cs : List XClause), (s.core s.sel.core).seqRun = none →
    (s.core s.sel.core).seqQueue = c :: cs → c.pair = false → pairAhead s s.sel.core = false →
    (∀ l, s.launch? c.launch = some l → l.phase = .admitted) →
    exec .seqClauseStart s = .next (s.setCore s.sel.core
      { s.core s.sel.core with seqQueue := cs, seqRun := some (fresh c .own) })) ∧
   (∀ (s : State) (c : XClause) (cs : List XClause), (s.core s.sel.core).seqRun = none →
    (s.core s.sel.core).seqQueue = c :: cs → c.pair = true → s.sel.core % 2 = 0 →
    (∀ l, s.launch? c.launch = some l → l.phase = .admitted) → (s.core (s.sel.core + 1)).seqRun = none →
    exec .pairClauseStart s = .next ((s.setCore s.sel.core
      { s.core s.sel.core with seqQueue := cs, seqRun := some (fresh c .leader) }).setCore (s.sel.core + 1)
      { s.core (s.sel.core + 1) with seqRun := some (fresh c .follower) }))) ∧
  (let done : SeqRun → Prop := fun r => r.clause.bundles.length ≤ r.bundle ∧ r.stopped = none ∧ r.writebacks = [] ∧
    r.signals = [] ∧ r.giveLand = []
   let free : State → Nat → State := fun s core => s.mapCore core fun k => { k with seqRun := none }
   ∀ (s : State) (r : SeqRun), (s.core s.sel.core).seqRun = some r →
    (r.role = .own → done r → exec .seqClauseRetire s = .next (free s s.sel.core)) ∧
    (∀ f, r.role = .leader → (s.core (s.sel.core + 1)).seqRun = some f →
      (done r → done f → exec .seqClauseRetire s = .next (free (free s s.sel.core) (s.sel.core + 1))) ∧
      (¬(done r ∧ done f) → exec .seqClauseRetire s = .next s)) ∧
    (r.role = .follower → exec .seqClauseRetire s = .next s))

/-- SEQ_ISSUE of a clause of its own core, of an admitted launch, that is not predicted, whose checks pass and whose
conditions hold, acts each word of the bundle on the state before the issue and moves the nest on; a failing check
of the first kind stops the clause with its trap. PASS_WRITEBACK_LAND writes the oldest joined pass to its pair of
tiles. XSIG_APPLY applies the oldest signal once every earlier issue has completed, of a PAIR clause on both cores
(log 78, the model's reading): an addition to a counter, or an arrival at a barrier of the issuing group's block.
What completes may land tiles that the clause has given. XEND_PUSH pushes its record to queue 7 when that has room.
When PASS_WRITEBACK_LAND answers a next state, every byte of the tiles outside the 16,384 bytes of the pair reads as
before, the tile contents keep their canonical form, and no scalar register, scratchpad or memory changes, and no
other core but that of the other side of a PAIR clause, of which only tiles given may land. (06 R222, 06 R223, 06 R231, 06 R241, 06 R242, 06 R244, 06 R232) -/
def Obligations.SequencerIssueAndResults : Prop :=
  ((∀ (s : State) (run : SeqRun) (l : Launch) (b : Block), (s.core s.sel.core).seqRun = some run →
      s.launch? run.clause.launch = some l → (s.core s.sel.core).block? run.clause.launch run.clause.block = some b →
      run.role = .own → run.stopped = none → run.bundle < run.clause.bundles.length → run.clause.predicted = false →
      l.phase = .admitted →
      let c := issueCtx l run
      (∀ w k, check1 c [{ core := s.sel.core, b := b, run := run }] = some (w, k) →
        exec .seqIssue s = .next (runSet s s.sel.core fun r => { r with stopped := some (seqTrap run w k run.issue) })) ∧
      (check1 c [{ core := s.sel.core, b := b, run := run }] = none →
        conditions s c { core := s.sel.core, b := b, run := run } = true →
        check2 s c [{ core := s.sel.core, b := b, run := run }] = none →
        let s1 := runSet s s.sel.core landLatches
        let d : Side := { core := s.sel.core, b := b, run := landLatches run }
        exec .seqIssue s = .next (runSet (c.ws.foldl (fun t w => wordAct s1 c d d w t) s1) s.sel.core
          fun r => endFault (advanceNest c r)))) ∧
    (∀ (s : State) (r : SeqRun) (b : Writeback) (bs : List Writeback), (s.core s.sel.core).seqRun = some r →
      r.writebacks = b :: bs →
      exec .passWritebackLand s = .next (landSides (s.mapCore s.sel.core fun k =>
        { k with tileData := k.tileData.splice (2 * b.pair * 8192) 16384 (writebackCells b)
                 seqRun := some { r with writebacks := bs } }) s.sel.core)) ∧
    (∀ (s : State) (r : SeqRun) (n : Nat) (g : SeqSignal) (gs : List (Nat × SeqSignal)),
      (s.core s.sel.core).seqRun = some r → r.signals = (n, g) :: gs → (∀ b ∈ r.writebacks, n ≤ b.issue) →
      (∀ f, otherSide s s.sel.core = some f → (∀ b ∈ f.writebacks, n ≤ b.issue) ∧ ∀ q ∈ f.signals, n ≤ q.1) →
      let rest : State := landSides (s.mapCore s.sel.core fun k => { k with seqRun := some { r with signals := gs } }) s.sel.core
      (∀ j v, g = .add j v →
        exec .xsigApply s = .next (rest.mapCore s.sel.core fun k => k.addCounter j (BitVec.ofNat 64 v))) ∧
      (∀ j, g = .bar j →
        exec .xsigApply s = .next (rest.mapCore s.sel.core fun k => signalBar k r.clause.launch r.clause.block j)) ∧
      (∀ t, g = .done t → (nth [] (s.core s.sel.core).queues 7).length < 16 →
        exec .xendPush s = .next (rest.mapCore s.sel.core fun k => k.pushQueue 7
          { launch := r.clause.launch, block := r.clause.block, slot := r.clause.slot, id := 0
            value := BitVec.ofNat 64 (t.toNat + r.clause.slot % 64 * 2 ^ 24) })))) ∧
  (
  ∀ (s t : State) (r : SeqRun) (b : Writeback) (bs : List Writeback), (s.core s.sel.core).seqRun = some r →
      r.writebacks = b :: bs → b.data.length = 4096 → (s.core s.sel.core).tileData.wf = true →
      exec .passWritebackLand s = .next t →
      (∀ a, a < 2 * b.pair * 8192 ∨ 2 * b.pair * 8192 + 16384 ≤ a →
        (t.core s.sel.core).tileData.get a = (s.core s.sel.core).tileData.get a) ∧
      (t.core s.sel.core).tileData.wf = true ∧ (t.core s.sel.core).groups = (s.core s.sel.core).groups ∧
      (t.core s.sel.core).spad = (s.core s.sel.core).spad ∧ (∀ n, n ≠ s.sel.core → r.partner? s.sel.core ≠ some n → t.core n = s.core n) ∧
      (∀ n, (t.core n).tileData = if n = s.sel.core then (t.core s.sel.core).tileData else (s.core n).tileData) ∧ OnlyCores s t)

/-- CNEST, CGO, CPY, CRED, QTZ, DQZ, RQZ, RQZ_KV, LSEND, LSEND_PORT, LRADD and LWIN read S[D], S[A], S[B] (in layout R
also S[C] and S[D+1]) and their two words, and, outside a predicted clause and with room in the engine's queue, exec
answers a next state in which one command with these values stands in that queue, in push order, and the run goes on
behind the instruction; a link-engine command marks its launch as a user of the fabric. With 16 commands in the
queue the instruction waits and nothing changes; in a predicted clause the command is withheld. (06 R245, 06 R249) -/
def Obligations.EngineInstructionsPushACommand : Prop :=
  ∀ (s : State) (x : Issuer) (i : Instr) (op : EngOp) (w : Base) (e : Option ExtR), engineForm i = some (op, w, e) →
    Executes s x i →
    let c := s.core x.core
    let k := freshCmd op x.l.id x.b.index x.slot c.nextId (siteOf x i).base (siteOf x i).ext (x.g.sreg w.d.toNat)
      (x.g.sreg w.a.toNat) (x.g.sreg w.b.toNat) (match e with | some r => x.g.sreg r.c.toNat | none => 0#64)
      (match e with | some _ => x.g.sreg (w.d.toNat + 1) | none => 0#64)
    (x.g.predicted = none → c.cmdFull k = false →
      exec i s = .next (goesOn (usesFabric (s.setCore x.core ((c.pushCmd k).tick)) k) x i)) ∧
    (x.g.predicted = none → c.cmdFull k = true → exec i s = .next s) ∧
    (∀ p, x.g.predicted = some p → exec i s = .next (goesOn ((s.mapGroup x.core x.slot fun g =>
      { g with predicted := some { p with items := p.items ++ [.cmd (engineOf op) k] } }).mapCore x.core Core.tick) x i))

/-- ENGINE_COMMAND_START (one grant): a command of an admitted launch, whose turn it is in its context and that has not
started, takes one step of a release at its scope (REL of Table 5.4): it waits while an earlier access of its group
is not complete, writes the dirty L1 lines back, waits for their acknowledgements, and only then is started. A
started one takes one step of its operation: it waits, faults (its state else as it was), or, when the next grant of
its queue is its own, moves on. LRADD_ELEMENT_ADD does so for the next element of a receive. CGO_SLOT_PUBLISH of a
ring-level iteration whose copies have landed moves the ring's write pointer and counts the iteration. RQZ_KV, once
its page is read, has every element's exact value quantised group by group in a fresh page; RQZ_KV_SWAP, when that
is written, puts it in place, in its encoding and not BUSY, or frees it where the old one has gone, and finishes the
command. ENGINE_COMMAND_RETIRE of a finished, acknowledged command, with no earlier command of its context and room
for its record, removes it, returns the tiles it names to its group under RET, adds 1 to its counter and under RES
pushes the record of Table 6.10. INDIRECT_COMMAND takes the first entry that its launch lets run and makes a command
of its record, or marks the entry faulty. Each answers that next state. (03 R123, 05 R198, 06 R245, 06 R246, 06 R247, 06 R253, 06 R260, 06 R263, 07 R287, 09 R335) -/
def Obligations.EngineCommandCourse : Prop :=
  (∀ (s : State) (x : CmdCtx) (g : Group), cmdCtx s s.sel.core s.sel.engine s.sel.id = some x → x.k.started = false →
    cmdReady s s.sel.core x.k = true → s.sel.count ≤ 1 → s.group? s.sel.core x.k.slot = some g →
    (g.accessesDone x.k.mark = false → exec .engineCommandStart s = .next s) ∧
    (g.accessesDone x.k.mark = true → 2 ≤ x.k.scope → (s.core s.sel.core).l1Dirty = true →
      exec .engineCommandStart s = .next (writeBack s s.sel.core fun _ => true)) ∧
    (g.accessesDone x.k.mark = true → 2 ≤ x.k.scope → (s.core s.sel.core).l1Dirty = false →
      (s.core s.sel.core).wbOut ≠ 0 → exec .engineCommandStart s = .next s) ∧
    (g.accessesDone x.k.mark = true →
      (2 ≤ x.k.scope → (s.core s.sel.core).l1Dirty = false ∧ (s.core s.sel.core).wbOut = 0) →
      (6 ≤ x.k.scope → putsDone s s.sel.core x.k.slot x.k.mark = true) →
      exec .engineCommandStart s = .next (s.mapCmd s.sel.core s.sel.engine s.sel.id fun k => { k with started := true }))) ∧
  (∀ (s : State) (x : CmdCtx), cmdCtx s s.sel.core s.sel.engine s.sel.id = some x → x.k.started = true →
    cmdReady s s.sel.core x.k = true → s.sel.count ≤ 1 →
    exec .engineCommandStart s = .next
      (match cmdStep x with
       | .go t j => if hasTurn x then grantStep x t j else s
       | .wait t p => t.mapCmd s.sel.core (engineOf x.k.op) x.k.id fun k => { k with page := p }
       | .fault c => s.mapCmd s.sel.core (engineOf x.k.op) x.k.id fun k =>
           { k with fault := some (x.k.trap c), page := none })) ∧
  (∀ (s : State) (x : CmdCtx), cmdCtx s s.sel.core .link s.sel.id = some x → x.k.op = .lradd → x.k.started = true →
    cmdReady s s.sel.core x.k = true →
    exec .lraddElementAdd s = .next
      (match lraddElement x with
       | .go t j => if hasTurn x then grantStep x t j else s
       | r => putStep s s.sel.core x.k r)) ∧
  (∀ (s : State) (x : CmdCtx) (d : Nest), cmdCtx s s.sel.core .copy s.sel.id = some x → x.k.op = .cgo → x.k.rng = true →
    x.k.fault = none → x.k.finished = false → x.k.acks = 0 → x.k.nest? (s.core s.sel.core) = some d →
    (x.k.published + 1) * d.span x.k.lvl * d.elem ≤ x.k.progress →
    exec .cgoSlotPublish s = .next ((s.mapCore s.sel.core fun c => c.moveRing x.l x.k.block x.k.ring true).mapCmd s.sel.core
      .copy x.k.id fun k => { k with published := k.published + 1
                                     finished := decide (d.total ≤ (k.published + 1) * d.span x.k.lvl) })) ∧
  (∀ (s : State) (x : CmdCtx) (q : KvContext), cmdCtx s s.sel.core .quant s.sel.id = some x →
    kvOf s x.k.launch = some q → x.k.op = .rqzKv → x.k.progress = 1 → x.k.fault = none → x.k.finished = false →
    x.k.acks = 0 → ∀ r, (q.requants.find? fun r => r.core == s.sel.core && r.cmd == x.k.id) = some r → ∃ t z,
      exec .rqzKvSwap s = .next t ∧ t.kv? q.id = some z ∧
      t = { s.mapCmd s.sel.core .quant x.k.id (fun k => { k with finished := true }) with kvs := t.kvs } ∧
      z.requants = q.requants.filter (fun r => !(r.core == s.sel.core && r.cmd == x.k.id)) ∧
      (r.live = false → z.held = q.held - 1 ∧ z.entries = q.entries) ∧
      (r.live = true → z.returns = q.returns ++ [kvBegun s q.id] ∧ z.held = q.held ∧
        (∀ e, q.entry? r.seq r.head r.page = some e → z.entry? r.seq r.head r.page =
          some { e with busy := false, enc := r.enc, elems := r.elems, metas := r.metas, frame := e.frame + 1 }) ∧
        ∀ a b c, (a, b, c) ≠ (r.seq, r.head, r.page) → z.entry? a b c = q.entry? a b c)) ∧
  (∀ (k : KvContext) (e : KvEntry) (to_ : Word), let grp := if slotScale to_ = 0 then k.headDim else slotGroup to_
    let y := requantPage k e to_
    0 < grp → k.headDim % grp = 0 → ∀ plane pos g j, plane < 2 → pos < 64 → g < k.headDim / grp → j < grp →
      let xs := (List.range grp).map fun j => k.value e plane (e.page * 64 + pos) (g * grp + j)
      let ix := (plane * 64 + pos) * (k.headDim / grp) + g
      (slotScale to_ = 0 → y.1.get (ix * grp + j) = BitVec.ofNat 32 (match elemKind to_ with
        | .flt f => rndSatNum f (nth (.zero false) xs j) | _ => toElem to_ (nth (.zero false) xs j))) ∧
      (slotScale to_ ≠ 0 → y.1.get (ix * grp + j) = BitVec.ofNat 32 (nth 0 (quantGroup to_ xs).elems j) ∧
        y.2.get ix = metaOf to_ (quantGroup to_ xs))) ∧
  (∀ (s : State) (k : EngCmd), (s.core s.sel.core).cmd? s.sel.engine s.sel.id = some k →
    canRetire (s.core s.sel.core) k = true → engineOf k.op = s.sel.engine →
    exec .engineCommandRetire s = .next (s.setCore s.sel.core (retireCmd (s.core s.sel.core) k)) ∧
    (∀ n, k.ctr = some n → n < 64 → (s.core s.sel.core).counters.length = 64 →
      (retireCmd (s.core s.sel.core) k).counter n = (s.core s.sel.core).counter n + 1#64) ∧
    (((retireCmd (s.core s.sel.core) k).eng s.sel.engine).cmds.all fun j => j.id != k.id) = true ∧
    (let c := s.core s.sel.core
     let code := match s.sel.engine with | .copy => 0x21 | .quant => 0x22 | .link => 0x23
     let q := match s.sel.engine with | .copy => 1 | .quant => 3 | .link => 5
     (∀ n, k.ctr = some n → k.res = true → n < 64 → c.counters.length = 64 → q < c.queues.length → ∃ v : DWord,
       nth [] (retireCmd c k).queues q = nth [] c.queues q ++
         [{ launch := k.launch, block := k.block, slot := k.slot, id := 0, value := v }] ∧
       v.extractLsb' 0 32 = (c.counter n + 1#64).extractLsb' 0 32 ∧ v.extractLsb' 32 6 = BitVec.ofNat 6 n ∧
       v.extractLsb' 38 2 = BitVec.ofNat 2 k.ctx ∧ v.extractLsb' 40 8 = k.status ∧ v.extractLsb' 48 16 = 0#16) ∧
     (k.res = false → (retireCmd c k).queues = c.queues) ∧
     (∀ t, t < c.tiles.length → (retireCmd c k).tile t =
       if k.ret = true ∧ liveSlotOf c k.launch k.block k.slot = true ∧ t ∈ k.tiles ∧ (c.tile t).owner = code then
         { c.tile t with owner := k.slot, offer := true, land := false, waits := [], seqWait := false } else c.tile t))) ∧
  (∀ (k : EngCmd) (t : Nat), let n := k.count
    let meets := fun (a m : Nat) => 0 < m ∧ a < (t + 1) * 8192 ∧ t * 8192 < a + m
    (t ∈ k.tiles ↔ t < 64 ∧ (
      (k.op = .cpy ∧ (k.ssp = 3 ∧ meets k.va.toNat n ∨ k.dsp = 3 ∧ meets k.vd.toNat n)) ∨
      (k.op = .cred ∧ k.ssp = 3 ∧ meets k.va.toNat (n * (credForms (k.imm.extractLsb' 7 3).toNat).2.1)) ∨
      (k.op = .qtz ∧ k.ssp = 3 ∧ meets k.va.toNat (n * (valueFmt k).2)) ∨
      (k.op = .dqz ∧ k.dsp = 3 ∧ meets k.vd.toNat (n * (valueFmt k).2))))) ∧
  (∀ (s : State) (n : QEntry) (l : Launch) (b : Block), let c := s.core s.sel.core
    let e := s.sel.engine
    let q := nth [] c.queues (match e with | .copy => 0 | .quant => 2 | .link => 4)
    (q.find? fun n => (s.launch? n.launch).any (fun l => l.phase == .admitted) && !(c.eng e).bad.any fun b => b.1 == n.id) = some n →
    s.launch? n.launch = some l → c.block? n.launch n.block = some b →
    let o := (lowWord n.value).toNat
    let at_ := fun (k w : Nat) => c.spad.nat (b.spadBase + o + k) w
    let base : Word := BitVec.ofNat 32 (at_ 0 4)
    let ext : Word := BitVec.ofNat 32 (at_ 4 4)
    let v := fun (k : Nat) => BitVec.ofNat 64 (at_ (8 + 8 * k) 8)
    let marked : Cause → Host.Outcome State Fault Refusal := fun cause => .next (s.setCore s.sel.core (c.setEng e { c.eng e with bad := (c.eng e).bad ++
      [(n.id, { Trap.plain cause with origin := .engine e n.id, words := n.value })] }))
    (highWord n.value ≠ 0#32 → exec .indirectCommand s = marked .queueFault) ∧
    (highWord n.value = 0#32 → o % 8 ≠ 0 → exec .indirectCommand s = marked .addrAlign) ∧
    (highWord n.value = 0#32 → o % 8 = 0 → b.spadSize < o + 48 → exec .indirectCommand s = marked .addrRegion) ∧
    (∀ i op, highWord n.value = 0#32 → o % 8 = 0 → o + 48 ≤ b.spadSize → decode .e base ext = .ok i → cmdOf e i = some op →
      let k := freshCmd op n.launch n.block n.slot n.id base ext (v 0) (v 1) (v 2) (v 3) (v 4)
      (c.cmdFull k = true → exec .indirectCommand s = .next s) ∧
      let rest := setNth c.queues (match e with | .copy => 0 | .quant => 2 | .link => 4) (q.filter fun m => m.id ≠ n.id)
      (c.cmdFull k = false → recordBad l i = false → exec .indirectCommand s = .next (usesFabric (s.setCore s.sel.core
        ({ c with queues := rest }.pushCmd k)) k))))

/-- CPY, scratchpad to scratchpad, of 4 to 128 bytes within one line on either side and ranges that do not meet: the
destination bytes are the source bytes, and every other byte of the scratchpad is as it was. The next element of
CRED in the scratchpad becomes the sum of 06 R254 of the old element and the source one; one for space G goes to its
home's service group, or over the bridge, and when it is served the home holds that sum, no other byte of memory
changes, the element is gone from the service group, and of the dies only L2, clocks and messages differ. A step of
QTZ writes the elements and the metadata entry of one group by 03 R123 (without scale: rounded with saturation), one
of DQZ the exact values of a group rounded, as RQZ does for one group in space G (what it writes there goes home). A
step of LSEND sends one put message of the next bytes within a line, the last moving the window's counters. An LRADD
element whose bytes have arrived is added at its place, also where the address is no multiple of its size (log 63,
the model's choice); no other channel changes. The order in which a command checks its operands is the model's
reading (log 20), as are the sizes that RQZ takes beside whole groups (log 85, the model's choice). Nothing else of
the module changes by these steps but what is named. (03 R123, 06 R247, 06 R251, 06 R254, 06 R256, 06 R257, 06 R258, 06 R259, 06 R260) -/
def Obligations.EngineResults : Prop :=
  (∀ (x : CmdCtx) (sa da n : Nat), x.k.op = .cpy → x.k.ssp = 0 → x.k.dsp = 0 → x.k.va.toNat = sa → x.k.vd.toNat = da →
    x.k.count = n → x.k.progress = 0 → 4 ≤ n → n % 4 = 0 → sa % 4 = 0 → da % 4 = 0 →
    sa % 128 + n ≤ 128 → da % 128 + n ≤ 128 → sa + n ≤ x.b.spadSize → da + n ≤ x.b.spadSize → x.b.spadSize ≤ 2 ^ 32 →
    (da + n ≤ sa ∨ sa + n ≤ da) → (x.s.core x.core).spad.wf = true →
    ∃ t k, cmdStep x = .go t k ∧ k.finished = true ∧ k.progress = n ∧ k.acks = x.k.acks ∧ k.fault = x.k.fault ∧
      t = x.s.mapCore x.core (fun c => { c with spad := (t.core x.core).spad }) ∧ (t.core x.core).spad.wf = true ∧
      ∀ a, (t.core x.core).spad.get a =
        if x.b.spadBase + da ≤ a ∧ a < x.b.spadBase + da + n then
          (x.s.core x.core).spad.get (x.b.spadBase + sa + (a - (x.b.spadBase + da)))
        else (x.s.core x.core).spad.get a) ∧
  (∀ (x : CmdCtx), x.k.op = .cred → x.k.ssp = 0 → x.k.dsp = 0 → x.k.acks = 0 → 
    let n := x.k.count
    let e := x.k.progress
    let conv := (x.k.imm.extractLsb' 7 3).toNat
    let anchor := (x.k.vb.extractLsb' 32 8).toNat
    let (sf, ss, df, ds) := credForms conv
    let src := x.k.va.toNat + e * ss
    let dst := x.k.vd.toNat + e * ds
    let m := (x.s.core x.core).spad
    let new := credNew sf df anchor (m.nat (x.b.spadBase + dst) ds) (m.nat (x.b.spadBase + src) ss)
    e < n → n ≤ 65536 → x.k.vb.extractLsb' 40 24 = 0 → x.k.va.toNat % 4 = 0 → x.k.vd.toNat % max 4 ds = 0 →
    src + ss ≤ x.b.spadSize → dst + ds ≤ x.b.spadSize → x.b.spadSize ≤ 2 ^ 32 →
    ∃ t k, cmdStep x = .go t k ∧ k.progress = e + 1 ∧ k.finished = decide (n ≤ e + 1) ∧ k.acks = 0 ∧ k.fault = x.k.fault ∧
      t = x.s.mapCore x.core (fun c => { c with spad := m.putNat (x.b.spadBase + dst) ds new })) ∧
  (∀ (x : CmdCtx) (i : Nat) (r : Region), x.k.op = .cred → x.k.ssp = 0 → x.k.dsp = 1 → x.k.acks = 0 →
    let n := x.k.count
    let e := x.k.progress
    let conv := (x.k.imm.extractLsb' 7 3).toNat
    let (_, ss, _, ds) := credForms conv
    let src := x.k.va.toNat + e * ss
    let a := x.k.vd.toNat + e * ds
    e < n → n ≤ 65536 → x.k.vb.extractLsb' 40 24 = 0 → x.k.va.toNat % 4 = 0 → x.k.vd.toNat % max 4 ds = 0 →
    src + ss ≤ x.b.spadSize → x.b.spadSize ≤ 2 ^ 32 → a + ds ≤ 2 ^ 64 → x.core < 512 →
    regionOf x.l a = some (i, r) → a + ds ≤ r.vbase + r.length → r.kind = 0 → r.rights % 4 = 3 →
    let d := r.target + (a - r.vbase)
    x.s.poisonedAt d = false → x.s.poisonedAt (d + ds - 1) = false →
    let c : CredElem := { core := x.core, id := x.k.id, dpa := d, conv := conv, anchor := (x.k.vb.extractLsb' 32 8).toNat,
                          src := (x.s.core x.core).spad.nat (x.b.spadBase + src) ss }
    ∃ t, cmdStep x = .go t { x.k with progress := e + 1, acks := 1, page := none } ∧
      t = { x.s with die0 := t.die0, die1 := t.die1 } ∧ (∀ m, m < 2 → m ≠ dieOf x.core → t.die m = x.s.die m) ∧
      (let y := x.s.die (dieOf x.core)
       (homeDie d = dieOf x.core → ∃ q, t.die (dieOf x.core) = { y with svc := y.svc ++ [q] } ∧ q.ref = .cred c ∧
         q.strip = servingStrip x.s (homeDie d) (stripOf (lineOf d))) ∧
       (homeDie d ≠ dieOf x.core → ∃ m, m.kind = .cred c ∧
         t.die (dieOf x.core) = { y with out := y.out ++ [m], clock := (m.c0, m.c1) }))) ∧
  (∀ (s : State) (n : Nat) (c : CredElem), receiveMsg s n (.cred c) = enqueue s c.dpa (.cred c)) ∧
  (∀ (sf df : FFmt) (anchor old src : Nat),
    credNew sf (some df) anchor old src = rnd df .std (Machine.Num.add false (dec df old) (dec sf src)) ∧
    credNew sf none anchor old src = wsAdd (old % 2 ^ 96) (wsFrom (dec sf src) anchor .rne)) ∧
  (∀ (x : CmdCtx) (c : CredElem), x.k.op = .cred → x.k.acks ≠ 0 → c.conv = (x.k.imm.extractLsb' 7 3).toNat →
    let (sf, _, df, ds) := credForms c.conv
    1 ≤ x.k.count → x.k.count ≤ 65536 → x.k.vb.extractLsb' 40 24 = 0 → x.k.va.toNat % 4 = 0 →
    x.k.vd.toNat % max 4 (credForms (x.k.imm.extractLsb' 7 3).toNat).2.2.2 = 0 →
    credFront x.s x.core x.k.id = some c → x.s.poisonedAt c.dpa = false → x.s.poisonedAt (c.dpa + ds - 1) = false →
    x.s.dram.wf = true →
    ∃ t, cmdStep x = .go t { x.k with finished := decide (x.k.count ≤ x.k.progress) } ∧
      readHome t c.dpa ds = bytesOfNat ds (credNew sf df c.anchor (natOfBytes (readHome x.s c.dpa ds)) c.src) ∧
      (∀ a, a < c.dpa ∨ c.dpa + ds ≤ a → t.dram.get a = x.s.dram.get a) ∧
      t = { x.s with dram := t.dram, die0 := t.die0, die1 := t.die1 } ∧
      ∀ n, n < 2 → let y := t.die n
        y = { x.s.die n with l2 := y.l2, out := y.out, clock := y.clock, svc := y.svc } ∧
        y.svc = (if n = homeDie c.dpa then (x.s.die n).svc.filter fun q => q.ref != .cred c else (x.s.die n).svc)) ∧
  (∀ (x : CmdCtx), x.k.op = .qtz → x.k.ssp = 0 → x.k.dsp = 0 → x.k.badControl = false → 
    let slot := x.k.slotOf x.l
    let n := x.k.count
    let e := x.k.progress
    let (f, size) := valueFmt x.k
    let u := unitOf slot (n - e)
    let bits := slotBits slot
    let m := (x.s.core x.core).spad
    let src := x.k.va.toNat + e * size
    let dst := x.k.vd.toNat + e * bits / 8
    let md := x.k.vc.toNat + e / slotGroup slot * metaSize slot
    let xs := (List.range u).map fun i => dec f (m.nat (x.b.spadBase + src + i * size) size)
    let els := if slotScale slot = 0 then
        xs.map fun v => match elemKind slot with
          | .flt g => rndSatNum g v | .int sg w => wrapInt (rndi sg w .rne v) w | _ => 0
      else (quantGroup slot xs).elems
    let old := m.bytes (x.b.spadBase + dst) (planeBytes bits u)
    let entry := if slotScale slot = 0 then [] else bytesOfNat (metaSize slot) (metaOf slot (quantGroup slot xs))
    (if slotScale slot = 0 then 1 ≤ n else n % slotGroup slot = 0) → n ≤ 1048576 → e < n →
    src + u * size ≤ x.b.spadSize → dst + planeBytes bits u ≤ x.b.spadSize → (slotScale slot ≠ 0 → md + metaSize slot ≤ x.b.spadSize) →
    x.b.spadSize ≤ 2 ^ 32 →
    ∃ t k, cmdStep x = .go t k ∧ k.progress = e + u ∧ k.finished = decide (n ≤ e + u) ∧ k.acks = x.k.acks ∧
      t = x.s.mapCore x.core fun c =>
        { c with spad := (m.put (x.b.spadBase + dst) (elemBytes bits els old)).put (x.b.spadBase + md) entry }) ∧
  (∀ (x : CmdCtx), x.k.op = .dqz → x.k.ssp = 0 → x.k.dsp = 0 → x.k.badControl = false → 
    let slot := x.k.slotOf x.l
    let n := x.k.count
    let e := x.k.progress
    let (f, size) := valueFmt x.k
    let u := unitOf slot (n - e)
    let bits := slotBits slot
    let m := (x.s.core x.core).spad
    let src := x.k.va.toNat + e * bits / 8
    let md := x.k.vc.toNat + e / slotGroup slot * metaSize slot
    let dst := x.k.vd.toNat + e * size
    let latch := readMeta slot (m.nat (x.b.spadBase + md) (metaSize slot))
    let vs := (elemsFrom bits u (m.bytes (x.b.spadBase + src) (planeBytes bits u))).map fun q => elemValue slot q latch
    e < n → src + planeBytes bits u ≤ x.b.spadSize → (slotScale slot ≠ 0 → md + metaSize slot ≤ x.b.spadSize) →
    dst + u * size ≤ x.b.spadSize → x.b.spadSize ≤ 2 ^ 32 →
    ∃ t k, cmdStep x = .go t k ∧ k.progress = e + u ∧ k.finished = decide (n ≤ e + u) ∧ k.acks = x.k.acks ∧
      t = x.s.mapCore x.core fun c =>
        { c with spad := m.put (x.b.spadBase + dst) (vs.flatMap fun v => bytesOfNat size (rnd f .std v)) }) ∧
  (∀ (x : CmdCtx) (vs : List Machine.Num) (y : CmdCtx) (src md : List (EngLoc × Nat)) (qs ms : List (EngLoc × Nat)), x.k.op = .rqz →
    x.k.badControl = false → x.k.progress < x.k.count →
    let from_ := x.k.slotOf x.l
    let to_ := slotFormat x.l (x.k.x.mod.extractLsb' 0 3).toNat
    let n := x.k.count
    let e := x.k.progress
    let u := unitOf to_ (n - e)
    let planes := fun (slot : Word) (a m : Nat) =>
      [(a, planeBytes (slotBits slot) n),
       (m, if slotScale slot = 0 then 0 else (n + slotGroup slot - 1) / slotGroup slot * metaSize slot)]
    (∀ p ∈ planes from_ x.k.va.toNat x.k.vc.toNat, ∀ q ∈ planes to_ x.k.vd.toNat x.k.vd1.toNat,
      p.2 ≠ 0 → q.2 ≠ 0 → rangesMeet 1 p.1 p.2 1 q.1 q.2 = false) →
    -- the group read lies in one group of the source, and every byte of both sides can be reached
    slotScale from_ ≠ 0 → slotScale to_ ≠ 0 → 0 < u → e % slotGroup from_ + u ≤ slotGroup from_ →
    let sa := x.k.va.toNat + e * slotBits from_ / 8
    let ma := x.k.vc.toNat + e / slotGroup from_ * metaSize from_
    let da := x.k.vd.toNat + e * slotBits to_ / 8
    let na := x.k.vd1.toNat + e / slotGroup to_ * metaSize to_
    x.find 1 true false sa (planeBytes (slotBits from_) u) = .ok src →
    let x1 := x.used 1 true sa (planeBytes (slotBits from_) u) src
    x1.find 1 true false ma (metaSize from_) = .ok md →
    y = x1.used 1 true ma (metaSize from_) md →
    vs = (elemsFrom (slotBits from_) u (readAll x.s x.core src)).map
      (fun q => elemValue from_ q (readMeta from_ (natOfBytes (readAll x1.s x.core md)))) →
    y.find 1 false true da (planeBytes (slotBits to_) u) = .ok qs →
    y.find 1 false true na (metaSize to_) = .ok ms → 
    let q := quantGroup to_ vs
    let z := ((y.used 1 false da (planeBytes (slotBits to_) u) qs).used 1 false na (metaSize to_) ms).s
    let w := writeAll z x.core .quant x.k.id qs (elemBytes (slotBits to_) q.elems (readAll y.s x.core qs))
    let v := writeAll w.1 x.core .quant x.k.id ms (bytesOfNat (metaSize to_) (metaOf to_ q))
    cmdStep x = .go v.1 { x.k with progress := e + u, acks := x.k.acks + w.2 + v.2, page := none, finished := decide (n ≤ e + u) }) ∧
  (∀ (x : CmdCtx), x.k.op = .lsend → x.k.badControl = false → 
    let n := x.k.count
    let p := x.k.progress
    let sel := (lowWord x.k.vd).toNat
    let off := x.k.vc.toNat
    let m := min (n - p) (128 - (off + p) % 128)
    let d := sel % 256
    let w := sel / 256 % 64
    let src := x.k.va.toNat + p
    4 ≤ n → n ≤ 1048576 → n % 4 = 0 → p < n → putCheck x.s sel off n = none → src + m ≤ x.b.spadSize → x.b.spadSize ≤ 2 ^ 32 →
    streamMoves x.s x.core d w (streamLink x.s x.core d w) = false →
    cmdStep x = .go (sendPut x.s
        { id := 0, link := streamLink x.s x.core d w, out := true, device := d, window := w,
          cells := ((x.s.core x.core).spad.bytes (x.b.spadBase + src) m).mapIdx fun i v => (off + p + i, v),
          n := if n ≤ p + m then 1 else 0, core := x.core, ref := .engine x.core .link x.k.id, landed := false,
          final := decide (n ≤ p + m), acks := 0, late := [] })
      { x.k with progress := p + m, finished := decide (n ≤ p + m), acks := x.k.acks + 1 }) ∧
  (∀ (x : CmdCtx) (c : PortChannel), x.k.op = .lradd → x.k.badControl = false → 
    let (dev, src, port) := portOf x.k.vd
    let size := laddSize x.k
    let e := x.k.progress
    let m := (x.s.core x.core).spad
    let at_ := x.b.spadBase + (x.k.va.toNat + e * size)
    let here := fun (y : PortChannel) => y.srcDevice == dev && y.srcCore == src && y.core == x.core && y.port == port
    e < x.k.count → x.k.buffer = [] → dev ≠ x.s.device.toNat → unreachable x.s dev = false →
    ((x.s.core x.core).link.cmds.any fun j => j.op == .lradd && decide (j.id < x.k.id) && !j.finished &&
      portOf j.vd == portOf x.k.vd) = false →
    x.k.va.toNat + e * size + size ≤ x.b.spadSize → x.b.spadSize ≤ 2 ^ 32 →
    x.s.channels.find? here = some c → size ≤ c.bytes.length →
    let new := laddNew x.k.x.type.toNat (m.nat at_ size) (natOfBytes (c.bytes.take size))
    ∃ t k, lraddElement x = .go t k ∧ k.progress = e + 1 ∧ k.buffer = [] ∧ k.finished = decide (x.k.count ≤ e + 1) ∧
      t = { x.s.mapCore x.core (fun y => { y with spad := m.putNat at_ size new }) with channels := t.channels } ∧
      (t.channels.filter fun y => !here y) = (x.s.channels.filter fun y => !here y) ∧
      (c.bytes.length = size → t.channels.any here = false) ∧
      (size < c.bytes.length → (t.channels.find? here).map (fun y => y.bytes) = some (c.bytes.drop size))) ∧
  (∀ (old y : Nat), laddNew 9 old y = rnd .fp32 .std (Machine.Num.add false (dec .fp32 old) (dec .fp32 y)) ∧
    laddNew 11 old y = rnd .bf16 .std (Machine.Num.add false (dec .bf16 old) (dec .bf16 y)) ∧
    laddNew 15 old y = wsAdd (old % 2 ^ 96) (y % 2 ^ 96))

/-- CNEST of a sound descriptor keeps its levels, element size, counts and signed strides (06 Table 6.13) under its
context and set, and no other set changes; a refused field is QUEUE_FAULT, an address that is no multiple of 128
ADDR_ALIGN (log 83, the model's reading). CPY of bytes within one line on either side, between scratchpad, panels,
tiles that the engine owns and resident device memory, in any pairing of ranges that do not meet, puts the source
bytes at the destination; those for device memory go home, with one acknowledgement to await: on the core's die
every byte of the home is the copied one or as it was, to the other die one write message leaves. CGO does the same
for the current iteration of its nest, whose addresses are the bases plus the strides times the indices, modulo 2^64
in device memory and 2^32 elsewhere; with RNG the first copy of a ring-level iteration waits for a free slot and for
the publication of those before it (log 21, the model's reading). LWIN binds the window of a registration or an
exposure to a counter, in place of its binding, or removes that; an unknown window is ACCESS_RIGHTS. A started
LSEND_PORT waits until a receive takes bytes of its source, in order, and finishes with the last. Nothing else of
the module changes. (06 R247, 06 R251, 06 R252, 06 R253, 06 R259, 06 R261, 10 R351) -/
def Obligations.CopiesNestsAndBindings : Prop :=
  (∀ (x : CmdCtx), x.k.op = .cnest →
    let a := x.k.va.toNat
    let m := (x.s.core x.core).spad
    let at_ := x.b.spadBase + a
    let nl := m.nat at_ 1
    let elem := m.nat (at_ + 4) 4
    let count := fun i => m.nat (at_ + 8 + 2 * i) 2
    let ss := fun i => (BitVec.ofNat 32 (m.nat (at_ + 0x18 + 4 * i) 4)).toInt
    let ds := fun i => (BitVec.ofNat 32 (m.nat (at_ + 0x30 + 4 * i) 4)).toInt
    let sound := 1 ≤ nl ∧ nl ≤ 6 ∧ m.nat (at_ + 1) 3 = 0 ∧ m.nat (at_ + 0x14) 4 = 0 ∧ m.nat (at_ + 0x48) 56 = 0 ∧
      elem % 4 = 0 ∧ 4 ≤ elem ∧ elem ≤ 8192 ∧ (∀ i, i < nl → count i ≠ 0) ∧
      ∀ i, nl ≤ i → i < 6 → count i = 0 ∧ ss i = 0 ∧ ds i = 0
    (a % 128 ≠ 0 → cmdStep x = .fault .addrAlign) ∧
    (a % 128 = 0 → x.b.spadSize < a + 128 → cmdStep x = .fault .addrRegion) ∧
    (a % 128 = 0 → a + 128 ≤ x.b.spadSize → ¬sound → cmdStep x = .fault .queueFault) ∧
    (a % 128 = 0 → a + 128 ≤ x.b.spadSize → sound → ∃ t, cmdStep x = .go t { x.k with finished := true } ∧
      t = x.s.mapCore x.core (fun c => { c with copy := { c.copy with nests := (t.core x.core).copy.nests } }) ∧
      x.k.nest? (t.core x.core) = some { nl := nl, elem := elem, counts := (List.range nl).map count
                                         sstride := (List.range nl).map ss, dstride := (List.range nl).map ds } ∧
      ∀ j : EngCmd, (j.launch, j.block, j.ctx, j.setNo) ≠ (x.k.launch, x.k.block, x.k.ctx, x.k.setNo) →
        j.nest? (t.core x.core) = j.nest? (x.s.core x.core))) ∧
  (∀ (x : CmdCtx) (p q : EngLoc), x.k.op = .cpy → x.k.progress = 0 →
    let n := x.k.count
    let sa := x.k.va.toNat
    let da := x.k.vd.toNat
    4 ≤ n → n % 4 = 0 → sa % 4 = 0 → da % 4 = 0 → sa % 128 + n ≤ 128 → da % 128 + n ≤ 128 → sa + n ≤ 2 ^ 64 → da + n ≤ 2 ^ 64 →
    EngPlace x x.k.ssp sa n p → EngPlace x x.k.dsp da n q → (x.k.ssp ≠ x.k.dsp ∨ da + n ≤ sa ∨ sa + n ≤ da) →
    x.b.spadSize ≤ 2 ^ 32 →
    cmdStep x = .go (copied x p q n)
      { x.k with progress := n, finished := true, buffer := [], page := none, acks := x.k.acks + q.answers }) ∧
  (∀ (x : CmdCtx) (d : Nest) (p q : EngLoc) (it : Nat), x.k.op = .cgo → x.k.nest? (x.s.core x.core) = some d →
    x.k.progress = it * d.elem → it < d.total → d.counts.length = d.nl → d.sstride.length = d.nl → d.dstride.length = d.nl →
    (∀ c ∈ d.counts, c ≠ 0) →
    let n := d.elem
    let ix := fun i => it / (d.counts.take i).foldl (· * ·) 1 % nth 1 d.counts i
    let addr := fun (base sp : Nat) (st : List Int) =>
      (((List.range d.nl).foldl (fun (v : Int) i => v + nth 0 st i * ((ix i : Nat) : Int)) (base : Int)) %
        (2 ^ (if sp = 1 then 64 else 32) : Int)).toNat
    let sa := addr x.k.va.toNat x.k.ssp d.sstride
    let da := addr x.k.vd.toNat x.k.dsp d.dstride
    let span := (d.counts.take x.k.lvl).foldl (· * ·) 1
    let free := ringFree (ringDesc x.l x.k.ring).slots (x.b.ring x.k.ring)
    4 ≤ n → n % 4 = 0 → x.k.buffer = [] →
    (x.k.rng = true → it % span = 0 → (x.k.published ≠ it / span ∨ free = 0) → cmdStep x = .wait x.s none) ∧
    ((x.k.rng = true → it % span = 0 → x.k.published = it / span ∧ free ≠ 0) →
      ((sa % 4 ≠ 0 ∨ da % 4 ≠ 0) → cmdStep x = .fault .addrAlign) ∧
      (sa % 4 = 0 → da % 4 = 0 → sa % 128 + n ≤ 128 → da % 128 + n ≤ 128 → sa + n ≤ 2 ^ 64 → da + n ≤ 2 ^ 64 →
        EngPlace x x.k.ssp sa n p → EngPlace x x.k.dsp da n q → (x.k.ssp ≠ x.k.dsp ∨ da + n ≤ sa ∨ sa + n ≤ da) →
        x.b.spadSize ≤ 2 ^ 32 →
        cmdStep x = .go (copied x p q n)
          { x.k with progress := (it + 1) * n, finished := decide (d.total ≤ it + 1) && !x.k.rng, buffer := [], page := none,
                     acks := x.k.acks + q.answers }))) ∧
  (∀ (x : CmdCtx), x.k.op = .cgo → x.k.nest? (x.s.core x.core) = none → cmdStep x = .fault .queueFault) ∧
  (∀ (s : State) (die d : Nat) (bs : List Byte) (ref : AckRef), s.dram.wf = true → die < 2 → bs ≠ [] →
    let cells := bs.mapIdx fun i v => (d + i, v)
    let t := writeCells s die cells ref
    (homeDie d = die → homeDie (d + bs.length - 1) = die →
      ∀ a, t.dram.get a = if d ≤ a ∧ a < d + bs.length then nth 0#8 bs (a - d) else s.dram.get a) ∧
    (homeDie d ≠ die → d % 128 + bs.length ≤ 128 → t.dram = s.dram ∧ ∃ m, m.kind = .write cells (cellWords cells) ref ∧
      t.die die = { s.die die with out := (s.die die).out ++ [m], clock := (m.c0, m.c1) })) ∧
  (∀ (x : CmdCtx), x.k.op = .lwin → x.k.badControl = false → x.k.count = 0 → x.k.va.extractLsb' 22 42 = 0 →
    let v := x.k.va
    let dev := (v.extractLsb' 0 8).toNat
    let w := (v.extractLsb' 8 6).toNat
    let send := v.getLsbD 21
    let known := if send then (∃ r, registration? x.s dev w = some r) else ∃ q ∈ x.s.exposures, q.window = w
    (send = true ∨ dev = 0) →
    (¬known → cmdStep x = .fault .accessRights) ∧
    (known → ∃ t, cmdStep x = .go t { x.k with finished := true } ∧ t = { x.s with bindings := t.bindings } ∧
      ∀ y : Binding, y ∈ t.bindings ↔
        (y ∈ x.s.bindings ∧ ¬(y.device = (if send then some dev else none) ∧ y.window = w ∧ (send = true → y.core = x.core))) ∨
        (v.getLsbD 20 = false ∧ y = { device := if send then some dev else none, window := w, core := x.core
                                      ctr := (v.extractLsb' 14 6).toNat, launch := x.k.launch }))) ∧
  (∀ (x : CmdCtx), x.k.op = .lsendPort →
    let n := x.k.count
    let dev := (x.k.vd.extractLsb' 0 8).toNat
    let src := x.k.va.toNat + x.k.progress
    ((x.k.badControl = true ∨ n < 4 ∨ 1048576 < n ∨ n % 4 ≠ 0) → cmdStep x = .fault .queueFault) ∧
    (x.k.badControl = false → 4 ≤ n → n ≤ 1048576 → n % 4 = 0 → (dev = x.s.device.toNat ∨ unreachable x.s dev = false) →
      x.k.va.toNat % 4 = 0 → src + (4 - x.k.progress % 4) ≤ x.b.spadSize → x.b.spadSize ≤ 2 ^ 32 →
      cmdStep x = .wait x.s none)) ∧
  (∀ (s : State) (core dev dst port n : Nat) (k : EngCmd) (l : Launch) (b : Block),
    ((s.core core).link.cmds.find? fun k => k.op == .lsendPort && k.started && !k.finished && k.fault.isNone &&
      ((k.vd.extractLsb' 0 8).toNat, (k.vd.extractLsb' 8 9).toNat, (k.vd.extractLsb' 17 5).toNat) == (dev, dst, port)) = some k →
    s.launch? k.launch = some l → (s.core core).block? k.launch k.block = some b → l.phase = .admitted →
    k.badControl = false → 4 ≤ k.count → k.count ≤ 1048576 → k.count % 4 = 0 →
    (dev = s.device.toNat ∨ unreachable s dev = false) → k.va.toNat % 4 = 0 →
    k.va.toNat + k.progress + (4 - k.progress % 4) ≤ b.spadSize → b.spadSize ≤ 2 ^ 32 →
    0 < n → n ≤ 4 - k.progress % 4 → n ≤ k.count - k.progress →
    takeLocal s core dev dst port n n [] =
      (s.mapCmd core .link k.id fun k => { k with progress := k.progress + n, finished := decide (k.count ≤ k.progress + n) },
       (s.core core).spad.bytes (b.spadBase + k.va.toNat + k.progress) n))

/-- QPUSH of a queue that groups may push to, outside a predicted clause: with room, the entry (S[A], or the elected
lane's V[A], V[A+1] for a 64-bit type) stands last in the queue and the group goes on; a full engine queue holds the
scheduler, a full queue between groups leaves the group waiting. QPOP of a queue that groups may pop leaves a
pending pop. The wrong side of a queue bound to an engine traps with QUEUE_FAULT. (06 R262, 01 R25) -/
def Obligations.QueueInstructions : Prop :=
  ∀ (s : State) (x : Issuer) (i : Instr) (push : Bool) (w : Base) (e : ExtR), queueForm i = some (push, w, e) →
    Executes s x i →
    let q := w.b.toNat % 16
    let l := elect (activeOf x i)
    let c := s.core x.core
    let v := if e.sa then x.g.sreg w.a.toNat
      else if e.type = 7#5 then pair (vget s x w.a.toNat l) (vget s x (w.a.toNat + 1) l)
      else (vget s x w.a.toNat l).setWidth 64
    (push = true → q ∉ [1, 3, 5, 6, 7] → x.g.predicted = none → c.queueFull q = false →
      exec i s = .next (goesOn (s.setCore x.core ((c.pushQueue q
        { launch := x.l.id, block := x.b.index, slot := x.slot, id := c.nextId, value := v }).tick)) x i)) ∧
    (push = true → q ∉ [1, 3, 5, 6, 7] → x.g.predicted = none → c.queueFull q = true → exec i s = .next
      (if q ∈ [0, 2, 4] then s else waitsBehind (setWait s x.core x.slot (.push q v)) x i)) ∧
    (push = true → q ∈ [1, 3, 5, 6, 7] → exec i s = .next (instrTrap s x i .queueFault 0 0#32)) ∧
    (push = false → q ∉ [0, 2, 4] → exec i s = .next (goesOn ((s.mapGroup x.core x.slot fun g =>
      g.addPend c.nextId (.pop q { scalar := e.sd, wide := e.type == 7#5, reg := w.d.toNat, lanes := activeOf x i,
                                   win := x.g.winmap })).mapCore x.core Core.tick) x i)) ∧
    (push = false → q ∈ [0, 2, 4] → exec i s = .next (instrTrap s x i .queueFault 0 0#32))

/-- KLD, KST and KSTS all of whose lanes pass the checks of Table 7.6 leave one pending access with the selector, the
position and the data of every active lane; KOPEN, KCOMMIT, KDROP and the six KMAP operations that pass theirs leave
one pending operation with S[A] (SA) and the fields of IMM24. The group goes on. A launch without a KV context takes
ILLEGAL_ENCODING, reason 0xE, when such an instruction would execute. KV_STATUS_LAND of a K-space access that is the
group's first performs its lanes and ends it; stores to a page or state homed on the other die cross the bridge as
one stamped message first. A lane whose checks pass lands its status in ST, a load its data in D, and no other byte
of a tile changes. KLD reads positions below L(s), in its own window below L(s) + D(s): status 3 beyond, 1 where no
page is mapped, 2 for a page of the second tier (whose fetch begins), 4 for a poisoned one (a load that meets a
poisoned line marks its page so: log 22, the model's reading), else 0 with every element's exact value rounded to
the access's format. KST puts its elements into the page, and no other element of it, with the same statuses;
tagged, it is bound to the draft range, maps an absent page of the window when the pool has one, and raises D(s).
KSTS writes the committed state, or tagged the window's record at its position, which a tagged read at that position
then sees. (07 R276, 07 R281, 07 R282, 07 R285, 07 R272, 07 R278, 07 R279, 07 R280) -/
def Obligations.KvInstructionsBecomePending : Prop :=
  ((∀ (s : State) (x : Issuer) (i : Instr) (op : KvOp) (w : Base) (e : ExtM) (k : KvContext) (g' : Group),
      kvForm i = some (op, w, e) → Executes s x i → kvOf s x.g.launch = some k →
      let fmt := nth 0#32 x.l.rec_.formats e.size.toNat
      let tag := if e.off.getLsbD 4 then some (e.off.extractLsb' 0 4).toNat else none
      let lanes := (lanesOf (activeOf x i)).map fun l =>
        ({ lane := l, sel := val32 s x e.sa w.a.toNat l, pos := vget s x w.b.toNat l
           data := if op = .kld then 0#32 else vget s x w.d.toNat l, stage := .issued } : KvLane)
      (∀ l ∈ lanes, kvCheckCoord k op (slotBits fmt) tag.isSome l.sel l.pos = none ∧
        kvCheckState k op tag l.sel l.pos = none) → lanes ≠ [] →
      let t := (s.mapGroup x.core x.slot fun g => g.addPend (s.core x.core).nextId (.kv
          { site := siteOf x i, op := op, ctx := k.id, fmt := fmt, dReg := w.d.toNat,
            stReg := (e.off.extractLsb' 5 7).toNat, tag := tag, win := x.g.winmap, scalarSel := e.sa,
            lanes := lanes })).mapCore x.core Core.tick
      t.group? x.core x.slot = some g' → g'.ended = false →
      exec i s = .next (goesOn t x i)) ∧
    (∀ (s : State) (x : Issuer) (i : Instr) (op : KvCtlOp) (w : Base) (e : ExtC) (k : KvContext),
      kvCtlForm i = some (op, w, e) → Executes s x i → kvOf s x.g.launch = some k → x.g.kvCtlPending = false →
      let win := op == .kopen || op == .kcommit || op == .kdrop
      let c : KvCtl :=
        { site := siteOf x i, op := op, ctx := k.id, lane := elect (activeOf x i),
          window := if win then e.imm.toNat % 16 else 0,
          sel := if e.sa then x.g.sreg w.a.toNat else 0#64, vec := win && e.imm.getLsbD 4, cv := win && e.imm.getLsbD 5,
          ctr := (e.imm.extractLsb' 6 6).toNat, n := if op = .kcommit then (e.imm.extractLsb' 12 8).toNat else 0,
          dReg := w.d.toNat, stage := .issued }
      ctlCheck k c = none → ctlCheckState k c = none → commitBytes k x.b c = true →
      exec i s = .next (goesOn ((s.mapGroup x.core x.slot fun g =>
        g.addPend (s.core x.core).nextId (.kvCtl c)).mapCore x.core Core.tick) x i)) ∧
    (∀ (s : State) (x : Issuer) (i : Instr), ((kvForm i).isSome ∨ (kvCtlForm i).isSome) → Executes s x i →
      kvOf s x.g.launch = none → exec i s = .next (instrTrap s x i .illegalEncoding 0xE 0#32))) ∧
  (
  (∀ (s : State) (g : Group) (a : KvAccess) (k : KvContext), s.group? s.sel.core s.sel.slot = some g →
      g.pend? s.sel.id = some (.kv a) → g.kvFirst s.sel.id = true → s.kv? a.ctx = some k →
      (∀ l ∈ a.lanes, l.stage = .issued ∧ kvBusy k a l = false) → 
      ((∀ l ∈ a.lanes, kvFar k s.sel.core a l = false) →
        exec .kvStatusLand s = .next ((a.lanes.foldl (fun t l => performKvLane t s.sel.core s.sel.slot a l) s).mapGroup
          s.sel.core s.sel.slot fun g => g.dropPend s.sel.id)) ∧
      (∀ p, a.lanes ≠ [] → (∀ l ∈ a.lanes, kvFar k s.sel.core a l = true ∧ kvBase k (kvCoord l.sel l.pos) = p) →
        exec .kvStatusLand s = .next (sendMsg (s.mapGroup s.sel.core s.sel.slot fun g =>
          g.setPend s.sel.id (.kv { a with lanes := a.lanes.map fun l => { l with stage := .crossing } }))
          (dieOf s.sel.core) (.kv s.sel.core s.sel.slot s.sel.id (a.lanes.map fun l => l.lane))))) ∧
    (∀ (k : KvContext) (core : Nat) (a : KvAccess) (l : KvLane), kvFar k core a l = true ↔
      (a.op = .kst ∨ a.op = .ksts) ∧ homeDie (kvBase k (kvCoord l.sel l.pos)) ≠ dieOf core) ∧
    (∀ (s : State) (core slot : Nat) (a : KvAccess) (l : KvLane) (k : KvContext) (g : Group) (st d : Nat),
      s.kv? a.ctx = some k → s.group? core slot = some g → kvCheckState k a.op a.tag l.sel l.pos = none →
      (a.op = .kld → (kvCoord l.sel l.pos).plane = 2 → spansPoisoned s (kvSpans k a.fmt (kvCoord l.sel l.pos)) = false) →
      (s.core core).tileData.wf = true → vAddr a.win g.wide a.stReg l.lane = some st →
      vAddr a.win g.wide a.dReg l.lane = some d → (d + 4 ≤ st ∨ st + 4 ≤ d) →
      let c := kvCoord l.sel l.pos
      let tag := if k.mine a.tag c.seq then a.tag else none
      let r : KvContext × Nat × Word :=
        if a.op = .kld then
          if spansPoisoned s (kvSpans k a.fmt c) = true ∧ (kvLoad k a.fmt tag c).2.1 = 0 then
            (k.poison c.seq c.head (c.pos / 64), 4, 0#32)
          else kvLoad k a.fmt tag c
        else if a.op = .kst then ((kvStore k a.fmt a.tag c l.data).1, (kvStore k a.fmt a.tag c l.data).2, 0#32)
        else ((kvStateStore k a.fmt a.tag c l.data).1, (kvStateStore k a.fmt a.tag c l.data).2, 0#32)
      let t := performKvLane s core slot a l
      t.kv? a.ctx = some r.1 ∧ (t.core core).tileData.nat st 4 = r.2.1 ∧
      (a.op = .kld → (t.core core).tileData.nat d 4 = r.2.2.toNat) ∧
      (∀ b, (b < st ∨ st + 4 ≤ b) → (a.op = .kld → b < d ∨ d + 4 ≤ b) →
        (t.core core).tileData.get b = (s.core core).tileData.get b)) ∧
    (∀ (s : State) (ps : List KvSpan), spansPoisoned s ps = true ↔ ∃ p ∈ ps, ∃ b, b < p.2 ∧ s.poisonedAt (p.1 + b) = true) ∧
    (∀ (k : KvContext) (fmt : Word) (tag : Option Nat) (c : KvCoord), c.plane ≠ 2 →
      let top := k.len c.seq + (match tag with | some w => if k.mine tag c.seq then (k.window w).depthOf c.seq else 0 | none => 0)
      (top ≤ c.pos → kvLoad k fmt tag c = (k, 3, 0#32)) ∧
      (c.pos < top → k.entry? c.seq c.head (c.pos / 64) = none → kvLoad k fmt tag c = (k, 1, 0#32)) ∧
      (∀ e, c.pos < top → k.entry? c.seq c.head (c.pos / 64) = some e →
        (e.state = .secondTier → kvLoad k fmt tag c =
          (k.mapEntry c.seq c.head (c.pos / 64) fun e => { e with fetch := 1 }, 2, 0#32)) ∧
        (e.state = .poisoned → kvLoad k fmt tag c = (k, 4, 0#32)) ∧
        (e.state = .resident → kvLoad k fmt tag c = (k, 0, packElems (slotBits fmt)
          ((elemNums (slotBits fmt) c.word).map fun j => toElem fmt (k.value e c.plane c.pos j)))))) ∧
    (∀ (k : KvContext) (fmt : Word) (tag : Option Nat) (c : KvCoord), c.plane = 2 →
      kvLoad k fmt tag c = (k, 0, packElems (slotBits fmt) ((elemNums (slotBits fmt) c.word).map fun j =>
        toElem fmt (dec .fp32 ((match tag with
          | some w => if k.mine tag c.seq then
              ((k.window w).stateAt c.seq c.head j (c.pos + 1)).map fun (b : Nat × Word) => b.2 else none
          | none => none).getD (k.committed.get (stateIx k c.seq c.head j))).toNat)))) ∧
    (∀ (k : KvContext) (fmt : Word) (tag : Option Nat) (c : KvCoord) (data : Word),
      let allowed := match tag with | some _ => k.inDraft c.seq c.pos | none => decide (c.pos < k.capacity)
      (allowed = false → kvStore k fmt tag c data = (k, 3)) ∧
      (allowed = true → k.entry? c.seq c.head (c.pos / 64) = none → tag = none ∨ k.hasPage = false →
        kvStore k fmt tag c data = (k, 1)) ∧
      (∀ e, allowed = true → k.entry? c.seq c.head (c.pos / 64) = some e →
        (e.state = .secondTier → kvStore k fmt tag c data =
          (k.mapEntry c.seq c.head (c.pos / 64) fun e => { e with fetch := 1 }, 2)) ∧
        (e.state = .poisoned → kvStore k fmt tag c data = (k, 4))) ∧
      (∀ e, allowed = true → e.state = .resident → cellWf 0#32 e.elems = true →
        (k.entry? c.seq c.head (c.pos / 64) = some e ∨
         (∃ w, tag = some w ∧ k.entry? c.seq c.head (c.pos / 64) = none ∧ k.hasPage = true ∧
           (k.alloc c.seq c.head (c.pos / 64) true w).entry? c.seq c.head (c.pos / 64) = some e)) →
        ∃ k' e', kvStore k fmt tag c data = (k', 0) ∧ k'.entry? c.seq c.head (c.pos / 64) = some e' ∧
          e' = { e with elems := e'.elems } ∧ k'.lens = k.lens ∧ k'.committed = k.committed ∧
          (∀ i x, (wordElems (slotBits fmt) data)[i]? = some x →
            e'.elems.get (k.elemIx c.plane c.pos (c.word * (32 / slotBits fmt) + i)) =
              BitVec.ofNat 32 (toPage (slotOfEnc e.enc) (elemValue fmt x Latch.one))) ∧
          (∀ ix, (∀ j ∈ elemNums (slotBits fmt) c.word, ix ≠ k.elemIx c.plane c.pos j) → e'.elems.get ix = e.elems.get ix) ∧
          (tag = none → k'.windows = k.windows) ∧
          (∀ w, tag = some w → w < k.windows.length → cellWf 0 (k.window w).depth = true →
            (k'.window w).depthOf c.seq = max ((k.window w).depthOf c.seq) (c.pos - k.len c.seq + 1)))) ∧
    (∀ (k : KvContext) (fmt : Word) (c : KvCoord) (data : Word),
      let word := fun (x : Nat) => BitVec.ofNat 32 (rnd .fp32 .std (elemValue fmt x Latch.one))
      (cellWf 0#32 k.committed = true → ∃ k', kvStateStore k fmt none c data = (k', 0) ∧ k' = { k with committed := k'.committed } ∧
        (∀ i x, (wordElems (slotBits fmt) data)[i]? = some x →
          k'.committed.get (stateIx k c.seq c.head (c.word * (32 / slotBits fmt) + i)) = word x) ∧
        (∀ ix, (∀ j ∈ elemNums (slotBits fmt) c.word, ix ≠ stateIx k c.seq c.head j) →
          k'.committed.get ix = k.committed.get ix)) ∧
      (∀ w, k.inDraft c.seq c.pos = false → kvStateStore k fmt (some w) c data = (k, 3)) ∧
      (∀ w, k.inDraft c.seq c.pos = true → w < k.windows.length →
        let mine := (k.window w).records.filter fun r => r.seq == c.seq
        let room := mine.any (fun r => r.pos == c.pos) || decide ((dedup (mine.map fun r => r.pos)).length < k.draftStates)
        (room = false → kvStateStore k fmt (some w) c data = (k, 1)) ∧
        (room = true → ∃ k', kvStateStore k fmt (some w) c data = (k', 0) ∧ k' = { k with windows := k'.windows } ∧
          ∀ i x, (wordElems (slotBits fmt) data)[i]? = some x →
            (k'.window w).stateAt c.seq c.head (c.word * (32 / slotBits fmt) + i) (c.pos + 1) = some (c.pos, word x)))))

/-- KV_COMMIT_POINT of the group's first K-space operation, a KCOMMIT or KDROP, whose count bytes (.vec) lie in the
block's scratchpad: once the release at device scope that CV asks for is complete, and no earlier store of the group
to the count bytes is undrained, an open window commits, min(N, D(s)) drafts of every sequence s it holds, N its
count byte or the instruction's N (0 of a KDROP), and with CV the counter moves by 1; where that writes on the other
die, it crosses the bridge first and takes effect on arrival (log 93, the model's reading); an IDLE window parks
with detail 0x0A. The commit: L(s) grows; a page the window holds goes back to the pool unless it starts below L(s),
else it has WH 0; every element and state element is as 07 R284 says, and everything of other sequences and windows
is unchanged. KV_STATUS_LAND of a KOPEN or KMAP that is first applies it, a page of .alloc on the other die across
the bridge, and returns its value in S[D]. KOPEN opens its window with no drafts and no records. .alloc maps a
zeroed page in DEFAULT_ENC, .free unmaps one, .fetch and .evict begin a move, .len sets L(s), .query returns Table
7.2; with their result codes. KV_FETCH_COMPLETE makes a SECOND_TIER page under fetch RESIDENT and KV_EVICT_COMPLETE
ends an eviction; the page's lines are read at one tier and written at the other, and a poisoned one makes it
POISONED. (07 R272, 07 R282, 07 R283, 07 R284, 07 R285, 07 R286, 08 R305) -/
def Obligations.KvEventsApply : Prop :=
  (∀ (s : State) (g : Group) (c : KvCtl), s.group? s.sel.core s.sel.slot = some g →
    g.pend? s.sel.id = some (.kvCtl c) → (c.op = .kcommit ∨ c.op = .kdrop) → c.stage = .issued → g.kvFirst s.sel.id = true →
    (∀ (t : State) (k : KvContext) (b : Block),
      (t = s ∧ c.cv = false) ∨ (c.cv = true ∧ releaseStep s s.sel.core s.sel.slot 5 s.sel.id = some (t, true)) →
      t.kv? c.ctx = some k → (t.core s.sel.core).block? g.launch g.block = some b →
      let count := (k.window c.window).count
      let held := c.vec && g.storeBefore s.sel.id s.sel.core (b.spadBase + c.sel.toNat) count
      let counts := (List.range count).map fun i =>
        if c.vec then ((t.core s.sel.core).spad.get (b.spadBase + c.sel.toNat + i)).toNat else c.n
      let n := fun i => nth 0 counts i
      let drop := t.mapGroup s.sel.core s.sel.slot fun g => g.dropPend s.sel.id
      let u := writeSpans (drop.mapKv c.ctx fun _ => commitWindow k c.window n) (commitSpans k c.window n)
      (held = true → exec .kvCommitPoint s = .next t) ∧
      (held = false → (k.window c.window).open_ = false → exec .kvCommitPoint s =
        .next (lateFault drop s.sel.core s.sel.slot s.sel.id (ctlLate c .kvFault 0x0A 0#64))) ∧
      (held = false → (k.window c.window).open_ = true → commitBytes k b c = true →
        ((∀ p ∈ commitSpans k c.window n, homeDie p.1 = dieOf s.sel.core) → exec .kvCommitPoint s =
          .next (if c.cv then u.mapCore s.sel.core fun x => x.addCounter c.ctr 1#64 else u)) ∧
        ((∃ p ∈ commitSpans k c.window n, homeDie p.1 ≠ dieOf s.sel.core) → exec .kvCommitPoint s =
          .next (sendMsg (t.mapGroup s.sel.core s.sel.slot fun g => g.setPend s.sel.id (.kvCtl { c with stage := .crossing }))
            (dieOf s.sel.core) (.kvCtl s.sel.core s.sel.slot s.sel.id counts))))) ∧
    (c.cv = true → releaseStep s s.sel.core s.sel.slot 5 s.sel.id = none → exec .kvCommitPoint s = .next s)) ∧
  (∀ (s : State) (g : Group) (c : KvCtl) (k : KvContext) (core slot id die v : Nat) (counts : List Nat),
    s.group? core slot = some g → g.pend? id = some (.kvCtl c) →
    (s.kv? c.ctx = some k → (c.op = .kcommit ∨ c.op = .kdrop) → (k.window c.window).open_ = true →
      let n := fun i => nth 0 counts i
      let t := writeSpans (s.mapKv c.ctx fun _ => commitWindow k c.window n) (commitSpans k c.window n)
      let u := if c.cv then t.mapCore core fun x => x.addCounter c.ctr 1#64 else t
      receiveMsg s die (.kvCtl core slot id counts) =
        sendMsg (u.mapGroup core slot fun g => g.setPend id (.kvCtl { c with stage := .answered })) (1 - dieOf core)
          (.ack (.kvCtl core slot id 0))) ∧
    (s.kv? c.ctx = some k → c.op = .alloc →
      let t := writeSpans (s.mapKv c.ctx fun _ => (ctlApply k c).1) (allocSpan k c).toList
      receiveMsg s die (.kvCtl core slot id counts) =
        sendMsg (t.mapGroup core slot fun g => g.setPend id (.kvCtl { c with stage := .answered })) (1 - dieOf core)
          (.ack (.kvCtl core slot id (ctlApply k c).2))) ∧
    let t := s.mapGroup core slot fun g => g.dropPend id
    ((c.op = .kcommit ∨ c.op = .kdrop) → receiveMsg s die (.ack (.kvCtl core slot id v)) = t) ∧
    (c.op = .alloc → receiveMsg s die (.ack (.kvCtl core slot id v)) =
      t.mapGroup core slot fun g => g.setS c.dReg (BitVec.ofNat 64 v))) ∧
  (∀ (k : KvContext) (w : Nat) (n : Nat → Nat), w < k.windows.length → cellWf 0 k.lens = true →
    let x := k.window w
    let u := commitWindow k w n
    let holds := fun (seq : Nat) => x.first ≤ seq ∧ seq < x.first + x.count
    let len := fun (seq : Nat) => if holds seq then k.len seq + min (n (seq - x.first)) (x.depthOf seq) else k.len seq
    (u.window w).open_ = false ∧ (∀ v, v ≠ w → u.window v = k.window v) ∧ (∀ seq, u.len seq = len seq) ∧
    u = { k with lens := u.lens, windows := u.windows, entries := u.entries, committed := u.committed } ∧
    u.entries = (k.entries.filter fun e =>
        decide ¬(holds e.seq ∧ e.wh = true ∧ e.win = w ∧ len e.seq ≤ e.page * 64)).map (fun e =>
      if holds e.seq then
        zeroDrafts k (len e.seq) (min (len e.seq + 255) (k.capacity - 1))
          (if e.wh = true ∧ e.win = w then { e with wh := false, win := 0 } else e)
      else e) ∧
    (cellWf 0#32 k.committed = true →
      (∀ r ∈ x.records, r.slot < k.nstate ∧ ∀ e ∈ r.elems, e.1 < k.stateElems) →
      ∀ seq slot e, slot < k.nstate → e < k.stateElems → u.committed.get (stateIx k seq slot e) =
        if holds seq then (match x.stateAt seq slot e (len seq) with
          | some b => b.2
          | none => k.committed.get (stateIx k seq slot e))
        else k.committed.get (stateIx k seq slot e))) ∧
  (∀ (x : KvWindow) (seq slot e below : Nat),
    let wrote := fun (r : KvRecord) => r ∈ x.records ∧ r.seq = seq ∧ r.slot = slot ∧ r.pos < below ∧ (assocGet r.elems e).isSome = true
    (x.stateAt seq slot e below = none ↔ ∀ r, ¬ wrote r) ∧
    ∀ p v, x.stateAt seq slot e below = some (p, v) →
      (∃ r, wrote r ∧ r.pos = p ∧ assocGet r.elems e = some v) ∧ ∀ r, wrote r → r.pos ≤ p) ∧
  (∀ (k : KvContext) (lo hi : Nat) (e : KvEntry),
    let z := zeroDrafts k lo hi e
    let at_ := fun (ix per : Nat) => e.page * 64 + ix / per % 64
    z = { e with elems := z.elems, metas := z.metas } ∧
    (∀ ix, z.elems.get ix = if lo ≤ at_ ix k.headDim ∧ at_ ix k.headDim ≤ hi then 0#32 else e.elems.get ix) ∧
    (∀ ix, let per := k.headDim / slotGroup (slotOfEnc e.enc)
      z.metas.get ix = if slotScale (slotOfEnc e.enc) ≠ 0 ∧ lo ≤ at_ ix per ∧ at_ ix per ≤ hi then 0 else e.metas.get ix)) ∧
  (∀ (s : State) (k : KvContext) (e : KvEntry), s.kv? s.sel.ctx = some k →
    k.entry? s.sel.seq s.sel.head s.sel.page = some e →
    let edit := fun (f : KvEntry → KvEntry) => s.mapKv s.sel.ctx fun k => k.mapEntry s.sel.seq s.sel.head s.sel.page f
    let moved := fun (t : State) (a b : Nat) =>
      let u := writeSpans (readSpans t [pageSpan k a (slotOfEnc e.enc)]) [pageSpan k b (slotOfEnc e.enc)]
      if spansPoisoned t [pageSpan k a (slotOfEnc e.enc)] then
        u.mapKv s.sel.ctx fun k => k.poison s.sel.seq s.sel.head s.sel.page else u
    let fetched := fun (e : KvEntry) => { e with fetch := 0, state := if e.state = .secondTier then .resident else e.state }
    (e.fetch = 1 → e.state = .secondTier → exec .kvFetchComplete s = .next
      (moved (edit fetched) (tierBase k e) (bondedBase k e))) ∧
    (e.fetch = 1 → e.state ≠ .secondTier → exec .kvFetchComplete s = .next (edit fetched)) ∧
    (e.fetch ≠ 1 → exec .kvFetchComplete s = .next s) ∧
    (e.fetch = 2 → exec .kvEvictComplete s = .next
      (moved (edit fun e => { e with fetch := 0 }) (bondedBase k e) (tierBase k e))) ∧
    (e.fetch ≠ 2 → exec .kvEvictComplete s = .next s)) ∧
  (∀ (s : State) (g : Group) (c : KvCtl) (k : KvContext), s.group? s.sel.core s.sel.slot = some g →
    g.pend? s.sel.id = some (.kvCtl c) → c.op ≠ .kcommit → c.op ≠ .kdrop → c.stage = .issued → g.kvFirst s.sel.id = true →
    s.kv? c.ctx = some k → ctlCheckState k c = none →
    let t := writeSpans (s.mapKv c.ctx fun _ => (ctlApply k c).1) (allocSpan k c).toList
    let u := t.mapGroup s.sel.core s.sel.slot fun g => g.dropPend s.sel.id
    ((∀ p ∈ allocSpan k c, homeDie p.1 = dieOf s.sel.core) → exec .kvStatusLand s = .next
      (if c.op = .kopen then u
       else u.mapGroup s.sel.core s.sel.slot fun g => g.setS c.dReg (BitVec.ofNat 64 (ctlApply k c).2))) ∧
    ((∃ p ∈ allocSpan k c, homeDie p.1 ≠ dieOf s.sel.core) → exec .kvStatusLand s = .next
      (sendMsg (s.mapGroup s.sel.core s.sel.slot fun g => g.setPend s.sel.id (.kvCtl { c with stage := .crossing }))
        (dieOf s.sel.core) (.kvCtl s.sel.core s.sel.slot s.sel.id [])))) ∧
  (∀ (k : KvContext) (c : KvCtl), let q := (ctlApply k c).1
    let v := (ctlApply k c).2
    let seq := (c.sel.extractLsb' 0 20).toNat
    let head := (c.sel.extractLsb' 20 8).toNat
    let page := (c.sel.extractLsb' 28 16).toNat
    let others := ∀ a b d, (a, b, d) ≠ (seq, head, page) → q.entry? a b d = k.entry? a b d
    let pool := decide (k.entries.length + k.held < k.pool)
    (c.op = .alloc → ∀ e, k.entry? seq head page = some e → q = k ∧ v = 0) ∧
    (c.op = .alloc → k.entry? seq head page = none → pool = false → q = k ∧ v = 1) ∧
    (c.op = .alloc → k.entry? seq head page = none → pool = true → v = 0 ∧ q = { k with entries := q.entries } ∧ others ∧
      q.entries.length = k.entries.length + 1 ∧
      allocSpan k c = some (pageSpan k (Config.kvDpa k.id seq head page 0) (slotOfEnc k.defaultEnc)) ∧
      ∃ e, q.entry? seq head page = some e ∧ e.state = .resident ∧ e.enc = k.defaultEnc ∧ e.wh = false ∧ e.busy = false ∧
        e.fetch = 0 ∧ ∀ ix, e.elems.get ix = 0#32 ∧ e.metas.get ix = 0) ∧
    (c.op ≠ .alloc ∨ k.entry? seq head page ≠ none ∨ pool = false → allocSpan k c = none) ∧
    (c.op = .free → k.entry? seq head page = none → q = k ∧ v = 1) ∧
    (c.op = .free → k.entry? seq head page ≠ none → v = 0 ∧ q.entry? seq head page = none ∧ others ∧
      q = { k with entries := q.entries, requants := q.requants }) ∧
    ((c.op = .fetch ∨ c.op = .evict) → k.entry? seq head page = none → q = k ∧ v = 1) ∧
    (∀ e, (c.op = .fetch ∨ c.op = .evict) → k.entry? seq head page = some e → e.state = .poisoned → q = k ∧ v = 4) ∧
    (∀ e, k.entry? seq head page = some e → e.state = .resident →
      (c.op = .fetch → q = k ∧ v = 0) ∧
      (c.op = .evict → v = 0 ∧ q = { k with entries := q.entries } ∧ others ∧
        q.entry? seq head page = some { e with state := .secondTier, fetch := 2 })) ∧
    (∀ e, k.entry? seq head page = some e → e.state = .secondTier →
      (c.op = .evict → q = k ∧ v = 0) ∧
      (c.op = .fetch → v = 0 ∧ q = { k with entries := q.entries } ∧ others ∧
        q.entry? seq head page = some { e with fetch := 1 })) ∧
    (c.op = .len → v = 0 ∧ q = { k with lens := q.lens } ∧ (cellWf 0 k.lens = true → ∀ a,
      q.len a = if a = seq then (c.sel.extractLsb' 40 24).toNat else k.len a)) ∧
    (c.op = .query → q = k ∧ (k.len seq < 2 ^ 32 →
      let x : DWord := BitVec.ofNat 64 v
      v < 2 ^ 64 ∧ (x.extractLsb' 32 32).toNat = k.len seq ∧
      (k.entry? seq head page = none → x.extractLsb' 0 32 = 0#32) ∧
      ∀ e, k.entry? seq head page = some e →
        x.extractLsb' 30 2 = (match e.state with | .unmapped => 0#2 | .resident => 1#2 | .secondTier => 2#2 | .poisoned => 3#2) ∧
        x.getLsbD 29 = e.wh ∧ x.extractLsb' 25 4 = (if e.wh then BitVec.ofNat 4 e.win else 0#4) ∧ x.getLsbD 24 = e.busy ∧
        x.extractLsb' 22 2 = BitVec.ofNat 2 e.fetch ∧ x.extractLsb' 11 11 = 0#11 ∧ x.extractLsb' 0 11 = e.enc)) ∧
    (c.op = .kopen → q = { k with windows := q.windows } ∧ (c.window < k.windows.length →
      (∀ x, x ≠ c.window → q.window x = k.window x) ∧
      let y := q.window c.window
      y.open_ = true ∧ y.first = seq ∧ y.count = (c.sel.extractLsb' 20 12).toNat + 1 ∧ y.records = [] ∧
      ∀ a, y.depthOf a = 0)))

/-- ROUTE with its tiles owned, its table IDLE, its operands in range, no store ahead and a valid routing vector opens
the table with the rows of the vector and goes on. RRET of a row in bounds leaves a pending return. RXWAIT of an
OPEN table leaves the group waiting behind it, of an IDLE one it acquires at core scope and goes on. RXSTAT of row 0
to 63, or of 64, writes the status to S[D]. AMERGE with its partial pair owned leaves a pending fold. SMXUP leaves a
pending long operation with the values of 07 R289, and with no others: of every active row α, the 64 columns of P,
and, but for a row all of −∞, m (the largest of m and the scaled scores) and l (the old l scaled by α plus the row
of P, rounded once); a NaN, or a maximum of +∞, makes all of them NaN. A power of 2 is rounded as EXP2 is. That
AMERGE uses bits 4:0 of S[A] alone, and that SMXUP takes the maximum of zeros of both signs as +0, are the model's
readings (log 43). (07 R289, 07 R290, 07 R295, 07 R297, 07 R299) -/
def Obligations.RouteAndAttentionInstructions : Prop :=
  (∀ (s : State) (x : Issuer) (w : Base) (e : ExtR) (rt : RouteTable) (rows : List RxRow), Executes s x (.route w e) →
    let a := (x.g.sreg w.a.toNat).toNat
    let o := (x.g.sreg w.b.toNat).toNat
    let q := a % 64
    let p := a / 64 % 32
    let c := s.core x.core
    let t := x.b.table (e.mod.toNat % 4)
    let y := c.table t
    (∀ n ∈ [q, 2 * p, 2 * p + 1], (c.tile n).owner = x.slot) → (c.table t).open_ = false →
    q ≠ 2 * p → q ≠ 2 * p + 1 → a < 2 ^ 11 → o % 32 = 0 → o + 2048 ≤ x.b.spadSize →
    x.g.storeBefore c.nextId x.core (x.b.spadBase + o) 2048 = false → routeOf s x.l = some rt →
    readVector c.spad (x.b.spadBase + o) rt.dests = some rows →
    exec (.route w e) s = .next (goesOn (s.setCore x.core ((c.setTable t
      { y with
        used := true, open_ := true, dispatched := false, launch := x.l.id, block := x.b.index, slot := x.slot,
        mark := c.nextId, pair := p, inTile := q, gen := y.gen + 1#32, rows := rows, bf16 := e.type == 11#5,
        ctr := e.c.toNat % 64, res := e.mod.getLsbD 2, policyNext := rt.next, timeout := rt.timeout, start := 0, timedOut := false, dests := rt.dests }).tick)) x (.route w e))) ∧
  (∀ (s : State) (x : Issuer) (w : Base) (e : ExtR), Executes s x (.rret w e) →
    let o := (x.g.sreg w.b.toNat).toNat
    o % 128 = 0 → o + 128 ≤ x.b.spadSize →
    exec (.rret w e) s = .next (goesOn ((s.mapGroup x.core x.slot fun g => g.addPend (s.core x.core).nextId
      (.rret (x.g.sreg w.a.toNat) (x.b.spadBase + o))).mapCore x.core Core.tick) x (.rret w e))) ∧
  (∀ (s : State) (x : Issuer) (w : Base) (e : ExtR), Executes s x (.rxwait w e) →
    let t := x.b.table (e.mod.toNat % 4)
    exec (.rxwait w e) s = .next
      (if ((s.core x.core).table t).open_ then waitsBehind (setWait s x.core x.slot (.rx t)) x (.rxwait w e)
       else goesOn (s.mapGroup x.core x.slot fun g => g.acquire 1 (s.core x.core).nextId) x (.rxwait w e))) ∧
  (∀ (s : State) (x : Issuer) (w : Base) (e : ExtR), Executes s x (.rxstat w e) →
    let r := (x.g.sreg w.b.toNat).toNat
    let t := (s.core x.core).table (x.b.table (e.mod.toNat % 4))
    r ≤ 64 → exec (.rxstat w e) s = .next (goesOn (sset s x w.d.toNat (if r = 64 then tableStatus t else rowStatus t r))
      x (.rxstat w e))) ∧
  (∀ (s : State) (x : Issuer) (w : Base) (e : ExtR), Executes s x (.amerge w e) →
    let q := (x.g.sreg w.a.toNat).toNat % 32
    let na := e.mod.getLsbD 0
    ((s.core x.core).tile (2 * q)).owner = x.slot → ((s.core x.core).tile (2 * q + 1)).owner = x.slot →
    exec (.amerge w e) s = .next (goesOn ((s.mapGroup x.core x.slot fun g => g.addPend (s.core x.core).nextId
      (.amerge (siteOf x (.amerge w e)) q w.d.toNat
        ((List.range 64).map fun l => if na then 0#32 else vget s x w.b.toNat l) na
        (activeOf x (.amerge w e)) (e.c.toNat % 64) x.g.winmap)).mapCore x.core Core.tick) x (.amerge w e))) ∧
  (∀ (s : State) (x : Issuer) (w : Base) (e : ExtR), Executes s x (.smxup w e) →
    ∃ writes, exec (.smxup w e) s = .next (goesOn ((s.mapGroup x.core x.slot fun g => g.addPend (s.core x.core).nextId
      (.long x.g.winmap writes none)).mapCore x.core Core.tick) x (.smxup w e)) ∧
    ∀ q : Nat × Nat × Word, q ∈ writes ↔ ∃ r, (activeOf x (.smxup w e)).getLsbD r = true ∧
      let y := softRow (if e.mod.getLsbD 0 then .fp16 else .bf16) (lowWord (x.g.sreg e.c.toNat)).toNat
        ((List.range 64).map fun j => (vget s x (w.a.toNat + r) j).toNat) (vget s x w.b.toNat r).toNat
        (vget s x (w.b.toNat + 1) r).toNat
      (q = (w.b.toNat + 2, r, BitVec.ofNat 32 y.alpha) ∨
       (∃ m l, y.ml = some (m, l) ∧ (q = (w.b.toNat, r, BitVec.ofNat 32 m) ∨ q = (w.b.toNat + 1, r, BitVec.ofNat 32 l))) ∨
       ∃ j, j < 32 ∧ q = (w.d.toNat + r / 2, 32 * (r % 2) + j,
        BitVec.ofNat 32 (nth 0 y.p (2 * j) + nth 0 y.p (2 * j + 1) * 2 ^ 16)))) ∧
  (∀ (pf : FFmt) (c m l : Nat) (scores : List Nat),
    let ts := scores.map fun x => rnd .fp32 .std (Machine.Num.mul (dec .fp32 c) (dec .fp32 x))
    let y := softRow pf c scores m l
    let bad := (dec .fp32 l).isNan = true ∨ ∃ t ∈ m :: ts, (dec .fp32 t).isNan = true ∨ dec .fp32 t = .inf false
    (bad → y.ml = some (0x7FC00000, 0x7FC00000) ∧ y.alpha = 0x7FC00000 ∧ y.p = ts.map fun _ => pf.canonicalNan) ∧
    (¬ bad → (∀ t ∈ m :: ts, dec .fp32 t = .inf true) → y.ml = none ∧ y.alpha = 0x3F800000 ∧ y.p = ts.map fun _ => 0) ∧
    (¬ bad → (∃ t ∈ m :: ts, dec .fp32 t ≠ .inf true) → ∃ mn, mn ∈ m :: ts ∧
      (∀ t ∈ m :: ts, (dec .fp32 mn).ltz (dec .fp32 t) = false) ∧
      y.alpha = expDiff .fp32 m mn ∧ y.p = ts.map (fun t => expDiff pf t mn) ∧
      y.ml = some (mn, rnd .fp32 .std (y.p.foldl (fun a p => Machine.Num.add false a (dec pf p))
        (Machine.Num.mul (dec .fp32 l) (dec .fp32 y.alpha)))))) ∧
  (∀ (f : FFmt) (x y : Nat), (dec .fp32 x = .inf true → expDiff f x y = 0) ∧
    ∀ s m e, dec .fp32 x ≠ .inf true → Machine.Num.add false (dec .fp32 x) (dec .fp32 y).neg = Machine.Num.fin s m e → expDiff f x y =
      exp2In f .std (Config.expValue (match f with | .fp32 => 0 | .bf16 => 1 | _ => 2) (BitVec.ofNat 32 x) (BitVec.ofNat 32 y)).toNat s m e)

/-- ROUTE_DISPATCH of an OPEN table whose tiles have landed gives the pair to 0x24, goes through choices 0 to 3 row by
row, sends the rows, returns the input tile and starts the timer. A choice whose block is not resident is
DEST_FAULT; below CAP its 128 bytes go out with token and destination; at CAP it is dropped, or under policy `next`
goes to the first spare with room. INBOX_LANDING of a row first of its kind, whose block is here and whose ring has
a free slot, writes row, token and destination id into the slot and moves the ring. ROUTE_RETURN_ARRIVAL of a return
that R297 accepts makes its choice RETURNED or REDIRECTED with its row; a stale one only counts as late.
ROUTE_TIMEOUT turns every pending choice of a table whose time is up into TIMEOUT and completes it. A table none of
whose choices is pending, with room for its record, completes: the weighted sums of its rows stand in the pair,
which goes back to the group with the table IDLE and the counter moved by 1. AMERGE_FOLD of a fold whose tiles have
landed and whose earlier accesses are complete writes O × α + P, rounded once, in every active row, nothing else in
the tiles, and adds 1 to its counter. (07 R290, 07 R295, 07 R296, 07 R297, 07 R298) -/
def Obligations.RouteAndFoldEvents : Prop :=
  (∀ (s : State), let x := (s.core s.sel.core).table s.sel.table
    x.open_ = true → x.dispatched = false →
    (∀ n ∈ [x.inTile, 2 * x.pair, 2 * x.pair + 1], ((s.core s.sel.core).tile n).land = false) →
    let taken := s.mapCore s.sel.core fun c => [x.inTile, 2 * x.pair, 2 * x.pair + 1].foldl
      (fun c n => c.setTile n { c.tile n with owner := 0x24, offer := false }) c
    let r := (List.range 4).foldl (fun (p : Dispatch × List RxRow) k => dispatchPass taken s.sel.core s.sel.table x k 0 p.2 p.1)
      ({ counts := [], used := [], out := [] }, x.rows)
    exec .routeDispatch s = .next { (taken.mapCore s.sel.core fun c =>
        (giveBack c x.launch x.block x.slot x.inTile).setTable s.sel.table
          { x with rows := r.2, dispatched := true, start := s.cycle }) with rowsOut := s.rowsOut ++ r.1.out }) ∧
  (∀ (s : State) (core t : Nat) (x : RxTable) (q : Dispatch) (r k : Nat) (row : RxRow) (y : RxChoice) (d : RouteDest),
    findDest x.dests y.dest = some d →
    (resident s d = none → dispatchOne s core t x q r k row y = (q, { y with status := 4 })) ∧
    (∀ b, resident s d = some b → q.counts.get y.dest < d.cap → dispatchOne s core t x q r k row y =
      ({ q with
          counts := q.counts.set y.dest (q.counts.get y.dest + 1)
          out := q.out ++ [{ link := rowLink s core d.device d.core, srcCore := core, device := d.device, core := d.core,
                             launch := d.launch, block := b, ring := d.ring, token := tokenOf s.device core t r k x.gen,
                             dest := y.dest, row := (s.core core).tileData.bytes (x.inTile * 8192 + 128 * r) 128 }] },
       { y with status := 0, pending := true, redirected := false, device := d.device, core := d.core,
                launch := d.launch, block := b })) ∧
    (∀ b, resident s d = some b → d.cap ≤ q.counts.get y.dest → x.policyNext = false →
      dispatchOne s core t x q r k row y = (q, { y with status := 1 })) ∧
    (∀ (b j : Nat) (e : RouteDest) (c : Nat), resident s d = some b → d.cap ≤ q.counts.get y.dest → x.policyNext = true →
      row.nch ≤ j → j < 4 → q.used.contains (r, j) = false →
      let dest := (nth (0, 0#32) row.entries j).1
      findDest x.dests dest = some e → resident s e = some c → q.counts.get dest < e.cap →
      (∀ i, row.nch ≤ i → i < j → q.used.contains (r, i) = true ∨
        sendRow s core t x q r k (nth (0, 0#32) row.entries i).1 = none) →
      dispatchOne s core t x q r k row y =
        ({ counts := q.counts.set dest (q.counts.get dest + 1)
           used := (r, j) :: q.used
           out := q.out ++ [{ link := rowLink s core e.device e.core, srcCore := core, device := e.device, core := e.core,
                              launch := e.launch, block := c, ring := e.ring, token := tokenOf s.device core t r k x.gen,
                              dest := dest, row := (s.core core).tileData.bytes (x.inTile * 8192 + 128 * r) 128 }] },
         { y with dest := dest, status := 0, pending := true, redirected := true, device := e.device, core := e.core,
                  launch := e.launch, block := c }))) ∧
  (∀ (s : State) (m : RowMsg) (b : Block) (l : Launch), s.rowsOut[s.sel.index]? = some m → m.device = s.device.toNat →
    rowBehind s s.sel.index m = false → (s.core m.core).block? m.launch m.block = some b → s.launch? m.launch = some l →
    let d := ringDesc l m.ring
    let w := (b.ring m.ring).1
    let bs := (m.row ++ List.replicate 128 0#8).take 128 ++ bytesOfNat 8 m.token.toNat ++ [BitVec.ofNat 8 m.dest]
      ++ List.replicate 119 0#8
    d.slots ≠ 0 → 2 ≤ d.lines → ringFree d.slots (b.ring m.ring) ≠ 0 →
    exec .inboxLanding s = .next { (s.mapCore m.core fun c =>
        { c with spad := c.spad.put (b.spadBase + (d.base + w * d.lines * 128)) bs }.moveRing l m.block m.ring true)
      with rowsOut := dropIx s.rowsOut s.sel.index }) ∧
  (∀ (s : State) (m : RetMsg), s.returns[s.sel.index]? = some m → m.token.toNat % 256 = s.device.toNat →
    let core := m.token.toNat / 2 ^ 8 % 512
    let t := m.token.toNat / 2 ^ 17 % 4
    let x := (s.core core).table t
    ((x.open_ = false ∨ x.gen ≠ BitVec.ofNat 32 (m.token.toNat / 2 ^ 27) ∨ x.late_ s.cycle = true) →
      exec .routeReturnArrival s = .next
        ({ s with returns := dropIx s.returns s.sel.index }.mapTable core t fun x => { x with late := x.late + 1#16 })) ∧
    (∀ (row : RxRow) (y : RxChoice), let r := m.token.toNat / 2 ^ 19 % 64
      let k := m.token.toNat / 2 ^ 25 % 4
      m.token.toNat < 2 ^ 59 → x.open_ = true → x.gen = BitVec.ofNat 32 (m.token.toNat / 2 ^ 27) → x.late_ s.cycle = false →
      x.rows[r]? = some row → row.choices[k]? = some y → y.pending = true →
      y.device = m.device → y.core = m.core → y.launch = m.launch → y.block = m.block →
      let data := (List.range 64).map fun j =>
        BitVec.ofNat 16 ((nth 0#8 m.row (2 * j)).toNat + 256 * (nth 0#8 m.row (2 * j + 1)).toNat)
      let z : RxChoice := { y with pending := false, status := (if y.redirected then 2 else 0), row := data }
      exec .routeReturnArrival s = .next (completeTable
        ({ s with returns := dropIx s.returns s.sel.index }.mapTable core t fun x =>
          { x with rows := setNth x.rows r { row with choices := setNth row.choices k z } }) core t))) ∧
  (∀ (s : State), let x := (s.core s.sel.core).table s.sel.table
    x.open_ = true → x.dispatched = true → x.start + x.timeout ≤ s.cycle →
    exec .routeTimeout s = .next (completeTable (s.mapTable s.sel.core s.sel.table fun x =>
      { x with timedOut := true, rows := x.rows.map fun r =>
        { r with choices := r.choices.map fun y => if y.pending then { y with pending := false, status := 3 } else y } })
      s.sel.core s.sel.table)) ∧
  (∀ (s : State) (core t : Nat), let c := s.core core
    let x := c.table t
    t < c.tables.length → x.open_ = true → x.dispatched = true → x.waiting = false →
    (x.res = true → c.queueFull 6 = true → completeTable s core t = s) ∧
    ((x.res = true → c.queueFull 6 = false) → c.tileData.wf = true → 
      let u := (completeTable s core t).core core
      (u.table t).open_ = false ∧ (u.table t).rows = x.rows ∧
      (x.ctr < 64 → c.counters.length = 64 → u.counter x.ctr = c.counter x.ctr + 1#64) ∧
      (x.res = true → 6 < c.queues.length → nth [] u.queues 6 = nth [] c.queues 6 ++
        [{ launch := x.launch, block := x.block, slot := x.slot, id := 0,
           value := routeRecord x (match c.block? x.launch x.block with | some b => b.tableName t | none => 0) }]) ∧
      (∀ r j row, x.rows[r]? = some row → r < 64 → j < 64 →
        u.tileData.nat (accAddr false x.pair r j) 4 = (mergeElem x.bf16 row j).toNat) ∧
      (∀ a, a < 2 * x.pair * 8192 ∨ 2 * x.pair * 8192 + 16384 ≤ a → u.tileData.get a = c.tileData.get a) ∧
      (liveSlotOf c x.launch x.block x.slot = true → ∀ n, n = 2 * x.pair ∨ n = 2 * x.pair + 1 → n < c.tiles.length →
        (u.tile n).owner = x.slot ∧ (u.tile n).offer = true ∧ (u.tile n).land = false))) ∧
  (∀ (s : State) (g : Group) (p : Site) (q o : Nat) (alpha : List Word) (na : Bool) (rows : LaneMask) (ctr : Nat)
    (win : List (Option Nat)), s.group? s.sel.core s.sel.slot = some g →
    g.pend? s.sel.id = some (.amerge p q o alpha na rows ctr win) →
    ((s.core s.sel.core).tile (2 * q)).land = false → ((s.core s.sel.core).tile (2 * q + 1)).land = false →
    g.accessesDone s.sel.id = true → g.wide = true → (win.filterMap id).Nodup → (s.core s.sel.core).tileData.wf = true →
    let c := s.core s.sel.core
    ∃ t, exec .amergeFold s = .next t ∧
      (∃ h, t.group? s.sel.core s.sel.slot = some h ∧ h = { g.dropPend s.sel.id with wait := h.wait }) ∧
      (ctr < 64 → c.counters.length = 64 → (t.core s.sel.core).counter ctr = c.counter ctr + 1#64) ∧
      (∀ i j a, rows.getLsbD i = true → j < 64 → vAddr win true (o + i) j = some a →
        (t.core s.sel.core).tileData.nat a 4 =
          (foldElem na (nth 0#32 alpha i) (BitVec.ofNat 32 (c.tileData.nat a 4))
            (BitVec.ofNat 32 (c.tileData.nat (accAddr false q i j) 4))).toNat) ∧
      (∀ b, (∀ i j a, rows.getLsbD i = true → j < 64 → vAddr win true (o + i) j = some a → b < a ∨ a + 4 ≤ b) →
        (t.core s.sel.core).tileData.get b = c.tileData.get b)) ∧
  (∀ (na : Bool) (alpha o p : Word), foldElem na alpha o p = BitVec.ofNat 32 (rnd .fp32 .std
    (Machine.Num.add false (Machine.Num.mul (dec .fp32 o.toNat) (if na then Machine.Num.ofInt 1 else dec .fp32 alpha.toNat)) (dec .fp32 p.toNat))))

/-- SREAD of a per-lane entry writes it to D of every active lane, of another entry to S[D], and a read of OPLOG moves
its position on; the entries have the values of 01 Table 1.7: core, cluster, die, slot, block and grid coordinates,
group, domain, cycle, the trap's cause (10 Table 10.2) and words, 0 outside a handler, the four entries of the
window map (above them 0, the model's reading: log 88), the level indices, the lane's number, fault record and PC,
and OPLOG's value, 0 outside a handler. SWRITE of LFR_LO clears VALID and drops the fault entry in each active lane
whose bit 8 is 1, SWRITE of LPC, in a handler, sets the frame PC of every active lane with bits 1:0 zero; MODE
replaces the masked bits of the mode, which the group's next clause takes; SLEEP of n = 0 has no effect, else the
group is not ready until n cycles have passed: SLEEP_EXPIRE ends a wait whose time has come, and no other. (01 R20, 01 R29, 01 R33, 06 R264, 06 R265, 06 R268, 10 R341, 10 R349) -/
def Obligations.SystemInstructions : Prop :=
  (∀ (s : State) (x : Issuer) (w : Base) (e : ExtC), Executes s x (.sread w e) →
    let n := e.imm.toNat % 256
    exec (.sread w e) s = .next (goesOn
      (if srLane n then
        let t := vsets s x ((lanesOf (activeOf x (.sread w e))).flatMap fun l =>
          laneWrites (n == 0x18 || n == 0x19) w.d.toNat l (sreadLane x.g n l).toNat)
        if n = 0x0E then t.mapGroup x.core x.slot fun g =>
          { g with handler := g.handler.map fun h => { h with readPos := h.readPos + 1 } } else t
       else sset s x w.d.toNat (sreadGroup s x n)) x (.sread w e))) ∧
  (∀ (s : State) (x : Issuer), let r := x.l.rec_
    sreadGroup s x 0x00 = BitVec.ofNat 64 x.core ∧ sreadGroup s x 0x01 = BitVec.ofNat 64 (x.core / 64) ∧
    sreadGroup s x 0x02 = BitVec.ofNat 64 (x.core / 256) ∧ sreadGroup s x 0x03 = BitVec.ofNat 64 x.slot ∧
    sreadGroup s x 0x05 = BitVec.ofNat 64 x.g.block ∧
    sreadGroup s x 0x06 = BitVec.ofNat 64 (x.g.block % r.grid.1) ∧
    sreadGroup s x 0x07 = BitVec.ofNat 64 (x.g.block / r.grid.1 % r.grid.2.1) ∧
    sreadGroup s x 0x08 = BitVec.ofNat 64 (x.g.block / r.grid.1 / r.grid.2.1) ∧
    sreadGroup s x 0x09 = BitVec.ofNat 64 x.g.index ∧ sreadGroup s x 0x0A = BitVec.ofNat 64 r.domainIndex ∧
    sreadGroup s x 0x0B = BitVec.ofNat 64 s.cycle ∧
    (x.g.handler = none → sreadGroup s x 0x0C = 0#64 ∧ sreadGroup s x 0x0D = 0#64) ∧
    (∀ h, x.g.handler = some h → sreadGroup s x 0x0D = h.trap.words ∧
      let v := sreadGroup s x 0x0C
      v.extractLsb' 0 8 = BitVec.ofNat 8 h.trap.cause.code ∧ v.extractLsb' 8 4 = h.trap.word ∧
      v.getLsbD 12 = h.trap.chain ∧ v.getLsbD 13 = h.trap.lanef ∧ v.extractLsb' 14 2 = 0#2 ∧
      v.extractLsb' 16 4 = h.trap.reason ∧ v.extractLsb' 20 4 = BitVec.ofNat 4 h.trap.origin.code ∧
      v.extractLsb' 24 2 = h.trap.ctx ∧ v.extractLsb' 26 6 = h.trap.lane ∧ v.extractLsb' 32 32 = h.trap.info) ∧
    (∀ e, e < 4 → x.g.winmap.length = 4 → (∀ t ∈ x.g.winmap, ∀ n, t = some n → n < 64) →
      ((sreadGroup s x 0x0F).extractLsb' (8 * e) 8).toNat = (match x.g.winmap[e]? with | some (some t) => t | _ => 0xFF) ∧
      (sreadGroup s x 0x0F).extractLsb' 32 32 = 0#32) ∧
    (∀ k, k < 8 → sreadGroup s x (0x10 + k) = BitVec.ofNat 64 (levelIndex r x.g.block x.g.index k))) ∧
  (∀ (r : LaunchRec) (block group k : Nat), (r.nlevels ≤ k + 1 → levelIndex r block group k = 0) ∧
    (1 < r.nlevels → levelIndex r block group 0 = group) ∧
    (∀ v, 1 ≤ k → k + 1 < r.nlevels → r.levels[k + 1]? = some v →
      levelIndex r block group k = if v.domain = 6 then r.domainIndex
        else nth 0 (digits ((innerLevels r).map fun v => v.extent) block) (k - 1))) ∧
  (∀ (g : Group) (l : Nat), sreadLane g 0x04 l = BitVec.ofNat 64 l ∧ sreadLane g 0x1A l = (nth 0#32 g.lpc l).setWidth 64 ∧
    (g.handler = none → sreadLane g 0x0E l = 0#64) ∧
    (∀ h, g.handler = some h → sreadLane g 0x0E l =
      (nth 0#32 (if h.trap.lanef then faultView g l else nth [] h.trap.view l) h.readPos).setWidth 64) ∧
    (∀ r, g.lfr[l]? = some r → sreadLane g 0x19 l = r.addr ∧
      let v := sreadLane g 0x18 l
      v.extractLsb' 0 8 = r.cause ∧ v.getLsbD 8 = r.valid ∧ v.extractLsb' 9 7 = 0#7 ∧ v.extractLsb' 16 16 = r.detail ∧
      v.extractLsb' 32 32 = r.pc)) ∧
  (∀ (s : State) (x : Issuer) (w : Base) (e : ExtC), Executes s x (.swrite w e) →
    let n := e.imm.toNat % 256
    let v := fun (l : Nat) => if e.sa then lowWord (x.g.sreg w.a.toNat) else vget s x w.a.toNat l
    let m := activeOf x (.swrite w e)
    (n = 0x18 ∨ (n = 0x1A ∧ x.g.handler.isSome = true)) → 
    ∃ f : Group → Group, exec (.swrite w e) s = .next (goesOn (s.mapGroup x.core x.slot f) x (.swrite w e)) ∧
      (∀ g, f g = { g with lfr := (f g).lfr, faultLog := (f g).faultLog, lpc := (f g).lpc }) ∧
      ∀ (g : Group) (l : Nat), l < 64 → l < g.lpc.length → l < g.faultLog.length →
        (n = 0x18 → nth none (f g).faultLog l = (if m.getLsbD l ∧ (v l).getLsbD 8 then none else nth none g.faultLog l) ∧
          (f g).lpc = g.lpc ∧ ∀ r, g.lfr[l]? = some r → (f g).lfr[l]? =
            some (if m.getLsbD l ∧ (v l).getLsbD 8 then { r with valid := false } else r)) ∧
        (n = 0x1A → nth 0#32 (f g).lpc l = (if m.getLsbD l then v l &&& ~~~3#32 else nth 0#32 g.lpc l) ∧
          (f g).lfr = g.lfr ∧ (f g).faultLog = g.faultLog)) ∧
  (∀ (s : State) (x : Issuer) (w : Base) (e : ExtC), Executes s x (.mode w e) →
    let v : DWord := if e.sa then x.g.sreg w.a.toNat else e.imm.setWidth 64
    ∃ f : Word → Word, exec (.mode w e) s = .next (goesOn (s.mapGroup x.core x.slot fun g => { g with mode := f g.mode })
        x (.mode w e)) ∧
      ∀ m b, b < 32 → (f m).getLsbD b = (if b < 5 ∧ v.getLsbD (8 + b) then v.getLsbD b else m.getLsbD b)) ∧
  (∀ (g : Group), g.beginClause = { g with modeNow := g.mode }) ∧
  (∀ (s : State) (x : Issuer) (w : Base) (e : ExtC), Executes s x (.sleep w e) →
    let n := if e.sa then (x.g.sreg w.a.toNat).toNat % 2 ^ 24 else e.imm.toNat
    exec (.sleep w e) s = .next (if n = 0 then goesOn s x (.sleep w e)
      else waitsBehind (setWait s x.core x.slot (.sleep (s.cycle + n))) x (.sleep w e))) ∧
  (∀ (s : State) (g : Group) (t : Nat), s.group? s.sel.core s.sel.slot = some g → g.wait = .sleep t → 
    (t ≤ s.cycle → exec .sleepExpire s = .next (s.mapGroup s.sel.core s.sel.slot fun g => { g with wait := .none })) ∧
    (s.cycle < t → exec .sleepExpire s = .next (s.mapGroup s.sel.core s.sel.slot fun g => g)))

/-- TRAP answers the state of a group-precise USER_TRAP whose code is IMM24. An unassigned opcode, once what its
encoding names has landed, answers that of UNIMPL, even with no active lane. RETT in a handler answers a next state
in which the handler is left (and the stopped clause or command of its fault resumed, or dropped with xdrop, but a
command read from a record that fails its checks stands in its fault; after GANG_LOST the group ends); outside a
handler it is ILLEGAL_ENCODING, reason 0xE. Leaving a handler keeps every lane's resume PC, the S and P registers,
the mode and the window map as they are; a lane that is PARKED with VALID clear is RUN afterwards, and every other
lane keeps the state the frame gives it; the wait and the interrupted run that the handler was entered from come
back (a wait for code words is made again; the run without lanes that were moved: log 41, and lanes parked with
VALID clear run again: log 26, both the model's readings), and a lane that leaves PARKED has the clause that its LFR
names as its resume header. (02 R84, 02 R90, 06 R244, 06 R248, 06 R266, 06 R267, 10 R346, 10 R363, 10 R344) -/
def Obligations.TrapInstructionsTrap : Prop :=
  ((∀ (s : State) (x : Issuer) (w : Base) (e : ExtC), Executes s x (.trap w e) →
      exec (.trap w e) s = .next (instrTrap s x (.trap w e) .userTrap 0 (e.imm.setWidth 32))) ∧
    (∀ (s : State) (x : Issuer) (c : Cls) (b : Word) (e : Option Word), Issues s x (.unassignedOpcode c b e) →
      exec (.unassignedOpcode c b e) s = .next (instrTrap s x (.unassignedOpcode c b e) .unimpl 0 0#32)) ∧
    (∀ (s : State) (x : Issuer) (i : Instr) (w : Base) (drop : Bool), rettForm i = some (w, drop) → Executes s x i →
      (x.g.handler = none → exec i s = .next (instrTrap s x i .illegalEncoding 0xE 0#32)) ∧
      (∀ h, x.g.handler = some h →
        let t := resumeStopped (((s.mapCore x.core fun c => c.mapSched x.sched fun k =>
          { k with run := k.run.map fun r => { r with marked := 0#64 } })).mapGroup x.core x.slot leaveHandler) x.core h.trap drop
        exec i s = .next (endRun (if h.trap.cause = .gangLost then exitGroup t x.core x.slot else t) x.core x.sched))) ∧
    (∀ (s : State) (core : Nat) (r : SeqRun) (t : Trap) (u : Trap), (s.core core).seqRun = some r → r.stopped = some u →
      r.role ≠ .leader → t.origin = .sequencer →
      resumeStopped s core t false = runSet s core (fun r => { r with stopped := none }) ∧
      resumeStopped s core t true = runSet s core fun r =>
        { r with stopped := none, pass := none, bundle := r.clause.bundles.length, latchWrites := [] }) ∧
    (∀ (s : State) (core : Nat) (e : Engine) (n : Nat) (t : Trap), t.origin = .engine e n →
      (((s.core core).eng e).bad.any fun b => b.1 == n) = false →
      resumeStopped s core t false = s.mapCmd core e n (fun k => if badRecord s k then k else { k with fault := none }) ∧
      resumeStopped s core t true = s.mapCmd core e n fun k => match k.fault with
        | none => k
        | some f => { k with fault := none, finished := true, status := BitVec.ofNat 8 f.cause.code, buffer := [] })) ∧
  (
  ∀ (g : Group), g.handler.isSome →
      (leaveHandler g).handler = none ∧ (leaveHandler g).lpc = g.lpc ∧ (leaveHandler g).sregs = g.sregs ∧
      (leaveHandler g).preds = g.preds ∧ (leaveHandler g).mode = g.mode ∧ (leaveHandler g).winmap = g.winmap ∧
      (leaveHandler g).lfr = g.lfr ∧ (leaveHandler g).faultLog = g.faultLog ∧
      ∀ l r, l < 64 → l < g.lanes.length → g.lfr[l]? = some r → nth LaneState.exited (leaveHandler g).lanes l =
        (if nth LaneState.exited g.lanes l = .parked ∧ r.valid = false then .run else nth LaneState.exited g.lanes l)
      ∧ (∀ h, g.laneHdr[l]? = some h → (leaveHandler g).laneHdr[l]? =
          some (if nth LaneState.exited g.lanes l = .parked ∧ r.valid = false then some r.pc else h))
      ∧ ∀ h, g.handler = some h →
          (leaveHandler g).wait = (match h.wait with | .fetch _ _ _ => .none | w => w) ∧
          (h.cont = none → (leaveHandler g).cont = none) ∧
          ∀ q, h.cont = some q → ∃ q', (leaveHandler g).cont = some q' ∧ q' = { q with exec := q'.exec } ∧
            (q'.exec.getLsbD l = true ↔ q.exec.getLsbD l = true ∧ nth 0#32 g.lpc l = q.pos ∧
              nth LaneState.exited (leaveHandler g).lanes l = .run))

/-- A group-precise trap of a group outside a handler and a predicted clause, with no late lane fault, records its
cause, stops the group from issuing, sets the PC of every executing lane to the trapping word and leaves every other
lane's PC. A trap in a handler aborts the launch. TRAP_ENTRY of a group whose trap is due, which is not in a
handler, on no scheduler, in no predicted clause and has none of the work of 10 R344 outstanding, answers a next
state in which it is in handler mode: every lane that is not EXITED is RUN at TRAP_ENTRY on its handler PC, the
OPLOG read position is the first, what the group waited for and its interrupted run are kept for RETT (log 41, the
model's reading), and the frame, the S and P registers, the mode and the window map are unchanged.
DELIVERED_FAULT_TRAP makes a delivered fault due to a group that is on no scheduler and may take it, or whose run
stands before a wait mask, and whose run then leaves the scheduler. (10 R340, 10 R344, 06 R248) -/
def Obligations.TrapEntryAndWhatItSaves : Prop :=
  (∀ (s : State) (core slot : Nat) (ex : LaneMask) (pc : Word) (h : Option Word) (t : Trap) (g : Group),
    s.group? core slot = some g →
    (g.handler.isSome → g.predicted = none → raiseTrap s core slot ex pc h t = abortLaunch s g.launch .trapInHandler (t.cause.code, core, pc.toNat)) ∧
    (g.handler = none → g.predicted = none → g.late = [] → ∃ f : Group → Group, raiseTrap s core slot ex pc h t = s.mapGroup core slot f ∧
      (f g).due = some t ∧ (f g).ready = false ∧ (f g).cont = none ∧ (f g).sregs = g.sregs ∧ (f g).preds = g.preds ∧
      (f g).mode = g.mode ∧ (f g).winmap = g.winmap ∧ (f g).pend = g.pend ∧
      (∀ l, l < g.lpc.length → nth 0#32 (f g).lpc l = if ex.getLsbD l then pcWord pc else nth 0#32 g.lpc l))) ∧
  (∀ (s : State) (g : Group) (l : Launch) (t : Trap), s.group? s.sel.core s.sel.slot = some g →
    s.launch? g.launch = some l → g.ended = false → g.stopped = false → (s.core s.sel.core).offRun s.sel.slot = true →
    g.gangLost = false → g.due = some t → g.handler = none → g.entryClear = true → g.predicted = none →
    exec .trapEntry s = .next (s.mapGroup s.sel.core s.sel.slot fun g => g.enter t l.rec_.trapEntry (s.core s.sel.core).nextId)) ∧
  (∀ (g : Group) (t : Trap) (entry : Word) (mark : Nat), ∃ h, (g.enter t entry mark).handler = some h ∧ h.trap = t ∧
    h.readPos = 0 ∧ h.wait = g.wait ∧ h.cont = g.cont ∧ (g.enter t entry mark).wait = .none ∧
    (∀ (l : Nat) (p : Word), h.pcs[l]? = some p → p = entry &&& ~~~3#32) ∧ h.pcs.length = g.lpc.length ∧
    (∀ (l : Nat) (st : LaneState), g.lanes[l]? = some st → h.lanes[l]? = some (if st = LaneState.exited then LaneState.exited else LaneState.run)) ∧
    (g.enter t entry mark).lpc = g.lpc ∧ (g.enter t entry mark).lanes = g.lanes ∧ (g.enter t entry mark).sregs = g.sregs ∧
    (g.enter t entry mark).preds = g.preds ∧ (g.enter t entry mark).mode = g.mode ∧
    (g.enter t entry mark).winmap = g.winmap ∧ (g.enter t entry mark).pend = g.pend) ∧
  (∀ (s : State) (g : Group) (t : Trap), s.group? s.sel.core s.sel.slot = some g → firstDelivered g.delivered = some t →
    mayTake s s.sel.core s.sel.slot g = true →
    let taken : Group → Group := fun g =>
      { g with due := some t, delivered := g.delivered.filter fun u => u.origin != t.origin, ready := false, age := 0 }
    ((s.core s.sel.core).offRun s.sel.slot = true →
      exec .deliveredFaultTrap s = .next (s.mapGroup s.sel.core s.sel.slot taken)) ∧
    (∀ r, ((s.core s.sel.core).sched (schedOf s.sel.slot)).run = some r → r.slot = s.sel.slot →
      exec .deliveredFaultTrap s = .next ((((s.mapCore s.sel.core fun c => c.mapSched (schedOf s.sel.slot) fun k =>
        { k with run := none }).mapGroup s.sel.core s.sel.slot fun g => { g with cont := some r }.parkAll).mapGroup
          s.sel.core s.sel.slot taken))))

/-- Addition of WS96 patterns is commutative, and associative. A sum of two or more terms, formed in any order and any
tree, is the marker when any term is the marker or when the anchors are not all equal; otherwise it has their common
anchor and MAG equal to the sum of their MAGs modulo 2^87. (03 R131) -/
def Obligations.Ws96SumIsOrderFree : Prop :=
  (∀ a b : Nat, wsAdd a b = wsAdd b a) ∧
  (∀ a b c : Nat, a < 2 ^ 96 → b < 2 ^ 96 → c < 2 ^ 96 → wsAdd (wsAdd a b) c = wsAdd a (wsAdd b c)) ∧
  (∀ (x y : WsSum), (∀ t ∈ (WsSum.add x y).terms, t < 2 ^ 96) →
    let ts := (WsSum.add x y).terms
    ((∃ t ∈ ts, wsOvf t = true) ∨ (∃ t ∈ ts, ∃ u ∈ ts, wsAnchor t ≠ wsAnchor u) → (WsSum.add x y).value = wsMarker) ∧
    ((∀ t ∈ ts, wsOvf t = false) → (∀ t ∈ ts, ∀ u ∈ ts, wsAnchor t = wsAnchor u) →
      wsOvf (WsSum.add x y).value = false ∧ (∀ t ∈ ts, wsAnchor (WsSum.add x y).value = wsAnchor t) ∧
      (WsSum.add x y).value % 2 ^ 87 = (ts.foldl (fun n t => n + t % 2 ^ 87) 0) % 2 ^ 87))

/-- SCHEDULER_SELECT on a free scheduler begins the run of the group chosen, or goes on with its continuation, or traps
on its header; a run or continuation ages the groups and counts the streak. The choice is the priority holder while
its streak is under 4 and no ready group is boosted, else a ready group of greatest age, the lowest slot on a tie.
ADMISSION of the head record, with fewer than 32 launches admitted, nothing failed or halted, no command under way,
no restoration ahead and room for it, admits it with every L1 emptied, after write-backs (log 89, the model's
reading of R319); without room, or while restorations go ahead that have none, a launch of lower priority that may
give way stops. BLOCK_PLACEMENT places the next unit of the oldest launch that has one. BLOCK_END of a block nothing
of which is under way, on a core whose stores are home or that uses no wider barrier, ends it: it leaves its core
with its groups, and the launch counts it. KERNEL_BOUNDARY of such a launch, all of whose blocks have ended, with
every L1 clean and written back and no write on its way, empties every L1 and reports the launch. (09 R322, 09 R323, 09 R325, 09 R328, 01 R52, 01 R56, 08 R315) -/
def Obligations.SchedulingEvents : Prop :=
  (∀ (s : State) (slot : Nat) (g0 : Group) (q : Pick), let k := s.sel.sched % 4
    let n := s.sel.core
    let c := s.core n
    let ps := (schedGroups c k).filterMap fun p => (pickOf s n p.1 p.2).map fun q => (p.1, p.2, q)
    let aged := (s.setCore n (ageGroups c k slot (ps.map fun p => p.1))).mapCore n fun c => c.mapSched k fun x =>
      { x with last := some slot, streak := if x.last = some slot then x.streak + 1 else 1 }
    (c.sched k).run = none → choose (c.sched k) ps = some (slot, g0, q) →
    exec .schedulerSelect s = .next (match q with
      | .run g r => startRun aged n k slot { g with ready := true, age := 0 } r
      | .cont r => (aged.mapGroup n slot fun g => { g with cont := none }).mapCore n fun c => c.mapSched k fun x => { x with run := some r }
      | .fail g t => raiseTrap (s.setGroup n slot (g.noteFrame g0.frame)) n slot 0#64 0#32 none t)) ∧
  (∀ (x : Scheduler) (h : Nat) (ps : List (Nat × Group × Pick)) (p : Nat × Group × Pick),
    x.holder = some h → (ps.find? fun q => q.1 == h) = some p → (x.last ≠ some h ∨ x.streak < 4) →
    (∀ q ∈ ps, q.2.1.ageNow < 4) → choose x ps = some p) ∧
  (∀ (x : Scheduler) (ps : List (Nat × Group × Pick)) (p : Nat × Group × Pick), choose x ps = some p →
    ((∀ q ∈ ps, x.holder ≠ some q.1) ∨ (x.last = x.holder ∧ 4 ≤ x.streak) ∨ ∃ q ∈ ps, 4 ≤ q.2.1.ageNow) →
    p ∈ ps ∧ ∀ q ∈ ps, q.2.1.ageNow ≤ p.2.1.ageNow ∧ (q.2.1.ageNow = p.2.1.ageNow → p.1 ≤ q.1)) ∧
  (∀ (s : State) (h : Launch), s.failed = false → s.halted = false → s.power ≠ .standby → s.power ≠ .off →
    s.modeChange = none → s.hostAcks = 0 → headRecord s = some h →
    (∀ t, restoreAhead s h = false → admittedCount s < 32 → admitLaunch s h = some t →
      ((∃ p ∈ s.cores, p.2.l1Dirty = true) → exec .admission s = .next (writeBackAll s)) ∧
      ((∀ p ∈ s.cores, p.2.l1Dirty = false) →
        ((∃ p ∈ s.cores, p.2.wbOut ≠ 0) → exec .admission s = .next s) ∧
        ((∀ p ∈ s.cores, p.2.wbOut = 0) →
          exec .admission s = .next { t with cores := t.cores.map fun p => (p.1, { p.2 with l1 := [] }) }))) ∧
    (restoreAhead s h = true → (∃ l ∈ s.launches, mayRestore s l = true) → exec .admission s = .next s) ∧
    (∀ v, (restoreAhead s h = false ∧ (32 ≤ admittedCount s ∨ admitLaunch s h = none) ∨
        restoreAhead s h = true ∧ ∀ l ∈ s.launches, mayRestore s l = false) → preemptee s h = some v →
      exec .admission s = .next (s.mapLaunch v.id fun l =>
        { l with phase := if l.phase = .admitted then .stopping true else l.phase }))) ∧
  (∀ (s t : State) (l : Launch), s.modeChange = none → nextToPlace s = some l → placeUnit s l l.placed = some t →
    exec .blockPlacement s = .next { t with power := if t.power = .idle then .active else t.power }) ∧
  (∀ (s : State) (b : Block) (l : Launch), (s.core s.sel.core).block? s.sel.launch s.sel.block = some b →
    s.launch? s.sel.launch = some l → blockOver s s.sel.core b = true →
    ((wideBars l.rec_.barrierUse).isEmpty = true ∨ ((s.core s.sel.core).l1Dirty = false ∧ (s.core s.sel.core).wbOut = 0)) →
    exec .blockEnd s = .next (endBlock s s.sel.core l b) ∧
    (endBlock s s.sel.core l b).launches = s.launches.map fun m => if m.id = l.id then
      { m with ended := m.ended + 1, incident := m.incident <|> b.incident.map fun p => (p.1, s.sel.core, p.2) } else m) ∧
  (∀ (c : Core) (b : Block), (c.freeBlock b).block? b.launch b.index = none ∧
    ∀ p ∈ (c.freeBlock b).groups, p.2.launch ≠ b.launch ∨ p.2.block ≠ b.index) ∧
  (∀ (s : State) (l : Launch), s.launch? s.sel.launch = some l → launchOver l = true → s.modeChange = none →
    (∀ p ∈ s.cores, p.2.l1Dirty = false ∧ p.2.wbOut = 0) → writesUnderWay s = false →
    exec .kernelBoundary s = .next (reportLaunch { s with cores := s.cores.map fun p => (p.1, { p.2 with l1 := [] }) } l))

/-- TLB_WALK_COMPLETE of one of the 64 walks in flight on a die takes it off the list and acts by its page entry.
PREEMPTION_STOP of a group at a pre-emption point stops it, with PREEMPT as its stop cause. CONTEXT_SAVE of a
stopped launch whose cores are quiet, clean and written back, with no command under way, makes an image of every
core that holds it, queue entries that had not come back since the last restoration last, and leaves the launch
saved; with no launch admitted any more the time to IDLE begins. CONTEXT_RESTORE of a launch that is saved and
resumed, with room for it and nothing ahead of it, puts its images back, and it is admitted with none left but its
queue entries, commands and clauses, which enter as entries free; then its groups resume, a sleep, also one that a
handler holds back, with the count it had left. What may stay pending in an image and where engines stop is the
model's reading (log 29); so is where a stopped run resumes and how a restored image's entries enter (log 30). (10 R353, 10 R359, 10 R360, 10 R361, 10 R362, 06 R268) -/
def Obligations.WalkAndPreemptionEvents : Prop :=
  (∀ (s : State) (w : Walk) (l : Launch) (r : Region), s.sel.index < 64 → (s.die s.sel.die).walks[s.sel.index]? = some w →
    (s.mapDie s.sel.die fun d => { d with walks := dropIx d.walks s.sel.index }).launch? w.launch = some l →
    l.regions[w.region]? = some r →
    let k : PageKey := { die := s.sel.die, asid := w.asid, region := w.region, page := w.page }
    let t := touchL2 (s.mapDie s.sel.die fun d => { d with walks := dropIx d.walks s.sel.index }) (pteAddr r w.page) false
    ∃ u, exec .tlbWalkComplete s = .next ((dedup (u.launches.map fun l => l.asid)).foldl
        (fun s a => startWalks s a fun _ => false) u) ∧
      (∀ dpa ro, readPte t r w.page = .present dpa ro → u = pagePresent t k r dpa ro) ∧
      (readPte t r w.page = .bad → u = pageLost t k 2) ∧ (readPte t r w.page = .never → u = pageLost t k 1) ∧
      (readPte t r w.page = .absent → u = pageMiss t k w)) ∧
  (∀ (s : State) (g : Group), s.group? s.sel.core s.sel.slot = some g → mayStop s s.sel.core s.sel.slot g = true →
    exec .preemptionStop s = .next (stopGroup s s.sel.core s.sel.slot) ∧
    ∃ h, (stopGroup s s.sel.core s.sel.slot).group? s.sel.core s.sel.slot = some h ∧ h.stopped = true ∧
      h.stopCause = some .preempt) ∧
  (∀ (s : State) (l : Launch) (auto : Bool), s.launch? s.sel.launch = some l → l.phase = .stopped auto → s.modeChange = none →
    (∀ k ∈ coresOf s s.sel.launch, coreQuiet (s.core k) s.sel.launch = true ∧ (s.core k).l1Dirty = false ∧
      (s.core k).wbOut = 0) →
    let id := s.sel.launch
    let image := fun (k : Nat) => let m := imageOf (s.core k) k id fun i _ => i == id
      ((l.images.find? fun r => r.core == k).map m.addRest).getD m
    let t := ((coresOf s id).foldl (fun s k => s.mapCore k fun c => { c.without id with l1 := [] }) s).mapLaunch
      id fun l => { l with phase := .saved auto, images := (coresOf s id).map image }
    exec .contextSave s = .next (if admittedCount t = 0 then { t with idleSince := t.cycle } else t)) ∧
  (∀ (s : State) (l : Launch), s.launch? s.sel.launch = some l → l.phase = .saved true → l.aborted = false → s.modeChange = none → s.halted = false →
    s.failed = false → s.power ≠ .standby → s.power ≠ .off → admittedCount s < 32 → restoreBefore s l = false →
    l.images.all (imageFits s l) = true → (∀ m ∈ l.images, (s.core m.core).l1Dirty = false ∧ (s.core m.core).wbOut = 0) →
    exec .contextRestore s = .next (rewalk (leaveIdle ((l.images.foldl (fun s m => s.mapCore m.core fun c =>
      { c.putImage l m with l1 := [] }) s).mapLaunch l.id fun l =>
      { l with phase := .admitted, images := l.images.map Image.rest })) l.asid none)) ∧
  (∀ (c : Core) (m : Image) (q : Nat), q < 16 → q < c.queues.length → (nth [] c.queues q).length ≤ 16 →
    nth [] (enterImage c m).1.queues q = nth [] c.queues q ++ (nth [] m.queues q).take (16 - (nth [] c.queues q).length)) ∧
  (∀ (g : Group) (now n : Nat), (g.resumed now).stopped = false ∧ (g.resumed now).stopCause = none ∧
    (g.wait = .sleepLeft n → (g.resumed now).wait = .sleep (now + n)) ∧
    (∀ h, g.handler = some h → h.wait = .sleepLeft n → (g.resumed now).handler = some { h with wait := .sleep (now + n) })) ∧
  (∀ (g : Group) (now t : Nat), (g.wait = .sleep t → (g.mapWaits (Wait.atStop now)).wait = .sleepLeft (t - now)) ∧
    ∀ h, g.handler = some h → h.wait = .sleep t →
      (g.mapWaits (Wait.atStop now)).handler = some { h with wait := .sleepLeft (t - now) })

/-- BRIDGE_MESSAGE_APPLY takes the oldest message of a die and applies it at the other. PUT_LANDING lands an outgoing
put after the earlier ones of its stream; one whose link is FOREIGN lands nowhere; an incoming one is performed at
its home when its window is exposed to the device, else discarded, counted and acknowledged, and once the other die
holds no older copy it is acknowledged and its receive counter moves (that moment is the model's reading: log 23).
PUT_ACK of a landed put that is first removes it and tells its sender. REMOTE_READ_ARRIVAL of sound bytes that a
window lets the device read, over a link that reaches the module, answers them; WINDOW_REGISTER_FETCH of a window
exposed to the device notes it and answers length, rights and mode; WINDOW_MODE_NOTIFY changes the mode of a
registration, drops its lines and acknowledges. (08 R304, 08 R305, 08 R318, 05 R192, 05 R193, 11 R371, 11 R373, 11 R374, 11 R375) -/
def Obligations.BridgeAndPeerTraffic : Prop :=
  (∀ s : State, let n := s.sel.die % 2
    ((s.die n).out = [] → exec .bridgeMessageApply s = .next s) ∧
    (∀ m ms, (s.die n).out = m :: ms →
      let t := (s.mapDie n fun d => { d with out := ms }).mapDie (1 - n) fun d =>
        { d with clock := if n = 0 then (m.c0, d.clock.2) else (d.clock.1, m.c1) }
      exec .bridgeMessageApply s = .next (receiveMsg t n m.kind))) ∧
  (∀ (s : State) (p : PutMsg), let i := s.sel.index
    s.puts[i]? = some p →
    let here := ∀ l, s.links[p.link]? = some l → l.state ≠ .foreign
    (∀ l, s.links[p.link]? = some l → l.state = .foreign → p.landed = false → exec .putLanding s = .next s) ∧
    (p.out = true → here → p.landed = false → (∀ q ∈ s.puts.take i, q.sameStream p = true → q.landed = true) →
      exec .putLanding s = .next (setPeerData { s with puts := setNth s.puts i { p with landed := true } } p.device p.window
        ((peerData s p.device p.window).putCells p.cells))) ∧
    (p.out = false → (∀ q ∈ s.puts.take i, q.sameStream p = false) →
      (∀ e, here → p.landed = false → exposure? s p.window = some e → (∀ c ∈ p.cells, e.allows p.device 1 c.1 1 = true) →
        let cells := p.cells.map fun c => (e.target + c.1, c.2)
        let t := { s with puts := setNth s.puts i { p with landed := true, acks := (byLine cells).length } }
        exec .putLanding s = .next ((byLine cells).foldl (fun s cs => writeIn s cs (.put p.id)) t)) ∧
      (here → p.landed = false → (∀ e, exposure? s p.window = some e → ∃ c ∈ p.cells, e.allows p.device 1 c.1 1 = false) →
        let drops := setNth s.windowDrops p.window (nth 0 s.windowDrops p.window + 1)
        exec .putLanding s = .next ({ s with puts := dropIx s.puts i, windowDrops := drops }.send
          (.putAck p.link p.device p.window))) ∧
      (∀ y, p.landed = true → p.acks = 0 → p.final = true →
        (s.bindings.find? fun y => y.device.isNone && y.window == p.window) = some y →
        exec .putLanding s = .next (({ s with puts := dropIx s.puts i }.mapCore y.core fun c =>
          c.addCounter y.ctr (BitVec.ofNat 64 p.n)).send (.putAck p.link p.device p.window))))) ∧
  (∀ (s : State) (p : PutMsg), s.puts[s.sel.index]? = some p → p.out = true → p.landed = true →
    (∀ q ∈ s.puts.take s.sel.index, q.sameStream p = false) →
    let t := { s with puts := dropIx s.puts s.sel.index }
    let u := match p.ref with | .engine c e n => applyAck t (.engine c e n) | _ => t
    exec .putAck s = .next (if p.final then sendDone u p.core p.device p.window p.n else u)) ∧
  (∀ (s : State) (e : Exposure), exposure? s s.sel.window = some e →
    e.allows s.sel.device 0 s.sel.offset s.sel.count = true → reachedBy s s.sel.link = true →
    let a := e.target + s.sel.offset
    rangeSound s a s.sel.count = true →
    exec .remoteReadArrival s = .next { touchRange s a s.sel.count with peerReply := some (s.dram.bytes a s.sel.count) }) ∧
  (∀ (s : State) (e : Exposure), exposure? s s.sel.window = some e → e.down = false → reachedBy s s.sel.link = true →
    e.mask.getLsbD (s.sel.device % 256) = true →
    let add := fun (x : Exposure) => if x.window = s.sel.window ∧ !x.registrants.contains s.sel.device then
      { x with registrants := x.registrants ++ [s.sel.device] } else x
    let reply := bytesOfNat 4 (e.length / 65536) ++ bytesOfNat 1 e.rights ++ bytesOfNat 1 e.fallBack.toNat ++ bytesOfNat 2 0
    exec .windowRegisterFetch s = .next { s with exposures := s.exposures.map add, peerReply := some reply }) ∧
  (∀ s : State, let mine := fun (dev w : Nat) => dev == s.sel.device && w == s.sel.window
    let t := { s with registrations := s.registrations.map (modeTo s.sel.device s.sel.window s.sel.flag) }
    (reachedBy s s.sel.link = true → exec .windowModeNotify s = .next (((t.mapDie 0 fun d => d.rdcDropPeers mine).mapDie 1 fun d =>
      d.rdcDropPeers mine).send (.modeAck s.sel.device s.sel.window))) ∧
    (reachedBy s s.sel.link = false → exec .windowModeNotify s = .next s))

/-- LINK_GOES_DOWN of a working link takes it down with what was in flight on it (which of it is delivered is open: log
66) and reports it; LINK_UP of one with four lanes at least trains it: it is FOREIGN where the keys of its ends
differ, and what was in flight on it goes; after this module's FABRIC_RESET the partition is up again with the link
by which every module has reset (log 79, the model's reading). A DOWN flit on a link that works, or a lasting header
error, also while the partition is down, sends DOWN on, takes exposures and registrations down and ends what is on
the fabric. A flit that fails for good has its lane fenced; its data are discarded and the launch it names is
aborted (its incident is the model's reading: log 37). A bridge message that fails for good fences a lane group, and
the module fails where no other group carries it or more than 8 are fenced over both directions (log 47, the model's
reading). HOST_PORT_DOWN and HOST_PORT_UP change their port. An error whose retry succeeds is counted and reported;
a lasting one poisons a line and retires its page, drops a clean copy and fences its way, poisons a dirty L2 line
and fences the way, takes a core with its gangs (its dirty L1 words but the struck one go home: log 94, the model's
reading), fences the strip of a service request with its location poisoned, or poisons a KV page. (10 R363, 10 R365, 10 R366, 11 R371, 11 R372, 11 R376, 11 R377, 11 R379) -/
def Obligations.LinkAndErrorEvents : Prop :=
  (∀ (s : State) (l : Link), let n := s.sel.link
    s.links[n]? = some l →
    (l.state ≠ .down → exec .linkGoesDown s = .next (loseDevices (loseFlits (postLink
      (setLink s n fun l => { l with state := .down }) n) n))) ∧
    (l.state = .down → exec .linkGoesDown s = .next s) ∧
    (4 ≤ l.lanes → s.power ≠ .standby →
      let l := { l with key := s.sel.value }
      let st : LinkState := if s.sel.value ≠ s.partitionKey then .foreign else if l.lanes < 8 then .degraded else .up
      let t : State := if s.fabricReset = true ∧ s.sel.flag = true ∧ st ≠ .foreign then
        { s with fabricDown := false, fabricReset := false } else s
      exec .linkUp s = .next (loseDevices (postLink (setLink (if st = .foreign then loseForeign t n else t) n fun _ =>
        { l with state := st }) n)))) ∧
  (∀ s : State, let down := fun (s : State) =>
      let t := sendDown s
      let u : State := { t with fabricDown := true, fabricReset := false, exposures := t.exposures.map fun e => { e with down := true }, registrations := t.registrations.map fun r => { r with down := true } }
      let v := loseDevices { u with puts := u.puts.filter fun p => p.out || p.landed, rowsOut := u.rowsOut.filter fun m => m.link.isNone, returns := u.returns.filter fun m => m.link.isNone }
      (u.launches.filter fun l => l.admitted && onFabric u l).foldl (fun s l => abortLaunch s l.id .fabricDown (0, 0xFFFF, 0)) v
    (carries s s.sel.link = true → exec .downFlitReceive s = .next (down s)) ∧
    (carries s s.sel.link = false → exec .downFlitReceive s = .next s) ∧
    (s.sel.link < 18 →
      (s.sel.failure = .transient → exec .flitCheckFail s = .next
        (transientError (setLink s s.sel.link fun l => { l with transient := l.transient + 1#16 }) 6 (8 * s.sel.link) 0)) ∧
      (s.sel.failure = .header → carries s s.sel.link = true → exec .flitCheckFail s = .next (down (fenceLane s s.sel.link))) ∧
      (s.sel.failure = .header → carries s s.sel.link = false → exec .flitCheckFail s = .next s) ∧
      (∀ launch, s.sel.failure = .payload launch → let t := dropFlit (fenceLane s s.sel.link) s.sel.link s.sel.count s.sel.index
        (launch = none → exec .flitCheckFail s = .next t) ∧
        (∀ id l, launch = some id → t.launch? id = some l → l.admitted = true →
          exec .flitCheckFail s = .next (abortLaunch t id .fabricPayload (0, 0xFFFF, 0)))))) ∧
  (∀ (s : State) (n : Nat) (l : Link), s.links[n]? = some l →
    let u := 8 * n + (l.lanes - 1)
    let e := lastingError s 6 u 0
    let t := setLink { e with fencedUnits := e.fencedUnits ++ [(6, u, 0)] } n fun l => { l with lanes := l.lanes - 1 }
    (l.lanes ≤ 4 → fenceLane s n = linkDown t n) ∧
    (5 ≤ l.lanes → (l.state = .up ∨ l.state = .degraded) →
      fenceLane s n = postLink (setLink t n fun l => { l with state := .degraded }) n)) ∧
  (∀ s : State,
    (s.sel.failure = .transient → exec .bridgeMessageFail s = .next (transientError s 7 (s.sel.index % 64) 0)) ∧
    (s.sel.failure ≠ .transient → s.failed = false →
      let e := lastingError s 7 (s.sel.index % 64) 0
      let t : State := { e with fencedUnits := e.fencedUnits ++ [(7, s.sel.index % 64, 0)], bridgeFenced := setNth e.bridgeFenced (s.sel.die % 2) (nth 0 e.bridgeFenced (s.sel.die % 2) + 1) }
      let f : State := { t with failed := true }
      (s.sel.flag = true → t.bridgeFenced.foldl (· + ·) 0 ≤ 8 → exec .bridgeMessageFail s = .next t) ∧
      ((s.sel.flag = false ∨ 8 < t.bridgeFenced.foldl (· + ·) 0) → exec .bridgeMessageFail s = .next
        ((f.launches.filter Launch.admitted).foldl (fun s l => abortLaunch s l.id .bridgeFailed (0, 0xFFFF, 0)) f)))) ∧
  (∀ s : State, let t := s.mapPort (s.sel.port % 2) fun p => { p with up := false }
    exec .hostPortDown s = .next (if hostDown t then parkHost t else t) ∧
    exec .hostPortUp s = .next (s.mapPort (s.sel.port % 2) fun p => { p with up := true })) ∧
  (∀ s : State,
    (∀ dpa, s.sel.site = .memLine dpa → s.installed dpa = true →
      (s.sel.flag = true → exec .errorRetry s = .next (transientError s 0 (dpa / 2 ^ 21) (lineOf dpa))) ∧
      (s.sel.flag = false → ∃ t, exec .errorRetry s = .next t ∧ t.poisonedAt dpa = true ∧ dpa / 2 ^ 21 ∈ t.retired)) ∧
    (∀ core i l, s.sel.site = .l1Line core i → (s.core core).l1[i]? = some l → l.valid &&& ~~~l.ownWords ≠ 0#32 →
      let t := s.mapCore core fun c => dropL1 c l
      (s.sel.flag = true → exec .errorRetry s = .next (transientError t 1 core l.dpa)) ∧
      (s.sel.flag = false → exec .errorRetry s = .next
        (loseBelow (fenceWay (lastingError t 1 core l.dpa) 1 core (l1Set l.va)) l.dpa s.sel))) ∧
    (∀ die i l, s.sel.site = .l2Line die i → (s.die die).l2[i]? = some l →
      let e := lastingError (s.mapDie die fun d => { d with l2 := dropIx d.l2 i }) 2 (l.strip + 16 * die) l.dpa
      let t := fenceWay e 2 (l.strip + 16 * die) l.set
      (s.sel.flag = true → exec .errorRetry s = .next (transientError s 2 (l.strip + 16 * die) l.dpa)) ∧
      (s.sel.flag = false → exec .errorRetry s = .next (if l.dirty then
          parkReader (poisonLine t l.dpa) l.dpa s.sel.core s.sel.slot s.sel.id s.sel.part
        else loseLine t l.dpa s.sel))) ∧
    (∀ core, s.sel.site = .coreState core → core < 512 → s.fenced.contains core = false →
      (s.sel.flag = true → exec .errorRetry s = .next (transientError s 4 core 0)) ∧
      (s.sel.flag = false → exec .errorRetry s = .next
        (loseCore (noteFence (lastingError s 4 core 0) 4 core 0) core fun _ => 0#128))) ∧
    (∀ core i w l, s.sel.site = .dirtyWord core i w → (s.core core).l1[i]? = some l → s.fenced.contains core = false →
      l.dirty &&& wordBytes (1#32 <<< w) ≠ 0#128 →
      (s.sel.flag = true → exec .errorRetry s = .next (transientError s 4 core 0)) ∧
      (s.sel.flag = false → exec .errorRetry s = .next
        (loseCore (noteFence (lastingError s 4 core 0) 4 core 0) core fun y =>
          if y.asid = l.asid ∧ y.va = l.va then wordBytes (1#32 <<< w) else 0#128))) ∧
    (∀ core i w l, s.sel.site = .dirtyWord core i w → (s.core core).l1[i]? = some l →
      l.dirty &&& wordBytes (1#32 <<< w) = 0#128 → exec .errorRetry s = .next s) ∧
    (∀ core slot id part, s.sel.site = .service core slot id part → exec .errorRetry s = .next
      (if s.sel.flag then retryRequest s (.part core slot id part) else loseRequest s core slot id part s.sel.index)) ∧
    (∀ die i r, s.sel.site = .request die i → (s.die die).svc[i]? = some r → s.sel.flag = false →
      (∀ k, r.ref = .cred k → exec .errorRetry s = .next ((dequeue (fenceStrip s k.dpa) k.dpa r.ref).mapCmd k.core .copy k.id
        fun c => { c with acks := 0, progress := c.progress - 1, fault := some (c.trap .uncorrectable) })) ∧
      (∀ a aop size data, r.ref = .peer a aop size data → exec .errorRetry s = .next
        { dequeue (fenceStrip s a) a r.ref with peerReply := none })) ∧
    (∀ a, (fenceStrip s a).poisonedAt a = true ∧ (5, stripUnit a, 0) ∈ (fenceStrip s a).fencedWays) ∧
    (∀ ctx seq head page k e, s.sel.site = .kvPage ctx seq head page → s.kv? ctx = some k → k.entry? seq head page = some e →
      s.sel.flag = false → ∃ t, exec .errorRetry s = .next t ∧ Config.kvDpa ctx seq head page e.frame / 2 ^ 21 ∈ t.retired ∧
        t.kv? ctx = some (k.poison seq head page)))

/-- REGISTER_WRITE, SLOT_DONE_CLEAR and EVR_BASE_WRITE act on their port; an aligned write of 4 or 8 bytes sets the
registers of Table 11.10 as it says (slots that are not busy, SLOT_DONE by ones, vectors, ring base, tail, lost
count, MSI-X table), and any other writes nothing. APERTURE_WRITE and APERTURE_READ of bytes in the aperture reach
the bonded memory at its base plus the offset, the write line by line with an acknowledgement for each (log 23, the
model's reading). POWER_DUTY_UPDATE sets the duty value, 48 at most. IDLE_ENTRY after 600,000 cycles with no
admitted launch makes an ACTIVE module IDLE. A sensor that comes to its throttle, halt or shutdown limit raises the
duty, halts admission and pre-empts every admitted launch, or takes power away; one that stays above its throttle
limit gives its new reading; BACK_BELOW_THROTTLE takes the level back (what the firmware does waits while a command
is under way), and THERMAL_RECOVER ends the halt once every sensor is 5 °C below its throttle limit. RESET_PIN is a
cold reset. A doorbell of a free slot of a port makes it busy, and the record in it runs with no command under way,
else waits (during a WINDOW_MODE by the model's reading: log 45); a slot in use, or bits above 3, ring nothing. (11 R379, 11 R381, 11 R382, 11 R383, 11 R388, 11 R394, 11 R395, 11 R396) -/
def Obligations.HostPortAndPowerEvents : Prop :=
  (∀ s : State, let port := s.sel.port % 2
    exec .registerWrite s = .next (sendPending (s.mapPort port fun p => p.write s.sel.offset s.sel.count s.sel.value) port) ∧
    exec .slotDoneClear s = .next (s.mapPort port fun p =>
      { p with slotDone := p.slotDone &&& ~~~((lowWord s.sel.value).extractLsb' 0 16) }) ∧
    exec .evrBaseWrite s = .next (s.mapPort port fun p =>
      if s.sel.value.extractLsb' 0 17 ≠ 0#17 then p else { p with evrBase := s.sel.value, evrHead := 0, evrTail := 0, evrLost := 0#32 }) ∧
    (s.modeChange = none → exec .powerDutyUpdate s = .next { s with duty := min 48 s.sel.count }) ∧
    (s.modeChange ≠ none → exec .powerDutyUpdate s = .next s) ∧
    exec .resetPin s = .next (coldReset s)) ∧
  (∀ (s : State) (a : Nat), apertureAt s s.sel.offset s.sel.bytes.length = some a →
    let cells := s.sel.bytes.mapIdx fun i b => (a + i, b)
    exec .apertureWrite s = .next ((byLine cells).foldl (fun s cs => writeIn s cs .host)
      { s with hostAcks := s.hostAcks + (byLine cells).length })) ∧
  (∀ (s : State) (a : Nat), apertureAt s s.sel.offset s.sel.count = some a → rangeSound s a s.sel.count = true →
    exec .apertureRead s = .next { touchRange s a s.sel.count with apertureData := some (s.dram.bytes a s.sel.count) }) ∧
  (∀ (s : State) (b n : Nat), s.aperture = some b → 0 < n → s.sel.offset + n ≤ 2 ^ 36 → s.installed (b + s.sel.offset) = true →
    s.installed (b + s.sel.offset + n - 1) = true → apertureAt s s.sel.offset n = some (b + s.sel.offset)) ∧
  (∀ s : State, s.power = .active → admittedCount s = 0 → s.idleSince + 600000 ≤ s.cycle →
    exec .idleEntry s = .next { s with power := .idle }) ∧
  (∀ s : State, s.sel.sensor < 52 →
    let n := s.sel.sensor
    let r := s.sel.value.extractLsb' 0 16
    let limit : Int := if n < 40 then 760 else 680
    let level := nth 0 s.sensorLevel n
    let put := fun (t : State) (k : Nat) => postThermal
      { t with sensors := setNth t.sensors n r, sensorLevel := setNth t.sensorLevel n k } n k r
    let hot := { s with duty := min 48 (max (s.duty + 1) s.sel.count) }
    let free := s.modeChange = none
    (free → level = 0 → limit ≤ r.toInt → exec .thermalThrottle s = .next (put hot 1)) ∧
    (free → 1 ≤ level → limit ≤ r.toInt → (2 ≤ level ∨ r.toInt < limit + 80) → r.toInt < limit + 160 →
      exec .thermalThrottle s = .next { hot with sensors := setNth s.sensors n r }) ∧
    (free → level < 2 → limit + 80 ≤ r.toInt → exec .thermalHalt s = .next (put { s with
      halted := true
      launches := s.launches.map fun l => if l.phase = .admitted then { l with phase := .stopping true } else l } 2)) ∧
    (level < 3 → limit + 160 ≤ r.toInt → exec .thermalShutdown s = .next { put s 3 with power := .off }) ∧
    (free → level ≠ 0 → r.toInt < limit → exec .backBelowThrottle s = .next (put s 0))) ∧
  (∀ s : State, s.halted = true → s.modeChange = none →
    (∀ n, n < 52 → (nth 0#16 s.sensors n).toInt ≤ (if n < 40 then 760 else 680) - 40) →
    exec .thermalRecover s = .next { s with halted := false }) ∧
  (∀ (s : State) (port : Nat), s.power ≠ .off → port < 2 → s.sel.master = port + 1 →
    let v := lowWord s.sel.value
    let n := (v.extractLsb' 0 4).toNat
    let t := s.mapPort port fun p => { p with slotBusy := p.slotBusy ||| (1#16 <<< n) }
    (v.extractLsb' 4 28 = 0#28 → (s.port port).slotBusy.getLsbD n = false →
      (s.modeChange ≠ none → exec .doorbell s =
        .next { t with rung := s.rung ++ [{ master := port + 1, slot := n, pick := s.sel.pick }] }) ∧
      (s.modeChange = none → s.rung = [] →
        let u := runSlot t { master := port + 1, slot := n, pick := s.sel.pick }
        (u.modeChange ≠ none ∨ u.rung = []) → exec .doorbell s = .next u)) ∧
    ((v.extractLsb' 4 28 ≠ 0#28 ∨ (s.port port).slotBusy.getLsbD n = true) → s.rung = [] → exec .doorbell s = .next s)) ∧
  (∀ (p : HostPort) (o n : Nat) (v : DWord), let w := lowWord v
    ((n ≠ 4 ∧ n ≠ 8) ∨ o % n ≠ 0 → p.write o n v = p) ∧
    ((n = 4 ∨ n = 8) → o % n = 0 →
      (o < 0x10000 → p.write o n v = if p.slotBusy.getLsbD (o / 4096) then p else
        { p with slots := p.slots.put o (bytesOfNat n v.toNat) }) ∧
      (0x30000 ≤ o → o < 0x30400 → p.write o n v =
        { p with msix := p.msix.put (o - 0x30000) (msixBytes o (bytesOfNat n v.toNat)) })) ∧
    p.write 0x1000C 4 v = { p with slotDone := p.slotDone &&& ~~~(w.extractLsb' 0 16) } ∧
    p.write 0x10010 4 v = { p with doneVector := w &&& 0x8000003F#32 } ∧
    p.write 0x20000 8 v = (if v.extractLsb' 0 17 ≠ 0#17 then p else
      { p with evrBase := v, evrHead := 0, evrTail := 0, evrLost := 0#32 }) ∧
    p.write 0x20000 4 v = p.write 0x20000 8 (highWord p.evrBase ++ w) ∧
    p.write 0x20004 4 v = p.write 0x20000 8 (w ++ lowWord p.evrBase) ∧
    p.write 0x2000C 4 v = { p with evrTail := w.toNat % 4096 } ∧
    p.write 0x20010 4 v = { p with evrCtl := w &&& 0x8000003F#32 } ∧
    p.write 0x20014 4 v = { p with evrLost := w } ∧
    (0x10000 ≤ o → (o < 0x30000 ∨ 0x30400 ≤ o) →
      (o ∉ [0x1000C, 0x10010, 0x20000, 0x20004, 0x2000C, 0x20010, 0x20014] → p.write o 4 v = p) ∧
      (o % 8 = 0 → o ≠ 0x20000 →
        p.write o 8 v = (p.write o 4 v).write (o + 4) 4 ((highWord v).setWidth 64)))) ∧
  (∀ (o i : Nat) (bs : List Byte) (b : Byte), bs[i]? = some b →
    (msixBytes o bs)[i]? = some (if (o + i) % 16 = 12 then b &&& 1#8 else if 12 < (o + i) % 16 then 0#8 else b))

/-- Taken by the firmware: QUERY answers its page; LAUNCH of a record that passes every check queues a launch with a
fresh id; KILL of a queued launch reports it KILLED, of a saved one ends its blocks with their choices and gives
back the pages of its requantisations, of any other aborts it (with incident 0, 0xFFFF, 0: log 37, the model's
reading); PREEMPT of an admitted launch stops it; RESUME of a saved launch lets it be restored; PAGE_RESOLVE drops
the page's outstanding record on both dies and walks it again; PAGE_REFUSE parks what awaits the page; PT_INVALIDATE
is a walk fence of its address space (0 is none: log 45, the model's reading). Each answers status 0 to its master. (11 R383, 11 R386, 09 R321, 09 R323, 10 R354, 10 R356, 10 R359) -/
def Obligations.LaunchAndPageCommands : Prop :=
  ∀ s : State, let p := s.sel.bytes
    (∀ bs, Accepts s 0x01 p → queryPage s (field p 0 4) (field p 4 4) = .ok bs →
      exec .query s = .next (answered s s 0#8 bs)) ∧
    (∀ id, Accepts s 0x02 p → zeros p 0x202 6 = true → field p 0x200 1 ≤ 3 → field p 0x201 1 ≠ 0 →
      launchRefusal s (p.take 512) (field p 0x200 1) = none →
      freshId (s.launches.map fun l => l.id) s.sel.pick = some id →
      ∃ l, exec .launch s = .next (answered s { touchRegions s (readRecord (p.take 512)).regionTable with
        launches := s.launches ++ [l], launchSeq := s.launchSeq + 1 } 0#8 (bytesOfNat 2 id ++ [0#8, 0#8])) ∧ l.id = id ∧ l.rec_ = readRecord (p.take 512) ∧ l.phase = .queued ∧
        l.partition = field p 0x200 1 ∧ l.asid = field p 0x201 1 ∧ l.placed = 0 ∧ l.ended = 0) ∧
    (∀ l, Accepts s 0x03 p → zeros p 2 2 = true → s.launch? (field p 0 2) = some l →
      (l.phase = .queued → exec .kill s = .next (answered s (reportLaunch s { l with status := some .killed }) 0#8 [])) ∧
      (l.phase ≠ .queued → (∀ b, l.phase ≠ .saved b) → exec .kill s = .next (answered s
        ((dropLaunchClauses (abortLaunch (dropSaved s l) (field p 0 2) .killed (0, 0xFFFF, 0)) (field p 0 2)).mapLaunch (field p 0 2)
          fun l => { l with phase := .admitted, images := [] }) 0#8 [])) ∧
      (∀ b, l.phase = .saved b → exec .kill s = .next (answered s
        ((l.images.foldl (fun s m => m.blocks.foldl (fun s b => loseDest s m.core l.id b.index) s) (dropSaved s l)).mapLaunch (field p 0 2) fun l =>
          { l with phase := .saved false, images := [], ended := l.placed, status := if l.aborted then l.status else some .killed }) 0#8 []))) ∧
    (∀ l, Accepts s 0x04 p → zeros p 2 2 = true → s.launch? (field p 0 2) = some l → l.phase = .admitted →
      exec .preempt s = .next (answered s (s.mapLaunch (field p 0 2) fun l => { l with phase := .stopping false }) 0#8 [])) ∧
    (∀ l b, Accepts s 0x05 p → zeros p 2 2 = true → s.launch? (field p 0 2) = some l → l.phase = .saved b →
      exec .resume s = .next (answered s (s.mapLaunch (field p 0 2) fun l => { l with phase := .saved true }) 0#8 [])) ∧
    (zeros p 2 2 = true → field p 0 1 ≠ 0 → field p 1 1 ≤ 31 →
      (Accepts s 0x08 p → exec .pageResolve s = .next (answered s
        (resolvePage (answerPage s (field p 0 1) (field p 1 1) (field p 4 4)) (field p 0 1) (field p 1 1) (field p 4 4)) 0#8 [])) ∧
      (Accepts s 0x09 p → exec .pageRefuse s = .next (answered s
        (refusePage s (field p 0 1) (field p 1 1) (field p 4 4)) 0#8 []))) ∧
    (Accepts s 0x0A p → zeros p 1 3 = true → field p 0 1 ≠ 0 →
      exec .ptInvalidate s = .next (answered s (walkFence s (field p 0 1)) 0#8 []))

/-- Taken by the firmware and in order: KV_CREATE adds a context with the fields of its payload, its 16 windows IDLE, no
page mapped, every length 0 and all committed state +0; KV_DESTROY removes one that no launch names, KV_POOL sets
its pool; ROUTE_CREATE adds a table, ROUTE_SET sets its destinations, ROUTE_DESTROY removes it; WINDOW_EXPOSE
exposes a window (one that is exposed is not free, and commands go in order: log 45, the model's reading),
WINDOW_REGISTER registers a peer's, WINDOW_MODE sets its mode, sends it to every registrant that can be reached (log
72, the model's choice) and answers once each has acknowledged, and WINDOW_REMOVE removes it; PARTITION_SET,
FABRIC_CONFIG (with an id of no reachable module: log 71), FABRIC_RESET and APERTURE_SET set what they name. Each
answers status 0. (07 R269, 07 R292, 11 R370, 11 R371, 11 R373, 11 R375, 11 R377, 11 R379, 11 R390) -/
def Obligations.ObjectCommands : Prop :=
  ∀ s : State, let p := s.sel.bytes
    (∀ id, Accepts s 0x10 p → zeros p 0x13 1 = true → kvLimits p = true → freshId (s.kvs.map fun k => k.id) s.sel.pick = some id →
      ∃ k, exec .kvCreate s = .next (answered s { s with kvs := s.kvs ++ [k] } 0#8 (bytesOfNat 2 id ++ [0#8, 0#8])) ∧
        k.id = id ∧ k.nseq = field p 0 4 ∧ k.nhead = field p 4 2 ∧ k.headDim = field p 6 2 ∧ k.capacity = field p 8 4 ∧
        k.defaultEnc = BitVec.ofNat 11 (field p 0x0C 2) ∧ k.nstate = field p 0x0E 2 ∧ k.stateElems = field p 0x10 2 ∧
        k.draftStates = field p 0x12 1 ∧ k.pool = field p 0x14 4 ∧ k.entries = [] ∧ k.held = 0 ∧ k.requants = [] ∧ k.returns = [] ∧
        (∀ seq, k.len seq = 0 ∧ k.held? seq = false) ∧ (∀ ix, k.committed.get ix = 0#32) ∧ k.windows.length = 16 ∧
        ∀ w, (k.window w).open_ = false ∧ (k.window w).records = []) ∧
    (Accepts s 0x11 p → zeros p 2 2 = true → (∃ k ∈ s.kvs, k.id = field p 0 2) →
      named s (fun r => r.kvContext == field p 0 2) = false →
      exec .kvDestroy s = .next (answered s { s with kvs := s.kvs.filter fun k => k.id ≠ field p 0 2 } 0#8 [])) ∧
    (∀ k, Accepts s 0x12 p → zeros p 2 2 = true → field p 4 4 ≠ 0 → s.kv? (field p 0 2) = some k →
      k.entries.length + k.held ≤ field p 4 4 →
      exec .kvPool s = .next (answered s (s.mapKv (field p 0 2) fun k => { k with pool := field p 4 4 }) 0#8 [])) ∧
    (∀ id, Accepts s 0x18 p → zeros p 1 3 = true → field p 0 1 ≤ 1 → field p 4 4 ≠ 0 →
      freshId (s.routes.map fun t => t.id) s.sel.pick = some id →
      exec .routeCreate s = .next (answered s { s with routes := s.routes ++
        [{ id := id, next := field p 0 1 == 1, timeout := field p 4 4, dests := [] }] } 0#8 (bytesOfNat 2 id ++ [0#8, 0#8]))) ∧
    (∀ t ds, Accepts s 0x19 p → 1 ≤ field p 4 4 → field p 4 4 ≤ 253 → p.length = 8 + 16 * field p 4 4 → zeros p 2 2 = true →
      (s.routes.find? fun t => t.id == field p 0 2) = some t → setDests p (field p 4 4) 8 t.dests = .ok ds →
      exec .routeSet s = .next (answered s (s.mapRoute (field p 0 2) fun t => { t with dests := ds }) 0#8 [])) ∧
    (Accepts s 0x1A p → zeros p 2 2 = true → (∃ t ∈ s.routes, t.id = field p 0 2) →
      named s (fun r => r.routeTable == field p 0 2) = false →
      exec .routeDestroy s = .next (answered s { s with routes := s.routes.filter fun t => t.id ≠ field p 0 2 } 0#8 [])) ∧
    (Accepts s 0x20 p → zeros p 2 2 = true → field p 0 1 ≤ 63 → field p 1 1 ≤ 7 → 1 ≤ field p 4 4 → field p 4 4 ≤ 65536 →
      field p 8 8 % 65536 = 0 → rangeInstalled s (field p 8 8) (65536 * field p 4 4) = true → s.fabricDown = false →
      (∀ e ∈ s.exposures, e.window = field p 0 1 → e.down = true) →
      exec .windowExpose s = .next (answered s { s with exposures := (s.exposures.filter fun e => e.window ≠ field p 0 1) ++
        [{ window := field p 0 1, target := field p 8 8, length := 65536 * field p 4 4, rights := field p 1 1,
           mask := BitVec.ofNat 256 (field p 0x10 32), fallBack := false, down := false, registrants := [] }] }
        0#8 [])) ∧
    (∀ x, Accepts s 0x21 p → zeros p 2 2 = true → field p 1 1 ≤ 63 → unreachable s (field p 0 1) = false →
      (s.peers.find? fun x => x.device == field p 0 1 && x.window == field p 1 1) = some x →
      exec .windowRegister s = .next (answered s { s with registrations :=
        (s.registrations.filter fun q => q.device ≠ field p 0 1 ∨ q.window ≠ field p 1 1) ++
          [{ device := field p 0 1, window := field p 1 1, length := x.length, rights := x.rights, fallBack := x.fallBack,
             down := false }] } 0#8
        (bytesOfNat 4 (x.length / 65536) ++ bytesOfNat 1 x.rights ++ bytesOfNat 1 x.fallBack.toNat ++ bytesOfNat 2 0))) ∧
    (Accepts s 0x22 p → zeros p 2 2 = true → field p 0 1 ≤ 63 → field p 1 1 ≤ 1 →
      (∃ e ∈ s.exposures, e.window = field p 0 1) →
      let w := field p 0 1
      let t := s.mapExposure w fun e => { e with fallBack := field p 1 1 == 1 }
      (registrantsOf s w = [] → exec .windowMode s = .next (answered s t 0#8 [])) ∧
      (registrantsOf s w ≠ [] → exec .windowMode s = .next
        { (registrantsOf s w).foldl (fun s d => s.send (.windowMode d w (field p 1 1 == 1))) t with
          modeChange := some { window := w, awaiting := registrantsOf s w, master := s.sel.master, slot := none } })) ∧
    (∀ c, s.modeChange = some c →
      (∀ d w, (receiveModeAck s d w).modeChange = some (if c.window = w then { c with awaiting := c.awaiting.filter fun x => x ≠ d } else c)) ∧
      (c.awaiting = [] → c.slot = none → s.rung = [] → settleRom s =
        { s with modeChange := none, response := some { master := c.master, status := 0#8, payload := [] } })) ∧
    (Accepts s 0x23 p → zeros p 3 1 = true → field p 2 1 ≤ 63 →
      (field p 0 1 = 0 → field p 1 1 = 0 → (∃ e ∈ s.exposures, e.window = field p 2 1) → exec .windowRemove s = .next
        (answered s { s with exposures := s.exposures.filter fun e => e.window ≠ field p 2 1 } 0#8 [])) ∧
      (field p 0 1 = 1 → (∃ r ∈ s.registrations, r.device = field p 1 1 ∧ r.window = field p 2 1) →
        let rest := s.registrations.filter fun r => r.device ≠ field p 1 1 ∨ r.window ≠ field p 2 1
        exec .windowRemove s = .next (answered s { s with registrations := rest } 0#8 []))) ∧
    (Accepts s 0x28 p → (∀ b ∈ p, b.toNat ≤ 3) → (∀ l ∈ s.launches, launchState l = 2) →
      exec .partitionSet s = .next (answered s { s with partitions := p.map fun b => b.toNat } 0#8 [])) ∧
    (∀ maps, maps = ((List.range 256).map fun d => (mapEntry p d).filter fun n => n != 255) →
      Accepts s 0x29 p → zeros p 1 7 = true → (∀ d, d < 256 → ∀ n ∈ mapEntry p d, n ≤ 17 ∨ n = 255) →
      (field p 0 1 = s.device.toNat ∨ unreachable s (field p 0 1) = true) →
      exec .fabricConfig s = .next (answered s (loseDevices (rekeyLinks { s with
        device := BitVec.ofNat 8 (field p 0 1), partitionKey := BitVec.ofNat 64 (field p 8 8),
        routeMap := maps })) 0#8 [])) ∧
    (Accepts s 0x2A p → exec .fabricReset s = .next (answered s
      (if s.fabricDown then (List.range 18).foldl linkDown { s with fabricReset := true } else s) 0#8 [])) ∧
    (Accepts s 0x2B p →
      (field p 0 8 = 2 ^ 64 - 1 → exec .apertureSet s = .next (answered s { s with aperture := none } 0#8 [])) ∧
      (field p 0 8 % 2 ^ 36 = 0 → field p 0 8 < 2 ^ 47 →
        exec .apertureSet s = .next (answered s { s with aperture := some (field p 0 8) } 0#8 [])))

/-- Taken by the firmware: OWNER_CLAIM of an unowned module makes the master its owner, OWNER_HANDOVER offers it (to the
debug port too: log 75, the model's reading), OWNER_ACCEPT by the master offered takes it, OWNER_RELEASE leaves it
unowned; each change of owner is counted. The debug port is refused both: its fuse is clear. An SPDM message,
whatever its code, is answered with status 0 and counted, and joins its requester's transcript, chunks apart no
other state changing; KEY_EXCHANGE gets UnsupportedRequest, GET_DIGESTS the digests of both chains (in the layouts
of log 11). PATCH_LOAD of an unlocked module stages its chunk, and with FLAGS 1 puts a table, as long as its last
chunk reaches (log 46, the model's reading), that is signed, new enough and of at most 64 entries in force. RESET
.warm is a warm reset, .cold a cold reset once its answer is given. POWER_SET ACTIVE makes the module ACTIVE, and
STANDBY brings every link down, with the cap it names. (11 R389, 11 R391, 11 R393, 11 R394, 11 R395) -/
def Obligations.OwnerSecurityAndPowerCommands : Prop :=
  ∀ s : State, let p := s.sel.bytes
    let m := s.sel.master
    let owns := fun (o offer : Option Nat) =>
      { s with owner := o, offer := offer, ownerChanges := s.ownerChanges + (if s.owner = o then 0 else 1) }
    (Accepts s 0x30 p → s.owner = none → m ≠ 3 →
      exec .ownerClaim s = .next (answered s (owns (some m) s.offer) 0#8 [])) ∧
    (Accepts s 0x31 p → zeros p 1 3 = true → field p 0 1 ≤ 3 →
      exec .ownerHandover s = .next (answered s { s with offer := some (field p 0 1) } 0#8 [])) ∧
    (Accepts s 0x32 p → s.offer = some m → m ≠ 3 → exec .ownerAccept s = .next (answered s (owns (some m) none) 0#8 [])) ∧
    (m = 3 → (Accepts s 0x30 p → exec .ownerClaim s = .next (answered s s 0x08#8 [])) ∧
      (Accepts s 0x32 p → exec .ownerAccept s = .next (answered s s 0x08#8 []))) ∧
    (Accepts s 0x33 p → exec .ownerRelease s = .next (answered s (owns none none) 0#8 [])) ∧
    (∀ i q, (i = .spdm ∧ q = p ∨ ∃ c, spdmForm i = some c ∧ q = spdmRequest c p) → Accepts s 0x38 q →
      (∃ bs large logs, exec i s = .next (answered s
        { s with spdmCount := s.spdmCount + 1, spdmLarge := large, spdmLogs := logs } 0#8 bs)) ∧
      (field q 1 1 ≠ 0x85 → field q 1 1 ≠ 0x86 → (spdmMessage s m q).length ≤ 4064 →
        exec i s = .next (answered s { s.spdmNote m q (spdmMessage s m q) with spdmCount := s.spdmCount + 1 } 0#8
          (spdmMessage s m q)))) ∧
    (∀ q, (field q 1 1 = 0xE4 → spdmMessage s m q = [0x13#8, 0x7F#8, 0x07#8, 0xE4#8]) ∧
      (field q 1 1 = 0x81 → spdmMessage s m q = [0x13#8, 0x01#8, 3#8, 3#8] ++ sha384 (Config.certChain 0) ++ sha384 (Config.certChain 1))) ∧
    (Accepts s 0x39 p → field p 4 4 = 0 → s.owner = none → s.launchRun = false → s.patch = none →
      field p 0 4 + (p.drop 8).length ≤ 262144 → exec .patchLoad s = .next
        (answered s { s with patchStage := s.patchStage.put (field p 0 4) (p.drop 8) } 0#8 [])) ∧
    (Accepts s 0x39 p → field p 4 4 = 1 → s.owner = none → s.launchRun = false → s.patch = none →
      field p 0 4 + (p.drop 8).length ≤ 262144 → let stage := s.patchStage.put (field p 0 4) (p.drop 8)
      let t := stage.bytes 0 (field p 0 4 + (p.drop 8).length)
      Config.patchSigned t = true → Config.rollbackFloor ≤ Config.patchVersion t → Config.patchEntries t ≤ 64 →
      exec .patchLoad s = .next (answered s { s with patchStage := stage, patch := some t } 0#8 [])) ∧
    (Accepts s 0x40 [0#8, 0#8, 0#8, 0#8] → exec .resetWarm s = .next (answered s (warmReset s) 0#8 [])) ∧
    (Accepts s 0x40 [1#8, 0#8, 0#8, 0#8] → exec .resetCold s = .next (coldReset (answered s s 0#8 []))) ∧
    (∀ cap, s.sel.count = cap → (cap = 0 ∨ (600 ≤ cap ∧ cap ≤ 1500 ∧ cap % 25 = 0)) →
      let t := { s with cap := if cap = 0 then s.cap else cap }
      (Accepts s 0x41 ([0#8, 0#8] ++ bytesOfNat 2 cap) → exec .powerSetActive s = .next (answered s
        { t with power := .active, idleSince := if s.power = .active then s.idleSince else s.cycle } 0#8 [])) ∧
      (Accepts s 0x41 ([2#8, 0#8] ++ bytesOfNat 2 cap) → standbyBusy s = false → exec .powerSetStandby s = .next (answered s
        { (List.range 18).foldl linkDown t with power := .standby } 0#8 [])))

/-- For every command: an unknown code or a wrong LENGTH is answered BAD_COMMAND (0x02); otherwise a master that may not
issue it gets NOT_OWNER (0x01); otherwise a module in STANDBY answers BUSY (0x05) to all but QUERY, SPDM, RESET and
POWER_SET. That BAD_COMMAND comes first is the model's reading (log 31). A FAILED module takes only QUERY, SPDM and
RESET; others get a status of Table 11.5 other than OK that the spec leaves open (log 10). In each of these cases
nothing of the module changes but the answer. While a WINDOW_MODE is under way, no command is taken at all (log 45,
the model's reading). (11 R383, 11 R384, 11 R395) -/
def Obligations.CommandChecksComeFirst : Prop :=
  ∀ (s : State) (i : Instr) (op : Nat) (p : List Byte), commandForm s i = some (op, p) →
    (s.modeChange ≠ none → exec i s = .next s) ∧ (s.modeChange = none →
    (lengthOk op p.length ≠ some true → exec i s = .next (answered s s 0x02#8 [])) ∧
    (lengthOk op p.length = some true → mayIssue s s.sel.master op p = false → exec i s = .next (answered s s 0x01#8 [])) ∧
    (lengthOk op p.length = some true → mayIssue s s.sel.master op p = true → s.failed = false → s.power = .standby →
      op ∉ [0x01, 0x38, 0x40, 0x41] → exec i s = .next (answered s s 0x05#8 [])) ∧
    (lengthOk op p.length = some true → mayIssue s s.sel.master op p = true → s.failed = true → op ∉ [0x01, 0x38, 0x40] →
      ∃ n, (1 ≤ n ∧ n ≤ 9 ∨ 0x10 ≤ n ∧ n ≤ 0x19) ∧ exec i s = .next (answered s s (BitVec.ofNat 8 n) [])))

/-- When the head of the agenda is an issue of a scheduler whose run stands, inside a checked group of instructions (or
before one that passes its checks), at words that decode to an instruction i in the class of its clause, step is
exec of i at that state, followed by what follows every move: one cycle passes (log 32), and what its outcome allows
happens. The agenda, and what follows of itself in the same step, are the model's choice of an order among its
agents (log 3). Words of an unassigned opcode run unassignedOpcode, and in an X clause the hand-off runs. An event
at the head of the agenda runs as that event, with its selector. (02 R65, 02 R66, 09 R328) -/
def Obligations.StepRunsDecodedInstruction : Prop :=
  (∀ (s : State) (core k : Nat) (ms : List Move) (x : Issuer), s.agenda = .issue core k :: ms → s.power ≠ .off →
    let s1 := { s with agenda := ms, focus := .group core k }
    let r := x.run
    let fetched := decode (hdrClass r.hdr) (r.wordAt r.pos) (r.wordAt (r.pos + 4#32))
    issuer s1 = some x → x.g.wait = .none → r.exec ≠ 0#64 → r.mustChain = false → r.atEnd = false →
    (hdrClass r.hdr = .x → step s = afterMove 1 (exec .xclauseHandoff { s1 with sel := { s.sel with core := core, sched := k } })) ∧
    (hdrClass r.hdr ≠ .x → (r.pos < r.checked ∨ groupFailure (checkEnv x.g x.l) [] (groupWords r) = none) →
    ∃ c, (r.pos < r.checked → c = r.checked) ∧
      let t := s1.mapCore core fun d => d.mapSched k fun y => { y with run := some { r with checked := c } }
      (∀ i, fetched = .ok i → step s = afterMove 1 (exec i t)) ∧
      (fetched = .unassigned → step s = afterMove 1 (exec (.unassignedOpcode (hdrClass r.hdr) (r.wordAt r.pos)
        (if longOf (r.wordAt r.pos) then some (r.wordAt (r.pos + 4#32)) else none)) t)))) ∧
  (∀ (s : State) (i : Instr) (q : Sel) (ms : List Move), s.agenda = .event i q :: ms → s.power ≠ .off →
    step s = afterMove 1 (exec i { s with agenda := ms, sel := q, focus := .none })) ∧
  (∀ (n : Nat) (t : State), t.power ≠ .off → afterMove n (.next t) = .next (settleAll { t with cycle := t.cycle + n })) ∧
  (∀ (n : Nat) (t : State), t.power = .off → afterMove n (.next t) = .next t)

/-- When a run reaches a group of instructions whose checks fail, with the registers that the failing word names landed,
the step traps the executing set at that word, before anything of the group executes: the cause is ILLEGAL_ENCODING
with the reason of the first failure of the first word that fails (QUEUE_FAULT for a ring that the block lacks),
TRAP_CAUSE tells the word and the clause, TRAP_WORDS the word and the header. A word fails by layout, fields (0x7),
registers (0x9), P0 (0xD), resources (0xE) and the place of a transfer (0xC), in that order, then by dependence
(0xA). A header that fails has word index 0xF and stands in both halves of TRAP_WORDS: a COUNT of 0 is reason 0x1,
bit 0 set 0x2. (02 R64, 02 R85, 02 R86, 02 R87, 02 R89) -/
def Obligations.FailedChecksTrap : Prop :=
  (∀ (s : State) (core k ix : Nat) (ms : List Move) (x : Issuer) (f : Failure), s.agenda = .issue core k :: ms → s.power ≠ .off →
    let s1 := { s with agenda := ms, focus := .group core k }
    let r := x.run
    issuer s1 = some x → x.g.wait = .none → r.exec ≠ 0#64 → r.mustChain = false → r.atEnd = false → hdrClass r.hdr ≠ .x →
    ¬ r.pos < r.checked → groupFailure (checkEnv x.g x.l) [] (groupWords r) = some (ix, f) → viewPending x.g r ix = false →
    let at_ := r.cur + BitVec.ofNat 32 (4 + 4 * ix)
    ∃ t : Trap, step s = afterMove 1 (.next (takeTrap s1 core k x.slot r.exec at_ (some r.cur) t)) ∧
      (∀ n, f = .enc n → t.cause = .illegalEncoding ∧ t.causeWord.extractLsb' 16 4 = BitVec.ofNat 4 n) ∧
      (f = .ring → t.cause = .queueFault) ∧ t.causeWord.extractLsb' 8 4 = BitVec.ofNat 4 ix ∧
      t.causeWord.getLsbD 12 = r.chained ∧ t.words = r.wordAt at_ ++ r.hdr) ∧
  (∀ (e : CheckEnv) (last : Bool) (i : Instr), let f := infoOf e i
    let bad9 := f.bad9 || (f.reads ++ f.writes).any Opd.bad
    (∀ n, ownFailure e last (.illegal n) = some (.enc n)) ∧
    (f.bad7 = true → ownFailure e last (.ok i) = some (.enc 0x7)) ∧
    (f.bad7 = false → bad9 = true → ownFailure e last (.ok i) = some (.enc 0x9)) ∧
    (f.bad7 = false → bad9 = false →
      (f.p0 = true → ownFailure e last (.ok i) = some (.enc 0xD)) ∧
      (f.p0 = false → f.badE = true → ownFailure e last (.ok i) = some (.enc 0xE)) ∧
      (f.p0 = false → f.badE = false → f.badRing = true → ownFailure e last (.ok i) = some .ring) ∧
      (f.p0 = false → f.badE = false → f.badRing = false → f.transfer = true → last = false →
        ownFailure e last (.ok i) = some (.enc 0xC)))) ∧
  (∀ (e : CheckEnv) (ds : List (Nat × Bool × Decoded)) (ix : Nat) (f : Failure), groupFailure e [] ds = some (ix, f) →
    ∃ before last d after, ds = before ++ (ix, last, d) :: after ∧ (∀ p ∈ before, ownFailure e p.2.1 p.2.2 = none) ∧
      (ownFailure e last d = some f ∨
        (ownFailure e last d = none ∧ dependsOnAny e (before.map fun p => p.2.2) d = true ∧ f = .enc 0xA))) ∧
  (∀ (s : State) (core slot n : Nat) (g : Group) (l : Launch) (fault : Option Trap) (addr hdr : Word) (exec : LaneMask)
    (res : Option Word) (code : List Word) (c : Bool), let h := res.getD addr
    readRun s (dieOf core) l h.toNat = .ok code →
    checkRun l.rec_.codeLen h.toNat (if res.isSome then (addr.toNat - h.toNat) / 4 - 1 else 0) code = .enc n c hdr →
    ∃ t : Trap, probeAt s core slot g l fault addr exec res = .fail g t ∧ t.cause = .illegalEncoding ∧
      t.causeWord.extractLsb' 8 4 = 0xF#4 ∧ t.causeWord.extractLsb' 16 4 = BitVec.ofNat 4 n ∧ t.causeWord.getLsbD 12 = c ∧
      t.words = hdr ++ hdr) ∧
  (∀ (hdr : Word) (k : Nat) (ws : List Word),
    (hdrCount hdr = 0 → headerFailure hdr k ws = some 0x1) ∧
    (hdrCount hdr ≠ 0 → hdr.getLsbD 0 = true → headerFailure hdr k ws = some 0x2))

/-- For every instruction that has an encoding, with every operand field at every value, whose selecting bits agree with
its constructor: the words that encode gives, decoded in the class of its opcode, are that instruction. (02 R68, 02 R69, 02 R70, 02 R79, 02 R80, 02 R81, 02 R82, 06 R224) -/
def Obligations.EncodedInstructionDecodesToItself : Prop :=
  ∀ (i : Instr) (c : Cls) (op : BitVec 7), i.opcode = some (c, op) → i.canonical = true →
    decode c (nth 0#32 (encode i) 0) (nth 0#32 (encode i) 1) = .ok i

/-- When a base word and the word after it decode to an instruction in a class, that instruction has the class and the
opcode of the word, its selecting bits agree with its constructor, and its encoding is the base word, with the word
after it exactly when LONG is set: no bit of an encoding is dropped, and no two words in one class stand for one
instruction. (02 R68, 02 R69, 02 R70, 06 R224) -/
def Obligations.DecodedWordsEncodeBack : Prop :=
  ∀ (c : Cls) (w x : Word) (i : Instr), decode c w x = .ok i →
    (∃ op, i.opcode = some (c, op) ∧ op.toNat = opOf w) ∧ i.canonical = true ∧
    encode i = if longOf w then [w, x] else [w]

/-- The words of Tables 2.20, 4.6, 5.7 and 7.15 decode to AND, ICMP, REDUX, BRA, GLD, KLD, KCOMMIT and PRIO, with the
fields that the spec gives them. (02 R68, 02 R70) -/
def Obligations.WordsOfTheSpecDecode : Prop :=
  decode .v 0x21004000#32 0x42000001#32 = .ok (.andLong ⟨0, 1, 0, 0⟩ (.i ⟨false, false, false, 8, 1⟩)) ∧
  (∃ w e, decode .v 0x41024080#32 0x40800000#32 = .ok (.icmp w e) ∧ w.guard = 0#3) ∧
  (∃ w e, decode .v 0xA7208000#32 0x00420000#32 = .ok (.reduxLong w e) ∧ e.type = 2#5) ∧
  (∃ w e, decode .v 0xC140C000#32 0xC0000040#32 = .ok (.bra w e) ∧ e.imm = 0x40#24) ∧
  (∃ w e, decode .m 0x11101001#32 0x88420000#32 = .ok (.gldLong w e)) ∧
  (∃ w e, decode .m 0x29020305#32 0x88200133#32 = .ok (.kld w e)) ∧
  (∃ w e, decode .e 0x43000000#32 0xC0002323#32 = .ok (.kcommit w e) ∧ e.imm = 0x2323#24) ∧
  (∃ w, decode .v 0xCC000200#32 0#32 = .ok (.prio w) ∧ w.a = 4#7)

/-- If a step that starts from a settled state answers a next state, then that state is settled too: the module is off,
or every outstanding page-fault record of a die stands for a miss that some lane, code fetch or engine command of
that die still awaits, and every launch that is being stopped still has a group that has not stopped (else it is
ready to be saved). (10 R354, 10 R359, 10 R360) -/
def Obligations.EveryStepLeavesTheModuleSettled : Prop :=
  ∀ (s t : State), Settled s → step s = .next t → Settled t

/-- The state right after reset meets the invariant of every step. Each of its memories is in canonical form, listing
nothing but bytes that differ from the 0 that an unlisted address reads as, in rising order: that form, and that 0,
are the model's choices (log 1), which no rule of the spec states. (10 R354, 10 R359, 10 R360) -/
def Obligations.ResetIsSettled : Prop :=
  Settled State.reset ∧ State.reset.dram.wf = true ∧ State.reset.hostMem.wf = true ∧ State.reset.patchStage.wf = true ∧
  Core.reset.spad.wf = true ∧ Core.reset.panels.wf = true ∧ Core.reset.tileData.wf = true

/-- After a cold reset no launch, context, table, window, owner or patch table is left, the device memory holds no
written byte, the fabric id is that of reset and every link is down, what is fenced or retired stays so (log 33),
and the module is ACTIVE. (That memory which no one has written reads 0 is the model's choice: log 1.) A warm reset
keeps the device memory and the L2 as they are once dirty bytes and writes on the bridge have reached memory, and
the owner, the patch table and the fabric id; it clears contexts, tables, windows, partitions and launches. While
the module is off, a step with anything but a reset at the head of the agenda changes nothing but the agenda, and
with an empty agenda the module stops with moduleOff; the agenda is the model's own (log 3, the model's choice), and
so is that stop. (11 R394, 11 R396, 10 R366, 08 R434) -/
def Obligations.ResetAndOffModule : Prop :=
  (∀ s : State, (coldReset s).launches = [] ∧ (coldReset s).kvs = [] ∧ (coldReset s).routes = [] ∧
    (coldReset s).exposures = [] ∧ (coldReset s).registrations = [] ∧ (coldReset s).owner = none ∧
    (coldReset s).patch = none ∧ (coldReset s).cores = [] ∧ (∀ a, (coldReset s).dram.get a = State.reset.dram.get a) ∧
    (coldReset s).device = State.reset.device ∧ (∀ l ∈ (coldReset s).links, l.state = .down) ∧
    (coldReset s).power = .active ∧ (coldReset s).hostMem = s.hostMem ∧ (coldReset s).fenced = s.fenced ∧
    (coldReset s).fencedWays = s.fencedWays ∧ (coldReset s).retired = s.retired) ∧
  (∀ s : State, (warmReset s).launches = [] ∧ (warmReset s).kvs = [] ∧ (warmReset s).routes = [] ∧
    (warmReset s).exposures = [] ∧ (warmReset s).registrations = [] ∧ (warmReset s).cores = [] ∧
    (warmReset s).partitions = List.replicate 8 0 ∧ (warmReset s).owner = s.owner ∧ (warmReset s).patch = s.patch ∧
    (warmReset s).device = s.device ∧
    (warmReset s).die0.l2 = (flushMemory s).die0.l2 ∧ (warmReset s).die1.l2 = (flushMemory s).die1.l2 ∧
    (warmReset s).windowDrops = List.replicate 64 0 ∧ (warmReset s).dram = (flushMemory s).dram ∧
    (s.cores = [] → s.die0.out = [] → s.die1.out = [] → flushMemory s = s)) ∧
  (∀ (s : State) (m : Move) (ms : List Move), s.power = .off → s.agenda = m :: ms → m.resets = false →
    step s = .next { s with agenda := ms }) ∧
  (∀ s : State, s.power = .off → s.agenda = [] → step s = .fault .moduleOff)

/-- Of any WS96 pattern, in any mode: a pattern with OVF set gives 0x7FC0_0000 whatever LNAN holds; any other gives the
one rounding into FP32, in the mode, of sext(MAG, 87) times 2 to the power ANCHOR − 160. (03 R134) -/
def Obligations.Ws96ToFp32 : Prop :=
  ∀ (x : Nat) (md : FpMode),
    (wsOvf x = true → wsTo x md = 0x7FC00000) ∧
    (wsOvf x = false → wsTo x md = rnd .fp32 md
      (.fin (decide ((BitVec.ofNat 87 x).toInt < 0)) (BitVec.ofNat 87 x).toInt.natAbs ((x / 2 ^ 87 % 2 ^ 8 : Nat) - 160)))

/-- As natural numbers: the seed xor the lane index times its constant, plus the counter times its constant, both modulo
2^64; four rounds of xor with the shift by 29, multiplication and addition modulo 2^64; and the low 32 bits of the
xor with the shift by 32. (03 R137) -/
def Obligations.VrandIsItsFunction : Prop :=
  ∀ (seed ctr : DWord) (gli : Nat),
    let x0 := seed.toNat ^^^ (gli * 0xA3F15C279B4DE861 % 2 ^ 64)
    let x := vrandStep (vrandStep (vrandStep (vrandStep ((x0 + ctr.toNat * 0x7E2D94B1C56F0A3B % 2 ^ 64) % 2 ^ 64))))
    (vrand seed gli ctr).toNat = (x ^^^ (x >>> 32)) % 2 ^ 32

/-- With a lane active, TRAP answers the state of a group-precise trap of the executing set, whose PC is the TRAP
word's, with TRAP_CAUSE holding 0x0F in bits 7:0, the word index in 11:8, the chain bit in 12 and the code in 55:32.
With none active nothing changes but the position. (06 R266) -/
def Obligations.TrapInstructionRecordsItsCode : Prop :=
  ∀ (s : State) (x : Issuer) (w : Base) (e : ExtC),
    (Executes s x (.trap w e) → ∃ t : Trap,
      exec (.trap w e) s = .next (takeTrap s x.core x.sched x.slot x.run.exec x.run.pos (some x.run.cur) t) ∧
      t.cause = .userTrap ∧ t.causeWord.extractLsb' 0 8 = 0x0F#8 ∧
      t.causeWord.extractLsb' 8 4 = BitVec.ofNat 4 (siteOf x (.trap w e)).wordIx ∧
      t.causeWord.getLsbD 12 = x.run.chained ∧ t.causeWord.extractLsb' 32 24 = e.imm) ∧
    (Issues s x (.trap w e) → activeOf x (.trap w e) = 0#64 → exec (.trap w e) s = .next (goesOn s x (.trap w e)))
end

