-- ==== Sys2Proof/Laws/State.lean ====
section
/-! SUPPORT. What each update of the state, of a core and of a group leaves as it was: one lemma for each field. -/

namespace Sys2Proof.Machine

/-! ## Updates of the state -/

@[simp] theorem State.setCore_cycle (s : State) (n : Nat) (c : Core) : (s.setCore n c).cycle = s.cycle := rfl
@[simp] theorem State.setCore_fenced (s : State) (n : Nat) (c : Core) : (s.setCore n c).fenced = s.fenced := rfl
@[simp] theorem State.setCore_die0 (s : State) (n : Nat) (c : Core) : (s.setCore n c).die0 = s.die0 := rfl
@[simp] theorem State.setCore_die1 (s : State) (n : Nat) (c : Core) : (s.setCore n c).die1 = s.die1 := rfl
@[simp] theorem State.setCore_dram (s : State) (n : Nat) (c : Core) : (s.setCore n c).dram = s.dram := rfl
@[simp] theorem State.setCore_poisoned (s : State) (n : Nat) (c : Core) : (s.setCore n c).poisoned = s.poisoned := rfl
@[simp] theorem State.setCore_tier0 (s : State) (n : Nat) (c : Core) : (s.setCore n c).tier0 = s.tier0 := rfl
@[simp] theorem State.setCore_tier1 (s : State) (n : Nat) (c : Core) : (s.setCore n c).tier1 = s.tier1 := rfl
@[simp] theorem State.setCore_hostMem (s : State) (n : Nat) (c : Core) : (s.setCore n c).hostMem = s.hostMem := rfl
@[simp] theorem State.setCore_hostLines (s : State) (n : Nat) (c : Core) : (s.setCore n c).hostLines = s.hostLines := rfl
@[simp] theorem State.setCore_hostAcks (s : State) (n : Nat) (c : Core) : (s.setCore n c).hostAcks = s.hostAcks := rfl
@[simp] theorem State.setCore_launches (s : State) (n : Nat) (c : Core) : (s.setCore n c).launches = s.launches := rfl
@[simp] theorem State.setCore_launchSeq (s : State) (n : Nat) (c : Core) : (s.setCore n c).launchSeq = s.launchSeq := rfl
@[simp] theorem State.setCore_kvs (s : State) (n : Nat) (c : Core) : (s.setCore n c).kvs = s.kvs := rfl
@[simp] theorem State.setCore_routes (s : State) (n : Nat) (c : Core) : (s.setCore n c).routes = s.routes := rfl
@[simp] theorem State.setCore_rowsOut (s : State) (n : Nat) (c : Core) : (s.setCore n c).rowsOut = s.rowsOut := rfl
@[simp] theorem State.setCore_returns (s : State) (n : Nat) (c : Core) : (s.setCore n c).returns = s.returns := rfl
@[simp] theorem State.setCore_puts (s : State) (n : Nat) (c : Core) : (s.setCore n c).puts = s.puts := rfl
@[simp] theorem State.setCore_putSeq (s : State) (n : Nat) (c : Core) : (s.setCore n c).putSeq = s.putSeq := rfl
@[simp] theorem State.setCore_exposures (s : State) (n : Nat) (c : Core) : (s.setCore n c).exposures = s.exposures := rfl
@[simp] theorem State.setCore_windowDrops (s : State) (n : Nat) (c : Core) : (s.setCore n c).windowDrops = s.windowDrops := rfl
@[simp] theorem State.setCore_registrations (s : State) (n : Nat) (c : Core) : (s.setCore n c).registrations = s.registrations := rfl
@[simp] theorem State.setCore_peers (s : State) (n : Nat) (c : Core) : (s.setCore n c).peers = s.peers := rfl
@[simp] theorem State.setCore_bindings (s : State) (n : Nat) (c : Core) : (s.setCore n c).bindings = s.bindings := rfl
@[simp] theorem State.setCore_channels (s : State) (n : Nat) (c : Core) : (s.setCore n c).channels = s.channels := rfl
@[simp] theorem State.setCore_device (s : State) (n : Nat) (c : Core) : (s.setCore n c).device = s.device := rfl
@[simp] theorem State.setCore_partitionKey (s : State) (n : Nat) (c : Core) : (s.setCore n c).partitionKey = s.partitionKey := rfl
@[simp] theorem State.setCore_routeMap (s : State) (n : Nat) (c : Core) : (s.setCore n c).routeMap = s.routeMap := rfl
@[simp] theorem State.setCore_links (s : State) (n : Nat) (c : Core) : (s.setCore n c).links = s.links := rfl
@[simp] theorem State.setCore_fabricDown (s : State) (n : Nat) (c : Core) : (s.setCore n c).fabricDown = s.fabricDown := rfl
@[simp] theorem State.setCore_fabricReset (s : State) (n : Nat) (c : Core) : (s.setCore n c).fabricReset = s.fabricReset := rfl
@[simp] theorem State.setCore_bridgeFenced (s : State) (n : Nat) (c : Core) : (s.setCore n c).bridgeFenced = s.bridgeFenced := rfl
@[simp] theorem State.setCore_failed (s : State) (n : Nat) (c : Core) : (s.setCore n c).failed = s.failed := rfl
@[simp] theorem State.setCore_port0 (s : State) (n : Nat) (c : Core) : (s.setCore n c).port0 = s.port0 := rfl
@[simp] theorem State.setCore_port1 (s : State) (n : Nat) (c : Core) : (s.setCore n c).port1 = s.port1 := rfl
@[simp] theorem State.setCore_mctp (s : State) (n : Nat) (c : Core) : (s.setCore n c).mctp = s.mctp := rfl
@[simp] theorem State.setCore_debug (s : State) (n : Nat) (c : Core) : (s.setCore n c).debug = s.debug := rfl
@[simp] theorem State.setCore_aperture (s : State) (n : Nat) (c : Core) : (s.setCore n c).aperture = s.aperture := rfl
@[simp] theorem State.setCore_apertureData (s : State) (n : Nat) (c : Core) : (s.setCore n c).apertureData = s.apertureData := rfl
@[simp] theorem State.setCore_peerReply (s : State) (n : Nat) (c : Core) : (s.setCore n c).peerReply = s.peerReply := rfl
@[simp] theorem State.setCore_owner (s : State) (n : Nat) (c : Core) : (s.setCore n c).owner = s.owner := rfl
@[simp] theorem State.setCore_offer (s : State) (n : Nat) (c : Core) : (s.setCore n c).offer = s.offer := rfl
@[simp] theorem State.setCore_ownerChanges (s : State) (n : Nat) (c : Core) : (s.setCore n c).ownerChanges = s.ownerChanges := rfl
@[simp] theorem State.setCore_eventSeq (s : State) (n : Nat) (c : Core) : (s.setCore n c).eventSeq = s.eventSeq := rfl
@[simp] theorem State.setCore_partitions (s : State) (n : Nat) (c : Core) : (s.setCore n c).partitions = s.partitions := rfl
@[simp] theorem State.setCore_patchStage (s : State) (n : Nat) (c : Core) : (s.setCore n c).patchStage = s.patchStage := rfl
@[simp] theorem State.setCore_patch (s : State) (n : Nat) (c : Core) : (s.setCore n c).patch = s.patch := rfl
@[simp] theorem State.setCore_launchRun (s : State) (n : Nat) (c : Core) : (s.setCore n c).launchRun = s.launchRun := rfl
@[simp] theorem State.setCore_power (s : State) (n : Nat) (c : Core) : (s.setCore n c).power = s.power := rfl
@[simp] theorem State.setCore_cap (s : State) (n : Nat) (c : Core) : (s.setCore n c).cap = s.cap := rfl
@[simp] theorem State.setCore_duty (s : State) (n : Nat) (c : Core) : (s.setCore n c).duty = s.duty := rfl
@[simp] theorem State.setCore_idleSince (s : State) (n : Nat) (c : Core) : (s.setCore n c).idleSince = s.idleSince := rfl
@[simp] theorem State.setCore_halted (s : State) (n : Nat) (c : Core) : (s.setCore n c).halted = s.halted := rfl
@[simp] theorem State.setCore_sensors (s : State) (n : Nat) (c : Core) : (s.setCore n c).sensors = s.sensors := rfl
@[simp] theorem State.setCore_sensorLevel (s : State) (n : Nat) (c : Core) : (s.setCore n c).sensorLevel = s.sensorLevel := rfl
@[simp] theorem State.setCore_errors (s : State) (n : Nat) (c : Core) : (s.setCore n c).errors = s.errors := rfl
@[simp] theorem State.setCore_retired (s : State) (n : Nat) (c : Core) : (s.setCore n c).retired = s.retired := rfl
@[simp] theorem State.setCore_fencedUnits (s : State) (n : Nat) (c : Core) : (s.setCore n c).fencedUnits = s.fencedUnits := rfl
@[simp] theorem State.setCore_fencedWays (s : State) (n : Nat) (c : Core) : (s.setCore n c).fencedWays = s.fencedWays := rfl
@[simp] theorem State.setCore_spdmCount (s : State) (n : Nat) (c : Core) : (s.setCore n c).spdmCount = s.spdmCount := rfl
@[simp] theorem State.setCore_spdmLarge (s : State) (n : Nat) (c : Core) : (s.setCore n c).spdmLarge = s.spdmLarge := rfl
@[simp] theorem State.setCore_spdmLogs (s : State) (n : Nat) (c : Core) : (s.setCore n c).spdmLogs = s.spdmLogs := rfl
@[simp] theorem State.setCore_response (s : State) (n : Nat) (c : Core) : (s.setCore n c).response = s.response := rfl
@[simp] theorem State.setCore_rung (s : State) (n : Nat) (c : Core) : (s.setCore n c).rung = s.rung := rfl
@[simp] theorem State.setCore_modeChange (s : State) (n : Nat) (c : Core) : (s.setCore n c).modeChange = s.modeChange := rfl
@[simp] theorem State.setCore_diagnostics (s : State) (n : Nat) (c : Core) : (s.setCore n c).diagnostics = s.diagnostics := rfl
@[simp] theorem State.setCore_outputs (s : State) (n : Nat) (c : Core) : (s.setCore n c).outputs = s.outputs := rfl
@[simp] theorem State.setCore_agenda (s : State) (n : Nat) (c : Core) : (s.setCore n c).agenda = s.agenda := rfl
@[simp] theorem State.setCore_turn (s : State) (n : Nat) (c : Core) : (s.setCore n c).turn = s.turn := rfl
@[simp] theorem State.setCore_focus (s : State) (n : Nat) (c : Core) : (s.setCore n c).focus = s.focus := rfl
@[simp] theorem State.setCore_sel (s : State) (n : Nat) (c : Core) : (s.setCore n c).sel = s.sel := rfl

@[simp] theorem State.mapCore_cycle (s : State) (n : Nat) (f : Core → Core) : (s.mapCore n f).cycle = s.cycle := rfl
@[simp] theorem State.mapCore_fenced (s : State) (n : Nat) (f : Core → Core) : (s.mapCore n f).fenced = s.fenced := rfl
@[simp] theorem State.mapCore_die0 (s : State) (n : Nat) (f : Core → Core) : (s.mapCore n f).die0 = s.die0 := rfl
@[simp] theorem State.mapCore_die1 (s : State) (n : Nat) (f : Core → Core) : (s.mapCore n f).die1 = s.die1 := rfl
@[simp] theorem State.mapCore_dram (s : State) (n : Nat) (f : Core → Core) : (s.mapCore n f).dram = s.dram := rfl
@[simp] theorem State.mapCore_poisoned (s : State) (n : Nat) (f : Core → Core) : (s.mapCore n f).poisoned = s.poisoned := rfl
@[simp] theorem State.mapCore_tier0 (s : State) (n : Nat) (f : Core → Core) : (s.mapCore n f).tier0 = s.tier0 := rfl
@[simp] theorem State.mapCore_tier1 (s : State) (n : Nat) (f : Core → Core) : (s.mapCore n f).tier1 = s.tier1 := rfl
@[simp] theorem State.mapCore_hostMem (s : State) (n : Nat) (f : Core → Core) : (s.mapCore n f).hostMem = s.hostMem := rfl
@[simp] theorem State.mapCore_hostLines (s : State) (n : Nat) (f : Core → Core) : (s.mapCore n f).hostLines = s.hostLines := rfl
@[simp] theorem State.mapCore_hostAcks (s : State) (n : Nat) (f : Core → Core) : (s.mapCore n f).hostAcks = s.hostAcks := rfl
@[simp] theorem State.mapCore_launches (s : State) (n : Nat) (f : Core → Core) : (s.mapCore n f).launches = s.launches := rfl
@[simp] theorem State.mapCore_launchSeq (s : State) (n : Nat) (f : Core → Core) : (s.mapCore n f).launchSeq = s.launchSeq := rfl
@[simp] theorem State.mapCore_kvs (s : State) (n : Nat) (f : Core → Core) : (s.mapCore n f).kvs = s.kvs := rfl
@[simp] theorem State.mapCore_routes (s : State) (n : Nat) (f : Core → Core) : (s.mapCore n f).routes = s.routes := rfl
@[simp] theorem State.mapCore_rowsOut (s : State) (n : Nat) (f : Core → Core) : (s.mapCore n f).rowsOut = s.rowsOut := rfl
@[simp] theorem State.mapCore_returns (s : State) (n : Nat) (f : Core → Core) : (s.mapCore n f).returns = s.returns := rfl
@[simp] theorem State.mapCore_puts (s : State) (n : Nat) (f : Core → Core) : (s.mapCore n f).puts = s.puts := rfl
@[simp] theorem State.mapCore_putSeq (s : State) (n : Nat) (f : Core → Core) : (s.mapCore n f).putSeq = s.putSeq := rfl
@[simp] theorem State.mapCore_exposures (s : State) (n : Nat) (f : Core → Core) : (s.mapCore n f).exposures = s.exposures := rfl
@[simp] theorem State.mapCore_windowDrops (s : State) (n : Nat) (f : Core → Core) : (s.mapCore n f).windowDrops = s.windowDrops := rfl
@[simp] theorem State.mapCore_registrations (s : State) (n : Nat) (f : Core → Core) : (s.mapCore n f).registrations = s.registrations := rfl
@[simp] theorem State.mapCore_peers (s : State) (n : Nat) (f : Core → Core) : (s.mapCore n f).peers = s.peers := rfl
@[simp] theorem State.mapCore_bindings (s : State) (n : Nat) (f : Core → Core) : (s.mapCore n f).bindings = s.bindings := rfl
@[simp] theorem State.mapCore_channels (s : State) (n : Nat) (f : Core → Core) : (s.mapCore n f).channels = s.channels := rfl
@[simp] theorem State.mapCore_device (s : State) (n : Nat) (f : Core → Core) : (s.mapCore n f).device = s.device := rfl
@[simp] theorem State.mapCore_partitionKey (s : State) (n : Nat) (f : Core → Core) : (s.mapCore n f).partitionKey = s.partitionKey := rfl
@[simp] theorem State.mapCore_routeMap (s : State) (n : Nat) (f : Core → Core) : (s.mapCore n f).routeMap = s.routeMap := rfl
@[simp] theorem State.mapCore_links (s : State) (n : Nat) (f : Core → Core) : (s.mapCore n f).links = s.links := rfl
@[simp] theorem State.mapCore_fabricDown (s : State) (n : Nat) (f : Core → Core) : (s.mapCore n f).fabricDown = s.fabricDown := rfl
@[simp] theorem State.mapCore_fabricReset (s : State) (n : Nat) (f : Core → Core) : (s.mapCore n f).fabricReset = s.fabricReset := rfl
@[simp] theorem State.mapCore_bridgeFenced (s : State) (n : Nat) (f : Core → Core) : (s.mapCore n f).bridgeFenced = s.bridgeFenced := rfl
@[simp] theorem State.mapCore_failed (s : State) (n : Nat) (f : Core → Core) : (s.mapCore n f).failed = s.failed := rfl
@[simp] theorem State.mapCore_port0 (s : State) (n : Nat) (f : Core → Core) : (s.mapCore n f).port0 = s.port0 := rfl
@[simp] theorem State.mapCore_port1 (s : State) (n : Nat) (f : Core → Core) : (s.mapCore n f).port1 = s.port1 := rfl
@[simp] theorem State.mapCore_mctp (s : State) (n : Nat) (f : Core → Core) : (s.mapCore n f).mctp = s.mctp := rfl
@[simp] theorem State.mapCore_debug (s : State) (n : Nat) (f : Core → Core) : (s.mapCore n f).debug = s.debug := rfl
@[simp] theorem State.mapCore_aperture (s : State) (n : Nat) (f : Core → Core) : (s.mapCore n f).aperture = s.aperture := rfl
@[simp] theorem State.mapCore_apertureData (s : State) (n : Nat) (f : Core → Core) : (s.mapCore n f).apertureData = s.apertureData := rfl
@[simp] theorem State.mapCore_peerReply (s : State) (n : Nat) (f : Core → Core) : (s.mapCore n f).peerReply = s.peerReply := rfl
@[simp] theorem State.mapCore_owner (s : State) (n : Nat) (f : Core → Core) : (s.mapCore n f).owner = s.owner := rfl
@[simp] theorem State.mapCore_offer (s : State) (n : Nat) (f : Core → Core) : (s.mapCore n f).offer = s.offer := rfl
@[simp] theorem State.mapCore_ownerChanges (s : State) (n : Nat) (f : Core → Core) : (s.mapCore n f).ownerChanges = s.ownerChanges := rfl
@[simp] theorem State.mapCore_eventSeq (s : State) (n : Nat) (f : Core → Core) : (s.mapCore n f).eventSeq = s.eventSeq := rfl
@[simp] theorem State.mapCore_partitions (s : State) (n : Nat) (f : Core → Core) : (s.mapCore n f).partitions = s.partitions := rfl
@[simp] theorem State.mapCore_patchStage (s : State) (n : Nat) (f : Core → Core) : (s.mapCore n f).patchStage = s.patchStage := rfl
@[simp] theorem State.mapCore_patch (s : State) (n : Nat) (f : Core → Core) : (s.mapCore n f).patch = s.patch := rfl
@[simp] theorem State.mapCore_launchRun (s : State) (n : Nat) (f : Core → Core) : (s.mapCore n f).launchRun = s.launchRun := rfl
@[simp] theorem State.mapCore_power (s : State) (n : Nat) (f : Core → Core) : (s.mapCore n f).power = s.power := rfl
@[simp] theorem State.mapCore_cap (s : State) (n : Nat) (f : Core → Core) : (s.mapCore n f).cap = s.cap := rfl
@[simp] theorem State.mapCore_duty (s : State) (n : Nat) (f : Core → Core) : (s.mapCore n f).duty = s.duty := rfl
@[simp] theorem State.mapCore_idleSince (s : State) (n : Nat) (f : Core → Core) : (s.mapCore n f).idleSince = s.idleSince := rfl
@[simp] theorem State.mapCore_halted (s : State) (n : Nat) (f : Core → Core) : (s.mapCore n f).halted = s.halted := rfl
@[simp] theorem State.mapCore_sensors (s : State) (n : Nat) (f : Core → Core) : (s.mapCore n f).sensors = s.sensors := rfl
@[simp] theorem State.mapCore_sensorLevel (s : State) (n : Nat) (f : Core → Core) : (s.mapCore n f).sensorLevel = s.sensorLevel := rfl
@[simp] theorem State.mapCore_errors (s : State) (n : Nat) (f : Core → Core) : (s.mapCore n f).errors = s.errors := rfl
@[simp] theorem State.mapCore_retired (s : State) (n : Nat) (f : Core → Core) : (s.mapCore n f).retired = s.retired := rfl
@[simp] theorem State.mapCore_fencedUnits (s : State) (n : Nat) (f : Core → Core) : (s.mapCore n f).fencedUnits = s.fencedUnits := rfl
@[simp] theorem State.mapCore_fencedWays (s : State) (n : Nat) (f : Core → Core) : (s.mapCore n f).fencedWays = s.fencedWays := rfl
@[simp] theorem State.mapCore_spdmCount (s : State) (n : Nat) (f : Core → Core) : (s.mapCore n f).spdmCount = s.spdmCount := rfl
@[simp] theorem State.mapCore_spdmLarge (s : State) (n : Nat) (f : Core → Core) : (s.mapCore n f).spdmLarge = s.spdmLarge := rfl
@[simp] theorem State.mapCore_spdmLogs (s : State) (n : Nat) (f : Core → Core) : (s.mapCore n f).spdmLogs = s.spdmLogs := rfl
@[simp] theorem State.mapCore_response (s : State) (n : Nat) (f : Core → Core) : (s.mapCore n f).response = s.response := rfl
@[simp] theorem State.mapCore_rung (s : State) (n : Nat) (f : Core → Core) : (s.mapCore n f).rung = s.rung := rfl
@[simp] theorem State.mapCore_modeChange (s : State) (n : Nat) (f : Core → Core) : (s.mapCore n f).modeChange = s.modeChange := rfl
@[simp] theorem State.mapCore_diagnostics (s : State) (n : Nat) (f : Core → Core) : (s.mapCore n f).diagnostics = s.diagnostics := rfl
@[simp] theorem State.mapCore_outputs (s : State) (n : Nat) (f : Core → Core) : (s.mapCore n f).outputs = s.outputs := rfl
@[simp] theorem State.mapCore_agenda (s : State) (n : Nat) (f : Core → Core) : (s.mapCore n f).agenda = s.agenda := rfl
@[simp] theorem State.mapCore_turn (s : State) (n : Nat) (f : Core → Core) : (s.mapCore n f).turn = s.turn := rfl
@[simp] theorem State.mapCore_focus (s : State) (n : Nat) (f : Core → Core) : (s.mapCore n f).focus = s.focus := rfl
@[simp] theorem State.mapCore_sel (s : State) (n : Nat) (f : Core → Core) : (s.mapCore n f).sel = s.sel := rfl

@[simp] theorem State.setGroup_cycle (s : State) (n k : Nat) (g : Group) : (s.setGroup n k g).cycle = s.cycle := rfl
@[simp] theorem State.setGroup_fenced (s : State) (n k : Nat) (g : Group) : (s.setGroup n k g).fenced = s.fenced := rfl
@[simp] theorem State.setGroup_die0 (s : State) (n k : Nat) (g : Group) : (s.setGroup n k g).die0 = s.die0 := rfl
@[simp] theorem State.setGroup_die1 (s : State) (n k : Nat) (g : Group) : (s.setGroup n k g).die1 = s.die1 := rfl
@[simp] theorem State.setGroup_dram (s : State) (n k : Nat) (g : Group) : (s.setGroup n k g).dram = s.dram := rfl
@[simp] theorem State.setGroup_poisoned (s : State) (n k : Nat) (g : Group) : (s.setGroup n k g).poisoned = s.poisoned := rfl
@[simp] theorem State.setGroup_tier0 (s : State) (n k : Nat) (g : Group) : (s.setGroup n k g).tier0 = s.tier0 := rfl
@[simp] theorem State.setGroup_tier1 (s : State) (n k : Nat) (g : Group) : (s.setGroup n k g).tier1 = s.tier1 := rfl
@[simp] theorem State.setGroup_hostMem (s : State) (n k : Nat) (g : Group) : (s.setGroup n k g).hostMem = s.hostMem := rfl
@[simp] theorem State.setGroup_hostLines (s : State) (n k : Nat) (g : Group) : (s.setGroup n k g).hostLines = s.hostLines := rfl
@[simp] theorem State.setGroup_hostAcks (s : State) (n k : Nat) (g : Group) : (s.setGroup n k g).hostAcks = s.hostAcks := rfl
@[simp] theorem State.setGroup_launches (s : State) (n k : Nat) (g : Group) : (s.setGroup n k g).launches = s.launches := rfl
@[simp] theorem State.setGroup_launchSeq (s : State) (n k : Nat) (g : Group) : (s.setGroup n k g).launchSeq = s.launchSeq := rfl
@[simp] theorem State.setGroup_kvs (s : State) (n k : Nat) (g : Group) : (s.setGroup n k g).kvs = s.kvs := rfl
@[simp] theorem State.setGroup_routes (s : State) (n k : Nat) (g : Group) : (s.setGroup n k g).routes = s.routes := rfl
@[simp] theorem State.setGroup_rowsOut (s : State) (n k : Nat) (g : Group) : (s.setGroup n k g).rowsOut = s.rowsOut := rfl
@[simp] theorem State.setGroup_returns (s : State) (n k : Nat) (g : Group) : (s.setGroup n k g).returns = s.returns := rfl
@[simp] theorem State.setGroup_puts (s : State) (n k : Nat) (g : Group) : (s.setGroup n k g).puts = s.puts := rfl
@[simp] theorem State.setGroup_putSeq (s : State) (n k : Nat) (g : Group) : (s.setGroup n k g).putSeq = s.putSeq := rfl
@[simp] theorem State.setGroup_exposures (s : State) (n k : Nat) (g : Group) : (s.setGroup n k g).exposures = s.exposures := rfl
@[simp] theorem State.setGroup_windowDrops (s : State) (n k : Nat) (g : Group) : (s.setGroup n k g).windowDrops = s.windowDrops := rfl
@[simp] theorem State.setGroup_registrations (s : State) (n k : Nat) (g : Group) : (s.setGroup n k g).registrations = s.registrations := rfl
@[simp] theorem State.setGroup_peers (s : State) (n k : Nat) (g : Group) : (s.setGroup n k g).peers = s.peers := rfl
@[simp] theorem State.setGroup_bindings (s : State) (n k : Nat) (g : Group) : (s.setGroup n k g).bindings = s.bindings := rfl
@[simp] theorem State.setGroup_channels (s : State) (n k : Nat) (g : Group) : (s.setGroup n k g).channels = s.channels := rfl
@[simp] theorem State.setGroup_device (s : State) (n k : Nat) (g : Group) : (s.setGroup n k g).device = s.device := rfl
@[simp] theorem State.setGroup_partitionKey (s : State) (n k : Nat) (g : Group) : (s.setGroup n k g).partitionKey = s.partitionKey := rfl
@[simp] theorem State.setGroup_routeMap (s : State) (n k : Nat) (g : Group) : (s.setGroup n k g).routeMap = s.routeMap := rfl
@[simp] theorem State.setGroup_links (s : State) (n k : Nat) (g : Group) : (s.setGroup n k g).links = s.links := rfl
@[simp] theorem State.setGroup_fabricDown (s : State) (n k : Nat) (g : Group) : (s.setGroup n k g).fabricDown = s.fabricDown := rfl
@[simp] theorem State.setGroup_fabricReset (s : State) (n k : Nat) (g : Group) : (s.setGroup n k g).fabricReset = s.fabricReset := rfl
@[simp] theorem State.setGroup_bridgeFenced (s : State) (n k : Nat) (g : Group) : (s.setGroup n k g).bridgeFenced = s.bridgeFenced := rfl
@[simp] theorem State.setGroup_failed (s : State) (n k : Nat) (g : Group) : (s.setGroup n k g).failed = s.failed := rfl
@[simp] theorem State.setGroup_port0 (s : State) (n k : Nat) (g : Group) : (s.setGroup n k g).port0 = s.port0 := rfl
@[simp] theorem State.setGroup_port1 (s : State) (n k : Nat) (g : Group) : (s.setGroup n k g).port1 = s.port1 := rfl
@[simp] theorem State.setGroup_mctp (s : State) (n k : Nat) (g : Group) : (s.setGroup n k g).mctp = s.mctp := rfl
@[simp] theorem State.setGroup_debug (s : State) (n k : Nat) (g : Group) : (s.setGroup n k g).debug = s.debug := rfl
@[simp] theorem State.setGroup_aperture (s : State) (n k : Nat) (g : Group) : (s.setGroup n k g).aperture = s.aperture := rfl
@[simp] theorem State.setGroup_apertureData (s : State) (n k : Nat) (g : Group) : (s.setGroup n k g).apertureData = s.apertureData := rfl
@[simp] theorem State.setGroup_peerReply (s : State) (n k : Nat) (g : Group) : (s.setGroup n k g).peerReply = s.peerReply := rfl
@[simp] theorem State.setGroup_owner (s : State) (n k : Nat) (g : Group) : (s.setGroup n k g).owner = s.owner := rfl
@[simp] theorem State.setGroup_offer (s : State) (n k : Nat) (g : Group) : (s.setGroup n k g).offer = s.offer := rfl
@[simp] theorem State.setGroup_ownerChanges (s : State) (n k : Nat) (g : Group) : (s.setGroup n k g).ownerChanges = s.ownerChanges := rfl
@[simp] theorem State.setGroup_eventSeq (s : State) (n k : Nat) (g : Group) : (s.setGroup n k g).eventSeq = s.eventSeq := rfl
@[simp] theorem State.setGroup_partitions (s : State) (n k : Nat) (g : Group) : (s.setGroup n k g).partitions = s.partitions := rfl
@[simp] theorem State.setGroup_patchStage (s : State) (n k : Nat) (g : Group) : (s.setGroup n k g).patchStage = s.patchStage := rfl
@[simp] theorem State.setGroup_patch (s : State) (n k : Nat) (g : Group) : (s.setGroup n k g).patch = s.patch := rfl
@[simp] theorem State.setGroup_launchRun (s : State) (n k : Nat) (g : Group) : (s.setGroup n k g).launchRun = s.launchRun := rfl
@[simp] theorem State.setGroup_power (s : State) (n k : Nat) (g : Group) : (s.setGroup n k g).power = s.power := rfl
@[simp] theorem State.setGroup_cap (s : State) (n k : Nat) (g : Group) : (s.setGroup n k g).cap = s.cap := rfl
@[simp] theorem State.setGroup_duty (s : State) (n k : Nat) (g : Group) : (s.setGroup n k g).duty = s.duty := rfl
@[simp] theorem State.setGroup_idleSince (s : State) (n k : Nat) (g : Group) : (s.setGroup n k g).idleSince = s.idleSince := rfl
@[simp] theorem State.setGroup_halted (s : State) (n k : Nat) (g : Group) : (s.setGroup n k g).halted = s.halted := rfl
@[simp] theorem State.setGroup_sensors (s : State) (n k : Nat) (g : Group) : (s.setGroup n k g).sensors = s.sensors := rfl
@[simp] theorem State.setGroup_sensorLevel (s : State) (n k : Nat) (g : Group) : (s.setGroup n k g).sensorLevel = s.sensorLevel := rfl
@[simp] theorem State.setGroup_errors (s : State) (n k : Nat) (g : Group) : (s.setGroup n k g).errors = s.errors := rfl
@[simp] theorem State.setGroup_retired (s : State) (n k : Nat) (g : Group) : (s.setGroup n k g).retired = s.retired := rfl
@[simp] theorem State.setGroup_fencedUnits (s : State) (n k : Nat) (g : Group) : (s.setGroup n k g).fencedUnits = s.fencedUnits := rfl
@[simp] theorem State.setGroup_fencedWays (s : State) (n k : Nat) (g : Group) : (s.setGroup n k g).fencedWays = s.fencedWays := rfl
@[simp] theorem State.setGroup_spdmCount (s : State) (n k : Nat) (g : Group) : (s.setGroup n k g).spdmCount = s.spdmCount := rfl
@[simp] theorem State.setGroup_spdmLarge (s : State) (n k : Nat) (g : Group) : (s.setGroup n k g).spdmLarge = s.spdmLarge := rfl
@[simp] theorem State.setGroup_spdmLogs (s : State) (n k : Nat) (g : Group) : (s.setGroup n k g).spdmLogs = s.spdmLogs := rfl
@[simp] theorem State.setGroup_response (s : State) (n k : Nat) (g : Group) : (s.setGroup n k g).response = s.response := rfl
@[simp] theorem State.setGroup_rung (s : State) (n k : Nat) (g : Group) : (s.setGroup n k g).rung = s.rung := rfl
@[simp] theorem State.setGroup_modeChange (s : State) (n k : Nat) (g : Group) : (s.setGroup n k g).modeChange = s.modeChange := rfl
@[simp] theorem State.setGroup_diagnostics (s : State) (n k : Nat) (g : Group) : (s.setGroup n k g).diagnostics = s.diagnostics := rfl
@[simp] theorem State.setGroup_outputs (s : State) (n k : Nat) (g : Group) : (s.setGroup n k g).outputs = s.outputs := rfl
@[simp] theorem State.setGroup_agenda (s : State) (n k : Nat) (g : Group) : (s.setGroup n k g).agenda = s.agenda := rfl
@[simp] theorem State.setGroup_turn (s : State) (n k : Nat) (g : Group) : (s.setGroup n k g).turn = s.turn := rfl
@[simp] theorem State.setGroup_focus (s : State) (n k : Nat) (g : Group) : (s.setGroup n k g).focus = s.focus := rfl
@[simp] theorem State.setGroup_sel (s : State) (n k : Nat) (g : Group) : (s.setGroup n k g).sel = s.sel := rfl

@[simp] theorem State.mapGroup_cycle (s : State) (n k : Nat) (f : Group → Group) : (s.mapGroup n k f).cycle = s.cycle := rfl
@[simp] theorem State.mapGroup_fenced (s : State) (n k : Nat) (f : Group → Group) : (s.mapGroup n k f).fenced = s.fenced := rfl
@[simp] theorem State.mapGroup_die0 (s : State) (n k : Nat) (f : Group → Group) : (s.mapGroup n k f).die0 = s.die0 := rfl
@[simp] theorem State.mapGroup_die1 (s : State) (n k : Nat) (f : Group → Group) : (s.mapGroup n k f).die1 = s.die1 := rfl
@[simp] theorem State.mapGroup_dram (s : State) (n k : Nat) (f : Group → Group) : (s.mapGroup n k f).dram = s.dram := rfl
@[simp] theorem State.mapGroup_poisoned (s : State) (n k : Nat) (f : Group → Group) : (s.mapGroup n k f).poisoned = s.poisoned := rfl
@[simp] theorem State.mapGroup_tier0 (s : State) (n k : Nat) (f : Group → Group) : (s.mapGroup n k f).tier0 = s.tier0 := rfl
@[simp] theorem State.mapGroup_tier1 (s : State) (n k : Nat) (f : Group → Group) : (s.mapGroup n k f).tier1 = s.tier1 := rfl
@[simp] theorem State.mapGroup_hostMem (s : State) (n k : Nat) (f : Group → Group) : (s.mapGroup n k f).hostMem = s.hostMem := rfl
@[simp] theorem State.mapGroup_hostLines (s : State) (n k : Nat) (f : Group → Group) : (s.mapGroup n k f).hostLines = s.hostLines := rfl
@[simp] theorem State.mapGroup_hostAcks (s : State) (n k : Nat) (f : Group → Group) : (s.mapGroup n k f).hostAcks = s.hostAcks := rfl
@[simp] theorem State.mapGroup_launches (s : State) (n k : Nat) (f : Group → Group) : (s.mapGroup n k f).launches = s.launches := rfl
@[simp] theorem State.mapGroup_launchSeq (s : State) (n k : Nat) (f : Group → Group) : (s.mapGroup n k f).launchSeq = s.launchSeq := rfl
@[simp] theorem State.mapGroup_kvs (s : State) (n k : Nat) (f : Group → Group) : (s.mapGroup n k f).kvs = s.kvs := rfl
@[simp] theorem State.mapGroup_routes (s : State) (n k : Nat) (f : Group → Group) : (s.mapGroup n k f).routes = s.routes := rfl
@[simp] theorem State.mapGroup_rowsOut (s : State) (n k : Nat) (f : Group → Group) : (s.mapGroup n k f).rowsOut = s.rowsOut := rfl
@[simp] theorem State.mapGroup_returns (s : State) (n k : Nat) (f : Group → Group) : (s.mapGroup n k f).returns = s.returns := rfl
@[simp] theorem State.mapGroup_puts (s : State) (n k : Nat) (f : Group → Group) : (s.mapGroup n k f).puts = s.puts := rfl
@[simp] theorem State.mapGroup_putSeq (s : State) (n k : Nat) (f : Group → Group) : (s.mapGroup n k f).putSeq = s.putSeq := rfl
@[simp] theorem State.mapGroup_exposures (s : State) (n k : Nat) (f : Group → Group) : (s.mapGroup n k f).exposures = s.exposures := rfl
@[simp] theorem State.mapGroup_windowDrops (s : State) (n k : Nat) (f : Group → Group) : (s.mapGroup n k f).windowDrops = s.windowDrops := rfl
@[simp] theorem State.mapGroup_registrations (s : State) (n k : Nat) (f : Group → Group) : (s.mapGroup n k f).registrations = s.registrations := rfl
@[simp] theorem State.mapGroup_peers (s : State) (n k : Nat) (f : Group → Group) : (s.mapGroup n k f).peers = s.peers := rfl
@[simp] theorem State.mapGroup_bindings (s : State) (n k : Nat) (f : Group → Group) : (s.mapGroup n k f).bindings = s.bindings := rfl
@[simp] theorem State.mapGroup_channels (s : State) (n k : Nat) (f : Group → Group) : (s.mapGroup n k f).channels = s.channels := rfl
@[simp] theorem State.mapGroup_device (s : State) (n k : Nat) (f : Group → Group) : (s.mapGroup n k f).device = s.device := rfl
@[simp] theorem State.mapGroup_partitionKey (s : State) (n k : Nat) (f : Group → Group) : (s.mapGroup n k f).partitionKey = s.partitionKey := rfl
@[simp] theorem State.mapGroup_routeMap (s : State) (n k : Nat) (f : Group → Group) : (s.mapGroup n k f).routeMap = s.routeMap := rfl
@[simp] theorem State.mapGroup_links (s : State) (n k : Nat) (f : Group → Group) : (s.mapGroup n k f).links = s.links := rfl
@[simp] theorem State.mapGroup_fabricDown (s : State) (n k : Nat) (f : Group → Group) : (s.mapGroup n k f).fabricDown = s.fabricDown := rfl
@[simp] theorem State.mapGroup_fabricReset (s : State) (n k : Nat) (f : Group → Group) : (s.mapGroup n k f).fabricReset = s.fabricReset := rfl
@[simp] theorem State.mapGroup_bridgeFenced (s : State) (n k : Nat) (f : Group → Group) : (s.mapGroup n k f).bridgeFenced = s.bridgeFenced := rfl
@[simp] theorem State.mapGroup_failed (s : State) (n k : Nat) (f : Group → Group) : (s.mapGroup n k f).failed = s.failed := rfl
@[simp] theorem State.mapGroup_port0 (s : State) (n k : Nat) (f : Group → Group) : (s.mapGroup n k f).port0 = s.port0 := rfl
@[simp] theorem State.mapGroup_port1 (s : State) (n k : Nat) (f : Group → Group) : (s.mapGroup n k f).port1 = s.port1 := rfl
@[simp] theorem State.mapGroup_mctp (s : State) (n k : Nat) (f : Group → Group) : (s.mapGroup n k f).mctp = s.mctp := rfl
@[simp] theorem State.mapGroup_debug (s : State) (n k : Nat) (f : Group → Group) : (s.mapGroup n k f).debug = s.debug := rfl
@[simp] theorem State.mapGroup_aperture (s : State) (n k : Nat) (f : Group → Group) : (s.mapGroup n k f).aperture = s.aperture := rfl
@[simp] theorem State.mapGroup_apertureData (s : State) (n k : Nat) (f : Group → Group) : (s.mapGroup n k f).apertureData = s.apertureData := rfl
@[simp] theorem State.mapGroup_peerReply (s : State) (n k : Nat) (f : Group → Group) : (s.mapGroup n k f).peerReply = s.peerReply := rfl
@[simp] theorem State.mapGroup_owner (s : State) (n k : Nat) (f : Group → Group) : (s.mapGroup n k f).owner = s.owner := rfl
@[simp] theorem State.mapGroup_offer (s : State) (n k : Nat) (f : Group → Group) : (s.mapGroup n k f).offer = s.offer := rfl
@[simp] theorem State.mapGroup_ownerChanges (s : State) (n k : Nat) (f : Group → Group) : (s.mapGroup n k f).ownerChanges = s.ownerChanges := rfl
@[simp] theorem State.mapGroup_eventSeq (s : State) (n k : Nat) (f : Group → Group) : (s.mapGroup n k f).eventSeq = s.eventSeq := rfl
@[simp] theorem State.mapGroup_partitions (s : State) (n k : Nat) (f : Group → Group) : (s.mapGroup n k f).partitions = s.partitions := rfl
@[simp] theorem State.mapGroup_patchStage (s : State) (n k : Nat) (f : Group → Group) : (s.mapGroup n k f).patchStage = s.patchStage := rfl
@[simp] theorem State.mapGroup_patch (s : State) (n k : Nat) (f : Group → Group) : (s.mapGroup n k f).patch = s.patch := rfl
@[simp] theorem State.mapGroup_launchRun (s : State) (n k : Nat) (f : Group → Group) : (s.mapGroup n k f).launchRun = s.launchRun := rfl
@[simp] theorem State.mapGroup_power (s : State) (n k : Nat) (f : Group → Group) : (s.mapGroup n k f).power = s.power := rfl
@[simp] theorem State.mapGroup_cap (s : State) (n k : Nat) (f : Group → Group) : (s.mapGroup n k f).cap = s.cap := rfl
@[simp] theorem State.mapGroup_duty (s : State) (n k : Nat) (f : Group → Group) : (s.mapGroup n k f).duty = s.duty := rfl
@[simp] theorem State.mapGroup_idleSince (s : State) (n k : Nat) (f : Group → Group) : (s.mapGroup n k f).idleSince = s.idleSince := rfl
@[simp] theorem State.mapGroup_halted (s : State) (n k : Nat) (f : Group → Group) : (s.mapGroup n k f).halted = s.halted := rfl
@[simp] theorem State.mapGroup_sensors (s : State) (n k : Nat) (f : Group → Group) : (s.mapGroup n k f).sensors = s.sensors := rfl
@[simp] theorem State.mapGroup_sensorLevel (s : State) (n k : Nat) (f : Group → Group) : (s.mapGroup n k f).sensorLevel = s.sensorLevel := rfl
@[simp] theorem State.mapGroup_errors (s : State) (n k : Nat) (f : Group → Group) : (s.mapGroup n k f).errors = s.errors := rfl
@[simp] theorem State.mapGroup_retired (s : State) (n k : Nat) (f : Group → Group) : (s.mapGroup n k f).retired = s.retired := rfl
@[simp] theorem State.mapGroup_fencedUnits (s : State) (n k : Nat) (f : Group → Group) : (s.mapGroup n k f).fencedUnits = s.fencedUnits := rfl
@[simp] theorem State.mapGroup_fencedWays (s : State) (n k : Nat) (f : Group → Group) : (s.mapGroup n k f).fencedWays = s.fencedWays := rfl
@[simp] theorem State.mapGroup_spdmCount (s : State) (n k : Nat) (f : Group → Group) : (s.mapGroup n k f).spdmCount = s.spdmCount := rfl
@[simp] theorem State.mapGroup_spdmLarge (s : State) (n k : Nat) (f : Group → Group) : (s.mapGroup n k f).spdmLarge = s.spdmLarge := rfl
@[simp] theorem State.mapGroup_spdmLogs (s : State) (n k : Nat) (f : Group → Group) : (s.mapGroup n k f).spdmLogs = s.spdmLogs := rfl
@[simp] theorem State.mapGroup_response (s : State) (n k : Nat) (f : Group → Group) : (s.mapGroup n k f).response = s.response := rfl
@[simp] theorem State.mapGroup_rung (s : State) (n k : Nat) (f : Group → Group) : (s.mapGroup n k f).rung = s.rung := rfl
@[simp] theorem State.mapGroup_modeChange (s : State) (n k : Nat) (f : Group → Group) : (s.mapGroup n k f).modeChange = s.modeChange := rfl
@[simp] theorem State.mapGroup_diagnostics (s : State) (n k : Nat) (f : Group → Group) : (s.mapGroup n k f).diagnostics = s.diagnostics := rfl
@[simp] theorem State.mapGroup_outputs (s : State) (n k : Nat) (f : Group → Group) : (s.mapGroup n k f).outputs = s.outputs := rfl
@[simp] theorem State.mapGroup_agenda (s : State) (n k : Nat) (f : Group → Group) : (s.mapGroup n k f).agenda = s.agenda := rfl
@[simp] theorem State.mapGroup_turn (s : State) (n k : Nat) (f : Group → Group) : (s.mapGroup n k f).turn = s.turn := rfl
@[simp] theorem State.mapGroup_focus (s : State) (n k : Nat) (f : Group → Group) : (s.mapGroup n k f).focus = s.focus := rfl
@[simp] theorem State.mapGroup_sel (s : State) (n k : Nat) (f : Group → Group) : (s.mapGroup n k f).sel = s.sel := rfl

@[simp] theorem State.mapLaunch_cycle (s : State) (n : Nat) (f : Launch → Launch) : (s.mapLaunch n f).cycle = s.cycle := rfl
@[simp] theorem State.mapLaunch_cores (s : State) (n : Nat) (f : Launch → Launch) : (s.mapLaunch n f).cores = s.cores := rfl
@[simp] theorem State.mapLaunch_fenced (s : State) (n : Nat) (f : Launch → Launch) : (s.mapLaunch n f).fenced = s.fenced := rfl
@[simp] theorem State.mapLaunch_die0 (s : State) (n : Nat) (f : Launch → Launch) : (s.mapLaunch n f).die0 = s.die0 := rfl
@[simp] theorem State.mapLaunch_die1 (s : State) (n : Nat) (f : Launch → Launch) : (s.mapLaunch n f).die1 = s.die1 := rfl
@[simp] theorem State.mapLaunch_dram (s : State) (n : Nat) (f : Launch → Launch) : (s.mapLaunch n f).dram = s.dram := rfl
@[simp] theorem State.mapLaunch_poisoned (s : State) (n : Nat) (f : Launch → Launch) : (s.mapLaunch n f).poisoned = s.poisoned := rfl
@[simp] theorem State.mapLaunch_tier0 (s : State) (n : Nat) (f : Launch → Launch) : (s.mapLaunch n f).tier0 = s.tier0 := rfl
@[simp] theorem State.mapLaunch_tier1 (s : State) (n : Nat) (f : Launch → Launch) : (s.mapLaunch n f).tier1 = s.tier1 := rfl
@[simp] theorem State.mapLaunch_hostMem (s : State) (n : Nat) (f : Launch → Launch) : (s.mapLaunch n f).hostMem = s.hostMem := rfl
@[simp] theorem State.mapLaunch_hostLines (s : State) (n : Nat) (f : Launch → Launch) : (s.mapLaunch n f).hostLines = s.hostLines := rfl
@[simp] theorem State.mapLaunch_hostAcks (s : State) (n : Nat) (f : Launch → Launch) : (s.mapLaunch n f).hostAcks = s.hostAcks := rfl
@[simp] theorem State.mapLaunch_launchSeq (s : State) (n : Nat) (f : Launch → Launch) : (s.mapLaunch n f).launchSeq = s.launchSeq := rfl
@[simp] theorem State.mapLaunch_kvs (s : State) (n : Nat) (f : Launch → Launch) : (s.mapLaunch n f).kvs = s.kvs := rfl
@[simp] theorem State.mapLaunch_routes (s : State) (n : Nat) (f : Launch → Launch) : (s.mapLaunch n f).routes = s.routes := rfl
@[simp] theorem State.mapLaunch_rowsOut (s : State) (n : Nat) (f : Launch → Launch) : (s.mapLaunch n f).rowsOut = s.rowsOut := rfl
@[simp] theorem State.mapLaunch_returns (s : State) (n : Nat) (f : Launch → Launch) : (s.mapLaunch n f).returns = s.returns := rfl
@[simp] theorem State.mapLaunch_puts (s : State) (n : Nat) (f : Launch → Launch) : (s.mapLaunch n f).puts = s.puts := rfl
@[simp] theorem State.mapLaunch_putSeq (s : State) (n : Nat) (f : Launch → Launch) : (s.mapLaunch n f).putSeq = s.putSeq := rfl
@[simp] theorem State.mapLaunch_exposures (s : State) (n : Nat) (f : Launch → Launch) : (s.mapLaunch n f).exposures = s.exposures := rfl
@[simp] theorem State.mapLaunch_windowDrops (s : State) (n : Nat) (f : Launch → Launch) : (s.mapLaunch n f).windowDrops = s.windowDrops := rfl
@[simp] theorem State.mapLaunch_registrations (s : State) (n : Nat) (f : Launch → Launch) : (s.mapLaunch n f).registrations = s.registrations := rfl
@[simp] theorem State.mapLaunch_peers (s : State) (n : Nat) (f : Launch → Launch) : (s.mapLaunch n f).peers = s.peers := rfl
@[simp] theorem State.mapLaunch_bindings (s : State) (n : Nat) (f : Launch → Launch) : (s.mapLaunch n f).bindings = s.bindings := rfl
@[simp] theorem State.mapLaunch_channels (s : State) (n : Nat) (f : Launch → Launch) : (s.mapLaunch n f).channels = s.channels := rfl
@[simp] theorem State.mapLaunch_device (s : State) (n : Nat) (f : Launch → Launch) : (s.mapLaunch n f).device = s.device := rfl
@[simp] theorem State.mapLaunch_partitionKey (s : State) (n : Nat) (f : Launch → Launch) : (s.mapLaunch n f).partitionKey = s.partitionKey := rfl
@[simp] theorem State.mapLaunch_routeMap (s : State) (n : Nat) (f : Launch → Launch) : (s.mapLaunch n f).routeMap = s.routeMap := rfl
@[simp] theorem State.mapLaunch_links (s : State) (n : Nat) (f : Launch → Launch) : (s.mapLaunch n f).links = s.links := rfl
@[simp] theorem State.mapLaunch_fabricDown (s : State) (n : Nat) (f : Launch → Launch) : (s.mapLaunch n f).fabricDown = s.fabricDown := rfl
@[simp] theorem State.mapLaunch_fabricReset (s : State) (n : Nat) (f : Launch → Launch) : (s.mapLaunch n f).fabricReset = s.fabricReset := rfl
@[simp] theorem State.mapLaunch_bridgeFenced (s : State) (n : Nat) (f : Launch → Launch) : (s.mapLaunch n f).bridgeFenced = s.bridgeFenced := rfl
@[simp] theorem State.mapLaunch_failed (s : State) (n : Nat) (f : Launch → Launch) : (s.mapLaunch n f).failed = s.failed := rfl
@[simp] theorem State.mapLaunch_port0 (s : State) (n : Nat) (f : Launch → Launch) : (s.mapLaunch n f).port0 = s.port0 := rfl
@[simp] theorem State.mapLaunch_port1 (s : State) (n : Nat) (f : Launch → Launch) : (s.mapLaunch n f).port1 = s.port1 := rfl
@[simp] theorem State.mapLaunch_mctp (s : State) (n : Nat) (f : Launch → Launch) : (s.mapLaunch n f).mctp = s.mctp := rfl
@[simp] theorem State.mapLaunch_debug (s : State) (n : Nat) (f : Launch → Launch) : (s.mapLaunch n f).debug = s.debug := rfl
@[simp] theorem State.mapLaunch_aperture (s : State) (n : Nat) (f : Launch → Launch) : (s.mapLaunch n f).aperture = s.aperture := rfl
@[simp] theorem State.mapLaunch_apertureData (s : State) (n : Nat) (f : Launch → Launch) : (s.mapLaunch n f).apertureData = s.apertureData := rfl
@[simp] theorem State.mapLaunch_peerReply (s : State) (n : Nat) (f : Launch → Launch) : (s.mapLaunch n f).peerReply = s.peerReply := rfl
@[simp] theorem State.mapLaunch_owner (s : State) (n : Nat) (f : Launch → Launch) : (s.mapLaunch n f).owner = s.owner := rfl
@[simp] theorem State.mapLaunch_offer (s : State) (n : Nat) (f : Launch → Launch) : (s.mapLaunch n f).offer = s.offer := rfl
@[simp] theorem State.mapLaunch_ownerChanges (s : State) (n : Nat) (f : Launch → Launch) : (s.mapLaunch n f).ownerChanges = s.ownerChanges := rfl
@[simp] theorem State.mapLaunch_eventSeq (s : State) (n : Nat) (f : Launch → Launch) : (s.mapLaunch n f).eventSeq = s.eventSeq := rfl
@[simp] theorem State.mapLaunch_partitions (s : State) (n : Nat) (f : Launch → Launch) : (s.mapLaunch n f).partitions = s.partitions := rfl
@[simp] theorem State.mapLaunch_patchStage (s : State) (n : Nat) (f : Launch → Launch) : (s.mapLaunch n f).patchStage = s.patchStage := rfl
@[simp] theorem State.mapLaunch_patch (s : State) (n : Nat) (f : Launch → Launch) : (s.mapLaunch n f).patch = s.patch := rfl
@[simp] theorem State.mapLaunch_launchRun (s : State) (n : Nat) (f : Launch → Launch) : (s.mapLaunch n f).launchRun = s.launchRun := rfl
@[simp] theorem State.mapLaunch_power (s : State) (n : Nat) (f : Launch → Launch) : (s.mapLaunch n f).power = s.power := rfl
@[simp] theorem State.mapLaunch_cap (s : State) (n : Nat) (f : Launch → Launch) : (s.mapLaunch n f).cap = s.cap := rfl
@[simp] theorem State.mapLaunch_duty (s : State) (n : Nat) (f : Launch → Launch) : (s.mapLaunch n f).duty = s.duty := rfl
@[simp] theorem State.mapLaunch_idleSince (s : State) (n : Nat) (f : Launch → Launch) : (s.mapLaunch n f).idleSince = s.idleSince := rfl
@[simp] theorem State.mapLaunch_halted (s : State) (n : Nat) (f : Launch → Launch) : (s.mapLaunch n f).halted = s.halted := rfl
@[simp] theorem State.mapLaunch_sensors (s : State) (n : Nat) (f : Launch → Launch) : (s.mapLaunch n f).sensors = s.sensors := rfl
@[simp] theorem State.mapLaunch_sensorLevel (s : State) (n : Nat) (f : Launch → Launch) : (s.mapLaunch n f).sensorLevel = s.sensorLevel := rfl
@[simp] theorem State.mapLaunch_errors (s : State) (n : Nat) (f : Launch → Launch) : (s.mapLaunch n f).errors = s.errors := rfl
@[simp] theorem State.mapLaunch_retired (s : State) (n : Nat) (f : Launch → Launch) : (s.mapLaunch n f).retired = s.retired := rfl
@[simp] theorem State.mapLaunch_fencedUnits (s : State) (n : Nat) (f : Launch → Launch) : (s.mapLaunch n f).fencedUnits = s.fencedUnits := rfl
@[simp] theorem State.mapLaunch_fencedWays (s : State) (n : Nat) (f : Launch → Launch) : (s.mapLaunch n f).fencedWays = s.fencedWays := rfl
@[simp] theorem State.mapLaunch_spdmCount (s : State) (n : Nat) (f : Launch → Launch) : (s.mapLaunch n f).spdmCount = s.spdmCount := rfl
@[simp] theorem State.mapLaunch_spdmLarge (s : State) (n : Nat) (f : Launch → Launch) : (s.mapLaunch n f).spdmLarge = s.spdmLarge := rfl
@[simp] theorem State.mapLaunch_spdmLogs (s : State) (n : Nat) (f : Launch → Launch) : (s.mapLaunch n f).spdmLogs = s.spdmLogs := rfl
@[simp] theorem State.mapLaunch_response (s : State) (n : Nat) (f : Launch → Launch) : (s.mapLaunch n f).response = s.response := rfl
@[simp] theorem State.mapLaunch_rung (s : State) (n : Nat) (f : Launch → Launch) : (s.mapLaunch n f).rung = s.rung := rfl
@[simp] theorem State.mapLaunch_modeChange (s : State) (n : Nat) (f : Launch → Launch) : (s.mapLaunch n f).modeChange = s.modeChange := rfl
@[simp] theorem State.mapLaunch_diagnostics (s : State) (n : Nat) (f : Launch → Launch) : (s.mapLaunch n f).diagnostics = s.diagnostics := rfl
@[simp] theorem State.mapLaunch_outputs (s : State) (n : Nat) (f : Launch → Launch) : (s.mapLaunch n f).outputs = s.outputs := rfl
@[simp] theorem State.mapLaunch_agenda (s : State) (n : Nat) (f : Launch → Launch) : (s.mapLaunch n f).agenda = s.agenda := rfl
@[simp] theorem State.mapLaunch_turn (s : State) (n : Nat) (f : Launch → Launch) : (s.mapLaunch n f).turn = s.turn := rfl
@[simp] theorem State.mapLaunch_focus (s : State) (n : Nat) (f : Launch → Launch) : (s.mapLaunch n f).focus = s.focus := rfl
@[simp] theorem State.mapLaunch_sel (s : State) (n : Nat) (f : Launch → Launch) : (s.mapLaunch n f).sel = s.sel := rfl

/-! ## Updates of a core -/

@[simp] theorem Core.setGroup_blocks (c : Core) (k : Nat) (g : Group) : (c.setGroup k g).blocks = c.blocks := rfl
@[simp] theorem Core.setGroup_tiles (c : Core) (k : Nat) (g : Group) : (c.setGroup k g).tiles = c.tiles := rfl
@[simp] theorem Core.setGroup_tileData (c : Core) (k : Nat) (g : Group) : (c.setGroup k g).tileData = c.tileData := rfl
@[simp] theorem Core.setGroup_panels (c : Core) (k : Nat) (g : Group) : (c.setGroup k g).panels = c.panels := rfl
@[simp] theorem Core.setGroup_spad (c : Core) (k : Nat) (g : Group) : (c.setGroup k g).spad = c.spad := rfl
@[simp] theorem Core.setGroup_counters (c : Core) (k : Nat) (g : Group) : (c.setGroup k g).counters = c.counters := rfl
@[simp] theorem Core.setGroup_queues (c : Core) (k : Nat) (g : Group) : (c.setGroup k g).queues = c.queues := rfl
@[simp] theorem Core.setGroup_tables (c : Core) (k : Nat) (g : Group) : (c.setGroup k g).tables = c.tables := rfl
@[simp] theorem Core.setGroup_bars (c : Core) (k : Nat) (g : Group) : (c.setGroup k g).bars = c.bars := rfl
@[simp] theorem Core.setGroup_segs (c : Core) (k : Nat) (g : Group) : (c.setGroup k g).segs = c.segs := rfl
@[simp] theorem Core.setGroup_scheds (c : Core) (k : Nat) (g : Group) : (c.setGroup k g).scheds = c.scheds := rfl
@[simp] theorem Core.setGroup_seqQueue (c : Core) (k : Nat) (g : Group) : (c.setGroup k g).seqQueue = c.seqQueue := rfl
@[simp] theorem Core.setGroup_seqRun (c : Core) (k : Nat) (g : Group) : (c.setGroup k g).seqRun = c.seqRun := rfl
@[simp] theorem Core.setGroup_copy (c : Core) (k : Nat) (g : Group) : (c.setGroup k g).copy = c.copy := rfl
@[simp] theorem Core.setGroup_quant (c : Core) (k : Nat) (g : Group) : (c.setGroup k g).quant = c.quant := rfl
@[simp] theorem Core.setGroup_link (c : Core) (k : Nat) (g : Group) : (c.setGroup k g).link = c.link := rfl
@[simp] theorem Core.setGroup_l1 (c : Core) (k : Nat) (g : Group) : (c.setGroup k g).l1 = c.l1 := rfl
@[simp] theorem Core.setGroup_wbOut (c : Core) (k : Nat) (g : Group) : (c.setGroup k g).wbOut = c.wbOut := rfl
@[simp] theorem Core.setGroup_nextId (c : Core) (k : Nat) (g : Group) : (c.setGroup k g).nextId = c.nextId := rfl

@[simp] theorem Core.mapSched_groups (c : Core) (k : Nat) (f : Scheduler → Scheduler) : (c.mapSched k f).groups = c.groups := rfl
@[simp] theorem Core.mapSched_blocks (c : Core) (k : Nat) (f : Scheduler → Scheduler) : (c.mapSched k f).blocks = c.blocks := rfl
@[simp] theorem Core.mapSched_tiles (c : Core) (k : Nat) (f : Scheduler → Scheduler) : (c.mapSched k f).tiles = c.tiles := rfl
@[simp] theorem Core.mapSched_tileData (c : Core) (k : Nat) (f : Scheduler → Scheduler) : (c.mapSched k f).tileData = c.tileData := rfl
@[simp] theorem Core.mapSched_panels (c : Core) (k : Nat) (f : Scheduler → Scheduler) : (c.mapSched k f).panels = c.panels := rfl
@[simp] theorem Core.mapSched_spad (c : Core) (k : Nat) (f : Scheduler → Scheduler) : (c.mapSched k f).spad = c.spad := rfl
@[simp] theorem Core.mapSched_counters (c : Core) (k : Nat) (f : Scheduler → Scheduler) : (c.mapSched k f).counters = c.counters := rfl
@[simp] theorem Core.mapSched_queues (c : Core) (k : Nat) (f : Scheduler → Scheduler) : (c.mapSched k f).queues = c.queues := rfl
@[simp] theorem Core.mapSched_tables (c : Core) (k : Nat) (f : Scheduler → Scheduler) : (c.mapSched k f).tables = c.tables := rfl
@[simp] theorem Core.mapSched_bars (c : Core) (k : Nat) (f : Scheduler → Scheduler) : (c.mapSched k f).bars = c.bars := rfl
@[simp] theorem Core.mapSched_segs (c : Core) (k : Nat) (f : Scheduler → Scheduler) : (c.mapSched k f).segs = c.segs := rfl
@[simp] theorem Core.mapSched_seqQueue (c : Core) (k : Nat) (f : Scheduler → Scheduler) : (c.mapSched k f).seqQueue = c.seqQueue := rfl
@[simp] theorem Core.mapSched_seqRun (c : Core) (k : Nat) (f : Scheduler → Scheduler) : (c.mapSched k f).seqRun = c.seqRun := rfl
@[simp] theorem Core.mapSched_copy (c : Core) (k : Nat) (f : Scheduler → Scheduler) : (c.mapSched k f).copy = c.copy := rfl
@[simp] theorem Core.mapSched_quant (c : Core) (k : Nat) (f : Scheduler → Scheduler) : (c.mapSched k f).quant = c.quant := rfl
@[simp] theorem Core.mapSched_link (c : Core) (k : Nat) (f : Scheduler → Scheduler) : (c.mapSched k f).link = c.link := rfl
@[simp] theorem Core.mapSched_l1 (c : Core) (k : Nat) (f : Scheduler → Scheduler) : (c.mapSched k f).l1 = c.l1 := rfl
@[simp] theorem Core.mapSched_wbOut (c : Core) (k : Nat) (f : Scheduler → Scheduler) : (c.mapSched k f).wbOut = c.wbOut := rfl
@[simp] theorem Core.mapSched_nextId (c : Core) (k : Nat) (f : Scheduler → Scheduler) : (c.mapSched k f).nextId = c.nextId := rfl

@[simp] theorem Core.mapBlock_groups (c : Core) (l i : Nat) (f : Block → Block) : (c.mapBlock l i f).groups = c.groups := rfl
@[simp] theorem Core.mapBlock_tiles (c : Core) (l i : Nat) (f : Block → Block) : (c.mapBlock l i f).tiles = c.tiles := rfl
@[simp] theorem Core.mapBlock_tileData (c : Core) (l i : Nat) (f : Block → Block) : (c.mapBlock l i f).tileData = c.tileData := rfl
@[simp] theorem Core.mapBlock_panels (c : Core) (l i : Nat) (f : Block → Block) : (c.mapBlock l i f).panels = c.panels := rfl
@[simp] theorem Core.mapBlock_spad (c : Core) (l i : Nat) (f : Block → Block) : (c.mapBlock l i f).spad = c.spad := rfl
@[simp] theorem Core.mapBlock_counters (c : Core) (l i : Nat) (f : Block → Block) : (c.mapBlock l i f).counters = c.counters := rfl
@[simp] theorem Core.mapBlock_queues (c : Core) (l i : Nat) (f : Block → Block) : (c.mapBlock l i f).queues = c.queues := rfl
@[simp] theorem Core.mapBlock_tables (c : Core) (l i : Nat) (f : Block → Block) : (c.mapBlock l i f).tables = c.tables := rfl
@[simp] theorem Core.mapBlock_bars (c : Core) (l i : Nat) (f : Block → Block) : (c.mapBlock l i f).bars = c.bars := rfl
@[simp] theorem Core.mapBlock_segs (c : Core) (l i : Nat) (f : Block → Block) : (c.mapBlock l i f).segs = c.segs := rfl
@[simp] theorem Core.mapBlock_scheds (c : Core) (l i : Nat) (f : Block → Block) : (c.mapBlock l i f).scheds = c.scheds := rfl
@[simp] theorem Core.mapBlock_seqQueue (c : Core) (l i : Nat) (f : Block → Block) : (c.mapBlock l i f).seqQueue = c.seqQueue := rfl
@[simp] theorem Core.mapBlock_seqRun (c : Core) (l i : Nat) (f : Block → Block) : (c.mapBlock l i f).seqRun = c.seqRun := rfl
@[simp] theorem Core.mapBlock_copy (c : Core) (l i : Nat) (f : Block → Block) : (c.mapBlock l i f).copy = c.copy := rfl
@[simp] theorem Core.mapBlock_quant (c : Core) (l i : Nat) (f : Block → Block) : (c.mapBlock l i f).quant = c.quant := rfl
@[simp] theorem Core.mapBlock_link (c : Core) (l i : Nat) (f : Block → Block) : (c.mapBlock l i f).link = c.link := rfl
@[simp] theorem Core.mapBlock_l1 (c : Core) (l i : Nat) (f : Block → Block) : (c.mapBlock l i f).l1 = c.l1 := rfl
@[simp] theorem Core.mapBlock_wbOut (c : Core) (l i : Nat) (f : Block → Block) : (c.mapBlock l i f).wbOut = c.wbOut := rfl
@[simp] theorem Core.mapBlock_nextId (c : Core) (l i : Nat) (f : Block → Block) : (c.mapBlock l i f).nextId = c.nextId := rfl

@[simp] theorem Core.setTile_groups (c : Core) (k : Nat) (x : Tile) : (c.setTile k x).groups = c.groups := rfl
@[simp] theorem Core.setTile_blocks (c : Core) (k : Nat) (x : Tile) : (c.setTile k x).blocks = c.blocks := rfl
@[simp] theorem Core.setTile_tileData (c : Core) (k : Nat) (x : Tile) : (c.setTile k x).tileData = c.tileData := rfl
@[simp] theorem Core.setTile_panels (c : Core) (k : Nat) (x : Tile) : (c.setTile k x).panels = c.panels := rfl
@[simp] theorem Core.setTile_spad (c : Core) (k : Nat) (x : Tile) : (c.setTile k x).spad = c.spad := rfl
@[simp] theorem Core.setTile_counters (c : Core) (k : Nat) (x : Tile) : (c.setTile k x).counters = c.counters := rfl
@[simp] theorem Core.setTile_queues (c : Core) (k : Nat) (x : Tile) : (c.setTile k x).queues = c.queues := rfl
@[simp] theorem Core.setTile_tables (c : Core) (k : Nat) (x : Tile) : (c.setTile k x).tables = c.tables := rfl
@[simp] theorem Core.setTile_bars (c : Core) (k : Nat) (x : Tile) : (c.setTile k x).bars = c.bars := rfl
@[simp] theorem Core.setTile_segs (c : Core) (k : Nat) (x : Tile) : (c.setTile k x).segs = c.segs := rfl
@[simp] theorem Core.setTile_scheds (c : Core) (k : Nat) (x : Tile) : (c.setTile k x).scheds = c.scheds := rfl
@[simp] theorem Core.setTile_seqQueue (c : Core) (k : Nat) (x : Tile) : (c.setTile k x).seqQueue = c.seqQueue := rfl
@[simp] theorem Core.setTile_seqRun (c : Core) (k : Nat) (x : Tile) : (c.setTile k x).seqRun = c.seqRun := rfl
@[simp] theorem Core.setTile_copy (c : Core) (k : Nat) (x : Tile) : (c.setTile k x).copy = c.copy := rfl
@[simp] theorem Core.setTile_quant (c : Core) (k : Nat) (x : Tile) : (c.setTile k x).quant = c.quant := rfl
@[simp] theorem Core.setTile_link (c : Core) (k : Nat) (x : Tile) : (c.setTile k x).link = c.link := rfl
@[simp] theorem Core.setTile_l1 (c : Core) (k : Nat) (x : Tile) : (c.setTile k x).l1 = c.l1 := rfl
@[simp] theorem Core.setTile_wbOut (c : Core) (k : Nat) (x : Tile) : (c.setTile k x).wbOut = c.wbOut := rfl
@[simp] theorem Core.setTile_nextId (c : Core) (k : Nat) (x : Tile) : (c.setTile k x).nextId = c.nextId := rfl

@[simp] theorem Core.tick_groups (c : Core)  : (c.tick).groups = c.groups := rfl
@[simp] theorem Core.tick_blocks (c : Core)  : (c.tick).blocks = c.blocks := rfl
@[simp] theorem Core.tick_tiles (c : Core)  : (c.tick).tiles = c.tiles := rfl
@[simp] theorem Core.tick_tileData (c : Core)  : (c.tick).tileData = c.tileData := rfl
@[simp] theorem Core.tick_panels (c : Core)  : (c.tick).panels = c.panels := rfl
@[simp] theorem Core.tick_spad (c : Core)  : (c.tick).spad = c.spad := rfl
@[simp] theorem Core.tick_counters (c : Core)  : (c.tick).counters = c.counters := rfl
@[simp] theorem Core.tick_queues (c : Core)  : (c.tick).queues = c.queues := rfl
@[simp] theorem Core.tick_tables (c : Core)  : (c.tick).tables = c.tables := rfl
@[simp] theorem Core.tick_bars (c : Core)  : (c.tick).bars = c.bars := rfl
@[simp] theorem Core.tick_segs (c : Core)  : (c.tick).segs = c.segs := rfl
@[simp] theorem Core.tick_scheds (c : Core)  : (c.tick).scheds = c.scheds := rfl
@[simp] theorem Core.tick_seqQueue (c : Core)  : (c.tick).seqQueue = c.seqQueue := rfl
@[simp] theorem Core.tick_seqRun (c : Core)  : (c.tick).seqRun = c.seqRun := rfl
@[simp] theorem Core.tick_copy (c : Core)  : (c.tick).copy = c.copy := rfl
@[simp] theorem Core.tick_quant (c : Core)  : (c.tick).quant = c.quant := rfl
@[simp] theorem Core.tick_link (c : Core)  : (c.tick).link = c.link := rfl
@[simp] theorem Core.tick_l1 (c : Core)  : (c.tick).l1 = c.l1 := rfl
@[simp] theorem Core.tick_wbOut (c : Core)  : (c.tick).wbOut = c.wbOut := rfl

@[simp] theorem Core.mapGroup_blocks (c : Core) (k : Nat) (f : Group → Group) : (c.mapGroup k f).blocks = c.blocks := by
  unfold Core.mapGroup; split <;> rfl
@[simp] theorem Core.mapGroup_tiles (c : Core) (k : Nat) (f : Group → Group) : (c.mapGroup k f).tiles = c.tiles := by
  unfold Core.mapGroup; split <;> rfl
@[simp] theorem Core.mapGroup_tileData (c : Core) (k : Nat) (f : Group → Group) : (c.mapGroup k f).tileData = c.tileData := by
  unfold Core.mapGroup; split <;> rfl
@[simp] theorem Core.mapGroup_panels (c : Core) (k : Nat) (f : Group → Group) : (c.mapGroup k f).panels = c.panels := by
  unfold Core.mapGroup; split <;> rfl
@[simp] theorem Core.mapGroup_spad (c : Core) (k : Nat) (f : Group → Group) : (c.mapGroup k f).spad = c.spad := by
  unfold Core.mapGroup; split <;> rfl
@[simp] theorem Core.mapGroup_counters (c : Core) (k : Nat) (f : Group → Group) : (c.mapGroup k f).counters = c.counters := by
  unfold Core.mapGroup; split <;> rfl
@[simp] theorem Core.mapGroup_queues (c : Core) (k : Nat) (f : Group → Group) : (c.mapGroup k f).queues = c.queues := by
  unfold Core.mapGroup; split <;> rfl
@[simp] theorem Core.mapGroup_tables (c : Core) (k : Nat) (f : Group → Group) : (c.mapGroup k f).tables = c.tables := by
  unfold Core.mapGroup; split <;> rfl
@[simp] theorem Core.mapGroup_bars (c : Core) (k : Nat) (f : Group → Group) : (c.mapGroup k f).bars = c.bars := by
  unfold Core.mapGroup; split <;> rfl
@[simp] theorem Core.mapGroup_segs (c : Core) (k : Nat) (f : Group → Group) : (c.mapGroup k f).segs = c.segs := by
  unfold Core.mapGroup; split <;> rfl
@[simp] theorem Core.mapGroup_scheds (c : Core) (k : Nat) (f : Group → Group) : (c.mapGroup k f).scheds = c.scheds := by
  unfold Core.mapGroup; split <;> rfl
@[simp] theorem Core.mapGroup_seqQueue (c : Core) (k : Nat) (f : Group → Group) : (c.mapGroup k f).seqQueue = c.seqQueue := by
  unfold Core.mapGroup; split <;> rfl
@[simp] theorem Core.mapGroup_seqRun (c : Core) (k : Nat) (f : Group → Group) : (c.mapGroup k f).seqRun = c.seqRun := by
  unfold Core.mapGroup; split <;> rfl
@[simp] theorem Core.mapGroup_copy (c : Core) (k : Nat) (f : Group → Group) : (c.mapGroup k f).copy = c.copy := by
  unfold Core.mapGroup; split <;> rfl
@[simp] theorem Core.mapGroup_quant (c : Core) (k : Nat) (f : Group → Group) : (c.mapGroup k f).quant = c.quant := by
  unfold Core.mapGroup; split <;> rfl
@[simp] theorem Core.mapGroup_link (c : Core) (k : Nat) (f : Group → Group) : (c.mapGroup k f).link = c.link := by
  unfold Core.mapGroup; split <;> rfl
@[simp] theorem Core.mapGroup_l1 (c : Core) (k : Nat) (f : Group → Group) : (c.mapGroup k f).l1 = c.l1 := by
  unfold Core.mapGroup; split <;> rfl
@[simp] theorem Core.mapGroup_wbOut (c : Core) (k : Nat) (f : Group → Group) : (c.mapGroup k f).wbOut = c.wbOut := by
  unfold Core.mapGroup; split <;> rfl
@[simp] theorem Core.mapGroup_nextId (c : Core) (k : Nat) (f : Group → Group) : (c.mapGroup k f).nextId = c.nextId := by
  unfold Core.mapGroup; split <;> rfl

@[simp] theorem Core.vWrite_groups (c : Core) (win : List (Option Nat)) (w : Bool) (n l : Nat) (x : Word) :
    (c.vWrite win w n l x).groups = c.groups := by
  unfold Core.vWrite; split <;> rfl
@[simp] theorem Core.vWrite_blocks (c : Core) (win : List (Option Nat)) (w : Bool) (n l : Nat) (x : Word) :
    (c.vWrite win w n l x).blocks = c.blocks := by
  unfold Core.vWrite; split <;> rfl
@[simp] theorem Core.vWrite_tiles (c : Core) (win : List (Option Nat)) (w : Bool) (n l : Nat) (x : Word) :
    (c.vWrite win w n l x).tiles = c.tiles := by
  unfold Core.vWrite; split <;> rfl
@[simp] theorem Core.vWrite_panels (c : Core) (win : List (Option Nat)) (w : Bool) (n l : Nat) (x : Word) :
    (c.vWrite win w n l x).panels = c.panels := by
  unfold Core.vWrite; split <;> rfl
@[simp] theorem Core.vWrite_spad (c : Core) (win : List (Option Nat)) (w : Bool) (n l : Nat) (x : Word) :
    (c.vWrite win w n l x).spad = c.spad := by
  unfold Core.vWrite; split <;> rfl
@[simp] theorem Core.vWrite_counters (c : Core) (win : List (Option Nat)) (w : Bool) (n l : Nat) (x : Word) :
    (c.vWrite win w n l x).counters = c.counters := by
  unfold Core.vWrite; split <;> rfl
@[simp] theorem Core.vWrite_queues (c : Core) (win : List (Option Nat)) (w : Bool) (n l : Nat) (x : Word) :
    (c.vWrite win w n l x).queues = c.queues := by
  unfold Core.vWrite; split <;> rfl
@[simp] theorem Core.vWrite_tables (c : Core) (win : List (Option Nat)) (w : Bool) (n l : Nat) (x : Word) :
    (c.vWrite win w n l x).tables = c.tables := by
  unfold Core.vWrite; split <;> rfl
@[simp] theorem Core.vWrite_bars (c : Core) (win : List (Option Nat)) (w : Bool) (n l : Nat) (x : Word) :
    (c.vWrite win w n l x).bars = c.bars := by
  unfold Core.vWrite; split <;> rfl
@[simp] theorem Core.vWrite_segs (c : Core) (win : List (Option Nat)) (w : Bool) (n l : Nat) (x : Word) :
    (c.vWrite win w n l x).segs = c.segs := by
  unfold Core.vWrite; split <;> rfl
@[simp] theorem Core.vWrite_scheds (c : Core) (win : List (Option Nat)) (w : Bool) (n l : Nat) (x : Word) :
    (c.vWrite win w n l x).scheds = c.scheds := by
  unfold Core.vWrite; split <;> rfl
@[simp] theorem Core.vWrite_seqQueue (c : Core) (win : List (Option Nat)) (w : Bool) (n l : Nat) (x : Word) :
    (c.vWrite win w n l x).seqQueue = c.seqQueue := by
  unfold Core.vWrite; split <;> rfl
@[simp] theorem Core.vWrite_seqRun (c : Core) (win : List (Option Nat)) (w : Bool) (n l : Nat) (x : Word) :
    (c.vWrite win w n l x).seqRun = c.seqRun := by
  unfold Core.vWrite; split <;> rfl
@[simp] theorem Core.vWrite_copy (c : Core) (win : List (Option Nat)) (w : Bool) (n l : Nat) (x : Word) :
    (c.vWrite win w n l x).copy = c.copy := by
  unfold Core.vWrite; split <;> rfl
@[simp] theorem Core.vWrite_quant (c : Core) (win : List (Option Nat)) (w : Bool) (n l : Nat) (x : Word) :
    (c.vWrite win w n l x).quant = c.quant := by
  unfold Core.vWrite; split <;> rfl
@[simp] theorem Core.vWrite_link (c : Core) (win : List (Option Nat)) (w : Bool) (n l : Nat) (x : Word) :
    (c.vWrite win w n l x).link = c.link := by
  unfold Core.vWrite; split <;> rfl
@[simp] theorem Core.vWrite_l1 (c : Core) (win : List (Option Nat)) (w : Bool) (n l : Nat) (x : Word) :
    (c.vWrite win w n l x).l1 = c.l1 := by
  unfold Core.vWrite; split <;> rfl
@[simp] theorem Core.vWrite_wbOut (c : Core) (win : List (Option Nat)) (w : Bool) (n l : Nat) (x : Word) :
    (c.vWrite win w n l x).wbOut = c.wbOut := by
  unfold Core.vWrite; split <;> rfl
@[simp] theorem Core.vWrite_nextId (c : Core) (win : List (Option Nat)) (w : Bool) (n l : Nat) (x : Word) :
    (c.vWrite win w n l x).nextId = c.nextId := by
  unfold Core.vWrite; split <;> rfl

/-! ## Updates of a group -/

@[simp] theorem Group.setS_launch (g : Group) (n : Nat) (x : DWord) : (g.setS n x).launch = g.launch := rfl
@[simp] theorem Group.setS_block (g : Group) (n : Nat) (x : DWord) : (g.setS n x).block = g.block := rfl
@[simp] theorem Group.setS_index (g : Group) (n : Nat) (x : DWord) : (g.setS n x).index = g.index := rfl
@[simp] theorem Group.setS_ended (g : Group) (n : Nat) (x : DWord) : (g.setS n x).ended = g.ended := rfl
@[simp] theorem Group.setS_preds (g : Group) (n : Nat) (x : DWord) : (g.setS n x).preds = g.preds := rfl
@[simp] theorem Group.setS_lpc (g : Group) (n : Nat) (x : DWord) : (g.setS n x).lpc = g.lpc := rfl
@[simp] theorem Group.setS_lanes (g : Group) (n : Nat) (x : DWord) : (g.setS n x).lanes = g.lanes := rfl
@[simp] theorem Group.setS_lfr (g : Group) (n : Nat) (x : DWord) : (g.setS n x).lfr = g.lfr := rfl
@[simp] theorem Group.setS_mode (g : Group) (n : Nat) (x : DWord) : (g.setS n x).mode = g.mode := rfl
@[simp] theorem Group.setS_modeNow (g : Group) (n : Nat) (x : DWord) : (g.setS n x).modeNow = g.modeNow := rfl
@[simp] theorem Group.setS_winmap (g : Group) (n : Nat) (x : DWord) : (g.setS n x).winmap = g.winmap := rfl
@[simp] theorem Group.setS_handler (g : Group) (n : Nat) (x : DWord) : (g.setS n x).handler = g.handler := rfl
@[simp] theorem Group.setS_resumeHdr (g : Group) (n : Nat) (x : DWord) : (g.setS n x).resumeHdr = g.resumeHdr := rfl
@[simp] theorem Group.setS_laneHdr (g : Group) (n : Nat) (x : DWord) : (g.setS n x).laneHdr = g.laneHdr := rfl
@[simp] theorem Group.setS_due (g : Group) (n : Nat) (x : DWord) : (g.setS n x).due = g.due := rfl
@[simp] theorem Group.setS_delivered (g : Group) (n : Nat) (x : DWord) : (g.setS n x).delivered = g.delivered := rfl
@[simp] theorem Group.setS_gangLost (g : Group) (n : Nat) (x : DWord) : (g.setS n x).gangLost = g.gangLost := rfl
@[simp] theorem Group.setS_oplog (g : Group) (n : Nat) (x : DWord) : (g.setS n x).oplog = g.oplog := rfl
@[simp] theorem Group.setS_faultLog (g : Group) (n : Nat) (x : DWord) : (g.setS n x).faultLog = g.faultLog := rfl
@[simp] theorem Group.setS_late (g : Group) (n : Nat) (x : DWord) : (g.setS n x).late = g.late := rfl
@[simp] theorem Group.setS_tokens (g : Group) (n : Nat) (x : DWord) : (g.setS n x).tokens = g.tokens := rfl
@[simp] theorem Group.setS_pend (g : Group) (n : Nat) (x : DWord) : (g.setS n x).pend = g.pend := rfl
@[simp] theorem Group.setS_wait (g : Group) (n : Nat) (x : DWord) : (g.setS n x).wait = g.wait := rfl
@[simp] theorem Group.setS_cont (g : Group) (n : Nat) (x : DWord) : (g.setS n x).cont = g.cont := rfl
@[simp] theorem Group.setS_predicted (g : Group) (n : Nat) (x : DWord) : (g.setS n x).predicted = g.predicted := rfl
@[simp] theorem Group.setS_ready (g : Group) (n : Nat) (x : DWord) : (g.setS n x).ready = g.ready := rfl
@[simp] theorem Group.setS_age (g : Group) (n : Nat) (x : DWord) : (g.setS n x).age = g.age := rfl
@[simp] theorem Group.setS_stopped (g : Group) (n : Nat) (x : DWord) : (g.setS n x).stopped = g.stopped := rfl
@[simp] theorem Group.setS_marks (g : Group) (n : Nat) (x : DWord) : (g.setS n x).marks = g.marks := rfl
@[simp] theorem Group.setS_stopCause (g : Group) (n : Nat) (x : DWord) : (g.setS n x).stopCause = g.stopCause := rfl

@[simp] theorem Group.setP_launch (g : Group) (p : Nat) (m x : LaneMask) : (g.setP p m x).launch = g.launch := rfl
@[simp] theorem Group.setP_block (g : Group) (p : Nat) (m x : LaneMask) : (g.setP p m x).block = g.block := rfl
@[simp] theorem Group.setP_index (g : Group) (p : Nat) (m x : LaneMask) : (g.setP p m x).index = g.index := rfl
@[simp] theorem Group.setP_ended (g : Group) (p : Nat) (m x : LaneMask) : (g.setP p m x).ended = g.ended := rfl
@[simp] theorem Group.setP_sregs (g : Group) (p : Nat) (m x : LaneMask) : (g.setP p m x).sregs = g.sregs := rfl
@[simp] theorem Group.setP_lpc (g : Group) (p : Nat) (m x : LaneMask) : (g.setP p m x).lpc = g.lpc := rfl
@[simp] theorem Group.setP_lanes (g : Group) (p : Nat) (m x : LaneMask) : (g.setP p m x).lanes = g.lanes := rfl
@[simp] theorem Group.setP_lfr (g : Group) (p : Nat) (m x : LaneMask) : (g.setP p m x).lfr = g.lfr := rfl
@[simp] theorem Group.setP_mode (g : Group) (p : Nat) (m x : LaneMask) : (g.setP p m x).mode = g.mode := rfl
@[simp] theorem Group.setP_modeNow (g : Group) (p : Nat) (m x : LaneMask) : (g.setP p m x).modeNow = g.modeNow := rfl
@[simp] theorem Group.setP_winmap (g : Group) (p : Nat) (m x : LaneMask) : (g.setP p m x).winmap = g.winmap := rfl
@[simp] theorem Group.setP_handler (g : Group) (p : Nat) (m x : LaneMask) : (g.setP p m x).handler = g.handler := rfl
@[simp] theorem Group.setP_resumeHdr (g : Group) (p : Nat) (m x : LaneMask) : (g.setP p m x).resumeHdr = g.resumeHdr := rfl
@[simp] theorem Group.setP_laneHdr (g : Group) (p : Nat) (m x : LaneMask) : (g.setP p m x).laneHdr = g.laneHdr := rfl
@[simp] theorem Group.setP_due (g : Group) (p : Nat) (m x : LaneMask) : (g.setP p m x).due = g.due := rfl
@[simp] theorem Group.setP_delivered (g : Group) (p : Nat) (m x : LaneMask) : (g.setP p m x).delivered = g.delivered := rfl
@[simp] theorem Group.setP_gangLost (g : Group) (p : Nat) (m x : LaneMask) : (g.setP p m x).gangLost = g.gangLost := rfl
@[simp] theorem Group.setP_oplog (g : Group) (p : Nat) (m x : LaneMask) : (g.setP p m x).oplog = g.oplog := rfl
@[simp] theorem Group.setP_faultLog (g : Group) (p : Nat) (m x : LaneMask) : (g.setP p m x).faultLog = g.faultLog := rfl
@[simp] theorem Group.setP_late (g : Group) (p : Nat) (m x : LaneMask) : (g.setP p m x).late = g.late := rfl
@[simp] theorem Group.setP_tokens (g : Group) (p : Nat) (m x : LaneMask) : (g.setP p m x).tokens = g.tokens := rfl
@[simp] theorem Group.setP_pend (g : Group) (p : Nat) (m x : LaneMask) : (g.setP p m x).pend = g.pend := rfl
@[simp] theorem Group.setP_wait (g : Group) (p : Nat) (m x : LaneMask) : (g.setP p m x).wait = g.wait := rfl
@[simp] theorem Group.setP_cont (g : Group) (p : Nat) (m x : LaneMask) : (g.setP p m x).cont = g.cont := rfl
@[simp] theorem Group.setP_predicted (g : Group) (p : Nat) (m x : LaneMask) : (g.setP p m x).predicted = g.predicted := rfl
@[simp] theorem Group.setP_ready (g : Group) (p : Nat) (m x : LaneMask) : (g.setP p m x).ready = g.ready := rfl
@[simp] theorem Group.setP_age (g : Group) (p : Nat) (m x : LaneMask) : (g.setP p m x).age = g.age := rfl
@[simp] theorem Group.setP_stopped (g : Group) (p : Nat) (m x : LaneMask) : (g.setP p m x).stopped = g.stopped := rfl
@[simp] theorem Group.setP_marks (g : Group) (p : Nat) (m x : LaneMask) : (g.setP p m x).marks = g.marks := rfl
@[simp] theorem Group.setP_stopCause (g : Group) (p : Nat) (m x : LaneMask) : (g.setP p m x).stopCause = g.stopCause := rfl

@[simp] theorem Group.addPend_launch (g : Group) (id : Nat) (op : PendOp) : (g.addPend id op).launch = g.launch := rfl
@[simp] theorem Group.addPend_block (g : Group) (id : Nat) (op : PendOp) : (g.addPend id op).block = g.block := rfl
@[simp] theorem Group.addPend_index (g : Group) (id : Nat) (op : PendOp) : (g.addPend id op).index = g.index := rfl
@[simp] theorem Group.addPend_ended (g : Group) (id : Nat) (op : PendOp) : (g.addPend id op).ended = g.ended := rfl
@[simp] theorem Group.addPend_sregs (g : Group) (id : Nat) (op : PendOp) : (g.addPend id op).sregs = g.sregs := rfl
@[simp] theorem Group.addPend_preds (g : Group) (id : Nat) (op : PendOp) : (g.addPend id op).preds = g.preds := rfl
@[simp] theorem Group.addPend_lpc (g : Group) (id : Nat) (op : PendOp) : (g.addPend id op).lpc = g.lpc := rfl
@[simp] theorem Group.addPend_lanes (g : Group) (id : Nat) (op : PendOp) : (g.addPend id op).lanes = g.lanes := rfl
@[simp] theorem Group.addPend_lfr (g : Group) (id : Nat) (op : PendOp) : (g.addPend id op).lfr = g.lfr := rfl
@[simp] theorem Group.addPend_mode (g : Group) (id : Nat) (op : PendOp) : (g.addPend id op).mode = g.mode := rfl
@[simp] theorem Group.addPend_modeNow (g : Group) (id : Nat) (op : PendOp) : (g.addPend id op).modeNow = g.modeNow := rfl
@[simp] theorem Group.addPend_winmap (g : Group) (id : Nat) (op : PendOp) : (g.addPend id op).winmap = g.winmap := rfl
@[simp] theorem Group.addPend_handler (g : Group) (id : Nat) (op : PendOp) : (g.addPend id op).handler = g.handler := rfl
@[simp] theorem Group.addPend_resumeHdr (g : Group) (id : Nat) (op : PendOp) : (g.addPend id op).resumeHdr = g.resumeHdr := rfl
@[simp] theorem Group.addPend_laneHdr (g : Group) (id : Nat) (op : PendOp) : (g.addPend id op).laneHdr = g.laneHdr := rfl
@[simp] theorem Group.addPend_due (g : Group) (id : Nat) (op : PendOp) : (g.addPend id op).due = g.due := rfl
@[simp] theorem Group.addPend_delivered (g : Group) (id : Nat) (op : PendOp) : (g.addPend id op).delivered = g.delivered := rfl
@[simp] theorem Group.addPend_gangLost (g : Group) (id : Nat) (op : PendOp) : (g.addPend id op).gangLost = g.gangLost := rfl
@[simp] theorem Group.addPend_oplog (g : Group) (id : Nat) (op : PendOp) : (g.addPend id op).oplog = g.oplog := rfl
@[simp] theorem Group.addPend_faultLog (g : Group) (id : Nat) (op : PendOp) : (g.addPend id op).faultLog = g.faultLog := rfl
@[simp] theorem Group.addPend_late (g : Group) (id : Nat) (op : PendOp) : (g.addPend id op).late = g.late := rfl
@[simp] theorem Group.addPend_tokens (g : Group) (id : Nat) (op : PendOp) : (g.addPend id op).tokens = g.tokens := rfl
@[simp] theorem Group.addPend_wait (g : Group) (id : Nat) (op : PendOp) : (g.addPend id op).wait = g.wait := rfl
@[simp] theorem Group.addPend_cont (g : Group) (id : Nat) (op : PendOp) : (g.addPend id op).cont = g.cont := rfl
@[simp] theorem Group.addPend_predicted (g : Group) (id : Nat) (op : PendOp) : (g.addPend id op).predicted = g.predicted := rfl
@[simp] theorem Group.addPend_ready (g : Group) (id : Nat) (op : PendOp) : (g.addPend id op).ready = g.ready := rfl
@[simp] theorem Group.addPend_age (g : Group) (id : Nat) (op : PendOp) : (g.addPend id op).age = g.age := rfl
@[simp] theorem Group.addPend_stopped (g : Group) (id : Nat) (op : PendOp) : (g.addPend id op).stopped = g.stopped := rfl
@[simp] theorem Group.addPend_marks (g : Group) (id : Nat) (op : PendOp) : (g.addPend id op).marks = g.marks := rfl
@[simp] theorem Group.addPend_stopCause (g : Group) (id : Nat) (op : PendOp) : (g.addPend id op).stopCause = g.stopCause := rfl

@[simp] theorem Group.dropPend_launch (g : Group) (id : Nat) : (g.dropPend id).launch = g.launch := rfl
@[simp] theorem Group.dropPend_block (g : Group) (id : Nat) : (g.dropPend id).block = g.block := rfl
@[simp] theorem Group.dropPend_index (g : Group) (id : Nat) : (g.dropPend id).index = g.index := rfl
@[simp] theorem Group.dropPend_ended (g : Group) (id : Nat) : (g.dropPend id).ended = g.ended := rfl
@[simp] theorem Group.dropPend_sregs (g : Group) (id : Nat) : (g.dropPend id).sregs = g.sregs := rfl
@[simp] theorem Group.dropPend_preds (g : Group) (id : Nat) : (g.dropPend id).preds = g.preds := rfl
@[simp] theorem Group.dropPend_lpc (g : Group) (id : Nat) : (g.dropPend id).lpc = g.lpc := rfl
@[simp] theorem Group.dropPend_lanes (g : Group) (id : Nat) : (g.dropPend id).lanes = g.lanes := rfl
@[simp] theorem Group.dropPend_lfr (g : Group) (id : Nat) : (g.dropPend id).lfr = g.lfr := rfl
@[simp] theorem Group.dropPend_mode (g : Group) (id : Nat) : (g.dropPend id).mode = g.mode := rfl
@[simp] theorem Group.dropPend_modeNow (g : Group) (id : Nat) : (g.dropPend id).modeNow = g.modeNow := rfl
@[simp] theorem Group.dropPend_winmap (g : Group) (id : Nat) : (g.dropPend id).winmap = g.winmap := rfl
@[simp] theorem Group.dropPend_handler (g : Group) (id : Nat) : (g.dropPend id).handler = g.handler := rfl
@[simp] theorem Group.dropPend_resumeHdr (g : Group) (id : Nat) : (g.dropPend id).resumeHdr = g.resumeHdr := rfl
@[simp] theorem Group.dropPend_laneHdr (g : Group) (id : Nat) : (g.dropPend id).laneHdr = g.laneHdr := rfl
@[simp] theorem Group.dropPend_due (g : Group) (id : Nat) : (g.dropPend id).due = g.due := rfl
@[simp] theorem Group.dropPend_delivered (g : Group) (id : Nat) : (g.dropPend id).delivered = g.delivered := rfl
@[simp] theorem Group.dropPend_gangLost (g : Group) (id : Nat) : (g.dropPend id).gangLost = g.gangLost := rfl
@[simp] theorem Group.dropPend_oplog (g : Group) (id : Nat) : (g.dropPend id).oplog = g.oplog := rfl
@[simp] theorem Group.dropPend_faultLog (g : Group) (id : Nat) : (g.dropPend id).faultLog = g.faultLog := rfl
@[simp] theorem Group.dropPend_late (g : Group) (id : Nat) : (g.dropPend id).late = g.late := rfl
@[simp] theorem Group.dropPend_tokens (g : Group) (id : Nat) : (g.dropPend id).tokens = g.tokens := rfl
@[simp] theorem Group.dropPend_wait (g : Group) (id : Nat) : (g.dropPend id).wait = g.wait := rfl
@[simp] theorem Group.dropPend_cont (g : Group) (id : Nat) : (g.dropPend id).cont = g.cont := rfl
@[simp] theorem Group.dropPend_predicted (g : Group) (id : Nat) : (g.dropPend id).predicted = g.predicted := rfl
@[simp] theorem Group.dropPend_ready (g : Group) (id : Nat) : (g.dropPend id).ready = g.ready := rfl
@[simp] theorem Group.dropPend_age (g : Group) (id : Nat) : (g.dropPend id).age = g.age := rfl
@[simp] theorem Group.dropPend_stopped (g : Group) (id : Nat) : (g.dropPend id).stopped = g.stopped := rfl
@[simp] theorem Group.dropPend_marks (g : Group) (id : Nat) : (g.dropPend id).marks = g.marks := rfl
@[simp] theorem Group.dropPend_stopCause (g : Group) (id : Nat) : (g.dropPend id).stopCause = g.stopCause := rfl

@[simp] theorem Group.setPend_launch (g : Group) (id : Nat) (op : PendOp) : (g.setPend id op).launch = g.launch := rfl
@[simp] theorem Group.setPend_block (g : Group) (id : Nat) (op : PendOp) : (g.setPend id op).block = g.block := rfl
@[simp] theorem Group.setPend_index (g : Group) (id : Nat) (op : PendOp) : (g.setPend id op).index = g.index := rfl
@[simp] theorem Group.setPend_ended (g : Group) (id : Nat) (op : PendOp) : (g.setPend id op).ended = g.ended := rfl
@[simp] theorem Group.setPend_sregs (g : Group) (id : Nat) (op : PendOp) : (g.setPend id op).sregs = g.sregs := rfl
@[simp] theorem Group.setPend_preds (g : Group) (id : Nat) (op : PendOp) : (g.setPend id op).preds = g.preds := rfl
@[simp] theorem Group.setPend_lpc (g : Group) (id : Nat) (op : PendOp) : (g.setPend id op).lpc = g.lpc := rfl
@[simp] theorem Group.setPend_lanes (g : Group) (id : Nat) (op : PendOp) : (g.setPend id op).lanes = g.lanes := rfl
@[simp] theorem Group.setPend_lfr (g : Group) (id : Nat) (op : PendOp) : (g.setPend id op).lfr = g.lfr := rfl
@[simp] theorem Group.setPend_mode (g : Group) (id : Nat) (op : PendOp) : (g.setPend id op).mode = g.mode := rfl
@[simp] theorem Group.setPend_modeNow (g : Group) (id : Nat) (op : PendOp) : (g.setPend id op).modeNow = g.modeNow := rfl
@[simp] theorem Group.setPend_winmap (g : Group) (id : Nat) (op : PendOp) : (g.setPend id op).winmap = g.winmap := rfl
@[simp] theorem Group.setPend_handler (g : Group) (id : Nat) (op : PendOp) : (g.setPend id op).handler = g.handler := rfl
@[simp] theorem Group.setPend_resumeHdr (g : Group) (id : Nat) (op : PendOp) : (g.setPend id op).resumeHdr = g.resumeHdr := rfl
@[simp] theorem Group.setPend_laneHdr (g : Group) (id : Nat) (op : PendOp) : (g.setPend id op).laneHdr = g.laneHdr := rfl
@[simp] theorem Group.setPend_due (g : Group) (id : Nat) (op : PendOp) : (g.setPend id op).due = g.due := rfl
@[simp] theorem Group.setPend_delivered (g : Group) (id : Nat) (op : PendOp) : (g.setPend id op).delivered = g.delivered := rfl
@[simp] theorem Group.setPend_gangLost (g : Group) (id : Nat) (op : PendOp) : (g.setPend id op).gangLost = g.gangLost := rfl
@[simp] theorem Group.setPend_oplog (g : Group) (id : Nat) (op : PendOp) : (g.setPend id op).oplog = g.oplog := rfl
@[simp] theorem Group.setPend_faultLog (g : Group) (id : Nat) (op : PendOp) : (g.setPend id op).faultLog = g.faultLog := rfl
@[simp] theorem Group.setPend_late (g : Group) (id : Nat) (op : PendOp) : (g.setPend id op).late = g.late := rfl
@[simp] theorem Group.setPend_tokens (g : Group) (id : Nat) (op : PendOp) : (g.setPend id op).tokens = g.tokens := rfl
@[simp] theorem Group.setPend_wait (g : Group) (id : Nat) (op : PendOp) : (g.setPend id op).wait = g.wait := rfl
@[simp] theorem Group.setPend_cont (g : Group) (id : Nat) (op : PendOp) : (g.setPend id op).cont = g.cont := rfl
@[simp] theorem Group.setPend_predicted (g : Group) (id : Nat) (op : PendOp) : (g.setPend id op).predicted = g.predicted := rfl
@[simp] theorem Group.setPend_ready (g : Group) (id : Nat) (op : PendOp) : (g.setPend id op).ready = g.ready := rfl
@[simp] theorem Group.setPend_age (g : Group) (id : Nat) (op : PendOp) : (g.setPend id op).age = g.age := rfl
@[simp] theorem Group.setPend_stopped (g : Group) (id : Nat) (op : PendOp) : (g.setPend id op).stopped = g.stopped := rfl
@[simp] theorem Group.setPend_marks (g : Group) (id : Nat) (op : PendOp) : (g.setPend id op).marks = g.marks := rfl
@[simp] theorem Group.setPend_stopCause (g : Group) (id : Nat) (op : PendOp) : (g.setPend id op).stopCause = g.stopCause := rfl

@[simp] theorem Group.acquire_launch (g : Group) (scope mark : Nat) : (g.acquire scope mark).launch = g.launch := rfl
@[simp] theorem Group.acquire_block (g : Group) (scope mark : Nat) : (g.acquire scope mark).block = g.block := rfl
@[simp] theorem Group.acquire_index (g : Group) (scope mark : Nat) : (g.acquire scope mark).index = g.index := rfl
@[simp] theorem Group.acquire_ended (g : Group) (scope mark : Nat) : (g.acquire scope mark).ended = g.ended := rfl
@[simp] theorem Group.acquire_sregs (g : Group) (scope mark : Nat) : (g.acquire scope mark).sregs = g.sregs := rfl
@[simp] theorem Group.acquire_preds (g : Group) (scope mark : Nat) : (g.acquire scope mark).preds = g.preds := rfl
@[simp] theorem Group.acquire_lpc (g : Group) (scope mark : Nat) : (g.acquire scope mark).lpc = g.lpc := rfl
@[simp] theorem Group.acquire_lanes (g : Group) (scope mark : Nat) : (g.acquire scope mark).lanes = g.lanes := rfl
@[simp] theorem Group.acquire_lfr (g : Group) (scope mark : Nat) : (g.acquire scope mark).lfr = g.lfr := rfl
@[simp] theorem Group.acquire_mode (g : Group) (scope mark : Nat) : (g.acquire scope mark).mode = g.mode := rfl
@[simp] theorem Group.acquire_modeNow (g : Group) (scope mark : Nat) : (g.acquire scope mark).modeNow = g.modeNow := rfl
@[simp] theorem Group.acquire_winmap (g : Group) (scope mark : Nat) : (g.acquire scope mark).winmap = g.winmap := rfl
@[simp] theorem Group.acquire_handler (g : Group) (scope mark : Nat) : (g.acquire scope mark).handler = g.handler := rfl
@[simp] theorem Group.acquire_resumeHdr (g : Group) (scope mark : Nat) : (g.acquire scope mark).resumeHdr = g.resumeHdr := rfl
@[simp] theorem Group.acquire_laneHdr (g : Group) (scope mark : Nat) : (g.acquire scope mark).laneHdr = g.laneHdr := rfl
@[simp] theorem Group.acquire_due (g : Group) (scope mark : Nat) : (g.acquire scope mark).due = g.due := rfl
@[simp] theorem Group.acquire_delivered (g : Group) (scope mark : Nat) : (g.acquire scope mark).delivered = g.delivered := rfl
@[simp] theorem Group.acquire_gangLost (g : Group) (scope mark : Nat) : (g.acquire scope mark).gangLost = g.gangLost := rfl
@[simp] theorem Group.acquire_oplog (g : Group) (scope mark : Nat) : (g.acquire scope mark).oplog = g.oplog := rfl
@[simp] theorem Group.acquire_faultLog (g : Group) (scope mark : Nat) : (g.acquire scope mark).faultLog = g.faultLog := rfl
@[simp] theorem Group.acquire_late (g : Group) (scope mark : Nat) : (g.acquire scope mark).late = g.late := rfl
@[simp] theorem Group.acquire_tokens (g : Group) (scope mark : Nat) : (g.acquire scope mark).tokens = g.tokens := rfl
@[simp] theorem Group.acquire_pend (g : Group) (scope mark : Nat) : (g.acquire scope mark).pend = g.pend := rfl
@[simp] theorem Group.acquire_cont (g : Group) (scope mark : Nat) : (g.acquire scope mark).cont = g.cont := rfl
@[simp] theorem Group.acquire_predicted (g : Group) (scope mark : Nat) : (g.acquire scope mark).predicted = g.predicted := rfl
@[simp] theorem Group.acquire_ready (g : Group) (scope mark : Nat) : (g.acquire scope mark).ready = g.ready := rfl
@[simp] theorem Group.acquire_age (g : Group) (scope mark : Nat) : (g.acquire scope mark).age = g.age := rfl
@[simp] theorem Group.acquire_stopped (g : Group) (scope mark : Nat) : (g.acquire scope mark).stopped = g.stopped := rfl
@[simp] theorem Group.acquire_marks (g : Group) (scope mark : Nat) : (g.acquire scope mark).marks = g.marks := rfl
@[simp] theorem Group.acquire_stopCause (g : Group) (scope mark : Nat) : (g.acquire scope mark).stopCause = g.stopCause := rfl

@[simp] theorem Group.beginClause_launch (g : Group)  : (g.beginClause).launch = g.launch := rfl
@[simp] theorem Group.beginClause_block (g : Group)  : (g.beginClause).block = g.block := rfl
@[simp] theorem Group.beginClause_index (g : Group)  : (g.beginClause).index = g.index := rfl
@[simp] theorem Group.beginClause_ended (g : Group)  : (g.beginClause).ended = g.ended := rfl
@[simp] theorem Group.beginClause_sregs (g : Group)  : (g.beginClause).sregs = g.sregs := rfl
@[simp] theorem Group.beginClause_preds (g : Group)  : (g.beginClause).preds = g.preds := rfl
@[simp] theorem Group.beginClause_lpc (g : Group)  : (g.beginClause).lpc = g.lpc := rfl
@[simp] theorem Group.beginClause_lanes (g : Group)  : (g.beginClause).lanes = g.lanes := rfl
@[simp] theorem Group.beginClause_lfr (g : Group)  : (g.beginClause).lfr = g.lfr := rfl
@[simp] theorem Group.beginClause_mode (g : Group)  : (g.beginClause).mode = g.mode := rfl
@[simp] theorem Group.beginClause_winmap (g : Group)  : (g.beginClause).winmap = g.winmap := rfl
@[simp] theorem Group.beginClause_handler (g : Group)  : (g.beginClause).handler = g.handler := rfl
@[simp] theorem Group.beginClause_resumeHdr (g : Group)  : (g.beginClause).resumeHdr = g.resumeHdr := rfl
@[simp] theorem Group.beginClause_laneHdr (g : Group)  : (g.beginClause).laneHdr = g.laneHdr := rfl
@[simp] theorem Group.beginClause_due (g : Group)  : (g.beginClause).due = g.due := rfl
@[simp] theorem Group.beginClause_delivered (g : Group)  : (g.beginClause).delivered = g.delivered := rfl
@[simp] theorem Group.beginClause_gangLost (g : Group)  : (g.beginClause).gangLost = g.gangLost := rfl
@[simp] theorem Group.beginClause_oplog (g : Group)  : (g.beginClause).oplog = g.oplog := rfl
@[simp] theorem Group.beginClause_faultLog (g : Group)  : (g.beginClause).faultLog = g.faultLog := rfl
@[simp] theorem Group.beginClause_late (g : Group)  : (g.beginClause).late = g.late := rfl
@[simp] theorem Group.beginClause_tokens (g : Group)  : (g.beginClause).tokens = g.tokens := rfl
@[simp] theorem Group.beginClause_pend (g : Group)  : (g.beginClause).pend = g.pend := rfl
@[simp] theorem Group.beginClause_wait (g : Group)  : (g.beginClause).wait = g.wait := rfl
@[simp] theorem Group.beginClause_cont (g : Group)  : (g.beginClause).cont = g.cont := rfl
@[simp] theorem Group.beginClause_predicted (g : Group)  : (g.beginClause).predicted = g.predicted := rfl
@[simp] theorem Group.beginClause_ready (g : Group)  : (g.beginClause).ready = g.ready := rfl
@[simp] theorem Group.beginClause_age (g : Group)  : (g.beginClause).age = g.age := rfl
@[simp] theorem Group.beginClause_stopped (g : Group)  : (g.beginClause).stopped = g.stopped := rfl
@[simp] theorem Group.beginClause_marks (g : Group)  : (g.beginClause).marks = g.marks := rfl
@[simp] theorem Group.beginClause_stopCause (g : Group)  : (g.beginClause).stopCause = g.stopCause := rfl

@[simp] theorem Group.setPcs_launch (g : Group) (x : List Word) : (g.setPcs x).launch = g.launch := by
  unfold Group.setPcs; split <;> rfl
@[simp] theorem Group.setPcs_block (g : Group) (x : List Word) : (g.setPcs x).block = g.block := by
  unfold Group.setPcs; split <;> rfl
@[simp] theorem Group.setPcs_index (g : Group) (x : List Word) : (g.setPcs x).index = g.index := by
  unfold Group.setPcs; split <;> rfl
@[simp] theorem Group.setPcs_ended (g : Group) (x : List Word) : (g.setPcs x).ended = g.ended := by
  unfold Group.setPcs; split <;> rfl
@[simp] theorem Group.setPcs_sregs (g : Group) (x : List Word) : (g.setPcs x).sregs = g.sregs := by
  unfold Group.setPcs; split <;> rfl
@[simp] theorem Group.setPcs_preds (g : Group) (x : List Word) : (g.setPcs x).preds = g.preds := by
  unfold Group.setPcs; split <;> rfl
@[simp] theorem Group.setPcs_lanes (g : Group) (x : List Word) : (g.setPcs x).lanes = g.lanes := by
  unfold Group.setPcs; split <;> rfl
@[simp] theorem Group.setPcs_lfr (g : Group) (x : List Word) : (g.setPcs x).lfr = g.lfr := by
  unfold Group.setPcs; split <;> rfl
@[simp] theorem Group.setPcs_mode (g : Group) (x : List Word) : (g.setPcs x).mode = g.mode := by
  unfold Group.setPcs; split <;> rfl
@[simp] theorem Group.setPcs_modeNow (g : Group) (x : List Word) : (g.setPcs x).modeNow = g.modeNow := by
  unfold Group.setPcs; split <;> rfl
@[simp] theorem Group.setPcs_winmap (g : Group) (x : List Word) : (g.setPcs x).winmap = g.winmap := by
  unfold Group.setPcs; split <;> rfl
@[simp] theorem Group.setPcs_resumeHdr (g : Group) (x : List Word) : (g.setPcs x).resumeHdr = g.resumeHdr := by
  unfold Group.setPcs; split <;> rfl
@[simp] theorem Group.setPcs_laneHdr (g : Group) (x : List Word) : (g.setPcs x).laneHdr = g.laneHdr := by
  unfold Group.setPcs; split <;> rfl
@[simp] theorem Group.setPcs_due (g : Group) (x : List Word) : (g.setPcs x).due = g.due := by
  unfold Group.setPcs; split <;> rfl
@[simp] theorem Group.setPcs_delivered (g : Group) (x : List Word) : (g.setPcs x).delivered = g.delivered := by
  unfold Group.setPcs; split <;> rfl
@[simp] theorem Group.setPcs_gangLost (g : Group) (x : List Word) : (g.setPcs x).gangLost = g.gangLost := by
  unfold Group.setPcs; split <;> rfl
@[simp] theorem Group.setPcs_oplog (g : Group) (x : List Word) : (g.setPcs x).oplog = g.oplog := by
  unfold Group.setPcs; split <;> rfl
@[simp] theorem Group.setPcs_faultLog (g : Group) (x : List Word) : (g.setPcs x).faultLog = g.faultLog := by
  unfold Group.setPcs; split <;> rfl
@[simp] theorem Group.setPcs_late (g : Group) (x : List Word) : (g.setPcs x).late = g.late := by
  unfold Group.setPcs; split <;> rfl
@[simp] theorem Group.setPcs_tokens (g : Group) (x : List Word) : (g.setPcs x).tokens = g.tokens := by
  unfold Group.setPcs; split <;> rfl
@[simp] theorem Group.setPcs_pend (g : Group) (x : List Word) : (g.setPcs x).pend = g.pend := by
  unfold Group.setPcs; split <;> rfl
@[simp] theorem Group.setPcs_wait (g : Group) (x : List Word) : (g.setPcs x).wait = g.wait := by
  unfold Group.setPcs; split <;> rfl
@[simp] theorem Group.setPcs_cont (g : Group) (x : List Word) : (g.setPcs x).cont = g.cont := by
  unfold Group.setPcs; split <;> rfl
@[simp] theorem Group.setPcs_predicted (g : Group) (x : List Word) : (g.setPcs x).predicted = g.predicted := by
  unfold Group.setPcs; split <;> rfl
@[simp] theorem Group.setPcs_ready (g : Group) (x : List Word) : (g.setPcs x).ready = g.ready := by
  unfold Group.setPcs; split <;> rfl
@[simp] theorem Group.setPcs_age (g : Group) (x : List Word) : (g.setPcs x).age = g.age := by
  unfold Group.setPcs; split <;> rfl
@[simp] theorem Group.setPcs_stopped (g : Group) (x : List Word) : (g.setPcs x).stopped = g.stopped := by
  unfold Group.setPcs; split <;> rfl
@[simp] theorem Group.setPcs_marks (g : Group) (x : List Word) : (g.setPcs x).marks = g.marks := by
  unfold Group.setPcs; split <;> rfl
@[simp] theorem Group.setPcs_stopCause (g : Group) (x : List Word) : (g.setPcs x).stopCause = g.stopCause := by
  unfold Group.setPcs; split <;> rfl

@[simp] theorem Group.setStates_launch (g : Group) (x : List LaneState) : (g.setStates x).launch = g.launch := by
  unfold Group.setStates; split <;> rfl
@[simp] theorem Group.setStates_block (g : Group) (x : List LaneState) : (g.setStates x).block = g.block := by
  unfold Group.setStates; split <;> rfl
@[simp] theorem Group.setStates_index (g : Group) (x : List LaneState) : (g.setStates x).index = g.index := by
  unfold Group.setStates; split <;> rfl
@[simp] theorem Group.setStates_ended (g : Group) (x : List LaneState) : (g.setStates x).ended = g.ended := by
  unfold Group.setStates; split <;> rfl
@[simp] theorem Group.setStates_sregs (g : Group) (x : List LaneState) : (g.setStates x).sregs = g.sregs := by
  unfold Group.setStates; split <;> rfl
@[simp] theorem Group.setStates_preds (g : Group) (x : List LaneState) : (g.setStates x).preds = g.preds := by
  unfold Group.setStates; split <;> rfl
@[simp] theorem Group.setStates_lpc (g : Group) (x : List LaneState) : (g.setStates x).lpc = g.lpc := by
  unfold Group.setStates; split <;> rfl
@[simp] theorem Group.setStates_lfr (g : Group) (x : List LaneState) : (g.setStates x).lfr = g.lfr := by
  unfold Group.setStates; split <;> rfl
@[simp] theorem Group.setStates_mode (g : Group) (x : List LaneState) : (g.setStates x).mode = g.mode := by
  unfold Group.setStates; split <;> rfl
@[simp] theorem Group.setStates_modeNow (g : Group) (x : List LaneState) : (g.setStates x).modeNow = g.modeNow := by
  unfold Group.setStates; split <;> rfl
@[simp] theorem Group.setStates_winmap (g : Group) (x : List LaneState) : (g.setStates x).winmap = g.winmap := by
  unfold Group.setStates; split <;> rfl
@[simp] theorem Group.setStates_resumeHdr (g : Group) (x : List LaneState) : (g.setStates x).resumeHdr = g.resumeHdr := by
  unfold Group.setStates; split <;> rfl
@[simp] theorem Group.setStates_laneHdr (g : Group) (x : List LaneState) : (g.setStates x).laneHdr = g.laneHdr := by
  unfold Group.setStates; split <;> rfl
@[simp] theorem Group.setStates_due (g : Group) (x : List LaneState) : (g.setStates x).due = g.due := by
  unfold Group.setStates; split <;> rfl
@[simp] theorem Group.setStates_delivered (g : Group) (x : List LaneState) : (g.setStates x).delivered = g.delivered := by
  unfold Group.setStates; split <;> rfl
@[simp] theorem Group.setStates_gangLost (g : Group) (x : List LaneState) : (g.setStates x).gangLost = g.gangLost := by
  unfold Group.setStates; split <;> rfl
@[simp] theorem Group.setStates_oplog (g : Group) (x : List LaneState) : (g.setStates x).oplog = g.oplog := by
  unfold Group.setStates; split <;> rfl
@[simp] theorem Group.setStates_faultLog (g : Group) (x : List LaneState) : (g.setStates x).faultLog = g.faultLog := by
  unfold Group.setStates; split <;> rfl
@[simp] theorem Group.setStates_late (g : Group) (x : List LaneState) : (g.setStates x).late = g.late := by
  unfold Group.setStates; split <;> rfl
@[simp] theorem Group.setStates_tokens (g : Group) (x : List LaneState) : (g.setStates x).tokens = g.tokens := by
  unfold Group.setStates; split <;> rfl
@[simp] theorem Group.setStates_pend (g : Group) (x : List LaneState) : (g.setStates x).pend = g.pend := by
  unfold Group.setStates; split <;> rfl
@[simp] theorem Group.setStates_wait (g : Group) (x : List LaneState) : (g.setStates x).wait = g.wait := by
  unfold Group.setStates; split <;> rfl
@[simp] theorem Group.setStates_cont (g : Group) (x : List LaneState) : (g.setStates x).cont = g.cont := by
  unfold Group.setStates; split <;> rfl
@[simp] theorem Group.setStates_predicted (g : Group) (x : List LaneState) : (g.setStates x).predicted = g.predicted := by
  unfold Group.setStates; split <;> rfl
@[simp] theorem Group.setStates_ready (g : Group) (x : List LaneState) : (g.setStates x).ready = g.ready := by
  unfold Group.setStates; split <;> rfl
@[simp] theorem Group.setStates_age (g : Group) (x : List LaneState) : (g.setStates x).age = g.age := by
  unfold Group.setStates; split <;> rfl
@[simp] theorem Group.setStates_stopped (g : Group) (x : List LaneState) : (g.setStates x).stopped = g.stopped := by
  unfold Group.setStates; split <;> rfl
@[simp] theorem Group.setStates_marks (g : Group) (x : List LaneState) : (g.setStates x).marks = g.marks := by
  unfold Group.setStates; split <;> rfl
@[simp] theorem Group.setStates_stopCause (g : Group) (x : List LaneState) : (g.setStates x).stopCause = g.stopCause := by
  unfold Group.setStates; split <;> rfl

@[simp] theorem Group.movePcs_launch (g : Group) (m : LaneMask) (pc : Word) : (g.movePcs m pc).launch = g.launch :=
  Group.setPcs_launch g _
@[simp] theorem Group.movePcs_block (g : Group) (m : LaneMask) (pc : Word) : (g.movePcs m pc).block = g.block :=
  Group.setPcs_block g _
@[simp] theorem Group.movePcs_index (g : Group) (m : LaneMask) (pc : Word) : (g.movePcs m pc).index = g.index :=
  Group.setPcs_index g _
@[simp] theorem Group.movePcs_ended (g : Group) (m : LaneMask) (pc : Word) : (g.movePcs m pc).ended = g.ended :=
  Group.setPcs_ended g _
@[simp] theorem Group.movePcs_sregs (g : Group) (m : LaneMask) (pc : Word) : (g.movePcs m pc).sregs = g.sregs :=
  Group.setPcs_sregs g _
@[simp] theorem Group.movePcs_preds (g : Group) (m : LaneMask) (pc : Word) : (g.movePcs m pc).preds = g.preds :=
  Group.setPcs_preds g _
@[simp] theorem Group.movePcs_lanes (g : Group) (m : LaneMask) (pc : Word) : (g.movePcs m pc).lanes = g.lanes :=
  Group.setPcs_lanes g _
@[simp] theorem Group.movePcs_lfr (g : Group) (m : LaneMask) (pc : Word) : (g.movePcs m pc).lfr = g.lfr :=
  Group.setPcs_lfr g _
@[simp] theorem Group.movePcs_mode (g : Group) (m : LaneMask) (pc : Word) : (g.movePcs m pc).mode = g.mode :=
  Group.setPcs_mode g _
@[simp] theorem Group.movePcs_modeNow (g : Group) (m : LaneMask) (pc : Word) : (g.movePcs m pc).modeNow = g.modeNow :=
  Group.setPcs_modeNow g _
@[simp] theorem Group.movePcs_winmap (g : Group) (m : LaneMask) (pc : Word) : (g.movePcs m pc).winmap = g.winmap :=
  Group.setPcs_winmap g _
@[simp] theorem Group.movePcs_resumeHdr (g : Group) (m : LaneMask) (pc : Word) : (g.movePcs m pc).resumeHdr = g.resumeHdr :=
  Group.setPcs_resumeHdr g _
@[simp] theorem Group.movePcs_laneHdr (g : Group) (m : LaneMask) (pc : Word) : (g.movePcs m pc).laneHdr = g.laneHdr :=
  Group.setPcs_laneHdr g _
@[simp] theorem Group.movePcs_due (g : Group) (m : LaneMask) (pc : Word) : (g.movePcs m pc).due = g.due :=
  Group.setPcs_due g _
@[simp] theorem Group.movePcs_delivered (g : Group) (m : LaneMask) (pc : Word) : (g.movePcs m pc).delivered = g.delivered :=
  Group.setPcs_delivered g _
@[simp] theorem Group.movePcs_gangLost (g : Group) (m : LaneMask) (pc : Word) : (g.movePcs m pc).gangLost = g.gangLost :=
  Group.setPcs_gangLost g _
@[simp] theorem Group.movePcs_oplog (g : Group) (m : LaneMask) (pc : Word) : (g.movePcs m pc).oplog = g.oplog :=
  Group.setPcs_oplog g _
@[simp] theorem Group.movePcs_faultLog (g : Group) (m : LaneMask) (pc : Word) : (g.movePcs m pc).faultLog = g.faultLog :=
  Group.setPcs_faultLog g _
@[simp] theorem Group.movePcs_late (g : Group) (m : LaneMask) (pc : Word) : (g.movePcs m pc).late = g.late :=
  Group.setPcs_late g _
@[simp] theorem Group.movePcs_tokens (g : Group) (m : LaneMask) (pc : Word) : (g.movePcs m pc).tokens = g.tokens :=
  Group.setPcs_tokens g _
@[simp] theorem Group.movePcs_pend (g : Group) (m : LaneMask) (pc : Word) : (g.movePcs m pc).pend = g.pend :=
  Group.setPcs_pend g _
@[simp] theorem Group.movePcs_wait (g : Group) (m : LaneMask) (pc : Word) : (g.movePcs m pc).wait = g.wait :=
  Group.setPcs_wait g _
@[simp] theorem Group.movePcs_cont (g : Group) (m : LaneMask) (pc : Word) : (g.movePcs m pc).cont = g.cont :=
  Group.setPcs_cont g _
@[simp] theorem Group.movePcs_predicted (g : Group) (m : LaneMask) (pc : Word) : (g.movePcs m pc).predicted = g.predicted :=
  Group.setPcs_predicted g _
@[simp] theorem Group.movePcs_ready (g : Group) (m : LaneMask) (pc : Word) : (g.movePcs m pc).ready = g.ready :=
  Group.setPcs_ready g _
@[simp] theorem Group.movePcs_age (g : Group) (m : LaneMask) (pc : Word) : (g.movePcs m pc).age = g.age :=
  Group.setPcs_age g _
@[simp] theorem Group.movePcs_stopped (g : Group) (m : LaneMask) (pc : Word) : (g.movePcs m pc).stopped = g.stopped :=
  Group.setPcs_stopped g _
@[simp] theorem Group.movePcs_marks (g : Group) (m : LaneMask) (pc : Word) : (g.movePcs m pc).marks = g.marks :=
  Group.setPcs_marks g _
@[simp] theorem Group.movePcs_stopCause (g : Group) (m : LaneMask) (pc : Word) : (g.movePcs m pc).stopCause = g.stopCause :=
  Group.setPcs_stopCause g _

@[simp] theorem Group.setLanes_launch (g : Group) (m : LaneMask) (st : LaneState) : (g.setLanes m st).launch = g.launch :=
  Group.setStates_launch g _
@[simp] theorem Group.setLanes_block (g : Group) (m : LaneMask) (st : LaneState) : (g.setLanes m st).block = g.block :=
  Group.setStates_block g _
@[simp] theorem Group.setLanes_index (g : Group) (m : LaneMask) (st : LaneState) : (g.setLanes m st).index = g.index :=
  Group.setStates_index g _
@[simp] theorem Group.setLanes_ended (g : Group) (m : LaneMask) (st : LaneState) : (g.setLanes m st).ended = g.ended :=
  Group.setStates_ended g _
@[simp] theorem Group.setLanes_sregs (g : Group) (m : LaneMask) (st : LaneState) : (g.setLanes m st).sregs = g.sregs :=
  Group.setStates_sregs g _
@[simp] theorem Group.setLanes_preds (g : Group) (m : LaneMask) (st : LaneState) : (g.setLanes m st).preds = g.preds :=
  Group.setStates_preds g _
@[simp] theorem Group.setLanes_lpc (g : Group) (m : LaneMask) (st : LaneState) : (g.setLanes m st).lpc = g.lpc :=
  Group.setStates_lpc g _
@[simp] theorem Group.setLanes_lfr (g : Group) (m : LaneMask) (st : LaneState) : (g.setLanes m st).lfr = g.lfr :=
  Group.setStates_lfr g _
@[simp] theorem Group.setLanes_mode (g : Group) (m : LaneMask) (st : LaneState) : (g.setLanes m st).mode = g.mode :=
  Group.setStates_mode g _
@[simp] theorem Group.setLanes_modeNow (g : Group) (m : LaneMask) (st : LaneState) : (g.setLanes m st).modeNow = g.modeNow :=
  Group.setStates_modeNow g _
@[simp] theorem Group.setLanes_winmap (g : Group) (m : LaneMask) (st : LaneState) : (g.setLanes m st).winmap = g.winmap :=
  Group.setStates_winmap g _
@[simp] theorem Group.setLanes_resumeHdr (g : Group) (m : LaneMask) (st : LaneState) : (g.setLanes m st).resumeHdr = g.resumeHdr :=
  Group.setStates_resumeHdr g _
@[simp] theorem Group.setLanes_laneHdr (g : Group) (m : LaneMask) (st : LaneState) : (g.setLanes m st).laneHdr = g.laneHdr :=
  Group.setStates_laneHdr g _
@[simp] theorem Group.setLanes_due (g : Group) (m : LaneMask) (st : LaneState) : (g.setLanes m st).due = g.due :=
  Group.setStates_due g _
@[simp] theorem Group.setLanes_delivered (g : Group) (m : LaneMask) (st : LaneState) : (g.setLanes m st).delivered = g.delivered :=
  Group.setStates_delivered g _
@[simp] theorem Group.setLanes_gangLost (g : Group) (m : LaneMask) (st : LaneState) : (g.setLanes m st).gangLost = g.gangLost :=
  Group.setStates_gangLost g _
@[simp] theorem Group.setLanes_oplog (g : Group) (m : LaneMask) (st : LaneState) : (g.setLanes m st).oplog = g.oplog :=
  Group.setStates_oplog g _
@[simp] theorem Group.setLanes_faultLog (g : Group) (m : LaneMask) (st : LaneState) : (g.setLanes m st).faultLog = g.faultLog :=
  Group.setStates_faultLog g _
@[simp] theorem Group.setLanes_late (g : Group) (m : LaneMask) (st : LaneState) : (g.setLanes m st).late = g.late :=
  Group.setStates_late g _
@[simp] theorem Group.setLanes_tokens (g : Group) (m : LaneMask) (st : LaneState) : (g.setLanes m st).tokens = g.tokens :=
  Group.setStates_tokens g _
@[simp] theorem Group.setLanes_pend (g : Group) (m : LaneMask) (st : LaneState) : (g.setLanes m st).pend = g.pend :=
  Group.setStates_pend g _
@[simp] theorem Group.setLanes_wait (g : Group) (m : LaneMask) (st : LaneState) : (g.setLanes m st).wait = g.wait :=
  Group.setStates_wait g _
@[simp] theorem Group.setLanes_cont (g : Group) (m : LaneMask) (st : LaneState) : (g.setLanes m st).cont = g.cont :=
  Group.setStates_cont g _
@[simp] theorem Group.setLanes_predicted (g : Group) (m : LaneMask) (st : LaneState) : (g.setLanes m st).predicted = g.predicted :=
  Group.setStates_predicted g _
@[simp] theorem Group.setLanes_ready (g : Group) (m : LaneMask) (st : LaneState) : (g.setLanes m st).ready = g.ready :=
  Group.setStates_ready g _
@[simp] theorem Group.setLanes_age (g : Group) (m : LaneMask) (st : LaneState) : (g.setLanes m st).age = g.age :=
  Group.setStates_age g _
@[simp] theorem Group.setLanes_stopped (g : Group) (m : LaneMask) (st : LaneState) : (g.setLanes m st).stopped = g.stopped :=
  Group.setStates_stopped g _
@[simp] theorem Group.setLanes_marks (g : Group) (m : LaneMask) (st : LaneState) : (g.setLanes m st).marks = g.marks :=
  Group.setStates_marks g _
@[simp] theorem Group.setLanes_stopCause (g : Group) (m : LaneMask) (st : LaneState) : (g.setLanes m st).stopCause = g.stopCause :=
  Group.setStates_stopCause g _

/-! ## A table sorted by key -/

@[simp] theorem assocGet_assocSet_same {β : Type} (m : List (Nat × β)) (i : Nat) (v : β) :
    assocGet (assocSet m i v) i = some v := by
  induction m with
  | nil => simp [assocSet, assocGet]
  | cons p m ih =>
    unfold assocSet
    split
    · simp [assocGet]
    · split
      · simp [assocGet]
      · rename_i h
        simp [assocGet, Ne.symm h, ih]

theorem assocGet_assocSet_other {β : Type} (m : List (Nat × β)) (i j : Nat) (v : β) (h : j ≠ i) :
    assocGet (assocSet m i v) j = assocGet m j := by
  induction m with
  | nil => simp [assocSet, assocGet, Ne.symm h]
  | cons p m ih =>
    unfold assocSet
    split
    · simp [assocGet, Ne.symm h]
    · split
      · rename_i e
        simp [assocGet, Ne.symm h, ← e]
      · simp [assocGet, ih]

/-! ## Cores and groups read back -/

@[simp] theorem State.core_setCore_same (s : State) (n : Nat) (c : Core) : (s.setCore n c).core n = c := by
  simp [State.core, State.setCore]

theorem State.core_setCore_other (s : State) (n m : Nat) (c : Core) (h : m ≠ n) : (s.setCore n c).core m = s.core m := by
  simp [State.core, State.setCore, assocGet_assocSet_other _ _ _ _ h]

@[simp] theorem State.core_mapCore_same (s : State) (n : Nat) (f : Core → Core) : (s.mapCore n f).core n = f (s.core n) :=
  State.core_setCore_same s n _

theorem State.core_mapCore_other (s : State) (n m : Nat) (f : Core → Core) (h : m ≠ n) :
    (s.mapCore n f).core m = s.core m := State.core_setCore_other s n m _ h

@[simp] theorem Core.group_setGroup_same (c : Core) (k : Nat) (g : Group) : (c.setGroup k g).group? k = some g := by
  simp [Core.group?, Core.setGroup]

theorem Core.group_setGroup_other (c : Core) (k j : Nat) (g : Group) (h : j ≠ k) :
    (c.setGroup k g).group? j = c.group? j := by
  simp [Core.group?, Core.setGroup, assocGet_assocSet_other _ _ _ _ h]

@[simp] theorem Core.group_mapGroup_same (c : Core) (k : Nat) (f : Group → Group) :
    (c.mapGroup k f).group? k = (c.group? k).map f := by
  unfold Core.mapGroup
  split <;> simp_all

theorem Core.group_mapGroup_other (c : Core) (k j : Nat) (f : Group → Group) (h : j ≠ k) :
    (c.mapGroup k f).group? j = c.group? j := by
  unfold Core.mapGroup
  split
  · rfl
  · exact Core.group_setGroup_other _ _ _ _ h

@[simp] theorem Core.group_mapSched (c : Core) (k j : Nat) (f : Scheduler → Scheduler) :
    (c.mapSched k f).group? j = c.group? j := rfl

@[simp] theorem State.group_mapGroup_same (s : State) (n k : Nat) (f : Group → Group) :
    (s.mapGroup n k f).group? n k = (s.group? n k).map f := by
  simp [State.group?, State.mapGroup]

theorem State.group_mapGroup_other (s : State) (n k m j : Nat) (f : Group → Group) (h : m ≠ n ∨ j ≠ k) :
    (s.mapGroup n k f).group? m j = s.group? m j := by
  unfold State.group? State.mapGroup
  by_cases hm : m = n
  · subst hm
    simp [Core.group_mapGroup_other _ _ _ _ (h.resolve_left (fun q => q rfl))]
  · rw [State.core_mapCore_other _ _ _ _ hm]

end Sys2Proof.Machine
end

