-- ==== Sys2Proof/Laws/Ops.lean ====
section
/-! SUPPORT. What the shared operations of an instruction's course do. -/

namespace Sys2Proof.Machine

/-! ## Issuing -/

/-- An instruction that executes normally ends as its body says. -/
theorem runInstr_executes {s : State} {x : Issuer} {i : Instr} (h : Executes s x i) (body : Issuer → LaneMask → Act) :
    runInstr s i body = .next (settleAct s x i (body x (activeOf x i))) := by
  obtain ⟨⟨h1, h2⟩, h3, h4⟩ := h
  have h4 : opdChecks (s.core x.core) x.g x.slot
      ((infoOf (checkEnv x.g x.l) i).reads ++ (infoOf (checkEnv x.g x.l) i).writes) = none := h4
  simp [runInstr, h1, h2, h3, h4]

/-- An instruction whose body is complete puts its effect and goes on. -/
theorem runInstr_done {s t : State} {x : Issuer} {i : Instr} (h : Executes s x i) {body : Issuer → LaneMask → Act}
    (hb : body x (activeOf x i) = .done t) : runInstr s i body = .next (goesOn t x i) := by
  rw [runInstr_executes h, hb]
  rfl

/-- With no lane active nothing changes but the position (02 R73). -/
theorem runInstr_masked {s : State} {x : Issuer} {i : Instr} (h : Issues s x i) (hm : activeOf x i = 0#64)
    (body : Issuer → LaneMask → Act) : runInstr s i body = .next (goesOn s x i) := by
  obtain ⟨h1, h2⟩ := h
  simp [runInstr, h1, h2, hm]
  rfl

/-- An instruction that acts on the executing set ends as its body says. -/
theorem runAlways_acts {s : State} {x : Issuer} {i : Instr} (h : Acts s x i) (body : Issuer → LaneMask → Act) :
    runAlways s i body = .next (settleAct s x i (body x (activeOf x i))) := by
  obtain ⟨⟨h1, h2⟩, h3⟩ := h
  rcases h3 with h3 | h3
  · simp [runAlways, h1, h2, h3]
  · have h4 : opdChecks (s.core x.core) x.g x.slot
        ((infoOf (checkEnv x.g x.l) i).reads ++ (infoOf (checkEnv x.g x.l) i).writes) = none := h3
    by_cases hm : activeOf x i = 0#64
    · simp [runAlways, h1, h2, hm]
    · simp [runAlways, h1, h2, hm, h4]

/-- Everything an instruction of a group can end in: it was held up, masked off, refused its registers, or its body
acted; without an issuer it is refused. -/
theorem runInstr_cases {s t : State} {i : Instr} {body : Issuer → LaneMask → Act} (h : runInstr s i body = .next t) :
    ∃ x, issuer s = some x ∧
      ((∃ a, holdUp x i = some a ∧ t = settleAct s x i a) ∨
       (holdUp x i = none ∧ activeOf x i = 0#64 ∧ t = goesOn s x i) ∨
       (holdUp x i = none ∧ activeOf x i ≠ 0#64 ∧ ∃ c, opdChecks (s.core x.core) x.g x.slot (operandsOf x i) = some c ∧
          t = instrTrap s x i c 0 0#32) ∨
       (Executes s x i ∧ t = settleAct s x i (body x (activeOf x i)))) := by
  unfold runInstr at h
  split at h
  · cases h
  · rename_i x hx
    refine ⟨x, hx, ?_⟩
    split at h
    · rename_i a ha
      exact .inl ⟨a, ha, by injection h with h; exact h.symm⟩
    · rename_i hn
      simp only at h
      split at h
      · rename_i hm
        exact .inr (.inl ⟨hn, hm, by injection h with h; exact h.symm⟩)
      · rename_i hm
        split at h
        · rename_i c hc
          exact .inr (.inr (.inl ⟨hn, hm, c, hc, by injection h with h; exact h.symm⟩))
        · rename_i hc
          exact .inr (.inr (.inr ⟨⟨⟨hx, hn⟩, hm, hc⟩, by injection h with h; exact h.symm⟩))

/-! ## The course of a run -/

theorem endRun_onlyCores (s : State) (core sched : Nat) : OnlyCores s (endRun s core sched) := by
  unfold endRun OnlyCores
  split <;> rfl

/-- Going on behind an instruction changes nothing but the core. -/
theorem stepRun_onlyCores (s : State) (x : Issuer) (r : Run) : OnlyCores s (stepRun s x r) := by
  unfold stepRun
  simp only
  split
  · have h := endRun_onlyCores ((s.mapGroup x.core x.slot fun g => g.movePcs r.exec r.pos).mapCore x.core fun c =>
      c.mapSched x.sched fun k => { k with run := some r }) x.core x.sched
    unfold OnlyCores at h ⊢
    rw [h]
    rfl
  · rfl

theorem goesOn_onlyCores (s : State) (x : Issuer) (i : Instr) : OnlyCores s (goesOn s x i) := stepRun_onlyCores s x _

theorem OnlyCores.refl (s : State) : OnlyCores s s := rfl

theorem OnlyCores.trans {s t u : State} (h : OnlyCores s t) (k : OnlyCores t u) : OnlyCores s u := by
  unfold OnlyCores at *
  rw [k, h]

theorem mapCore_onlyCores (s : State) (n : Nat) (f : Core → Core) : OnlyCores s (s.mapCore n f) := rfl
theorem mapGroup_onlyCores (s : State) (n k : Nat) (f : Group → Group) : OnlyCores s (s.mapGroup n k f) := rfl

end Sys2Proof.Machine
end

