-- ==== Sys2Proof/Laws/Forms.lean ====
section
/-! SUPPORT. What `exec` calls for the instructions of each form. -/

namespace Sys2Proof.Machine

theorem shuffleForm_exec {i : Instr} {w : Base} {e : ExtRI} (h : shuffleForm i = some (w, e)) (s : State) :
    exec i s = shuffle s i w e := by
  unfold shuffleForm at h; split at h <;> cases h <;> rfl

theorem ballotForm_exec {i : Instr} {w : Base} {e : ExtR} (h : ballotForm i = some (w, e)) (s : State) :
    exec i s = ballot s i w e := by
  unfold ballotForm at h; split at h <;> cases h <;> rfl

theorem reduxForm_exec {i : Instr} {w : Base} {e : ExtR} (h : reduxForm i = some (w, e)) (s : State) :
    exec i s = redux s i w e := by
  unfold reduxForm at h; split at h <;> cases h <;> rfl

theorem scanForm_exec {i : Instr} {w : Base} {e : ExtR} (h : scanForm i = some (w, e)) (s : State) :
    exec i s = scan s i w e := by
  unfold scanForm at h; split at h <;> cases h <;> rfl

theorem bcastForm_exec {i : Instr} {w : Base} {e : ExtRI} (h : bcastForm i = some (w, e)) (s : State) :
    exec i s = broadcast s i w e := by
  unfold bcastForm at h; split at h <;> cases h <;> rfl

theorem leaForm_exec {i : Instr} {w : Base} {e : ExtRI} (h : leaForm i = some (w, e)) (s : State) :
    exec i s = lea s i w e := by
  unfold leaForm at h; split at h <;> cases h <;> rfl

theorem fsclForm_exec {i : Instr} {w : Base} {e : ExtRI} (h : fsclForm i = some (w, e)) (s : State) :
    exec i s = fscl s i w e := by
  unfold fsclForm at h; split at h <;> cases h <;> rfl

theorem syncForm_exec {i : Instr} {e : ExtC} {r a k : Bool} (h : syncForm i = some (e, r, a, k)) (s : State) :
    exec i s = sync s i e r a k := by
  unfold syncForm at h; split at h <;> cases h <;> rfl

theorem prefForm_exec {i : Instr} {w : Base} {e : ExtM} (h : prefForm i = some (w, e)) (s : State) :
    exec i s = prefetch s i w e := by
  unfold prefForm at h; split at h <;> cases h <;> rfl

theorem accessForm_exec {i : Instr} {f : AccForm} (h : accessForm i = some f) (s : State) :
    exec i s = access s i f.sp f.kind f.w f.x := by
  unfold accessForm at h; split at h <;> cases h <;> rfl

theorem engineFormC_exec {i : Instr} {op : EngOp} {w : Base} (h : engineForm i = some (op, w, none)) (s : State) :
    exec i s = engineC_ s i op w := by
  unfold engineForm at h; split at h <;> cases h <;> rfl

theorem engineFormR_exec {i : Instr} {op : EngOp} {w : Base} {e : ExtR} (h : engineForm i = some (op, w, some e))
    (s : State) : exec i s = engineR_ s i op w e := by
  unfold engineForm at h; split at h <;> cases h <;> rfl

theorem queueFormPush_exec {i : Instr} {w : Base} {e : ExtR} (h : queueForm i = some (true, w, e)) (s : State) :
    exec i s = qpush s i w e := by
  unfold queueForm at h; split at h <;> cases h <;> rfl

theorem queueFormPop_exec {i : Instr} {w : Base} {e : ExtR} (h : queueForm i = some (false, w, e)) (s : State) :
    exec i s = qpop s i w e := by
  unfold queueForm at h; split at h <;> cases h <;> rfl

theorem kvForm_exec {i : Instr} {op : KvOp} {w : Base} {e : ExtM} (h : kvForm i = some (op, w, e)) (s : State) :
    exec i s = kvAccess s i op w e := by
  unfold kvForm at h; split at h <;> cases h <;> rfl

theorem kvCtlForm_exec {i : Instr} {op : KvCtlOp} {w : Base} {e : ExtC} (h : kvCtlForm i = some (op, w, e)) (s : State) :
    exec i s = kvCtl s i op w e := by
  unfold kvCtlForm at h; split at h <;> cases h <;> rfl

/-- A command's event is the run of its code and payload. -/
theorem commandForm_exec {i : Instr} {op : Nat} {p : List Byte} {s : State} (h : commandForm s i = some (op, p)) :
    exec i s = runCommand s op p := by
  cases i <;> first | (injection h with h; injection h with h1 h2; subst h1; subst h2; rfl) | cases h

/-- A command that the firmware takes is performed; where it awaits acknowledgements its answer comes later (11 R375). -/
theorem runCommand_accepts {s : State} {op : Nat} {p : List Byte} (h : Accepts s op p) :
    runCommand s op p =
      let r := perform s s.sel.master op p s.sel.pick
      .next (if r.s.modeChange.isSome then r.s else afterAnswer (answered s r.s r.status r.payload) op p r.status) := by
  obtain ⟨h0, h1, h2, h3, h4⟩ := h
  have h5 : (s.failed && !acceptedIn true op) = false := by cases hf : s.failed <;> simp_all
  have h6 : (s.power == .standby && !acceptedIn false op) = false := by
    by_cases hp : s.power = .standby <;> simp_all
  simp only [runCommand, command, h0, h1, h2, h5, h6, answered, Option.isSome_none, Bool.not_true, Bool.false_eq_true, if_false]

end Sys2Proof.Machine
end

