-- ==== Sys2Proof/Laws/Home.lean ====
section
/-! SUPPORT. What the shared operations on homes, caches and the bridge can change, and that the 16 lines of a 2 KiB block
lie in 16 different strips (08 R302). -/

namespace Sys2Proof.Machine

/-! ## Strips (R302) -/

/-- An element of a list and the rest of it are the list in another order. -/
theorem nth_dropIx_perm : ∀ (xs : List Nat) (i : Nat), i < xs.length → (nth 0 xs i :: dropIx xs i).Perm xs
  | [], _, h => absurd h (Nat.not_lt_zero _)
  | _ :: _, 0, _ => List.Perm.refl _
  | x :: xs, i + 1, h => by
    have k := nth_dropIx_perm xs i (Nat.lt_of_succ_lt_succ h)
    exact (List.Perm.swap x (nth 0 xs i) (dropIx xs i)).trans (k.cons x)

/-- Everything that a number codes of a list is a part of it, in another order. -/
theorem arrange_subperm : ∀ (n code : Nat) (xs : List Nat), n ≤ xs.length →
    (arrange n code xs).Subperm xs ∧ (arrange n code xs).length = n
  | 0, _, _, _ => ⟨List.nil_subperm, rfl⟩
  | n + 1, code, xs, h => by
    have hp := nth_dropIx_perm xs (code % xs.length) (Nat.mod_lt _ (by omega))
    have hl := hp.length_eq
    have ⟨a, b⟩ := arrange_subperm n (code / xs.length) (dropIx xs (code % xs.length)) (by simp at hl; omega)
    exact ⟨(List.subperm_cons _).2 a |>.trans hp.subperm, by simp [arrange, b]⟩

/-- The strips of the lines of a block are the 16 strips, each once. -/
theorem stripOrder_perm (block : Nat) : (stripOrder block).Perm (List.range 16) :=
  have h := arrange_subperm 16 (Config.stripCode block) (List.range 16) (by simp)
  h.1.perm_of_length_le (by rw [List.length_range]; exact h.2.ge)

theorem stripOf_lt (dpa : Nat) : stripOf dpa < 16 := by
  have hp := stripOrder_perm (dpa / 2048)
  have hl : (stripOrder (dpa / 2048)).length = 16 := by simpa using hp.length_eq
  have hm : stripOf dpa ∈ stripOrder (dpa / 2048) := by
    have h : dpa / 128 % 16 < (stripOrder (dpa / 2048)).length := by omega
    have k := (nth_dropIx_perm _ _ h).mem_iff (a := stripOf dpa)
    exact k.1 List.mem_cons_self
  simpa using hp.mem_iff.1 hm

/-! ## What an operation at a home changes -/

/-- Nothing differs but device memory, its poison and the dies: L2, RDC, TLB, service groups and bridge. -/
def OnlyHomes (s t : State) : Prop := t = { s with dram := t.dram, poisoned := t.poisoned, die0 := t.die0, die1 := t.die1 }

theorem OnlyHomes.refl (s : State) : OnlyHomes s s := rfl

theorem OnlyHomes.trans {s t u : State} (h : OnlyHomes s t) (k : OnlyHomes t u) : OnlyHomes s u := by
  unfold OnlyHomes at *
  rw [k, h]

theorem mapDie_onlyHomes (s : State) (d : Nat) (f : Die → Die) : OnlyHomes s (s.mapDie d f) := by
  unfold State.mapDie; split <;> rfl

theorem touchL2_onlyHomes (s : State) (dpa : Nat) (dirty : Bool) : OnlyHomes s (touchL2 s dpa dirty) := mapDie_onlyHomes _ _ _

theorem sendMsg_onlyHomes (s : State) (d : Nat) (k : BridgeKind) : OnlyHomes s (sendMsg s d k) := mapDie_onlyHomes _ _ _

theorem dequeue_onlyHomes (s : State) (dpa : Nat) (r : SvcRef) : OnlyHomes s (dequeue s dpa r) := mapDie_onlyHomes _ _ _

/-- A request arrives at its service group, and changes nothing else. -/
theorem enqueue_onlyHomes (s : State) (dpa : Nat) (r : SvcRef) : OnlyHomes s (enqueue s dpa r) := by
  unfold enqueue; exact mapDie_onlyHomes _ _ _

theorem performHome_onlyHomes (s : State) (cells : List Host.Cell) : OnlyHomes s (performHome s cells) := by
  unfold performHome
  split
  · rfl
  · exact OnlyHomes.trans (by rfl) (touchL2_onlyHomes _ _ _)

theorem afterHome_onlyHomes (s : State) (d line : Nat) (mask : BitVec 32) (ref : AckRef) :
    OnlyHomes s (afterHome s d line mask ref) := by
  unfold afterHome
  split
  · exact sendMsg_onlyHomes _ _ _
  · exact (sendMsg_onlyHomes _ _ _).trans (sendMsg_onlyHomes _ _ _)

theorem writeHome_onlyHomes (s : State) (d : Nat) (cells : List Host.Cell) (mask : BitVec 32) (ref : AckRef) :
    OnlyHomes s (writeHome s d cells mask ref) := by
  unfold writeHome
  split
  · rfl
  · split
    · exact (performHome_onlyHomes _ _).trans (afterHome_onlyHomes _ _ _ _ _)
    · exact sendMsg_onlyHomes _ _ _

theorem writeIn_onlyHomes (s : State) (cells : List Host.Cell) (ref : AckRef) : OnlyHomes s (writeIn s cells ref) := by
  unfold writeIn
  split
  · rfl
  · exact (performHome_onlyHomes _ _).trans (sendMsg_onlyHomes _ _ _)

theorem viaRdc_onlyHomes (s : State) (d : Nat) (key : RdcKey) (mask : BitVec 32) (home : List Byte) :
    OnlyHomes s (viaRdc s d key mask home).1 := by
  show OnlyHomes s (s.mapDie d fun _ => ((s.die d).rdcFill (s.waysLeft 3 d 0 rdcLines) key mask home).1)
  exact mapDie_onlyHomes _ _ _

theorem foldl_onlyHomes {α : Type} {f : State → α → State} (h : ∀ s x, OnlyHomes s (f s x)) :
    ∀ (xs : List α) (s : State), OnlyHomes s (xs.foldl f s)
  | [], _ => rfl
  | x :: xs, s => (h s x).trans (foldl_onlyHomes h xs (f s x))

theorem touchSpan_onlyHomes (s : State) (dpa n : Nat) (dirty : Bool) : OnlyHomes s (touchSpan s dpa n dirty) :=
  foldl_onlyHomes (fun s (p : Nat × BitVec 32) => touchL2_onlyHomes s p.1 dirty) _ _

theorem afterSpans_onlyHomes (d : Nat) (ref : AckRef) : ∀ (ps : List (Nat × BitVec 32)) (s : State),
    OnlyHomes s (afterSpans s d ref ps)
  | [], _ => rfl
  | [_], _ => afterHome_onlyHomes _ _ _ _ _
  | _ :: q :: ps, _ => (afterHome_onlyHomes _ _ _ _ _).trans (afterSpans_onlyHomes d ref (q :: ps) _)

theorem writeHomes_onlyHomes (d : Nat) (ref : AckRef) : ∀ (ps : List (List Host.Cell × BitVec 32)) (s : State),
    OnlyHomes s (writeHomes s d ref ps)
  | [], _ => rfl
  | [_], _ => writeHome_onlyHomes _ _ _ _ _
  | _ :: q :: ps, _ => (writeHome_onlyHomes _ _ _ _ _).trans (writeHomes_onlyHomes d ref (q :: ps) _)

theorem writeCells_onlyHomes (s : State) (d : Nat) (cells : List Host.Cell) (ref : AckRef) :
    OnlyHomes s (writeCells s d cells ref) := writeHomes_onlyHomes _ _ _ _

/-- A read of a home line changes no byte of device memory. -/
theorem fetchHome_onlyHomes {s t : State} {d dpa : Nat} {mask : BitVec 32} {bs : List Byte}
    (h : fetchHome s d dpa mask = some (t, bs)) : OnlyHomes s t := by
  unfold fetchHome at h
  simp only at h
  split at h
  · cases h; rfl
  · split at h
    · cases h; exact viaRdc_onlyHomes _ _ _ _ _
    · split at h
      · cases h
      · split at h
        · cases h; exact touchL2_onlyHomes _ _ _
        · cases h; exact (touchL2_onlyHomes _ _ _).trans (viaRdc_onlyHomes _ _ _ _ _)

/-- A fill reads: no byte of device memory changes by it. -/
theorem fetchLine_onlyHomes {s t : State} {d dpa : Nat} {mask : BitVec 32} {bs : List Byte}
    (h : fetchLine s d dpa mask = some (t, bs)) : OnlyHomes s t := by
  unfold fetchLine at h
  simp only at h
  split at h
  · exact fetchHome_onlyHomes h
  · split at h
    · cases h
    next _ u lo hu =>
      split at h
      · cases h
      next _ v hi hv =>
        cases h
        exact (fetchHome_onlyHomes hu).trans (fetchHome_onlyHomes hv)

end Sys2Proof.Machine
end

