-- ==== Sys2Proof/Laws/Memory.lean ====
section
/-! SUPPORT. Sparse contents: every operation keeps the canonical form, and a read after a write gives what was
written. -/

namespace Sys2Proof.Machine

variable {β : Type} [DecidableEq β] (d : β)

/-! ## The canonical form -/

theorem cellWfFrom_cons (lo : Option Nat) (k : Nat) (v : β) (m : List (Nat × β)) :
    cellWfFrom d lo ((k, v) :: m) = true ↔ (∀ l ∈ lo, l < k) ∧ v ≠ d ∧ cellWfFrom d (some k) m = true := by
  cases lo <;> simp [cellWfFrom, and_assoc]

/-- A list canonical above a bound is canonical above a lower one. -/
theorem cellWfFrom_weaken {lo : Option Nat} {k : Nat} {m : List (Nat × β)} (h : ∀ l ∈ lo, l ≤ k)
    (hm : cellWfFrom d (some k) m = true) : cellWfFrom d lo m = true := by
  cases m with
  | nil => rfl
  | cons p m =>
    rw [cellWfFrom_cons] at hm ⊢
    exact ⟨fun l hl => lt_of_le_of_lt (h l hl) (hm.1 k rfl), hm.2⟩

theorem cellWf_of_wfFrom {k : Nat} {m : List (Nat × β)} (hm : cellWfFrom d (some k) m = true) : cellWf d m = true :=
  cellWfFrom_weaken d (by simp) hm

/-- Writing keeps the canonical form above a bound that the index exceeds. -/
theorem cellWfFrom_cellSet (m : List (Nat × β)) : ∀ (lo : Option Nat) (i : Nat) (v : β), (∀ l ∈ lo, l < i) →
    cellWfFrom d lo m = true → cellWfFrom d lo (cellSet d m i v) = true := by
  induction m with
  | nil =>
    intro lo i v h _
    by_cases hv : v = d
    · simp [cellSet, hv, cellWfFrom]
    · simp only [cellSet, hv, if_false]
      exact (cellWfFrom_cons d lo i v []).2 ⟨h, hv, rfl⟩
  | cons p m ih =>
    obtain ⟨k, w⟩ := p
    intro lo i v h hm
    have hc := (cellWfFrom_cons d lo k w m).1 hm
    unfold cellSet
    split
    · rename_i hik
      split
      · exact hm
      · rename_i hv
        exact (cellWfFrom_cons ..).2 ⟨h, hv, (cellWfFrom_cons ..).2 ⟨by simpa using hik, hc.2⟩⟩
    · split
      · rename_i hik
        subst hik
        split
        · exact cellWfFrom_weaken d (fun l hl => le_of_lt (hc.1 l hl)) hc.2.2
        · rename_i hv
          exact (cellWfFrom_cons ..).2 ⟨hc.1, hv, hc.2.2⟩
      · rename_i h1 h2
        exact (cellWfFrom_cons ..).2 ⟨hc.1, hc.2.1, ih (some k) i v (by simp; omega) hc.2.2⟩

theorem cellWf_cellSet {m : List (Nat × β)} (h : cellWf d m = true) (i : Nat) (v : β) :
    cellWf d (cellSet d m i v) = true := cellWfFrom_cellSet d m none i v (by simp) h

theorem cellWf_cellPuts (vs : List β) : ∀ (m : List (Nat × β)) (a : Nat), cellWf d m = true →
    cellWf d (cellPuts d m a vs) = true := by
  induction vs with
  | nil => intro m a h; exact h
  | cons v vs ih => intro m a h; exact ih _ _ (cellWf_cellSet d h a v)

theorem cellWfFrom_filter (p : Nat × β → Bool) (m : List (Nat × β)) : ∀ (lo : Option Nat), cellWfFrom d lo m = true →
    cellWfFrom d lo (m.filter p) = true := by
  induction m with
  | nil => intro lo h; exact h
  | cons q m ih =>
    obtain ⟨k, v⟩ := q
    intro lo h
    have hc := (cellWfFrom_cons d lo k v m).1 h
    by_cases hp : p (k, v)
    · rw [List.filter_cons_of_pos hp]
      exact (cellWfFrom_cons ..).2 ⟨hc.1, hc.2.1, ih _ hc.2.2⟩
    · rw [List.filter_cons_of_neg hp]
      exact ih _ (cellWfFrom_weaken d (fun l hl => le_of_lt (hc.1 l hl)) hc.2.2)

theorem Memory.wf_set {m : Memory} (h : m.wf = true) (a : Nat) (v : Byte) : (m.set a v).wf = true := cellWf_cellSet _ h a v

theorem Memory.wf_put {m : Memory} (h : m.wf = true) (a : Nat) (bs : List Byte) : (m.put a bs).wf = true :=
  cellWf_cellPuts _ bs m a h

theorem Memory.wf_putNat {m : Memory} (h : m.wf = true) (a n x : Nat) : (m.putNat a n x).wf = true := Memory.wf_put h _ _

theorem Memory.wf_putCells {m : Memory} (h : m.wf = true) (cs : List Host.Cell) : (m.putCells cs).wf = true := by
  unfold Memory.putCells
  induction cs generalizing m with
  | nil => exact h
  | cons c cs ih => exact ih (Memory.wf_set h _ _)

theorem Memory.wf_zero {m : Memory} (h : m.wf = true) (a n : Nat) : (m.zero a n).wf = true := cellWfFrom_filter _ _ m none h

/-- Every memory lists nothing after reset. -/
theorem State.reset_memories : State.reset.dram = [] ∧ State.reset.hostMem = [] ∧ Core.reset.spad = [] ∧
    Core.reset.tileData = [] ∧ Core.reset.panels = [] := ⟨rfl, rfl, rfl, rfl, rfl⟩

theorem Memory.wf_nil : Memory.wf [] = true := rfl

theorem cellWfFrom_keys (m : List (Nat × β)) : ∀ {k : Nat}, cellWfFrom d (some k) m = true → ∀ p ∈ m, k < p.1 := by
  induction m with
  | nil => simp
  | cons q m ih =>
    intro k h p hp
    have hc := (cellWfFrom_cons d (some k) q.1 q.2 m).1 h
    rcases List.mem_cons.1 hp with rfl | hp
    · exact hc.1 k rfl
    · exact lt_trans (hc.1 k rfl) (ih hc.2.2 p hp)

/-- Moving a range of indices keeps the form. -/
theorem cellWfFrom_map (a b : Nat) (m : List (Nat × β)) : ∀ (lo lo' : Option Nat), (∀ p ∈ m, a ≤ p.1) →
    (∀ l' ∈ lo', ∀ p ∈ m, l' < p.1 - a + b) → cellWfFrom d lo m = true →
    cellWfFrom d lo' (m.map fun c => (c.1 - a + b, c.2)) = true := by
  induction m with
  | nil => intros; rfl
  | cons q m ih =>
    obtain ⟨k, v⟩ := q
    intro lo lo' ha hl h
    have hc := (cellWfFrom_cons d lo k v m).1 h
    refine (cellWfFrom_cons ..).2 ⟨fun l' h' => hl l' h' _ (by simp), hc.2.1, ih (some k) _ (fun p hp => ha p (by simp [hp])) ?_ hc.2.2⟩
    intro l' h' p hp
    have h1 := cellWfFrom_keys d m hc.2.2 p hp
    have h2 := ha (k, v) (by simp)
    simp at h' h2
    omega

/-- Joining canonical lists whose indices follow each other keeps the form. -/
theorem cellWfFrom_append (xs ys : List (Nat × β)) : ∀ lo : Option Nat, cellWfFrom d lo xs = true →
    (∀ l ∈ lo, ∀ q ∈ ys, l < q.1) → (∀ p ∈ xs, ∀ q ∈ ys, p.1 < q.1) → cellWf d ys = true →
    cellWfFrom d lo (xs ++ ys) = true := by
  induction xs with
  | nil =>
    intro lo _ hl _ hy
    cases ys with
    | nil => rfl
    | cons q ys =>
      have hc := (cellWfFrom_cons d none q.1 q.2 ys).1 hy
      exact (cellWfFrom_cons d lo q.1 q.2 ys).2 ⟨fun l h => hl l h q (by simp), hc.2⟩
  | cons p xs ih =>
    intro lo h hl hp hy
    have hc := (cellWfFrom_cons d lo p.1 p.2 xs).1 h
    refine (cellWfFrom_cons d lo p.1 p.2 _).2 ⟨hc.1, hc.2.1, ih _ hc.2.2 ?_ (fun r hr => hp r (by simp [hr])) hy⟩
    intro l hl' q hq
    simp at hl'
    exact hl' ▸ hp p (by simp) q hq

theorem Memory.wf_slice {m : Memory} (h : m.wf = true) (a n b : Nat) : (m.slice a n b).wf = true := by
  refine cellWfFrom_map 0#8 a b _ none none ?_ (by simp) (cellWfFrom_filter _ _ m none h)
  intro p hp
  have := List.mem_filter.1 hp
  simp at this
  exact this.2.1

theorem Memory.wf_splice {m new : Memory} (h : m.wf = true) (hn : new.wf = true) (a n : Nat)
    (hr : ∀ p ∈ new, a ≤ p.1 ∧ p.1 < a + n) : (m.splice a n new).wf = true := by
  have below : ∀ p ∈ m.filter (fun c => c.1 < a), p.1 < a := fun p hp => by simpa using (List.mem_filter.1 hp).2
  have above : ∀ p ∈ m.filter (fun c => a + n ≤ c.1), a + n ≤ p.1 := fun p hp => by simpa using (List.mem_filter.1 hp).2
  have h1 : cellWf 0#8 (m.filter (fun c => c.1 < a) ++ new) = true :=
    cellWfFrom_append 0#8 _ _ none (cellWfFrom_filter _ _ m none h) (by simp)
      (fun p hp q hq => lt_of_lt_of_le (below p hp) (hr q hq).1) hn
  refine cellWfFrom_append 0#8 _ _ none h1 (by simp) (fun p hp q hq => ?_) (cellWfFrom_filter _ _ m none h)
  rcases List.mem_append.1 hp with hp | hp
  · have := below p hp; have := above q hq; omega
  · have := hr p hp; have := above q hq; omega

/-! ## Reading after writing -/

omit [DecidableEq β] in
theorem cellGet_of_lt (m : List (Nat × β)) : ∀ {k i : Nat}, i ≤ k → (∀ p ∈ m, k < p.1) → cellGet d m i = d := by
  induction m with
  | nil => intros; rfl
  | cons p m ih =>
    intro k i h hm
    have hp := hm p (by simp)
    have : p.1 ≠ i := by omega
    simp only [cellGet, this, if_false]
    exact ih h fun q hq => hm q (by simp [hq])

theorem cellGet_cellSet (m : List (Nat × β)) : ∀ (lo : Option Nat) (i j : Nat) (v : β), cellWfFrom d lo m = true →
    cellGet d (cellSet d m i v) j = if j = i then v else cellGet d m j := by
  induction m with
  | nil =>
    intro lo i j v _
    by_cases hv : v = d <;> by_cases hj : j = i
    · simp [cellSet, cellGet, hv, hj]
    · simp [cellSet, cellGet, hv, hj]
    · simp [cellSet, cellGet, hv, hj]
    · simp [cellSet, cellGet, hv, hj, Ne.symm hj]
  | cons p m ih =>
    obtain ⟨k, w⟩ := p
    intro lo i j v h
    have hc := (cellWfFrom_cons d lo k w m).1 h
    have hk := cellWfFrom_keys d m hc.2.2
    unfold cellSet
    split
    · rename_i hik
      have hlow : cellGet d ((k, w) :: m) i = d := by
        have : k ≠ i := by omega
        simp only [cellGet, this, if_false]
        exact cellGet_of_lt d m (le_of_lt hik) hk
      split
      · rename_i hv
        by_cases hj : j = i
        · rw [if_pos hj, hj, hlow, hv]
        · rw [if_neg hj]
      · by_cases hj : j = i
        · simp [cellGet, hj]
        · simp [cellGet, hj, Ne.symm hj]
    · split
      · rename_i hik
        subst hik
        split
        · rename_i hv
          by_cases hj : j = i
          · rw [if_pos hj, hj, hv]
            exact cellGet_of_lt d m le_rfl hk
          · simp [cellGet, hj, Ne.symm hj]
        · by_cases hj : j = i
          · simp [cellGet, hj]
          · simp [cellGet, hj, Ne.symm hj]
      · rename_i h1 h2
        by_cases hj : j = k
        · subst hj
          simp [cellGet, Ne.symm h2]
        · simp only [cellGet, Ne.symm hj, if_false]
          exact ih (some k) i j v hc.2.2

theorem Memory.get_set {m : Memory} (h : m.wf = true) (a b : Nat) (v : Byte) :
    (m.set a v).get b = if b = a then v else m.get b := cellGet_cellSet _ m none a b v h

theorem Memory.get_put (bs : List Byte) : ∀ {m : Memory}, m.wf = true → ∀ a b : Nat,
    (m.put a bs).get b = if a ≤ b ∧ b < a + bs.length then nth 0#8 bs (b - a) else m.get b := by
  induction bs with
  | nil =>
    intro m _ a b
    have : ¬(a ≤ b ∧ b < a) := by omega
    simp [Memory.put, cellPuts, this]
  | cons v bs ih =>
    intro m h a b
    have hp : m.put a (v :: bs) = (m.set a v).put (a + 1) bs := rfl
    rw [hp, ih (Memory.wf_set h a v), Memory.get_set h]
    by_cases h1 : b = a
    · subst h1
      have : ¬(b + 1 ≤ b ∧ b < b + 1 + bs.length) := by omega
      simp [nth]
    · by_cases h2 : a + 1 ≤ b ∧ b < a + 1 + bs.length
      · have h3 : a ≤ b ∧ b < a + (v :: bs).length := by simp; omega
        rw [if_pos h2, if_pos h3]
        obtain ⟨k, rfl⟩ : ∃ k, b = a + 1 + k := ⟨b - (a + 1), by omega⟩
        have : a + 1 + k - a = k + 1 := by omega
        simp [this, nth]
      · have h3 : ¬(a ≤ b ∧ b < a + (v :: bs).length) := by simp; omega
        rw [if_neg h2, if_neg h1, if_neg h3]

/-- Bytes outside a write are as they were. -/
theorem Memory.get_put_other {m : Memory} (h : m.wf = true) (a b : Nat) (bs : List Byte)
    (hb : b < a ∨ a + bs.length ≤ b) : (m.put a bs).get b = m.get b := by
  rw [Memory.get_put bs h]
  exact if_neg (by omega)

@[simp] theorem bytesOfNat_length : ∀ n x : Nat, (bytesOfNat n x).length = n
  | 0, _ => rfl
  | n + 1, x => by simp [bytesOfNat, bytesOfNat_length n]

/-- A number is its bytes, the least significant first (00 R8). -/
theorem natOfBytes_bytesOfNat : ∀ n x : Nat, natOfBytes (bytesOfNat n x) = x % 256 ^ n
  | 0, x => by simp [bytesOfNat, natOfBytes, Nat.mod_one]
  | n + 1, x => by
    simp only [bytesOfNat, natOfBytes, natOfBytes_bytesOfNat n, BitVec.toNat_ofNat]
    rw [show (2 : Nat) ^ 8 = 256 from rfl, pow_succ, mul_comm (256 ^ n) 256, Nat.mod_mul]

/-! ## Lists -/

@[simp] theorem setNth_length {α : Type} (xs : List α) : ∀ (i : Nat) (y : α), (setNth xs i y).length = xs.length := by
  induction xs with
  | nil => intros; rfl
  | cons x xs ih => intro i y; cases i <;> simp [setNth, ih]

theorem nth_setNth_same {α : Type} (d : α) (xs : List α) : ∀ (i : Nat) (y : α), i < xs.length →
    nth d (setNth xs i y) i = y := by
  induction xs with
  | nil => intro i y h; simp at h
  | cons x xs ih =>
    intro i y h
    cases i with
    | zero => rfl
    | succ i => exact ih i y (by simpa using h)

theorem nth_setNth_other {α : Type} (d : α) (xs : List α) : ∀ (i j : Nat) (y : α), j ≠ i →
    nth d (setNth xs i y) j = nth d xs j := by
  induction xs with
  | nil => intros; rfl
  | cons x xs ih =>
    intro i j y h
    cases i with
    | zero => cases j with
      | zero => exact absurd rfl h
      | succ j => rfl
    | succ i => cases j with
      | zero => rfl
      | succ j => exact ih i j y (by omega)

end Sys2Proof.Machine
end

