-- ==== Sys2Proof/Laws/Words.lean ====
section
/-! SUPPORT. Every field of a word, written and read back (02 Tables 2.3 to 2.7, 06 Tables 6.1 to 6.6). -/

namespace Sys2Proof

/-! ## Fields of joined bits -/

theorem extractLow {m n : Nat} (x : BitVec m) (y : BitVec n) : (x ++ y).extractLsb' 0 n = y := by
  ext i hi
  simp [BitVec.getLsbD_append, hi]

theorem extractBelow {m n s l : Nat} (x : BitVec m) (y : BitVec n) (h : s + l ≤ n) :
    (x ++ y).extractLsb' s l = y.extractLsb' s l := by
  ext i hi
  have : s + i < n := by omega
  simp [BitVec.getLsbD_append, this]

theorem extractAbove {m n s l : Nat} (x : BitVec m) (y : BitVec n) (h : n ≤ s) :
    (x ++ y).extractLsb' s l = x.extractLsb' (s - n) l := by
  ext i hi
  have : ¬s + i < n := by omega
  simp [BitVec.getLsbD_append, this, show s - n + i = s + i - n by omega]

theorem extractAll {n : Nat} (x : BitVec n) : x.extractLsb' 0 n = x := by
  ext i hi
  simp

theorem bitBelow {m n i : Nat} (x : BitVec m) (y : BitVec n) (h : i < n) : (x ++ y).getLsbD i = y.getLsbD i := by
  simp [BitVec.getLsbD_append, h]

theorem bitAbove {m n i : Nat} (x : BitVec m) (y : BitVec n) (h : n ≤ i) : (x ++ y).getLsbD i = x.getLsbD (i - n) := by
  simp [BitVec.getLsbD_append, show ¬i < n by omega]

theorem bitOfBool (b : Bool) : (BitVec.ofBool b).getLsbD 0 = b := by cases b <;> rfl

/-! ## The base word -/

@[simp] theorem opOf_writeBase (op : BitVec 7) (l : Bool) (b : Base) : opOf (writeBase op l b) = op.toNat := by
  unfold opOf writeBase
  repeat rw [extractAbove _ _ (by omega)]
  exact congrArg BitVec.toNat (extractAll op)

@[simp] theorem longOf_writeBase (op : BitVec 7) (l : Bool) (b : Base) : longOf (writeBase op l b) = l := by
  unfold longOf writeBase
  rw [bitAbove _ _ (by omega), bitAbove _ _ (by omega), bitAbove _ _ (by omega), bitAbove _ _ (by omega),
    bitBelow _ _ (by omega)]
  exact bitOfBool l

@[simp] theorem readBase_writeBase (op : BitVec 7) (l : Bool) (b : Base) : readBase (writeBase op l b) = b := by
  obtain ⟨g, d, a, c⟩ := b
  unfold readBase writeBase
  congr 1
  · rw [extractAbove _ _ (by omega), extractAbove _ _ (by omega), extractAbove _ _ (by omega)]
    exact extractLow _ g
  · rw [extractAbove _ _ (by omega), extractAbove _ _ (by omega)]
    exact extractLow _ d
  · rw [extractAbove _ _ (by omega)]
    exact extractLow _ a
  · exact extractLow _ c

@[simp] theorem opOf_writeX (op : BitVec 7) (l : Bool) (g : BitVec 3) (r : BitVec 21) : opOf (writeX op l g r) = op.toNat := by
  unfold opOf writeX
  repeat rw [extractAbove _ _ (by omega)]
  exact congrArg BitVec.toNat (extractAll op)

@[simp] theorem longOf_writeX (op : BitVec 7) (l : Bool) (g : BitVec 3) (r : BitVec 21) : longOf (writeX op l g r) = l := by
  unfold longOf writeX
  rw [bitAbove _ _ (by omega), bitAbove _ _ (by omega), bitBelow _ _ (by omega)]
  exact bitOfBool l

theorem guardOf_writeX (op : BitVec 7) (l : Bool) (g : BitVec 3) (r : BitVec 21) :
    (writeX op l g r).extractLsb' 21 3 = g := by
  unfold writeX
  rw [extractAbove _ _ (by omega)]
  exact extractLow _ g

theorem restOf_writeX (op : BitVec 7) (l : Bool) (g : BitVec 3) (r : BitVec 21) {s n : Nat} (h : s + n ≤ 21) :
    (writeX op l g r).extractLsb' s n = r.extractLsb' s n := extractBelow _ r h

theorem bitOf_writeX (op : BitVec 7) (l : Bool) (g : BitVec 3) (r : BitVec 21) {i : Nat} (h : i < 21) :
    (writeX op l g r).getLsbD i = r.getLsbD i := bitBelow _ r h

/-! ## Extension words -/

@[simp] theorem efOf_writeExtR (x : ExtR) : efOf (writeExtR x) = 0 := by
  unfold efOf writeExtR
  repeat rw [extractAbove _ _ (by omega)]
  exact congrArg BitVec.toNat (extractAll 0#2)

@[simp] theorem readExtR_writeExtR (x : ExtR) : readExtR (writeExtR x) = x := by
  obtain ⟨gn, sd, sa, sb, t, sc, m, c, s, r⟩ := x
  unfold readExtR writeExtR
  congr 1
  · rw [bitAbove _ _ (by omega), bitAbove _ _ (by omega), bitAbove _ _ (by omega), bitAbove _ _ (by omega), bitAbove _ _ (by omega), bitAbove _ _ (by omega), bitAbove _ _ (by omega), bitAbove _ _ (by omega), bitAbove _ _ (by omega), bitBelow _ _ (by omega)]
    exact bitOfBool gn
  · rw [bitAbove _ _ (by omega), bitAbove _ _ (by omega), bitAbove _ _ (by omega), bitAbove _ _ (by omega), bitAbove _ _ (by omega), bitAbove _ _ (by omega), bitAbove _ _ (by omega), bitAbove _ _ (by omega), bitBelow _ _ (by omega)]
    exact bitOfBool sd
  · rw [bitAbove _ _ (by omega), bitAbove _ _ (by omega), bitAbove _ _ (by omega), bitAbove _ _ (by omega), bitAbove _ _ (by omega), bitAbove _ _ (by omega), bitAbove _ _ (by omega), bitBelow _ _ (by omega)]
    exact bitOfBool sa
  · rw [bitAbove _ _ (by omega), bitAbove _ _ (by omega), bitAbove _ _ (by omega), bitAbove _ _ (by omega), bitAbove _ _ (by omega), bitAbove _ _ (by omega), bitBelow _ _ (by omega)]
    exact bitOfBool sb
  · rw [extractAbove _ _ (by omega), extractAbove _ _ (by omega), extractAbove _ _ (by omega), extractAbove _ _ (by omega), extractAbove _ _ (by omega)]
    exact extractLow _ t
  · rw [extractAbove _ _ (by omega), extractAbove _ _ (by omega), extractAbove _ _ (by omega), extractAbove _ _ (by omega)]
    exact extractLow _ sc
  · rw [extractAbove _ _ (by omega), extractAbove _ _ (by omega), extractAbove _ _ (by omega)]
    exact extractLow _ m
  · rw [extractAbove _ _ (by omega), extractAbove _ _ (by omega)]
    exact extractLow _ c
  · rw [bitAbove _ _ (by omega), bitBelow _ _ (by omega)]
    exact bitOfBool s
  · exact extractLow _ r

@[simp] theorem efOf_writeExtI (x : ExtI) : efOf (writeExtI x) = 1 := by
  unfold efOf writeExtI
  repeat rw [extractAbove _ _ (by omega)]
  exact congrArg BitVec.toNat (extractAll 1#2)

@[simp] theorem readExtI_writeExtI (x : ExtI) : readExtI (writeExtI x) = x := by
  obtain ⟨gn, sd, sa, t, i⟩ := x
  unfold readExtI writeExtI
  congr 1
  · rw [bitAbove _ _ (by omega), bitAbove _ _ (by omega), bitAbove _ _ (by omega), bitAbove _ _ (by omega), bitBelow _ _ (by omega)]
    exact bitOfBool gn
  · rw [bitAbove _ _ (by omega), bitAbove _ _ (by omega), bitAbove _ _ (by omega), bitBelow _ _ (by omega)]
    exact bitOfBool sd
  · rw [bitAbove _ _ (by omega), bitAbove _ _ (by omega), bitBelow _ _ (by omega)]
    exact bitOfBool sa
  · rw [extractAbove _ _ (by omega)]
    exact extractLow _ t
  · exact extractLow _ i

@[simp] theorem efOf_writeExtM (x : ExtM) : efOf (writeExtM x) = 2 := by
  unfold efOf writeExtM
  repeat rw [extractAbove _ _ (by omega)]
  exact congrArg BitVec.toNat (extractAll 2#2)

@[simp] theorem readExtM_writeExtM (x : ExtM) : readExtM (writeExtM x) = x := by
  obtain ⟨gn, sd, sa, fr, h, sz, sc, xs, off⟩ := x
  unfold readExtM writeExtM
  congr 1
  · rw [bitAbove _ _ (by omega), bitAbove _ _ (by omega), bitAbove _ _ (by omega), bitAbove _ _ (by omega), bitAbove _ _ (by omega), bitAbove _ _ (by omega), bitAbove _ _ (by omega), bitAbove _ _ (by omega), bitBelow _ _ (by omega)]
    exact bitOfBool gn
  · rw [bitAbove _ _ (by omega), bitAbove _ _ (by omega), bitAbove _ _ (by omega), bitAbove _ _ (by omega), bitAbove _ _ (by omega), bitAbove _ _ (by omega), bitAbove _ _ (by omega), bitBelow _ _ (by omega)]
    exact bitOfBool sd
  · rw [bitAbove _ _ (by omega), bitAbove _ _ (by omega), bitAbove _ _ (by omega), bitAbove _ _ (by omega), bitAbove _ _ (by omega), bitAbove _ _ (by omega), bitBelow _ _ (by omega)]
    exact bitOfBool sa
  · rw [bitAbove _ _ (by omega), bitAbove _ _ (by omega), bitAbove _ _ (by omega), bitAbove _ _ (by omega), bitAbove _ _ (by omega), bitBelow _ _ (by omega)]
    exact bitOfBool fr
  · rw [extractAbove _ _ (by omega), extractAbove _ _ (by omega), extractAbove _ _ (by omega), extractAbove _ _ (by omega)]
    exact extractLow _ h
  · rw [extractAbove _ _ (by omega), extractAbove _ _ (by omega), extractAbove _ _ (by omega)]
    exact extractLow _ sz
  · rw [extractAbove _ _ (by omega), extractAbove _ _ (by omega)]
    exact extractLow _ sc
  · rw [extractAbove _ _ (by omega)]
    exact extractLow _ xs
  · exact extractLow _ off

@[simp] theorem efOf_writeExtC (x : ExtC) : efOf (writeExtC x) = 3 := by
  unfold efOf writeExtC
  repeat rw [extractAbove _ _ (by omega)]
  exact congrArg BitVec.toNat (extractAll 3#2)

@[simp] theorem readExtC_writeExtC (x : ExtC) : readExtC (writeExtC x) = x := by
  obtain ⟨gn, sd, sa, sc, i⟩ := x
  unfold readExtC writeExtC
  congr 1
  · rw [bitAbove _ _ (by omega), bitAbove _ _ (by omega), bitAbove _ _ (by omega), bitAbove _ _ (by omega), bitBelow _ _ (by omega)]
    exact bitOfBool gn
  · rw [bitAbove _ _ (by omega), bitAbove _ _ (by omega), bitAbove _ _ (by omega), bitBelow _ _ (by omega)]
    exact bitOfBool sd
  · rw [bitAbove _ _ (by omega), bitAbove _ _ (by omega), bitBelow _ _ (by omega)]
    exact bitOfBool sa
  · rw [extractAbove _ _ (by omega)]
    exact extractLow _ sc
  · exact extractLow _ i

/-! ## X words -/

@[simp] theorem readMm_writeMm (op : BitVec 7) (w : MmWord) : readMm (writeMm op w) = w := by
  obtain ⟨g, f0, f1, f2, f3, f4, f5, f6, f7⟩ := w
  unfold readMm writeMm
  congr 1
  · exact guardOf_writeX ..
  · rw [bitOf_writeX _ _ _ _ (by omega), bitAbove _ _ (by omega), bitAbove _ _ (by omega), bitAbove _ _ (by omega), bitAbove _ _ (by omega), bitAbove _ _ (by omega), bitAbove _ _ (by omega), bitAbove _ _ (by omega)]
    exact bitOfBool f0
  · rw [restOf_writeX _ _ _ _ (by omega), extractAbove _ _ (by omega), extractAbove _ _ (by omega), extractAbove _ _ (by omega), extractAbove _ _ (by omega), extractAbove _ _ (by omega), extractAbove _ _ (by omega)]
    exact extractLow _ f1
  · rw [restOf_writeX _ _ _ _ (by omega), extractAbove _ _ (by omega), extractAbove _ _ (by omega), extractAbove _ _ (by omega), extractAbove _ _ (by omega), extractAbove _ _ (by omega)]
    exact extractLow _ f2
  · rw [restOf_writeX _ _ _ _ (by omega), extractAbove _ _ (by omega), extractAbove _ _ (by omega), extractAbove _ _ (by omega), extractAbove _ _ (by omega)]
    exact extractLow _ f3
  · rw [restOf_writeX _ _ _ _ (by omega), extractAbove _ _ (by omega), extractAbove _ _ (by omega), extractAbove _ _ (by omega)]
    exact extractLow _ f4
  · rw [restOf_writeX _ _ _ _ (by omega), extractAbove _ _ (by omega), extractAbove _ _ (by omega)]
    exact extractLow _ f5
  · rw [bitOf_writeX _ _ _ _ (by omega), bitAbove _ _ (by omega), bitBelow _ _ (by omega)]
    exact bitOfBool f6
  · rw [bitOf_writeX _ _ _ _ (by omega), bitBelow _ _ (by omega)]
    exact bitOfBool f7

@[simp] theorem readScl_writeScl (w : SclWord) : readScl (writeScl w) = w := by
  obtain ⟨g, f0, f1, f2, f3, f4, f5⟩ := w
  unfold readScl writeScl
  congr 1
  · exact guardOf_writeX ..
  · rw [restOf_writeX _ _ _ _ (by omega), extractAbove _ _ (by omega), extractAbove _ _ (by omega), extractAbove _ _ (by omega), extractAbove _ _ (by omega), extractAbove _ _ (by omega)]
    exact extractAll f0
  · rw [restOf_writeX _ _ _ _ (by omega), extractAbove _ _ (by omega), extractAbove _ _ (by omega), extractAbove _ _ (by omega), extractAbove _ _ (by omega)]
    exact extractLow _ f1
  · rw [bitOf_writeX _ _ _ _ (by omega), bitAbove _ _ (by omega), bitAbove _ _ (by omega), bitAbove _ _ (by omega), bitBelow _ _ (by omega)]
    exact bitOfBool f2
  · rw [restOf_writeX _ _ _ _ (by omega), extractAbove _ _ (by omega), extractAbove _ _ (by omega)]
    exact extractLow _ f3
  · rw [bitOf_writeX _ _ _ _ (by omega), bitAbove _ _ (by omega), bitBelow _ _ (by omega)]
    exact bitOfBool f4
  · rw [restOf_writeX _ _ _ _ (by omega)]
    exact extractLow _ f5

@[simp] theorem readStrm_writeStrm (w : StrmWord) : readStrm (writeStrm w) = w := by
  obtain ⟨g, f0, f1, f2⟩ := w
  unfold readStrm writeStrm
  congr 1
  · exact guardOf_writeX ..
  · rw [restOf_writeX _ _ _ _ (by omega), extractAbove _ _ (by omega), extractAbove _ _ (by omega)]
    exact extractAll f0
  · rw [restOf_writeX _ _ _ _ (by omega), extractAbove _ _ (by omega)]
    exact extractLow _ f1
  · rw [restOf_writeX _ _ _ _ (by omega)]
    exact extractLow _ f2

@[simp] theorem readPanel_writePanel (w : PanelWord) : readPanel (writePanel w) = w := by
  obtain ⟨g, f0, f1, f2⟩ := w
  unfold readPanel writePanel
  congr 1
  · exact guardOf_writeX ..
  · rw [restOf_writeX _ _ _ _ (by omega), extractAbove _ _ (by omega), extractAbove _ _ (by omega)]
    exact extractAll f0
  · rw [restOf_writeX _ _ _ _ (by omega), extractAbove _ _ (by omega)]
    exact extractLow _ f1
  · rw [restOf_writeX _ _ _ _ (by omega)]
    exact extractLow _ f2

@[simp] theorem readIter_writeIter (src : Bool) (w : IterWord) : readIter (writeIter src w) w.value = w := by
  obtain ⟨g, f0, f1, f3, f4, v⟩ := w
  unfold readIter writeIter
  congr 1
  · exact guardOf_writeX ..
  · rw [restOf_writeX _ _ _ _ (by omega), extractAbove _ _ (by omega), extractAbove _ _ (by omega), extractAbove _ _ (by omega), extractAbove _ _ (by omega)]
    exact extractAll f0
  · rw [restOf_writeX _ _ _ _ (by omega), extractAbove _ _ (by omega), extractAbove _ _ (by omega), extractAbove _ _ (by omega)]
    exact extractLow _ f1
  · rw [restOf_writeX _ _ _ _ (by omega), extractAbove _ _ (by omega)]
    exact extractLow _ f3
  · rw [restOf_writeX _ _ _ _ (by omega)]
    exact extractLow _ f4

@[simp] theorem readLoop_writeLoop (w : LoopWord) : readLoop (writeLoop w) w.count = w := by
  obtain ⟨g, f0, f1, f2, v⟩ := w
  unfold readLoop writeLoop
  congr 1
  · exact guardOf_writeX ..
  · rw [restOf_writeX _ _ _ _ (by omega), extractAbove _ _ (by omega), extractAbove _ _ (by omega)]
    exact extractAll f0
  · rw [restOf_writeX _ _ _ _ (by omega), extractAbove _ _ (by omega)]
    exact extractLow _ f1
  · rw [restOf_writeX _ _ _ _ (by omega)]
    exact extractLow _ f2

@[simp] theorem readXgive_writeXgive (w : XgiveWord) : readXgive (writeXgive w) = w := by
  obtain ⟨g, f0, f1, f2⟩ := w
  unfold readXgive writeXgive
  congr 1
  · exact guardOf_writeX ..
  · rw [restOf_writeX _ _ _ _ (by omega), extractAbove _ _ (by omega), extractAbove _ _ (by omega)]
    exact extractAll f0
  · rw [restOf_writeX _ _ _ _ (by omega), extractAbove _ _ (by omega)]
    exact extractLow _ f1
  · rw [restOf_writeX _ _ _ _ (by omega)]
    exact extractLow _ f2

@[simp] theorem readXtake_writeXtake (w : XtakeWord) : readXtake (writeXtake w) = w := by
  obtain ⟨g, f0, f1⟩ := w
  unfold readXtake writeXtake
  congr 1
  · exact guardOf_writeX ..
  · rw [restOf_writeX _ _ _ _ (by omega), extractAbove _ _ (by omega)]
    exact extractAll f0
  · rw [restOf_writeX _ _ _ _ (by omega)]
    exact extractLow _ f1

@[simp] theorem readXsig_writeXsig (kind : Bool) (w : XsigWord) : readXsig (writeXsig kind w) = w := by
  obtain ⟨g, f1, f2⟩ := w
  unfold readXsig writeXsig
  congr 1
  · exact guardOf_writeX ..
  · rw [restOf_writeX _ _ _ _ (by omega), extractAbove _ _ (by omega)]
    exact extractLow _ f1
  · rw [restOf_writeX _ _ _ _ (by omega)]
    exact extractLow _ f2

@[simp] theorem readXwait_writeXwait (w : XwaitWord) : readXwait (writeXwait w) = w := by
  obtain ⟨g, f0, f1, f2⟩ := w
  unfold readXwait writeXwait
  congr 1
  · exact guardOf_writeX ..
  · rw [bitOf_writeX _ _ _ _ (by omega), bitAbove _ _ (by omega), bitAbove _ _ (by omega)]
    exact bitOfBool f0
  · rw [restOf_writeX _ _ _ _ (by omega), extractAbove _ _ (by omega)]
    exact extractLow _ f1
  · rw [restOf_writeX _ _ _ _ (by omega)]
    exact extractLow _ f2

@[simp] theorem readXend_writeXend (w : XendWord) : readXend (writeXend w) = w := by
  obtain ⟨g, f0⟩ := w
  unfold readXend writeXend
  congr 1
  · exact guardOf_writeX ..
  · rw [restOf_writeX _ _ _ _ (by omega)]
    exact extractAll f0

theorem srcOf_writeIter (src : Bool) (w : IterWord) : (writeIter src w).getLsbD 14 = src := by
  unfold writeIter
  rw [bitOf_writeX _ _ _ _ (by omega), bitAbove _ _ (by omega), bitAbove _ _ (by omega), bitBelow _ _ (by omega)]
  exact bitOfBool src

theorem kindOf_writeXsig (kind : Bool) (w : XsigWord) : (writeXsig kind w).getLsbD 20 = kind := by
  unfold writeXsig
  rw [bitOf_writeX _ _ _ _ (by omega), bitAbove _ _ (by omega), bitAbove _ _ (by omega)]
  exact bitOfBool kind

/-! ## The shapes of a decoding -/

theorem dShort_short (op : BitVec 7) (b : Base) (k : Base → Instr) (d : Decoded) :
    dShort (writeBase op false b) k d = .ok (k b) := by simp [dShort]

theorem dShort_long (op : BitVec 7) (b : Base) (k : Base → Instr) (d : Decoded) :
    dShort (writeBase op true b) k d = d := by simp [dShort]

theorem dLong_long (op : BitVec 7) (b : Base) (d : Decoded) : dLong (writeBase op true b) d = d := by simp [dLong]

theorem dR_write (op : BitVec 7) (l : Bool) (b : Base) (x : ExtR) (k : Base → ExtR → Instr) :
    dR (writeBase op l b) (writeExtR x) k = .ok (k b x) := by simp [dR]

theorem dRI_write (op : BitVec 7) (l : Bool) (b : Base) (x : ExtRI) (k : Base → ExtRI → Instr) :
    dRI (writeBase op l b) (writeExtRI x) k = .ok (k b x) := by
  cases x <;> simp [dRI, writeExtRI]

theorem dM_write (op : BitVec 7) (l : Bool) (b : Base) (x : ExtM) (k : Base → ExtM → Instr) :
    dM (writeBase op l b) (writeExtM x) k = .ok (k b x) := by simp [dM]

theorem dC_write (op : BitVec 7) (l : Bool) (b : Base) (x : ExtC) (k : Base → ExtC → Instr) :
    dC (writeBase op l b) (writeExtC x) k = .ok (k b x) := by simp [dC]

theorem dX_write (op : BitVec 7) (g : BitVec 3) (r : BitVec 21) (i : Instr) : dX (writeX op false g r) i = .ok i := by
  simp [dX]

theorem dXL_write (op : BitVec 7) (g : BitVec 3) (r : BitVec 21) (i : Instr) : dXL (writeX op true g r) i = .ok i := by
  simp [dXL]

end Sys2Proof
end

