-- ==== Sys2Proof/Laws/PerInstr.lean ====
section
/-! SUPPORT. Two families over all instructions. Encoding: the base word carries the instruction's opcode, and LONG tells
how many words it has (02 R68, R69, 06 R224); a step of the device has no words. RoundTrip: the words of a well-formed
instruction decode to it. -/

namespace Sys2Proof.Laws.Encoding

/-- The words of an instruction: a base word with its opcode, and one word more when LONG is set. What has no opcode has
no words, but for an unassigned opcode, which stands for the words it is given. -/
def Statement (i : Instr) : Prop :=
  (∀ c op, i.opcode = some (c, op) →
    ∃ w ws, encode i = w :: ws ∧ opOf w = op.toNat ∧ ws.length = if longOf w then 1 else 0) ∧
  (i.opcode = none → encode i = [] ∨ ∃ c w x, i = .unassignedOpcode c w x)

theorem ofWords {i : Instr} {c : Cls} {op : BitVec 7} {l : Bool} {w : Word} {ws : List Word} (h : i.opcode = some (c, op))
    (e : encode i = w :: ws) (ho : opOf w = op.toNat) (hl : longOf w = l) (hn : ws.length = if l then 1 else 0) :
    Statement i := by
  refine ⟨fun c' op' h' => ⟨w, ws, e, ?_, by rw [hl, hn]⟩, fun h' => ?_⟩
  · rw [h] at h'
    cases h'
    exact ho
  · rw [h] at h'
    cases h'

theorem ofShort {i : Instr} {c : Cls} {op : BitVec 7} {b : Base} (h : i.opcode = some (c, op))
    (e : encode i = [writeBase op false b]) : Statement i :=
  ofWords h e (opOf_writeBase ..) (longOf_writeBase ..) rfl

theorem ofLong {i : Instr} {c : Cls} {op : BitVec 7} {b : Base} {x : Word} (h : i.opcode = some (c, op))
    (e : encode i = [writeBase op true b, x]) : Statement i :=
  ofWords h e (opOf_writeBase ..) (longOf_writeBase ..) rfl

theorem ofX {i : Instr} {c : Cls} {op : BitVec 7} {l : Bool} {g : BitVec 3} {r : BitVec 21} {ws : List Word}
    (h : i.opcode = some (c, op)) (e : encode i = writeX op l g r :: ws) (hn : ws.length = if l then 1 else 0) :
    Statement i :=
  ofWords h e (opOf_writeX ..) (longOf_writeX ..) hn

theorem ofNone {i : Instr} (h : i.opcode = none) (e : encode i = []) : Statement i :=
  ⟨fun _ _ q => (nomatch (h.symm.trans q)), fun _ => Or.inl e⟩

/-! ## One lemma for each constructor -/

theorem unassignedOpcode (cls : Cls) (base : Word) (ext : Option Word) : Statement (.unassignedOpcode cls base ext) :=
  ⟨fun _ _ h => (nomatch h), fun _ => .inr ⟨_, _, _, rfl⟩⟩
theorem iadd (w : Base) : Statement (.iadd w) := ofShort rfl rfl
theorem iaddLong (w : Base) (x : ExtRI) : Statement (.iaddLong w x) := ofLong rfl rfl
theorem isub (w : Base) : Statement (.isub w) := ofShort rfl rfl
theorem isubLong (w : Base) (x : ExtRI) : Statement (.isubLong w x) := ofLong rfl rfl
theorem imul (w : Base) : Statement (.imul w) := ofShort rfl rfl
theorem imulLong (w : Base) (x : ExtRI) : Statement (.imulLong w x) := ofLong rfl rfl
theorem imulh (w : Base) : Statement (.imulh w) := ofShort rfl rfl
theorem imulhLong (w : Base) (x : ExtRI) : Statement (.imulhLong w x) := ofLong rfl rfl
theorem imad (w : Base) (x : ExtR) : Statement (.imad w x) := ofLong rfl rfl
theorem imin (w : Base) : Statement (.imin w) := ofShort rfl rfl
theorem iminLong (w : Base) (x : ExtRI) : Statement (.iminLong w x) := ofLong rfl rfl
theorem imax (w : Base) : Statement (.imax w) := ofShort rfl rfl
theorem imaxLong (w : Base) (x : ExtRI) : Statement (.imaxLong w x) := ofLong rfl rfl
theorem iabs (w : Base) : Statement (.iabs w) := ofShort rfl rfl
theorem iabsLong (w : Base) (x : ExtRI) : Statement (.iabsLong w x) := ofLong rfl rfl
theorem ineg (w : Base) : Statement (.ineg w) := ofShort rfl rfl
theorem inegLong (w : Base) (x : ExtRI) : Statement (.inegLong w x) := ofLong rfl rfl
theorem isad (w : Base) (x : ExtR) : Statement (.isad w x) := ofLong rfl rfl
theorem andW (w : Base) : Statement (.andW w) := ofShort rfl rfl
theorem andLong (w : Base) (x : ExtRI) : Statement (.andLong w x) := ofLong rfl rfl
theorem orW (w : Base) : Statement (.orW w) := ofShort rfl rfl
theorem orLong (w : Base) (x : ExtRI) : Statement (.orLong w x) := ofLong rfl rfl
theorem xorW (w : Base) : Statement (.xorW w) := ofShort rfl rfl
theorem xorLong (w : Base) (x : ExtRI) : Statement (.xorLong w x) := ofLong rfl rfl
theorem andn (w : Base) : Statement (.andn w) := ofShort rfl rfl
theorem andnLong (w : Base) (x : ExtRI) : Statement (.andnLong w x) := ofLong rfl rfl
theorem notW (w : Base) : Statement (.notW w) := ofShort rfl rfl
theorem notLong (w : Base) (x : ExtRI) : Statement (.notLong w x) := ofLong rfl rfl
theorem shl (w : Base) : Statement (.shl w) := ofShort rfl rfl
theorem shlLong (w : Base) (x : ExtRI) : Statement (.shlLong w x) := ofLong rfl rfl
theorem shr (w : Base) : Statement (.shr w) := ofShort rfl rfl
theorem shrLong (w : Base) (x : ExtRI) : Statement (.shrLong w x) := ofLong rfl rfl
theorem sar (w : Base) : Statement (.sar w) := ofShort rfl rfl
theorem sarLong (w : Base) (x : ExtRI) : Statement (.sarLong w x) := ofLong rfl rfl
theorem rotl (w : Base) : Statement (.rotl w) := ofShort rfl rfl
theorem rotlLong (w : Base) (x : ExtRI) : Statement (.rotlLong w x) := ofLong rfl rfl
theorem popc (w : Base) : Statement (.popc w) := ofShort rfl rfl
theorem popcLong (w : Base) (x : ExtRI) : Statement (.popcLong w x) := ofLong rfl rfl
theorem clz (w : Base) : Statement (.clz w) := ofShort rfl rfl
theorem clzLong (w : Base) (x : ExtRI) : Statement (.clzLong w x) := ofLong rfl rfl
theorem brev (w : Base) : Statement (.brev w) := ofShort rfl rfl
theorem brevLong (w : Base) (x : ExtRI) : Statement (.brevLong w x) := ofLong rfl rfl
theorem bfx (w : Base) : Statement (.bfx w) := ofShort rfl rfl
theorem bfxLong (w : Base) (x : ExtRI) : Statement (.bfxLong w x) := ofLong rfl rfl
theorem bfi (w : Base) (x : ExtR) : Statement (.bfi w x) := ofLong rfl rfl
theorem perm (w : Base) (x : ExtR) : Statement (.perm w x) := ofLong rfl rfl
theorem icmp (w : Base) (x : ExtRI) : Statement (.icmp w x) := ofLong rfl rfl
theorem fcmp (w : Base) (x : ExtRI) : Statement (.fcmp w x) := ofLong rfl rfl
theorem sel (w : Base) (x : ExtR) : Statement (.sel w x) := ofLong rfl rfl
theorem plop (w : Base) (x : ExtR) : Statement (.plop w x) := ofLong rfl rfl
theorem mov (w : Base) : Statement (.mov w) := ofShort rfl rfl
theorem movLong (w : Base) (x : ExtR) : Statement (.movLong w x) := ofLong rfl rfl
theorem movi (w : Base) (imm : Word) : Statement (.movi w imm) := ofLong rfl rfl
theorem lea (w : Base) : Statement (.lea w) := ofShort rfl rfl
theorem leaLong (w : Base) (x : ExtRI) : Statement (.leaLong w x) := ofLong rfl rfl
theorem fadd (w : Base) : Statement (.fadd w) := ofShort rfl rfl
theorem faddLong (w : Base) (x : ExtRI) : Statement (.faddLong w x) := ofLong rfl rfl
theorem fsub (w : Base) : Statement (.fsub w) := ofShort rfl rfl
theorem fsubLong (w : Base) (x : ExtRI) : Statement (.fsubLong w x) := ofLong rfl rfl
theorem fmul (w : Base) : Statement (.fmul w) := ofShort rfl rfl
theorem fmulLong (w : Base) (x : ExtRI) : Statement (.fmulLong w x) := ofLong rfl rfl
theorem ffma (w : Base) (x : ExtR) : Statement (.ffma w x) := ofLong rfl rfl
theorem fmin (w : Base) : Statement (.fmin w) := ofShort rfl rfl
theorem fminLong (w : Base) (x : ExtRI) : Statement (.fminLong w x) := ofLong rfl rfl
theorem fmax (w : Base) : Statement (.fmax w) := ofShort rfl rfl
theorem fmaxLong (w : Base) (x : ExtRI) : Statement (.fmaxLong w x) := ofLong rfl rfl
theorem fscl (w : Base) : Statement (.fscl w) := ofShort rfl rfl
theorem fsclLong (w : Base) (x : ExtRI) : Statement (.fsclLong w x) := ofLong rfl rfl
theorem frnd (w : Base) : Statement (.frnd w) := ofShort rfl rfl
theorem frndLong (w : Base) (x : ExtRI) : Statement (.frndLong w x) := ofLong rfl rfl
theorem hadd2 (w : Base) : Statement (.hadd2 w) := ofShort rfl rfl
theorem hadd2Long (w : Base) (x : ExtR) : Statement (.hadd2Long w x) := ofLong rfl rfl
theorem hmul2 (w : Base) : Statement (.hmul2 w) := ofShort rfl rfl
theorem hmul2Long (w : Base) (x : ExtR) : Statement (.hmul2Long w x) := ofLong rfl rfl
theorem hfma2 (w : Base) (x : ExtR) : Statement (.hfma2 w x) := ofLong rfl rfl
theorem frcp (w : Base) : Statement (.frcp w) := ofShort rfl rfl
theorem frcpLong (w : Base) (x : ExtR) : Statement (.frcpLong w x) := ofLong rfl rfl
theorem frsq (w : Base) : Statement (.frsq w) := ofShort rfl rfl
theorem frsqLong (w : Base) (x : ExtR) : Statement (.frsqLong w x) := ofLong rfl rfl
theorem fsqrt (w : Base) : Statement (.fsqrt w) := ofShort rfl rfl
theorem fsqrtLong (w : Base) (x : ExtR) : Statement (.fsqrtLong w x) := ofLong rfl rfl
theorem fexp2 (w : Base) : Statement (.fexp2 w) := ofShort rfl rfl
theorem fexp2Long (w : Base) (x : ExtR) : Statement (.fexp2Long w x) := ofLong rfl rfl
theorem flog2 (w : Base) : Statement (.flog2 w) := ofShort rfl rfl
theorem flog2Long (w : Base) (x : ExtR) : Statement (.flog2Long w x) := ofLong rfl rfl
theorem fsin (w : Base) : Statement (.fsin w) := ofShort rfl rfl
theorem fsinLong (w : Base) (x : ExtR) : Statement (.fsinLong w x) := ofLong rfl rfl
theorem fcos (w : Base) : Statement (.fcos w) := ofShort rfl rfl
theorem fcosLong (w : Base) (x : ExtR) : Statement (.fcosLong w x) := ofLong rfl rfl
theorem ftanh (w : Base) : Statement (.ftanh w) := ofShort rfl rfl
theorem ftanhLong (w : Base) (x : ExtR) : Statement (.ftanhLong w x) := ofLong rfl rfl
theorem cvt (w : Base) (x : ExtR) : Statement (.cvt w x) := ofLong rfl rfl
theorem cvtp (w : Base) (x : ExtR) : Statement (.cvtp w x) := ofLong rfl rfl
theorem shfl (w : Base) : Statement (.shfl w) := ofShort rfl rfl
theorem shflLong (w : Base) (x : ExtRI) : Statement (.shflLong w x) := ofLong rfl rfl
theorem ballot (w : Base) : Statement (.ballot w) := ofShort rfl rfl
theorem ballotLong (w : Base) (x : ExtR) : Statement (.ballotLong w x) := ofLong rfl rfl
theorem vote (w : Base) : Statement (.vote w) := ofShort rfl rfl
theorem voteLong (w : Base) (x : ExtR) : Statement (.voteLong w x) := ofLong rfl rfl
theorem redux (w : Base) : Statement (.redux w) := ofShort rfl rfl
theorem reduxLong (w : Base) (x : ExtR) : Statement (.reduxLong w x) := ofLong rfl rfl
theorem scan (w : Base) : Statement (.scan w) := ofShort rfl rfl
theorem scanLong (w : Base) (x : ExtR) : Statement (.scanLong w x) := ofLong rfl rfl
theorem bcast (w : Base) : Statement (.bcast w) := ofShort rfl rfl
theorem bcastLong (w : Base) (x : ExtRI) : Statement (.bcastLong w x) := ofLong rfl rfl
theorem vrand (w : Base) (x : ExtR) : Statement (.vrand w x) := ofLong rfl rfl
theorem bra (w : Base) (x : ExtC) : Statement (.bra w x) := ofLong rfl rfl
theorem bri (w : Base) : Statement (.bri w) := ofShort rfl rfl
theorem briLong (w : Base) (x : ExtR) : Statement (.briLong w x) := ofLong rfl rfl
theorem call (w : Base) (x : ExtC) : Statement (.call w x) := ofLong rfl rfl
theorem ret (w : Base) : Statement (.ret w) := ofShort rfl rfl
theorem retLong (w : Base) (x : ExtR) : Statement (.retLong w x) := ofLong rfl rfl
theorem conv (w : Base) : Statement (.conv w) := ofShort rfl rfl
theorem convLong (w : Base) (x : ExtR) : Statement (.convLong w x) := ofLong rfl rfl
theorem lyield (w : Base) : Statement (.lyield w) := ofShort rfl rfl
theorem lyieldLong (w : Base) (x : ExtR) : Statement (.lyieldLong w x) := ofLong rfl rfl
theorem prio (w : Base) : Statement (.prio w) := ofShort rfl rfl
theorem prioLong (w : Base) (x : ExtR) : Statement (.prioLong w x) := ofLong rfl rfl
theorem exit (w : Base) : Statement (.exit w) := ofShort rfl rfl
theorem exitLong (w : Base) (x : ExtR) : Statement (.exitLong w x) := ofLong rfl rfl
theorem nop (w : Base) : Statement (.nop w) := ofShort rfl rfl
theorem nopLong (w : Base) (x : ExtR) : Statement (.nopLong w x) := ofLong rfl rfl
theorem sld (w : Base) : Statement (.sld w) := ofShort rfl rfl
theorem sldLong (w : Base) (x : ExtM) : Statement (.sldLong w x) := ofLong rfl rfl
theorem sst (w : Base) : Statement (.sst w) := ofShort rfl rfl
theorem sstLong (w : Base) (x : ExtM) : Statement (.sstLong w x) := ofLong rfl rfl
theorem satom (w : Base) (x : ExtM) : Statement (.satom w x) := ofLong rfl rfl
theorem cld (w : Base) : Statement (.cld w) := ofShort rfl rfl
theorem cldLong (w : Base) (x : ExtM) : Statement (.cldLong w x) := ofLong rfl rfl
theorem cst (w : Base) : Statement (.cst w) := ofShort rfl rfl
theorem cstLong (w : Base) (x : ExtM) : Statement (.cstLong w x) := ofLong rfl rfl
theorem catom (w : Base) (x : ExtM) : Statement (.catom w x) := ofLong rfl rfl
theorem gld (w : Base) : Statement (.gld w) := ofShort rfl rfl
theorem gldLong (w : Base) (x : ExtM) : Statement (.gldLong w x) := ofLong rfl rfl
theorem gst (w : Base) : Statement (.gst w) := ofShort rfl rfl
theorem gstLong (w : Base) (x : ExtM) : Statement (.gstLong w x) := ofLong rfl rfl
theorem gatom (w : Base) (x : ExtM) : Statement (.gatom w x) := ofLong rfl rfl
theorem gred (w : Base) (x : ExtM) : Statement (.gred w x) := ofLong rfl rfl
theorem hld (w : Base) : Statement (.hld w) := ofShort rfl rfl
theorem hldLong (w : Base) (x : ExtM) : Statement (.hldLong w x) := ofLong rfl rfl
theorem hst (w : Base) : Statement (.hst w) := ofShort rfl rfl
theorem hstLong (w : Base) (x : ExtM) : Statement (.hstLong w x) := ofLong rfl rfl
theorem pld (w : Base) (x : ExtM) : Statement (.pld w x) := ofLong rfl rfl
theorem put (w : Base) (x : ExtM) : Statement (.put w x) := ofLong rfl rfl
theorem patom (w : Base) (x : ExtM) : Statement (.patom w x) := ofLong rfl rfl
theorem kld (w : Base) (x : ExtM) : Statement (.kld w x) := ofLong rfl rfl
theorem kst (w : Base) (x : ExtM) : Statement (.kst w x) := ofLong rfl rfl
theorem ksts (w : Base) (x : ExtM) : Statement (.ksts w x) := ofLong rfl rfl
theorem fence (w : Base) : Statement (.fence w) := ofShort rfl rfl
theorem fenceLong (w : Base) (x : ExtC) : Statement (.fenceLong w x) := ofLong rfl rfl
theorem fenceWalk (w : Base) (x : ExtC) : Statement (.fenceWalk w x) := ofLong rfl rfl
theorem acq (w : Base) : Statement (.acq w) := ofShort rfl rfl
theorem acqLong (w : Base) (x : ExtC) : Statement (.acqLong w x) := ofLong rfl rfl
theorem acqRemote (w : Base) (x : ExtC) : Statement (.acqRemote w x) := ofLong rfl rfl
theorem rel (w : Base) : Statement (.rel w) := ofShort rfl rfl
theorem relLong (w : Base) (x : ExtC) : Statement (.relLong w x) := ofLong rfl rfl
theorem pref (w : Base) : Statement (.pref w) := ofShort rfl rfl
theorem prefLong (w : Base) (x : ExtM) : Statement (.prefLong w x) := ofLong rfl rfl
theorem bare (w : Base) (x : ExtC) : Statement (.bare w x) := ofLong rfl rfl
theorem bara (w : Base) (x : ExtC) : Statement (.bara w x) := ofLong rfl rfl
theorem barw (w : Base) (x : ExtC) : Statement (.barw w x) := ofLong rfl rfl
theorem baraw (w : Base) (x : ExtC) : Statement (.baraw w x) := ofLong rfl rfl
theorem give (w : Base) (x : ExtC) : Statement (.give w x) := ofLong rfl rfl
theorem take (w : Base) (x : ExtC) : Statement (.take w x) := ofLong rfl rfl
theorem ownq (w : Base) (x : ExtC) : Statement (.ownq w x) := ofLong rfl rfl
theorem ctradd (w : Base) (x : ExtC) : Statement (.ctradd w x) := ofLong rfl rfl
theorem ctrwait (w : Base) (x : ExtC) : Statement (.ctrwait w x) := ofLong rfl rfl
theorem ctrrd (w : Base) (x : ExtC) : Statement (.ctrrd w x) := ofLong rfl rfl
theorem ringwFill (w : Base) (x : ExtC) : Statement (.ringwFill w x) := ofLong rfl rfl
theorem ringwFree (w : Base) (x : ExtC) : Statement (.ringwFree w x) := ofLong rfl rfl
theorem ringlFill (w : Base) (x : ExtC) : Statement (.ringlFill w x) := ofLong rfl rfl
theorem ringlFree (w : Base) (x : ExtC) : Statement (.ringlFree w x) := ofLong rfl rfl
theorem ringq (w : Base) (x : ExtC) : Statement (.ringq w x) := ofLong rfl rfl
theorem mm (w : MmWord) : Statement (.mm w) := ofX rfl rfl rfl
theorem mmz (w : MmWord) : Statement (.mmz w) := ofX rfl rfl rfl
theorem scl (w : SclWord) : Statement (.scl w) := ofX rfl rfl rfl
theorem strm (w : StrmWord) : Statement (.strm w) := ofX rfl rfl rfl
theorem panel (w : PanelWord) : Statement (.panel w) := ofX rfl rfl rfl
theorem iterImm (w : IterWord) : Statement (.iterImm w) := ofX rfl rfl rfl
theorem iterReg (w : IterWord) : Statement (.iterReg w) := ofX rfl rfl rfl
theorem loop (w : LoopWord) : Statement (.loop w) := ofX rfl rfl rfl
theorem xgive (w : XgiveWord) : Statement (.xgive w) := ofX rfl rfl rfl
theorem xtake (w : XtakeWord) : Statement (.xtake w) := ofX rfl rfl rfl
theorem xsig (w : XsigWord) : Statement (.xsig w) := ofX rfl rfl rfl
theorem xsigBar (w : XsigWord) : Statement (.xsigBar w) := ofX rfl rfl rfl
theorem xwait (w : XwaitWord) : Statement (.xwait w) := ofX rfl rfl rfl
theorem xend (w : XendWord) : Statement (.xend w) := ofX rfl rfl rfl
theorem cnest (w : Base) (x : ExtC) : Statement (.cnest w x) := ofLong rfl rfl
theorem cgo (w : Base) (x : ExtC) : Statement (.cgo w x) := ofLong rfl rfl
theorem cpy (w : Base) (x : ExtC) : Statement (.cpy w x) := ofLong rfl rfl
theorem cred (w : Base) (x : ExtC) : Statement (.cred w x) := ofLong rfl rfl
theorem qtz (w : Base) (x : ExtR) : Statement (.qtz w x) := ofLong rfl rfl
theorem dqz (w : Base) (x : ExtR) : Statement (.dqz w x) := ofLong rfl rfl
theorem rqz (w : Base) (x : ExtR) : Statement (.rqz w x) := ofLong rfl rfl
theorem rqzKv (w : Base) (x : ExtR) : Statement (.rqzKv w x) := ofLong rfl rfl
theorem lsend (w : Base) (x : ExtR) : Statement (.lsend w x) := ofLong rfl rfl
theorem lsendPort (w : Base) (x : ExtR) : Statement (.lsendPort w x) := ofLong rfl rfl
theorem lradd (w : Base) (x : ExtR) : Statement (.lradd w x) := ofLong rfl rfl
theorem lwin (w : Base) (x : ExtR) : Statement (.lwin w x) := ofLong rfl rfl
theorem qpush (w : Base) : Statement (.qpush w) := ofShort rfl rfl
theorem qpushLong (w : Base) (x : ExtR) : Statement (.qpushLong w x) := ofLong rfl rfl
theorem qpop (w : Base) : Statement (.qpop w) := ofShort rfl rfl
theorem qpopLong (w : Base) (x : ExtR) : Statement (.qpopLong w x) := ofLong rfl rfl
theorem kopen (w : Base) (x : ExtC) : Statement (.kopen w x) := ofLong rfl rfl
theorem kcommit (w : Base) (x : ExtC) : Statement (.kcommit w x) := ofLong rfl rfl
theorem kdrop (w : Base) (x : ExtC) : Statement (.kdrop w x) := ofLong rfl rfl
theorem kmapAlloc (w : Base) (x : ExtC) : Statement (.kmapAlloc w x) := ofLong rfl rfl
theorem kmapFree (w : Base) (x : ExtC) : Statement (.kmapFree w x) := ofLong rfl rfl
theorem kmapFetch (w : Base) (x : ExtC) : Statement (.kmapFetch w x) := ofLong rfl rfl
theorem kmapEvict (w : Base) (x : ExtC) : Statement (.kmapEvict w x) := ofLong rfl rfl
theorem kmapLen (w : Base) (x : ExtC) : Statement (.kmapLen w x) := ofLong rfl rfl
theorem kmapQuery (w : Base) (x : ExtC) : Statement (.kmapQuery w x) := ofLong rfl rfl
theorem route (w : Base) (x : ExtR) : Statement (.route w x) := ofLong rfl rfl
theorem rret (w : Base) (x : ExtR) : Statement (.rret w x) := ofLong rfl rfl
theorem rxwait (w : Base) (x : ExtR) : Statement (.rxwait w x) := ofLong rfl rfl
theorem rxstat (w : Base) (x : ExtR) : Statement (.rxstat w x) := ofLong rfl rfl
theorem amerge (w : Base) (x : ExtR) : Statement (.amerge w x) := ofLong rfl rfl
theorem smxup (w : Base) (x : ExtR) : Statement (.smxup w x) := ofLong rfl rfl
theorem sread (w : Base) (x : ExtC) : Statement (.sread w x) := ofLong rfl rfl
theorem swrite (w : Base) (x : ExtC) : Statement (.swrite w x) := ofLong rfl rfl
theorem mode (w : Base) (x : ExtC) : Statement (.mode w x) := ofLong rfl rfl
theorem trap (w : Base) (x : ExtC) : Statement (.trap w x) := ofLong rfl rfl
theorem rett (w : Base) : Statement (.rett w) := ofShort rfl rfl
theorem rettLong (w : Base) (x : ExtR) : Statement (.rettLong w x) := ofLong rfl rfl
theorem sleep (w : Base) (x : ExtC) : Statement (.sleep w x) := ofLong rfl rfl
theorem schedulerSelect : Statement .schedulerSelect := ofNone rfl rfl
theorem trapEntry : Statement .trapEntry := ofNone rfl rfl
theorem deliveredFaultTrap : Statement .deliveredFaultTrap := ofNone rfl rfl
theorem loadLand : Statement .loadLand := ofNone rfl rfl
theorem storeDrain : Statement .storeDrain := ofNone rfl rfl
theorem longOpLand : Statement .longOpLand := ofNone rfl rfl
theorem takeComplete : Statement .takeComplete := ofNone rfl rfl
theorem arriveApply : Statement .arriveApply := ofNone rfl rfl
theorem ctraddApply : Statement .ctraddApply := ofNone rfl rfl
theorem ringlApply : Statement .ringlApply := ofNone rfl rfl
theorem sleepExpire : Statement .sleepExpire := ofNone rfl rfl
theorem syncActionsComplete : Statement .syncActionsComplete := ofNone rfl rfl
theorem atomicPerform : Statement .atomicPerform := ofNone rfl rfl
theorem bridgeMessageApply : Statement .bridgeMessageApply := ofNone rfl rfl
theorem blockEnd : Statement .blockEnd := ofNone rfl rfl
theorem xclauseHandoff : Statement .xclauseHandoff := ofNone rfl rfl
theorem seqClauseStart : Statement .seqClauseStart := ofNone rfl rfl
theorem pairClauseStart : Statement .pairClauseStart := ofNone rfl rfl
theorem seqIssue : Statement .seqIssue := ofNone rfl rfl
theorem passWritebackLand : Statement .passWritebackLand := ofNone rfl rfl
theorem xsigApply : Statement .xsigApply := ofNone rfl rfl
theorem xendPush : Statement .xendPush := ofNone rfl rfl
theorem seqClauseRetire : Statement .seqClauseRetire := ofNone rfl rfl
theorem engineCommandStart : Statement .engineCommandStart := ofNone rfl rfl
theorem engineCommandRetire : Statement .engineCommandRetire := ofNone rfl rfl
theorem cgoSlotPublish : Statement .cgoSlotPublish := ofNone rfl rfl
theorem indirectCommand : Statement .indirectCommand := ofNone rfl rfl
theorem lraddElementAdd : Statement .lraddElementAdd := ofNone rfl rfl
theorem routeDispatch : Statement .routeDispatch := ofNone rfl rfl
theorem inboxLanding : Statement .inboxLanding := ofNone rfl rfl
theorem routeReturnArrival : Statement .routeReturnArrival := ofNone rfl rfl
theorem routeTimeout : Statement .routeTimeout := ofNone rfl rfl
theorem kvStatusLand : Statement .kvStatusLand := ofNone rfl rfl
theorem kvCommitPoint : Statement .kvCommitPoint := ofNone rfl rfl
theorem kvFetchComplete : Statement .kvFetchComplete := ofNone rfl rfl
theorem kvEvictComplete : Statement .kvEvictComplete := ofNone rfl rfl
theorem rqzKvSwap : Statement .rqzKvSwap := ofNone rfl rfl
theorem amergeFold : Statement .amergeFold := ofNone rfl rfl
theorem putLanding : Statement .putLanding := ofNone rfl rfl
theorem putAck : Statement .putAck := ofNone rfl rfl
theorem tlbWalkComplete : Statement .tlbWalkComplete := ofNone rfl rfl
theorem preemptionStop : Statement .preemptionStop := ofNone rfl rfl
theorem contextSave : Statement .contextSave := ofNone rfl rfl
theorem contextRestore : Statement .contextRestore := ofNone rfl rfl
theorem admission : Statement .admission := ofNone rfl rfl
theorem blockPlacement : Statement .blockPlacement := ofNone rfl rfl
theorem kernelBoundary : Statement .kernelBoundary := ofNone rfl rfl
theorem errorRetry : Statement .errorRetry := ofNone rfl rfl
theorem flitCheckFail : Statement .flitCheckFail := ofNone rfl rfl
theorem downFlitReceive : Statement .downFlitReceive := ofNone rfl rfl
theorem bridgeMessageFail : Statement .bridgeMessageFail := ofNone rfl rfl
theorem linkUp : Statement .linkUp := ofNone rfl rfl
theorem windowModeNotify : Statement .windowModeNotify := ofNone rfl rfl
theorem hostPortDown : Statement .hostPortDown := ofNone rfl rfl
theorem apertureWrite : Statement .apertureWrite := ofNone rfl rfl
theorem apertureRead : Statement .apertureRead := ofNone rfl rfl
theorem slotDoneClear : Statement .slotDoneClear := ofNone rfl rfl
theorem evrBaseWrite : Statement .evrBaseWrite := ofNone rfl rfl
theorem registerWrite : Statement .registerWrite := ofNone rfl rfl
theorem powerDutyUpdate : Statement .powerDutyUpdate := ofNone rfl rfl
theorem idleEntry : Statement .idleEntry := ofNone rfl rfl
theorem thermalThrottle : Statement .thermalThrottle := ofNone rfl rfl
theorem thermalHalt : Statement .thermalHalt := ofNone rfl rfl
theorem thermalRecover : Statement .thermalRecover := ofNone rfl rfl
theorem thermalShutdown : Statement .thermalShutdown := ofNone rfl rfl
theorem resetPin : Statement .resetPin := ofNone rfl rfl
theorem query : Statement .query := ofNone rfl rfl
theorem launch : Statement .launch := ofNone rfl rfl
theorem kill : Statement .kill := ofNone rfl rfl
theorem preempt : Statement .preempt := ofNone rfl rfl
theorem resume : Statement .resume := ofNone rfl rfl
theorem pageResolve : Statement .pageResolve := ofNone rfl rfl
theorem pageRefuse : Statement .pageRefuse := ofNone rfl rfl
theorem ptInvalidate : Statement .ptInvalidate := ofNone rfl rfl
theorem kvCreate : Statement .kvCreate := ofNone rfl rfl
theorem kvDestroy : Statement .kvDestroy := ofNone rfl rfl
theorem kvPool : Statement .kvPool := ofNone rfl rfl
theorem routeCreate : Statement .routeCreate := ofNone rfl rfl
theorem routeSet : Statement .routeSet := ofNone rfl rfl
theorem routeDestroy : Statement .routeDestroy := ofNone rfl rfl
theorem windowExpose : Statement .windowExpose := ofNone rfl rfl
theorem windowRegister : Statement .windowRegister := ofNone rfl rfl
theorem windowMode : Statement .windowMode := ofNone rfl rfl
theorem windowRemove : Statement .windowRemove := ofNone rfl rfl
theorem partitionSet : Statement .partitionSet := ofNone rfl rfl
theorem fabricConfig : Statement .fabricConfig := ofNone rfl rfl
theorem fabricReset : Statement .fabricReset := ofNone rfl rfl
theorem apertureSet : Statement .apertureSet := ofNone rfl rfl
theorem ownerClaim : Statement .ownerClaim := ofNone rfl rfl
theorem ownerHandover : Statement .ownerHandover := ofNone rfl rfl
theorem ownerAccept : Statement .ownerAccept := ofNone rfl rfl
theorem ownerRelease : Statement .ownerRelease := ofNone rfl rfl
theorem spdm : Statement .spdm := ofNone rfl rfl
theorem getVersion : Statement .getVersion := ofNone rfl rfl
theorem getCapabilities : Statement .getCapabilities := ofNone rfl rfl
theorem negotiateAlgorithms : Statement .negotiateAlgorithms := ofNone rfl rfl
theorem getDigests : Statement .getDigests := ofNone rfl rfl
theorem getCertificate : Statement .getCertificate := ofNone rfl rfl
theorem challenge : Statement .challenge := ofNone rfl rfl
theorem getMeasurements : Statement .getMeasurements := ofNone rfl rfl
theorem keyExchange : Statement .keyExchange := ofNone rfl rfl
theorem chunkSend : Statement .chunkSend := ofNone rfl rfl
theorem chunkGet : Statement .chunkGet := ofNone rfl rfl
theorem patchLoad : Statement .patchLoad := ofNone rfl rfl
theorem resetWarm : Statement .resetWarm := ofNone rfl rfl
theorem resetCold : Statement .resetCold := ofNone rfl rfl
theorem powerSetActive : Statement .powerSetActive := ofNone rfl rfl
theorem powerSetStandby : Statement .powerSetStandby := ofNone rfl rfl
theorem doorbell : Statement .doorbell := ofNone rfl rfl
theorem hostPortUp : Statement .hostPortUp := ofNone rfl rfl
theorem linkGoesDown : Statement .linkGoesDown := ofNone rfl rfl
theorem remoteReadArrival : Statement .remoteReadArrival := ofNone rfl rfl
theorem windowRegisterFetch : Statement .windowRegisterFetch := ofNone rfl rfl
theorem backBelowThrottle : Statement .backBelowThrottle := ofNone rfl rfl

end Sys2Proof.Laws.Encoding

namespace Sys2Proof.Laws.RoundTrip

open Sys2Proof.Machine

/-- The words of an instruction decode to it. -/
def Statement (i : Instr) : Prop :=
  ∀ c op, i.opcode = some (c, op) → i.canonical = true →
    decode c (nth 0#32 (encode i) 0) (nth 0#32 (encode i) 1) = .ok i

theorem of {i : Instr} {c : Cls} {op : BitVec 7} {ws : List Word} (h : i.opcode = some (c, op)) (e : encode i = ws)
    (d : i.canonical = true → decode c (nth 0#32 ws 0) (nth 0#32 ws 1) = .ok i) : Statement i := by
  intro c' op' h' hc
  rw [h] at h'
  cases h'
  rw [e]
  exact d hc

theorem ofNone {i : Instr} (h : i.opcode = none) : Statement i := fun _ _ q => (nomatch (h.symm.trans q))

theorem unassignedOpcode (cls : Cls) (base : Word) (ext : Option Word) : Statement (.unassignedOpcode cls base ext) := ofNone rfl
theorem iadd (w : Base) : Statement (.iadd w) := of (ws := [writeBase 0x00#7 false w]) rfl rfl fun h => by
  change decodeV (writeBase 0x00#7 false w) (0#32) = _
  unfold decodeV
  rw [opOf_writeBase]
  exact dShort_short ..
theorem iaddLong (w : Base) (x : ExtRI) : Statement (.iaddLong w x) := of (ws := [writeBase 0x00#7 true w, writeExtRI x]) rfl rfl fun h => by
  change decodeV (writeBase 0x00#7 true w) (writeExtRI x) = _
  unfold decodeV
  rw [opOf_writeBase]
  exact (dShort_long ..).trans (dRI_write ..)
theorem isub (w : Base) : Statement (.isub w) := of (ws := [writeBase 0x01#7 false w]) rfl rfl fun h => by
  change decodeV (writeBase 0x01#7 false w) (0#32) = _
  unfold decodeV
  rw [opOf_writeBase]
  exact dShort_short ..
theorem isubLong (w : Base) (x : ExtRI) : Statement (.isubLong w x) := of (ws := [writeBase 0x01#7 true w, writeExtRI x]) rfl rfl fun h => by
  change decodeV (writeBase 0x01#7 true w) (writeExtRI x) = _
  unfold decodeV
  rw [opOf_writeBase]
  exact (dShort_long ..).trans (dRI_write ..)
theorem imul (w : Base) : Statement (.imul w) := of (ws := [writeBase 0x02#7 false w]) rfl rfl fun h => by
  change decodeV (writeBase 0x02#7 false w) (0#32) = _
  unfold decodeV
  rw [opOf_writeBase]
  exact dShort_short ..
theorem imulLong (w : Base) (x : ExtRI) : Statement (.imulLong w x) := of (ws := [writeBase 0x02#7 true w, writeExtRI x]) rfl rfl fun h => by
  change decodeV (writeBase 0x02#7 true w) (writeExtRI x) = _
  unfold decodeV
  rw [opOf_writeBase]
  exact (dShort_long ..).trans (dRI_write ..)
theorem imulh (w : Base) : Statement (.imulh w) := of (ws := [writeBase 0x03#7 false w]) rfl rfl fun h => by
  change decodeV (writeBase 0x03#7 false w) (0#32) = _
  unfold decodeV
  rw [opOf_writeBase]
  exact dShort_short ..
theorem imulhLong (w : Base) (x : ExtRI) : Statement (.imulhLong w x) := of (ws := [writeBase 0x03#7 true w, writeExtRI x]) rfl rfl fun h => by
  change decodeV (writeBase 0x03#7 true w) (writeExtRI x) = _
  unfold decodeV
  rw [opOf_writeBase]
  exact (dShort_long ..).trans (dRI_write ..)
theorem imad (w : Base) (x : ExtR) : Statement (.imad w x) := of (ws := [writeBase 0x04#7 true w, writeExtR x]) rfl rfl fun h => by
  change decodeV (writeBase 0x04#7 true w) (writeExtR x) = _
  unfold decodeV
  rw [opOf_writeBase]
  exact (dLong_long ..).trans (dR_write ..)
theorem imin (w : Base) : Statement (.imin w) := of (ws := [writeBase 0x05#7 false w]) rfl rfl fun h => by
  change decodeV (writeBase 0x05#7 false w) (0#32) = _
  unfold decodeV
  rw [opOf_writeBase]
  exact dShort_short ..
theorem iminLong (w : Base) (x : ExtRI) : Statement (.iminLong w x) := of (ws := [writeBase 0x05#7 true w, writeExtRI x]) rfl rfl fun h => by
  change decodeV (writeBase 0x05#7 true w) (writeExtRI x) = _
  unfold decodeV
  rw [opOf_writeBase]
  exact (dShort_long ..).trans (dRI_write ..)
theorem imax (w : Base) : Statement (.imax w) := of (ws := [writeBase 0x06#7 false w]) rfl rfl fun h => by
  change decodeV (writeBase 0x06#7 false w) (0#32) = _
  unfold decodeV
  rw [opOf_writeBase]
  exact dShort_short ..
theorem imaxLong (w : Base) (x : ExtRI) : Statement (.imaxLong w x) := of (ws := [writeBase 0x06#7 true w, writeExtRI x]) rfl rfl fun h => by
  change decodeV (writeBase 0x06#7 true w) (writeExtRI x) = _
  unfold decodeV
  rw [opOf_writeBase]
  exact (dShort_long ..).trans (dRI_write ..)
theorem iabs (w : Base) : Statement (.iabs w) := of (ws := [writeBase 0x07#7 false w]) rfl rfl fun h => by
  change decodeV (writeBase 0x07#7 false w) (0#32) = _
  unfold decodeV
  rw [opOf_writeBase]
  exact dShort_short ..
theorem iabsLong (w : Base) (x : ExtRI) : Statement (.iabsLong w x) := of (ws := [writeBase 0x07#7 true w, writeExtRI x]) rfl rfl fun h => by
  change decodeV (writeBase 0x07#7 true w) (writeExtRI x) = _
  unfold decodeV
  rw [opOf_writeBase]
  exact (dShort_long ..).trans (dRI_write ..)
theorem ineg (w : Base) : Statement (.ineg w) := of (ws := [writeBase 0x08#7 false w]) rfl rfl fun h => by
  change decodeV (writeBase 0x08#7 false w) (0#32) = _
  unfold decodeV
  rw [opOf_writeBase]
  exact dShort_short ..
theorem inegLong (w : Base) (x : ExtRI) : Statement (.inegLong w x) := of (ws := [writeBase 0x08#7 true w, writeExtRI x]) rfl rfl fun h => by
  change decodeV (writeBase 0x08#7 true w) (writeExtRI x) = _
  unfold decodeV
  rw [opOf_writeBase]
  exact (dShort_long ..).trans (dRI_write ..)
theorem isad (w : Base) (x : ExtR) : Statement (.isad w x) := of (ws := [writeBase 0x09#7 true w, writeExtR x]) rfl rfl fun h => by
  change decodeV (writeBase 0x09#7 true w) (writeExtR x) = _
  unfold decodeV
  rw [opOf_writeBase]
  exact (dLong_long ..).trans (dR_write ..)
theorem andW (w : Base) : Statement (.andW w) := of (ws := [writeBase 0x10#7 false w]) rfl rfl fun h => by
  change decodeV (writeBase 0x10#7 false w) (0#32) = _
  unfold decodeV
  rw [opOf_writeBase]
  exact dShort_short ..
theorem andLong (w : Base) (x : ExtRI) : Statement (.andLong w x) := of (ws := [writeBase 0x10#7 true w, writeExtRI x]) rfl rfl fun h => by
  change decodeV (writeBase 0x10#7 true w) (writeExtRI x) = _
  unfold decodeV
  rw [opOf_writeBase]
  exact (dShort_long ..).trans (dRI_write ..)
theorem orW (w : Base) : Statement (.orW w) := of (ws := [writeBase 0x11#7 false w]) rfl rfl fun h => by
  change decodeV (writeBase 0x11#7 false w) (0#32) = _
  unfold decodeV
  rw [opOf_writeBase]
  exact dShort_short ..
theorem orLong (w : Base) (x : ExtRI) : Statement (.orLong w x) := of (ws := [writeBase 0x11#7 true w, writeExtRI x]) rfl rfl fun h => by
  change decodeV (writeBase 0x11#7 true w) (writeExtRI x) = _
  unfold decodeV
  rw [opOf_writeBase]
  exact (dShort_long ..).trans (dRI_write ..)
theorem xorW (w : Base) : Statement (.xorW w) := of (ws := [writeBase 0x12#7 false w]) rfl rfl fun h => by
  change decodeV (writeBase 0x12#7 false w) (0#32) = _
  unfold decodeV
  rw [opOf_writeBase]
  exact dShort_short ..
theorem xorLong (w : Base) (x : ExtRI) : Statement (.xorLong w x) := of (ws := [writeBase 0x12#7 true w, writeExtRI x]) rfl rfl fun h => by
  change decodeV (writeBase 0x12#7 true w) (writeExtRI x) = _
  unfold decodeV
  rw [opOf_writeBase]
  exact (dShort_long ..).trans (dRI_write ..)
theorem andn (w : Base) : Statement (.andn w) := of (ws := [writeBase 0x13#7 false w]) rfl rfl fun h => by
  change decodeV (writeBase 0x13#7 false w) (0#32) = _
  unfold decodeV
  rw [opOf_writeBase]
  exact dShort_short ..
theorem andnLong (w : Base) (x : ExtRI) : Statement (.andnLong w x) := of (ws := [writeBase 0x13#7 true w, writeExtRI x]) rfl rfl fun h => by
  change decodeV (writeBase 0x13#7 true w) (writeExtRI x) = _
  unfold decodeV
  rw [opOf_writeBase]
  exact (dShort_long ..).trans (dRI_write ..)
theorem notW (w : Base) : Statement (.notW w) := of (ws := [writeBase 0x14#7 false w]) rfl rfl fun h => by
  change decodeV (writeBase 0x14#7 false w) (0#32) = _
  unfold decodeV
  rw [opOf_writeBase]
  exact dShort_short ..
theorem notLong (w : Base) (x : ExtRI) : Statement (.notLong w x) := of (ws := [writeBase 0x14#7 true w, writeExtRI x]) rfl rfl fun h => by
  change decodeV (writeBase 0x14#7 true w) (writeExtRI x) = _
  unfold decodeV
  rw [opOf_writeBase]
  exact (dShort_long ..).trans (dRI_write ..)
theorem shl (w : Base) : Statement (.shl w) := of (ws := [writeBase 0x15#7 false w]) rfl rfl fun h => by
  change decodeV (writeBase 0x15#7 false w) (0#32) = _
  unfold decodeV
  rw [opOf_writeBase]
  exact dShort_short ..
theorem shlLong (w : Base) (x : ExtRI) : Statement (.shlLong w x) := of (ws := [writeBase 0x15#7 true w, writeExtRI x]) rfl rfl fun h => by
  change decodeV (writeBase 0x15#7 true w) (writeExtRI x) = _
  unfold decodeV
  rw [opOf_writeBase]
  exact (dShort_long ..).trans (dRI_write ..)
theorem shr (w : Base) : Statement (.shr w) := of (ws := [writeBase 0x16#7 false w]) rfl rfl fun h => by
  change decodeV (writeBase 0x16#7 false w) (0#32) = _
  unfold decodeV
  rw [opOf_writeBase]
  exact dShort_short ..
theorem shrLong (w : Base) (x : ExtRI) : Statement (.shrLong w x) := of (ws := [writeBase 0x16#7 true w, writeExtRI x]) rfl rfl fun h => by
  change decodeV (writeBase 0x16#7 true w) (writeExtRI x) = _
  unfold decodeV
  rw [opOf_writeBase]
  exact (dShort_long ..).trans (dRI_write ..)
theorem sar (w : Base) : Statement (.sar w) := of (ws := [writeBase 0x17#7 false w]) rfl rfl fun h => by
  change decodeV (writeBase 0x17#7 false w) (0#32) = _
  unfold decodeV
  rw [opOf_writeBase]
  exact dShort_short ..
theorem sarLong (w : Base) (x : ExtRI) : Statement (.sarLong w x) := of (ws := [writeBase 0x17#7 true w, writeExtRI x]) rfl rfl fun h => by
  change decodeV (writeBase 0x17#7 true w) (writeExtRI x) = _
  unfold decodeV
  rw [opOf_writeBase]
  exact (dShort_long ..).trans (dRI_write ..)
theorem rotl (w : Base) : Statement (.rotl w) := of (ws := [writeBase 0x18#7 false w]) rfl rfl fun h => by
  change decodeV (writeBase 0x18#7 false w) (0#32) = _
  unfold decodeV
  rw [opOf_writeBase]
  exact dShort_short ..
theorem rotlLong (w : Base) (x : ExtRI) : Statement (.rotlLong w x) := of (ws := [writeBase 0x18#7 true w, writeExtRI x]) rfl rfl fun h => by
  change decodeV (writeBase 0x18#7 true w) (writeExtRI x) = _
  unfold decodeV
  rw [opOf_writeBase]
  exact (dShort_long ..).trans (dRI_write ..)
theorem popc (w : Base) : Statement (.popc w) := of (ws := [writeBase 0x19#7 false w]) rfl rfl fun h => by
  change decodeV (writeBase 0x19#7 false w) (0#32) = _
  unfold decodeV
  rw [opOf_writeBase]
  exact dShort_short ..
theorem popcLong (w : Base) (x : ExtRI) : Statement (.popcLong w x) := of (ws := [writeBase 0x19#7 true w, writeExtRI x]) rfl rfl fun h => by
  change decodeV (writeBase 0x19#7 true w) (writeExtRI x) = _
  unfold decodeV
  rw [opOf_writeBase]
  exact (dShort_long ..).trans (dRI_write ..)
theorem clz (w : Base) : Statement (.clz w) := of (ws := [writeBase 0x1A#7 false w]) rfl rfl fun h => by
  change decodeV (writeBase 0x1A#7 false w) (0#32) = _
  unfold decodeV
  rw [opOf_writeBase]
  exact dShort_short ..
theorem clzLong (w : Base) (x : ExtRI) : Statement (.clzLong w x) := of (ws := [writeBase 0x1A#7 true w, writeExtRI x]) rfl rfl fun h => by
  change decodeV (writeBase 0x1A#7 true w) (writeExtRI x) = _
  unfold decodeV
  rw [opOf_writeBase]
  exact (dShort_long ..).trans (dRI_write ..)
theorem brev (w : Base) : Statement (.brev w) := of (ws := [writeBase 0x1B#7 false w]) rfl rfl fun h => by
  change decodeV (writeBase 0x1B#7 false w) (0#32) = _
  unfold decodeV
  rw [opOf_writeBase]
  exact dShort_short ..
theorem brevLong (w : Base) (x : ExtRI) : Statement (.brevLong w x) := of (ws := [writeBase 0x1B#7 true w, writeExtRI x]) rfl rfl fun h => by
  change decodeV (writeBase 0x1B#7 true w) (writeExtRI x) = _
  unfold decodeV
  rw [opOf_writeBase]
  exact (dShort_long ..).trans (dRI_write ..)
theorem bfx (w : Base) : Statement (.bfx w) := of (ws := [writeBase 0x1C#7 false w]) rfl rfl fun h => by
  change decodeV (writeBase 0x1C#7 false w) (0#32) = _
  unfold decodeV
  rw [opOf_writeBase]
  exact dShort_short ..
theorem bfxLong (w : Base) (x : ExtRI) : Statement (.bfxLong w x) := of (ws := [writeBase 0x1C#7 true w, writeExtRI x]) rfl rfl fun h => by
  change decodeV (writeBase 0x1C#7 true w) (writeExtRI x) = _
  unfold decodeV
  rw [opOf_writeBase]
  exact (dShort_long ..).trans (dRI_write ..)
theorem bfi (w : Base) (x : ExtR) : Statement (.bfi w x) := of (ws := [writeBase 0x1D#7 true w, writeExtR x]) rfl rfl fun h => by
  change decodeV (writeBase 0x1D#7 true w) (writeExtR x) = _
  unfold decodeV
  rw [opOf_writeBase]
  exact (dLong_long ..).trans (dR_write ..)
theorem perm (w : Base) (x : ExtR) : Statement (.perm w x) := of (ws := [writeBase 0x1E#7 true w, writeExtR x]) rfl rfl fun h => by
  change decodeV (writeBase 0x1E#7 true w) (writeExtR x) = _
  unfold decodeV
  rw [opOf_writeBase]
  exact (dLong_long ..).trans (dR_write ..)
theorem icmp (w : Base) (x : ExtRI) : Statement (.icmp w x) := of (ws := [writeBase 0x20#7 true w, writeExtRI x]) rfl rfl fun h => by
  change decodeV (writeBase 0x20#7 true w) (writeExtRI x) = _
  unfold decodeV
  rw [opOf_writeBase]
  exact (dLong_long ..).trans (dRI_write ..)
theorem fcmp (w : Base) (x : ExtRI) : Statement (.fcmp w x) := of (ws := [writeBase 0x21#7 true w, writeExtRI x]) rfl rfl fun h => by
  change decodeV (writeBase 0x21#7 true w) (writeExtRI x) = _
  unfold decodeV
  rw [opOf_writeBase]
  exact (dLong_long ..).trans (dRI_write ..)
theorem sel (w : Base) (x : ExtR) : Statement (.sel w x) := of (ws := [writeBase 0x22#7 true w, writeExtR x]) rfl rfl fun h => by
  change decodeV (writeBase 0x22#7 true w) (writeExtR x) = _
  unfold decodeV
  rw [opOf_writeBase]
  exact (dLong_long ..).trans (dR_write ..)
theorem plop (w : Base) (x : ExtR) : Statement (.plop w x) := of (ws := [writeBase 0x23#7 true w, writeExtR x]) rfl rfl fun h => by
  change decodeV (writeBase 0x23#7 true w) (writeExtR x) = _
  unfold decodeV
  rw [opOf_writeBase]
  exact (dLong_long ..).trans (dR_write ..)
theorem mov (w : Base) : Statement (.mov w) := of (ws := [writeBase 0x24#7 false w]) rfl rfl fun h => by
  change decodeV (writeBase 0x24#7 false w) (0#32) = _
  unfold decodeV
  rw [opOf_writeBase]
  exact dShort_short ..
theorem movLong (w : Base) (x : ExtR) : Statement (.movLong w x) := of (ws := [writeBase 0x24#7 true w, writeExtR x]) rfl rfl fun h => by
  change decodeV (writeBase 0x24#7 true w) (writeExtR x) = _
  unfold decodeV
  rw [opOf_writeBase]
  exact (dShort_long ..).trans (dR_write ..)
theorem movi (w : Base) (imm : Word) : Statement (.movi w imm) := of (ws := [writeBase 0x25#7 true w, imm]) rfl rfl fun h => by
  change decodeV (writeBase 0x25#7 true w) (imm) = _
  unfold decodeV
  rw [opOf_writeBase]
  simp [Instr.canonical] at h
  simp [dShort, dLong, dR, dC, dM, kmapOf, h]
theorem lea (w : Base) : Statement (.lea w) := of (ws := [writeBase 0x26#7 false w]) rfl rfl fun h => by
  change decodeV (writeBase 0x26#7 false w) (0#32) = _
  unfold decodeV
  rw [opOf_writeBase]
  exact dShort_short ..
theorem leaLong (w : Base) (x : ExtRI) : Statement (.leaLong w x) := of (ws := [writeBase 0x26#7 true w, writeExtRI x]) rfl rfl fun h => by
  change decodeV (writeBase 0x26#7 true w) (writeExtRI x) = _
  unfold decodeV
  rw [opOf_writeBase]
  exact (dShort_long ..).trans (dRI_write ..)
theorem fadd (w : Base) : Statement (.fadd w) := of (ws := [writeBase 0x30#7 false w]) rfl rfl fun h => by
  change decodeV (writeBase 0x30#7 false w) (0#32) = _
  unfold decodeV
  rw [opOf_writeBase]
  exact dShort_short ..
theorem faddLong (w : Base) (x : ExtRI) : Statement (.faddLong w x) := of (ws := [writeBase 0x30#7 true w, writeExtRI x]) rfl rfl fun h => by
  change decodeV (writeBase 0x30#7 true w) (writeExtRI x) = _
  unfold decodeV
  rw [opOf_writeBase]
  exact (dShort_long ..).trans (dRI_write ..)
theorem fsub (w : Base) : Statement (.fsub w) := of (ws := [writeBase 0x31#7 false w]) rfl rfl fun h => by
  change decodeV (writeBase 0x31#7 false w) (0#32) = _
  unfold decodeV
  rw [opOf_writeBase]
  exact dShort_short ..
theorem fsubLong (w : Base) (x : ExtRI) : Statement (.fsubLong w x) := of (ws := [writeBase 0x31#7 true w, writeExtRI x]) rfl rfl fun h => by
  change decodeV (writeBase 0x31#7 true w) (writeExtRI x) = _
  unfold decodeV
  rw [opOf_writeBase]
  exact (dShort_long ..).trans (dRI_write ..)
theorem fmul (w : Base) : Statement (.fmul w) := of (ws := [writeBase 0x32#7 false w]) rfl rfl fun h => by
  change decodeV (writeBase 0x32#7 false w) (0#32) = _
  unfold decodeV
  rw [opOf_writeBase]
  exact dShort_short ..
theorem fmulLong (w : Base) (x : ExtRI) : Statement (.fmulLong w x) := of (ws := [writeBase 0x32#7 true w, writeExtRI x]) rfl rfl fun h => by
  change decodeV (writeBase 0x32#7 true w) (writeExtRI x) = _
  unfold decodeV
  rw [opOf_writeBase]
  exact (dShort_long ..).trans (dRI_write ..)
theorem ffma (w : Base) (x : ExtR) : Statement (.ffma w x) := of (ws := [writeBase 0x33#7 true w, writeExtR x]) rfl rfl fun h => by
  change decodeV (writeBase 0x33#7 true w) (writeExtR x) = _
  unfold decodeV
  rw [opOf_writeBase]
  exact (dLong_long ..).trans (dR_write ..)
theorem fmin (w : Base) : Statement (.fmin w) := of (ws := [writeBase 0x34#7 false w]) rfl rfl fun h => by
  change decodeV (writeBase 0x34#7 false w) (0#32) = _
  unfold decodeV
  rw [opOf_writeBase]
  exact dShort_short ..
theorem fminLong (w : Base) (x : ExtRI) : Statement (.fminLong w x) := of (ws := [writeBase 0x34#7 true w, writeExtRI x]) rfl rfl fun h => by
  change decodeV (writeBase 0x34#7 true w) (writeExtRI x) = _
  unfold decodeV
  rw [opOf_writeBase]
  exact (dShort_long ..).trans (dRI_write ..)
theorem fmax (w : Base) : Statement (.fmax w) := of (ws := [writeBase 0x35#7 false w]) rfl rfl fun h => by
  change decodeV (writeBase 0x35#7 false w) (0#32) = _
  unfold decodeV
  rw [opOf_writeBase]
  exact dShort_short ..
theorem fmaxLong (w : Base) (x : ExtRI) : Statement (.fmaxLong w x) := of (ws := [writeBase 0x35#7 true w, writeExtRI x]) rfl rfl fun h => by
  change decodeV (writeBase 0x35#7 true w) (writeExtRI x) = _
  unfold decodeV
  rw [opOf_writeBase]
  exact (dShort_long ..).trans (dRI_write ..)
theorem fscl (w : Base) : Statement (.fscl w) := of (ws := [writeBase 0x36#7 false w]) rfl rfl fun h => by
  change decodeV (writeBase 0x36#7 false w) (0#32) = _
  unfold decodeV
  rw [opOf_writeBase]
  exact dShort_short ..
theorem fsclLong (w : Base) (x : ExtRI) : Statement (.fsclLong w x) := of (ws := [writeBase 0x36#7 true w, writeExtRI x]) rfl rfl fun h => by
  change decodeV (writeBase 0x36#7 true w) (writeExtRI x) = _
  unfold decodeV
  rw [opOf_writeBase]
  exact (dShort_long ..).trans (dRI_write ..)
theorem frnd (w : Base) : Statement (.frnd w) := of (ws := [writeBase 0x37#7 false w]) rfl rfl fun h => by
  change decodeV (writeBase 0x37#7 false w) (0#32) = _
  unfold decodeV
  rw [opOf_writeBase]
  exact dShort_short ..
theorem frndLong (w : Base) (x : ExtRI) : Statement (.frndLong w x) := of (ws := [writeBase 0x37#7 true w, writeExtRI x]) rfl rfl fun h => by
  change decodeV (writeBase 0x37#7 true w) (writeExtRI x) = _
  unfold decodeV
  rw [opOf_writeBase]
  exact (dShort_long ..).trans (dRI_write ..)
theorem hadd2 (w : Base) : Statement (.hadd2 w) := of (ws := [writeBase 0x38#7 false w]) rfl rfl fun h => by
  change decodeV (writeBase 0x38#7 false w) (0#32) = _
  unfold decodeV
  rw [opOf_writeBase]
  exact dShort_short ..
theorem hadd2Long (w : Base) (x : ExtR) : Statement (.hadd2Long w x) := of (ws := [writeBase 0x38#7 true w, writeExtR x]) rfl rfl fun h => by
  change decodeV (writeBase 0x38#7 true w) (writeExtR x) = _
  unfold decodeV
  rw [opOf_writeBase]
  exact (dShort_long ..).trans (dR_write ..)
theorem hmul2 (w : Base) : Statement (.hmul2 w) := of (ws := [writeBase 0x39#7 false w]) rfl rfl fun h => by
  change decodeV (writeBase 0x39#7 false w) (0#32) = _
  unfold decodeV
  rw [opOf_writeBase]
  exact dShort_short ..
theorem hmul2Long (w : Base) (x : ExtR) : Statement (.hmul2Long w x) := of (ws := [writeBase 0x39#7 true w, writeExtR x]) rfl rfl fun h => by
  change decodeV (writeBase 0x39#7 true w) (writeExtR x) = _
  unfold decodeV
  rw [opOf_writeBase]
  exact (dShort_long ..).trans (dR_write ..)
theorem hfma2 (w : Base) (x : ExtR) : Statement (.hfma2 w x) := of (ws := [writeBase 0x3A#7 true w, writeExtR x]) rfl rfl fun h => by
  change decodeV (writeBase 0x3A#7 true w) (writeExtR x) = _
  unfold decodeV
  rw [opOf_writeBase]
  exact (dLong_long ..).trans (dR_write ..)
theorem frcp (w : Base) : Statement (.frcp w) := of (ws := [writeBase 0x40#7 false w]) rfl rfl fun h => by
  change decodeV (writeBase 0x40#7 false w) (0#32) = _
  unfold decodeV
  rw [opOf_writeBase]
  exact dShort_short ..
theorem frcpLong (w : Base) (x : ExtR) : Statement (.frcpLong w x) := of (ws := [writeBase 0x40#7 true w, writeExtR x]) rfl rfl fun h => by
  change decodeV (writeBase 0x40#7 true w) (writeExtR x) = _
  unfold decodeV
  rw [opOf_writeBase]
  exact (dShort_long ..).trans (dR_write ..)
theorem frsq (w : Base) : Statement (.frsq w) := of (ws := [writeBase 0x41#7 false w]) rfl rfl fun h => by
  change decodeV (writeBase 0x41#7 false w) (0#32) = _
  unfold decodeV
  rw [opOf_writeBase]
  exact dShort_short ..
theorem frsqLong (w : Base) (x : ExtR) : Statement (.frsqLong w x) := of (ws := [writeBase 0x41#7 true w, writeExtR x]) rfl rfl fun h => by
  change decodeV (writeBase 0x41#7 true w) (writeExtR x) = _
  unfold decodeV
  rw [opOf_writeBase]
  exact (dShort_long ..).trans (dR_write ..)
theorem fsqrt (w : Base) : Statement (.fsqrt w) := of (ws := [writeBase 0x42#7 false w]) rfl rfl fun h => by
  change decodeV (writeBase 0x42#7 false w) (0#32) = _
  unfold decodeV
  rw [opOf_writeBase]
  exact dShort_short ..
theorem fsqrtLong (w : Base) (x : ExtR) : Statement (.fsqrtLong w x) := of (ws := [writeBase 0x42#7 true w, writeExtR x]) rfl rfl fun h => by
  change decodeV (writeBase 0x42#7 true w) (writeExtR x) = _
  unfold decodeV
  rw [opOf_writeBase]
  exact (dShort_long ..).trans (dR_write ..)
theorem fexp2 (w : Base) : Statement (.fexp2 w) := of (ws := [writeBase 0x43#7 false w]) rfl rfl fun h => by
  change decodeV (writeBase 0x43#7 false w) (0#32) = _
  unfold decodeV
  rw [opOf_writeBase]
  exact dShort_short ..
theorem fexp2Long (w : Base) (x : ExtR) : Statement (.fexp2Long w x) := of (ws := [writeBase 0x43#7 true w, writeExtR x]) rfl rfl fun h => by
  change decodeV (writeBase 0x43#7 true w) (writeExtR x) = _
  unfold decodeV
  rw [opOf_writeBase]
  exact (dShort_long ..).trans (dR_write ..)
theorem flog2 (w : Base) : Statement (.flog2 w) := of (ws := [writeBase 0x44#7 false w]) rfl rfl fun h => by
  change decodeV (writeBase 0x44#7 false w) (0#32) = _
  unfold decodeV
  rw [opOf_writeBase]
  exact dShort_short ..
theorem flog2Long (w : Base) (x : ExtR) : Statement (.flog2Long w x) := of (ws := [writeBase 0x44#7 true w, writeExtR x]) rfl rfl fun h => by
  change decodeV (writeBase 0x44#7 true w) (writeExtR x) = _
  unfold decodeV
  rw [opOf_writeBase]
  exact (dShort_long ..).trans (dR_write ..)
theorem fsin (w : Base) : Statement (.fsin w) := of (ws := [writeBase 0x45#7 false w]) rfl rfl fun h => by
  change decodeV (writeBase 0x45#7 false w) (0#32) = _
  unfold decodeV
  rw [opOf_writeBase]
  exact dShort_short ..
theorem fsinLong (w : Base) (x : ExtR) : Statement (.fsinLong w x) := of (ws := [writeBase 0x45#7 true w, writeExtR x]) rfl rfl fun h => by
  change decodeV (writeBase 0x45#7 true w) (writeExtR x) = _
  unfold decodeV
  rw [opOf_writeBase]
  exact (dShort_long ..).trans (dR_write ..)
theorem fcos (w : Base) : Statement (.fcos w) := of (ws := [writeBase 0x46#7 false w]) rfl rfl fun h => by
  change decodeV (writeBase 0x46#7 false w) (0#32) = _
  unfold decodeV
  rw [opOf_writeBase]
  exact dShort_short ..
theorem fcosLong (w : Base) (x : ExtR) : Statement (.fcosLong w x) := of (ws := [writeBase 0x46#7 true w, writeExtR x]) rfl rfl fun h => by
  change decodeV (writeBase 0x46#7 true w) (writeExtR x) = _
  unfold decodeV
  rw [opOf_writeBase]
  exact (dShort_long ..).trans (dR_write ..)
theorem ftanh (w : Base) : Statement (.ftanh w) := of (ws := [writeBase 0x47#7 false w]) rfl rfl fun h => by
  change decodeV (writeBase 0x47#7 false w) (0#32) = _
  unfold decodeV
  rw [opOf_writeBase]
  exact dShort_short ..
theorem ftanhLong (w : Base) (x : ExtR) : Statement (.ftanhLong w x) := of (ws := [writeBase 0x47#7 true w, writeExtR x]) rfl rfl fun h => by
  change decodeV (writeBase 0x47#7 true w) (writeExtR x) = _
  unfold decodeV
  rw [opOf_writeBase]
  exact (dShort_long ..).trans (dR_write ..)
theorem cvt (w : Base) (x : ExtR) : Statement (.cvt w x) := of (ws := [writeBase 0x48#7 true w, writeExtR x]) rfl rfl fun h => by
  change decodeV (writeBase 0x48#7 true w) (writeExtR x) = _
  unfold decodeV
  rw [opOf_writeBase]
  exact (dLong_long ..).trans (dR_write ..)
theorem cvtp (w : Base) (x : ExtR) : Statement (.cvtp w x) := of (ws := [writeBase 0x49#7 true w, writeExtR x]) rfl rfl fun h => by
  change decodeV (writeBase 0x49#7 true w) (writeExtR x) = _
  unfold decodeV
  rw [opOf_writeBase]
  exact (dLong_long ..).trans (dR_write ..)
theorem shfl (w : Base) : Statement (.shfl w) := of (ws := [writeBase 0x50#7 false w]) rfl rfl fun h => by
  change decodeV (writeBase 0x50#7 false w) (0#32) = _
  unfold decodeV
  rw [opOf_writeBase]
  exact dShort_short ..
theorem shflLong (w : Base) (x : ExtRI) : Statement (.shflLong w x) := of (ws := [writeBase 0x50#7 true w, writeExtRI x]) rfl rfl fun h => by
  change decodeV (writeBase 0x50#7 true w) (writeExtRI x) = _
  unfold decodeV
  rw [opOf_writeBase]
  exact (dShort_long ..).trans (dRI_write ..)
theorem ballot (w : Base) : Statement (.ballot w) := of (ws := [writeBase 0x51#7 false w]) rfl rfl fun h => by
  change decodeV (writeBase 0x51#7 false w) (0#32) = _
  unfold decodeV
  rw [opOf_writeBase]
  exact dShort_short ..
theorem ballotLong (w : Base) (x : ExtR) : Statement (.ballotLong w x) := of (ws := [writeBase 0x51#7 true w, writeExtR x]) rfl rfl fun h => by
  change decodeV (writeBase 0x51#7 true w) (writeExtR x) = _
  unfold decodeV
  rw [opOf_writeBase]
  exact (dShort_long ..).trans (dR_write ..)
theorem vote (w : Base) : Statement (.vote w) := of (ws := [writeBase 0x52#7 false w]) rfl rfl fun h => by
  change decodeV (writeBase 0x52#7 false w) (0#32) = _
  unfold decodeV
  rw [opOf_writeBase]
  exact dShort_short ..
theorem voteLong (w : Base) (x : ExtR) : Statement (.voteLong w x) := of (ws := [writeBase 0x52#7 true w, writeExtR x]) rfl rfl fun h => by
  change decodeV (writeBase 0x52#7 true w) (writeExtR x) = _
  unfold decodeV
  rw [opOf_writeBase]
  exact (dShort_long ..).trans (dR_write ..)
theorem redux (w : Base) : Statement (.redux w) := of (ws := [writeBase 0x53#7 false w]) rfl rfl fun h => by
  change decodeV (writeBase 0x53#7 false w) (0#32) = _
  unfold decodeV
  rw [opOf_writeBase]
  exact dShort_short ..
theorem reduxLong (w : Base) (x : ExtR) : Statement (.reduxLong w x) := of (ws := [writeBase 0x53#7 true w, writeExtR x]) rfl rfl fun h => by
  change decodeV (writeBase 0x53#7 true w) (writeExtR x) = _
  unfold decodeV
  rw [opOf_writeBase]
  exact (dShort_long ..).trans (dR_write ..)
theorem scan (w : Base) : Statement (.scan w) := of (ws := [writeBase 0x54#7 false w]) rfl rfl fun h => by
  change decodeV (writeBase 0x54#7 false w) (0#32) = _
  unfold decodeV
  rw [opOf_writeBase]
  exact dShort_short ..
theorem scanLong (w : Base) (x : ExtR) : Statement (.scanLong w x) := of (ws := [writeBase 0x54#7 true w, writeExtR x]) rfl rfl fun h => by
  change decodeV (writeBase 0x54#7 true w) (writeExtR x) = _
  unfold decodeV
  rw [opOf_writeBase]
  exact (dShort_long ..).trans (dR_write ..)
theorem bcast (w : Base) : Statement (.bcast w) := of (ws := [writeBase 0x55#7 false w]) rfl rfl fun h => by
  change decodeV (writeBase 0x55#7 false w) (0#32) = _
  unfold decodeV
  rw [opOf_writeBase]
  exact dShort_short ..
theorem bcastLong (w : Base) (x : ExtRI) : Statement (.bcastLong w x) := of (ws := [writeBase 0x55#7 true w, writeExtRI x]) rfl rfl fun h => by
  change decodeV (writeBase 0x55#7 true w) (writeExtRI x) = _
  unfold decodeV
  rw [opOf_writeBase]
  exact (dShort_long ..).trans (dRI_write ..)
theorem vrand (w : Base) (x : ExtR) : Statement (.vrand w x) := of (ws := [writeBase 0x56#7 true w, writeExtR x]) rfl rfl fun h => by
  change decodeV (writeBase 0x56#7 true w) (writeExtR x) = _
  unfold decodeV
  rw [opOf_writeBase]
  simp [Instr.canonical] at h
  simp [dShort, dLong, dR, dC, dM, kmapOf, h]
theorem bra (w : Base) (x : ExtC) : Statement (.bra w x) := of (ws := [writeBase 0x60#7 true w, writeExtC x]) rfl rfl fun h => by
  change decodeV (writeBase 0x60#7 true w) (writeExtC x) = _
  unfold decodeV
  rw [opOf_writeBase]
  exact (dLong_long ..).trans (dC_write ..)
theorem bri (w : Base) : Statement (.bri w) := of (ws := [writeBase 0x61#7 false w]) rfl rfl fun h => by
  change decodeV (writeBase 0x61#7 false w) (0#32) = _
  unfold decodeV
  rw [opOf_writeBase]
  exact dShort_short ..
theorem briLong (w : Base) (x : ExtR) : Statement (.briLong w x) := of (ws := [writeBase 0x61#7 true w, writeExtR x]) rfl rfl fun h => by
  change decodeV (writeBase 0x61#7 true w) (writeExtR x) = _
  unfold decodeV
  rw [opOf_writeBase]
  exact (dShort_long ..).trans (dR_write ..)
theorem call (w : Base) (x : ExtC) : Statement (.call w x) := of (ws := [writeBase 0x62#7 true w, writeExtC x]) rfl rfl fun h => by
  change decodeV (writeBase 0x62#7 true w) (writeExtC x) = _
  unfold decodeV
  rw [opOf_writeBase]
  exact (dLong_long ..).trans (dC_write ..)
theorem ret (w : Base) : Statement (.ret w) := of (ws := [writeBase 0x63#7 false w]) rfl rfl fun h => by
  change decodeV (writeBase 0x63#7 false w) (0#32) = _
  unfold decodeV
  rw [opOf_writeBase]
  exact dShort_short ..
theorem retLong (w : Base) (x : ExtR) : Statement (.retLong w x) := of (ws := [writeBase 0x63#7 true w, writeExtR x]) rfl rfl fun h => by
  change decodeV (writeBase 0x63#7 true w) (writeExtR x) = _
  unfold decodeV
  rw [opOf_writeBase]
  exact (dShort_long ..).trans (dR_write ..)
theorem conv (w : Base) : Statement (.conv w) := of (ws := [writeBase 0x64#7 false w]) rfl rfl fun h => by
  change decodeV (writeBase 0x64#7 false w) (0#32) = _
  unfold decodeV
  rw [opOf_writeBase]
  exact dShort_short ..
theorem convLong (w : Base) (x : ExtR) : Statement (.convLong w x) := of (ws := [writeBase 0x64#7 true w, writeExtR x]) rfl rfl fun h => by
  change decodeV (writeBase 0x64#7 true w) (writeExtR x) = _
  unfold decodeV
  rw [opOf_writeBase]
  exact (dShort_long ..).trans (dR_write ..)
theorem lyield (w : Base) : Statement (.lyield w) := of (ws := [writeBase 0x65#7 false w]) rfl rfl fun h => by
  change decodeV (writeBase 0x65#7 false w) (0#32) = _
  unfold decodeV
  rw [opOf_writeBase]
  exact dShort_short ..
theorem lyieldLong (w : Base) (x : ExtR) : Statement (.lyieldLong w x) := of (ws := [writeBase 0x65#7 true w, writeExtR x]) rfl rfl fun h => by
  change decodeV (writeBase 0x65#7 true w) (writeExtR x) = _
  unfold decodeV
  rw [opOf_writeBase]
  exact (dShort_long ..).trans (dR_write ..)
theorem prio (w : Base) : Statement (.prio w) := of (ws := [writeBase 0x66#7 false w]) rfl rfl fun h => by
  change decodeV (writeBase 0x66#7 false w) (0#32) = _
  unfold decodeV
  rw [opOf_writeBase]
  exact dShort_short ..
theorem prioLong (w : Base) (x : ExtR) : Statement (.prioLong w x) := of (ws := [writeBase 0x66#7 true w, writeExtR x]) rfl rfl fun h => by
  change decodeV (writeBase 0x66#7 true w) (writeExtR x) = _
  unfold decodeV
  rw [opOf_writeBase]
  exact (dShort_long ..).trans (dR_write ..)
theorem exit (w : Base) : Statement (.exit w) := of (ws := [writeBase 0x67#7 false w]) rfl rfl fun h => by
  change decodeV (writeBase 0x67#7 false w) (0#32) = _
  unfold decodeV
  rw [opOf_writeBase]
  exact dShort_short ..
theorem exitLong (w : Base) (x : ExtR) : Statement (.exitLong w x) := of (ws := [writeBase 0x67#7 true w, writeExtR x]) rfl rfl fun h => by
  change decodeV (writeBase 0x67#7 true w) (writeExtR x) = _
  unfold decodeV
  rw [opOf_writeBase]
  exact (dShort_long ..).trans (dR_write ..)
theorem nop (w : Base) : Statement (.nop w) := of (ws := [writeBase 0x68#7 false w]) rfl rfl fun h => by
  change decodeV (writeBase 0x68#7 false w) (0#32) = _
  unfold decodeV
  rw [opOf_writeBase]
  exact dShort_short ..
theorem nopLong (w : Base) (x : ExtR) : Statement (.nopLong w x) := of (ws := [writeBase 0x68#7 true w, writeExtR x]) rfl rfl fun h => by
  change decodeV (writeBase 0x68#7 true w) (writeExtR x) = _
  unfold decodeV
  rw [opOf_writeBase]
  exact (dShort_long ..).trans (dR_write ..)
theorem sld (w : Base) : Statement (.sld w) := of (ws := [writeBase 0x00#7 false w]) rfl rfl fun h => by
  change decodeM (writeBase 0x00#7 false w) (0#32) = _
  unfold decodeM
  rw [opOf_writeBase]
  exact dShort_short ..
theorem sldLong (w : Base) (x : ExtM) : Statement (.sldLong w x) := of (ws := [writeBase 0x00#7 true w, writeExtM x]) rfl rfl fun h => by
  change decodeM (writeBase 0x00#7 true w) (writeExtM x) = _
  unfold decodeM
  rw [opOf_writeBase]
  exact (dShort_long ..).trans (dM_write ..)
theorem sst (w : Base) : Statement (.sst w) := of (ws := [writeBase 0x01#7 false w]) rfl rfl fun h => by
  change decodeM (writeBase 0x01#7 false w) (0#32) = _
  unfold decodeM
  rw [opOf_writeBase]
  exact dShort_short ..
theorem sstLong (w : Base) (x : ExtM) : Statement (.sstLong w x) := of (ws := [writeBase 0x01#7 true w, writeExtM x]) rfl rfl fun h => by
  change decodeM (writeBase 0x01#7 true w) (writeExtM x) = _
  unfold decodeM
  rw [opOf_writeBase]
  exact (dShort_long ..).trans (dM_write ..)
theorem satom (w : Base) (x : ExtM) : Statement (.satom w x) := of (ws := [writeBase 0x02#7 true w, writeExtM x]) rfl rfl fun h => by
  change decodeM (writeBase 0x02#7 true w) (writeExtM x) = _
  unfold decodeM
  rw [opOf_writeBase]
  exact (dLong_long ..).trans (dM_write ..)
theorem cld (w : Base) : Statement (.cld w) := of (ws := [writeBase 0x04#7 false w]) rfl rfl fun h => by
  change decodeM (writeBase 0x04#7 false w) (0#32) = _
  unfold decodeM
  rw [opOf_writeBase]
  exact dShort_short ..
theorem cldLong (w : Base) (x : ExtM) : Statement (.cldLong w x) := of (ws := [writeBase 0x04#7 true w, writeExtM x]) rfl rfl fun h => by
  change decodeM (writeBase 0x04#7 true w) (writeExtM x) = _
  unfold decodeM
  rw [opOf_writeBase]
  exact (dShort_long ..).trans (dM_write ..)
theorem cst (w : Base) : Statement (.cst w) := of (ws := [writeBase 0x05#7 false w]) rfl rfl fun h => by
  change decodeM (writeBase 0x05#7 false w) (0#32) = _
  unfold decodeM
  rw [opOf_writeBase]
  exact dShort_short ..
theorem cstLong (w : Base) (x : ExtM) : Statement (.cstLong w x) := of (ws := [writeBase 0x05#7 true w, writeExtM x]) rfl rfl fun h => by
  change decodeM (writeBase 0x05#7 true w) (writeExtM x) = _
  unfold decodeM
  rw [opOf_writeBase]
  exact (dShort_long ..).trans (dM_write ..)
theorem catom (w : Base) (x : ExtM) : Statement (.catom w x) := of (ws := [writeBase 0x06#7 true w, writeExtM x]) rfl rfl fun h => by
  change decodeM (writeBase 0x06#7 true w) (writeExtM x) = _
  unfold decodeM
  rw [opOf_writeBase]
  exact (dLong_long ..).trans (dM_write ..)
theorem gld (w : Base) : Statement (.gld w) := of (ws := [writeBase 0x08#7 false w]) rfl rfl fun h => by
  change decodeM (writeBase 0x08#7 false w) (0#32) = _
  unfold decodeM
  rw [opOf_writeBase]
  exact dShort_short ..
theorem gldLong (w : Base) (x : ExtM) : Statement (.gldLong w x) := of (ws := [writeBase 0x08#7 true w, writeExtM x]) rfl rfl fun h => by
  change decodeM (writeBase 0x08#7 true w) (writeExtM x) = _
  unfold decodeM
  rw [opOf_writeBase]
  exact (dShort_long ..).trans (dM_write ..)
theorem gst (w : Base) : Statement (.gst w) := of (ws := [writeBase 0x09#7 false w]) rfl rfl fun h => by
  change decodeM (writeBase 0x09#7 false w) (0#32) = _
  unfold decodeM
  rw [opOf_writeBase]
  exact dShort_short ..
theorem gstLong (w : Base) (x : ExtM) : Statement (.gstLong w x) := of (ws := [writeBase 0x09#7 true w, writeExtM x]) rfl rfl fun h => by
  change decodeM (writeBase 0x09#7 true w) (writeExtM x) = _
  unfold decodeM
  rw [opOf_writeBase]
  exact (dShort_long ..).trans (dM_write ..)
theorem gatom (w : Base) (x : ExtM) : Statement (.gatom w x) := of (ws := [writeBase 0x0A#7 true w, writeExtM x]) rfl rfl fun h => by
  change decodeM (writeBase 0x0A#7 true w) (writeExtM x) = _
  unfold decodeM
  rw [opOf_writeBase]
  exact (dLong_long ..).trans (dM_write ..)
theorem gred (w : Base) (x : ExtM) : Statement (.gred w x) := of (ws := [writeBase 0x0B#7 true w, writeExtM x]) rfl rfl fun h => by
  change decodeM (writeBase 0x0B#7 true w) (writeExtM x) = _
  unfold decodeM
  rw [opOf_writeBase]
  exact (dLong_long ..).trans (dM_write ..)
theorem hld (w : Base) : Statement (.hld w) := of (ws := [writeBase 0x0C#7 false w]) rfl rfl fun h => by
  change decodeM (writeBase 0x0C#7 false w) (0#32) = _
  unfold decodeM
  rw [opOf_writeBase]
  exact dShort_short ..
theorem hldLong (w : Base) (x : ExtM) : Statement (.hldLong w x) := of (ws := [writeBase 0x0C#7 true w, writeExtM x]) rfl rfl fun h => by
  change decodeM (writeBase 0x0C#7 true w) (writeExtM x) = _
  unfold decodeM
  rw [opOf_writeBase]
  exact (dShort_long ..).trans (dM_write ..)
theorem hst (w : Base) : Statement (.hst w) := of (ws := [writeBase 0x0D#7 false w]) rfl rfl fun h => by
  change decodeM (writeBase 0x0D#7 false w) (0#32) = _
  unfold decodeM
  rw [opOf_writeBase]
  exact dShort_short ..
theorem hstLong (w : Base) (x : ExtM) : Statement (.hstLong w x) := of (ws := [writeBase 0x0D#7 true w, writeExtM x]) rfl rfl fun h => by
  change decodeM (writeBase 0x0D#7 true w) (writeExtM x) = _
  unfold decodeM
  rw [opOf_writeBase]
  exact (dShort_long ..).trans (dM_write ..)
theorem pld (w : Base) (x : ExtM) : Statement (.pld w x) := of (ws := [writeBase 0x10#7 true w, writeExtM x]) rfl rfl fun h => by
  change decodeM (writeBase 0x10#7 true w) (writeExtM x) = _
  unfold decodeM
  rw [opOf_writeBase]
  exact (dLong_long ..).trans (dM_write ..)
theorem put (w : Base) (x : ExtM) : Statement (.put w x) := of (ws := [writeBase 0x11#7 true w, writeExtM x]) rfl rfl fun h => by
  change decodeM (writeBase 0x11#7 true w) (writeExtM x) = _
  unfold decodeM
  rw [opOf_writeBase]
  exact (dLong_long ..).trans (dM_write ..)
theorem patom (w : Base) (x : ExtM) : Statement (.patom w x) := of (ws := [writeBase 0x12#7 true w, writeExtM x]) rfl rfl fun h => by
  change decodeM (writeBase 0x12#7 true w) (writeExtM x) = _
  unfold decodeM
  rw [opOf_writeBase]
  exact (dLong_long ..).trans (dM_write ..)
theorem kld (w : Base) (x : ExtM) : Statement (.kld w x) := of (ws := [writeBase 0x14#7 true w, writeExtM x]) rfl rfl fun h => by
  change decodeM (writeBase 0x14#7 true w) (writeExtM x) = _
  unfold decodeM
  rw [opOf_writeBase]
  exact (dLong_long ..).trans (dM_write ..)
theorem kst (w : Base) (x : ExtM) : Statement (.kst w x) := of (ws := [writeBase 0x15#7 true w, writeExtM x]) rfl rfl fun h => by
  change decodeM (writeBase 0x15#7 true w) (writeExtM x) = _
  unfold decodeM
  rw [opOf_writeBase]
  exact (dLong_long ..).trans (dM_write ..)
theorem ksts (w : Base) (x : ExtM) : Statement (.ksts w x) := of (ws := [writeBase 0x16#7 true w, writeExtM x]) rfl rfl fun h => by
  change decodeM (writeBase 0x16#7 true w) (writeExtM x) = _
  unfold decodeM
  rw [opOf_writeBase]
  exact (dLong_long ..).trans (dM_write ..)
theorem fence (w : Base) : Statement (.fence w) := of (ws := [writeBase 0x20#7 false w]) rfl rfl fun h => by
  change decodeM (writeBase 0x20#7 false w) (0#32) = _
  unfold decodeM
  rw [opOf_writeBase]
  exact dShort_short ..
theorem fenceLong (w : Base) (x : ExtC) : Statement (.fenceLong w x) := of (ws := [writeBase 0x20#7 true w, writeExtC x]) rfl rfl fun h => by
  change decodeM (writeBase 0x20#7 true w) (writeExtC x) = _
  unfold decodeM
  rw [opOf_writeBase]
  simp [Instr.canonical] at h
  simp [dShort, dLong, dR, dC, dM, kmapOf, h]
theorem fenceWalk (w : Base) (x : ExtC) : Statement (.fenceWalk w x) := of (ws := [writeBase 0x20#7 true w, writeExtC x]) rfl rfl fun h => by
  change decodeM (writeBase 0x20#7 true w) (writeExtC x) = _
  unfold decodeM
  rw [opOf_writeBase]
  simp [Instr.canonical] at h
  simp [dShort, dLong, dR, dC, dM, kmapOf, h]
theorem acq (w : Base) : Statement (.acq w) := of (ws := [writeBase 0x21#7 false w]) rfl rfl fun h => by
  change decodeM (writeBase 0x21#7 false w) (0#32) = _
  unfold decodeM
  rw [opOf_writeBase]
  exact dShort_short ..
theorem acqLong (w : Base) (x : ExtC) : Statement (.acqLong w x) := of (ws := [writeBase 0x21#7 true w, writeExtC x]) rfl rfl fun h => by
  change decodeM (writeBase 0x21#7 true w) (writeExtC x) = _
  unfold decodeM
  rw [opOf_writeBase]
  simp [Instr.canonical] at h
  simp [dShort, dLong, dR, dC, dM, kmapOf, h]
theorem acqRemote (w : Base) (x : ExtC) : Statement (.acqRemote w x) := of (ws := [writeBase 0x21#7 true w, writeExtC x]) rfl rfl fun h => by
  change decodeM (writeBase 0x21#7 true w) (writeExtC x) = _
  unfold decodeM
  rw [opOf_writeBase]
  simp [Instr.canonical] at h
  simp [dShort, dLong, dR, dC, dM, kmapOf, h]
theorem rel (w : Base) : Statement (.rel w) := of (ws := [writeBase 0x22#7 false w]) rfl rfl fun h => by
  change decodeM (writeBase 0x22#7 false w) (0#32) = _
  unfold decodeM
  rw [opOf_writeBase]
  exact dShort_short ..
theorem relLong (w : Base) (x : ExtC) : Statement (.relLong w x) := of (ws := [writeBase 0x22#7 true w, writeExtC x]) rfl rfl fun h => by
  change decodeM (writeBase 0x22#7 true w) (writeExtC x) = _
  unfold decodeM
  rw [opOf_writeBase]
  exact (dShort_long ..).trans (dC_write ..)
theorem pref (w : Base) : Statement (.pref w) := of (ws := [writeBase 0x23#7 false w]) rfl rfl fun h => by
  change decodeM (writeBase 0x23#7 false w) (0#32) = _
  unfold decodeM
  rw [opOf_writeBase]
  exact dShort_short ..
theorem prefLong (w : Base) (x : ExtM) : Statement (.prefLong w x) := of (ws := [writeBase 0x23#7 true w, writeExtM x]) rfl rfl fun h => by
  change decodeM (writeBase 0x23#7 true w) (writeExtM x) = _
  unfold decodeM
  rw [opOf_writeBase]
  exact (dShort_long ..).trans (dM_write ..)
theorem bare (w : Base) (x : ExtC) : Statement (.bare w x) := of (ws := [writeBase 0x28#7 true w, writeExtC x]) rfl rfl fun h => by
  change decodeM (writeBase 0x28#7 true w) (writeExtC x) = _
  unfold decodeM
  rw [opOf_writeBase]
  exact (dLong_long ..).trans (dC_write ..)
theorem bara (w : Base) (x : ExtC) : Statement (.bara w x) := of (ws := [writeBase 0x29#7 true w, writeExtC x]) rfl rfl fun h => by
  change decodeM (writeBase 0x29#7 true w) (writeExtC x) = _
  unfold decodeM
  rw [opOf_writeBase]
  exact (dLong_long ..).trans (dC_write ..)
theorem barw (w : Base) (x : ExtC) : Statement (.barw w x) := of (ws := [writeBase 0x2A#7 true w, writeExtC x]) rfl rfl fun h => by
  change decodeM (writeBase 0x2A#7 true w) (writeExtC x) = _
  unfold decodeM
  rw [opOf_writeBase]
  exact (dLong_long ..).trans (dC_write ..)
theorem baraw (w : Base) (x : ExtC) : Statement (.baraw w x) := of (ws := [writeBase 0x2B#7 true w, writeExtC x]) rfl rfl fun h => by
  change decodeM (writeBase 0x2B#7 true w) (writeExtC x) = _
  unfold decodeM
  rw [opOf_writeBase]
  exact (dLong_long ..).trans (dC_write ..)
theorem give (w : Base) (x : ExtC) : Statement (.give w x) := of (ws := [writeBase 0x30#7 true w, writeExtC x]) rfl rfl fun h => by
  change decodeM (writeBase 0x30#7 true w) (writeExtC x) = _
  unfold decodeM
  rw [opOf_writeBase]
  exact (dLong_long ..).trans (dC_write ..)
theorem take (w : Base) (x : ExtC) : Statement (.take w x) := of (ws := [writeBase 0x31#7 true w, writeExtC x]) rfl rfl fun h => by
  change decodeM (writeBase 0x31#7 true w) (writeExtC x) = _
  unfold decodeM
  rw [opOf_writeBase]
  exact (dLong_long ..).trans (dC_write ..)
theorem ownq (w : Base) (x : ExtC) : Statement (.ownq w x) := of (ws := [writeBase 0x32#7 true w, writeExtC x]) rfl rfl fun h => by
  change decodeM (writeBase 0x32#7 true w) (writeExtC x) = _
  unfold decodeM
  rw [opOf_writeBase]
  exact (dLong_long ..).trans (dC_write ..)
theorem ctradd (w : Base) (x : ExtC) : Statement (.ctradd w x) := of (ws := [writeBase 0x38#7 true w, writeExtC x]) rfl rfl fun h => by
  change decodeM (writeBase 0x38#7 true w) (writeExtC x) = _
  unfold decodeM
  rw [opOf_writeBase]
  exact (dLong_long ..).trans (dC_write ..)
theorem ctrwait (w : Base) (x : ExtC) : Statement (.ctrwait w x) := of (ws := [writeBase 0x39#7 true w, writeExtC x]) rfl rfl fun h => by
  change decodeM (writeBase 0x39#7 true w) (writeExtC x) = _
  unfold decodeM
  rw [opOf_writeBase]
  exact (dLong_long ..).trans (dC_write ..)
theorem ctrrd (w : Base) (x : ExtC) : Statement (.ctrrd w x) := of (ws := [writeBase 0x3A#7 true w, writeExtC x]) rfl rfl fun h => by
  change decodeM (writeBase 0x3A#7 true w) (writeExtC x) = _
  unfold decodeM
  rw [opOf_writeBase]
  exact (dLong_long ..).trans (dC_write ..)
theorem ringwFill (w : Base) (x : ExtC) : Statement (.ringwFill w x) := of (ws := [writeBase 0x3C#7 true w, writeExtC x]) rfl rfl fun h => by
  change decodeM (writeBase 0x3C#7 true w) (writeExtC x) = _
  unfold decodeM
  rw [opOf_writeBase]
  simp [Instr.canonical] at h
  simp [dShort, dLong, dR, dC, dM, kmapOf, h]
theorem ringwFree (w : Base) (x : ExtC) : Statement (.ringwFree w x) := of (ws := [writeBase 0x3C#7 true w, writeExtC x]) rfl rfl fun h => by
  change decodeM (writeBase 0x3C#7 true w) (writeExtC x) = _
  unfold decodeM
  rw [opOf_writeBase]
  simp [Instr.canonical] at h
  simp [dShort, dLong, dR, dC, dM, kmapOf, h]
theorem ringlFill (w : Base) (x : ExtC) : Statement (.ringlFill w x) := of (ws := [writeBase 0x3D#7 true w, writeExtC x]) rfl rfl fun h => by
  change decodeM (writeBase 0x3D#7 true w) (writeExtC x) = _
  unfold decodeM
  rw [opOf_writeBase]
  simp [Instr.canonical] at h
  simp [dShort, dLong, dR, dC, dM, kmapOf, h]
theorem ringlFree (w : Base) (x : ExtC) : Statement (.ringlFree w x) := of (ws := [writeBase 0x3D#7 true w, writeExtC x]) rfl rfl fun h => by
  change decodeM (writeBase 0x3D#7 true w) (writeExtC x) = _
  unfold decodeM
  rw [opOf_writeBase]
  simp [Instr.canonical] at h
  simp [dShort, dLong, dR, dC, dM, kmapOf, h]
theorem ringq (w : Base) (x : ExtC) : Statement (.ringq w x) := of (ws := [writeBase 0x3E#7 true w, writeExtC x]) rfl rfl fun h => by
  change decodeM (writeBase 0x3E#7 true w) (writeExtC x) = _
  unfold decodeM
  rw [opOf_writeBase]
  exact (dLong_long ..).trans (dC_write ..)
theorem mm (w : MmWord) : Statement (.mm w) := of (ws := [writeMm 0x00#7 w]) rfl rfl fun h => by
  change decodeX (writeMm 0x00#7 w) (0#32) = _
  unfold decodeX
  rw [show opOf (writeMm 0x00#7 w) = (0x00#7).toNat from opOf_writeX ..]
  exact (dX_write ..).trans (congrArg (fun v => Decoded.ok (.mm v)) (readMm_writeMm ..))
theorem mmz (w : MmWord) : Statement (.mmz w) := of (ws := [writeMm 0x01#7 w]) rfl rfl fun h => by
  change decodeX (writeMm 0x01#7 w) (0#32) = _
  unfold decodeX
  rw [show opOf (writeMm 0x01#7 w) = (0x01#7).toNat from opOf_writeX ..]
  exact (dX_write ..).trans (congrArg (fun v => Decoded.ok (.mmz v)) (readMm_writeMm ..))
theorem scl (w : SclWord) : Statement (.scl w) := of (ws := [writeScl w]) rfl rfl fun h => by
  change decodeX (writeScl w) (0#32) = _
  unfold decodeX
  rw [show opOf (writeScl w) = (0x08#7).toNat from opOf_writeX ..]
  exact (dX_write ..).trans (congrArg (fun v => Decoded.ok (.scl v)) (readScl_writeScl ..))
theorem strm (w : StrmWord) : Statement (.strm w) := of (ws := [writeStrm w]) rfl rfl fun h => by
  change decodeX (writeStrm w) (0#32) = _
  unfold decodeX
  rw [show opOf (writeStrm w) = (0x10#7).toNat from opOf_writeX ..]
  exact (dX_write ..).trans (congrArg (fun v => Decoded.ok (.strm v)) (readStrm_writeStrm ..))
theorem panel (w : PanelWord) : Statement (.panel w) := of (ws := [writePanel w]) rfl rfl fun h => by
  change decodeX (writePanel w) (0#32) = _
  unfold decodeX
  rw [show opOf (writePanel w) = (0x11#7).toNat from opOf_writeX ..]
  exact (dX_write ..).trans (congrArg (fun v => Decoded.ok (.panel v)) (readPanel_writePanel ..))
theorem iterImm (w : IterWord) : Statement (.iterImm w) := of (ws := [writeIter false w, w.value]) rfl rfl fun h => by
  change decodeX (writeIter false w) (w.value) = _
  unfold decodeX
  rw [show opOf (writeIter false w) = (0x12#7).toNat from opOf_writeX ..]
  simp only [BitVec.toNat_ofNat]
  rw [srcOf_writeIter]
  exact (dXL_write ..).trans (congrArg (fun v => Decoded.ok (.iterImm v)) (readIter_writeIter ..))
theorem iterReg (w : IterWord) : Statement (.iterReg w) := of (ws := [writeIter true w]) rfl rfl fun h => by
  change decodeX (writeIter true w) (0#32) = _
  unfold decodeX
  rw [show opOf (writeIter true w) = (0x12#7).toNat from opOf_writeX ..]
  obtain ⟨g, j, f, r, v, y⟩ := w
  simp only [Instr.canonical, beq_iff_eq] at h
  subst h
  simp only [BitVec.toNat_ofNat]
  rw [srcOf_writeIter]
  exact (dX_write ..).trans (congrArg (fun v => Decoded.ok (.iterReg v)) (readIter_writeIter true _))
theorem loop (w : LoopWord) : Statement (.loop w) := of (ws := [writeLoop w, w.count]) rfl rfl fun h => by
  change decodeX (writeLoop w) (w.count) = _
  unfold decodeX
  rw [show opOf (writeLoop w) = (0x18#7).toNat from opOf_writeX ..]
  exact (dXL_write ..).trans (congrArg (fun v => Decoded.ok (.loop v)) (readLoop_writeLoop ..))
theorem xgive (w : XgiveWord) : Statement (.xgive w) := of (ws := [writeXgive w]) rfl rfl fun h => by
  change decodeX (writeXgive w) (0#32) = _
  unfold decodeX
  rw [show opOf (writeXgive w) = (0x20#7).toNat from opOf_writeX ..]
  exact (dX_write ..).trans (congrArg (fun v => Decoded.ok (.xgive v)) (readXgive_writeXgive ..))
theorem xtake (w : XtakeWord) : Statement (.xtake w) := of (ws := [writeXtake w]) rfl rfl fun h => by
  change decodeX (writeXtake w) (0#32) = _
  unfold decodeX
  rw [show opOf (writeXtake w) = (0x21#7).toNat from opOf_writeX ..]
  exact (dX_write ..).trans (congrArg (fun v => Decoded.ok (.xtake v)) (readXtake_writeXtake ..))
theorem xsig (w : XsigWord) : Statement (.xsig w) := of (ws := [writeXsig false w]) rfl rfl fun h => by
  change decodeX (writeXsig false w) (0#32) = _
  unfold decodeX
  rw [show opOf (writeXsig false w) = (0x22#7).toNat from opOf_writeX ..]
  simp only [BitVec.toNat_ofNat]
  rw [kindOf_writeXsig]
  exact (dX_write ..).trans (congrArg (fun v => Decoded.ok (.xsig v)) (readXsig_writeXsig ..))
theorem xsigBar (w : XsigWord) : Statement (.xsigBar w) := of (ws := [writeXsig true w]) rfl rfl fun h => by
  change decodeX (writeXsig true w) (0#32) = _
  unfold decodeX
  rw [show opOf (writeXsig true w) = (0x22#7).toNat from opOf_writeX ..]
  simp only [BitVec.toNat_ofNat]
  rw [kindOf_writeXsig]
  exact (dX_write ..).trans (congrArg (fun v => Decoded.ok (.xsigBar v)) (readXsig_writeXsig ..))
theorem xwait (w : XwaitWord) : Statement (.xwait w) := of (ws := [writeXwait w]) rfl rfl fun h => by
  change decodeX (writeXwait w) (0#32) = _
  unfold decodeX
  rw [show opOf (writeXwait w) = (0x23#7).toNat from opOf_writeX ..]
  exact (dX_write ..).trans (congrArg (fun v => Decoded.ok (.xwait v)) (readXwait_writeXwait ..))
theorem xend (w : XendWord) : Statement (.xend w) := of (ws := [writeXend w]) rfl rfl fun h => by
  change decodeX (writeXend w) (0#32) = _
  unfold decodeX
  rw [show opOf (writeXend w) = (0x24#7).toNat from opOf_writeX ..]
  exact (dX_write ..).trans (congrArg (fun v => Decoded.ok (.xend v)) (readXend_writeXend ..))
theorem cnest (w : Base) (x : ExtC) : Statement (.cnest w x) := of (ws := [writeBase 0x00#7 true w, writeExtC x]) rfl rfl fun h => by
  change decodeE (writeBase 0x00#7 true w) (writeExtC x) = _
  unfold decodeE
  rw [opOf_writeBase]
  exact (dLong_long ..).trans (dC_write ..)
theorem cgo (w : Base) (x : ExtC) : Statement (.cgo w x) := of (ws := [writeBase 0x01#7 true w, writeExtC x]) rfl rfl fun h => by
  change decodeE (writeBase 0x01#7 true w) (writeExtC x) = _
  unfold decodeE
  rw [opOf_writeBase]
  exact (dLong_long ..).trans (dC_write ..)
theorem cpy (w : Base) (x : ExtC) : Statement (.cpy w x) := of (ws := [writeBase 0x02#7 true w, writeExtC x]) rfl rfl fun h => by
  change decodeE (writeBase 0x02#7 true w) (writeExtC x) = _
  unfold decodeE
  rw [opOf_writeBase]
  exact (dLong_long ..).trans (dC_write ..)
theorem cred (w : Base) (x : ExtC) : Statement (.cred w x) := of (ws := [writeBase 0x03#7 true w, writeExtC x]) rfl rfl fun h => by
  change decodeE (writeBase 0x03#7 true w) (writeExtC x) = _
  unfold decodeE
  rw [opOf_writeBase]
  exact (dLong_long ..).trans (dC_write ..)
theorem qtz (w : Base) (x : ExtR) : Statement (.qtz w x) := of (ws := [writeBase 0x08#7 true w, writeExtR x]) rfl rfl fun h => by
  change decodeE (writeBase 0x08#7 true w) (writeExtR x) = _
  unfold decodeE
  rw [opOf_writeBase]
  exact (dLong_long ..).trans (dR_write ..)
theorem dqz (w : Base) (x : ExtR) : Statement (.dqz w x) := of (ws := [writeBase 0x09#7 true w, writeExtR x]) rfl rfl fun h => by
  change decodeE (writeBase 0x09#7 true w) (writeExtR x) = _
  unfold decodeE
  rw [opOf_writeBase]
  exact (dLong_long ..).trans (dR_write ..)
theorem rqz (w : Base) (x : ExtR) : Statement (.rqz w x) := of (ws := [writeBase 0x0A#7 true w, writeExtR x]) rfl rfl fun h => by
  change decodeE (writeBase 0x0A#7 true w) (writeExtR x) = _
  unfold decodeE
  rw [opOf_writeBase]
  simp [Instr.canonical] at h
  simp [dShort, dLong, dR, dC, dM, kmapOf, h]
theorem rqzKv (w : Base) (x : ExtR) : Statement (.rqzKv w x) := of (ws := [writeBase 0x0A#7 true w, writeExtR x]) rfl rfl fun h => by
  change decodeE (writeBase 0x0A#7 true w) (writeExtR x) = _
  unfold decodeE
  rw [opOf_writeBase]
  simp [Instr.canonical] at h
  simp [dShort, dLong, dR, dC, dM, kmapOf, h]
theorem lsend (w : Base) (x : ExtR) : Statement (.lsend w x) := of (ws := [writeBase 0x10#7 true w, writeExtR x]) rfl rfl fun h => by
  change decodeE (writeBase 0x10#7 true w) (writeExtR x) = _
  unfold decodeE
  rw [opOf_writeBase]
  simp [Instr.canonical] at h
  simp [dShort, dLong, dR, dC, dM, kmapOf, h]
theorem lsendPort (w : Base) (x : ExtR) : Statement (.lsendPort w x) := of (ws := [writeBase 0x10#7 true w, writeExtR x]) rfl rfl fun h => by
  change decodeE (writeBase 0x10#7 true w) (writeExtR x) = _
  unfold decodeE
  rw [opOf_writeBase]
  simp [Instr.canonical] at h
  simp [dShort, dLong, dR, dC, dM, kmapOf, h]
theorem lradd (w : Base) (x : ExtR) : Statement (.lradd w x) := of (ws := [writeBase 0x11#7 true w, writeExtR x]) rfl rfl fun h => by
  change decodeE (writeBase 0x11#7 true w) (writeExtR x) = _
  unfold decodeE
  rw [opOf_writeBase]
  exact (dLong_long ..).trans (dR_write ..)
theorem lwin (w : Base) (x : ExtR) : Statement (.lwin w x) := of (ws := [writeBase 0x12#7 true w, writeExtR x]) rfl rfl fun h => by
  change decodeE (writeBase 0x12#7 true w) (writeExtR x) = _
  unfold decodeE
  rw [opOf_writeBase]
  exact (dLong_long ..).trans (dR_write ..)
theorem qpush (w : Base) : Statement (.qpush w) := of (ws := [writeBase 0x18#7 false w]) rfl rfl fun h => by
  change decodeE (writeBase 0x18#7 false w) (0#32) = _
  unfold decodeE
  rw [opOf_writeBase]
  exact dShort_short ..
theorem qpushLong (w : Base) (x : ExtR) : Statement (.qpushLong w x) := of (ws := [writeBase 0x18#7 true w, writeExtR x]) rfl rfl fun h => by
  change decodeE (writeBase 0x18#7 true w) (writeExtR x) = _
  unfold decodeE
  rw [opOf_writeBase]
  exact (dShort_long ..).trans (dR_write ..)
theorem qpop (w : Base) : Statement (.qpop w) := of (ws := [writeBase 0x19#7 false w]) rfl rfl fun h => by
  change decodeE (writeBase 0x19#7 false w) (0#32) = _
  unfold decodeE
  rw [opOf_writeBase]
  exact dShort_short ..
theorem qpopLong (w : Base) (x : ExtR) : Statement (.qpopLong w x) := of (ws := [writeBase 0x19#7 true w, writeExtR x]) rfl rfl fun h => by
  change decodeE (writeBase 0x19#7 true w) (writeExtR x) = _
  unfold decodeE
  rw [opOf_writeBase]
  exact (dShort_long ..).trans (dR_write ..)
theorem kopen (w : Base) (x : ExtC) : Statement (.kopen w x) := of (ws := [writeBase 0x20#7 true w, writeExtC x]) rfl rfl fun h => by
  change decodeE (writeBase 0x20#7 true w) (writeExtC x) = _
  unfold decodeE
  rw [opOf_writeBase]
  exact (dLong_long ..).trans (dC_write ..)
theorem kcommit (w : Base) (x : ExtC) : Statement (.kcommit w x) := of (ws := [writeBase 0x21#7 true w, writeExtC x]) rfl rfl fun h => by
  change decodeE (writeBase 0x21#7 true w) (writeExtC x) = _
  unfold decodeE
  rw [opOf_writeBase]
  exact (dLong_long ..).trans (dC_write ..)
theorem kdrop (w : Base) (x : ExtC) : Statement (.kdrop w x) := of (ws := [writeBase 0x22#7 true w, writeExtC x]) rfl rfl fun h => by
  change decodeE (writeBase 0x22#7 true w) (writeExtC x) = _
  unfold decodeE
  rw [opOf_writeBase]
  exact (dLong_long ..).trans (dC_write ..)
theorem kmapAlloc (w : Base) (x : ExtC) : Statement (.kmapAlloc w x) := of (ws := [writeBase 0x23#7 true w, writeExtC x]) rfl rfl fun h => by
  change decodeE (writeBase 0x23#7 true w) (writeExtC x) = _
  unfold decodeE
  rw [opOf_writeBase]
  simp [Instr.canonical] at h
  simp [dShort, dLong, dR, dC, dM, kmapOf, h]
theorem kmapFree (w : Base) (x : ExtC) : Statement (.kmapFree w x) := of (ws := [writeBase 0x23#7 true w, writeExtC x]) rfl rfl fun h => by
  change decodeE (writeBase 0x23#7 true w) (writeExtC x) = _
  unfold decodeE
  rw [opOf_writeBase]
  simp [Instr.canonical] at h
  simp [dShort, dLong, dR, dC, dM, kmapOf, h]
theorem kmapFetch (w : Base) (x : ExtC) : Statement (.kmapFetch w x) := of (ws := [writeBase 0x23#7 true w, writeExtC x]) rfl rfl fun h => by
  change decodeE (writeBase 0x23#7 true w) (writeExtC x) = _
  unfold decodeE
  rw [opOf_writeBase]
  simp [Instr.canonical] at h
  simp [dShort, dLong, dR, dC, dM, kmapOf, h]
theorem kmapEvict (w : Base) (x : ExtC) : Statement (.kmapEvict w x) := of (ws := [writeBase 0x23#7 true w, writeExtC x]) rfl rfl fun h => by
  change decodeE (writeBase 0x23#7 true w) (writeExtC x) = _
  unfold decodeE
  rw [opOf_writeBase]
  simp [Instr.canonical] at h
  simp [dShort, dLong, dR, dC, dM, kmapOf, h]
theorem kmapLen (w : Base) (x : ExtC) : Statement (.kmapLen w x) := of (ws := [writeBase 0x23#7 true w, writeExtC x]) rfl rfl fun h => by
  change decodeE (writeBase 0x23#7 true w) (writeExtC x) = _
  unfold decodeE
  rw [opOf_writeBase]
  simp [Instr.canonical] at h
  simp [dShort, dLong, dR, dC, dM, kmapOf, h]
theorem kmapQuery (w : Base) (x : ExtC) : Statement (.kmapQuery w x) := of (ws := [writeBase 0x23#7 true w, writeExtC x]) rfl rfl fun h => by
  change decodeE (writeBase 0x23#7 true w) (writeExtC x) = _
  unfold decodeE
  rw [opOf_writeBase]
  simp [Instr.canonical] at h
  simp [dShort, dLong, dR, dC, dM, kmapOf, h]
theorem route (w : Base) (x : ExtR) : Statement (.route w x) := of (ws := [writeBase 0x28#7 true w, writeExtR x]) rfl rfl fun h => by
  change decodeE (writeBase 0x28#7 true w) (writeExtR x) = _
  unfold decodeE
  rw [opOf_writeBase]
  exact (dLong_long ..).trans (dR_write ..)
theorem rret (w : Base) (x : ExtR) : Statement (.rret w x) := of (ws := [writeBase 0x29#7 true w, writeExtR x]) rfl rfl fun h => by
  change decodeE (writeBase 0x29#7 true w) (writeExtR x) = _
  unfold decodeE
  rw [opOf_writeBase]
  exact (dLong_long ..).trans (dR_write ..)
theorem rxwait (w : Base) (x : ExtR) : Statement (.rxwait w x) := of (ws := [writeBase 0x2A#7 true w, writeExtR x]) rfl rfl fun h => by
  change decodeE (writeBase 0x2A#7 true w) (writeExtR x) = _
  unfold decodeE
  rw [opOf_writeBase]
  exact (dLong_long ..).trans (dR_write ..)
theorem rxstat (w : Base) (x : ExtR) : Statement (.rxstat w x) := of (ws := [writeBase 0x2B#7 true w, writeExtR x]) rfl rfl fun h => by
  change decodeE (writeBase 0x2B#7 true w) (writeExtR x) = _
  unfold decodeE
  rw [opOf_writeBase]
  exact (dLong_long ..).trans (dR_write ..)
theorem amerge (w : Base) (x : ExtR) : Statement (.amerge w x) := of (ws := [writeBase 0x30#7 true w, writeExtR x]) rfl rfl fun h => by
  change decodeE (writeBase 0x30#7 true w) (writeExtR x) = _
  unfold decodeE
  rw [opOf_writeBase]
  exact (dLong_long ..).trans (dR_write ..)
theorem smxup (w : Base) (x : ExtR) : Statement (.smxup w x) := of (ws := [writeBase 0x31#7 true w, writeExtR x]) rfl rfl fun h => by
  change decodeE (writeBase 0x31#7 true w) (writeExtR x) = _
  unfold decodeE
  rw [opOf_writeBase]
  exact (dLong_long ..).trans (dR_write ..)
theorem sread (w : Base) (x : ExtC) : Statement (.sread w x) := of (ws := [writeBase 0x38#7 true w, writeExtC x]) rfl rfl fun h => by
  change decodeE (writeBase 0x38#7 true w) (writeExtC x) = _
  unfold decodeE
  rw [opOf_writeBase]
  exact (dLong_long ..).trans (dC_write ..)
theorem swrite (w : Base) (x : ExtC) : Statement (.swrite w x) := of (ws := [writeBase 0x39#7 true w, writeExtC x]) rfl rfl fun h => by
  change decodeE (writeBase 0x39#7 true w) (writeExtC x) = _
  unfold decodeE
  rw [opOf_writeBase]
  exact (dLong_long ..).trans (dC_write ..)
theorem mode (w : Base) (x : ExtC) : Statement (.mode w x) := of (ws := [writeBase 0x3A#7 true w, writeExtC x]) rfl rfl fun h => by
  change decodeE (writeBase 0x3A#7 true w) (writeExtC x) = _
  unfold decodeE
  rw [opOf_writeBase]
  exact (dLong_long ..).trans (dC_write ..)
theorem trap (w : Base) (x : ExtC) : Statement (.trap w x) := of (ws := [writeBase 0x3B#7 true w, writeExtC x]) rfl rfl fun h => by
  change decodeE (writeBase 0x3B#7 true w) (writeExtC x) = _
  unfold decodeE
  rw [opOf_writeBase]
  exact (dLong_long ..).trans (dC_write ..)
theorem rett (w : Base) : Statement (.rett w) := of (ws := [writeBase 0x3C#7 false w]) rfl rfl fun h => by
  change decodeE (writeBase 0x3C#7 false w) (0#32) = _
  unfold decodeE
  rw [opOf_writeBase]
  exact dShort_short ..
theorem rettLong (w : Base) (x : ExtR) : Statement (.rettLong w x) := of (ws := [writeBase 0x3C#7 true w, writeExtR x]) rfl rfl fun h => by
  change decodeE (writeBase 0x3C#7 true w) (writeExtR x) = _
  unfold decodeE
  rw [opOf_writeBase]
  exact (dShort_long ..).trans (dR_write ..)
theorem sleep (w : Base) (x : ExtC) : Statement (.sleep w x) := of (ws := [writeBase 0x3D#7 true w, writeExtC x]) rfl rfl fun h => by
  change decodeE (writeBase 0x3D#7 true w) (writeExtC x) = _
  unfold decodeE
  rw [opOf_writeBase]
  exact (dLong_long ..).trans (dC_write ..)

end Sys2Proof.Laws.RoundTrip
end

