-- ==== Sys2Proof/Tests/Slice0.lean ====
section
/-! SUPPORT. Tests: words of the spec's encodings decode to their instructions; ill-formed terms are refused; and for
every statement with hypotheses, a state and operands that meet them. Expected values come from the spec's encoding
tables and rules. -/

namespace Sys2Proof.Tests

open Sys2Proof.Machine

/-! ## Small states -/

/-- The words of an instruction, and the class of the clause in which they stand. -/
structure Code where
  cls : Cls
  b : Word
  x : Word

/-- The instruction that they are. -/
def Code.i (c : Code) : Instr := match decode c.cls c.b c.x with | .ok i => i | _ => .query

/-- A state in which core 0 stands before the words: one group of 32 lanes, which owns tiles 0 and 1. -/
def Code.s (c : Code) : State :=
  ({ State.reset.withFetchWord 64 (c.b.toNat + 2 ^ 32 * c.x.toNat) with focus := .group 0 0 }).mapCore 0 fun (k : Core) =>
    k.mapSched 0 fun (y : Scheduler) => { y with run := y.run.map fun (r : Run) => { r with hdr := soloHeader (if longOf c.b then 2 else 1) c.cls } }

def inGroup (f : Group → Group) (s : State) : State := s.mapGroup 0 0 f
def inCore (f : Core → Core) (s : State) : State := s.mapCore 0 f
def inLaunch (f : Launch → Launch) (s : State) : State := { s with launches := s.launches.map f }
def inBlock (f : Block → Block) (s : State) : State := s.mapCore 0 fun k => { k with blocks := k.blocks.map f }
def selecting (f : Sel → Sel) (s : State) : State := { s with sel := f Sel.none }

/-- The state that the instruction leaves. -/
def after (i : Instr) (s : State) : State := match exec i s with | .next t => t | _ => s

def answers (i : Instr) (s : State) : Bool := match exec i s with | .next _ => true | _ => false

theorem answered_of {i : Instr} {s : State} (h : answers i s = true) : ∃ t, exec i s = .next t := by
  unfold answers at h
  split at h
  · rename_i t ht
    exact ⟨t, ht⟩
  · cases h

/-- The instruction is issued and its issuer meets p. -/
def issued (s : State) (i : Instr) (p : Issuer → Bool) : Bool :=
  match issuer s with
  | none => false
  | some x => (holdUp x i).isNone && p x

theorem issues {s : State} {i : Instr} {p : Issuer → Bool} (h : issued s i p = true) : ∃ x, Issues s x i ∧ p x = true := by
  unfold issued at h
  split at h
  · cases h
  · rename_i x hx
    simp only [Bool.and_eq_true, Option.isNone_iff_eq_none] at h
    exact ⟨x, ⟨hx, h.1⟩, h.2⟩

/-- The instruction executes normally, and its issuer meets p. -/
def meets (s : State) (i : Instr) (p : Issuer → Bool) : Bool :=
  match issuer s with
  | none => false
  | some x =>
    (holdUp x i).isNone && activeOf x i != 0#64 && (opdChecks (s.core x.core) x.g x.slot (operandsOf x i)).isNone && p x

theorem executes {s : State} {i : Instr} {p : Issuer → Bool} (h : meets s i p = true) :
    ∃ x, Executes s x i ∧ p x = true := by
  unfold meets at h
  split at h
  · cases h
  · rename_i x hx
    simp only [Bool.and_eq_true, bne_iff_ne, Option.isNone_iff_eq_none] at h
    exact ⟨x, ⟨⟨hx, h.1.1.1⟩, h.1.1.2, h.1.2⟩, h.2⟩

/-- It executes normally. -/
def runs (s : State) (i : Instr) : Bool := meets s i fun _ => true

theorem runs_of {s : State} {i : Instr} (h : runs s i = true) : ∃ x, Executes s x i := by
  obtain ⟨x, hx, _⟩ := executes h
  exact ⟨x, hx⟩

/-- It is acted on, with an active lane or without. -/
theorem acts_of {s : State} {i : Instr} {p : Issuer → Bool} (h : meets s i p = true) : ∃ x, Acts s x i ∧ p x = true := by
  obtain ⟨x, hx, hp⟩ := executes h
  exact ⟨x, ⟨hx.1, .inr hx.2.2⟩, hp⟩

/-- It has the form f and executes normally. -/
theorem formed {α : Type} {f : Instr → Option α} {s : State} {i : Instr} (h : ((f i).isSome && runs s i) = true) :
    ∃ x r, f i = some r ∧ Executes s x i := by
  rw [Bool.and_eq_true, Option.isSome_iff_exists] at h
  obtain ⟨⟨r, hr⟩, h⟩ := h
  obtain ⟨x, hx⟩ := runs_of h
  exact ⟨x, r, hr, hx⟩

/-- The same, and p holds of the issuer and the form. -/
theorem formedWith {α : Type} {f : Instr → Option α} {s : State} {i : Instr} {p : Issuer → α → Bool}
    (h : (f i).any (fun r => meets s i fun x => p x r) = true) : ∃ x r, f i = some r ∧ Executes s x i ∧ p x r = true := by
  cases e : f i with
  | none =>
    rw [e] at h
    cases h
  | some r =>
    rw [e] at h
    obtain ⟨x, hx, hp⟩ := executes h
    exact ⟨x, r, rfl, hx, hp⟩

theorem found {α : Type} {o : Option α} {p : α → Bool} (h : o.any p = true) : ∃ a, o = some a ∧ p a = true := by
  cases o with
  | none => cases h
  | some a => exact ⟨a, rfl, h⟩

/-- What the launch and the block hold in the tests of resources: rings of four slots, block barriers 1 and 2, a table,
scratchpad, a KV context and a route table. -/
def ctx0 : KvContext :=
  { id := 1, nseq := 2, nhead := 1, headDim := 16, capacity := 128, defaultEnc := 0#11, nstate := 0, stateElems := 0
    draftStates := 0, pool := 4, held := 0, lens := [], entries := [], committed := []
    windows := List.replicate 16 { open_ := false, first := 0, count := 0, depth := [], records := [] }, requants := [], returns := [] }

def dest0 : RouteDest := { id := 0, device := 0, core := 0, rank := 0, launch := 1, ring := 0, cap := 0 }

def rich (s : State) : State :=
  let s := inLaunch (fun l => { l with rec_ := { l.rec_ with
    barrierUse := 6, xtables := 1, kvContext := 1, routeTable := 1, trapEntry := 0x100
    rings := List.replicate 8 { slots := 4, lines := 2, base := 0 }, formats := List.replicate 8 0x012#32 } }) s
  let s := inBlock (fun b => { b with spadSize := 8192, bars := [(1, 1), (2, 2)], tables := [(0, 0)] }) s
  let s := inCore (fun c => { c with bars := setNth c.bars 1 { Barrier.empty with pending := 1, members := 1 } }) s
  { s with kvs := [ctx0], routes := [{ id := 1, next := false, timeout := 100, dests := [dest0] }] }

def Code.t (c : Code) : State := rich c.s

/-! ## Decoding: words written out from the encoding tables (02 Tables 2.3 to 2.7, 2.11 to 2.14, 06 Tables 6.1 to 6.6) -/

def cIadd : Code := ⟨.v, 0b0000000_1_000_0000011_0000001_0000010#32, 0b00_0_0_0_0_00010_000_000001_0000000_0_0000#32⟩
theorem test_decode_iadd : decode .v cIadd.b cIadd.x = .ok (.iaddLong ⟨0, 3, 1, 2⟩ (.r ⟨false, false, false, false, 2, 0, 1, 0, false, 0⟩)) := by decide
def cIaddS : Code := ⟨.v, 0b0000000_1_000_0000011_0000001_0000010#32, 0b00_0_1_1_1_00011_000_000000_0000000_0_0000#32⟩
theorem test_decode_iaddS : decode .v cIaddS.b cIaddS.x = .ok (.iaddLong ⟨0, 3, 1, 2⟩ (.r ⟨false, true, true, true, 3, 0, 0, 0, false, 0⟩)) := by decide
def cIaddP : Code := ⟨.v, 0b0000000_1_001_0000011_0000001_0000010#32, 0b00_0_0_0_0_00010_000_000000_0000000_0_0000#32⟩
theorem test_decode_iaddP : decode .v cIaddP.b cIaddP.x = .ok (.iaddLong ⟨1, 3, 1, 2⟩ (.r ⟨false, false, false, false, 2, 0, 0, 0, false, 0⟩)) := by decide
def cAnd : Code := ⟨.v, 0b0010000_1_000_0000001_0000000_0000000#32, 0b01_0_0_0_01000_0000000000000000000001#32⟩
theorem test_decode_and : decode .v cAnd.b cAnd.x = .ok (.andLong ⟨0, 1, 0, 0⟩ (.i ⟨false, false, false, 8, 1⟩)) := by decide
def cFadd : Code := ⟨.v, 0b0110000_0_000_0000011_0000001_0000010#32, 0#32⟩
theorem test_decode_fadd : decode .v cFadd.b cFadd.x = .ok (.fadd ⟨0, 3, 1, 2⟩) := by decide
def cFscl : Code := ⟨.v, 0b0110110_0_000_0000011_0000001_0000010#32, 0#32⟩
theorem test_decode_fscl : decode .v cFscl.b cFscl.x = .ok (.fscl ⟨0, 3, 1, 2⟩) := by decide
def cHadd : Code := ⟨.v, 0b0111000_0_000_0000011_0000001_0000010#32, 0#32⟩
theorem test_decode_hadd : decode .v cHadd.b cHadd.x = .ok (.hadd2 ⟨0, 3, 1, 2⟩) := by decide
def cFrcp : Code := ⟨.v, 0b1000000_0_000_0000011_0000001_0000000#32, 0#32⟩
theorem test_decode_frcp : decode .v cFrcp.b cFrcp.x = .ok (.frcp ⟨0, 3, 1, 0⟩) := by decide
def cMov : Code := ⟨.v, 0b0100100_0_000_0000011_0000001_0000000#32, 0#32⟩
theorem test_decode_mov : decode .v cMov.b cMov.x = .ok (.mov ⟨0, 3, 1, 0⟩) := by decide
def cSel : Code := ⟨.v, 0b0100010_1_000_0000011_0000001_0000010#32, 0b00_0_0_0_0_01000_000_000000_0000010_0_0000#32⟩
theorem test_decode_sel : decode .v cSel.b cSel.x = .ok (.sel ⟨0, 3, 1, 2⟩ ⟨false, false, false, false, 8, 0, 0, 2, false, 0⟩) := by decide
def cLea : Code := ⟨.v, 0b0100110_1_000_0000011_0000001_0000010#32, 0b00_0_0_0_0_00011_000_000010_0000000_0_0000#32⟩
theorem test_decode_lea : decode .v cLea.b cLea.x = .ok (.leaLong ⟨0, 3, 1, 2⟩ (.r ⟨false, false, false, false, 3, 0, 2, 0, false, 0⟩)) := by decide
def cIcmp : Code := ⟨.v, 0b0100000_1_000_0010001_0000001_0000010#32, 0b00_0_0_0_0_00010_000_000000_0000000_0_0000#32⟩
theorem test_decode_icmp : decode .v cIcmp.b cIcmp.x = .ok (.icmp ⟨0, 17, 1, 2⟩ (.r ⟨false, false, false, false, 2, 0, 0, 0, false, 0⟩)) := by decide
def cFcmp : Code := ⟨.v, 0b0100001_1_000_0010001_0000001_0000010#32, 0b00_0_0_0_0_01001_000_000000_0000000_0_0000#32⟩
theorem test_decode_fcmp : decode .v cFcmp.b cFcmp.x = .ok (.fcmp ⟨0, 17, 1, 2⟩ (.r ⟨false, false, false, false, 9, 0, 0, 0, false, 0⟩)) := by decide
def cPlop : Code := ⟨.v, 0b0100011_1_000_0000001_0000010_0000011#32, 0b00_0_0_0_0_00000_000_001000_0000000_0_0000#32⟩
theorem test_decode_plop : decode .v cPlop.b cPlop.x = .ok (.plop ⟨0, 1, 2, 3⟩ ⟨false, false, false, false, 0, 0, 8, 0, false, 0⟩) := by decide
def cVote : Code := ⟨.v, 0b1010010_0_000_0000001_0000010_0000000#32, 0#32⟩
theorem test_decode_vote : decode .v cVote.b cVote.x = .ok (.vote ⟨0, 1, 2, 0⟩) := by decide
def cCvt : Code := ⟨.v, 0b1001000_1_000_0000011_0000001_0000000#32, 0b00_0_0_0_0_00010_000_001001_0000000_0_0000#32⟩
theorem test_decode_cvt : decode .v cCvt.b cCvt.x = .ok (.cvt ⟨0, 3, 1, 0⟩ ⟨false, false, false, false, 2, 0, 9, 0, false, 0⟩) := by decide
def cCvtp : Code := ⟨.v, 0b1001001_1_000_0000011_0000001_0000010#32, 0b00_0_0_0_0_01001_000_001011_0000000_0_0000#32⟩
theorem test_decode_cvtp : decode .v cCvtp.b cCvtp.x = .ok (.cvtp ⟨0, 3, 1, 2⟩ ⟨false, false, false, false, 9, 0, 11, 0, false, 0⟩) := by decide
def cShfl : Code := ⟨.v, 0b1010000_0_000_0000011_0000001_0000010#32, 0#32⟩
theorem test_decode_shfl : decode .v cShfl.b cShfl.x = .ok (.shfl ⟨0, 3, 1, 2⟩) := by decide
def cBallot : Code := ⟨.v, 0b1010001_0_000_0000011_0000001_0000000#32, 0#32⟩
theorem test_decode_ballot : decode .v cBallot.b cBallot.x = .ok (.ballot ⟨0, 3, 1, 0⟩) := by decide
def cRedux : Code := ⟨.v, 0b1010011_1_000_0000011_0000001_0000000#32, 0b00_0_1_0_0_00010_000_100000_0000000_0_0000#32⟩
theorem test_decode_redux : decode .v cRedux.b cRedux.x = .ok (.reduxLong ⟨0, 3, 1, 0⟩ ⟨false, true, false, false, 2, 0, 32, 0, false, 0⟩) := by decide
def cScan : Code := ⟨.v, 0b1010100_1_000_0000011_0000001_0000000#32, 0b00_0_0_0_0_00010_000_000000_0000000_0_0000#32⟩
theorem test_decode_scan : decode .v cScan.b cScan.x = .ok (.scanLong ⟨0, 3, 1, 0⟩ ⟨false, false, false, false, 2, 0, 0, 0, false, 0⟩) := by decide
def cBcast : Code := ⟨.v, 0b1010101_1_000_0000011_0000001_0000000#32, 0b01_0_0_0_01000_0000000000000000011111#32⟩
theorem test_decode_bcast : decode .v cBcast.b cBcast.x = .ok (.bcastLong ⟨0, 3, 1, 0⟩ (.i ⟨false, false, false, 8, 31⟩)) := by decide
def cVrand : Code := ⟨.v, 0b1010110_1_000_0000011_0000010_0000100#32, 0b00_0_0_1_1_01000_000_000000_0000000_0_0000#32⟩
theorem test_decode_vrand : decode .v cVrand.b cVrand.x = .ok (.vrand ⟨0, 3, 2, 4⟩ ⟨false, false, true, true, 8, 0, 0, 0, false, 0⟩) := by decide
def cBra : Code := ⟨.v, 0b1100000_1_000_0000000_0000000_0000000#32, 0b11_0_0_0_000_000000000000000001000000#32⟩
theorem test_decode_bra : decode .v cBra.b cBra.x = .ok (.bra ⟨0, 0, 0, 0⟩ ⟨false, false, false, 0, 64⟩) := by decide
def cBraHint : Code := ⟨.v, 0b1100000_1_001_0000011_0000000_0000000#32, 0b11_1_0_0_000_000000000000000001000000#32⟩
theorem test_decode_braHint : decode .v cBraHint.b cBraHint.x = .ok (.bra ⟨1, 3, 0, 0⟩ ⟨true, false, false, 0, 64⟩) := by decide
def cBri : Code := ⟨.v, 0b1100001_0_000_0000000_0000001_0000000#32, 0#32⟩
theorem test_decode_bri : decode .v cBri.b cBri.x = .ok (.bri ⟨0, 0, 1, 0⟩) := by decide
def cCall : Code := ⟨.v, 0b1100010_1_000_0000011_0000000_0000000#32, 0b11_0_1_0_000_000000000000000001000000#32⟩
theorem test_decode_call : decode .v cCall.b cCall.x = .ok (.call ⟨0, 3, 0, 0⟩ ⟨false, true, false, 0, 64⟩) := by decide
def cConv : Code := ⟨.v, 0b1100100_0_000_0000000_0000000_0000000#32, 0#32⟩
theorem test_decode_conv : decode .v cConv.b cConv.x = .ok (.conv ⟨0, 0, 0, 0⟩) := by decide
def cLyield : Code := ⟨.v, 0b1100101_0_000_0000000_0000000_0000000#32, 0#32⟩
theorem test_decode_lyield : decode .v cLyield.b cLyield.x = .ok (.lyield ⟨0, 0, 0, 0⟩) := by decide
def cPrio : Code := ⟨.v, 0b1100110_0_000_0000000_0000100_0000000#32, 0#32⟩
theorem test_decode_prio : decode .v cPrio.b cPrio.x = .ok (.prio ⟨0, 0, 4, 0⟩) := by decide
def cExit : Code := ⟨.v, 0b1100111_0_000_0000000_0000000_0000000#32, 0#32⟩
theorem test_decode_exit : decode .v cExit.b cExit.x = .ok (.exit ⟨0, 0, 0, 0⟩) := by decide
def cNop : Code := ⟨.v, 0b1101000_0_000_0000000_0000000_0000000#32, 0#32⟩
theorem test_decode_nop : decode .v cNop.b cNop.x = .ok (.nop ⟨0, 0, 0, 0⟩) := by decide
def cSld : Code := ⟨.m, 0b0000000_1_000_0000011_0000001_0000000#32, 0b10_0_0_1_0_00_010_000_00_0000000000000100#32⟩
theorem test_decode_sld : decode .m cSld.b cSld.x = .ok (.sldLong ⟨0, 3, 1, 0⟩ ⟨false, false, true, false, 0, 2, 0, 0, 4⟩) := by decide
def cSst : Code := ⟨.m, 0b0000001_0_000_0000011_0000001_0000000#32, 0#32⟩
theorem test_decode_sst : decode .m cSst.b cSst.x = .ok (.sst ⟨0, 3, 1, 0⟩) := by decide
def cSstS : Code := ⟨.m, 0b0000001_1_000_0000011_0000001_0000000#32, 0b10_0_0_1_0_00_010_000_00_0000000000000000#32⟩
theorem test_decode_sstS : decode .m cSstS.b cSstS.x = .ok (.sstLong ⟨0, 3, 1, 0⟩ ⟨false, false, true, false, 0, 2, 0, 0, 0⟩) := by decide
def cSatom : Code := ⟨.m, 0b0000010_1_000_0000011_0000001_0000000#32, 0b10_0_0_1_0_00_010_000_00_0001000000000000#32⟩
theorem test_decode_satom : decode .m cSatom.b cSatom.x = .ok (.satom ⟨0, 3, 1, 0⟩ ⟨false, false, true, false, 0, 2, 0, 0, 4096⟩) := by decide
def cGld : Code := ⟨.m, 0b0001000_1_000_0000011_0000010_0000000#32, 0b10_0_0_1_0_00_010_000_00_0000000000000000#32⟩
theorem test_decode_gld : decode .m cGld.b cGld.x = .ok (.gldLong ⟨0, 3, 2, 0⟩ ⟨false, false, true, false, 0, 2, 0, 0, 0⟩) := by decide
def cGldI : Code := ⟨.m, 0b0001000_1_000_0000011_0000010_0000001#32, 0b10_0_0_1_0_00_010_000_00_0000000000000000#32⟩
theorem test_decode_gldI : decode .m cGldI.b cGldI.x = .ok (.gldLong ⟨0, 3, 2, 1⟩ ⟨false, false, true, false, 0, 2, 0, 0, 0⟩) := by decide
def cGstI : Code := ⟨.m, 0b0001001_1_000_0000011_0000010_0000001#32, 0b10_0_0_1_0_00_010_000_00_0000000000000000#32⟩
theorem test_decode_gstI : decode .m cGstI.b cGstI.x = .ok (.gstLong ⟨0, 3, 2, 1⟩ ⟨false, false, true, false, 0, 2, 0, 0, 0⟩) := by decide
def cCld : Code := ⟨.m, 0b0000100_1_000_0000011_0000001_0000000#32, 0b10_0_0_1_0_00_010_000_00_0000000000000000#32⟩
theorem test_decode_cld : decode .m cCld.b cCld.x = .ok (.cldLong ⟨0, 3, 1, 0⟩ ⟨false, false, true, false, 0, 2, 0, 0, 0⟩) := by decide
def cHst : Code := ⟨.m, 0b0001101_1_000_0000011_0000010_0000000#32, 0b10_0_0_1_0_00_010_000_00_0000000000000000#32⟩
theorem test_decode_hst : decode .m cHst.b cHst.x = .ok (.hstLong ⟨0, 3, 2, 0⟩ ⟨false, false, true, false, 0, 2, 0, 0, 0⟩) := by decide
def cPld : Code := ⟨.m, 0b0010000_1_000_0000011_0000010_0000000#32, 0b10_0_0_1_0_00_010_000_00_0000000000000000#32⟩
theorem test_decode_pld : decode .m cPld.b cPld.x = .ok (.pld ⟨0, 3, 2, 0⟩ ⟨false, false, true, false, 0, 2, 0, 0, 0⟩) := by decide
def cGatom : Code := ⟨.m, 0b0001010_1_000_0000011_0000010_0000000#32, 0b10_0_0_1_0_00_010_100_00_0000000000000000#32⟩
theorem test_decode_gatom : decode .m cGatom.b cGatom.x = .ok (.gatom ⟨0, 3, 2, 0⟩ ⟨false, false, true, false, 0, 2, 4, 0, 0⟩) := by decide
def cFence : Code := ⟨.m, 0b0100000_0_000_0000000_0000000_0000000#32, 0#32⟩
theorem test_decode_fence : decode .m cFence.b cFence.x = .ok (.fence ⟨0, 0, 0, 0⟩) := by decide
def cFenceD : Code := ⟨.m, 0b0100000_1_000_0000000_0000000_0000000#32, 0b11_0_0_0_011_000000000000000000000000#32⟩
theorem test_decode_fenceD : decode .m cFenceD.b cFenceD.x = .ok (.fenceLong ⟨0, 0, 0, 0⟩ ⟨false, false, false, 3, 0⟩) := by decide
def cFenceW : Code := ⟨.m, 0b0100000_1_000_0000000_0000000_0000000#32, 0b11_0_0_0_011_000000000000000000000001#32⟩
theorem test_decode_fenceW : decode .m cFenceW.b cFenceW.x = .ok (.fenceWalk ⟨0, 0, 0, 0⟩ ⟨false, false, false, 3, 1⟩) := by decide
def cAcqRemote : Code := ⟨.m, 0b0100001_1_000_0000000_0000001_0000000#32, 0b11_0_0_1_011_000000000000000000000010#32⟩
theorem test_decode_acqRemote : decode .m cAcqRemote.b cAcqRemote.x = .ok (.acqRemote ⟨0, 0, 1, 0⟩ ⟨false, false, true, 3, 2⟩) := by decide
def cPref : Code := ⟨.m, 0b0100011_1_000_0000000_0000010_0000000#32, 0b10_0_0_1_0_00_000_000_00_0000000000000000#32⟩
theorem test_decode_pref : decode .m cPref.b cPref.x = .ok (.prefLong ⟨0, 0, 2, 0⟩ ⟨false, false, true, false, 0, 0, 0, 0, 0⟩) := by decide
def cBare : Code := ⟨.m, 0b0101000_1_000_0000000_0000000_0000000#32, 0b11_0_0_0_000_000000000000001100000001#32⟩
theorem test_decode_bare : decode .m cBare.b cBare.x = .ok (.bare ⟨0, 0, 0, 0⟩ ⟨false, false, false, 0, 769⟩) := by decide
def cBareMax : Code := ⟨.m, 0b0101000_1_000_0000000_0000000_0000000#32, 0b11_0_0_0_000_000000000011111100000001#32⟩
theorem test_decode_bareMax : decode .m cBareMax.b cBareMax.x = .ok (.bare ⟨0, 0, 0, 0⟩ ⟨false, false, false, 0, 16129⟩) := by decide
def cBara : Code := ⟨.m, 0b0101001_1_000_0000000_0000000_0000000#32, 0b11_0_0_0_000_000000000000000000000001#32⟩
theorem test_decode_bara : decode .m cBara.b cBara.x = .ok (.bara ⟨0, 0, 0, 0⟩ ⟨false, false, false, 0, 1⟩) := by decide
def cBarw : Code := ⟨.m, 0b0101010_1_000_0000000_0000000_0000000#32, 0b11_0_0_0_000_000000000000000000000001#32⟩
theorem test_decode_barw : decode .m cBarw.b cBarw.x = .ok (.barw ⟨0, 0, 0, 0⟩ ⟨false, false, false, 0, 1⟩) := by decide
def cBaraw : Code := ⟨.m, 0b0101011_1_000_0000000_0000000_0000000#32, 0b11_0_0_0_000_000000000000000000000010#32⟩
theorem test_decode_baraw : decode .m cBaraw.b cBaraw.x = .ok (.baraw ⟨0, 0, 0, 0⟩ ⟨false, false, false, 0, 2⟩) := by decide
def cGive : Code := ⟨.m, 0b0110000_1_000_0000000_0000000_0000000#32, 0b11_0_0_0_000_010000000000000000100000#32⟩
theorem test_decode_give : decode .m cGive.b cGive.x = .ok (.give ⟨0, 0, 0, 0⟩ ⟨false, false, false, 0, 4194336⟩) := by decide
def cTake : Code := ⟨.m, 0b0110001_1_000_0000000_0000000_0000000#32, 0b11_0_0_0_000_010000000000000000000000#32⟩
theorem test_decode_take : decode .m cTake.b cTake.x = .ok (.take ⟨0, 0, 0, 0⟩ ⟨false, false, false, 0, 4194304⟩) := by decide
def cTakeAny : Code := ⟨.m, 0b0110001_1_000_0000000_0000000_0000000#32, 0b11_0_0_0_000_110000000000000000000000#32⟩
theorem test_decode_takeAny : decode .m cTakeAny.b cTakeAny.x = .ok (.take ⟨0, 0, 0, 0⟩ ⟨false, false, false, 0, 12582912⟩) := by decide
def cOwnq : Code := ⟨.m, 0b0110010_1_000_0000011_0000000_0000000#32, 0b11_0_1_0_000_010000000000000000000000#32⟩
theorem test_decode_ownq : decode .m cOwnq.b cOwnq.x = .ok (.ownq ⟨0, 3, 0, 0⟩ ⟨false, true, false, 0, 4194304⟩) := by decide
def cCtradd : Code := ⟨.m, 0b0111000_1_000_0000000_0000000_0000000#32, 0b11_0_0_0_001_000000000000000100000011#32⟩
theorem test_decode_ctradd : decode .m cCtradd.b cCtradd.x = .ok (.ctradd ⟨0, 0, 0, 0⟩ ⟨false, false, false, 1, 259⟩) := by decide
def cCtrwait : Code := ⟨.m, 0b0111001_1_000_0000000_0000000_0000000#32, 0b11_0_0_0_001_000000000000000100000011#32⟩
theorem test_decode_ctrwait : decode .m cCtrwait.b cCtrwait.x = .ok (.ctrwait ⟨0, 0, 0, 0⟩ ⟨false, false, false, 1, 259⟩) := by decide
def cCtrrd : Code := ⟨.m, 0b0111010_1_000_0000011_0000000_0000000#32, 0b11_0_1_0_000_000000000000000000000011#32⟩
theorem test_decode_ctrrd : decode .m cCtrrd.b cCtrrd.x = .ok (.ctrrd ⟨0, 3, 0, 0⟩ ⟨false, true, false, 0, 3⟩) := by decide
def cRingw : Code := ⟨.m, 0b0111100_1_000_0000011_0000000_0000000#32, 0b11_0_1_0_000_000000000000000000000000#32⟩
theorem test_decode_ringw : decode .m cRingw.b cRingw.x = .ok (.ringwFill ⟨0, 3, 0, 0⟩ ⟨false, true, false, 0, 0⟩) := by decide
def cRingwMax : Code := ⟨.m, 0b0111100_1_000_0000011_0000000_0000000#32, 0b11_0_1_0_000_000000110000000100000000#32⟩
theorem test_decode_ringwMax : decode .m cRingwMax.b cRingwMax.x = .ok (.ringwFree ⟨0, 3, 0, 0⟩ ⟨false, true, false, 0, 196864⟩) := by decide
def cRingl : Code := ⟨.m, 0b0111101_1_000_0000000_0000000_0000000#32, 0b11_0_0_0_000_000000000000000100000000#32⟩
theorem test_decode_ringl : decode .m cRingl.b cRingl.x = .ok (.ringlFree ⟨0, 0, 0, 0⟩ ⟨false, false, false, 0, 256⟩) := by decide
def cRingq : Code := ⟨.m, 0b0111110_1_000_0000011_0000000_0000000#32, 0b11_0_1_0_000_000000000000000000000000#32⟩
theorem test_decode_ringq : decode .m cRingq.b cRingq.x = .ok (.ringq ⟨0, 3, 0, 0⟩ ⟨false, true, false, 0, 0⟩) := by decide
def cXtake : Code := ⟨.x, 0b0100001_0_000_000001_000000000000000#32, 0#32⟩
theorem test_decode_xtake : decode .x cXtake.b cXtake.x = .ok (.xtake ⟨0, 1, 0⟩) := by decide
def cIter : Code := ⟨.x, 0b0010010_1_000_000_100_0_000000_00000000#32, 0x00000004#32⟩
theorem test_decode_iter : decode .x cIter.b cIter.x = .ok (.iterImm ⟨0, 0, 4, 0, 0, 4⟩) := by decide
def cIterReg : Code := ⟨.x, 0b0010010_0_000_000_100_1_000101_00000000#32, 0#32⟩
theorem test_decode_iterReg : decode .x cIterReg.b cIterReg.x = .ok (.iterReg ⟨0, 0, 4, 5, 0, 0⟩) := by decide
def cXwait : Code := ⟨.x, 0b0100011_0_000_0_000001_00000000000001#32, 0#32⟩
theorem test_decode_xwait : decode .x cXwait.b cXwait.x = .ok (.xwait ⟨0, false, 1, 1⟩) := by decide
def cPanel : Code := ⟨.x, 0b0010001_0_000_000_000_000000000000000#32, 0#32⟩
theorem test_decode_panel : decode .x cPanel.b cPanel.x = .ok (.panel ⟨0, 0, 0, 0⟩) := by decide
def cMmz : Code := ⟨.x, 0b0000001_0_000_0_000001_00001_00_00_000_0_0#32, 0#32⟩
theorem test_decode_mmz : decode .x cMmz.b cMmz.x = .ok (.mmz ⟨0, false, 1, 1, 0, 0, 0, false, false⟩) := by decide
def cMm : Code := ⟨.x, 0b0000000_0_000_0_000001_00001_00_00_000_0_0#32, 0#32⟩
theorem test_decode_mm : decode .x cMm.b cMm.x = .ok (.mm ⟨0, false, 1, 1, 0, 0, 0, false, false⟩) := by decide
def cScl : Code := ⟨.x, 0b0001000_0_000_000_001_0_000001_0_0000000#32, 0#32⟩
theorem test_decode_scl : decode .x cScl.b cScl.x = .ok (.scl ⟨0, 0, 1, false, 1, false, 0⟩) := by decide
def cStrm : Code := ⟨.x, 0b0010000_0_000_000_000000000000100_000#32, 0#32⟩
theorem test_decode_strm : decode .x cStrm.b cStrm.x = .ok (.strm ⟨0, 0, 4, 0⟩) := by decide
def cLoop : Code := ⟨.x, 0b0011000_1_000_0000_00_000000000000000#32, 0x00000040#32⟩
theorem test_decode_loop : decode .x cLoop.b cLoop.x = .ok (.loop ⟨0, 0, 0, 0, 64⟩) := by decide
def cXgive : Code := ⟨.x, 0b0100000_0_000_000010_000000_000000000#32, 0#32⟩
theorem test_decode_xgive : decode .x cXgive.b cXgive.x = .ok (.xgive ⟨0, 2, 0, 0⟩) := by decide
def cXsig : Code := ⟨.x, 0b0100010_0_000_0_000011_00000000000001#32, 0#32⟩
theorem test_decode_xsig : decode .x cXsig.b cXsig.x = .ok (.xsig ⟨0, 3, 1⟩) := by decide
def cXsigBar : Code := ⟨.x, 0b0100010_0_000_1_000001_00000000000000#32, 0#32⟩
theorem test_decode_xsigBar : decode .x cXsigBar.b cXsigBar.x = .ok (.xsigBar ⟨0, 1, 0⟩) := by decide
def cXend : Code := ⟨.x, 0b0100100_0_000_000000000000000001001#32, 0#32⟩
theorem test_decode_xend : decode .x cXend.b cXend.x = .ok (.xend ⟨0, 9⟩) := by decide
def cCpy : Code := ⟨.e, 0b0000010_1_000_0000010_0000100_0000110#32, 0b11_0_1_1_000_000000000000000000000000#32⟩
theorem test_decode_cpy : decode .e cCpy.b cCpy.x = .ok (.cpy ⟨0, 2, 4, 6⟩ ⟨false, true, true, 0, 0⟩) := by decide
def cCpy3 : Code := ⟨.e, 0b0000010_1_000_0000010_0000100_0000110#32, 0b11_0_1_1_011_000000000000000000000000#32⟩
theorem test_decode_cpy3 : decode .e cCpy3.b cCpy3.x = .ok (.cpy ⟨0, 2, 4, 6⟩ ⟨false, true, true, 3, 0⟩) := by decide
def cCpy6 : Code := ⟨.e, 0b0000010_1_000_0000010_0000100_0000110#32, 0b11_0_1_1_110_000000000000000000000000#32⟩
theorem test_decode_cpy6 : decode .e cCpy6.b cCpy6.x = .ok (.cpy ⟨0, 2, 4, 6⟩ ⟨false, true, true, 6, 0⟩) := by decide
def cCred : Code := ⟨.e, 0b0000011_1_000_0000010_0000100_0000110#32, 0b11_0_1_1_000_000000000000000000000000#32⟩
theorem test_decode_cred : decode .e cCred.b cCred.x = .ok (.cred ⟨0, 2, 4, 6⟩ ⟨false, true, true, 0, 0⟩) := by decide
def cCredWs : Code := ⟨.e, 0b0000011_1_000_0000010_0000100_0000110#32, 0b11_0_1_1_000_000000000000001000000000#32⟩
theorem test_decode_credWs : decode .e cCredWs.b cCredWs.x = .ok (.cred ⟨0, 2, 4, 6⟩ ⟨false, true, true, 0, 512⟩) := by decide
def cCredG : Code := ⟨.e, 0b0000011_1_000_0000010_0000100_0000110#32, 0b11_0_1_1_000_010000000000000000000000#32⟩
theorem test_decode_credG : decode .e cCredG.b cCredG.x = .ok (.cred ⟨0, 2, 4, 6⟩ ⟨false, true, true, 0, 4194304⟩) := by decide
def cDqz : Code := ⟨.e, 0b0001001_1_000_0000010_0000100_0000110#32, 0b00_0_1_1_1_10000_000_000000_0001000_1_0000#32⟩
theorem test_decode_dqz : decode .e cDqz.b cDqz.x = .ok (.dqz ⟨0, 2, 4, 6⟩ ⟨false, true, true, true, 16, 0, 0, 8, true, 0⟩) := by decide
def cRqzG : Code := ⟨.e, 0b0001010_1_000_0000010_0000100_0000110#32, 0b00_0_1_1_1_10000_000_000001_0001000_1_0000#32⟩
theorem test_decode_rqzG : decode .e cRqzG.b cRqzG.x = .ok (.rqz ⟨0, 2, 4, 6⟩ ⟨false, true, true, true, 16, 0, 1, 8, true, 0⟩) := by decide
def cLsend : Code := ⟨.e, 0b0010000_1_000_0000010_0000100_0000110#32, 0b00_0_1_1_1_00000_000_000000_0001000_1_0000#32⟩
theorem test_decode_lsend : decode .e cLsend.b cLsend.x = .ok (.lsend ⟨0, 2, 4, 6⟩ ⟨false, true, true, true, 0, 0, 0, 8, true, 0⟩) := by decide
def cQtz : Code := ⟨.e, 0b0001000_1_000_0000010_0000100_0000110#32, 0b00_0_1_1_1_10000_000_000000_0001000_1_0000#32⟩
theorem test_decode_qtz : decode .e cQtz.b cQtz.x = .ok (.qtz ⟨0, 2, 4, 6⟩ ⟨false, true, true, true, 16, 0, 0, 8, true, 0⟩) := by decide
def cCgoR : Code := ⟨.e, 0b0000001_1_000_0000000_0000000_0000000#32, 0b11_0_1_1_000_000000000000000100000000#32⟩
theorem test_decode_cgoR : decode .e cCgoR.b cCgoR.x = .ok (.cgo ⟨0, 0, 0, 0⟩ ⟨false, true, true, 0, 256⟩) := by decide
def cCnest : Code := ⟨.e, 0b0000000_1_000_0000000_0000100_0000000#32, 0b11_0_0_1_000_000000000000000000000000#32⟩
theorem test_decode_cnest : decode .e cCnest.b cCnest.x = .ok (.cnest ⟨0, 0, 4, 0⟩ ⟨false, false, true, 0, 0⟩) := by decide
def cCgo : Code := ⟨.e, 0b0000001_1_000_0000010_0000100_0000000#32, 0b11_0_1_1_000_000000000000000000000000#32⟩
theorem test_decode_cgo : decode .e cCgo.b cCgo.x = .ok (.cgo ⟨0, 2, 4, 0⟩ ⟨false, true, true, 0, 0⟩) := by decide
def cLsendP : Code := ⟨.e, 0b0010000_1_000_0000010_0000100_0000110#32, 0b00_0_1_1_1_00000_000_000001_0001000_1_0000#32⟩
theorem test_decode_lsendP : decode .e cLsendP.b cLsendP.x = .ok (.lsendPort ⟨0, 2, 4, 6⟩ ⟨false, true, true, true, 0, 0, 1, 8, true, 0⟩) := by decide
def cRqz : Code := ⟨.e, 0b0001010_1_000_0000010_0000100_0000110#32, 0b00_0_1_1_1_10000_000_010000_0001000_1_0000#32⟩
theorem test_decode_rqz : decode .e cRqz.b cRqz.x = .ok (.rqzKv ⟨0, 2, 4, 6⟩ ⟨false, true, true, true, 16, 0, 16, 8, true, 0⟩) := by decide
def cLradd : Code := ⟨.e, 0b0010001_1_000_0000010_0000100_0000110#32, 0b00_0_1_1_1_00000_000_000000_0001000_1_0000#32⟩
theorem test_decode_lradd : decode .e cLradd.b cLradd.x = .ok (.lradd ⟨0, 2, 4, 6⟩ ⟨false, true, true, true, 0, 0, 0, 8, true, 0⟩) := by decide
def cLwin : Code := ⟨.e, 0b0010010_1_000_0000010_0000100_0000110#32, 0b00_0_1_1_1_00000_000_000000_0001000_1_0000#32⟩
theorem test_decode_lwin : decode .e cLwin.b cLwin.x = .ok (.lwin ⟨0, 2, 4, 6⟩ ⟨false, true, true, true, 0, 0, 0, 8, true, 0⟩) := by decide
def cQpush : Code := ⟨.e, 0b0011000_1_000_0000000_0000011_0001000#32, 0b00_0_0_1_0_00111_000_000000_0000000_0_0000#32⟩
theorem test_decode_qpush : decode .e cQpush.b cQpush.x = .ok (.qpushLong ⟨0, 0, 3, 8⟩ ⟨false, false, true, false, 7, 0, 0, 0, false, 0⟩) := by decide
def cQpush0 : Code := ⟨.e, 0b0011000_1_000_0000000_0000011_0000000#32, 0b00_0_0_1_0_00111_000_000000_0000000_0_0000#32⟩
theorem test_decode_qpush0 : decode .e cQpush0.b cQpush0.x = .ok (.qpushLong ⟨0, 0, 3, 0⟩ ⟨false, false, true, false, 7, 0, 0, 0, false, 0⟩) := by decide
def cQpush1 : Code := ⟨.e, 0b0011000_1_000_0000000_0000011_0000001#32, 0b00_0_0_1_0_00111_000_000000_0000000_0_0000#32⟩
theorem test_decode_qpush1 : decode .e cQpush1.b cQpush1.x = .ok (.qpushLong ⟨0, 0, 3, 1⟩ ⟨false, false, true, false, 7, 0, 0, 0, false, 0⟩) := by decide
def cQpop : Code := ⟨.e, 0b0011001_1_000_0000011_0000000_0001000#32, 0b00_0_1_0_0_00111_000_000000_0000000_0_0000#32⟩
theorem test_decode_qpop : decode .e cQpop.b cQpop.x = .ok (.qpopLong ⟨0, 3, 0, 8⟩ ⟨false, true, false, false, 7, 0, 0, 0, false, 0⟩) := by decide
def cQpop0 : Code := ⟨.e, 0b0011001_1_000_0000011_0000000_0000000#32, 0b00_0_1_0_0_00111_000_000000_0000000_0_0000#32⟩
theorem test_decode_qpop0 : decode .e cQpop0.b cQpop0.x = .ok (.qpopLong ⟨0, 3, 0, 0⟩ ⟨false, true, false, false, 7, 0, 0, 0, false, 0⟩) := by decide
def cKld : Code := ⟨.m, 0b0010100_1_000_0000011_0000001_0000010#32, 0b10_0_0_0_0_00_000_000_00_0000000100100000#32⟩
theorem test_decode_kld : decode .m cKld.b cKld.x = .ok (.kld ⟨0, 3, 1, 2⟩ ⟨false, false, false, false, 0, 0, 0, 0, 288⟩) := by decide
def cKldTable : Code := ⟨.m, 0b0010100_1_000_0001000_0000110_0000101#32, 0b10_0_0_1_0_00_001_000_00_0000000100110011#32⟩
theorem test_decode_kldTable : decode .m cKldTable.b cKldTable.x = .ok (.kld ⟨0, 8, 6, 5⟩ ⟨false, false, true, false, 0, 1, 0, 0, 307⟩) := by decide
def cKopen : Code := ⟨.e, 0b0100000_1_000_0000000_0000011_0000000#32, 0b11_0_0_1_000_000000000000000000000000#32⟩
theorem test_decode_kopen : decode .e cKopen.b cKopen.x = .ok (.kopen ⟨0, 0, 3, 0⟩ ⟨false, false, true, 0, 0⟩) := by decide
def cKcommit : Code := ⟨.e, 0b0100001_1_000_0000000_0000000_0000000#32, 0b11_0_0_0_000_000000000010001100100011#32⟩
theorem test_decode_kcommit : decode .e cKcommit.b cKcommit.x = .ok (.kcommit ⟨0, 0, 0, 0⟩ ⟨false, false, false, 0, 8995⟩) := by decide
def cKmap : Code := ⟨.e, 0b0100011_1_000_0000011_0000100_0000000#32, 0b11_0_1_1_000_000000000000000000000101#32⟩
theorem test_decode_kmap : decode .e cKmap.b cKmap.x = .ok (.kmapQuery ⟨0, 3, 4, 0⟩ ⟨false, true, true, 0, 5⟩) := by decide
def cRoute : Code := ⟨.e, 0b0101000_1_000_0000000_0000011_0000100#32, 0b00_0_0_1_1_01011_000_000000_0000101_0_0000#32⟩
theorem test_decode_route : decode .e cRoute.b cRoute.x = .ok (.route ⟨0, 0, 3, 4⟩ ⟨false, false, true, true, 11, 0, 0, 5, false, 0⟩) := by decide
def cRret : Code := ⟨.e, 0b0101001_1_000_0000000_0000011_0000100#32, 0b00_0_0_1_1_00000_000_000000_0000000_0_0000#32⟩
theorem test_decode_rret : decode .e cRret.b cRret.x = .ok (.rret ⟨0, 0, 3, 4⟩ ⟨false, false, true, true, 0, 0, 0, 0, false, 0⟩) := by decide
def cRxwait : Code := ⟨.e, 0b0101010_1_000_0000000_0000000_0000000#32, 0b00_0_0_0_0_00000_000_000000_0000000_0_0000#32⟩
theorem test_decode_rxwait : decode .e cRxwait.b cRxwait.x = .ok (.rxwait ⟨0, 0, 0, 0⟩ ⟨false, false, false, false, 0, 0, 0, 0, false, 0⟩) := by decide
def cRxstat : Code := ⟨.e, 0b0101011_1_000_0000011_0000000_0000100#32, 0b00_0_1_0_1_00000_000_000000_0000000_0_0000#32⟩
theorem test_decode_rxstat : decode .e cRxstat.b cRxstat.x = .ok (.rxstat ⟨0, 3, 0, 4⟩ ⟨false, true, false, true, 0, 0, 0, 0, false, 0⟩) := by decide
def cAmerge : Code := ⟨.e, 0b0110000_1_000_0000000_0000011_1000000#32, 0b00_0_0_1_0_00000_000_000000_0111111_0_0000#32⟩
theorem test_decode_amerge : decode .e cAmerge.b cAmerge.x = .ok (.amerge ⟨0, 0, 3, 64⟩ ⟨false, false, true, false, 0, 0, 0, 63, false, 0⟩) := by decide
def cSmxup : Code := ⟨.e, 0b0110001_1_000_1100000_0000000_1000000#32, 0b00_0_0_0_0_00000_000_000000_0000011_1_0000#32⟩
theorem test_decode_smxup : decode .e cSmxup.b cSmxup.x = .ok (.smxup ⟨0, 96, 0, 64⟩ ⟨false, false, false, false, 0, 0, 0, 3, true, 0⟩) := by decide
def cSread : Code := ⟨.e, 0b0111000_1_000_0000011_0000000_0000000#32, 0b11_0_1_0_000_000000000000000000000000#32⟩
theorem test_decode_sread : decode .e cSread.b cSread.x = .ok (.sread ⟨0, 3, 0, 0⟩ ⟨false, true, false, 0, 0⟩) := by decide
def cSreadL : Code := ⟨.e, 0b0111000_1_000_0000011_0000000_0000000#32, 0b11_0_0_0_000_000000000000000000011000#32⟩
theorem test_decode_sreadL : decode .e cSreadL.b cSreadL.x = .ok (.sread ⟨0, 3, 0, 0⟩ ⟨false, false, false, 0, 24⟩) := by decide
def cSwrite : Code := ⟨.e, 0b0111001_1_000_0000000_0000001_0000000#32, 0b11_0_0_0_000_000000000000000000011000#32⟩
theorem test_decode_swrite : decode .e cSwrite.b cSwrite.x = .ok (.swrite ⟨0, 0, 1, 0⟩ ⟨false, false, false, 0, 24⟩) := by decide
def cSwriteL : Code := ⟨.e, 0b0111001_1_000_0000000_0000001_0000000#32, 0b11_0_0_0_000_000000000000000000011010#32⟩
theorem test_decode_swriteL : decode .e cSwriteL.b cSwriteL.x = .ok (.swrite ⟨0, 0, 1, 0⟩ ⟨false, false, false, 0, 26⟩) := by decide
def cMode : Code := ⟨.e, 0b0111010_1_000_0000000_0000000_0000000#32, 0b11_0_0_0_000_000000000001111100000011#32⟩
theorem test_decode_mode : decode .e cMode.b cMode.x = .ok (.mode ⟨0, 0, 0, 0⟩ ⟨false, false, false, 0, 7939⟩) := by decide
def cTrap : Code := ⟨.e, 0b0111011_1_000_0000000_0000000_0000000#32, 0b11_0_0_0_000_101010111100110111101111#32⟩
theorem test_decode_trap : decode .e cTrap.b cTrap.x = .ok (.trap ⟨0, 0, 0, 0⟩ ⟨false, false, false, 0, 11259375⟩) := by decide
def cTrapP : Code := ⟨.e, 0b0111011_1_001_0000000_0000000_0000000#32, 0b11_0_0_0_000_000000000000000000000001#32⟩
theorem test_decode_trapP : decode .e cTrapP.b cTrapP.x = .ok (.trap ⟨1, 0, 0, 0⟩ ⟨false, false, false, 0, 1⟩) := by decide
def cRett : Code := ⟨.e, 0b0111100_0_000_0000000_0000000_0000000#32, 0#32⟩
theorem test_decode_rett : decode .e cRett.b cRett.x = .ok (.rett ⟨0, 0, 0, 0⟩) := by decide
def cSleep0 : Code := ⟨.e, 0b0111101_1_000_0000000_0000000_0000000#32, 0b11_0_0_0_000_000000000000000000000000#32⟩
theorem test_decode_sleep0 : decode .e cSleep0.b cSleep0.x = .ok (.sleep ⟨0, 0, 0, 0⟩ ⟨false, false, false, 0, 0⟩) := by decide
def cSreadMap : Code := ⟨.e, 0b0111000_1_000_0000011_0000000_0000000#32, 0b11_0_1_0_000_000000000000000000001111#32⟩
theorem test_decode_sreadMap : decode .e cSreadMap.b cSreadMap.x = .ok (.sread ⟨0, 3, 0, 0⟩ ⟨false, true, false, 0, 15⟩) := by decide
def cSleep : Code := ⟨.e, 0b0111101_1_000_0000000_0000000_0000000#32, 0b11_0_0_0_000_111111111111111111111111#32⟩
theorem test_decode_sleep : decode .e cSleep.b cSleep.x = .ok (.sleep ⟨0, 0, 0, 0⟩ ⟨false, false, false, 0, 16777215⟩) := by decide

/-- Words of the spec's worked examples (02 Table 2.20, 04 Table 4.6, 05 Table 5.7, 07 Table 7.15, 12). -/
theorem test_decode_examples :
    decode .m 0x03009081#32 0#32 ≠ .unassigned ∧
    decode .m 0x03010501#32 0x88800000#32 = .ok (.sstLong ⟨0, 4, 10, 1⟩ ⟨false, false, true, false, 0, 4, 0, 0, 0⟩) ∧
    decode .m 0x53000000#32 0xC0000001#32 = .ok (.bara ⟨0, 0, 0, 0⟩ ⟨false, false, false, 0, 1⟩) ∧
    decode .m 0x61000000#32 0xC0010001#32 = .ok (.give ⟨0, 0, 0, 0⟩ ⟨false, false, false, 0, 0x010001⟩) ∧
    decode .m 0x63000000#32 0xC0410000#32 = .ok (.take ⟨0, 0, 0, 0⟩ ⟨false, false, false, 0, 0x410000⟩) ∧
    decode .x 0x02004200#32 0#32 = .ok (.mmz ⟨0, false, 1, 1, 0, 0, 0, false, false⟩) ∧
    decode .x 0x40018000#32 0#32 = .ok (.xgive ⟨0, 3, 0, 0⟩) := by decide

/-- An extension word in another layout than the opcode takes is illegal, and so is an opcode with no row. -/
theorem test_decode_refuses :
    decode .v cIadd.b cBra.x = .illegal 0x8 ∧ decode .v 0xFE000000#32 0#32 = .unassigned := by decide

/-! ## Ill-formed terms, one for each check (02 R69 to R78, R86, 06 R224) -/

/-- What the field checks know in the tests: no resource is there. -/
def env0 : CheckEnv :=
  { wide := false, barUse := 0#32, xtables := 0#8, rings := List.replicate 8 { slots := 0, lines := 0, base := 0 }
    formats := List.replicate 8 0#32, kv := false, route := false, handler := false }

theorem test_wellFormed_holds : cIadd.i.wellFormed env0 = true ∧ cSst.i.wellFormed env0 = true ∧ cCpy.i.wellFormed env0 = true := by
  decide

/-- The constructor does not agree with its selecting bit. -/
theorem test_refuses_wrong_row : (Instr.fenceLong ⟨0, 0, 0, 0⟩ ⟨false, false, false, 0, 1⟩).wellFormed env0 = false := by decide

/-- A reserved bit is set. -/
theorem test_refuses_reserved :
    (Instr.iaddLong ⟨0, 1, 2, 3⟩ (.r { shortR 2 with rsv := 1 })).wellFormed env0 = false := by decide

/-- A type that the opcode does not accept. -/
theorem test_refuses_type : (Instr.faddLong ⟨0, 1, 2, 3⟩ (.r { shortR 2 with type := 2 })).wellFormed env0 = false := by decide

/-- An odd register for a pair. -/
theorem test_refuses_odd_pair :
    (Instr.iaddLong ⟨0, 1, 2, 4⟩ (.r { shortR 2 with type := 3 })).wellFormed env0 = false := by decide

/-- P0 as a destination. -/
theorem test_refuses_p0 : (Instr.vote ⟨0, 0, 1, 0⟩).wellFormed env0 = false := by decide

/-- A barrier that the launch does not use. -/
theorem test_refuses_barrier : cBara.i.wellFormed env0 = false := by decide

/-- A K-space access in a launch without a context. -/
theorem test_refuses_no_context : cKld.i.wellFormed env0 = false := by decide

/-- A ring that the launch does not describe. -/
theorem test_refuses_ring : cRingq.i.wellFormed env0 = false := by decide

/-- An X word with a guard. -/
theorem test_refuses_x_guard : (Instr.xtake ⟨1, 0, 0⟩).wellFormed env0 = false := by decide

/-- A control transfer before the end of its clause (02 R86, reason 0xC), and two dependent words of one group (0xA). -/
theorem test_refuses_in_a_group :
    groupFailure env0 [] [(0, false, .ok cBra.i)] = some (0, .enc 0xC) ∧
    groupFailure env0 [] [(0, false, .ok cIadd.i), (2, true, .ok (.iadd ⟨0, 4, 3, 3⟩))] = some (2, .enc 0xA) := by decide


/-! ## Witnesses: class V. Each shows a state and operands that meet the hypotheses of the statement it is named after. -/

theorem witness_IntegerArithmeticResult_sat : ∃ x r, integerForm cIadd.i = some r ∧ Executes cIadd.s x cIadd.i ∧
    (r.2.2 == .add && (srcOf cIadd.s x r.1 r.2.1).mod.testBit 0) = true := formedWith (by decide)

theorem witness_IntegerArithmeticResult_scalar : ∃ x r, integerForm cIaddS.i = some r ∧ Executes cIaddS.s x cIaddS.i ∧
    (srcOf cIaddS.s x r.1 r.2.1).sd = true := formedWith (by decide)

theorem witness_BitwiseAndShiftResult : ∃ x r, bitForm cAnd.i = some r ∧ Executes cAnd.s x cAnd.i := formed (by decide)

theorem witness_FloatArithmeticResult : (∃ x r, floatForm cFadd.i = some r ∧ Executes cFadd.s x cFadd.i) ∧
    (∃ x r, fsclForm cFscl.i = some r ∧ Executes cFscl.s x cFscl.i) ∧
    ∃ x r, halfForm cHadd.i = some r ∧ Executes cHadd.s x cHadd.i :=
  ⟨formed (by decide), formed (by decide), formed (by decide)⟩

theorem witness_LongOperationIssuesAndLands : (∃ x r, longForm cFrcp.i = some r ∧ Executes cFrcp.s x cFrcp.i) ∧
    ∃ g, (after cFrcp.i cFrcp.s).group? 0 0 = some g ∧
      g.pend.any (fun p => match g.pend? p.id with | some (.long _ ws _) => ws.length == 32 | _ => false) = true :=
  ⟨formed (by decide), found (by decide)⟩

theorem witness_MoveSelectAndAddressResult_moves : (∃ x r, movForm cMov.i = some r ∧ Executes cMov.s x cMov.i) ∧
    (∃ x, Executes cSel.s x cSel.i) ∧ (∃ x, Executes cMov.s x (.movi ⟨0, 3, 0, 0⟩ 7#32)) ∧
    ∃ x r, leaForm cLea.i = some r ∧ Executes cLea.s x cLea.i :=
  ⟨formed (by decide), runs_of (by decide), runs_of (by decide), formed (by decide)⟩

/-- The reads of a compare are not pending, and its executing lanes are within the width. -/
def compares (c : Code) : Bool := meets c.s c.i fun x =>
  (infoOf (checkEnv x.g x.l) c.i).reads.all (fun o => !x.g.pendingOpd o) && x.run.exec == 0xFFFFFFFF#64 && x.g.width == 32

theorem witness_MoveSelectAndAddressResult_compares : compares cIcmp = true ∧ compares cFcmp = true := by decide

theorem witness_MoveSelectAndAddressResult_predicates : (∃ x, Executes cPlop.s x cPlop.i) ∧
    ∃ x r, voteForm cVote.i = some r ∧ Executes cVote.s x cVote.i := ⟨runs_of (by decide), formed (by decide)⟩

theorem witness_ConversionResult : (∃ x, Executes cCvt.s x cCvt.i) ∧ ∃ x, Executes cCvtp.s x cCvtp.i :=
  ⟨runs_of (by decide), runs_of (by decide)⟩

theorem witness_LaneExchangeResult : (∃ x r, shuffleForm cShfl.i = some r ∧ Executes cShfl.s x cShfl.i) ∧
    (∃ x r, ballotForm cBallot.i = some r ∧ Executes cBallot.s x cBallot.i) ∧
    (∃ x r, reduxForm cRedux.i = some r ∧ Executes cRedux.s x cRedux.i) ∧
    (∃ x r, scanForm cScan.i = some r ∧ Executes cScan.s x cScan.i) ∧
    (∃ x r, bcastForm cBcast.i = some r ∧ Executes cBcast.s x cBcast.i) :=
  ⟨formed (by decide), formed (by decide), formed (by decide), formed (by decide), formed (by decide)⟩

theorem witness_LaneExchangeResult_vrand : ∃ x, Acts cVrand.s x cVrand.i ∧ (x.g.sregs.length == 64) = true :=
  acts_of (by decide)

theorem witness_BranchMovesLanes : (∃ x, Acts cBra.s x cBra.i ∧ true = true) ∧
    (∃ x r, jumpForm cBri.i = some r ∧ Executes cBri.s x cBri.i) ∧ ∃ x, Acts cCall.s x cCall.i ∧ true = true :=
  ⟨acts_of (p := fun _ => true) (by decide), formed (by decide), acts_of (p := fun _ => true) (by decide)⟩

/-- An earlier compare of the group is still to write P1. -/
def comparing (s : State) : State := inGroup (fun g => g.addPend 5 (.cmp
  { float := false, type := 2#5, cond := 0, pred := 1, scalar := true, lanes := 0xFFFFFFFF#64, a := .reg true 4, b := .vals []
    mode := 0#32, win := [] })) s

/-- The group is in predicted mode: a branch taken by its hint, whose guard is P1 of lane 0. -/
def predictedWith (f : Predicted → Predicted) (s : State) : State := inGroup (fun g =>
  { g with predicted := some (f { braPos := 4#32, hdrOff := 0#32, exec := 1#64, lane := 0, pred := 1, gn := false, hintTaken := true
                                  taken := 0#32, next := 8#32, clauses := 1, before := g.frame, items := [], matched := false
                                  heldTrap := none, heldAt := 0#32 }) }) s

/-- BRA .u .pt whose guard is pending; a group whose branch is to be resolved has no late fault. -/
theorem witness_BranchMovesLanes_predicted : (∃ x, Acts (comparing cBraHint.s) x cBraHint.i ∧ x.g.pendingOpd (.p 1) = true) ∧
    [comparing (predictedWith id cNop.s), predictedWith id cNop.s, predictedWith (fun p => { p with gn := true }) cNop.s].map (fun s =>
      (s.group? 0 0).map fun g => (g.late.isEmpty && g.handler.isNone, g.pendingOpd (.p 1), (g.pred 1).getLsbD 0)) =
      [some (true, true, false), some (true, false, false), some (true, false, false)] ∧
    (cNop.s.core 0).queueFull 8 = false ∧ 8 < (cNop.s.core 0).queues.length ∧ ((cNop.s.core 0).eng .copy).cmds = [] ∧
    ((inGroup (fun g => g.enter (Trap.plain .userTrap) 0x100#32 5) (predictedWith (fun p =>
      { p with gn := true, heldTrap := some (Trap.plain .queueFault) }) cNop.s)).group? 0 0).any (fun g => g.handler.isSome &&
        !(g.pred 1).getLsbD 0 && !g.pendingOpd (.p 1) && g.predicted.any fun p => p.items.isEmpty && p.heldTrap.isSome) = true :=
  ⟨acts_of (by decide), by decide, by decide, by decide, by decide, by decide⟩

/-- The withheld push goes out with the branch taken as hinted, and its held trap falls due; else both go, and lane 0 stands behind
the branch (09 R332). -/
theorem test_predicted_branch :
    (let s := resolveBranch (predictedWith (fun p =>
        { p with gn := true, items := [.push 8 7#64], heldTrap := some (Trap.plain .queueFault) }) cNop.s) 0 0
     (s.group? 0 0).any (fun g => g.predicted.isNone && g.due == some (Trap.plain .queueFault)) &&
       (nth [] (s.core 0).queues 8).map (fun n => n.value) == [7#64]) = true ∧
    (let s := resolveBranch (predictedWith (fun p =>
        { p with items := [.push 8 7#64], heldTrap := some (Trap.plain .queueFault) }) cNop.s) 0 0
     (s.group? 0 0).any (fun g => g.predicted.isNone && g.due.isNone && g.lpc.take 2 == [8#32, 0#32]) &&
       (nth [] (s.core 0).queues 8).isEmpty) = true := by decide

/-- A lane of the group is parked with a valid fault record. -/
def parked (s : State) : State := inGroup (fun g =>
  { g with
    lanes := setNth g.lanes 3 .parked
    lfr := setNth g.lfr 3 { addr := 0#64, pc := 4#32, detail := 0#16, valid := true, cause := 6#8 }
    faultLog := setNth g.faultLog 3 (some { cause := .addrAlign, site := { hdrOff := 0#32, hdr := 0#32, wordIx := 0, base := 0#32, ext := 0#32, chained := false }
                                            a := 0#64, b := 0#64, data := [], reached := 4#32 }) }) s

theorem witness_ConvergeYieldPriorityNop : nopForm cNop.i = true ∧ (∃ x, Executes cNop.s x cNop.i) ∧
    convForm cConv.i = true ∧ (∃ x, Executes cConv.s x cConv.i ∧ (convergeTrap x).isNone = true) ∧
    lyieldForm cLyield.i = true ∧ (∃ x, Executes cLyield.s x cLyield.i) ∧
    ∃ x r, prioForm cPrio.i = some r ∧ Executes cPrio.s x cPrio.i :=
  ⟨by decide, runs_of (by decide), by decide, executes (by decide), by decide, runs_of (by decide), formed (by decide)⟩

theorem witness_ConvergeAndExitTrapOnParkedLanes : convForm cConv.i = true ∧ exitForm cExit.i = true ∧
    (∃ x, Executes (parked cConv.s) x cConv.i ∧ (x.g.handler.isNone && (laneFaultTrap x.g).isSome) = true) ∧
    (∃ x, Acts (parked cExit.s) x cExit.i ∧ (x.g.handler.isNone && (laneFaultTrap x.g).isSome) = true) ∧
    ∃ x, Acts cExit.s x cExit.i ∧ (convergeTrap x).isNone = true :=
  ⟨by decide, by decide, executes (by decide), acts_of (by decide), acts_of (by decide)⟩

theorem witness_VectorResultReadsBack : ∃ x, issuer cIadd.s = some x ∧
    ((cIadd.s.core x.core).tileData.wf && (winTile x.g.winmap (vEntry x.g.wide 127)).isSome && wideType 3
      && (winTile x.g.winmap (vEntry x.g.wide (126 + 1))).isSome && x.g.width == 32 && decide (63 < x.g.sregs.length)) = true :=
  found (by decide)

theorem witness_ResultInstructionsFrame : resultForm cIadd.i = true ∧ (∃ t, exec cIadd.i cIadd.s = .next t) ∧
    ∃ x, Executes cIadd.s x cIadd.i ∧
      (cIadd.i.wellFormed (checkEnv x.g x.l) && (cIadd.s.core x.core).tileData.wf) = true :=
  ⟨by decide, answered_of (by decide), executes (by decide)⟩

theorem witness_PredicateInstructionsFrame : (∃ t, exec cPlop.i cPlop.s = .next t) ∧ (∃ x, Executes cPlop.s x cPlop.i) ∧
    (∃ t, exec cIcmp.i cIcmp.s = .next t) ∧ compares cIcmp = true :=
  ⟨answered_of (by decide), runs_of (by decide), answered_of (by decide), by decide⟩

theorem witness_NoActiveLaneChangesNothing : maskedForm cIaddP.i = true ∧
    ∃ x, Issues cIaddP.s x cIaddP.i ∧ (activeOf x cIaddP.i == 0#64) = true := ⟨by decide, issues (by decide)⟩

/-- The group's window names no tile; another slot owns its tile. -/
def unbound (s : State) : State := inGroup (fun g => { g with winmap := List.replicate 4 none }) s
def foreign (s : State) : State := inCore (fun c => c.setTile 0 { c.tile 0 with owner := 7 }) s

theorem witness_RegisterChecksTrapBeforeAnyWrite :
    (∃ x, Issues (unbound cIadd.s) x cIadd.i ∧ (activeOf x cIadd.i != 0#64 &&
      opdChecks ((unbound cIadd.s).core x.core) x.g x.slot (operandsOf x cIadd.i) == some .tileState) = true) ∧
    ∃ x, Issues (foreign cIadd.s) x cIadd.i ∧ (activeOf x cIadd.i != 0#64 &&
      opdChecks ((foreign cIadd.s).core x.core) x.g x.slot (operandsOf x cIadd.i) == some .tileOwner) = true :=
  ⟨issues (by decide), issues (by decide)⟩

/-! ## Witnesses: class M -/

/-- The launch has a region of each kind: device memory at 0, a page of demand memory at 64 KiB, host memory at 128 KiB, each of
64 KiB, and one that can only be read, at 192 KiB. Window 2 of device 3 is registered, behind link 0. -/
def regions (s : State) : State :=
  let r : Region := { vbase := 0, length := 65536, target := 0, kind := 0, rights := 7, pgsz := 1 }
  { inLaunch (fun l => { l with regions :=
      [r, { r with vbase := 65536, target := 0x200000, kind := 1 }, { r with vbase := 131072, kind := 2 },
       { r with vbase := 196608, rights := 1 }] }) s with
    registrations := [{ device := 3, window := 2, length := 65536, rights := 7, fallBack := false, down := false }]
    peers := [{ device := 3, window := 2, length := 65536, rights := 7, fallBack := false, data := [] }]
    routeMap := List.replicate 256 [0]
    links := List.replicate 18 { state := .up, lanes := 8, transient := 0#16, key := 0#64 } }

/-- The same, with S2 = n. -/
def based (n : Nat) (c : Code) : State := regions (inGroup (fun g => g.setS 2 (BitVec.ofNat 64 n)) c.t)

/-- Every lane of an access has a location in bounds and not in a demand region. -/
def located (s : State) (i : Instr) (f : AccForm) : Bool := meets s i fun x =>
  !x.g.ended && (accLanes s x f (activeOf x i)).all fun p => match p.2 with
    | .ok _ (.walk _ _ _) => false
    | .ok _ _ => true
    | _ => false

def locatedIn (s : State) (c : Code) : Bool := (accessForm c.i).any (located s c.i)

theorem witness_AccessBecomesPending :
    locatedIn cSld.t cSld = true ∧ locatedIn cSstS.t cSstS = true ∧ locatedIn cSatom.t cSatom = true ∧
    locatedIn cCld.t cCld = true ∧ locatedIn (based 65532 cGld) cGld = true ∧ locatedIn (based 131072 cHst) cHst = true ∧
    locatedIn (based 0x203 cPld) cPld = true := by decide

/-- What flushing L1 before a global atomic comes to: nothing is there, a dirty line goes home, its write-back is awaited. -/
def flushed (s : State) : Option (Option Bool) := (accessForm cGatom.i).bind fun f => (issuer s).map fun x =>
  (flushAtom s x.core x.l.asid 4 (numberParts f.sp f.kind 4 ((accLanes s x f (activeOf x cGatom.i)).map fun p => p.1))).map fun p => p.2

def l1With (dirty : BitVec 128) (wb : Nat) (s : State) : State := inCore (fun c =>
  { c with l1 := [{ asid := 1, va := 0, dpa := 0, valid := 1, dirty := dirty, wb := List.replicate wb 1#128, prio := 0, ro := 0, data := [] }], wbOut := wb }) s

theorem witness_AccessBecomesPending_atomic : locatedIn (based 0 cGatom) cGatom = true ∧
    flushed (based 0 cGatom) = some (some true) ∧ flushed (l1With 1 0 (based 0 cGatom)) = some (some false) ∧
    flushed (l1With 0 1 (based 0 cGatom)) = some none := by decide +kernel

/-- The ends of the allocation, for a load of 4 bytes: offsets 2, −4, 0, 8188 and 8192; and in space C of core 0, rank 0. -/
theorem witness_LaneLocations_scratchpad : ∃ x, issuer cSld.t = some x ∧
    (x.b.spadSize == 8192 && (targetBlock cSld.t x 0 0).any (fun p => p.1 == 0 && p.2.spadSize == 8192) &&
      (targetBlock cSld.t x 1 0).isNone && (targetBlock cSld.t x 0 1).isNone && ([Space.s, .c].all fun k =>
        formLane cSld.t x k .load 4 0#64 0 2 == .fault .addrAlign 0 2#64 &&
        formLane cSld.t x k .load 4 0#64 (-4) 0 == .fault .addrRegion 1 (BitVec.ofInt 64 (-4)) &&
        formLane cSld.t x k .load 4 0#64 0 0 == .ok 0#64 (.spad 0 x.b.spadBase) &&
        formLane cSld.t x k .load 4 0#64 8188 0 == .ok 8188#64 (.spad 0 (x.b.spadBase + 8188)) &&
        formLane cSld.t x k .load 4 0#64 8188 4 == .fault .addrRegion 1 8192#64) &&
      formLane cSld.t x .c .load 4 2048#64 0 0 == .fault .addrRegion 1 0#64 &&
      formLane cSld.t x .c .load 4 64#64 0 0 == .fault .addrRegion 2 0#64) = true := found (by decide)

/-- Both sides of every edge of the regions, and what each kind gives to G and H. -/
theorem witness_LaneLocations_regions : ∃ x, issuer (based 0 cGld) = some x ∧
    ([0, 65535].all (fun a => (regionOf x.l a).any fun p => p.1 == 0 && p.2.kind == 0) &&
      [65536, 131071].all (fun a => (regionOf x.l a).any fun p => p.1 == 1 && p.2.kind == 1) &&
      [131072, 196607].all (fun a => (regionOf x.l a).any fun p => p.1 == 2 && p.2.kind == 2) &&
      (regionOf x.l 196608).any (fun p => p.1 == 3 && p.2.rights == 1) && (regionOf x.l 262144).isNone &&
      formLane (based 0 cGld) x .g .load 4 0#64 2 0 == .fault .addrAlign 0 2#64 &&
      formLane (based 0 cGld) x .g .load 4 262144#64 0 0 == .fault .addrRegion 1 262144#64 &&
      formLane (based 0 cGld) x .g .store 4 65532#64 0 0 == .ok 65532#64 (.dram 65532) &&
      formLane (based 0 cGld) x .g .atom 4 65536#64 0 0 == .ok 65536#64 (.walk 1 0 false) &&
      formLane (based 0 cGld) x .g .load 4 131072#64 0 0 == .fault .accessRights 4 131072#64 &&
      formLane (based 0 cGld) x .g .store 4 196608#64 0 0 == .fault .accessRights 2 196608#64 &&
      formLane (based 0 cGld) x .h .load 4 131072#64 0 0 == .ok 131072#64 (.host 0) &&
      formLane (based 0 cGld) x .h .load 4 0#64 0 0 == .fault .addrRegion 1 0#64) = true := found (by decide)

/-- The ends of a window, a window that is not registered, and one whose device is out of reach. -/
theorem witness_LaneLocations_windows : ∃ x, issuer (based 0 cPld) = some x ∧
    ((registration? (based 0 cPld) 3 2).isSome && (registration? (based 0 cPld) 3 1).isNone &&
      formLane (based 0 cPld) x .p .load 4 0x203#64 0 2 == .fault .addrAlign 0 2#64 &&
      formLane (based 0 cPld) x .p .load 4 0x4203#64 0 0 == .fault .addrRegion 1 0#64 &&
      formLane (based 0 cPld) x .p .load 4 0x103#64 0 0 == .fault .addrRegion 3 0#64 &&
      formLane (based 0 cPld) x .p .store 4 0x203#64 (-4) 0 == .fault .addrRegion 1 (BitVec.ofInt 64 (-4)) &&
      formLane (based 0 cPld) x .p .store 4 0x203#64 0 65532 == .ok 65532#64 (.peer 3 2 65532 false) &&
      formLane (based 0 cPld) x .p .atom 4 0x203#64 0 65536 == .fault .addrRegion 1 65536#64) = true := found (by decide)

theorem witness_FaultingLanesPark : (accessForm cGld.i).any (fun f => meets (based 262144 cGld) cGld.i fun x =>
    !x.g.ended && x.g.handler.isNone && x.g.late.isEmpty && !x.g.logFull && x.run.marked == 0#64 &&
      decide (31 < x.g.lanes.length ∧ 31 < x.g.lfr.length ∧ 31 < x.g.faultLog.length ∧ 31 < x.g.lpc.length) &&
      (accLanes (based 262144 cGld) x f (activeOf x cGld.i)).all fun p => match p.2 with | .fault _ _ _ => true | _ => false)
      = true := by decide

/-- Lane 1 addresses n + b, where it faults, and the other lanes n. -/
def atEdge (n : Nat) (b : Byte) (c : Code) : State := let s := based n c
  inCore (fun k => { k with tileData := k.tileData.put (((s.group? 0 0).bind fun g => vAddr g.winmap g.wide 1 1).getD 0) [b] }) s

def inHandler (s : State) : State := inGroup (fun g => g.enter (Trap.plain .userTrap) 0x100#32 0) s

def faulty (p : LaneAcc × LaneForm) : Bool := match p.2 with | .fault _ _ _ => true | _ => false
def sound (p : LaneAcc × LaneForm) : Bool := match p.2 with | .ok _ (.walk _ _ _) => false | .ok _ _ => true | _ => false

/-- Some lane of the access fails and, with `all` clear, some other may be made. -/
def lanesFail (all : Bool) (s : State) (i : Instr) : Bool := (accessForm i).any fun f => meets s i fun x =>
  !x.g.ended && !x.g.logFull && x.g.late.isEmpty && x.run.marked == 0#64 && (accLanes s x f (activeOf x i)).any faulty &&
    if all then (accLanes s x f (activeOf x i)).all faulty else (accLanes s x f (activeOf x i)).any sound &&
      (accLanes s x f (activeOf x i)).all fun p => faulty p || sound p

theorem witness_FaultingLanesPark_mixed : 
    lanesFail false (atEdge 262140 4 cGldI) cGldI.i = true ∧ lanesFail false (inHandler (atEdge 262140 4 cGldI)) cGldI.i = true ∧
    lanesFail false (atEdge 65532 2 cGstI) cGstI.i = true := by
  decide

theorem witness_FaultingLanesPark_handler : lanesFail true (inHandler (based 65536 cHst)) cHst.i = true ∧
    lanesFail true (inHandler (based 262144 cGatom)) cGatom.i = true ∧ lanesFail true (based 262144 cGatom) cGatom.i = true := by decide

/-- A group outside a handler, and one whose handler began after the access. -/
theorem witness_FaultingLanesPark_late : [cNop.t, inGroup (fun g => g.enter (Trap.plain .userTrap) 0x100#32 5) cNop.t].all
    (fun s => (s.group? 0 0).any fun g => !(g.handler.any fun h => decide (h.mark ≤ 4))) = true := by decide

/-- A pending access of two lanes at the places given, and the event that names its part. -/
def site0 : Site := { hdrOff := 0#32, hdr := 0#32, wordIx := 0, base := 0#32, ext := 0#32, chained := false }

def accOf (k : AccKind) (sp : Space) (fresh : Bool) (p : LaneProgress) (ts : List Target) : Access :=
  { site := site0, kind := k, space := sp, size := 2, fresh := fresh, hint := 0#2, aop := 0#4, dReg := 3, scalar := false
    win := [some 0, some 1, none, none], logged := false, behind := []
    lanes := ts.mapIdx fun i t => { lane := i, loc := BitVec.ofNat 64 (4 * i), a := 0#64, b := 0#64, data := [7#32], target := t
                                    part := 0, progress := p } }

def doing (a : Access) : State := selecting (fun q => { q with id := 5 })
  (inGroup (fun g => g.addPend 5 (.access a)) (based 0 cNop))

/-- The part has lanes that wait, and nothing of the group holds it up. -/
def free_ (s : State) : Bool := (s.group? 0 0).any fun g => match g.pend? 5 with
  | some (.access a) =>
    let ls := a.lanes.filter fun l => l.part == 0 && l.progress == .waiting
    !ls.isEmpty && partFree s 0 0 5 g a ls && (s.launch? g.launch).isSome
  | _ => false

theorem witness_AccessPartPerforms : ([AccKind.load, .store, .atom].all fun k =>
      free_ (doing (accOf k .s false .waiting [.spad 0 0, .spad 0 8188])) && free_ (doing (accOf k .c false .waiting [.spad 1 0]))
        && free_ (doing (accOf k .p false .waiting [.peer 3 2 0 false, .peer 3 2 65532 false]))) = true ∧
    ([AccKind.load, .store].all fun k => free_ (doing (accOf k .h true .waiting [.host 0, .host 4])) &&
      [false, true].all fun f => free_ (doing (accOf k .g f .waiting [.dram 0, .dram 4]))) = true := by decide

/-- A line of the core's L1 holds bytes of the load's span dirty, or on their way home, or neither. -/
theorem witness_AccessPartPerforms_own : let a := accOf .load .g true .waiting [.dram 0, .dram 4]
    ([(1, 0), (0, 1), (0, 0)].all fun p => let s := l1With (BitVec.ofNat 128 p.1) p.2 (doing a)
      free_ s && (s.core 0).l1.all fun y => (y.dirty &&& ownSpan 1 4 a.lanes y != 0#128) == (p.1 == 1) &&
        (y.inFlight &&& ownSpan 1 4 a.lanes y != 0#128) == (p.2 == 1)) = true ∧
    (((doing a).launch? 1).any fun l => l.asid == 1) = true := by decide +kernel

/-- An atomic of each kind heads its service group; a window of a device that can be reached, and of one that cannot. -/
def atHome (k : AccKind) : State := let s := doing (accOf k .g true .queued [.dram 0])
  { s with die0 := { s.die0 with svc := [{ strip := 4, since := 0, ref := .part 0 0 5 0 }] } }

theorem witness_AccessPartPerforms_home : ([AccKind.atom, .red].all fun k => atFront (atHome k) 0 (.part 0 0 5 0) &&
      ((atHome k).group? 0 0).any fun g => match g.pend? 5 with
        | some (.access a) => a.lanes.all fun l => l.progress == .queued
        | _ => false) = true ∧
    (let s := doing (accOf .store .p false .waiting [.peer 3 2 0 false])
     unreachable s 3 = false ∧ lsendBefore (s.core 0) 0 5 3 2 = false ∧ streamMoves s 0 3 2 (streamLink s 0 3 2) = false ∧
       unreachable { s with fabricDown := true } 3 = true) := by decide

/-- A line in L1, with word 0 valid and byte 0 dirty or not; a line in the RDC. -/
theorem witness_FillsAndCopies : ((l1With 0 0 cNop.t).core 0).l1Find 1 0 ≠ none ∧
    (((l1With 0 0 cNop.t).core 0).l1Find 1 0).any (fun l => l.valid &&& 1#32 == 1#32 && l.data.wf) = true ∧
    (cNop.t.core 0).l1Find 1 0 = none ∧
    (cNop.t.core 0).l1Victim 1 (lineOf 0) (cNop.t.waysLeft 1 0 (l1Set (lineOf 0)) 8) = none ∧
    homeDie (lineOf 0) = dieOf 0 ∧ cNop.t.poisonedAt (lineOf 0) = false ∧ homeBusy cNop.t 0 1 (lineOf 0) = 0#32 ∧
    ([(0, 1#8), (127, 2#8)].map fun p : Nat × Byte => p.1).Nodup ∧ Die.reset.rdcFind (.line 0) = none ∧
    (({ Die.reset with rdc := [{ key := .line 0, valid := 1#32, data := [] }] } : Die).rdcFind (.line 0)).any
      (fun l => l.valid.getLsbD 0 && !l.valid.getLsbD 31 && l.data.wf) = true ∧
    ((l1With 1 0 cNop.t).core 0).l1.any (fun l => l.dirty != 0#128 && l.dpa % 128 == 0) = true ∧ cNop.t.dram.wf = true := by decide

/-- Two dirty lines of one die, side by side. -/
theorem witness_FillsAndCopies_lines : let s := inCore (fun c => { c with l1 := [0, 128].map fun n =>
      { asid := 1, va := n, dpa := n, valid := 1, dirty := 1, wb := [], prio := 0, ro := 0, data := [(0, 7#8)] } }) cNop.t
    (s.core 0).l1.Pairwise (fun y z => y.dpa + 128 ≤ z.dpa ∨ z.dpa + 128 ≤ y.dpa) ∧
    ((s.core 0).l1.all fun y => (List.range 128).all fun b => homeDie (y.dpa + b) == dieOf 0) = true ∧ s.dram.wf = true := by
  decide +kernel

theorem witness_DrainFrame : ∀ a ∈ [accOf .store .s false .waiting [.spad 0 0], accOf .store .c false .waiting [.spad 1 8188],
      accOf .store .h true .waiting [.host 0], accOf .store .g true .waiting [.dram 0],
      accOf .store .p false .waiting [.peer 3 2 0 false]],
    free_ (doing a) = true ∧ ∃ t, exec .storeDrain (doing a) = .next t := by
  intro a ha
  simp only [List.mem_cons, List.not_mem_nil, or_false] at ha
  rcases ha with rfl | rfl | rfl | rfl | rfl <;> exact ⟨by decide, answered_of (by decide)⟩

theorem witness_DrainFrame_memories : (cNop.t.core 0).spad.wf = true ∧ (cNop.t.core 1).spad.wf = true ∧ cNop.t.hostMem.wf = true ∧
    cNop.t.dram.wf = true ∧ homeDie 0 = dieOf 0 := by decide

theorem witness_FenceAcquireReleaseWait : (∃ x r, syncForm cFence.i = some r ∧ Executes cFence.t x cFence.i) ∧
    (∃ x r, syncForm cFenceW.i = some r ∧ Executes cFenceW.t x cFenceW.i) ∧
    ∃ x, Executes cAcqRemote.t x cAcqRemote.i ∧ (sameInstance 3 x.core (x.g.sreg 1).toNat) = true :=
  ⟨formed (by decide), formed (by decide), executes (by decide)⟩

/-- A group that waits for a synchronisation, of which these actions are left. -/
def syncing (rel acq walk : Bool) (scope : Nat) (victim : Option Nat) (s : State) : State := selecting id (inGroup (fun g =>
  { g with wait := .sync { rel := rel, acq := acq, scope := scope, walk := walk, victim := victim, mark := 9, sent := false } }) s)

/-- No earlier access is pending, the core's L1 is clean and written back, and no put is under way. -/
def quiet (s : State) : Bool := (s.group? 0 0).any fun g => g.accessesDone 9 && g.loadsDone 9 && !(s.core 0).l1Dirty &&
  (s.core 0).wbOut == 0 && putsDone s 0 0 9

theorem witness_FenceAcquireReleaseWait_park : ∃ x, Executes (inGroup (fun g => g.setS 1 64#64) cAcqRemote.t) x cAcqRemote.i ∧
    (!x.g.ended && x.g.handler.isNone && !sameInstance 3 x.core (x.g.sreg 1).toNat) = true := executes (by decide)

theorem witness_FenceAcquireReleaseWait_actions :
    ([syncing true true false 1 none cFence.t, syncing true false false 2 none cFence.t, syncing true false false 6 none cFence.t,
      syncing false true false 5 (some 1) cFence.t, syncing false true false 1 none cFence.t, syncing false true false 2 none cFence.t,
      syncing false true false 6 none cFence.t, syncing false false false 4 none cFence.t,
      syncing false false true 4 none cFence.t].all fun s => quiet s && !(s.core 1).l1Dirty && (s.core 1).wbOut == 0) = true ∧
    ([syncing true false false 2 none (l1With 1 0 cFence.t), syncing false true false 2 none (l1With 1 0 cFence.t)].all fun s =>
      (s.core 0).l1Dirty && (s.group? 0 0).any fun g => g.accessesDone 9) = true := by decide

/-- A store in flight holds a release up, and no acquire (05 Table 5.4). -/
theorem test_acquire_passes_a_store : ((doing (accOf .store .g true .sent [.dram 0])).group? 0 0).any
    (fun g => g.loadsDone 9 && !g.accessesDone 9) = true := by decide

/-- Core 0 with a line in L1 whose words m are valid, and the die of core 0 with an entry for the page at 64 KiB in its TLB. -/
def lineHeld (s : State) : State := (l1With 0 0 s).mapDie 0 fun d => d.tlbFill { asid := 1, region := 1, page := 0, dpa := 0x200000, ro := false }

def holds (m : BitVec 32) (s : State) : State := inCore (fun c => { c with l1 := c.l1.map fun y => { y with valid := m } }) (lineHeld s)

/-- What a prefetch of address 0 asks of a state, with L1 empty or holding the line, and where lines of each region are read. -/
theorem witness_PrefetchFillsLines : (∃ x r, prefForm cPref.i = some r ∧ Executes cPref.t x cPref.i) ∧
    (∃ x, issuer (lineHeld (based 0 cPref)) = some x ∧
      ((prefetchLine (lineHeld (based 0 cPref)) x 0).any (fun p => p.2 == 0) && (prefetchLine (lineHeld (based 0 cPref)) x 131072).isNone &&
        (prefetchLine (lineHeld (based 0 cPref)) x 262144).isNone && (prefetchLine (based 0 cPref) x 65536).isNone &&
        (prefetchLine (lineHeld (based 0 cPref)) x 65536).any fun p => p.2 == 0x200000) = true) ∧
    homeDie 0 = dieOf 0 ∧ homeDie 127 = dieOf 0 ∧ homeBusy (lineHeld (based 0 cPref)) 0 1 0 = 0#32 ∧
    ((holds 0xFFFFFFFF#32 (based 0 cPref)).core 0).l1Find 1 0 ≠ none ∧
    (((lineHeld (based 0 cPref)).core 0).l1Find 1 0).any (fun y => y.data.wf && y.valid != BitVec.allOnes 32) = true ∧
    ((based 0 cPref).core 0).l1Find 1 0 = none ∧ ((based 0 cPref).core 0).l1Victim 1 0 ((based 0 cPref).waysLeft 1 0 (l1Set 0) 8) = none ∧
    homeDie (2 ^ 46) ≠ dieOf 0 ∧ 2 ^ 46 % 128 = 0 ∧ ((based 0 cPref).die 0).rdcFind (.line (2 ^ 46)) = none ∧
    (based 0 cPref).poisonedAt 0 = false ∧ ({ based 0 cPref with poisoned := [0] } : State).poisonedAt 0 = true :=
  ⟨formed (by decide), found (by decide), by decide, by decide, by decide, by decide, by decide, by decide, by decide, by decide, by decide,
    by decide, by decide, by decide⟩

/-- Set 0 of L1 is full of dirty lines: one has to be freed. A prefetch that waits, with the set free again. -/
theorem witness_PrefetchFillsLines_waits :
    (let s := inCore (fun c => { c with l1 := (List.range 8).map fun n =>
        { asid := 1, va := 2 ^ 20 * (n + 1), dpa := 2 ^ 20 * (n + 1), valid := 1, dirty := 1, wb := [], prio := 0, ro := 0, data := [] } }) (based 0 cPref);
      (s.core 0).l1Find 1 0 == none && homeBusy s 0 1 0 == 0#32 && (s.group? 0 0).isSome &&
      (((s.core 0).l1Victim 1 0 (s.waysLeft 1 0 (l1Set 0) 8)).any fun y => y.dirty != 0#128)) = true ∧
    (let s := selecting (fun q => { q with id := 5 }) (inGroup (fun g => g.addPend 5 (.pref 0 0 0)) (based 0 cPref));
      (s.group? 0 0).any (fun g => g.pend? 5 == some (.pref 0 0 0) && (s.launch? g.launch).isSome) && (s.core 0).l1Find 1 0 == none &&
      (s.core 0).l1Victim 1 0 (s.waysLeft 1 0 (l1Set 0) 8) == none && homeBusy s 0 1 0 == 0#32) = true := by decide

/-- The group has an arrival at block barrier 1 that is not applied. -/
def arriving (s : State) : State := inCore (fun c => { c with nextId := 8 }) (inGroup (fun g => g.addPend 5 (.arrive .block 1 false)) s)

theorem witness_BarrierInstructions : (∃ x, Executes cBare.t x cBare.i ∧
      (!x.g.arrivesBefore .block 1 (cBare.t.core x.core).nextId && decide (pendingOf cBare.t x.core x.l x.b .block 1 + 3 ≤ 63)) = true) ∧
    (∃ x, Executes cBareMax.t x cBareMax.i ∧ (!x.g.arrivesBefore .block 1 (cBareMax.t.core x.core).nextId &&
      pendingOf cBareMax.t x.core x.l x.b .block 1 == 1) = true) ∧
    (∃ x, Executes (arriving cBare.t) x cBare.i ∧
      (x.g.arrivesBefore .block 1 ((arriving cBare.t).core x.core).nextId &&
        decide (pendingOf (arriving cBare.t) x.core x.l x.b .block 1 + 3 ≤ 63)) = true) ∧
    (∃ x, Executes (arriving cBareMax.t) x cBareMax.i ∧
      (x.g.arrivesBefore .block 1 ((arriving cBareMax.t).core x.core).nextId &&
        pendingOf (arriving cBareMax.t) x.core x.l x.b .block 1 == 1) = true) ∧
    (∃ x, Executes cBara.t x cBara.i) ∧ (∃ x, Executes cBarw.t x cBarw.i) ∧ ∃ x, Executes cBaraw.t x cBaraw.i :=
  ⟨executes (by decide), executes (by decide), executes (by decide), executes (by decide), runs_of (by decide), runs_of (by decide),
    runs_of (by decide)⟩

theorem witness_BarrierInstructions_apply : ∃ g, (after cBara.i cBara.t).group? 0 0 = some g ∧
    (g.pend? 0 == some (.arrive .block 1 false) && g.pend.all (fun p => p.id == 0) &&
      ((after cBara.i cBara.t).launch? g.launch).isSome &&
      (((after cBara.i cBara.t).core 0).block? g.launch g.block).any fun b =>
        decide (b.bar 1 < ((after cBara.i cBara.t).core 0).bars.length)) = true := found (by decide)

/-- Segments of cluster barrier 16 on cores 0 and 1: that of core 0 has n arrivals to come, that of core 1 has sent its own. -/
def segAt (pending : Nat) (sent : Bool) : Segment :=
  { launch := 1, instance_ := 0, kind := .cluster, id := 16
    bar := { Barrier.empty with pending := pending, members := 2, leaving := 1, sent := sent } }

def segmented (n : Nat) (s : State) : State := selecting (fun q => { q with id := 5 }) ((inCore (fun c => { c with segs := [segAt n false] })
  (inGroup (fun g => g.addPend 5 (.arrive .cluster 16 false)) s)).mapCore 1 fun c => { c with segs := [segAt 0 true] })

theorem witness_BarrierInstructions_segments : ([segmented 1 cBara.t, segmented 2 cBara.t, l1With 1 0 (segmented 2 cBara.t)].all fun s =>
      (s.group? 0 0).any fun g => g.pend? 5 == some (.arrive .cluster 16 false) && !g.arrivesBefore .cluster 16 5 && g.accessesDone 5 &&
        (s.launch? g.launch).isSome && ((s.core 0).block? g.launch g.block).isSome && (s.core 0).wbOut == 0) = true ∧
    (((segmented 2 cBara.t).core 0).segs.all fun y => isSeg 1 0 .cluster 16 y && !y.bar.sent && decide (2 ≤ y.bar.pending)) = true ∧
    (((segmented 1 cBara.t).core 0).segs.all fun y => isSeg 1 0 .cluster 16 y && !y.bar.sent && decide (y.bar.pending ≤ 1 ∧
      y.bar.leaving < y.bar.members)) = true ∧
    ((segmented 1 cBara.t).cores.all fun p => p.1 == 0 || p.2.segs.all fun y => y.bar.sent) = true ∧
    ((segmented 1 cBara.t).cores.map fun p => p.1).Pairwise (· < ·) := by decide

/-- An EXPECT that is pending, with no arrival before it. -/
theorem witness_BarrierInstructions_expect : let s := inGroup (fun g => g.addPend 5 (.expect site0 .block 1 3 [])) cBare.t
    (s.group? 0 0).any (fun g => g.pend.any (fun p => p.op == .expect site0 .block 1 3 [] && !g.arrivesBefore .block 1 p.id) &&
      (s.launch? g.launch).any fun l => ((s.core 0).block? g.launch g.block).any fun b =>
        decide (pendingOf s 0 l b .block 1 + 3 ≤ 63)) = true := by decide

/-- The same EXPECT, which overflows by now: of a group outside a handler, of one in a handler, and of one that has ended. -/
theorem witness_BarrierInstructions_overflow :
    [inGroup (fun g => g.addPend 5 (.expect site0 .block 1 63 [])) cBare.t,
      inGroup (fun g => (g.enter (Trap.plain .userTrap) 0x100#32 5).addPend 5 (.expect site0 .block 1 63 [])) cBare.t,
      inGroup (fun g => { g.addPend 5 (.expect site0 .block 1 63 []) with ended := true }) cBare.t].map (fun s => (s.group? 0 0).bind fun g =>
        (g.pend.find? fun p => p.op == .expect site0 .block 1 63 []).bind fun p => (s.launch? g.launch).bind fun l =>
          ((s.core 0).block? g.launch g.block).map fun b => (g.arrivesBefore .block 1 p.id || decide (pendingOf s 0 l b .block 1 + 63 ≤ 63),
            g.ended, g.handler.map fun h => decide (h.mark ≤ p.id))) =
      [some (false, false, none), some (false, false, some true), some (false, true, none)] := by decide

theorem witness_TileHandOff : (∃ x, Executes cGive.t x cGive.i ∧
      (match cGive.i with
        | .give w e => (tileSel x w e).any fun t => ((cGive.t.core x.core).tile t).owner == x.slot
        | _ => false) = true) ∧
    (∃ x, Executes cTake.t x cTake.i ∧
      (match cTake.i with | .take w e => (tileSel x w e).any fun t => x.b.tiles.contains t | _ => false) = true) ∧
    (∃ x, Executes cTakeAny.t x cTakeAny.i) ∧ ∃ x, Executes cOwnq.t x cOwnq.i :=
  ⟨executes (by decide), executes (by decide), runs_of (by decide), runs_of (by decide)⟩

/-- The TAKE is the group's first, of tile 0, which is its own with LAND clear. -/
theorem witness_TileHandOff_take : ∃ x, Executes cTake.t x cTake.i ∧ (!x.g.takePending &&
    decide (0 < (cTake.t.core x.core).tiles.length) && ((cTake.t.core x.core).tile 0).owner == x.slot &&
    !((cTake.t.core x.core).tile 0).land && decide (1 < x.g.winmap.length)) = true := executes (by decide)

/-- A pending TAKE of tile 0, or of any that is offered; the tile is another slot's, or this group's. -/
def taking (k : TakeSel) (owner : Nat) (s : State) : State :=
  selecting id (inCore (fun c => c.setTile 0 { c.tile 0 with owner := owner, offer := true })
    (inGroup (fun g => g.addPend 5 (.take k (some 1))) s))

theorem witness_TileHandOff_complete : ([3, 0].all fun n => [TakeSel.tile 0, .offered].all fun k =>
    ((taking k n cTake.t).group? 0 0).any fun g => g.firstTake == some (5, k, some 1) &&
      decide (0 < ((taking k n cTake.t).core 0).tiles.length ∧ 1 < g.winmap.length) &&
      ((taking k n cTake.t).core 0).tile 0 == { Tile.free with owner := n, offer := true }) = true ∧
    ((List.range 64).all fun t => !(((taking .offered 3 cTake.t).core 0).tile t).offer ||
      (((taking .offered 3 cTake.t).core 0).tile t).owner != 0) = true := by decide

/-- An addition that is pending, at a scope. -/
def adding (scope : Nat) (s : State) : State := selecting (fun q => { q with id := 5 }) (inGroup (fun g => g.addPend 5 (.ctradd 3 1#64 scope)) s)

theorem witness_CounterInstructions : (∃ x, Executes cCtradd.t x cCtradd.i) ∧ (∃ x, Executes cCtrwait.t x cCtrwait.i) ∧
    (∃ x, Executes cCtrrd.t x cCtrrd.i) ∧ 63 < Core.reset.counters.length ∧
    ([1, 2, 6].all fun n => quiet (adding n cNop.t) && ((adding n cNop.t).group? 0 0).any fun g =>
      g.pend? 5 == some (.ctradd 3 1#64 n) && g.pend.length == 1) = true ∧
    putsDone (adding 6 cNop.t) 0 0 5 = true ∧ ((l1With 1 0 (adding 2 cNop.t)).core 0).l1Dirty = true :=
  ⟨runs_of (by decide), runs_of (by decide), runs_of (by decide), by decide, by decide, by decide, by decide⟩

theorem witness_RingInstructions : (∃ x r, ringForm cRingw.i = some r ∧ Executes cRingw.t x cRingw.i) ∧
    (∃ x r, ringForm cRingwMax.i = some r ∧ Executes cRingwMax.t x cRingwMax.i) ∧
    (∃ x r, ringForm cRingl.i = some r ∧ Executes cRingl.t x cRingl.i) ∧ ∃ x, Executes cRingq.t x cRingq.i :=
  ⟨formed (by decide), formed (by decide), formed (by decide), runs_of (by decide)⟩

theorem witness_RingInstructions_apply : ∃ g, (after cRingl.i cRingl.t).group? 0 0 = some g ∧
    (g.pend? 0 == some (.ringl 0 true) && g.pend.length == 1 && ((after cRingl.i cRingl.t).launch? g.launch).isSome &&
      (((after cRingl.i cRingl.t).core 0).block? g.launch g.block).any fun b => decide (7 < b.rings.length)) = true :=
  found (by decide)

/-! ## Witnesses: class X -/

/-- A clause of one bundle of one word. -/
def clauseOf (c : Code) (w : SlotWord) : XClause :=
  { id := 0, launch := 1, block := 0, slot := 0, hdrOff := 0#32, hdr := soloHeader 1 .x, bundles := [[⟨0, c.b, w⟩]], pair := false, predicted := false }

/-- The sequencer of core 0 stands before the word of its clause. -/
def seqAt (c : Code) (w : SlotWord) : State :=
  inCore (fun k => { k with seqRun := some (SeqRun.fresh (clauseOf c w) .own) }) { c.t with focus := .seq 0 }

def inBundle (s : State) (i : Instr) (p : SeqRun → BundleWord → Bool) : Bool :=
  match seqFocus s with
  | none => false
  | some (core, run, l) =>
    match (issueCtx l run).ws.find? (fun v => v.base == nth 0#32 (encode i) 0), (s.core core).block? run.clause.launch run.clause.block with
    | some w, some _ => p run w
    | _, _ => false

theorem seqWord_of {s : State} {i : Instr} {p : SeqRun → BundleWord → Bool} (h : inBundle s i p = true) :
    ∃ core run l b w, SeqWord s core run l b i w ∧ p run w = true := by
  unfold inBundle at h
  split at h
  · cases h
  · rename_i core run l hf
    split at h
    · rename_i w b hw hb
      exact ⟨core, run, l, b, w, ⟨hf, hw, hb⟩, h⟩
    · cases h

/-- The word of the clause that stands in the bundle is w. -/
def stands (c : Code) (w : SlotWord) : Bool := inBundle (seqAt c w) c.i fun _ v => v.word == w

theorem witness_TilePassWords_passes : stands cMm (.mm ⟨0, false, 1, 1, 0, 0, 0, false, false⟩ false) = true ∧
    stands cMmz (.mm ⟨0, false, 1, 1, 0, 0, 0, false, false⟩ true) = true ∧
    stands cScl (.scl ⟨0, 0, 1, false, 1, false, 0⟩) = true := by decide

theorem witness_TilePassWords : stands cIter (.iter 0 4 4#32) = true ∧ stands cIterReg (.iter 0 4 0#32) = true ∧
    stands cLoop (.loop ⟨0, 0, 0, 0, 64⟩) = true ∧ stands cStrm (.strm ⟨0, 0, 4, 0⟩) = true ∧
    stands cPanel (.panel ⟨0, 0, 0, 0⟩) = true ∧ stands cXtake (.xtake 1) = true ∧ stands cXwait (.xwait 1 1#64) = true ∧
    stands cXsig (.xsig 3 1) = true ∧ stands cXsigBar (.xbar 1) = true ∧ stands cXend (.xend 9) = true := by decide

/-- A follower's run stands before XSIG and XEND. -/
theorem witness_TilePassWords_follower : ([(cXsig, SlotWord.xsig 3 1), (cXsigBar, .xbar 1), (cXend, .xend 9)].all fun p =>
    inBundle (inCore (fun k => { k with seqRun := some (SeqRun.fresh (clauseOf p.1 p.2) .follower) }) (seqAt p.1 p.2)) p.1.i fun r v =>
      v.word == p.2 && r.role == .follower) = true := by decide

/-- A predicted clause stands before an XSIG. -/
theorem witness_BranchMovesLanes_withheld : let s := inCore (fun k =>
      { k with seqRun := some (SeqRun.fresh { clauseOf cXsig (.xsig 3 1) with predicted := true } .own) }) (selecting id (seqAt cXsig (.xsig 3 1)))
    (s.core 0).seqRun.any (fun r => r.clause.predicted && (s.launch? r.clause.launch).any fun l =>
      (check1 (issueCtx l r) (sidesOf s 0 r)).isNone && (issueCtx l r).ws.any fun w => w.word == .xsig 3 1) = true := by decide

theorem witness_TilePassWords_xgive : ∃ core run l b w,
    SeqWord (seqAt cXgive (.xgive 2 0)) core run l b cXgive.i w ∧
      (w.word == .xgive 2 0 && decide (2 < Core.reset.tiles.length) && run.giveLand.all fun p => p.1 != 2) = true :=
  seqWord_of (by decide)

theorem nth_map_range {α : Type} (d : α) (f : Nat → α) : ∀ (k m n : Nat), n < k →
    nth d ((List.range' m k).map f) n = f (m + n)
  | k + 1, m, 0, _ => by simp [List.range'_succ, nth]
  | k + 1, m, n + 1, h => by
    rw [List.range'_succ, List.map_cons, nth, nth_map_range d f k (m + 1) n (by omega)]
    congr 1
    omega

/-- The pass that the steps of a history have led to. -/
def passOf (p : Pass) (step : Nat) (seed : Nat → Machine.Num) (hist : Nat → List (CellOp × Machine.Num × Machine.Num)) : Pass :=
  { p with
    step := step
    even := (List.range' 0 4096).map fun n => (cellChains (seed n) none 0 (hist n)).1
    odd := (List.range' 0 4096).map fun n => (cellChains (seed n) none 0 (hist n)).2 }

theorem passOf_holds (p : Pass) (step : Nat) (seed : Nat → Machine.Num) (hist : Nat → List (CellOp × Machine.Num × Machine.Num)) :
    PassHolds (passOf p step seed hist) seed hist := by
  refine ⟨by simp [passOf], by simp [passOf], fun n hn => ?_⟩
  simp only [passOf]
  rw [nth_map_range _ _ _ _ _ hn, nth_map_range _ _ _ _ _ hn, Nat.zero_add]

/-- An issue with a panel word, in a launch whose slots hold 8-bit formats; a pass at its last cycle, after 126 products. -/
def panelCtx : IssueCtx :=
  { l := { soloLaunch with rec_ := { soloLaunch.rec_ with formats := List.replicate 8 0x013#32 } }
    ws := [⟨0, 0#32, .panel ⟨0, 0, 0, 0⟩⟩], loop := none, pos := 0, ix := [] }

def lastPass : Pass := passOf (openPass Core.reset ⟨0, false, 1, 1, 0, 0, 0, false, false⟩ true 0) 63 (fun _ => .zero false)
  fun _ => List.replicate 126 (.madd, .zero false, .zero false)

theorem witness_TilePassWords_cells : panelCtx.panel = some ⟨0, 0, 0, 0⟩ ∧ 0 < ppcOf (slotFormat panelCtx.l 0) ∧
    PassHolds lastPass (fun _ => .zero false) (fun _ => List.replicate 126 (.madd, .zero false, .zero false)) ∧
    lastPass.step = 63 ∧ 126 = 63 * ppcOf (slotFormat panelCtx.l 0) ∧
    ({ SeqRun.fresh (clauseOf cMm (.mm ⟨0, false, 1, 1, 0, 0, 0, false, false⟩ false)) .own with pass := some lastPass } : SeqRun).pass.getD
      (openPass Core.reset ⟨0, false, 1, 1, 0, 0, 0, false, false⟩ false 0) = lastPass :=
  ⟨rfl, by decide, passOf_holds _ _ _ _, rfl, by decide, rfl⟩

/-- An X clause stands before its hand-off, with n clauses in the queue. -/
def handing (n : Nat) : State :=
  selecting id (inCore (fun k => { k with seqQueue := List.replicate n (clauseOf cXtake (.xtake 1)) }) cXtake.t)

def handable (s : State) : Bool := (issuer { s with focus := .group s.sel.core s.sel.sched }).any fun x =>
  let ws := rawWords x.run .x (hdrCount x.run.hdr) 16 x.run.wordIx
  let r := takeBundles (checkEnv x.g x.l) x.g (splitGroups x.run.hdr ws)
  hdrClass x.run.hdr == .x && x.g.wait == .none && !hdrHold x.run.hdr && !r.1.isEmpty && r.2.isNone &&
    !(ws.flatMap fun w => match w.dec with | .ok i => xReads i | _ => []).any x.g.pendingOpd

theorem witness_SequencerClauseCourse_handoff : handable (handing 7) = true ∧ handable (handing 8) = true := by decide

/-- The oldest clause of core 0, alone or a pair's, and a sequencer that has finished one. -/
def queued (pair : Bool) : State :=
  selecting id (inCore (fun k => { k with seqQueue := [{ clauseOf cXtake (.xtake 1) with pair := pair }] }) cXtake.t)

def finished : State := inCore (fun k =>
  { k with seqRun := some { SeqRun.fresh (clauseOf cXtake (.xtake 1)) .own with bundle := 1 } }) (selecting id cXtake.t)

/-- A leader that has finished, and its follower after n of its one bundle. -/
def paired (n : Nat) : State := (inCore (fun k =>
  { k with seqRun := some { SeqRun.fresh (clauseOf cXtake (.xtake 1)) .leader with bundle := 1 } }) (selecting id cXtake.t)).mapCore 1 fun k =>
    { k with seqRun := some { SeqRun.fresh (clauseOf cXtake (.xtake 1)) .follower with bundle := n } }

/-- A group waits with its clause before a queue that has room. -/
theorem witness_SequencerClauseCourse_enters : let s := inGroup (fun g => { g with wait := .handoff (clauseOf cXtake (.xtake 1)) }) (handing 7)
    ((s.group? 0 0).any fun g => g.wait == .handoff (clauseOf cXtake (.xtake 1)) && !g.stopped) = true ∧
    (s.core 0).seqQueue.length < 8 := by decide

theorem witness_SequencerClauseCourse : (((queued false).core 0).seqRun.isNone && !pairAhead (queued false) 0 &&
      ((queued false).core 0).seqQueue.any (fun c => !c.pair && mayBegin (queued false) c)) = true ∧
    (((queued true).core 0).seqRun.isNone && ((queued true).core 1).seqRun.isNone &&
      ((queued true).core 0).seqQueue.any (fun c => c.pair && mayBegin (queued true) c)) = true ∧
    (finished.core 0).seqRun.any (fun r => r.role == .own && r.drained) = true ∧
    ([1, 0].all fun n => (paired n).core 0 |>.seqRun.any fun r => r.role == .leader && r.drained && ((paired n).core 1).seqRun.any fun f =>
      f.role == .follower && f.drained == (n == 1)) = true := by decide

/-- What SEQ_ISSUE asks of the clause of core 0, and what its checks and conditions say. -/
def issueOf (s : State) : Option (Bool × Bool × Bool) := (s.core 0).seqRun.bind fun run =>
  (s.launch? run.clause.launch).bind fun l => ((s.core 0).block? run.clause.launch run.clause.block).bind fun b =>
    if run.role == .own && run.stopped.isNone && decide (run.bundle < run.clause.bundles.length) && !run.clause.predicted && l.phase == .admitted then
      some ((check1 (issueCtx l run) [⟨0, b, run⟩]).isSome, conditions s (issueCtx l run) ⟨0, b, run⟩,
        (check2 s (issueCtx l run) [⟨0, b, run⟩]).isNone)
    else none

/-- STRM at an iterator of 0 with an even pitch fails; an XSIG passes. -/
theorem witness_SequencerIssueAndResults : (issueOf (seqAt cStrm (.strm ⟨0, 0, 4, 0⟩))).any (fun p => p.1) = true ∧
    issueOf (seqAt cXsig (.xsig 3 1)) = some (false, true, true) := by decide

/-- A run that has a pass to write back, or a signal to apply. -/
def resultsOf (bs : List Writeback) (gs : List (Nat × SeqSignal)) : State := inCore (fun k =>
  { k with seqRun := some { SeqRun.fresh (clauseOf cXtake (.xtake 1)) .own with writebacks := bs, signals := gs } }) (selecting id cXtake.t)

theorem witness_SequencerIssueAndResults_results :
    ((resultsOf [{ issue := 4, pair := 1, acl := false, data := [] }] [(4, .add 3 1)]).core 0).seqRun.any (fun r =>
      r.signals.head?.any fun p => r.writebacks.all fun b => decide (p.1 ≤ b.issue)) = true ∧
    ((resultsOf [] [(4, .bar 1)]).core 0).seqRun.any (fun r => r.signals.head? == some (4, .bar 1)) = true ∧
    ((resultsOf [] [(4, .done 9)]).core 0).seqRun.any (fun r => r.signals.head? == some (4, .done 9)) = true ∧
    (nth [] ((resultsOf [] [(4, .done 9)]).core 0).queues 7).length < 16 := by decide

/-- The other side of a PAIR clause has nothing earlier to do. -/
theorem witness_SequencerIssueAndResults_pair :
    let s := (inCore (fun k => { k with seqRun := k.seqRun.map fun r => { r with role := .leader } }) (resultsOf [] [(4, .add 3 1)])).mapCore 1
      fun k => { k with seqRun := some { SeqRun.fresh (clauseOf cXtake (.xtake 1)) .follower with signals := [(4, .add 3 1)] } }
    (otherSide s 0).any (fun f => f.writebacks.isEmpty && f.signals.all fun q => decide (4 ≤ q.1)) = true := by decide

def landing : State := resultsOf [{ issue := 4, pair := 1, acl := false, data := List.replicate 4096 0#32 }] []

theorem witness_PassWritebackFrame : (∃ r b, (landing.core 0).seqRun = some r ∧ r.writebacks = [b] ∧ b.data.length = 4096) ∧
    (landing.core 0).tileData.wf = true ∧ ∃ t, exec .passWritebackLand landing = .next t :=
  ⟨⟨_, _, rfl, rfl, List.length_replicate⟩, by decide, answered_of (by decide)⟩

/-! ## Witnesses: class E -/

/-- A command of core 0's block, its words those of c. -/
def cmdOf (op : EngOp) (c : Code) : EngCmd :=
  { freshCmd op 1 0 0 0 c.b c.x 0#64 256#64 128#64 0#64 0#64 with started := true }

def inEngine (e : Engine) (ks : List EngCmd) (s : State) : State := inCore (fun c => c.setEng e { c.eng e with cmds := ks }) s

theorem witness_EngineInstructionsPushACommand :
    (∃ x r, engineForm cCpy.i = some r ∧ Executes cCpy.t x cCpy.i ∧
      (x.g.predicted.isNone && !(cCpy.t.core x.core).cmdFull (cmdOf .cpy cCpy)) = true) ∧
    (∃ x r, engineForm cQtz.i = some r ∧ Executes cQtz.t x cQtz.i) ∧
    (∃ x r, engineForm cLwin.i = some r ∧ Executes cLwin.t x cLwin.i) ∧
    ∃ x r, engineForm cCpy.i = some r ∧ Executes (inEngine .copy (List.replicate 16 (cmdOf .cpy cCpy)) cCpy.t) x cCpy.i ∧
      (x.g.predicted.isNone &&
        ((inEngine .copy (List.replicate 16 (cmdOf .cpy cCpy)) cCpy.t).core x.core).cmdFull (cmdOf .cpy cCpy)) = true :=
  ⟨formedWith (by decide), formed (by decide), formed (by decide), formedWith (by decide)⟩

theorem witness_EngineInstructionsPushACommand_predicted :
    ∃ x r, engineForm cCpy.i = some r ∧ Executes (predictedWith id cCpy.t) x cCpy.i ∧ x.g.predicted.isSome = true :=
  formedWith (by decide)

/-- A command that is ready to work, to publish or to swap, and one that may retire. -/
def cmdAt (op : EngOp) (c : Code) (f : EngCmd → EngCmd) : State :=
  selecting (fun q => { q with engine := engineOf op, count := 1 }) (inEngine (engineOf op) [f (cmdOf op c)] (regions c.t))

theorem witness_EngineCommandCourse :
    (∃ x, cmdCtx (cmdAt .cpy cCpy id) 0 .copy 0 = some x ∧
      (x.k.started && cmdReady (cmdAt .cpy cCpy id) 0 x.k && hasTurn x) = true) ∧
    (∃ x, cmdCtx (cmdAt .lradd cLradd id) 0 .link 0 = some x ∧
      (x.k.op == .lradd && x.k.started && cmdReady (cmdAt .lradd cLradd id) 0 x.k) = true) ∧
    (∃ x, cmdCtx (cmdAt .rqzKv cRqz fun k => { k with progress := 1 }) 0 .quant 0 = some x ∧
      ((kvOf (cmdAt .rqzKv cRqz id) x.k.launch).isSome && x.k.op == .rqzKv && x.k.progress == 1 && x.k.fault.isNone
        && !x.k.finished) = true) ∧
    ∃ k, ((cmdAt .cpy cCpy fun k => { k with finished := true }).core 0).cmd? .copy 0 = some k ∧
      (canRetire ((cmdAt .cpy cCpy fun k => { k with finished := true }).core 0) k && engineOf k.op == .copy) = true :=
  ⟨found (by decide), found (by decide), found (by decide), found (by decide)⟩

/-- A command that has not started, at scope core and at scope cluster; the accesses before it complete or not. -/
def unstarted (c : Code) : State := cmdAt .cpy c fun k => { k with started := false, mark := 9 }

theorem witness_EngineCommandCourse_start : ([(unstarted cCpy, 1), (unstarted cCpy3, 3), (unstarted cCpy6, 6)].all fun p =>
      (cmdCtx p.1 0 .copy 0).any fun x => !x.k.started && cmdReady p.1 0 x.k && x.k.scope == p.2 && (p.1.group? 0 x.k.slot).any fun g =>
        g.accessesDone x.k.mark && !(p.1.core 0).l1Dirty && (p.1.core 0).wbOut == 0 && putsDone p.1 0 x.k.slot x.k.mark) = true ∧
    (let s := l1With 1 0 (unstarted cCpy3); (s.core 0).l1Dirty && (cmdCtx s 0 .copy 0).any fun x => cmdReady s 0 x.k) = true ∧
    (let s := l1With 0 1 (unstarted cCpy3); !(s.core 0).l1Dirty && (s.core 0).wbOut != 0 &&
      (cmdCtx s 0 .copy 0).any fun x => cmdReady s 0 x.k) = true ∧
    (let s := inGroup (fun g => g.addPend 5 (.access (accOf .store .g true .sent [.dram 0]))) (unstarted cCpy)
     (cmdCtx s 0 .copy 0).any fun x => cmdReady s 0 x.k && (s.group? 0 x.k.slot).any fun g => !g.accessesDone x.k.mark) = true := by
  decide

/-- A CGO that has copied one ring-level iteration of its nest. -/
def nested : State := inCore (fun c => { c with copy := { c.copy with
    nests := [{ launch := 1, block := 0, ctx := 0, set := 0
                nest := { nl := 1, elem := 128, counts := [2, 1, 1, 1, 1, 1], sstride := [], dstride := [] } }] } })
  (cmdAt .cgo cCgoR fun k => { k with progress := 256 })

theorem witness_EngineCommandCourse_publish : ∃ x, cmdCtx nested 0 .copy 0 = some x ∧
    (x.k.op == .cgo && x.k.rng && x.k.fault.isNone && !x.k.finished && x.k.acks == 0 &&
      (x.k.nest? (nested.core 0)).any fun d => decide ((x.k.published + 1) * d.span x.k.lvl * d.elem ≤ x.k.progress)) = true :=
  found (by decide)

/-- A whole line, from offset 256 to offset 0, 128 bytes. -/
theorem witness_EngineResults_cpy : ∃ x, cmdCtx (cmdAt .cpy cCpy id) 0 .copy 0 = some x ∧
    (x.k.op == .cpy && x.k.ssp == 0 && x.k.dsp == 0 && x.k.va.toNat == 256 && x.k.vd.toNat == 0 && x.k.count == 128 &&
      x.k.progress == 0 && decide (256 + 128 ≤ x.b.spadSize) && decide (x.b.spadSize ≤ 2 ^ 32) && (x.s.core x.core).spad.wf) = true :=
  found (by decide)

/-- The last element of 128, from offset 256 + 508 to offset 508, or to 127 × 16 for a WS96 sum. -/
theorem witness_EngineResults_cred : ([cCred, cCredWs].all fun c => (cmdCtx (cmdAt .cred c fun k => { k with progress := 127 }) 0 .copy 0).any
    fun x =>
      let f := credForms (x.k.imm.extractLsb' 7 3).toNat
      x.k.op == .cred && x.k.ssp == 0 && x.k.dsp == 0 && x.k.acks == 0 && x.k.progress == 127 && x.k.count == 128 &&
        x.k.vb.extractLsb' 40 24 == 0 && x.k.va.toNat % 4 == 0 && x.k.vd.toNat % max 4 f.2.2.2 == 0 &&
        decide (x.k.va.toNat + 127 * f.2.1 + f.2.1 ≤ x.b.spadSize ∧ x.k.vd.toNat + 127 * f.2.2.2 + f.2.2.2 ≤ x.b.spadSize)) = true := by
  decide

/-- An element of a CRED in space G heads the queue of its service group. -/
def credAt : State := let s := cmdAt .cred cCredG fun k => { k with progress := 1, acks := 1 }
  { s with die0 := { s.die0 with svc := [{ strip := 4, since := 0, ref := .cred { core := 0, id := 0, dpa := 0, conv := 0, anchor := 0, src := 0 } }] } }

theorem witness_EngineResults_credAtHome : ∃ x, cmdCtx credAt 0 .copy 0 = some x ∧
    (x.k.op == .cred && x.k.acks != 0 && decide (1 ≤ x.k.count) && x.k.vb.extractLsb' 40 24 == 0 && x.k.va.toNat % 4 == 0 &&
      x.k.vd.toNat % 4 == 0 && (credFront x.s x.core x.k.id).any (fun e => !x.s.poisonedAt e.dpa) && x.s.dram.wf) = true :=
  found (by decide)

/-- One group of 32 elements of a slot with a scale, in the scratchpad: QTZ and DQZ. -/
theorem witness_EngineResults_quantise : ([(EngOp.qtz, cQtz), (.dqz, cDqz)].all fun p =>
    (cmdCtx (cmdAt p.1 p.2 fun k => { k with vb := 32#64, vc := 512#64 }) 0 .quant 0).any fun x =>
      x.k.op == p.1 && x.k.ssp == 0 && x.k.dsp == 0 && !x.k.badControl && x.k.count == 32 && x.k.progress == 0 &&
        slotScale (x.k.slotOf x.l) != 0 && slotGroup (x.k.slotOf x.l) == 32 && unitOf (x.k.slotOf x.l) 32 == 32 &&
        decide (256 + 128 ≤ x.b.spadSize ∧ 512 + 4 ≤ x.b.spadSize)) = true := by decide

/-- A group of 32 elements in region 0: planes at 0 and 4 KiB become planes at 8 and 12 KiB. -/
def rqzAt : State := cmdAt .rqz cRqzG fun k => { k with va := 0#64, vc := 4096#64, vd := 8192#64, vd1 := 12288#64, vb := 32#64 }

theorem witness_EngineResults_rqz : ∃ x, cmdCtx rqzAt 0 .quant 0 = some x ∧
    (x.k.op == .rqz && !x.k.badControl && x.k.progress == 0 && x.k.count == 32 &&
      slotScale (x.k.slotOf x.l) != 0 && slotScale (slotFormat x.l (x.k.x.mod.extractLsb' 0 3).toNat) != 0 &&
      ([(0, 64), (4096, 2)].all fun p => [(8192, 64), (12288, 2)].all fun q => !rangesMeet 1 p.1 p.2 1 q.1 q.2) &&
      (match x.find 1 true false 0 64 with
       | .error _ => false
       | .ok src =>
         let x1 := x.used 1 true 0 64 src
         (match x1.find 1 true false 4096 2 with
          | .error _ => false
          | .ok md =>
            let y := x1.used 1 true 4096 2 md
            (match y.find 1 false true 8192 64, y.find 1 false true 12288 2 with | .ok _, .ok _ => true | _, _ => false)))) = true :=
  found (by decide)

/-- The last 128 of 256 bytes, to window 2 of device 3. -/
theorem witness_EngineResults_lsend : ∃ x,
    cmdCtx (cmdAt .lsend cLsend fun k => { k with vd := 0x203#64, vc := 0#64, vb := 256#64, progress := 128 }) 0 .link 0 = some x ∧
    (x.k.op == .lsend && !x.k.badControl && x.k.count == 256 && x.k.progress == 128 && (putCheck x.s 0x203 0 256).isNone &&
      decide (256 + 256 ≤ x.b.spadSize) && !streamMoves x.s x.core 3 2 (streamLink x.s x.core 3 2)) = true := found (by decide)

/-- The bytes of the last element have come from core 0 of device 1, on port 0, alone or with more behind them. -/
def received (n : Nat) : State := { cmdAt .lradd cLradd fun k => { k with vd := 1#64, vb := 2#64, progress := 1 } with
  channels := [{ srcDevice := 1, srcCore := 0, core := 0, port := 0, bytes := List.replicate n 1#8 }] }

theorem witness_EngineResults_lradd : ([4, 5].all fun n => (cmdCtx (received n) 0 .link 0).any fun x =>
      x.k.op == .lradd && !x.k.badControl && laddSize x.k == 4 && x.k.progress == 1 && x.k.count == 2 && x.k.buffer.isEmpty &&
        portOf x.k.vd == (1, 0, 0) && x.s.device.toNat != 1 && !unreachable x.s 1 &&
        !((x.s.core x.core).link.cmds.any fun j => j.op == .lradd && decide (j.id < x.k.id) && !j.finished &&
          portOf j.vd == portOf x.k.vd) &&
        decide (x.k.va.toNat + 8 ≤ x.b.spadSize) && x.s.channels.any fun y => y.srcDevice == 1 && y.srcCore == 0 && y.core == x.core &&
          y.port == 0 && decide (4 ≤ y.bytes.length)) = true := by decide

/-- Queue q holds n entries. -/
def filled (q n : Nat) (s : State) : State := inCore (fun c =>
  { c with queues := setNth c.queues q (List.replicate n { launch := 1, block := 0, slot := 0, id := 0, value := 0#64 }) }) s

theorem witness_QueueInstructions :
    (∃ x r, queueForm cQpush.i = some r ∧ Executes (filled 8 15 cQpush.t) x cQpush.i ∧
      (r.1 && r.2.1.b == 8 && x.g.predicted.isNone && !((filled 8 15 cQpush.t).core x.core).queueFull 8) = true) ∧
    (∃ x r, queueForm cQpush.i = some r ∧ Executes (filled 8 16 cQpush.t) x cQpush.i ∧
      (r.1 && x.g.predicted.isNone && ((filled 8 16 cQpush.t).core x.core).queueFull 8) = true) ∧
    (∃ x r, queueForm cQpush0.i = some r ∧ Executes (filled 0 16 cQpush0.t) x cQpush0.i ∧
      (r.1 && x.g.predicted.isNone && ((filled 0 16 cQpush0.t).core x.core).queueFull 0) = true) ∧
    (∃ x r, queueForm cQpush1.i = some r ∧ Executes cQpush1.t x cQpush1.i ∧ (r.1 && r.2.1.b == 1) = true) ∧
    (∃ x r, queueForm cQpop.i = some r ∧ Executes cQpop.t x cQpop.i ∧ (!r.1 && r.2.1.b == 8) = true) ∧
    ∃ x r, queueForm cQpop0.i = some r ∧ Executes cQpop0.t x cQpop0.i ∧ (!r.1 && r.2.1.b == 0) = true :=
  ⟨formedWith (by decide), formedWith (by decide), formedWith (by decide), formedWith (by decide), formedWith (by decide),
    formedWith (by decide)⟩

/-- Every lane of a K-space access passes the checks. -/
theorem witness_KvInstructionsBecomePending_access : ∃ x r, kvForm cKld.i = some r ∧ Executes cKld.t x cKld.i ∧
    ((kvOf cKld.t x.g.launch).any fun k => !(lanesOf (activeOf x cKld.i)).isEmpty &&
      (lanesOf (activeOf x cKld.i)).all fun l =>
        let sel := val32 cKld.t x false 1 l
        let pos := vget cKld.t x 2 l
        (kvCheckCoord k r.1 (slotBits (nth 0#32 x.l.rec_.formats 0)) false sel pos).isNone &&
          (kvCheckState k r.1 none sel pos).isNone) = true := formedWith (by decide)

/-- An open window. -/
def opened (s : State) : State :=
  { s with kvs := [{ ctx0 with windows := setNth ctx0.windows 3 { open_ := true, first := 0, count := 1, depth := [], records := [] } }] }

theorem witness_KvInstructionsBecomePending_control :
    (∃ x r, kvCtlForm cKopen.i = some r ∧ Executes cKopen.t x cKopen.i ∧
      ((kvOf cKopen.t x.g.launch).isSome && !x.g.kvCtlPending) = true) ∧
    ((after cKopen.i cKopen.t).group? 0 0).any (fun g => g.pend.any fun p => match p.op with | .kvCtl _ => true | _ => false) = true ∧
    ((after cKmap.i cKmap.t).group? 0 0).any (fun g => g.pend.any fun p => match p.op with | .kvCtl _ => true | _ => false) = true ∧
    (∃ x r, kvForm cKld.i = some r ∧ Executes cKld.s x cKld.i ∧ (kvOf cKld.s x.g.launch).isNone = true) ∧
    ∃ x r, kvCtlForm cKmap.i = some r ∧ Executes cKmap.s x cKmap.i ∧ (kvOf cKmap.s x.g.launch).isNone = true :=
  ⟨formedWith (by decide), by decide, by decide, formedWith (by decide), formedWith (by decide)⟩

/-- A page of sequence 0, head 0 in a state; a context of which it is the only page, of two that the pool allows, with L(0) = 60
and window 3 open on sequence 0 at depth 2. -/
def pageIn (st : KvState) : KvEntry :=
  { seq := 0, head := 0, page := 0, state := st, wh := false, win := 0, busy := false, fetch := 0, frame := 0, enc := 1#11, elems := [], metas := [] }

def draft : KvWindow := { open_ := true, first := 0, count := 1, depth := [(0, 2)]
                          records := [{ seq := 0, pos := 60, slot := 0, elems := [(0, 5#32)] }] }

def paged_ (es : List KvEntry) : KvContext :=
  { ctx0 with entries := es, lens := [(0, 60)], pool := 2, nstate := 1, stateElems := 16, draftStates := 2, windows := setNth ctx0.windows 3 draft }

/-- A K-space access of one lane, of word 0 of sequence 0, head 0, at a position. -/
def kvLane0 (plane pos : Nat) : KvLane :=
  { lane := 0, sel := BitVec.ofNat 32 (plane * 2 ^ 28), pos := BitVec.ofNat 32 pos, data := 1#32, stage := .issued }

def kvAcc (op : KvOp) (plane pos : Nat) (tag : Option Nat) : KvAccess :=
  { site := site0, op := op, ctx := 1, fmt := 1#32, dReg := 3, stReg := 4, tag := tag, win := [some 0, some 1, none, none], scalarSel := false
    lanes := [kvLane0 plane pos] }

def kvAt (op : KvOp) (plane pos : Nat) (tag : Option Nat) (st : KvState) : State :=
  { selecting (fun q => { q with id := 5 }) (inGroup (fun g => g.addPend 5 (.kv (kvAcc op plane pos tag))) cNop.t) with kvs := [paged_ [pageIn st]] }

/-- The access is its group's first K-space operation, its page is not BUSY, and its lane passes its checks. -/
def kvReady (s : State) : Bool := (s.group? 0 0).any fun g => g.kvFirst 5 && match g.pend? 5 with
  | some (.kv a) => (s.kv? a.ctx).any fun k => a.lanes.all (fun l => !kvBusy k a l && (kvCheckState k a.op a.tag l.sel l.pos).isNone &&
      match vAddr a.win g.wide a.stReg l.lane, vAddr a.win g.wide a.dReg l.lane with
      | some st, some d => decide (d + 4 ≤ st ∨ st + 4 ≤ d)
      | _, _ => false) && (s.core 0).tileData.wf
  | _ => false

theorem witness_KvInstructionsBecomePending_performs : (([KvState.resident, .secondTier, .poisoned].all fun st =>
      kvReady (kvAt .kld 0 59 none st) && kvReady (kvAt .kst 0 59 none st) && kvReady (kvAt .kld 1 61 (some 3) st) &&
        kvReady (kvAt .kst 1 61 (some 3) st)) && kvReady (kvAt .kld 2 0 none .resident) && kvReady (kvAt .ksts 2 61 (some 3) .resident)) = true := by
  decide

/-- The page is homed on one die or the other: a store by a core of that die is near, and one by a core of the other is far. -/
theorem witness_KvInstructionsBecomePending_sides : ∃ near far, (∃ g a k l, (kvAt .kst 0 59 none .resident).group? 0 0 = some g ∧
      g.pend? 5 = some (.kv a) ∧ (kvAt .kst 0 59 none .resident).kv? a.ctx = some k ∧ a.lanes = [l] ∧ l.stage = .issued ∧
      kvFar k near a l = false ∧ kvFar k far a l = true) ∧ kvFar ctx0 0 { kvAcc .kld 0 59 none with op := .kld } (kvLane0 0 59) = false := by
  by_cases h : homeDie (kvBase (paged_ [pageIn .resident]) (kvCoord 0#32 59#32)) = 0
  · exact ⟨0, 256, ⟨_, _, _, _, rfl, rfl, rfl, rfl, rfl, by simpa [kvFar, kvAcc, kvLane0, dieOf, KvOp.isStore] using h,
      by simp [kvFar, kvAcc, kvLane0, dieOf, KvOp.isStore, h]⟩, rfl⟩
  · have e : homeDie (kvBase (paged_ [pageIn .resident]) (kvCoord 0#32 59#32)) = 1 := by
      have := Nat.mod_lt (kvBase (paged_ [pageIn .resident]) (kvCoord 0#32 59#32) / 2 ^ 46) (by decide : 0 < 2)
      unfold homeDie at h ⊢
      omega
    exact ⟨256, 0, ⟨_, _, _, _, rfl, rfl, rfl, rfl, rfl, by simpa [kvFar, kvAcc, kvLane0, dieOf, KvOp.isStore] using e,
      by simp [kvFar, kvAcc, kvLane0, dieOf, KvOp.isStore, e]⟩, rfl⟩

/-- Memory with no poisoned line, and memory whose line under a word of the page is poisoned. -/
theorem witness_KvInstructionsBecomePending_poison (k : KvContext) (fmt : Word) (c : KvCoord) (p : KvSpan) (h : 0 < p.2) :
    spansPoisoned State.reset (kvSpans k fmt c) = false ∧
    spansPoisoned { State.reset with poisoned := [lineOf p.1] } [p] = true := by
  constructor
  · simp [spansPoisoned, show ∀ a, State.reset.poisonedAt a = false from fun _ => rfl]
  · simp only [spansPoisoned, List.flatMap_cons, List.flatMap_nil, List.append_nil, List.any_eq_true]
    refine ⟨lineOf p.1, ?_, by simp [State.poisonedAt, lineOf]⟩
    simp only [spanLines, if_neg (Nat.ne_of_gt h), List.mem_map, List.mem_range]
    exact ⟨0, by omega, by omega⟩

/-- Positions 59 to 62 of the page, at and past L(0) and L(0) + D(0), and the end of the draft range. -/
theorem witness_KvInstructionsBecomePending_positions : let k := paged_ [pageIn .resident]
    k.len 0 = 60 ∧ (k.window 3).depthOf 0 = 2 ∧ k.mine (some 3) 0 = true ∧ k.entry? 0 0 0 = some (pageIn .resident) ∧
    (paged_ []).entry? 0 0 0 = none ∧ (paged_ []).hasPage = true ∧ ({ paged_ [] with pool := 0 } : KvContext).hasPage = false ∧
    k.inDraft 0 60 = true ∧ k.inDraft 0 127 = true ∧ k.inDraft 0 59 = false ∧ k.inDraft 0 128 = false ∧ k.capacity = 128 ∧
    ((paged_ []).alloc 0 0 0 true 3).entry? 0 0 0 ≠ none ∧ cellWf 0#32 (pageIn .resident).elems = true ∧ cellWf 0 (k.window 3).depth = true ∧
    3 < k.windows.length ∧ cellWf 0#32 k.committed = true ∧ ((k.window 3).records.filter fun r => r.seq == 0).length = 1 ∧ k.draftStates = 2 := by
  decide

/-- A control operation that is the group's first K-space operation, with a counter to move or without. -/
def ctlAt (op : KvCtlOp) (cv vec : Bool) : State := selecting (fun q => { q with ctx := 1, id := 5 }) (inGroup (fun g => g.addPend 5 (.kvCtl
  { site := site0, op := op, ctx := 1, lane := 0, window := 3, sel := 0#64, vec := vec, cv := cv, ctr := 0, n := 2, dReg := 3
    stage := .issued }))
  (opened cKcommit.t))

theorem witness_KvEventsApply : ([(KvCtlOp.kcommit, false, false), (.kcommit, false, true), (.kcommit, true, false), (.kdrop, false, false),
      (.query, false, false)].all fun p => let s := ctlAt p.1 p.2.1 p.2.2
        (s.group? 0 0).any fun g => g.kvFirst 5 && match g.pend? 5 with
        | some (.kvCtl c) => c.op == p.1 && (s.kv? c.ctx).any fun k =>
            (k.window c.window).open_ && (ctlCheckState k c).isNone && decide (c.window < k.windows.length) && cellWf 0 k.lens &&
              ((s.core 0).block? g.launch g.block).any (fun b => commitBytes k b c) &&
              (!c.cv || (releaseStep s 0 0 5 5).any fun t => t.2)
        | _ => false) = true ∧ (releaseStep (inGroup (fun g => g.addPend 1 (.access (accOf .store .g true .sent [.dram 0])))
          (ctlAt .kcommit true false)) 0 0 5 5).isNone = true := by decide

/-- The window is not open; and a count byte of a `.vec` is still to be stored. -/
theorem witness_KvEventsApply_idle : (let s := { ctlAt .kcommit false false with kvs := [ctx0] }
      (s.group? 0 0).any fun g => (s.kv? 1).any fun k => !(k.window 3).open_ && g.kvFirst 5) = true ∧
    ((inGroup (fun g => g.addPend 1 (.access (accOf .store .s false .waiting [.spad 0 0]))) (ctlAt .kcommit false true)).group? 0 0).any
      (fun g => g.storeBefore 5 0 0 1) = true := by decide

/-- A control operation of a core, on the context with one draft. -/
def ctlOn (core : Nat) (op : KvCtlOp) : State := let s := ctlAt op false false
  selecting (fun q => { q with core := core, id := 5 }) ({ s with kvs := [paged_ []] }.mapCore core fun _ => s.core 0)

def ctlOk (core : Nat) (op : KvCtlOp) : Bool := let s := ctlOn core op
  (s.group? s.sel.core s.sel.slot).any fun g => g.kvFirst 5 && match g.pend? 5 with
  | some (.kvCtl c) => c.op == op && c.stage == .issued && (s.kv? c.ctx).any fun k => (ctlCheckState k c).isNone &&
      ((s.core core).block? g.launch g.block).any fun b => commitBytes k b c
  | _ => false

theorem home_kvAddr (b n : Nat) : homeDie (kvAddr b n) = homeDie b := by
  unfold homeDie kvAddr homeDie
  omega

/-- One of two cores, on the two dies, is on the die of an address, and the other is not. -/
theorem sides (a : Nat) : ∃ near far, (near = 0 ∧ far = 256 ∨ near = 256 ∧ far = 0) ∧ homeDie a = dieOf near ∧ homeDie a ≠ dieOf far := by
  have h := Nat.mod_lt (a / 2 ^ 46) (by decide : 0 < 2)
  have h0 : dieOf 0 = 0 := rfl
  have h1 : dieOf 256 = 1 := rfl
  by_cases e : homeDie a = 0
  · exact ⟨0, 256, .inl ⟨rfl, rfl⟩, by omega, by omega⟩
  · refine ⟨256, 0, .inr ⟨rfl, rfl⟩, ?_, ?_⟩ <;> unfold homeDie at * <;> omega

/-- The committed state and the page that is taken are homed on one die or the other; nothing is written for a window that holds
no drafts. -/
theorem witness_KvEventsApply_sides : ([0, 256].all fun n => [KvCtlOp.kcommit, .alloc].all (ctlOk n)) = true ∧
    (∃ near far, (near = 0 ∧ far = 256 ∨ near = 256 ∧ far = 0) ∧
      (∀ p ∈ commitSpans (paged_ []) 3 fun _ => 2, homeDie p.1 = dieOf near) ∧
      ∃ p ∈ commitSpans (paged_ []) 3 fun _ => 2, homeDie p.1 ≠ dieOf far) ∧
    (∃ near far, (near = 0 ∧ far = 256 ∨ near = 256 ∧ far = 0) ∧
      ∃ c : KvCtl, c.op = .alloc ∧ (∀ p ∈ allocSpan (paged_ []) c, homeDie p.1 = dieOf near) ∧
        ∃ p ∈ allocSpan (paged_ []) c, homeDie p.1 ≠ dieOf far) ∧
    ∀ n, commitSpans ctx0 3 n = [] := by
  refine ⟨by decide, ?_, ?_, fun n => rfl⟩
  · obtain ⟨near, far, h, h1, h2⟩ := sides (kvAddr (Config.kvDpa 1 0 0 65536 0) 0)
    have e : commitSpans (paged_ []) 3 (fun _ => 2) = [(kvAddr (Config.kvDpa 1 0 0 65536 0) 0, 4)] := rfl
    rw [e]
    exact ⟨near, far, h, by simpa using h1, _, List.mem_singleton.2 rfl, h2⟩
  · obtain ⟨near, far, h, h1, h2⟩ := sides (pageSpan (paged_ []) (Config.kvDpa 1 0 0 0 0) (slotOfEnc 0#11)).1
    refine ⟨near, far, h, ⟨site0, .alloc, 1, 0, 3, 0#64, false, false, 0, 2, 3, .issued⟩, rfl, ?_⟩
    have e : allocSpan (paged_ []) ⟨site0, .alloc, 1, 0, 3, 0#64, false, false, 0, 2, 3, .issued⟩ =
      some (pageSpan (paged_ []) (Config.kvDpa 1 0 0 0 0) (slotOfEnc 0#11)) := rfl
    rw [e]
    refine ⟨fun p hp => ?_, _, rfl, h2⟩
    cases hp
    exact h1

/-- An operation that has crossed the bridge: of a group in core 0, on an open window, or for a page. -/
theorem witness_KvEventsApply_crossing : [KvCtlOp.kcommit, .kdrop, .alloc].all (fun op =>
    ((ctlOn 0 op).group? 0 0).any fun g => match g.pend? 5 with
      | some (.kvCtl c) => c.op == op && ((ctlOn 0 op).kv? c.ctx).any fun k => (k.window c.window).open_
      | _ => false) = true := by decide

/-- What commits ask of a context: two pages of a held sequence, one allocated by the window beyond what is kept, and a record in
range; its highest write below a bound. -/
theorem witness_KvEventsApply_commits : let k := paged_ [pageIn .resident, { pageIn .resident with page := 1, wh := true, win := 3 }]
    3 < k.windows.length ∧ cellWf 0 k.lens = true ∧ cellWf 0#32 k.committed = true ∧
    ((k.window 3).records.all fun r => decide (r.slot < k.nstate) && r.elems.all fun e => decide (e.1 < k.stateElems)) = true ∧
    (k.window 3).stateAt 0 0 0 61 = some (60, 5#32) ∧ (k.window 3).stateAt 0 0 0 60 = none ∧
    (k.entries.any fun e => e.wh && e.win == 3 && decide (62 ≤ e.page * 64)) = true ∧ slotScale (slotOfEnc 0#11) = 0 := by decide

/-- A page on its way from the second tier or to it, one that has got back meanwhile, and one that does not move. -/
theorem witness_KvEventsApply_moves : [(KvState.secondTier, 1), (.resident, 1), (.secondTier, 2), (.resident, 0)].all (fun p =>
    let s := { selecting (fun q => { q with ctx := 1 }) cNop.t with kvs := [paged_ [{ pageIn p.1 with fetch := p.2 }]] }
    (s.kv? s.sel.ctx).any fun k => (k.entry? s.sel.seq s.sel.head s.sel.page).any fun e => e.state == p.1 && e.fetch == p.2) = true := by
  decide

/-- The control operations on a page that is there, in each state, and on one that is not, with room in the pool and without. -/
theorem witness_KvEventsApply_controls : let c : KvCtl := ⟨site0, .alloc, 1, 0, 3, 0#64, false, false, 0, 2, 3, .issued⟩
    ([KvCtlOp.alloc, .free, .fetch, .evict, .query].all fun op => (ctlCheckState (paged_ [pageIn .resident]) { c with op := op }).isNone &&
      (ctlCheckState (paged_ []) { c with op := op }).isNone) = true ∧
    (ctlCheckState ctx0 { c with op := .kopen }).isNone = true ∧ (ctlCheckState ctx0 { c with op := .len }).isNone = true ∧
    decide ((paged_ []).entries.length + (paged_ []).held < (paged_ []).pool) = true ∧
    decide (({ paged_ [] with held := 2 } : KvContext).entries.length + 2 < 2) = false ∧
    ([KvState.resident, .secondTier, .poisoned].all fun st => ((paged_ [pageIn st]).entry? 0 0 0).any fun e => e.state == st) = true ∧
    c.window < ctx0.windows.length ∧ (paged_ []).len 0 < 2 ^ 32 := by decide

/-- The group is 64 lanes wide and owns tiles 0 to 3. -/
def wide (s : State) : State :=
  inCore (fun c => (List.range 4).foldl (fun c t => c.setTile t { Tile.free with owner := 0 }) c)
    (inGroup (fun g => { g with mode := 0x20#32, winmap := [some 0, some 1, some 2, some 3] }) s)

theorem witness_RouteAndAttentionInstructions :
    (∃ x, Executes (inGroup (fun g => g.setS 3 66#64) (wide cRoute.t)) x cRoute.i ∧
      ([2, 2, 3].all (fun n => (((wide cRoute.t).core 0).tile n).owner == x.slot) &&
        !(((wide cRoute.t).core 0).table (x.b.table 0)).open_ && (x.g.sreg 3).toNat == 66 && (x.g.sreg 4).toNat == 0
        && decide (2048 ≤ x.b.spadSize) && !x.g.storeBefore ((wide cRoute.t).core 0).nextId 0 x.b.spadBase 2048
        && ((routeOf (wide cRoute.t) x.l).bind fun rt => readVector ((wide cRoute.t).core 0).spad x.b.spadBase rt.dests).isSome)
        = true) ∧
    (∃ x, Executes cRret.t x cRret.i ∧ ((x.g.sreg 4).toNat == 0 && decide (128 ≤ x.b.spadSize)) = true) ∧
    (∃ x, Executes cRxwait.t x cRxwait.i) ∧
    (∃ x, Executes (inGroup (fun g => g.setS 4 64#64) cRxstat.t) x cRxstat.i ∧ ((x.g.sreg 4).toNat == 64) = true) ∧
    (∃ x, Executes (wide cAmerge.t) x cAmerge.i ∧ ((x.g.sreg 3).toNat == 0 &&
      (((wide cAmerge.t).core 0).tile 0).owner == x.slot && (((wide cAmerge.t).core 0).tile 1).owner == x.slot) = true) ∧
    ∃ x, Executes (wide cSmxup.t) x cSmxup.i :=
  ⟨executes (by decide), executes (by decide), runs_of (by decide), executes (by decide), executes (by decide),
    runs_of (by decide)⟩

/-! ## Witnesses: what engine commands do -/

/-- A place of core 0's block, and whether n bytes at an address of a space stand there. -/
def placed (x : CmdCtx) (sp a n : Nat) : EngLoc → Bool
  | .spad p => sp == 0 && decide (a + n ≤ x.b.spadSize) && p == x.b.spadBase + a
  | .pnl p => sp == 2 && decide (a + n ≤ 1048576) && p == a
  | .tile p => sp == 3 && decide (a + n ≤ 524288) && p == a && x.b.tiles.contains (a / 8192) &&
      ((x.s.core x.core).tile (a / 8192)).owner == 0x21 && !((x.s.core x.core).tile (a / 8192)).land
  | .glob p => sp == 1 && (regionOf x.l a).any fun t => decide (a + n ≤ t.2.vbase + t.2.length) && t.2.kind == 0 &&
      t.2.rights % 4 == 3 && p == t.2.target + (a - t.2.vbase) && !x.s.poisonedAt p && !x.s.poisonedAt (p + n - 1)

theorem place_of {x : CmdCtx} {sp a n : Nat} {p : EngLoc} (h : placed x sp a n p = true) : EngPlace x sp a n p := by
  cases p
  case glob p =>
    simp only [placed, Bool.and_eq_true, beq_iff_eq, Option.any_eq_true, decide_eq_true_eq, Bool.not_eq_true'] at h
    obtain ⟨h, ⟨i, r⟩, hr, h1⟩ := h
    exact ⟨h, i, r, hr, h1.1.1.1.1.1, h1.1.1.1.1.2, h1.1.1.1.2, h1.1.1.2, h1.1.2, h1.2⟩
  all_goals simpa [placed, EngPlace, and_assoc] using h

/-- The place of an address in a space of core 0. -/
def placeAt (sp a : Nat) : EngLoc := match sp with | 0 => .spad a | 1 => .glob a | 2 => .pnl a | _ => .tile a

/-- A copy from offset 256 to offset 0, between two spaces; the copy engine has tile 0. -/
def moving (op : EngOp) (c : Code) (ssp dsp : Nat) (f : EngCmd → EngCmd) : State :=
  inCore (fun k => k.setTile 0 { Tile.free with owner := 0x21 })
    (cmdAt op c fun k => f { k with ext := k.ext ||| BitVec.ofNat 32 (dsp * 2 ^ 22 + ssp * 2 ^ 20) })

theorem witness_CopiesNestsAndBindings_places : ([0, 1, 2, 3].all fun a => [0, 1, 2, 3].all fun b =>
    (cmdCtx (moving .cpy cCpy a b id) 0 .copy 0).any fun x => x.k.op == .cpy && x.k.progress == 0 && x.k.count == 128 &&
      x.k.va.toNat == 256 && x.k.vd.toNat == 0 && x.k.ssp == a && x.k.dsp == b && decide (x.b.spadSize ≤ 2 ^ 32) &&
      placed x a 256 128 (placeAt a 256) && placed x b 0 128 (placeAt b 0)) = true := by decide

/-- The nest of `nested`, with its strides. -/
def nest0 : Nest := { nl := 1, elem := 128, counts := [2], sstride := [128], dstride := [128] }

def nestedAt (c : Code) (ssp dsp slots : Nat) (f : EngCmd → EngCmd) : State :=
  inLaunch (fun l => { l with rec_ := { l.rec_ with rings := List.replicate 8 { slots := slots, lines := 2, base := 0 } } })
    (inCore (fun k => { k with copy := { k.copy with nests := [{ launch := 1, block := 0, ctx := 0, set := 0, nest := nest0 }] } })
      (moving .cgo c ssp dsp f))

/-- Before its second copy: without RNG, with RNG and its slot free, with none free, before its turn, and at an odd address. -/
theorem witness_CopiesNestsAndBindings_nests : ([0, 1, 2, 3].all fun a => [0, 1, 2, 3].all fun b =>
      [(cCgo, 0), (cCgoR, 1)].all fun p => (cmdCtx (nestedAt p.1 a b 4 fun k => { k with progress := 128, published := p.2 }) 0 .copy 0).any
        fun x => x.k.op == .cgo && x.k.nest? (x.s.core x.core) == some nest0 && x.k.rng == (p.2 == 1) && x.k.lvl == 0 &&
          x.k.buffer.isEmpty && decide (1 < nest0.total) && x.k.va.toNat == 256 && x.k.ssp == a && x.k.dsp == b &&
          ringFree (ringDesc x.l x.k.ring).slots (x.b.ring x.k.ring) != 0 &&
          placed x a 384 128 (placeAt a 384) && placed x b 128 128 (placeAt b 128)) = true ∧
    (cmdCtx (nestedAt cCgoR 0 0 0 id) 0 .copy 0).any (fun x => x.k.rng && x.k.published == 0 &&
      ringFree (ringDesc x.l x.k.ring).slots (x.b.ring x.k.ring) == 0) = true ∧
    (cmdCtx (nestedAt cCgoR 0 0 4 fun k => { k with progress := 128 }) 0 .copy 0).any (fun x => x.k.rng && x.k.published != 1) = true ∧
    (cmdCtx (nestedAt cCgo 0 0 4 fun k => { k with va := 258#64 }) 0 .copy 0).any (fun x => x.k.va.toNat % 4 != 0) = true ∧
    (cmdCtx (cmdAt .cgo cCgo id) 0 .copy 0).any (fun x => x.k.op == .cgo && (x.k.nest? (x.s.core x.core)).isNone) = true := by decide

/-- A descriptor of one level stands at an offset, or none. -/
def describing (a : Nat) (bs : List Byte) : State :=
  inCore (fun k => { k with spad := k.spad.put a bs }) (cmdAt .cnest cCnest fun k => { k with va := BitVec.ofNat 64 a })

theorem witness_CopiesNestsAndBindings_descriptors :
    (cmdCtx (describing 128 [1, 0, 0, 0, 0, 32, 0, 0, 255, 255]) 0 .copy 0).any (fun x => let m := (x.s.core x.core).spad
      x.k.op == .cnest && x.k.va.toNat == 128 && m.nat (x.b.spadBase + 128) 1 == 1 && m.nat (x.b.spadBase + 132) 4 == 8192 &&
        m.nat (x.b.spadBase + 136) 2 == 65535 && [(129, 3), (138, 2), (148, 4), (200, 56)].all fun p => m.nat (x.b.spadBase + p.1) p.2 == 0)
      = true ∧
    (cmdCtx (describing 128 []) 0 .copy 0).any (fun x => (x.s.core x.core).spad.nat (x.b.spadBase + 128) 1 == 0) = true ∧
    ([(8192, true), (8064, false)].all fun p => (cmdCtx (describing p.1 []) 0 .copy 0).any fun x =>
      decide (x.b.spadSize < x.k.va.toNat + 128) == p.2) = true ∧
    (cmdCtx (describing 64 []) 0 .copy 0).any (fun x => x.k.va.toNat % 128 != 0) = true := by decide

/-- A line of this die and of the other. -/
theorem witness_CopiesNestsAndBindings_lines : homeDie 0 = 0 ∧ homeDie 127 = 0 ∧ homeDie (2 ^ 46) ≠ 0 ∧ 2 ^ 46 % 128 + 128 ≤ 128 ∧
    cNop.t.dram.wf = true := by decide

/-- A binding to window w: of the receiving side, of what is sent to device 3, one taken back, and windows that are not there. -/
def binding (v : Nat) : State := let s := cmdAt .lwin cLwin fun k => { k with va := BitVec.ofNat 64 v, vb := 0#64 }
  { s with exposures := [{ window := 2, target := 0, length := 65536, rights := 3, mask := 8, fallBack := false, down := false, registrants := [] }] }

theorem witness_CopiesNestsAndBindings_bindings : ([(0x200, true), (0x100, false), (0x200203, true), (0x200103, false), (0x100200, true)].all
    fun p => (cmdCtx (binding p.1) 0 .link 0).any fun x => x.k.op == .lwin && !x.k.badControl && x.k.count == 0 &&
      x.k.va.extractLsb' 22 42 == 0 && x.k.va.toNat == p.1 && p.2 ==
        if x.k.va.getLsbD 21 then (registration? x.s (x.k.va.extractLsb' 0 8).toNat (x.k.va.extractLsb' 8 6).toNat).isSome
        else (x.k.va.extractLsb' 0 8 == 0) && x.s.exposures.any fun q => q.window == (x.k.va.extractLsb' 8 6).toNat) = true := by decide

/-- A send of n bytes on port 5 of core 1 of its own module, and a receiver that takes two of them. -/
def porting (n : Nat) : State :=
  cmdAt .lsendPort cLsendP fun k => { k with vd := 0xA0100#64, vb := BitVec.ofNat 64 n, progress := 4 }

theorem witness_CopiesNestsAndBindings_ports : (cmdCtx (porting 128) 0 .link 0).any (fun x => x.k.op == .lsendPort && !x.k.badControl &&
      x.k.count == 128 && (x.k.vd.extractLsb' 0 8).toNat == x.s.device.toNat && x.k.va.toNat == 256 && decide (264 ≤ x.b.spadSize)) = true ∧
    (cmdCtx (porting 6) 0 .link 0).any (fun x => x.k.count % 4 != 0) = true ∧
    ((porting 128).core 0).link.cmds.any (fun k => k.op == .lsendPort && k.started && !k.finished && k.fault.isNone &&
      ((k.vd.extractLsb' 0 8).toNat, (k.vd.extractLsb' 8 9).toNat, (k.vd.extractLsb' 17 5).toNat) == (0, 1, 5) &&
      ((porting 128).launch? k.launch).any (fun l => l.phase == .admitted && (((porting 128).core 0).block? k.launch k.block).any fun b =>
        decide (264 ≤ b.spadSize)) && decide (2 ≤ k.count - k.progress ∧ 2 ≤ 4 - k.progress % 4)) = true := by decide

/-- A finished copy to tile 0 with RES, RET and counter 63: of a group that lives; and the same without RES and RET. -/
def finishedCopy (flags : Nat) : State :=
  moving .cpy cCpy 0 3 fun k => { k with ext := k.ext ||| BitVec.ofNat 32 (63 * 2 ^ 12 + flags), finished := true }

theorem witness_EngineCommandCourse_retire : ([0, 0xC00].all fun f => ((finishedCopy f).core 0).cmd? .copy 0 |>.any fun k =>
    canRetire ((finishedCopy f).core 0) k && engineOf k.op == .copy && k.ctr == some 63 && k.res == (f != 0) && k.ret == (f != 0) &&
      ((finishedCopy f).core 0).counters.length == 64 && decide (1 < ((finishedCopy f).core 0).queues.length) &&
      liveSlotOf ((finishedCopy f).core 0) k.launch k.block k.slot && k.tiles.contains 0 &&
      (((finishedCopy f).core 0).tile 0).owner == 0x21) = true := by decide

/-- The page under requantisation is there still, or has been freed. -/
def requanting (live : Bool) : State := let s := cmdAt .rqzKv cRqz fun k => { k with progress := 1 }
  { s with kvs := [{ paged_ [{ pageIn .resident with busy := true }] with held := 1, requants :=
      [{ seq := 0, head := 0, page := 0, core := 0, cmd := 0, live := live, enc := 2#11, elems := [], metas := [] }] }] }

theorem witness_EngineCommandCourse_swap : ([true, false].all fun live => (cmdCtx (requanting live) 0 .quant 0).any fun x =>
      x.k.op == .rqzKv && x.k.progress == 1 && x.k.fault.isNone && !x.k.finished && x.k.acks == 0 &&
        (kvOf (requanting live) x.k.launch).any fun q => (q.requants.find? fun r => r.core == 0 && r.cmd == x.k.id).any fun r =>
          r.live == live && (q.entry? r.seq r.head r.page).isSome) = true ∧
    slotScale (slotOfEnc 0#11) = 0 ∧ 0 < ctx0.headDim ∧ slotScale 0x012#32 ≠ 0 ∧ 64 % slotGroup 0x012#32 = 0 := by decide

/-- The words of CPY. -/
def cpyBytes : List Byte := bytesOfNat 4 cCpy.b.toNat ++ bytesOfNat 4 cCpy.x.toNat

/-- The copy engine's command queue holds an entry, and words stand at offset 64. -/
def entered (v : DWord) (bs : List Byte) : State := selecting (fun q => { q with engine := .copy }) (inCore (fun k =>
  { k with queues := setNth k.queues 0 [{ launch := 1, block := 0, slot := 0, id := 7, value := v }], spad := k.spad.put 64 bs }) cCpy.t)

def entryOk (s : State) (p : QEntry → Launch → Block → Bool) : Bool := ((nth [] (s.core 0).queues 0).find? fun n =>
    (s.launch? n.launch).any (fun l => l.phase == .admitted) && !((s.core 0).eng .copy).bad.any fun b => b.1 == n.id).any fun n =>
  (s.launch? n.launch).any fun l => ((s.core 0).block? n.launch n.block).any fun b => p n l b

theorem witness_EngineCommandCourse_entries :
    entryOk (entered (2 ^ 32 : Nat) []) (fun n _ _ => highWord n.value != 0#32) = true ∧
    entryOk (entered 4#64 []) (fun n _ _ => highWord n.value == 0#32 && (lowWord n.value).toNat % 8 != 0) = true ∧
    entryOk (entered 8152#64 []) (fun n _ b => highWord n.value == 0#32 && (lowWord n.value).toNat % 8 == 0 &&
      decide (b.spadSize < (lowWord n.value).toNat + 48)) = true ∧
    entryOk (entered 64#64 cpyBytes) (fun n l b =>
      let m := (cCpy.t.core 0).spad.put 64 cpyBytes
      decide ((lowWord n.value).toNat + 48 ≤ b.spadSize) && m.nat (b.spadBase + 64) 4 == cCpy.b.toNat &&
        m.nat (b.spadBase + 68) 4 == cCpy.x.toNat && !recordBad l cCpy.i && Machine.cmdOf .copy cCpy.i == some .cpy &&
        decode .e cCpy.b cCpy.x == .ok cCpy.i && !(cCpy.t.core 0).cmdFull (freshCmd .cpy 1 0 0 7 cCpy.b cCpy.x 0 0 0 0 0) &&
        ((inEngine .copy (List.replicate 16 (cmdOf .cpy cCpy)) cCpy.t).core 0).cmdFull (freshCmd .cpy 1 0 0 7 cCpy.b cCpy.x 0 0 0 0 0)) = true := by
  decide

/-- An element of a CRED in space G: its home is this die, or the other. -/
def credTo (target : Nat) : State := inLaunch (fun l => { l with regions := l.regions.map fun r => { r with target := target } })
  (cmdAt .cred cCredG fun k => { k with progress := 127 })

theorem witness_EngineResults_credToHome : ([(0, true), (2 ^ 46, false)].all fun p => (cmdCtx (credTo p.1) 0 .copy 0).any fun x =>
    let f := credForms (x.k.imm.extractLsb' 7 3).toNat
    x.k.op == .cred && x.k.ssp == 0 && x.k.dsp == 1 && x.k.acks == 0 && x.k.progress == 127 && x.k.count == 128 &&
      x.k.vb.extractLsb' 40 24 == 0 && x.k.va.toNat % 4 == 0 && x.k.vd.toNat == 0 && decide (256 + 128 * f.2.1 ≤ x.b.spadSize) &&
      (regionOf x.l (127 * f.2.2.2)).any fun t => decide (127 * f.2.2.2 + f.2.2.2 ≤ t.2.vbase + t.2.length) && t.2.kind == 0 &&
        t.2.rights % 4 == 3 && (let d := t.2.target + (127 * f.2.2.2 - t.2.vbase)
          !x.s.poisonedAt d && !x.s.poisonedAt (d + f.2.2.2 - 1) && (homeDie d == dieOf x.core) == p.2)) = true := by decide

/-- A number that is none, one below all, and two whose difference is finite. -/
theorem witness_RouteAndAttentionInstructions_rows : (dec .fp32 0x7FC00000).isNan = true ∧ dec .fp32 0x7F800000 = .inf false ∧
    dec .fp32 0xFF800000 = .inf true ∧ dec .fp32 0x3F800000 ≠ .inf true ∧ (dec .fp32 0x3F800000).isNan = false ∧
    dec .fp32 0x3F800000 ≠ .inf false ∧
    (match Machine.Num.add false (dec .fp32 0x3F800000) (dec .fp32 0x40000000).neg with | .fin _ _ _ => true | _ => false) = true ∧
    rnd .fp32 .std (Machine.Num.mul (dec .fp32 0x3F800000) (dec .fp32 0x40000000)) = 0x40000000 := by decide

/-! ## Witnesses: events of routing, system instructions, traps -/

/-- An OPEN table with one choice, whether its rows have gone out, whether its choice is pending, and its policy. -/
def tableAt (dispatched pending next res : Bool) : State := selecting id (inCore (fun c =>
  { c with tables := setNth c.tables 0 { RxTable.empty with
      used := true, open_ := true, dispatched := dispatched, launch := 1, pair := 1, inTile := 4, policyNext := next, res := res
      dests := [{ dest0 with cap := 1 }, { dest0 with id := 1, cap := 1 }, { dest0 with id := 2, rank := 1 }]
      rows := [{ nch := 1, entries := [(0, 0#32), (1, 0#32), (1, 0#32), (1, 0#32)]
                 choices := [{ dest := 0, weight := 0#32, status := 0, pending := pending, redirected := false, device := 0
                               core := 0, launch := 1, block := 0, row := [] }] }] } }) cRoute.t)

/-- Before the dispatch: a destination that is resident, below CAP and at it, a spare, and one that is not resident. -/
theorem witness_RouteAndFoldEvents_dispatch : (let s := tableAt false false true false
    let x := (s.core 0).table 0
    x.open_ && !x.dispatched && [4, 2, 3].all (fun n => !((s.core 0).tile n).land) && decide (0 < (s.core 0).tables.length) &&
      (findDest x.dests 0).any (fun d => resident s d == some 0 && d.cap == 1) &&
      (findDest x.dests 1).any (fun d => resident s d == some 0 && d.cap == 1) && (findDest x.dests 2).any (fun d => (resident s d).isNone) &&
      x.rows.all fun r => r.nch == 1 && (nth (0, 0#32) r.entries 1).1 == 1) = true ∧
    (NatMap.get (NatMap.set [] 0 1) 0 = 1 ∧ NatMap.get (NatMap.set [] 0 1) 1 = 0) := by decide

def rowAt : State := { selecting id cRoute.t with
  rowsOut := [{ link := none, srcCore := 0, device := 0, core := 0, launch := 1, block := 0, ring := 0, token := 0#64, dest := 0, row := [] }] }

theorem witness_RouteAndFoldEvents_rows :
    (let x := ((tableAt true true false false).core 0).table 0
     (x.open_ && x.dispatched && decide (x.start + x.timeout ≤ (tableAt true true false false).cycle)) = true) ∧
    (∃ m, rowAt.rowsOut[0]? = some m ∧ (m.device == rowAt.device.toNat && !rowBehind rowAt 0 m && (rowAt.launch? m.launch).any fun l =>
      (((rowAt.core m.core).block? m.launch m.block).any fun b =>
        (ringDesc l m.ring).slots != 0 && decide (2 ≤ (ringDesc l m.ring).lines)
          && ringFree (ringDesc l m.ring).slots (b.ring m.ring) != 0)) = true) := ⟨by decide, found (by decide)⟩

/-- A table with nothing to wait for, with a record to leave or without, and with its result queue full. -/
theorem witness_RouteAndFoldEvents_complete : ([false, true].all fun res =>
      let s := tableAt true false false res
      let c := s.core 0
      let x := c.table 0
      x.open_ && x.dispatched && !x.waiting && x.res == res && !c.queueFull 6 && ((filled 6 16 s).core 0).queueFull 6 && c.tileData.wf &&
        decide (x.ctr < 64 ∧ c.counters.length = 64 ∧ 6 < c.queues.length ∧ 0 < c.tables.length) &&
        liveSlotOf c x.launch x.block x.slot) = true := by decide

/-- A return whose table is IDLE, and one that its table accepts. -/
def returned (s : State) : State :=
  { s with returns := [{ link := none, token := 0#64, device := 0, core := 0, launch := 1, block := 0, row := [] }] }

def waiting : State := returned (inCore (fun c => c.setTable 0 { c.table 0 with timeout := 1 }) (tableAt true true false false))

theorem witness_RouteAndFoldEvents_returns : (∃ m, (returned (selecting id cRoute.t)).returns[0]? = some m ∧
      (m.token.toNat % 256 == cRoute.t.device.toNat && !((cRoute.t.core 0).table 0).open_) = true) ∧
    ∃ m, waiting.returns[0]? = some m ∧ (let x := (waiting.core 0).table 0
      x.open_ && x.gen == BitVec.ofNat 32 (m.token.toNat / 2 ^ 27) && !x.late_ waiting.cycle && decide (m.token.toNat < 2 ^ 59) &&
        (x.rows[0]?).any fun r => (r.choices[0]?).any fun y => y.pending && y.device == m.device && y.core == m.core &&
          y.launch == m.launch && y.block == m.block) = true :=
  ⟨found (by decide), found (by decide)⟩

def foldAt : State := selecting (fun q => { q with id := 5 }) (inGroup (fun g => g.addPend 5 (.amerge site0 0 0 [] true 1#64 63 g.winmap))
  (wide cAmerge.t))

theorem witness_RouteAndFoldEvents_fold : ∃ g, foldAt.group? 0 0 = some g ∧
    ((match g.pend? 5 with | some (.amerge _ 0 _ _ _ rows 63 win) => rows == 1#64 && decide (win.filterMap id).Nodup | _ => false) &&
      !((foldAt.core 0).tile 0).land && !((foldAt.core 0).tile 1).land && g.accessesDone 5 && g.wide && (foldAt.core 0).tileData.wf
      && (foldAt.core 0).counters.length == 64) = true := found (by decide)

def sleeping (n : Nat) : State := selecting id (inGroup (fun g => { g with wait := .sleep n }) cSleep.t)

/-- The group handles a trap, and a lane of its frame is parked with its fault dealt with. -/
def handling (s : State) : State := inGroup (fun g =>
  { (g.enter (Trap.plain .userTrap) 0x100#32 5) with lanes := setNth g.lanes 31 .parked }) s

theorem witness_SystemInstructions : (∃ x, Executes cSread.t x cSread.i) ∧ (∃ x, Executes cSreadL.t x cSreadL.i) ∧
    (∃ x, Executes cSwrite.t x cSwrite.i ∧ decide (31 < x.g.lpc.length ∧ 31 < x.g.faultLog.length ∧ 31 < x.g.lfr.length) = true) ∧
    (∃ x, Executes (handling cSwriteL.t) x cSwriteL.i ∧ x.g.handler.isSome = true) ∧ (∃ x, Executes cMode.t x cMode.i) ∧
    (∃ x, Executes cSleep.t x cSleep.i) ∧ (∃ x, Executes cSleep0.t x cSleep0.i) ∧
    (∃ g, (sleeping 0).group? 0 0 = some g ∧ (g.wait == .sleep 0 && decide (0 ≤ (sleeping 0).cycle)) = true) ∧
    ∃ g, (sleeping 1).group? 0 0 = some g ∧ (g.wait == .sleep 1 && decide ((sleeping 1).cycle < 1)) = true :=
  ⟨runs_of (by decide), runs_of (by decide), executes (by decide), executes (by decide), runs_of (by decide), runs_of (by decide),
    runs_of (by decide), found (by decide), found (by decide)⟩

/-- A group in a handler and one outside; the window map of a placed group; the levels of a launch with more than two. -/
theorem witness_SystemInstructions_values : (∃ x, issuer cSread.t = some x ∧ x.g.handler.isNone = true) ∧
    (∃ x, issuer (handling cSread.t) = some x ∧ (x.g.handler.isSome && (x.g.lfr[31]?).isSome) = true) ∧
    (∃ x, Executes cSreadMap.t x cSreadMap.i ∧ (x.g.winmap.length == 4 && x.g.winmap.all fun t => t.all fun n => decide (n < 64)) = true) ∧
    (let r := { soloLaunch.rec_ with nlevels := 3, levels := [⟨0, 0, 32⟩, ⟨1, 1, 1⟩, ⟨3, 3, 2⟩] }
     1 < r.nlevels ∧ 1 + 1 < r.nlevels ∧ r.levels[1 + 1]? = some ⟨3, 3, 2⟩) :=
  ⟨found (by decide), found (by decide), executes (by decide), by decide⟩

/-- A stopped clause, of a core of its own and of a follower; a stopped command. -/
def stoppedAt (role : PairRole) : State := inCore (fun k =>
  { k with seqRun := some { SeqRun.fresh (clauseOf cXtake (.xtake 1)) role with stopped := some { Trap.plain .queueFault with origin := .sequencer } } }) cRett.t

theorem witness_TrapInstructionsTrap : (∃ x, Executes cTrap.t x cTrap.i) ∧
    (∃ x, Issues cTrap.t x (.unassignedOpcode .v 0xFE000000#32 none) ∧ true = true) ∧
    (∃ x r, rettForm cRett.i = some r ∧ Executes cRett.t x cRett.i ∧ x.g.handler.isNone = true) ∧
    (∃ x r, rettForm cRett.i = some r ∧ Executes (handling cRett.t) x cRett.i ∧ x.g.handler.isSome = true) ∧
    ([PairRole.own, .follower].all fun p => ((stoppedAt p).core 0).seqRun.any fun r => r.stopped.isSome && r.role != .leader) = true ∧
    (Core.reset.eng .copy).bad = [] ∧
    ∃ g, (handling cRett.t).group? 0 0 = some g ∧ (g.handler.any (fun h => h.cont.isNone) && decide (31 < g.lanes.length) &&
      (g.laneHdr[31]?).isSome && (g.lfr[31]?).any fun r => !r.valid) = true :=
  ⟨runs_of (by decide), issues (by decide), formedWith (by decide), formedWith (by decide), by decide, rfl, found (by decide)⟩

/-- A handler that was entered from an interrupted run. -/
theorem witness_TrapInstructionsTrap_resumes : ∃ x, issuer cRett.t = some x ∧
    ((({ x.g with cont := some x.run } : Group).enter (Trap.plain .queueFault) 0x100#32 5).handler.any fun h => h.cont == some x.run) = true :=
  found (by decide)

/-- A trap is due, on no scheduler; a delivered one waits. -/
def due (s : State) : State := selecting id (inCore (fun c => c.dropRun 0) (inGroup (fun g => { g with due := some (Trap.plain .userTrap) }) s))

def delivered (s : State) : State :=
  selecting id (inCore (fun c => c.dropRun 0) (inGroup (fun g => { g with delivered := [Trap.plain .queueFault] }) s))

/-- The group's run stands before a chained clause whose WAIT mask names what a long operation of the group holds. -/
def beforeMask : State := selecting id (inCore (fun c => c.mapSched 0 fun k => { k with run := k.run.map fun r =>
    { r with hdr := 0x12000000#32, pos := 8#32, code := [0x12000000#32, 0#32, 0x10FF0000#32, 0#32] } })
  (inGroup (fun g => (g.addPend 5 (.long g.winmap [] none)).addPend 6 (.ctradd 0 0#64 1) |> fun g => { g with delivered := [Trap.plain .queueFault] })
    cTrap.t))

theorem witness_TrapEntryAndWhatItSaves :
    (∃ g, cTrap.t.group? 0 0 = some g ∧ (g.handler.isNone && g.predicted.isNone && g.late.isEmpty) = true) ∧
    (∃ g, (handling cTrap.t).group? 0 0 = some g ∧ g.handler.isSome = true) ∧
    (∃ g, (due cTrap.t).group? 0 0 = some g ∧ (((due cTrap.t).launch? g.launch).isSome && !g.ended && !g.stopped && !g.gangLost &&
      ((due cTrap.t).core 0).offRun 0 && g.due.isSome && g.handler.isNone && g.entryClear && g.predicted.isNone) = true) ∧
    (∃ g, (delivered cTrap.t).group? 0 0 = some g ∧ ((firstDelivered g.delivered).isSome && mayTake (delivered cTrap.t) 0 0 g &&
      ((delivered cTrap.t).core 0).offRun 0) = true) ∧
    ∃ g, beforeMask.group? 0 0 = some g ∧ ((firstDelivered g.delivered).isSome && mayTake beforeMask 0 0 g &&
      ((beforeMask.core 0).sched 0).run.any fun r => r.slot == 0) = true :=
  ⟨found (by decide), found (by decide), found (by decide), found (by decide +kernel), found (by decide +kernel)⟩

theorem witness_TrapInstructionRecordsItsCode : (∃ x, Executes cTrap.t x cTrap.i) ∧
    ∃ x, Issues cTrapP.t x cTrapP.i ∧ (activeOf x cTrapP.i == 0#64) = true := ⟨runs_of (by decide), issues (by decide)⟩

/-- Two sums: of equal anchors without OVF, and of unequal ones. -/
theorem witness_Ws96SumIsOrderFree :
    (let a := 160 * 2 ^ 87 + 5
     let b := 161 * 2 ^ 87 + 2 ^ 87 - 1
     a < 2 ^ 96 ∧ b < 2 ^ 96 ∧ wsOvf a = false ∧ wsOvf b = false ∧ wsAnchor a ≠ wsAnchor b ∧ wsAnchor a = wsAnchor (a + 2)) ∧
    (WsSum.add (.one 5) (.one 7)).terms = [5, 7] ∧ wsOvf (2 ^ 95) = true := by decide

theorem witness_Ws96ToFp32 : wsOvf wsMarker = true ∧ wsOvf (160 * 2 ^ 87 + 5) = false := by decide


/-! ## Witnesses: scheduling, pages, pre-emption -/

/-- Scheduler 0 is free, and its group stands at the clause. -/
def free : State := selecting id (inCore (fun c => c.dropRun 0) cNop.s)

/-- What the scheduler may select. -/
def picks (s : State) : List (Nat × Group × Pick) := (schedGroups (s.core 0) 0).filterMap fun p => (pickOf s 0 p.1 p.2).map fun q => (p.1, p.2, q)

/-- The group's run has been suspended before its next clause. -/
def suspended : State := inGroup (fun g => { g with cont := ((cNop.s.core 0).sched 0).run }) free

/-- The group stands at words of zeros: a header with a COUNT of 0. -/
def astray : State := inGroup (fun g => { g with lpc := g.lpc.map fun _ => 16#32 }) free

def selects (s : State) (p : Pick → Bool) : Bool := ((s.core 0).sched 0).run.isNone && (Machine.choose ((s.core 0).sched 0) (picks s)).any fun q => p q.2.2

theorem witness_SchedulingEvents_select : selects free (fun | .run _ _ => true | _ => false) = true ∧
    selects suspended (fun | .cont _ => true | _ => false) = true ∧
    selects astray (fun | .fail _ t => t.cause == .illegalEncoding | _ => false) = true :=
  ⟨by decide +kernel, by decide +kernel, by decide +kernel⟩

/-- Three ready groups of one scheduler: of slot 8 with age 3, and of slots 0 and 4 with age 1. -/
def ready3 : List (Nat × Group × Pick) := [(8, 3), (0, 1), (4, 1)].map fun p =>
  (p.1, { freshGroup soloLaunch 0 0 [] with ready := true, age := p.2 }, .fail (freshGroup soloLaunch 0 0 []) (Trap.plain .userTrap))

def holding (n : Nat) (last : Option Nat) : Scheduler := { Scheduler.empty with holder := some 4, last := last, streak := n }

theorem witness_SchedulingEvents_choice :
    ((Machine.choose (holding 3 (some 4)) ready3).map fun p => p.1) = some 4 ∧
    ((Machine.choose (holding 4 (some 4)) ready3).map fun p => p.1) = some 8 ∧
    ((Machine.choose Scheduler.empty (ready3.drop 1)).map fun p => p.1) = some 0 ∧
    ready3.all (fun q => q.2.1.ageNow < 4) = true := by decide

/-- A module of which partition 0 has one cluster, with a launch there: queued, admitted with a block to place, or all of
whose blocks have ended. -/
def launched (f : Launch → Launch) : State := selecting (fun q => { q with launch := 1 })
  { State.reset with launches := [f soloLaunch], partitions := [0, 1, 1, 1, 1, 1, 1, 1] }

/-- A record of a partition without cores, which a launch of lower priority there still holds up. -/
def crowded : State := { launched id with
  launches := [{ soloLaunch with id := 2, partition := 3 },
    { soloLaunch with phase := .queued, placed := 0, order := 1, partition := 3, rec_ := { soloLaunch.rec_ with priority := 1 } }] }

def mayAdmit (s : State) (p : Launch → Bool) : Bool :=
  !s.failed && !s.halted && s.power == .active && s.modeChange.isNone && s.hostAcks == 0 && (headRecord s).any fun h => !restoreAhead s h && p h

theorem witness_SchedulingEvents_admission :
    (let s := launched fun l => { l with phase := .queued, placed := 0 }
     mayAdmit s (fun h => decide (admittedCount s < 32) && (admitLaunch s h).isSome &&
       s.cores.all (fun p => !p.2.l1Dirty && p.2.wbOut == 0)) = true ∧
     (inCore (fun c => { c with wbOut := 1 }) s).cores.any (fun p => !p.2.l1Dirty && p.2.wbOut != 0) = true ∧
     (l1With 1 0 s).cores.any (fun p => p.2.l1Dirty) = true) ∧
    mayAdmit crowded (fun h => (admitLaunch crowded h).isNone && (preemptee crowded h).isSome) = true :=
  ⟨by decide +kernel, by decide +kernel⟩

/-- The same, with a launch that has been pre-empted and cannot be restored, since its images fit nowhere, or can. -/
def behindSaved (m : List Image) : State :=
  { crowded with launches := { soloLaunch with id := 3, asid := 3, phase := .saved true, partition := 4, images := m
                                               rec_ := { soloLaunch.rec_ with priority := 7 } } :: crowded.launches }

theorem witness_SchedulingEvents_ahead : ([([], true), ([imageOf (cNop.s.core 0) 0 3 fun _ _ => false], false)].all fun p =>
    let s := behindSaved (p.1.map fun m => { m with core := 511 })
    !s.failed && !s.halted && s.power == .active && s.modeChange.isNone && s.hostAcks == 0 && (headRecord s).any fun h =>
      restoreAhead s h && s.launches.any (mayRestore s) == p.2 && (preemptee s h).isSome) = true := by decide +kernel

theorem witness_SchedulingEvents :
    (let s := launched fun l => { l with placed := 0 }
     s.modeChange = none ∧ (nextToPlace s).any (fun l => (placeUnit s l l.placed).isSome) = true) ∧
    (let s := inGroup (fun g => { g with ended := true }) cNop.s
     ((s.core 0).block? 1 0).any (fun b => blockOver s 0 b) = true ∧ (s.launch? 1).any (fun l => (wideBars l.rec_.barrierUse).isEmpty) = true) ∧
    (let s := inGroup (fun g => { g with ended := true }) (inLaunch (fun l => { l with rec_ := { l.rec_ with barrierUse := 0x10000#32 } }) cNop.s)
     ((s.core 0).block? 1 0).any (fun b => blockOver s 0 b) = true ∧
     (s.launch? 1).any (fun l => !(wideBars l.rec_.barrierUse).isEmpty) = true ∧ (s.core 0).l1Dirty = false ∧ (s.core 0).wbOut = 0) ∧
    (let s := launched fun l => { l with ended := 1 }
     (s.modeChange.isNone && (s.launch? 1).any launchOver && s.cores.all (fun p => !p.2.l1Dirty && p.2.wbOut == 0) && !writesUnderWay s) = true) :=
  ⟨by decide +kernel, by decide +kernel, by decide +kernel, by decide +kernel⟩

/-- A walk of page 0 of a demand region. -/
def walking : State :=
  { selecting id (inLaunch (fun l => { l with regions := [{ vbase := 0, length := 65536, target := 0, kind := 1, rights := 7, pgsz := 1 }] }) cGld.s)
    with die0 := { Die.reset with walks := [{ asid := 1, launch := 1, region := 0, page := 0, write := false }] } }

theorem witness_WalkAndPreemptionEvents_walk : ∃ w, (walking.die 0).walks[0]? = some w ∧
    ((walking.launch? w.launch).any fun l => (l.regions[w.region]?).isSome && decide (0 < 64)) = true := found (by decide)

/-- The launch is being stopped, has stopped, and has been saved and resumed. -/
def stopping : State := selecting (fun q => { q with launch := 1 })
  (inLaunch (fun l => { l with phase := .stopping false }) (inCore (fun c => c.dropRun 0) cNop.s))

def stopped : State := inGroup (fun g => { g with stopped := true }) (inLaunch (fun l => { l with phase := .stopped false }) stopping)

def saved : State := launched fun l => { l with phase := .saved true, images := [imageOf (stopped.core 0) 0 1 fun i _ => i == 1] }

theorem witness_WalkAndPreemptionEvents :
    (stopping.group? 0 0).any (fun g => mayStop stopping 0 0 g) = true ∧
    ((stopped.launch? 1).any (fun l => l.phase == .stopped false) && (coresOf stopped 1).all (fun k =>
      coreQuiet (stopped.core k) 1 && !(stopped.core k).l1Dirty && (stopped.core k).wbOut == 0)) = true ∧
    ((saved.launch? 1).any fun l => l.phase == .saved true && !saved.halted && !saved.failed && saved.power == .active &&
      decide (admittedCount saved < 32) && !restoreBefore saved l && l.images.all (imageFits saved l) &&
      l.images.all fun m => !(saved.core m.core).l1Dirty && (saved.core m.core).wbOut == 0) = true ∧
    (0 < 16 ∧ 0 < Core.reset.queues.length ∧ (nth [] Core.reset.queues 0).length ≤ 16) ∧
    (let g := { freshGroup soloLaunch 0 0 [] with wait := .sleepLeft 9 }
     g.wait = .sleepLeft 9 ∧ (g.resumed 100).wait = .sleep 109) ∧
    (let g := ({ freshGroup soloLaunch 0 0 [] with wait := .sleep 9 } : Group).enter (Trap.plain .userTrap) 0x100#32 5
     g.handler.any (fun h => h.wait == .sleep 9) = true ∧
       ((g.mapWaits (Wait.atStop 4)).resumed 100).handler.any (fun h => h.wait == .sleep 105) = true) := by decide

/-! ## Witnesses: bridge and peers -/

def bridged (k : BridgeKind) : State := selecting id { State.reset with die0 := { Die.reset with out := [⟨1, 0, k⟩] } }

/-- An element of a CRED on its way to line 0. -/
def elem0 : CredElem := { core := 0, id := 1, dpa := 0, conv := 0, anchor := 0, src := 0 }

def putOf (out landed : Bool) : State := { selecting id State.reset with
  puts := [{ id := 0, link := 0, out := out, device := 3, window := 2, cells := [(0, 7#8)], n := 1, core := 0, ref := .none
             landed := landed, final := true, acks := 0, late := [] }] }

/-- Window 2, 64 KiB of device memory, exposed to device 3 for reading and writing. -/
def exposing (s : State) : State := { s with
  exposures := [{ window := 2, target := 0, length := 65536, rights := 3, mask := 8, fallBack := false, down := false
                  registrants := [] }] }

def linked (st : LinkState) : State := selecting id { State.reset with
  links := List.replicate 18 { state := st, lanes := 4, transient := 0#16, key := 0#64 } }

def exposed (f : Sel → Sel) : State := selecting f (exposing (linked .up))

theorem witness_BridgeAndPeerTraffic_bridge : (State.reset.die 1).out = [] ∧ (bridged (.ack .none)).die0.out = [⟨1, 0, .ack .none⟩] ∧
    (bridged (.cred elem0)).die0.out = [⟨1, 0, .cred elem0⟩] := ⟨rfl, rfl, rfl⟩

theorem witness_BridgeAndPeerTraffic :
    (∃ p, (putOf true false).puts[0]? = some p ∧ (p.out && !p.landed && ((putOf true false).puts.take 0).isEmpty) = true) ∧
    (∃ p, (putOf true false).puts[0]? = some p ∧ ((putOf true false).links[p.link]?).all (fun l => l.state != .foreign) = true) ∧
    (∃ p, (putOf true false).puts[0]? = some p ∧ (({ putOf true false with links := (linked .foreign).links }.links[p.link]?).any
      fun l => l.state == .foreign) = true) ∧
    (∃ p, (putOf true true).puts[0]? = some p ∧ (p.out && p.landed && ((putOf true true).puts.take 0).isEmpty) = true) ∧
    (∃ p, (exposing (putOf false false)).puts[0]? = some p ∧ (!p.out && !p.landed && (exposure? (exposing (putOf false false)) p.window).any fun e =>
      p.cells.all fun c => e.allows p.device 1 c.1 1) = true) ∧
    (∃ p, (putOf false false).puts[0]? = some p ∧ (!p.out && !p.landed && (exposure? (putOf false false) p.window).isNone) = true) ∧
    (let s := { putOf false true with bindings := [{ device := none, window := 2, core := 0, ctr := 1, launch := 1 }] }
     ∃ p, s.puts[0]? = some p ∧ (!p.out && p.landed && p.acks == 0 && p.final &&
       (s.bindings.find? fun y => y.device.isNone && y.window == p.window).isSome) = true) ∧
    (let s := exposed fun q => { q with window := 2, device := 3, offset := 65408, count := 128 }
     (exposure? s 2).any (fun e => e.allows 3 0 65408 128 && rangeSound s (e.target + 65408) 128 && reachedBy s 0 && !e.down && e.mask.getLsbD 3) = true) ∧
    reachedBy (linked .down) 0 = false :=
  ⟨found (by decide), found (by decide), found (by decide), found (by decide), found (by decide), found (by decide), found (by decide),
    by decide, by decide⟩

/-! ## Witnesses: links and errors -/

/-- A failure at a place. -/
def failing (f : Sel → Sel) : State := { linked .up with sel := f Sel.none }

/-- A line of the L1 of core 0 with word 0 read and word 1 written, or a line of an L2 strip. -/
def l2With (dirty : Bool) : State := failing (fun q => { q with site := .l2Line 0 0 }) |> fun s =>
  { s with die0 := { s.die0 with l2 := [{ strip := 0, set := 0, dpa := 0, dirty := dirty }] } }

theorem witness_LinkAndErrorEvents_links :
    (∃ l, (linked .degraded).links[0]? = some l ∧ (l.state != .down) = true) ∧
    (∃ l, (linked .down).links[17]? = some l ∧ (l.state == .down && decide (4 ≤ l.lanes) && (linked .down).power == .active) = true) ∧
    reachedBy (linked .up) 0 = true ∧ reachedBy (linked .down) 0 = false ∧
    (∃ l, (linked .up).links[17]? = some l ∧ decide (l.lanes ≤ 4) = true) ∧
    (∃ l, (linked .up).links[17]?.map (fun l => { l with lanes := 5 }) = some l ∧ (decide (5 ≤ l.lanes) && l.state == .up) = true) ∧
    (let s := failing fun q => { q with failure := .transient, link := 17 }; s.sel.link < 18 ∧ s.sel.failure = .transient) ∧
    (let s := failing fun q => { q with failure := .header }; s.sel.failure = .header ∧ s.fabricDown = false) ∧
    (let s := failing fun q => { q with failure := .payload none }; s.sel.failure = .payload none) ∧
    (let s := { failing fun q => { q with failure := .payload (some 1) } with launches := [soloLaunch] }
     (((dropFlit (fenceLane s 0) 0 0 0).launch? 1).any fun l => l.admitted) = true) :=
  ⟨found (by decide), found (by decide), by decide, by decide, found (by decide), found (by decide), by decide, by decide, by decide, by decide⟩

theorem witness_LinkAndErrorEvents_bridge :
    (let s := failing fun q => { q with failure := .header, flag := true }
     s.sel.failure ≠ .transient ∧ s.failed = false ∧ s.sel.flag = true ∧
       (setNth s.bridgeFenced 0 (nth 0 s.bridgeFenced 0 + 1)).foldl (· + ·) 0 ≤ 8) ∧
    (let s := { failing (fun q => { q with failure := .header, flag := true }) with bridgeFenced := [4, 4] }
     s.sel.flag = true ∧ 8 < (setNth s.bridgeFenced 0 (nth 0 s.bridgeFenced 0 + 1)).foldl (· + ·) 0) ∧
    (failing fun q => { q with failure := .header }).sel.flag = false := by decide

theorem witness_LinkAndErrorEvents_errors :
    (let s := failing fun q => { q with site := .memLine 128 }; s.sel.site = .memLine 128 ∧ s.installed 128 = true) ∧
    (let s := { l1With 16#128 0 cGld.s with sel := { Sel.none with site := .l1Line 0 0 } }
     (s.core 0).l1[0]?.any (fun l => l.valid &&& ~~~l.ownWords != 0#32) = true) ∧
    ((l2With true).die 0).l2[0]?.any (fun l => l.dirty) = true ∧ ((l2With false).die 0).l2[0]?.any (fun l => !l.dirty) = true ∧
    (let s := failing fun q => { q with site := .coreState 511 }; s.sel.site = .coreState 511 ∧ s.fenced.contains 511 = false) ∧
    (failing fun q => { q with site := .service 0 0 5 0 }).sel.site = .service 0 0 5 0 := by decide

/-- A word of core 0's line that it has stored to, and one that it has not. -/
theorem witness_LinkAndErrorEvents_dirty : ([(0, true), (1, false)].all fun p =>
    let s := { l1With 1 0 cGld.s with sel := { Sel.none with site := .dirtyWord 0 0 p.1 } }
    s.sel.site == .dirtyWord 0 0 p.1 && !s.fenced.contains 0 && (s.core 0).l1[0]?.any fun l =>
      (l.dirty &&& wordBytes (1#32 <<< p.1) != 0#128) == p.2) = true := by decide

/-- A link that carries flits, while the fabric is up and while it is down, and one that does not. -/
theorem witness_LinkAndErrorEvents_flits : carries (failing fun q => { q with failure := .header }) 0 = true ∧
    carries { failing fun q => { q with failure := .header } with fabricDown := true } 0 = true ∧ carries (linked .down) 0 = false := by
  decide

/-- A service request of a CRED and of a peer, and a KV page. -/
theorem witness_LinkAndErrorEvents_requests :
    ([SvcRef.cred elem0, .peer 0 2 2 [7#32]].all fun r =>
      let s := { failing fun q => { q with site := .request 0 0 } with die0 := { Die.reset with svc := [{ strip := 4, since := 0, ref := r }] } }
      (s.sel.site == .request 0 0 && !s.sel.flag && ((s.die 0).svc[0]?).any fun x => x.ref == r)) = true ∧
    (let s := { failing fun q => { q with site := .kvPage 1 0 0 0 } with kvs := [paged_ [pageIn .resident]] }
     (s.kv? 1).any (fun k => (k.entry? 0 0 0).isSome) = true ∧ s.sel.flag = false) := by decide

/-! ## Witnesses: host port, power -/

/-- The aperture stands at address 0; its last byte is at offset 2^36 − 1. -/
def aperture (f : Sel → Sel) : State := selecting f { State.reset with aperture := some 0 }

/-- Sensor 40, one of those with the lower limit, reads r eighths of a degree. -/
def warm (level r : Nat) : State := selecting (fun q => { q with sensor := 40, value := BitVec.ofNat 64 r })
  { State.reset with sensorLevel := setNth (List.replicate 52 0) 40 level }

/-- A WINDOW_MODE of window 2 by port 0 awaits nothing any more. -/
def changing : State := { State.reset with modeChange := some { window := 2, awaiting := [], master := 1, slot := none } }

theorem witness_HostPortAndPowerEvents_doorbell :
    (let u := runSlot (selecting (fun q => { q with master := 1, value := 15#64 }) State.reset) { master := 1, slot := 15, pick := 0 }
     u.modeChange = none ∧ u.rung = []) ∧
    (lowWord 16#64).extractLsb' 4 28 ≠ 0#28 ∧ (lowWord 15#64).extractLsb' 4 28 = 0#28 := ⟨by decide +kernel, by decide, by decide⟩

/-- Registers and slots of BAR0: a slot that is free and one that is busy, the ends of the MSI-X table, and an aligned and an
unaligned place of the event ring's base; a doorbell of port 1. -/
theorem witness_HostPortAndPowerEvents_registers : let p := State.reset.port0
    p.slotBusy.getLsbD (0xFFFC / 4096) = false ∧ ({ p with slotBusy := 1#16 } : HostPort).slotBusy.getLsbD (0 / 4096) = true ∧
    0x303FC < 0x30400 ∧ 0x303FC % 4 = 0 ∧ (0x20000#64).extractLsb' 0 17 = 0x0#17 ∧ (1#64).extractLsb' 0 17 ≠ 0#17 ∧
    0x20002 % 4 ≠ 0 ∧ 0x20008 ∉ [0x1000C, 0x10010, 0x20000, 0x20004, 0x2000C, 0x20010, 0x20014] ∧ 0x20010 % 8 = 0 ∧
    (let s := selecting (fun q => { q with master := 2, value := 15#64 }) State.reset
     s.sel.master = 1 + 1 ∧ (s.port 1).slotBusy.getLsbD 15 = false ∧
       (runSlot (s.mapPort 1 fun p => { p with slotBusy := p.slotBusy ||| (1#16 <<< 15) }) { master := 2, slot := 15, pick := 0 }).rung = []) := by
  decide +kernel

theorem witness_HostPortAndPowerEvents :
    apertureAt (aperture id) (2 ^ 36 - 1) 1 = some (2 ^ 36 - 1) ∧ apertureAt (aperture id) 0 128 = some 0 ∧
    rangeSound (aperture id) 0 128 = true ∧ (aperture id).installed 0 = true ∧ (aperture id).installed (2 ^ 36 - 1) = true ∧
    (let s := { State.reset with cycle := 600000 }
     s.power = .active ∧ admittedCount s = 0 ∧ s.idleSince + 600000 ≤ s.cycle) ∧
    ((warm 0 680).sel.sensor < 52 ∧ (680 : Int) ≤ ((warm 0 680).sel.value.extractLsb' 0 16).toInt) ∧
    (680 + 80 : Int) ≤ ((warm 1 760).sel.value.extractLsb' 0 16).toInt ∧
    (680 + 160 : Int) ≤ ((warm 2 840).sel.value.extractLsb' 0 16).toInt ∧
    ((680 : Int) ≤ ((warm 1 759).sel.value.extractLsb' 0 16).toInt ∧ ((warm 1 759).sel.value.extractLsb' 0 16).toInt < 680 + 80) ∧
    ((680 : Int) ≤ ((warm 2 839).sel.value.extractLsb' 0 16).toInt ∧ ((warm 2 839).sel.value.extractLsb' 0 16).toInt < 680 + 160) ∧
    ((warm 1 679).sel.value.extractLsb' 0 16).toInt < (680 : Int) ∧ nth 0 (warm 1 679).sensorLevel 40 = 1 ∧
    (∀ n, n < 52 → (nth 0#16 State.reset.sensors n).toInt ≤ (if n < 40 then 760 else 680) - 40) ∧
    (State.reset.power ≠ .off ∧ State.reset.port0.slotBusy.getLsbD 15 = false ∧ State.reset.modeChange = none ∧ State.reset.rung = []) ∧
    (changing.modeChange ≠ none ∧ changing.port0.slotBusy.getLsbD 15 = false) := by decide

/-! ## Witnesses: commands -/

def bytes (ns : List Nat) : List Byte := ns.map (BitVec.ofNat 8)

/-- The owner of the module sends a payload. -/
def told (p : List Byte) (s : State) : State := selecting (fun q => { q with master := 1, bytes := p }) { s with owner := some 1 }

def accepts (s : State) (op : Nat) (p : List Byte) : Bool :=
  s.modeChange.isNone && lengthOk op p.length == some true && mayIssue s s.sel.master op p && !s.failed && !(s.power == .standby)

theorem accepts_of {s : State} {op : Nat} {p : List Byte} (h : accepts s op p = true) : Accepts s op p := by
  simp only [accepts, Bool.and_eq_true, beq_iff_eq, Bool.not_eq_true', beq_eq_false_iff_ne, Option.isNone_iff_eq_none] at h
  exact ⟨h.1.1.1.1, h.1.1.1.2, h.1.1.2, fun e => absurd e (by simp [h.1.2]), fun e => absurd e h.2⟩

/-- The payload is taken, and q holds of it in the state. -/
def takes (s : State) (op : Nat) (q : Bool) : Bool := accepts s op s.sel.bytes && q

theorem takes_of {s : State} {op : Nat} {q : Bool} (h : takes s op q = true) : Accepts s op s.sel.bytes ∧ q = true := by
  simp only [takes, Bool.and_eq_true] at h
  exact ⟨accepts_of h.1, h.2⟩

/-- A launch record of one block of one group, its code in the 64 KiB from 0x10000 and its region table at 0. -/
def recordBytes : List Byte :=
  bytesOfNat 8 0x10000 ++ bytesOfNat 4 4 ++ bytes [0, 2, 0, 0] ++ bytesOfNat 4 32 ++ bytesOfNat 4 0x24000001
    ++ List.replicate 24 0#8 ++ bytesOfNat 4 1 ++ bytesOfNat 4 1 ++ bytesOfNat 4 1 ++ bytesOfNat 4 0 ++ bytes [1, 0, 0, 0]
    ++ List.replicate 444 0#8

def loaded (s : State) : State :=
  { s with dram := s.dram.put 0 (bytesOfNat 8 0x10000 ++ bytesOfNat 8 0x10000 ++ bytesOfNat 8 0x10000 ++ bytes [0, 7, 0]) }

def running (ph : LaunchPhase) : State := { State.reset with launches := [{ soloLaunch with phase := ph }] }

theorem witness_LaunchAndPageCommands_query :
    Accepts (told (bytes [3, 0, 0, 0, 0, 0, 0, 0]) State.reset) 0x01 (told (bytes [3, 0, 0, 0, 0, 0, 0, 0]) State.reset).sel.bytes ∧
    (queryPage State.reset 3 0).toOption.isSome = true :=
  ⟨(takes_of (q := true) (by decide)).1, by decide⟩

theorem witness_LaunchAndPageCommands_launch :
    Accepts (told (recordBytes ++ bytes [0, 1, 0, 0, 0, 0, 0, 0]) (loaded State.reset)) 0x02
        (recordBytes ++ bytes [0, 1, 0, 0, 0, 0, 0, 0]) ∧
    (zeros (recordBytes ++ bytes [0, 1, 0, 0, 0, 0, 0, 0]) 0x202 6 && decide (field (recordBytes ++ bytes [0, 1, 0, 0, 0, 0, 0, 0]) 0x201 1 ≠ 0)
      && (launchRefusal (told [] (loaded State.reset)) recordBytes 0).isNone && freshId [] 0 == some 1) = true :=
  takes_of (s := told (recordBytes ++ bytes [0, 1, 0, 0, 0, 0, 0, 0]) (loaded State.reset)) (by decide +kernel)

/-- A command about launch 1, or about page 0 of region 31 of address space 1. -/
def about (ph : LaunchPhase) : State := told (bytes [1, 0, 0, 0]) (running ph)
def paged : State := told (bytes [1, 31, 0, 0, 0, 0, 0, 0]) State.reset

theorem witness_LaunchAndPageCommands :
    (Accepts (about .queued) 0x03 (about .queued).sel.bytes ∧ ((about .queued).launch? 1).any (fun l => l.phase == .queued) = true) ∧
    (Accepts (about .admitted) 0x03 (about .admitted).sel.bytes ∧
      ((about .admitted).launch? 1).any (fun l => l.phase == .admitted) = true) ∧
    (Accepts (about (.saved true)) 0x03 (about (.saved true)).sel.bytes ∧
      ((about (.saved true)).launch? 1).any (fun l => l.phase == .saved true) = true) ∧
    (Accepts (about .admitted) 0x04 (about .admitted).sel.bytes ∧ zeros (about .admitted).sel.bytes 2 2 = true) ∧
    (Accepts (about (.saved false)) 0x05 (about (.saved false)).sel.bytes ∧
      ((about (.saved false)).launch? 1).any (fun l => l.phase == .saved false) = true) ∧
    (Accepts paged 0x08 paged.sel.bytes ∧ decide (field paged.sel.bytes 0 1 ≠ 0 ∧ field paged.sel.bytes 1 1 ≤ 31) = true) ∧
    (Accepts paged 0x09 paged.sel.bytes ∧ zeros paged.sel.bytes 2 2 = true) ∧
    (Accepts (told (bytes [255, 0, 0, 0]) State.reset) 0x0A (told (bytes [255, 0, 0, 0]) State.reset).sel.bytes ∧
      zeros (bytes [255, 0, 0, 0]) 1 3 = true) :=
  ⟨takes_of (by decide), takes_of (by decide), takes_of (by decide), takes_of (by decide), takes_of (by decide), takes_of (by decide),
    takes_of (by decide), takes_of (by decide)⟩

/-- A module with a context, a route table, an exposed window, a registration and a peer's window behind link 0. -/
def furnished : State := { State.reset with
  kvs := [ctx0], routes := [{ id := 1, next := false, timeout := 100, dests := [] }]
  exposures := [{ window := 2, target := 0, length := 65536, rights := 3, mask := 8, fallBack := false, down := false
                  registrants := [] }]
  registrations := [{ device := 3, window := 2, length := 65536, rights := 3, fallBack := false, down := false }]
  peers := [{ device := 3, window := 63, length := 65536, rights := 3, fallBack := false, data := [] }]
  routeMap := List.replicate 256 [0], links := List.replicate 18 { state := .up, lanes := 8, transient := 0#16, key := 0#64 } }

def kvBytes : List Byte :=
  bytesOfNat 4 1048576 ++ bytesOfNat 2 256 ++ bytesOfNat 2 256 ++ bytesOfNat 4 4194304 ++ bytesOfNat 2 0 ++ bytesOfNat 2 256
    ++ bytesOfNat 2 256 ++ bytes [16, 0] ++ bytesOfNat 4 1

theorem witness_ObjectCommands_kv :
    (Accepts (told kvBytes State.reset) 0x10 (told kvBytes State.reset).sel.bytes ∧
      (zeros kvBytes 0x13 1 && kvLimits kvBytes && (freshId [] 0).isSome) = true) ∧
    (Accepts (told (bytes [1, 0, 0, 0]) furnished) 0x11 (told (bytes [1, 0, 0, 0]) furnished).sel.bytes ∧
      (furnished.kvs.any (fun k => k.id == 1) && !named furnished fun r => r.kvContext == 1) = true) ∧
    (Accepts (told (bytes [1, 0, 0, 0, 1, 0, 0, 0]) furnished) 0x12 (told (bytes [1, 0, 0, 0, 1, 0, 0, 0]) furnished).sel.bytes ∧
      (furnished.kv? 1).any (fun k => decide (k.entries.length + k.held ≤ 1)) = true) :=
  ⟨takes_of (by decide), takes_of (by decide), takes_of (by decide)⟩

def destBytes : List Byte := bytes [1, 0, 0, 0, 1, 0, 0, 0] ++ bytes [7] ++ List.replicate 15 0#8

theorem witness_ObjectCommands_routes :
    (Accepts (told (bytes [1, 0, 0, 0, 1, 0, 0, 0]) State.reset) 0x18 (told (bytes [1, 0, 0, 0, 1, 0, 0, 0]) State.reset).sel.bytes ∧
      (freshId [] 0).isSome = true) ∧
    (Accepts (told destBytes furnished) 0x19 (told destBytes furnished).sel.bytes ∧
      (furnished.routes.any (fun t => t.id == 1) && (setDests destBytes 1 8 []).toOption.isSome) = true) ∧
    (Accepts (told (bytes [1, 0, 0, 0]) furnished) 0x1A (told (bytes [1, 0, 0, 0]) furnished).sel.bytes ∧
      (furnished.routes.any (fun t => t.id == 1) && !named furnished fun r => r.routeTable == 1) = true) :=
  ⟨takes_of (by decide), takes_of (by decide), takes_of (by decide)⟩

def exposeBytes : List Byte := bytes [63, 7, 0, 0] ++ bytesOfNat 4 65536 ++ bytesOfNat 8 0 ++ List.replicate 32 0xFF#8

/-- Window 2 stays exposed but is DOWN; or device 3, which can be reached, has registered it. -/
def downed : State := { furnished with exposures := furnished.exposures.map fun e => { e with window := 63, down := true } }
def registered : State := { furnished with exposures := furnished.exposures.map fun e => { e with registrants := [3] } }

theorem witness_ObjectCommands_modes :
    (Accepts (told exposeBytes downed) 0x20 (told exposeBytes downed).sel.bytes ∧
      (rangeInstalled downed 0 (65536 * 65536) && !downed.fabricDown && downed.exposures.all fun e => e.window == 63 && e.down) = true) ∧
    (Accepts (told (bytes [2, 1, 0, 0]) registered) 0x22 (told (bytes [2, 1, 0, 0]) registered).sel.bytes ∧
      (registrantsOf registered 2 == [3] && registered.exposures.any fun e => e.window == 2) = true) ∧
    (changing.modeChange.any (fun c => c.awaiting.isEmpty && c.slot.isNone) && changing.rung.isEmpty) = true ∧
    (receiveModeAck { State.reset with modeChange := some { window := 2, awaiting := [3], master := 1, slot := none } } 3 2).modeChange =
      changing.modeChange ∧ registrantsOf furnished 2 = [] :=
  ⟨takes_of (by decide +kernel), takes_of (by decide), by decide, by decide, by decide⟩

theorem witness_ObjectCommands_windows :
    (Accepts (told exposeBytes furnished) 0x20 (told exposeBytes furnished).sel.bytes ∧
      (rangeInstalled furnished 0 (65536 * 65536) && !furnished.fabricDown && furnished.exposures.all fun e => e.window != 63) = true) ∧
    (Accepts (told (bytes [3, 63, 0, 0]) furnished) 0x21 (told (bytes [3, 63, 0, 0]) furnished).sel.bytes ∧
      (!unreachable furnished 3 && furnished.peers.any fun x => x.device == 3 && x.window == 63) = true) ∧
    (Accepts (told (bytes [2, 1, 0, 0]) furnished) 0x22 (told (bytes [2, 1, 0, 0]) furnished).sel.bytes ∧
      furnished.exposures.any (fun e => e.window == 2) = true) ∧
    (Accepts (told (bytes [0, 0, 2, 0]) furnished) 0x23 (told (bytes [0, 0, 2, 0]) furnished).sel.bytes ∧
      furnished.exposures.any (fun e => e.window == 2) = true) ∧
    (Accepts (told (bytes [1, 3, 2, 0]) furnished) 0x23 (told (bytes [1, 3, 2, 0]) furnished).sel.bytes ∧
      furnished.registrations.any (fun r => r.device == 3 && r.window == 2) = true) :=
  ⟨takes_of (by decide), takes_of (by decide), takes_of (by decide), takes_of (by decide), takes_of (by decide)⟩

def fabricBytes : List Byte := bytes [9, 0, 0, 0, 0, 0, 0, 0] ++ bytesOfNat 8 5 ++ (List.range 256).flatMap fun _ => bytes [17, 255, 255, 255]

theorem witness_ObjectCommands_module :
    (Accepts (told (bytes [3, 0, 0, 0, 0, 0, 0, 0]) State.reset) 0x28 (told (bytes [3, 0, 0, 0, 0, 0, 0, 0]) State.reset).sel.bytes ∧
      ((bytes [3, 0, 0, 0, 0, 0, 0, 0]).all (fun b => decide (b.toNat ≤ 3)) && State.reset.launches.isEmpty) = true) ∧
    (Accepts (told [] State.reset) 0x2A (told [] State.reset).sel.bytes ∧ (!State.reset.fabricDown) = true) ∧
    (Accepts (told (bytesOfNat 8 (2 ^ 64 - 1)) State.reset) 0x2B (told (bytesOfNat 8 (2 ^ 64 - 1)) State.reset).sel.bytes ∧
      field (bytesOfNat 8 (2 ^ 64 - 1)) 0 8 == 2 ^ 64 - 1) ∧
    (Accepts (told (bytesOfNat 8 (2 ^ 36)) State.reset) 0x2B (told (bytesOfNat 8 (2 ^ 36)) State.reset).sel.bytes ∧
      (field (bytesOfNat 8 (2 ^ 36)) 0 8 % 2 ^ 36 == 0 && decide (field (bytesOfNat 8 (2 ^ 36)) 0 8 < 2 ^ 47)) = true) :=
  ⟨takes_of (by decide), takes_of (by decide), takes_of (by decide), takes_of (by decide)⟩

theorem witness_ObjectCommands_fabric : Accepts (told fabricBytes State.reset) 0x29 (told fabricBytes State.reset).sel.bytes ∧
    (zeros fabricBytes 1 7 && unreachable State.reset 9 &&
      (List.range 256).all fun d => (mapEntry fabricBytes d).all fun n => decide (n ≤ 17) || n == 255) = true :=
  takes_of (by decide +kernel)

/-- An unowned module, and a master that is offered it. -/
def unowned (m : Nat) (p : List Byte) (offer : Option Nat) : State :=
  selecting (fun q => { q with master := m, bytes := p }) { State.reset with offer := offer }

theorem witness_OwnerSecurityAndPowerCommands :
    (Accepts (unowned 1 [] none) 0x30 (unowned 1 [] none).sel.bytes ∧ (unowned 1 [] none).owner = none) ∧
    Accepts (told (bytes [3, 0, 0, 0]) State.reset) 0x31 (told (bytes [3, 0, 0, 0]) State.reset).sel.bytes ∧
    (Accepts (unowned 2 [] (some 2)) 0x32 (unowned 2 [] (some 2)).sel.bytes ∧ (unowned 2 [] (some 2)).offer = some 2) ∧
    Accepts (unowned 3 [] none) 0x30 (unowned 3 [] none).sel.bytes ∧
    Accepts (unowned 3 [] (some 3)) 0x32 (unowned 3 [] (some 3)).sel.bytes ∧
    Accepts (told [] State.reset) 0x33 (told [] State.reset).sel.bytes ∧
    Accepts (told [] State.reset) 0x40 [0#8, 0#8, 0#8, 0#8] ∧ Accepts (unowned 0 [] none) 0x40 [1#8, 0#8, 0#8, 0#8] ∧
    Accepts (told [] State.reset) 0x41 ([0#8, 0#8] ++ bytesOfNat 2 600) ∧
    Accepts (told [] State.reset) 0x41 ([2#8, 0#8] ++ bytesOfNat 2 1500) ∧ standbyBusy (told [] State.reset) = false :=
  ⟨⟨accepts_of (by decide), rfl⟩, accepts_of (by decide), ⟨accepts_of (by decide), rfl⟩, accepts_of (by decide), accepts_of (by decide),
    accepts_of (by decide), accepts_of (by decide), accepts_of (by decide), accepts_of (by decide), accepts_of (by decide), by decide⟩

/-- An SPDM message by each of the two ways, one whose answer is short, and chunks of a patch table. -/
theorem witness_OwnerSecurityAndPowerCommands_spdm :
    Accepts (unowned 3 (bytes [0, 0, 0, 0]) none) 0x38 (unowned 3 (bytes [0, 0, 0, 0]) none).sel.bytes ∧
    Accepts (unowned 3 [] none) 0x38 (spdmRequest 0x84 []) ∧ (spdmMessage State.reset 3 (spdmRequest 0x84 [])).length ≤ 4064 ∧
    field (spdmRequest 0xE4 []) 1 1 = 0xE4 ∧ field (spdmRequest 0x81 []) 1 1 = 0x81 ∧
    (Accepts (unowned 0 (bytes [0, 0, 0, 0, 0, 0, 0, 0, 9]) none) 0x39 (unowned 0 (bytes [0, 0, 0, 0, 0, 0, 0, 0, 9]) none).sel.bytes ∧
      State.reset.launchRun = false ∧ State.reset.patch = none) ∧
    Accepts (unowned 0 (bytes [0, 0, 0, 0, 1, 0, 0, 0, 9]) none) 0x39 (unowned 0 (bytes [0, 0, 0, 0, 1, 0, 0, 0, 9]) none).sel.bytes :=
  ⟨accepts_of (by decide), accepts_of (by decide), by decide, by decide, by decide, ⟨accepts_of (by decide), rfl, rfl⟩, accepts_of (by decide)⟩

/-- A wrong LENGTH, a master that does not own the module, and a module in STANDBY. -/
theorem witness_CommandChecksComeFirst : commandForm State.reset .kill = some (0x03, State.reset.sel.bytes) ∧
    lengthOk 0x03 State.reset.sel.bytes.length ≠ some true ∧
    (lengthOk 0x03 4 = some true ∧ mayIssue State.reset 1 0x03 [0#8, 0#8, 0#8, 0#8] = false) ∧
    mayIssue { State.reset with owner := some 1, power := .standby } 1 0x03 [0#8, 0#8, 0#8, 0#8] = true ∧
    mayIssue { State.reset with owner := some 1, failed := true } 1 0x03 [0#8, 0#8, 0#8, 0#8] = true ∧
    changing.modeChange ≠ none ∧ State.reset.modeChange = none :=
  ⟨rfl, by decide, by decide, by decide, by decide, by decide, rfl⟩

/-! ## Witnesses: steps and the whole module -/

/-- The state that `withFetchWord` gives is one that the next step fetches from. -/
def fetched (c : Code) : State := State.reset.withFetchWord 64 (c.b.toNat + 2 ^ 32 * c.x.toNat)

/-- The same before the run has been checked. -/
def reached (c : Code) : State := (fetched c).mapCore 0 fun (k : Core) =>
  k.mapSched 0 fun (y : Scheduler) => { y with run := y.run.map fun (r : Run) => { r with checked := 0#32 } }

/-- The head of the agenda issues from scheduler 0, whose run stands before a word, and p holds. -/
def before (s : State) (p : Issuer → Bool) : Bool := s.agenda == [.issue 0 0] && s.power != .off &&
  (issuer { s with agenda := [], focus := .group 0 0 }).any fun x =>
    x.g.wait == .none && x.run.exec != 0#64 && !x.run.mustChain && !x.run.atEnd && p x

def nextOf (x : Issuer) : Decoded := decode (hdrClass x.run.hdr) (x.run.wordAt x.run.pos) (x.run.wordAt (x.run.pos + 4#32))

/-- A word of an opcode of class V that no instruction has. -/
def cUnassigned : Code := ⟨.v, 0b1111111_0_000_0000000_0000000_0000000#32, 0#32⟩

theorem witness_StepRunsDecodedInstruction : (fetched cIadd).agenda = [.issue 0 0] ∧ (fetched cIadd).power ≠ .off ∧
    before (fetched cIadd) (fun x => hdrClass x.run.hdr != .x && decide (x.run.pos < x.run.checked) && nextOf x == .ok cIadd.i) = true ∧
    before (reached cIadd) (fun x => hdrClass x.run.hdr != .x && !decide (x.run.pos < x.run.checked) &&
      (groupFailure (checkEnv x.g x.l) [] (groupWords x.run)).isNone && nextOf x == .ok cIadd.i) = true ∧
    before (fetched cUnassigned) (fun x => hdrClass x.run.hdr != .x && decide (x.run.pos < x.run.checked) && nextOf x == .unassigned) = true ∧
    before cMm.s (fun x => hdrClass x.run.hdr == .x) = true ∧
    ({ State.reset with agenda := [.event .resetPin Sel.none] } : State).agenda = [.event .resetPin Sel.none] :=
  ⟨by decide, by decide, by decide, by decide, by decide, by decide, rfl⟩

/-- The group of words that the run reaches fails with a failure, at word ix. -/
def failsAt (c : Code) (ix : Nat) (f : Failure) : Bool := before (reached c) fun x => hdrClass x.run.hdr != .x && !decide (x.run.pos < x.run.checked)
  && groupFailure (checkEnv x.g x.l) [] (groupWords x.run) == some (ix, f) && !viewPending x.g x.run ix

/-- The environment of a launch that holds no barrier, ring, table or context. -/
def bare : CheckEnv := checkEnv (freshGroup soloLaunch 0 0 []) soloLaunch

/-- ICMP with D as given. -/
def icmpOf (d : BitVec 7) : Instr := .icmp ⟨0, d, 1, 2⟩ (.r ⟨false, false, false, false, 2, 0, 0, 0, false, 0⟩)

theorem witness_FailedChecksTrap : failsAt { cIcmp with b := 0b0100000_1_000_0010000_0000001_0000010#32 } 0 (.enc 0xD) = true ∧
    failsAt cRingw 0 .ring = true ∧
    (infoOf bare (icmpOf 0x79)).bad7 = true ∧ ownFailure bare false (.ok (.iaddLong ⟨0, 3, 64, 2⟩ (.r ⟨false, true, true, true, 3, 0, 0, 0, false, 0⟩))) = some (.enc 0x9) ∧
    (infoOf bare (icmpOf 16)).p0 = true ∧ ownFailure bare false (.ok cBara.i) = some (.enc 0xE) ∧
    ownFailure bare false (.ok cRingw.i) = some .ring ∧ ownFailure bare false (.ok cBra.i) = some (.enc 0xC) ∧
    groupFailure bare [] [(0, false, .ok cIadd.i), (2, true, .illegal 5)] = some (2, .enc 5) ∧
    groupFailure bare [] [(0, false, .ok cIadd.i), (2, true, .ok (.mov ⟨0, 4, 3, 0⟩))] = some (2, .enc 0xA) ∧
    (∃ code, (readRun astray 0 soloLaunch 16).toOption = some code ∧ (checkRun 64 16 0 code == .enc 0x1 false 0#32) = true) ∧
    hdrCount 0#32 = 0 ∧ (hdrCount 0x10000001#32 ≠ 0 ∧ (0x10000001#32).getLsbD 0 = true) :=
  ⟨by decide, by decide, by decide, by decide, by decide, by decide, by decide, by decide, by decide, by decide, found (by decide),
    by decide, by decide⟩

/-- A step of the state that holds IADD V3, V1, V2: the group's PCs stand behind it, and a cycle has passed. -/
theorem test_step_runs_the_word : (match step (fetched cIadd) with
    | .next t => t.cycle == 1 && t.agenda.isEmpty && ((t.core 0).sched 0).run.isNone
        && (t.group? 0 0).any fun g => g.lpc.all fun p => p == 12#32
    | _ => false) = true := by decide +kernel

theorem witness_EncodedInstructionDecodesToItself : cIadd.i.opcode = some (.v, 0#7) ∧ cIadd.i.canonical = true := by decide

theorem witness_DecodedWordsEncodeBack : ∃ i, decode .v cIadd.b cIadd.x = .ok i := ⟨_, rfl⟩

theorem stepped {s : State} (h : (match step s with | .next _ => true | _ => false) = true) : ∃ t, step s = .next t := by
  split at h
  · rename_i t ht
    exact ⟨t, ht⟩
  · cases h

theorem witness_EveryStepLeavesTheModuleSettled : Settled (fetched cIadd) ∧ ∃ t, step (fetched cIadd) = .next t := by
  refine ⟨.inr ⟨fun d hd f hf => ?_, fun l hl auto ha => ?_⟩, stepped (by decide +kernel)⟩
  · rcases d with _ | _ | d
    · cases hf
    · cases hf
    · omega
  · rw [show (fetched cIadd).launches = [soloLaunch] from rfl, List.mem_singleton] at hl
    subst hl
    cases ha

/-- A module without power, with a step of its own to take, and with none. -/
theorem witness_ResetAndOffModule : (let s := { State.reset with power := .off, agenda := [.issue 0 0] }
      s.power = .off ∧ s.agenda = [.issue 0 0] ∧ (Move.issue 0 0).resets = false) ∧
    (let s := { State.reset with power := .off }; s.power = .off ∧ s.agenda = []) ∧
    State.reset.cores = [] ∧ State.reset.die0.out = [] ∧ State.reset.die1.out = [] := by decide
end Sys2Proof.Tests
end

section
/-! PROOF. Lists, lane masks and lanes: an element read after the list has been changed in some lanes. -/

namespace Sys2Proof.Machine

/-! ## Elements of lists -/

theorem nth_eq_getElem? {α : Type} (d : α) : ∀ (xs : List α) (i : Nat), nth d xs i = xs[i]?.getD d
  | [], _ => rfl
  | _ :: _, 0 => rfl
  | _ :: xs, i + 1 => by rw [nth, nth_eq_getElem? d xs i, List.getElem?_cons_succ]

theorem nth_of_getElem? {α : Type} {d y : α} {xs : List α} {i : Nat} (h : xs[i]? = some y) : nth d xs i = y := by
  rw [nth_eq_getElem?, h, Option.getD_some]

theorem getElem?_setNth_same {α : Type} : ∀ {xs : List α} {i : Nat} (y : α), i < xs.length → (setNth xs i y)[i]? = some y
  | [], _, _, h => absurd h (Nat.not_lt_zero _)
  | _ :: _, 0, _, _ => rfl
  | _ :: xs, _ + 1, y, h => getElem?_setNth_same (xs := xs) y (by simpa using h)

theorem getElem?_setNth_other {α : Type} : ∀ (xs : List α) {i j : Nat} (y : α), j ≠ i → (setNth xs i y)[j]? = xs[j]?
  | [], _, _, _, _ => rfl
  | _ :: _, 0, 0, _, h => absurd rfl h
  | _ :: _, 0, _ + 1, _, _ => rfl
  | _ :: _, _ + 1, 0, _, _ => rfl
  | _ :: xs, _ + 1, _ + 1, y, h => getElem?_setNth_other xs y fun e => h (congrArg (· + 1) e)

/-! ## Lane masks -/

theorem getLsbD_foldl_or (ls : List Nat) : ∀ (m : LaneMask) {l : Nat}, l < 64 →
    (ls.foldl (fun m l => m ||| (1#64 <<< l)) m).getLsbD l = (m.getLsbD l || ls.contains l) := by
  induction ls with
  | nil => simp
  | cons k ls ih =>
    intro m l hl
    rw [List.foldl_cons, ih _ hl, List.contains_cons, BitVec.getLsbD_or, Bool.or_assoc]
    congr 2
    simp only [BitVec.getLsbD_shiftLeft, BitVec.getLsbD_one, hl]
    grind

/-- The lanes of a mask made of lanes. -/
theorem getLsbD_maskOf (ls : List Nat) {l : Nat} (h : l < 64) : (maskOf ls).getLsbD l = ls.contains l := by
  rw [maskOf, getLsbD_foldl_or ls _ h, BitVec.getLsbD_zero, Bool.false_or]

theorem getLsbD_maskBy (p : Nat → Bool) {l : Nat} (h : l < 64) : (maskBy p).getLsbD l = p l := by
  rw [maskBy, getLsbD_maskOf _ h, Bool.eq_iff_iff]
  simp [h]

theorem nodup_lanesOf (m : LaneMask) : (lanesOf m).Nodup := List.nodup_range.filter _

/-! ## Changes by lane -/

theorem getElem?_mapLanes {α : Type} (m : LaneMask) (f : Nat → α → α) (xs : List α) (l : Nat) :
    (mapLanes m f xs)[l]? = xs[l]?.map fun x => if m.getLsbD l then f l x else x := List.getElem?_mapIdx

@[simp] theorem length_mapLanes {α : Type} (m : LaneMask) (f : Nat → α → α) (xs : List α) :
    (mapLanes m f xs).length = xs.length := List.length_mapIdx

theorem nth_mapLanes {α : Type} (d : α) (m : LaneMask) (f : Nat → α → α) {xs : List α} {l : Nat} (h : l < xs.length) :
    nth d (mapLanes m f xs) l = if m.getLsbD l then f l (nth d xs l) else nth d xs l := by
  simp [nth_eq_getElem?, getElem?_mapLanes, List.getElem?_eq_getElem h]

theorem nth_mapLanes_other {α : Type} (d : α) {m : LaneMask} (f : Nat → α → α) (xs : List α) {l : Nat}
    (h : m.getLsbD l = false) : nth d (mapLanes m f xs) l = nth d xs l := by
  simp [nth_eq_getElem?, getElem?_mapLanes, h]

@[simp] theorem mapLanes_zero {α : Type} (f : Nat → α → α) (xs : List α) : mapLanes 0#64 f xs = xs := by
  ext1 l
  simp [getElem?_mapLanes]

end Sys2Proof.Machine
end

section
/-! PROOF. The system instructions: special registers, MODE and SLEEP (01 Table 1.7, 06 R264, R265, R268). -/

namespace Sys2Proof.Machine

/-! ## What exec calls -/

theorem exec_sread (w : Base) (e : ExtC) (s : State) : exec (.sread w e) s = sread s (.sread w e) w e := rfl
theorem exec_swrite (w : Base) (e : ExtC) (s : State) : exec (.swrite w e) s = swrite s (.swrite w e) w e := rfl
theorem exec_mode (w : Base) (e : ExtC) (s : State) : exec (.mode w e) s = setMode s (.mode w e) w e := rfl
theorem exec_sleep (w : Base) (e : ExtC) (s : State) : exec (.sleep w e) s = sleep s (.sleep w e) w e := rfl
theorem exec_sleepExpire (s : State) : exec .sleepExpire s = execSleepExpire s := rfl

theorem toNat_extractLsb'_byte {n : Nat} (v : BitVec n) : (v.extractLsb' 0 8).toNat = v.toNat % 256 := by
  simp [BitVec.extractLsb'_toNat]

/-- A change of a group that stands there is told by its value at that group. -/
theorem Core.mapGroup_congr {c : Core} {k : Nat} {g : Group} {f f' : Group → Group} (hg : c.group? k = some g)
    (h : f g = f' g) : c.mapGroup k f = c.mapGroup k f' := by
  simp [Core.mapGroup, hg, h]

theorem State.mapGroup_congr {s : State} {n k : Nat} {g : Group} {f f' : Group → Group} (hg : s.group? n k = some g)
    (h : f g = f' g) : s.mapGroup n k f = s.mapGroup n k f' :=
  congrArg (s.setCore n) (Core.mapGroup_congr hg h)

/-! ## Special registers -/

/-- SREAD writes the entry, and a read of OPLOG moves its position on (R264). -/
theorem sread_executes {s : State} {x : Issuer} {w : Base} {e : ExtC} (h : Executes s x (.sread w e)) :
    let n := e.imm.toNat % 256
    exec (.sread w e) s = .next (goesOn
      (if srLane n then
        let t := vsets s x ((lanesOf (activeOf x (.sread w e))).flatMap fun l =>
          laneWrites (n == 0x18 || n == 0x19) w.d.toNat l (sreadLane x.g n l).toNat)
        if n = 0x0E then t.mapGroup x.core x.slot fun g =>
          { g with handler := g.handler.map fun h => { h with readPos := h.readPos + 1 } } else t
       else sset s x w.d.toNat (sreadGroup s x n)) x (.sread w e)) := by
  rw [exec_sread, sread, runInstr_executes h]
  simp only [toNat_extractLsb'_byte]
  split <;> rfl

/-- TRAP_CAUSE holds each field of the trap at its place (10 Table 10.2). -/
theorem Trap.causeWord_fields (t : Trap) :
    t.causeWord.extractLsb' 0 8 = BitVec.ofNat 8 t.cause.code ∧ t.causeWord.extractLsb' 8 4 = t.word ∧
    t.causeWord.getLsbD 12 = t.chain ∧ t.causeWord.getLsbD 13 = t.lanef ∧ t.causeWord.extractLsb' 14 2 = 0#2 ∧
    t.causeWord.extractLsb' 16 4 = t.reason ∧ t.causeWord.extractLsb' 20 4 = BitVec.ofNat 4 t.origin.code ∧
    t.causeWord.extractLsb' 24 2 = t.ctx ∧ t.causeWord.extractLsb' 26 6 = t.lane ∧
    t.causeWord.extractLsb' 32 32 = t.info := by
  unfold Trap.causeWord
  refine ⟨?_, ?_, ?_, ?_, ?_, ?_, ?_, ?_, ?_, ?_⟩ <;>
    simp (disch := omega) only [extractAbove, extractLow, extractAll, bitAbove, bitBelow, bitOfBool, Nat.reduceSub, Nat.sub_self]

/-- LFR bits 63:0 hold each field of the record at its place (01 Table 1.3). -/
theorem Lfr.lo_fields (r : Lfr) :
    r.lo.extractLsb' 0 8 = r.cause ∧ r.lo.getLsbD 8 = r.valid ∧ r.lo.extractLsb' 9 7 = 0#7 ∧
    r.lo.extractLsb' 16 16 = r.detail ∧ r.lo.extractLsb' 32 32 = r.pc := by
  unfold Lfr.lo
  refine ⟨?_, ?_, ?_, ?_, ?_⟩ <;>
    simp (disch := omega) only [extractAbove, extractLow, extractAll, bitAbove, bitBelow, bitOfBool, Nat.reduceSub, Nat.sub_self]

/-- The bytes of a word, and what lies above the lowest four, from its value as a sum of bytes by place. -/
theorem fourBytes_fields {v : DWord} {b0 b1 b2 b3 : Nat} (h0 : b0 < 256) (h1 : b1 < 256) (h2 : b2 < 256) (h3 : b3 < 256)
    (hv : v.toNat = b0 + b1 * 256 + b2 * 65536 + b3 * 16777216) :
    (v.extractLsb' 0 8).toNat = b0 ∧ (v.extractLsb' 8 8).toNat = b1 ∧ (v.extractLsb' 16 8).toNat = b2 ∧
    (v.extractLsb' 24 8).toNat = b3 ∧ v.extractLsb' 32 32 = 0#32 := by
  refine ⟨?_, ?_, ?_, ?_, BitVec.eq_of_toNat_eq ?_⟩ <;>
    simp only [BitVec.extractLsb'_toNat, Nat.shiftRight_eq_div_pow, BitVec.toNat_ofNat, hv] <;> omega

/-- The byte that WINMAP gives for a window entry. -/
def winByte : Option Nat → Nat
  | some t => t
  | none => 0xFF

theorem winmapWord_eq (win : List (Option Nat)) :
    winmapWord win = BitVec.ofNat 64 ((win.mapIdx fun e t => winByte t * 2 ^ (8 * e)).foldl (· + ·) 0) := by
  rw [winmapWord]
  congr 3

theorem foldl_mapIdx_four {α : Type} (f : Nat → α → Nat) (a b c d : α) :
    ([a, b, c, d].mapIdx f).foldl (· + ·) 0 = 0 + f 0 a + f 1 b + f 2 c + f 3 d := by
  simp

theorem winmapWord_toNat {a b c d : Option Nat} (ha : winByte a < 256) (hb : winByte b < 256) (hc : winByte c < 256)
    (hd : winByte d < 256) :
    (winmapWord [a, b, c, d]).toNat = winByte a + winByte b * 256 + winByte c * 65536 + winByte d * 16777216 := by
  rw [winmapWord_eq, foldl_mapIdx_four, BitVec.toNat_ofNat]
  omega

/-- WINMAP gives each entry its byte, and 0 above the four (01 Table 1.7). -/
theorem winmapWord_fields {win : List (Option Nat)} (hl : win.length = 4) (ht : ∀ t ∈ win, ∀ n, t = some n → n < 64)
    {e : Nat} (he : e < 4) :
    ((winmapWord win).extractLsb' (8 * e) 8).toNat = (match win[e]? with | some (some t) => t | _ => 0xFF) ∧
    (winmapWord win).extractLsb' 32 32 = 0#32 := by
  obtain ⟨a, b, c, d, rfl⟩ : ∃ a b c d, win = [a, b, c, d] := by
    match win, hl with
    | [a, b, c, d], _ => exact ⟨a, b, c, d, rfl⟩
  have small : ∀ t ∈ [a, b, c, d], winByte t < 256 := by
    intro t h
    match t, ht t h with
    | none, _ => decide
    | some n, h => exact (h n rfl).trans (by decide)
  have ha := small a (by simp)
  have hb := small b (by simp)
  have hc := small c (by simp)
  have hd := small d (by simp)
  obtain ⟨h0, h1, h2, h3, h4⟩ := fourBytes_fields ha hb hc hd (winmapWord_toNat ha hb hc hd)
  refine ⟨?_, h4⟩
  match e, he with
  | 0, _ => rw [h0]; cases a <;> rfl
  | 1, _ => rw [h1]; cases b <;> rfl
  | 2, _ => rw [h2]; cases c <;> rfl
  | 3, _ => rw [h3]; cases d <;> rfl

/-- The entry of a level index (01 R33). -/
theorem sreadGroup_level (s : State) (x : Issuer) {k : Nat} (h : k < 8) :
    sreadGroup s x (0x10 + k) = BitVec.ofNat 64 (levelIndex x.l.rec_ x.g.block x.g.index k) := by
  match k, h with
  | 0, _ | 1, _ | 2, _ | 3, _ | 4, _ | 5, _ | 6, _ | 7, _ => rfl

theorem levelIndex_above {r : LaunchRec} {k : Nat} (block group : Nat) (h : r.nlevels ≤ k + 1) :
    levelIndex r block group k = 0 := if_pos h

theorem levelIndex_group {r : LaunchRec} (block group : Nat) (h : 1 < r.nlevels) : levelIndex r block group 0 = group :=
  if_neg (Nat.not_le.2 h)

theorem levelIndex_inner {r : LaunchRec} {k : Nat} {v : Level} (block group : Nat) (h1 : 1 ≤ k) (hk : k + 1 < r.nlevels)
    (hv : r.levels[k + 1]? = some v) : levelIndex r block group k = if v.domain = 6 then r.domainIndex
      else nth 0 (digits ((innerLevels r).map fun v => v.extent) block) (k - 1) := by
  rw [levelIndex, if_neg (Nat.not_le.2 hk), if_neg (Nat.one_le_iff_ne_zero.1 h1), hv]
  rfl

/-! ## SWRITE -/

/-- What SWRITE of entry n writes in a group: the lanes of m, each with its value. -/
def swriteGroup (n : Nat) (m : LaneMask) (v : Nat → Word) (g : Group) : Group :=
  if n = 0x18 then
    { g with lfr := mapLanes (maskBy fun l => m.getLsbD l && (v l).getLsbD 8) (fun _ r => { r with valid := false }) g.lfr
             faultLog := mapLanes (maskBy fun l => m.getLsbD l && (v l).getLsbD 8) (fun _ _ => none) g.faultLog }
  else { g with lpc := mapLanes m (fun l _ => pcWord (v l)) g.lpc }

theorem swriteGroup_frame (n : Nat) (m : LaneMask) (v : Nat → Word) (g : Group) :
    swriteGroup n m v g =
      { g with lfr := (swriteGroup n m v g).lfr, faultLog := (swriteGroup n m v g).faultLog, lpc := (swriteGroup n m v g).lpc } := by
  unfold swriteGroup
  split <;> rfl

/-- LFR_LO's VALID is write-1-to-clear, and drops the fault entry (R264, 10 R348). -/
theorem swriteGroup_lfr {m : LaneMask} {v : Nat → Word} {g : Group} {l : Nat} (hl : l < 64) (hf : l < g.faultLog.length) :
    nth none (swriteGroup 0x18 m v g).faultLog l =
      (if m.getLsbD l ∧ (v l).getLsbD 8 then none else nth none g.faultLog l) ∧
    (swriteGroup 0x18 m v g).lpc = g.lpc ∧
    ∀ r, g.lfr[l]? = some r → (swriteGroup 0x18 m v g).lfr[l]? =
      some (if m.getLsbD l ∧ (v l).getLsbD 8 then { r with valid := false } else r) := by
  simp only [swriteGroup, if_true, nth_mapLanes _ _ _ hf, getElem?_mapLanes, getLsbD_maskBy _ hl, Bool.and_eq_true]
  exact ⟨trivial, trivial, fun r hr => by rw [hr, Option.map_some]⟩

/-- LPC of the frame, with bits 1:0 zero (R264). -/
theorem swriteGroup_lpc {m : LaneMask} {v : Nat → Word} {g : Group} {l : Nat} (hp : l < g.lpc.length) :
    nth 0#32 (swriteGroup 0x1A m v g).lpc l = (if m.getLsbD l then v l &&& ~~~3#32 else nth 0#32 g.lpc l) ∧
    (swriteGroup 0x1A m v g).lfr = g.lfr ∧ (swriteGroup 0x1A m v g).faultLog = g.faultLog := by
  refine ⟨?_, rfl, rfl⟩
  exact nth_mapLanes 0#32 m (fun l _ => pcWord (v l)) hp

theorem swrite_executes {s : State} {x : Issuer} {w : Base} {e : ExtC} (h : Executes s x (.swrite w e)) :
    exec (.swrite w e) s = .next (goesOn (s.mapGroup x.core x.slot (swriteGroup (e.imm.toNat % 256)
      (activeOf x (.swrite w e)) fun l => if e.sa then lowWord (x.g.sreg w.a.toNat) else vget s x w.a.toNat l)) x
        (.swrite w e)) := by
  rw [exec_swrite, swrite, runInstr_executes h]
  simp only [toNat_extractLsb'_byte]
  rfl

/-! ## MODE and SLEEP -/

/-- A bit of MODE is replaced where the mask of the low five names it (R265). -/
theorem getLsbD_modeWith (old : Word) (value mask : BitVec 5) {b : Nat} (h : b < 32) :
    (modeWith old value mask).getLsbD b = if mask.getLsbD b then value.getLsbD b else old.getLsbD b := by
  simp only [modeWith, BitVec.getLsbD_or, BitVec.getLsbD_and, BitVec.getLsbD_not, BitVec.getLsbD_setWidth, h]
  cases mask.getLsbD b <;> simp

theorem mode_executes {s : State} {x : Issuer} {w : Base} {e : ExtC} (h : Executes s x (.mode w e)) :
    let v : DWord := if e.sa then x.g.sreg w.a.toNat else e.imm.setWidth 64
    exec (.mode w e) s = .next (goesOn (s.mapGroup x.core x.slot fun g =>
      { g with mode := modeWith g.mode (v.extractLsb' 0 5) (v.extractLsb' 8 5) }) x (.mode w e)) := by
  rw [exec_mode, setMode, runInstr_executes h]
  cases e.sa
  · have h0 : (e.imm.setWidth 64).extractLsb' 0 5 = e.imm.extractLsb' 0 5 := by ext i hi; simp; omega
    have h8 : (e.imm.setWidth 64).extractLsb' 8 5 = e.imm.extractLsb' 8 5 := by ext i hi; simp; omega
    simp only [h0, h8, Bool.false_eq_true, if_false]
    rfl
  · rfl

theorem sleep_executes {s : State} {x : Issuer} {w : Base} {e : ExtC} (h : Executes s x (.sleep w e)) :
    let n := if e.sa then (x.g.sreg w.a.toNat).toNat % 2 ^ 24 else e.imm.toNat
    exec (.sleep w e) s = .next (if n = 0 then goesOn s x (.sleep w e)
      else waitsBehind (setWait s x.core x.slot (.sleep (s.cycle + n))) x (.sleep w e)) := by
  rw [exec_sleep, sleep, runInstr_executes h]
  exact congrArg Host.Outcome.next (apply_ite (settleAct s x (.sleep w e)) _ _ _)

/-- SLEEP_EXPIRE ends a wait whose time has come, and no other (R268). -/
theorem sleepExpire_of_sleep {s : State} {g : Group} {t : Nat} (hg : s.group? s.sel.core s.sel.slot = some g)
    (hw : g.wait = .sleep t) : exec .sleepExpire s =
      .next (s.mapGroup s.sel.core s.sel.slot fun g => if t ≤ s.cycle then { g with wait := .none } else g) := by
  rw [exec_sleepExpire, execSleepExpire]
  congr 1
  exact State.mapGroup_congr hg (by simp only [hw])

/-! ## The statement -/

/-- Settles O37, entry by entry of 01 Table 1.7 and from the effect of each instruction on its group. -/
theorem systemInstructions : Obligations.SystemInstructions := by
  unfold Obligations.SystemInstructions
  refine ⟨fun s x w e h => sread_executes h, ?special, fun r block group k => ⟨levelIndex_above block group,
    levelIndex_group block group, fun v => levelIndex_inner block group⟩, ?perLane, ?swrite, ?mode, fun _ => rfl,
    fun s x w e h => sleep_executes h, ?expire⟩
  case special =>
    intro s x
    refine ⟨rfl, rfl, rfl, rfl, rfl, rfl, rfl, rfl, rfl, rfl, rfl, fun h => ?_, fun h hh => ?_, fun e he hl ht =>
      winmapWord_fields hl ht he, fun k => sreadGroup_level s x⟩
    · simp [sreadGroup, h]
    · have hc : sreadGroup s x 0x0C = h.trap.causeWord := by simp [sreadGroup, hh]
      rw [hc]
      exact ⟨by simp [sreadGroup, hh], h.trap.causeWord_fields⟩
  case perLane =>
    refine fun g l => ⟨rfl, rfl, fun h => ?_, fun h hh => ?_, fun r hr => ?_⟩
    · simp [sreadLane, oplogValue, h]
    · simp only [sreadLane, oplogValue, hh]
    · have hl : lfrOf g l = r := nth_of_getElem? hr
      simp only [sreadLane, hl]
      exact ⟨trivial, r.lo_fields⟩
  case swrite =>
    intro s x w e h n v m hn
    refine ⟨_, swrite_executes h, swriteGroup_frame _ _ _, fun g l hl hp hf => ⟨fun h18 => ?_, fun h1A => ?_⟩⟩
    · rw [show e.imm.toNat % 256 = 0x18 from h18]
      exact swriteGroup_lfr hl hf
    · rw [show e.imm.toNat % 256 = 0x1A from h1A]
      exact swriteGroup_lpc hp
  case mode =>
    intro s x w e h v
    refine ⟨fun m => modeWith m (v.extractLsb' 0 5) (v.extractLsb' 8 5), mode_executes h, fun m b hb => ?_⟩
    rw [getLsbD_modeWith _ _ _ hb]
    by_cases h5 : b < 5 <;> simp [h5]
  case expire =>
    intro s g t hg hw
    rw [sleepExpire_of_sleep hg hw]
    exact ⟨fun h => by simp only [h, if_true], fun h => by simp only [Nat.not_le.2 h, if_false]⟩

end Sys2Proof.Machine
end

section
/-! PROOF. Parking a lane: what it does to the lane and what it leaves (01 R20, R45, 10 R347, R348). -/

namespace Sys2Proof.Machine

/-! ## What parking changes of a group -/

/-- Two groups that differ only in what parking lanes and moving PCs may change outside a handler. -/
def Group.SameButFaults (g h : Group) : Prop :=
  h = { g with lanes := h.lanes, lpc := h.lpc, lfr := h.lfr, faultLog := h.faultLog, late := h.late, cont := h.cont }

namespace Group.SameButFaults

theorem refl (g : Group) : g.SameButFaults g := rfl

theorem trans {g h k : Group} (a : g.SameButFaults h) (b : h.SameButFaults k) : g.SameButFaults k := by
  unfold Group.SameButFaults at *
  rw [b, a]

theorem eq {g h : Group} (a : g.SameButFaults h) :
    h = { g with lanes := h.lanes, lpc := h.lpc, lfr := h.lfr, faultLog := h.faultLog, late := h.late, cont := h.cont } := a

theorem sregs {g h : Group} (a : g.SameButFaults h) : h.sregs = g.sregs := by rw [a.eq]
theorem preds {g h : Group} (a : g.SameButFaults h) : h.preds = g.preds := by rw [a.eq]
theorem pend {g h : Group} (a : g.SameButFaults h) : h.pend = g.pend := by rw [a.eq]
theorem handler {g h : Group} (a : g.SameButFaults h) : h.handler = g.handler := by rw [a.eq]
theorem ended {g h : Group} (a : g.SameButFaults h) : h.ended = g.ended := by rw [a.eq]
theorem launch {g h : Group} (a : g.SameButFaults h) : h.launch = g.launch := by rw [a.eq]

theorem foldl {α : Type} {f : Group → α → Group} (hf : ∀ (g : Group) x, g.SameButFaults (f g x)) (xs : List α) (g : Group) :
    g.SameButFaults (xs.foldl f g) :=
  List.foldlRecOn xs f (refl g) fun h a x _ => a.trans (hf h x)

end Group.SameButFaults

/-- A lane's unhandled fault keeps its record from being written (R20). -/
def Group.busy (g : Group) (l : Nat) : Bool := g.lfr[l]?.all Lfr.valid

/-- The record that a fault leaves in its lane (01 Table 1.3). -/
def LateFault.record (f : LateFault) : Lfr :=
  { addr := f.addr, pc := f.site.hdrOff, detail := BitVec.ofNat 16 (f.detail * 16 + f.site.wordIx % 16), valid := true
    cause := BitVec.ofNat 8 f.cause.code }

/-- The fault entry that a fault leaves of a lane that had reached a PC (10 R348). -/
def LateFault.entry (f : LateFault) (reached : Word) : FaultEntry :=
  { cause := f.cause, site := f.site, a := f.a, b := f.b, data := f.data, reached := reached }

theorem Group.park_eq (g : Group) (f : LateFault) :
    g.park f = { g with
      lanes := setNth g.lanes f.lane .parked
      lpc := setNth g.lpc f.lane f.site.hdrOff
      cont := (g.park f).cont
      lfr := if g.busy f.lane then g.lfr else setNth g.lfr f.lane f.record
      faultLog := if g.busy f.lane then g.faultLog
        else setNth g.faultLog f.lane (some (f.entry (nth 0#32 g.lpc f.lane))) } := by
  cases hr : g.lfr[f.lane]? with
  | none => simp [Group.park, Group.busy, hr]
  | some r => cases hv : r.valid <;> simp [Group.park, Group.busy, hr, hv, LateFault.record, LateFault.entry]

theorem Group.park_sameButFaults (g : Group) (f : LateFault) : g.SameButFaults (g.park f) := by
  rw [Group.park_eq]
  rfl

theorem Group.park_lanes (g : Group) (f : LateFault) : (g.park f).lanes = setNth g.lanes f.lane .parked := by
  rw [Group.park_eq]

theorem Group.park_lpc (g : Group) (f : LateFault) : (g.park f).lpc = setNth g.lpc f.lane f.site.hdrOff := by
  rw [Group.park_eq]

theorem Group.park_late (g : Group) (f : LateFault) : (g.park f).late = g.late := by
  rw [Group.park_eq]

theorem Group.park_busy {g : Group} {f : LateFault} (h : g.busy f.lane = true) :
    (g.park f).lfr = g.lfr ∧ (g.park f).faultLog = g.faultLog := by
  rw [Group.park_eq]
  exact ⟨if_pos h, if_pos h⟩

theorem Group.park_free {g : Group} {f : LateFault} (h : g.busy f.lane = false) :
    (g.park f).lfr = setNth g.lfr f.lane f.record ∧
    (g.park f).faultLog = setNth g.faultLog f.lane (some (f.entry (nth 0#32 g.lpc f.lane))) := by
  rw [Group.park_eq]
  simp [h]

/-- A late fault parks its lane or changes nothing. -/
theorem Group.parkLate_cases (g : Group) (f : LateFault) : g.parkLate f = g ∨ g.parkLate f = g.park f := by
  unfold Group.parkLate
  split
  · exact .inl rfl
  · exact ite_eq_or_eq _ _ _
  · exact .inr rfl

theorem Group.parkLate_of_run {g : Group} {f : LateFault} (h : nth .exited g.lanes f.lane = .run) :
    g.parkLate f = g.park f := by
  rw [Group.parkLate, h]

/-- The PC set at the clause first, and then the lane parked: what a fault at issue does (R45). -/
def Group.parkNow (g : Group) (f : LateFault) : Group :=
  ({ g with lpc := setNth g.lpc f.lane f.site.hdrOff }).park f

/-- What a fault that an event finds does to a group that can park: it waits for the end of the run in progress, or
parks at once (10 R347). -/
def Group.takeLate (inRun : Bool) (g : Group) (f : LateFault) : Group :=
  if inRun then { g with late := g.late ++ [f] } else g.parkLate f

/-! ## Properties that parking keeps -/

/-- A property of a group that parking by any of some faults keeps, and that does not speak of the faults that wait. -/
structure Parkable (F : LateFault → Prop) (P : Group → Prop) : Prop where
  park : ∀ g f, F f → P g → P (g.park f)
  pc : ∀ g f, F f → P g → P { g with lpc := setNth g.lpc f.lane f.site.hdrOff }
  late : ∀ g fs, P g → P { g with late := fs }

namespace Parkable

variable {F : LateFault → Prop} {P : Group → Prop} {g : Group} {f : LateFault} {fs : List LateFault} {b : Bool}

theorem parkLate (p : Parkable F P) (hf : F f) (h : P g) : P (g.parkLate f) := by
  rcases g.parkLate_cases f with e | e <;> rw [e]
  · exact h
  · exact p.park g f hf h

theorem parkNow (p : Parkable F P) (hf : F f) (h : P g) : P (g.parkNow f) := p.park _ f hf (p.pc g f hf h)

theorem takeLate (p : Parkable F P) (hf : F f) (h : P g) : P (g.takeLate b f) := by
  cases b
  · exact p.parkLate hf h
  · exact p.late g _ h

theorem parkLates (p : Parkable F P) (hf : ∀ f ∈ fs, F f) (h : P g) : P (fs.foldl Group.parkLate g) :=
  List.foldlRecOn fs Group.parkLate h fun _ hg _ hm => p.parkLate (hf _ hm) hg

theorem parkNows (p : Parkable F P) (hf : ∀ f ∈ fs, F f) (h : P g) : P (fs.foldl Group.parkNow g) :=
  List.foldlRecOn fs Group.parkNow h fun _ hg _ hm => p.parkNow (hf _ hm) hg

theorem takeLates (p : Parkable F P) (hf : ∀ f ∈ fs, F f) (h : P g) : P (fs.foldl (Group.takeLate b) g) :=
  List.foldlRecOn fs (Group.takeLate b) h fun _ hg _ hm => p.takeLate (hf _ hm) hg

theorem parkAll (p : Parkable F P) (hf : ∀ f ∈ g.late, F f) (h : P g) : P g.parkAll := p.late _ _ (p.parkLates hf h)

end Parkable

theorem parkable_sameButFaults (g : Group) : Parkable (fun _ => True) g.SameButFaults where
  park h f _ a := a.trans (h.park_sameButFaults f)
  pc h f _ a := a.trans (show Group.SameButFaults h { h with lpc := setNth h.lpc f.lane f.site.hdrOff } from rfl)
  late h fs a := a.trans (show Group.SameButFaults h { h with late := fs } from rfl)

theorem Group.parkAll_sameButFaults (g : Group) : g.SameButFaults g.parkAll :=
  (parkable_sameButFaults g).parkAll (fun _ _ => trivial) (.refl g)

theorem Group.takeLate_sameButFaults (b : Bool) (g : Group) (f : LateFault) : g.SameButFaults (g.takeLate b f) :=
  (parkable_sameButFaults g).takeLate trivial (.refl g)

theorem Group.parkNow_sameButFaults (g : Group) (f : LateFault) : g.SameButFaults (g.parkNow f) :=
  (parkable_sameButFaults g).parkNow trivial (.refl g)

/-- A lane's state, record and fault entry are those of another group's lane. -/
def SameLane (n : Nat) (g h : Group) : Prop :=
  nth .exited h.lanes n = nth .exited g.lanes n ∧ h.lfr[n]? = g.lfr[n]? ∧ nth none h.faultLog n = nth none g.faultLog n

theorem Group.park_sameLane {n : Nat} {f : LateFault} (h : n ≠ f.lane) (g : Group) : SameLane n g (g.park f) := by
  cases hb : g.busy f.lane
  · obtain ⟨h1, h2⟩ := Group.park_free hb
    unfold SameLane
    rw [h1, h2, Group.park_lanes, getElem?_setNth_other _ _ h, nth_setNth_other _ _ _ _ _ h, nth_setNth_other _ _ _ _ _ h]
    exact ⟨rfl, rfl, rfl⟩
  · obtain ⟨h1, h2⟩ := Group.park_busy hb
    unfold SameLane
    rw [h1, h2, Group.park_lanes, nth_setNth_other _ _ _ _ _ h]
    exact ⟨rfl, rfl, rfl⟩

theorem SameLane.trans {n : Nat} {g h k : Group} (a : SameLane n g h) (b : SameLane n h k) : SameLane n g k :=
  ⟨b.1.trans a.1, b.2.1.trans a.2.1, b.2.2.trans a.2.2⟩

theorem parkable_sameLane (n : Nat) (g : Group) : Parkable (fun f => n ≠ f.lane) (SameLane n g) where
  park h _ hf a := a.trans (h.park_sameLane hf)
  pc _ _ _ a := a
  late _ _ a := a

/-- A parked lane stays parked. -/
theorem parkable_parked (n : Nat) : Parkable (fun _ => True) fun g => nth .exited g.lanes n = .parked where
  park g f _ h := by
    rw [Group.park_lanes]
    by_cases e : n = f.lane
    · subst e
      refine nth_setNth_same _ _ _ _ (Nat.lt_of_not_le fun hl => ?_)
      rw [nth_eq_getElem?, List.getElem?_eq_none hl] at h
      cases h
    · rw [nth_setNth_other _ _ _ _ _ e, h]
  pc _ _ _ h := h
  late _ _ h := h

/-- A lane of a list long enough that runs or is parked keeps doing so. -/
theorem parkable_runOrParked (n : Nat) :
    Parkable (fun _ => True) fun g => nth .exited g.lanes n = .run ∨ nth .exited g.lanes n = .parked where
  park g f _ h := by
    rcases h with h | h
    · by_cases e : n = f.lane
      · right
        subst e
        rw [Group.park_lanes]
        refine nth_setNth_same _ _ _ _ (Nat.lt_of_not_le fun hl => ?_)
        rw [nth_eq_getElem?, List.getElem?_eq_none hl] at h
        cases h
      · exact .inl ((g.park_sameLane e).1.trans h)
    · exact .inr ((parkable_parked n).park g f trivial h)
  pc _ _ _ h := h
  late _ _ h := h

/-- A lane whose PC stands at the clause of the faults that park keeps it. -/
theorem parkable_lpc (n : Nat) (pc : Word) :
    Parkable (fun f => f.site.hdrOff = pc) fun g => n < g.lpc.length ∧ nth 0#32 g.lpc n = pc := by
  have step : ∀ (xs : List Word) (f : LateFault), f.site.hdrOff = pc → n < xs.length ∧ nth 0#32 xs n = pc →
      n < (setNth xs f.lane f.site.hdrOff).length ∧ nth 0#32 (setNth xs f.lane f.site.hdrOff) n = pc := by
    intro xs f hf ⟨hl, h⟩
    refine ⟨by rwa [setNth_length], ?_⟩
    by_cases e : n = f.lane
    · rw [← e, nth_setNth_same _ _ _ _ hl, hf]
    · rw [nth_setNth_other _ _ _ _ _ e, h]
  exact ⟨fun g f hf h => by rw [Group.park_lpc]; exact step _ _ hf h, fun g f hf h => step _ _ hf h, fun _ _ h => h⟩

/-- An unhandled fault's record and entry stay (R20). -/
theorem parkable_record {n : Nat} {r : Lfr} (hr : r.valid = true) (e : Option FaultEntry) :
    Parkable (fun _ => True) fun g => g.lfr[n]? = some r ∧ nth none g.faultLog n = e where
  park g f _ h := by
    by_cases hn : n = f.lane
    · have hb : g.busy f.lane = true := by rw [← hn, Group.busy, h.1, Option.all_some, hr]
      rw [(Group.park_busy hb).1, (Group.park_busy hb).2]
      exact h
    · obtain ⟨-, h1, h2⟩ := g.park_sameLane hn
      exact ⟨h1.trans h.1, h2.trans h.2⟩
  pc _ _ _ h := h
  late _ _ h := h

theorem parkable_lengths (g : Group) :
    Parkable (fun _ => True) fun h => h.lanes.length = g.lanes.length ∧ h.lpc.length = g.lpc.length ∧
      h.faultLog.length = g.faultLog.length where
  park h f _ a := by
    refine ⟨?_, ?_, ?_⟩
    · rw [Group.park_lanes, setNth_length, a.1]
    · rw [Group.park_lpc, setNth_length, a.2.1]
    · cases hb : h.busy f.lane
      · rw [(Group.park_free hb).2, setNth_length, a.2.2]
      · rw [(Group.park_busy hb).2, a.2.2]
  pc h f _ a := ⟨a.1, (setNth_length _ _ _).trans a.2.1, a.2.2⟩
  late _ _ a := a

/-! ## The lane of a fault -/

theorem Group.parkNow_parks {g : Group} {f : LateFault} (h : f.lane < g.lanes.length) :
    nth .exited (g.parkNow f).lanes f.lane = .parked := by
  rw [Group.parkNow, Group.park_lanes]
  exact nth_setNth_same _ _ _ _ h

theorem Group.parkNow_lpc {g : Group} {f : LateFault} (h : f.lane < g.lpc.length) :
    nth 0#32 (g.parkNow f).lpc f.lane = f.site.hdrOff := by
  rw [Group.parkNow, Group.park_lpc]
  exact nth_setNth_same _ _ _ _ (by rwa [setNth_length])

/-- A record that holds no unhandled fault takes the new one. -/
theorem Group.parkNow_records {g : Group} {f : LateFault} {r : Lfr} (hr : g.lfr[f.lane]? = some r) (hv : r.valid = false)
    (hl : f.lane < g.faultLog.length) :
    (g.parkNow f).lfr[f.lane]? = some f.record ∧ ∃ pc, nth none (g.parkNow f).faultLog f.lane = some (f.entry pc) := by
  have hb : Group.busy { g with lpc := setNth g.lpc f.lane f.site.hdrOff } f.lane = false := by
    rw [Group.busy, hr, Option.all_some, hv]
  have hf : f.lane < g.lfr.length := (List.getElem?_eq_some_iff.1 hr).1
  obtain ⟨h1, h2⟩ := Group.park_free hb
  rw [Group.parkNow, h1, h2]
  exact ⟨getElem?_setNth_same _ hf, _, nth_setNth_same _ _ _ _ hl⟩

/-- Of late faults applied in order, one whose lane runs or is parked leaves it parked. -/
theorem Group.parkLates_parks {g : Group} {f : LateFault} {fs : List LateFault} (hf : f ∈ fs)
    (h : nth .exited g.lanes f.lane = .run ∨ nth .exited g.lanes f.lane = .parked) :
    nth .exited (fs.foldl Group.parkLate g).lanes f.lane = .parked := by
  obtain ⟨xs, ys, rfl⟩ := List.append_of_mem hf
  rw [List.foldl_append, List.foldl_cons]
  refine (parkable_parked f.lane).parkLates (fun _ _ => trivial) ?_
  have h' := (parkable_runOrParked f.lane).parkLates (fs := xs) (fun _ _ => trivial) h
  rcases h' with h' | h'
  · rw [Group.parkLate_of_run h', Group.park_lanes]
    refine nth_setNth_same _ _ _ _ (Nat.lt_of_not_le fun hl => ?_)
    rw [nth_eq_getElem?, List.getElem?_eq_none hl] at h'
    cases h'
  · exact (parkable_parked f.lane).parkLate trivial h'

/-! ## The faults of one access -/

/-- The faults of an access strike its group: those that are found late, and those that are found at issue. -/
def Group.faulted (inRun : Bool) (late now : List LateFault) (g : Group) : Group :=
  now.foldl Group.parkNow (late.foldl (Group.takeLate inRun) g)

theorem Group.parkLate_late (g : Group) (f : LateFault) : (g.parkLate f).late = g.late := by
  rcases g.parkLate_cases f with e | e <;> rw [e]
  exact g.park_late f

theorem Group.parkNow_late (g : Group) (f : LateFault) : (g.parkNow f).late = g.late := Group.park_late _ f

theorem Group.takeLates_late (b : Bool) (fs : List LateFault) (g : Group) :
    (fs.foldl (Group.takeLate b) g).late = if b then g.late ++ fs else g.late := by
  induction fs generalizing g with
  | nil => cases b <;> simp
  | cons f fs ih => cases b <;> simp [ih, Group.takeLate, Group.parkLate_late]

theorem Group.faulted_late (b : Bool) (late now : List LateFault) (g : Group) :
    (g.faulted b late now).late = if b then g.late ++ late else g.late := by
  rw [Group.faulted, ← Group.takeLates_late]
  exact List.foldlRecOn now Group.parkNow (motive := fun h => h.late = (late.foldl (Group.takeLate b) g).late) rfl
    fun h hl f _ => (h.parkNow_late f).trans hl

theorem Group.faulted_sameButFaults (b : Bool) (late now : List LateFault) (g : Group) :
    g.SameButFaults (g.faulted b late now) :=
  .trans (.foldl (Group.takeLate_sameButFaults b) late g) (.foldl Group.parkNow_sameButFaults now _)

theorem Group.movePcs_of_none {g : Group} (h : g.handler = none) (m : LaneMask) (pc : Word) :
    g.movePcs m pc = { g with lpc := mapLanes m (fun _ _ => pcWord pc) g.lpc } := by
  simp only [Group.movePcs, Group.setPcs, Group.pcs, h]

/-- Where a group stands once the faults of an access have struck it and its run has moved on: its PCs have moved, and at
the end of the run the late faults that waited have parked. -/
def Group.Behind (g : Group) (m : LaneMask) (pc : Word) (h : Group) : Prop :=
  h = g.movePcs m pc ∨ h = (g.movePcs m pc).parkAll

section
variable {F : LateFault → Prop} {P : Group → Prop} {g h : Group} {f : LateFault} {late now : List LateFault} {b : Bool}
  {m : LaneMask} {pc : Word}

theorem Parkable.faulted (p : Parkable F P) (hl : ∀ f ∈ late, F f) (hn : ∀ f ∈ now, F f) (hg : P g) :
    P (g.faulted b late now) := p.parkNows hn (p.takeLates hl hg)

theorem Parkable.behind (p : Parkable F P) (hl : ∀ f ∈ g.late, F f) (hg : P (g.movePcs m pc)) (hb : g.Behind m pc h) : P h := by
  rcases hb with rfl | rfl
  · exact hg
  · exact p.parkAll (by rwa [Group.movePcs_late]) hg

theorem Group.Behind.sameButFaults (hg : g.handler = none) (hb : g.Behind m pc h) : g.SameButFaults h := by
  refine (parkable_sameButFaults g).behind (fun _ _ => trivial) ?_ hb
  rw [Group.movePcs_of_none hg]
  rfl

/-- The waiting late faults are at most those of the access. -/
theorem Group.mem_faulted_late (hl : g.late = []) (hf : f ∈ (g.faulted b late now).late) : f ∈ late := by
  rw [Group.faulted_late, hl] at hf
  cases b
  · cases hf
  · simpa using hf

/-- What parking keeps of a lane, and what does not speak of PCs, stands after the whole. -/
theorem Parkable.faulted_behind (p : Parkable F P) (hh : g.handler = none) (hd : g.late = []) (hl : ∀ f ∈ late, F f)
    (hk : ∀ k, P k → P { k with lpc := mapLanes m (fun _ _ => pcWord pc) k.lpc }) (hg : P (g.faulted b late now))
    (hb : (g.faulted b late now).Behind m pc h) : P h := by
  refine p.behind (fun f hf => hl f (Group.mem_faulted_late hd hf)) ?_ hb
  rw [Group.movePcs_of_none ((g.faulted_sameButFaults b late now).handler.trans hh)]
  exact hk _ hg

theorem Group.faulted_lengths (b : Bool) (late now : List LateFault) (g : Group) :
    (g.faulted b late now).lanes.length = g.lanes.length ∧ (g.faulted b late now).lpc.length = g.lpc.length ∧
    (g.faulted b late now).faultLog.length = g.faultLog.length :=
  (parkable_lengths g).faulted (fun _ _ => trivial) (fun _ _ => trivial) ⟨rfl, rfl, rfl⟩

theorem Group.faulted_append (b : Bool) (late xs ys : List LateFault) (f : LateFault) (g : Group) :
    g.faulted b late (xs ++ f :: ys) = ys.foldl Group.parkNow ((g.faulted b late xs).parkNow f) := by
  rw [Group.faulted, List.foldl_append, List.foldl_cons, Group.faulted]

/-- A lane that no fault names keeps its state, record and fault entry. -/
theorem Group.Behind.sameLane {n : Nat} (hh : g.handler = none) (hd : g.late = []) (hl : ∀ f ∈ late, n ≠ f.lane)
    (hn : ∀ f ∈ now, n ≠ f.lane) (hb : (g.faulted b late now).Behind m pc h) : SameLane n g h :=
  (parkable_sameLane n g).faulted_behind hh hd hl (fun _ hk => hk)
    ((parkable_sameLane n g).faulted hl hn ⟨rfl, rfl, rfl⟩) hb

/-- A lane that runs and faults late is parked by the end of the run, and until then its fault waits. -/
theorem Group.Behind.late_parks (hh : g.handler = none) (hd : g.late = []) (hf : f ∈ late)
    (hr : nth .exited g.lanes f.lane = .run) (hb : (g.faulted b late now).Behind m pc h) :
    nth .exited h.lanes f.lane = .parked ∨ f ∈ h.late := by
  cases b with
  | false =>
    have p := parkable_parked f.lane
    have hk : nth .exited (late.foldl (Group.takeLate false) g).lanes f.lane = .parked :=
      Group.parkLates_parks hf (.inl hr)
    exact .inl (p.faulted_behind hh hd (fun _ _ => trivial) (fun _ hk => hk) (p.parkNows (fun _ _ => trivial) hk) hb)
  | true =>
    have hm : ((g.faulted true late now).movePcs m pc).late = late := by
      rw [Group.movePcs_late, Group.faulted_late, hd]
      rfl
    rcases hb with rfl | rfl
    · exact .inr (by rwa [hm])
    · refine .inl (Group.parkLates_parks (by rwa [hm]) ?_)
      rw [Group.movePcs_of_none ((g.faulted_sameButFaults true late now).handler.trans hh)]
      exact (parkable_runOrParked f.lane).faulted (fun _ _ => trivial) (fun _ _ => trivial) (.inl hr)

/-- A lane that faults at issue is parked. -/
theorem Group.Behind.now_parks (hh : g.handler = none) (hd : g.late = []) (hf : f ∈ now)
    (hl : f.lane < g.lanes.length) (hb : (g.faulted b late now).Behind m pc h) :
    nth .exited h.lanes f.lane = .parked := by
  have p := parkable_parked f.lane
  obtain ⟨xs, ys, rfl⟩ := List.append_of_mem hf
  refine p.faulted_behind hh hd (fun _ _ => trivial) (fun _ hk => hk) ?_ hb
  rw [Group.faulted_append]
  exact p.parkNows (fun _ _ => trivial) (Group.parkNow_parks (by rwa [(Group.faulted_lengths b late xs g).1]))

/-- A lane that faults at issue has its PC at its clause, when the run goes on without it. -/
theorem Group.Behind.now_lpc {cur : Word} (hh : g.handler = none) (hd : g.late = []) (hf : f ∈ now)
    (hl : ∀ f ∈ late, f.site.hdrOff = cur) (hn : ∀ f ∈ now, f.site.hdrOff = cur) (hp : f.lane < g.lpc.length)
    (hm : m.getLsbD f.lane = false) (hb : (g.faulted b late now).Behind m pc h) : nth 0#32 h.lpc f.lane = cur := by
  have p := parkable_lpc f.lane cur
  obtain ⟨xs, ys, rfl⟩ := List.append_of_mem hf
  have hx : f.lane < (g.faulted b late xs).lpc.length := by rwa [(Group.faulted_lengths b late xs g).2.1]
  refine (p.faulted_behind hh hd hl (fun k ⟨hk, hc⟩ => ⟨by rwa [length_mapLanes], ?_⟩) ?_ hb).2
  · exact (nth_mapLanes_other _ _ _ hm).trans hc
  · rw [Group.faulted_append]
    refine p.parkNows (fun e he => hn e (by simp [he])) ⟨?_, (Group.parkNow_lpc hx).trans (hn f hf)⟩
    rwa [Group.parkNow, Group.park_lpc, setNth_length, setNth_length]

/-- A lane that faults at issue, and whose record holds no unhandled fault, takes the record and the fault entry. -/
theorem Group.Behind.now_records {r : Lfr} (hh : g.handler = none) (hd : g.late = []) (hf : f ∈ now)
    (hl : ∀ e ∈ late, f.lane ≠ e.lane) (hn : ∀ e ∈ now, f.lane = e.lane → e = f) (hr : g.lfr[f.lane]? = some r)
    (hv : r.valid = false) (hlen : f.lane < g.faultLog.length) (hb : (g.faulted b late now).Behind m pc h) :
    h.lfr[f.lane]? = some f.record ∧ ∃ w, nth none h.faultLog f.lane = some (f.entry w) := by
  obtain ⟨xs, ys, rfl, hx⟩ := List.eq_append_cons_of_mem hf
  have hxs : ∀ e ∈ xs, f.lane ≠ e.lane := fun e he hle => hx (hn e (by simp [he]) hle ▸ he)
  obtain ⟨-, hr', -⟩ := (parkable_sameLane f.lane g).faulted (b := b) hl hxs ⟨rfl, rfl, rfl⟩
  obtain ⟨h1, w, h2⟩ := Group.parkNow_records (hr'.trans hr) hv (by rwa [(Group.faulted_lengths b late xs g).2.2])
  have p := parkable_record (n := f.lane) (r := f.record) rfl (some (f.entry w))
  obtain ⟨h3, h4⟩ := p.faulted_behind hh hd (fun _ _ => trivial) (fun _ hk => hk)
    (by rw [Group.faulted_append]; exact p.parkNows (fun _ _ => trivial) ⟨h1, h2⟩) hb
  exact ⟨h3, w, h4⟩

end

end Sys2Proof.Machine
end

section
/-! PROOF. Steps that change one group: its core's schedulers and order of issue may move with it, and nothing else. -/

namespace Sys2Proof.Machine

/-- From s to t only one group has changed, from g to h, and of its core the schedulers and the next place in program order. -/
structure Touches (core slot : Nat) (s t : State) (g h : Group) : Prop where
  before : s.group? core slot = some g
  after : t.group? core slot = some h
  outside : OnlyCores s t
  others : ∀ k, k ≠ core → t.core k = s.core k
  inCore : t.core core = { s.core core with
    groups := (t.core core).groups, scheds := (t.core core).scheds, nextId := (t.core core).nextId }
  groups : ∀ n, n ≠ slot → t.group? core n = s.group? core n

section
variable {core slot : Nat} {s t u : State} {g h k : Group}

theorem Touches.refl (hg : s.group? core slot = some g) : Touches core slot s s g g :=
  ⟨hg, hg, rfl, fun _ _ => rfl, rfl, fun _ _ => rfl⟩

theorem Touches.trans (a : Touches core slot s t g h) (b : Touches core slot t u h k) : Touches core slot s u g k where
  before := a.before
  after := b.after
  outside := a.outside.trans b.outside
  others n hn := (b.others n hn).trans (a.others n hn)
  inCore := by rw [b.inCore, a.inCore]
  groups n hn := (b.groups n hn).trans (a.groups n hn)

theorem Core.mapGroup_frame (c : Core) (k : Nat) (f : Group → Group) :
    c.mapGroup k f = { c with groups := (c.mapGroup k f).groups } := by
  unfold Core.mapGroup
  split <;> rfl

/-- A new core in which only that group, schedulers and the next place in program order differ. -/
theorem Touches.setCore {c : Core} (hg : s.group? core slot = some g) (hc : c.group? slot = some h)
    (hf : c = { s.core core with groups := c.groups, scheds := c.scheds, nextId := c.nextId })
    (hn : ∀ n, n ≠ slot → c.group? n = (s.core core).group? n) : Touches core slot s (s.setCore core c) g h where
  before := hg
  after := by rw [State.group?, State.core_setCore_same, hc]
  outside := rfl
  others k hk := State.core_setCore_other _ _ _ _ hk
  inCore := by rw [State.core_setCore_same]; exact hf
  groups n h := by rw [State.group?, State.core_setCore_same, hn n h, State.group?]

theorem Touches.mapGroup (hg : s.group? core slot = some g) (f : Group → Group) :
    Touches core slot s (s.mapGroup core slot f) g (f g) :=
  .setCore hg (by rw [Core.group_mapGroup_same, ← State.group?, hg, Option.map_some]) (by beta_reduce; rw [Core.mapGroup_frame])
    fun _ hn => Core.group_mapGroup_other _ _ _ _ hn

theorem Touches.mapCore (hg : s.group? core slot = some g) {f : Core → Core}
    (hf : ∀ c, f c = { c with scheds := (f c).scheds, nextId := (f c).nextId }) :
    Touches core slot s (s.mapCore core f) g g :=
  .setCore hg (by rw [hf]; exact hg) (by rw [hf]) fun _ _ => by rw [hf]; rfl

theorem Touches.foldl {α : Type} {f : State → α → State} {w : Group → α → Group} (xs : List α) (P : State → Group → Prop)
    (hP : P s g) (hg : s.group? core slot = some g)
    (hf : ∀ s g x, P s g → s.group? core slot = some g → Touches core slot s (f s x) g (w g x) ∧ P (f s x) (w g x)) :
    Touches core slot s (xs.foldl f s) g (xs.foldl w g) ∧ P (xs.foldl f s) (xs.foldl w g) := by
  induction xs generalizing s g with
  | nil => exact ⟨.refl hg, hP⟩
  | cons x xs ih =>
    obtain ⟨ht, hq⟩ := hf s g x hP hg
    obtain ⟨ht', hq'⟩ := ih hq ht.after
    exact ⟨ht.trans ht', hq'⟩

end

/-! ## Schedulers read back -/

theorem Core.sched_mapSched_same {c : Core} {k : Nat} (h : (c.sched k).run.isSome = true) (f : Scheduler → Scheduler) :
    (c.mapSched k f).sched k = f (c.sched k) := by
  refine nth_setNth_same _ _ _ _ (Nat.lt_of_not_le fun hl => ?_)
  rw [Core.sched, nth_eq_getElem?, List.getElem?_eq_none hl] at h
  cases h

theorem Core.sched_mapSched_other (c : Core) {k j : Nat} (h : j ≠ k) (f : Scheduler → Scheduler) :
    (c.mapSched k f).sched j = c.sched j := nth_setNth_other _ _ _ _ _ h

@[simp] theorem State.sched_mapGroup (s : State) (n k j : Nat) (f : Group → Group) :
    ((s.mapGroup n k f).core n).sched j = (s.core n).sched j := by
  rw [State.mapGroup, State.core_mapCore_same, Core.mapGroup_frame]
  rfl

/-- The run of a slot's group is in progress on its scheduler. -/
def inRun (s : State) (core slot : Nat) : Bool := ((s.core core).sched (schedOf slot)).run.any fun r => r.slot == slot

/-! ## Faults of a group that can park -/

/-- A late fault of a group that runs, but for one of the handler's own instructions, is a change of the group alone. -/
theorem lateFault_eq {s : State} {core slot id : Nat} {g : Group} (f : LateFault) (hg : s.group? core slot = some g)
    (he : g.ended = false) (hh : (g.handler.any fun h => decide (h.mark ≤ id)) = false) :
    lateFault s core slot id f = s.mapGroup core slot fun g => g.takeLate (inRun s core slot) f := by
  simp only [lateFault, hg, he, hh, Bool.false_eq_true, if_false]
  unfold inRun
  split <;> rename_i hr <;> simp [Group.takeLate, hr]

/-- Late faults of such a group, one after the other. -/
theorem lateFaults_touches {s : State} {core slot id : Nat} {g : Group} (fs : List LateFault)
    (hg : s.group? core slot = some g) (he : g.ended = false)
    (hh : (g.handler.any fun h => decide (h.mark ≤ id)) = false) :
    let t := fs.foldl (fun s f => lateFault s core slot id f) s
    Touches core slot s t g (fs.foldl (Group.takeLate (inRun s core slot)) g) ∧
      ∀ k, (t.core core).sched k = (s.core core).sched k := by
  obtain ⟨ht, hs⟩ := Touches.foldl (f := fun s f => lateFault s core slot id f) (w := Group.takeLate (inRun s core slot)) fs
    (fun t h => g.SameButFaults h ∧ ∀ k, (t.core core).sched k = (s.core core).sched k) ⟨.refl g, fun _ => rfl⟩ hg
    fun t h f ⟨hs, hr⟩ ht => by
      have hin : inRun t core slot = inRun s core slot := by rw [inRun, hr, inRun]
      rw [lateFault_eq f ht (hs.ended.trans he) (by rw [hs.handler, hh]), hin]
      exact ⟨.mapGroup ht _, hs.trans (h.takeLate_sameButFaults _ f), fun k => (State.sched_mapGroup ..).trans (hr k)⟩
  exact ⟨ht, hs.2⟩

/-- Parking at issue outside a handler: the lanes park, and leave the executing set of their group's run (R45). -/
theorem parkAtIssue_touches {s : State} {core slot : Nat} {g : Group} (fs : List LateFault)
    (hg : s.group? core slot = some g) (hh : g.handler = none) :
    let t := parkAtIssue s core slot fs
    Touches core slot s t g (fs.foldl Group.parkNow g) ∧
      ∀ k, ((s.core core).sched k).run.isSome = true → ((t.core core).sched k).run =
        ((s.core core).sched k).run.map fun r => if k = schedOf slot ∧ r.slot = slot then
          { r with exec := r.exec &&& ~~~maskOf (fs.map fun f => f.lane) } else r := by
  cases fs with
  | nil =>
    refine ⟨.refl hg, fun k _ => ?_⟩
    have h0 : ∀ m : LaneMask, m &&& ~~~maskOf [] = m := fun m =>
      BitVec.and_allOnes
    simp [parkAtIssue, h0]
  | cons f fs =>
    simp only [parkAtIssue, hg, hh, Option.isSome_none, Bool.false_eq_true, if_false]
    have h1 := Touches.mapGroup hg fun g => (f :: fs).foldl Group.parkNow g
    refine ⟨h1.trans (Touches.mapCore h1.after fun _ => rfl), fun k hk => ?_⟩
    rw [State.core_mapCore_same]
    by_cases e : k = schedOf slot
    · subst e
      rw [Core.sched_mapSched_same (by rwa [State.sched_mapGroup]), State.sched_mapGroup]
      simp
    · rw [Core.sched_mapSched_other _ e, State.sched_mapGroup]
      simp [e]

/-! ## The course of a run -/

@[simp] theorem Group.setStates_states (g : Group) : g.setStates g.states = g := by
  obtain ⟨launch, block, index, ended, sregs, preds, lpc, lanes, lfr, mode, modeNow, winmap, handler⟩ := g
  cases handler <;> rfl

/-- Ending a run in which no lane is marked only frees the scheduler. -/
theorem Core.dropRun_unmarked {c : Core} {k : Nat} {r : Run} (hr : (c.sched k).run = some r) (hm : r.marked = 0#64) :
    c.dropRun k = (c.mapGroup r.slot id).mapSched k fun x => { x with run := none } := by
  have h0 : (fun g : Group => g.setLanes (r.marked &&& g.lanesIn .run) .yielded) = id := by
    funext g
    simp [hm, Group.setLanes]
  rw [Core.dropRun, hr]
  simp only [h0]

/-- Ending a run without marked lanes: the late faults that waited park (R42, 10 R347). -/
theorem endRun_touches {s : State} {core sched slot : Nat} {g : Group} {r : Run} (hg : s.group? core slot = some g)
    (hr : ((s.core core).sched sched).run = some r) (hs : r.slot = slot) (hm : r.marked = 0#64) :
    Touches core slot s (endRun s core sched) g g.parkAll := by
  subst hs
  have hd : Touches core r.slot s (s.mapCore core fun c => c.dropRun sched) g g := by
    rw [State.mapCore, Core.dropRun_unmarked hr hm]
    refine .setCore hg ?_ ?_ fun n hn => ?_
    · rw [Core.group_mapSched, Core.group_mapGroup_same, ← State.group?, hg, Option.map_some, id]
    · rw [Core.mapSched, Core.mapGroup_frame]
    · rw [Core.group_mapSched, Core.group_mapGroup_other _ _ _ _ hn]
  rw [endRun, hr]
  exact hd.trans (.mapGroup hd.after _)

/-- Going on behind an instruction: the executing lanes' PCs move, and at most the late faults that waited park. -/
theorem stepRun_touches {s : State} {x : Issuer} {g : Group} {r : Run} (hg : s.group? x.core x.slot = some g)
    (hr : ((s.core x.core).sched x.sched).run.isSome = true) (hs : r.slot = x.slot) (hm : r.marked = 0#64) :
    ∃ h, Touches x.core x.slot s (stepRun s x r) g h ∧
      (h = g.movePcs r.exec r.pos ∨ h = (g.movePcs r.exec r.pos).parkAll) := by
  have h1 := Touches.mapGroup hg fun g => g.movePcs r.exec r.pos
  have h2 := h1.trans (Touches.mapCore h1.after (f := fun c => c.mapSched x.sched fun k => { k with run := some r }) fun _ => rfl)
  unfold stepRun
  simp only
  split
  · refine ⟨_, h2.trans (endRun_touches h2.after (r := r) ?_ hs hm), .inr rfl⟩
    rw [State.core_mapCore_same, Core.sched_mapSched_same (by rwa [State.sched_mapGroup])]
  · exact ⟨_, h2, .inl rfl⟩

end Sys2Proof.Machine
end

section
/-! PROOF. What ends groups and launches, and what parks lanes, changes no memory and brings nothing back that has ended
(10 R345, R347). -/

namespace Sys2Proof.Machine

/-- A launch that the module holds has ended. -/
def LaunchOver (s : State) (id : Nat) : Prop := ∀ l, s.launch? id = some l → l.status ≠ none

/-- No memory of a core has changed, and every group is there still, ended if it had ended. -/
structure Core.Onward (c d : Core) : Prop where
  spad : d.spad = c.spad
  tileData : d.tileData = c.tileData
  l1 : d.l1 = c.l1
  groups : ∀ n g, c.group? n = some g → ∃ h, d.group? n = some h ∧ (g.ended = true → h.ended = true)

/-- Nothing but cores and launches has changed, no memory of them, and what had ended has ended still. -/
structure Onward (s t : State) : Prop where
  outside : t = { s with cores := t.cores, launches := t.launches }
  cores : ∀ k, (s.core k).Onward (t.core k)
  launches : ∀ id, LaunchOver s id → LaunchOver t id

namespace Core.Onward

theorem refl (c : Core) : c.Onward c := ⟨rfl, rfl, rfl, fun _ g h => ⟨g, h, id⟩⟩

theorem trans {c d e : Core} (a : c.Onward d) (b : d.Onward e) : c.Onward e where
  spad := b.spad.trans a.spad
  tileData := b.tileData.trans a.tileData
  l1 := b.l1.trans a.l1
  groups n g hg := by
    obtain ⟨h, hh, he⟩ := a.groups n g hg
    obtain ⟨k, hk, hf⟩ := b.groups n h hh
    exact ⟨k, hk, hf ∘ he⟩

/-- A change of a core that keeps its memories and groups. -/
theorem of_same {c d : Core} (h1 : d.spad = c.spad) (h2 : d.tileData = c.tileData) (h3 : d.l1 = c.l1)
    (h4 : d.groups = c.groups) : c.Onward d :=
  ⟨h1, h2, h3, fun n g hg => ⟨g, by rw [Core.group?, h4, ← Core.group?, hg], id⟩⟩

theorem bars (c : Core) (bs : List Barrier) : c.Onward { c with bars := bs } := of_same rfl rfl rfl rfl
theorem mapSched (c : Core) (k : Nat) (f : Scheduler → Scheduler) : c.Onward (c.mapSched k f) := of_same rfl rfl rfl rfl
theorem mapBlock (c : Core) (l i : Nat) (f : Block → Block) : c.Onward (c.mapBlock l i f) := of_same rfl rfl rfl rfl
theorem tick (c : Core) : c.Onward c.tick := of_same rfl rfl rfl rfl

theorem mapGroup (c : Core) (k : Nat) {f : Group → Group} (hf : ∀ g, g.ended = true → (f g).ended = true) :
    c.Onward (c.mapGroup k f) where
  spad := by rw [Core.mapGroup_spad]
  tileData := by rw [Core.mapGroup_tileData]
  l1 := by rw [Core.mapGroup_l1]
  groups n g hg := by
    by_cases e : n = k
    · subst e
      exact ⟨f g, by rw [Core.group_mapGroup_same, hg, Option.map_some], hf g⟩
    · exact ⟨g, by rw [Core.group_mapGroup_other _ _ _ _ e, hg], id⟩

theorem assocGet_map {β γ : Type} (f : Nat → β → γ) (m : List (Nat × β)) (i : Nat) :
    assocGet (m.map fun p => (p.1, f p.1 p.2)) i = (assocGet m i).map (f i) := by
  induction m with
  | nil => rfl
  | cons p m ih =>
    obtain ⟨k, v⟩ := p
    by_cases e : k = i
    · simp [assocGet, e]
    · simp [assocGet, e, ih]

theorem mapGroups (c : Core) {f : Nat → Group → Group} (hf : ∀ n g, g.ended = true → (f n g).ended = true) :
    c.Onward (mapGroups c f) :=
  ⟨rfl, rfl, rfl, fun n g hg => ⟨f n g, (assocGet_map f c.groups n).trans (by rw [← Core.group?, hg, Option.map_some]), hf n g⟩⟩

theorem wakeBar (c : Core) (launch : Nat) (block : Nat → Bool) (k : BarKind) (n : Nat) (phase : Bool) :
    c.Onward (c.wakeBar launch block k n phase) := by
  refine mapGroups c fun _ g hg => ?_
  split
  · split
    · exact hg
    · exact hg
  · exact hg

theorem arriveBlock (c : Core) (b : Block) (n : Nat) : c.Onward (c.arriveBlock b n) := by
  unfold Core.arriveBlock
  simp only
  split
  · exact .trans (bars c _) (wakeBar _ _ _ _ _ _)
  · exact of_same rfl rfl rfl rfl

theorem dropRun (c : Core) (k : Nat) : c.Onward (c.dropRun k) := by
  unfold Core.dropRun
  split
  · exact .refl c
  · exact (mapGroup c _ fun g hg => by rwa [Group.setLanes_ended]).trans (mapSched _ _ _)

end Core.Onward

namespace Onward

variable {s t u : State}

theorem refl (s : State) : Onward s s := ⟨rfl, fun _ => .refl _, fun _ h => h⟩

theorem trans (a : Onward s t) (b : Onward t u) : Onward s u where
  outside := by rw [b.outside, a.outside]
  cores k := (a.cores k).trans (b.cores k)
  launches id h := b.launches id (a.launches id h)

theorem group (a : Onward s t) {core slot : Nat} {g : Group} (hg : s.group? core slot = some g) :
    ∃ h, t.group? core slot = some h ∧ (g.ended = true → h.ended = true) := (a.cores core).groups slot g hg

theorem setCore (s : State) (n : Nat) {c : Core} (hc : (s.core n).Onward c) : Onward s (s.setCore n c) where
  outside := rfl
  cores k := by
    by_cases e : k = n
    · subst e
      rwa [State.core_setCore_same]
    · rw [State.core_setCore_other _ _ _ _ e]
      exact .refl _
  launches _ h := h

theorem mapCore (s : State) (n : Nat) {f : Core → Core} (hf : ∀ c, Core.Onward c (f c)) : Onward s (s.mapCore n f) :=
  setCore s n (hf _)

theorem mapGroup (s : State) (n k : Nat) {f : Group → Group} (hf : ∀ g, g.ended = true → (f g).ended = true) :
    Onward s (s.mapGroup n k f) := mapCore s n fun c => .mapGroup c k hf

theorem foldl {α : Type} {f : State → α → State} (hf : ∀ s x, Onward s (f s x)) (xs : List α) (s : State) :
    Onward s (xs.foldl f s) :=
  List.foldlRecOn xs f (refl s) fun t a x _ => a.trans (hf t x)

end Onward

/-! ## The end of a group -/

theorem applyLeave_onward (s : State) (core slot : Nat) (p : Pend) : Onward s (applyLeave s core slot p) := by
  unfold applyLeave
  split
  · split
    · exact .refl s
    · have h1 : Onward s (s.mapGroup core slot fun g => g.dropPend p.id) := .mapGroup s core slot fun _ h => h
      simp only
      split
      · exact h1.trans (.mapCore _ _ fun c => .trans (.bars c _) (.arriveBlock _ _ _))
      · exact h1
  · exact .refl s

theorem applyLeaves_onward (s : State) (core slot : Nat) : Onward s (applyLeaves s core slot) := by
  unfold applyLeaves
  split
  · exact .refl s
  · exact .foldl (fun s p => applyLeave_onward s core slot p) _ s

/-- A group that has not ended is marked as ended; what follows brings nothing back (01 R47). -/
theorem endGroup_cases (s : State) (core slot : Nat) :
    (endGroup s core slot = s ∧ ∀ g, s.group? core slot = some g → g.ended = true) ∨
    ∃ f : Group → Group, (∀ g, (f g).ended = true) ∧ Onward (s.mapGroup core slot f) (endGroup s core slot) := by
  unfold endGroup
  split
  next hg => exact .inl ⟨rfl, fun g h => by rw [hg] at h; cases h⟩
  next g hg =>
    split
    next he => exact .inl ⟨rfl, fun h hh => by rw [hg] at hh; cases hh; exact he⟩
    next =>
      refine .inr ⟨fun g => { g with
        ended := true, wait := .none, cont := none, predicted := none, handler := none, due := none
        pend := g.pend.filter fun p => match p.op with | .take _ _ => false | .cmp _ => false | _ => true },
        fun _ => rfl, ?_⟩
      simp only
      split
      · refine .trans ?token (.trans (.foldl (fun s n => ?arrival) _ _) (applyLeaves_onward _ _ _))
        case token => exact .mapCore _ _ fun c => .mapSched c _ _
        case arrival =>
          refine .trans ?_ (.mapCore _ _ .tick)
          exact .mapGroup s core slot fun _ h => h
      · exact .mapCore _ _ fun c => .mapSched c _ _

theorem endGroup_onward (s : State) (core slot : Nat) : Onward s (endGroup s core slot) := by
  rcases endGroup_cases s core slot with ⟨e, -⟩ | ⟨f, hf, h⟩
  · rw [e]
    exact .refl s
  · exact .trans (.mapGroup s core slot fun g _ => hf g) h

/-- A group that is told to end has ended. -/
theorem endGroup_ends {s : State} {core slot : Nat} {g : Group} (hg : s.group? core slot = some g) :
    ∃ h, (endGroup s core slot).group? core slot = some h ∧ h.ended = true := by
  rcases endGroup_cases s core slot with ⟨e, he⟩ | ⟨f, hf, h⟩
  · rw [e]
    exact ⟨g, hg, he g hg⟩
  · have hm : (s.mapGroup core slot f).group? core slot = some (f g) := by
      rw [State.group_mapGroup_same, hg, Option.map_some]
    obtain ⟨k, hk, hi⟩ := h.group hm
    exact ⟨k, hk, hi (hf g)⟩

/-! ## The end of a launch -/

/-- Every group of a launch, of those that a state lists, is told to end. -/
def endGroups (id : Nat) (s : State) (cs : List (Nat × Core)) : State :=
  cs.foldl (fun s p => p.2.groups.foldl (fun s q => if q.2.launch = id then endGroup s p.1 q.1 else s) s) s

theorem endCore_onward (id core : Nat) (gs : List (Nat × Group)) (s : State) :
    Onward s (gs.foldl (fun s q => if q.2.launch = id then endGroup s core q.1 else s) s) := by
  refine .foldl (fun s q => ?_) gs s
  split
  · exact endGroup_onward s core q.1
  · exact .refl s

theorem endGroups_onward (id : Nat) (s : State) (cs : List (Nat × Core)) : Onward s (endGroups id s cs) := by
  unfold endGroups
  exact .foldl (fun s p => endCore_onward id p.1 p.2.groups s) cs s

theorem mem_of_assocGet {β : Type} {m : List (Nat × β)} {i : Nat} {v : β} (h : assocGet m i = some v) : (i, v) ∈ m := by
  induction m with
  | nil => cases h
  | cons p m ih =>
    obtain ⟨k, w⟩ := p
    by_cases e : k = i
    · simp only [assocGet, e, if_true, Option.some.injEq] at h
      simp [e, h]
    · simp only [assocGet, e, if_false] at h
      exact List.mem_cons_of_mem _ (ih h)

/-- A group that stands in a core stands in the state's list of cores. -/
theorem State.mem_of_group? {s : State} {core slot : Nat} {g : Group} (h : s.group? core slot = some g) :
    ∃ c, (core, c) ∈ s.cores ∧ (slot, g) ∈ c.groups := by
  unfold State.group? State.core at h
  cases hc : assocGet s.cores core with
  | none => rw [hc] at h; cases h
  | some c =>
    rw [hc] at h
    exact ⟨c, mem_of_assocGet hc, mem_of_assocGet h⟩

/-- A listed group of the launch that stands in the state has ended when all have been told to. -/
theorem endGroups_ends {id : Nat} {cs : List (Nat × Core)} {c : Core} {core slot : Nat} {g : Group}
    (hc : (core, c) ∈ cs) (hg : (slot, g) ∈ c.groups) (hl : g.launch = id) {s : State} {h : Group}
    (hs : s.group? core slot = some h) : ∃ k, (endGroups id s cs).group? core slot = some k ∧ k.ended = true := by
  obtain ⟨xs, ys, rfl⟩ := List.append_of_mem hc
  obtain ⟨us, vs, hgs⟩ := List.append_of_mem hg
  obtain ⟨h1, hh1, -⟩ := (endGroups_onward id s xs).group hs
  rw [endGroups, List.foldl_append, List.foldl_cons]
  simp only [hgs, List.foldl_append, List.foldl_cons, hl, if_true]
  obtain ⟨h2, hh2, -⟩ := (endCore_onward id core us _).group hh1
  obtain ⟨h3, hh3, he3⟩ := endGroup_ends hh2
  obtain ⟨h4, hh4, he4⟩ := (endCore_onward id core vs _).group hh3
  obtain ⟨h5, hh5, he5⟩ := (endGroups_onward id _ ys).group hh4
  exact ⟨h5, hh5, he5 (he4 he3)⟩

/-- What an abort writes in a launch (10 R345). -/
def Launch.abort (st : DoneStatus) (incident : Nat × Nat × Nat) (l : Launch) : Launch :=
  match l.status with
  | none => { l with status := some st, incident := l.incident <|> some incident }
  | some .gangLost => { l with status := some st }
  | some _ => l

theorem abortLaunch_eq (s : State) (id : Nat) (st : DoneStatus) (inc : Nat × Nat × Nat) :
    abortLaunch s id st inc = endGroups id (s.mapLaunch id (Launch.abort st inc)) s.cores := rfl

theorem Launch.abort_id (st : DoneStatus) (inc : Nat × Nat × Nat) (l : Launch) : (l.abort st inc).id = l.id := by
  unfold Launch.abort
  split <;> rfl

theorem Launch.abort_status (st : DoneStatus) (inc : Nat × Nat × Nat) (l : Launch) : (l.abort st inc).status ≠ none := by
  unfold Launch.abort
  split <;> simp_all

/-- The launch of a number after launches have been changed that keep their numbers. -/
theorem State.launch?_mapLaunch (s : State) {id : Nat} {f : Launch → Launch} (hf : ∀ l, (f l).id = l.id) (n : Nat) :
    (s.mapLaunch id f).launch? n = (s.launch? n).map fun l => if l.id = id then f l else l := by
  have hi : ∀ l : Launch, (if l.id = id then f l else l).id = l.id := fun l => by split <;> simp [hf]
  simp only [State.launch?, State.mapLaunch, List.find?_map, Function.comp_def, hi]

@[simp] theorem State.group?_mapLaunch (s : State) (id : Nat) (f : Launch → Launch) (n k : Nat) :
    (s.mapLaunch id f).group? n k = s.group? n k := rfl

/-- A change of launches that keeps their numbers and no status lost. -/
theorem mapLaunch_onward (s : State) (id : Nat) {f : Launch → Launch} (hf : ∀ l, (f l).id = l.id)
    (hs : ∀ l, l.status ≠ none → (f l).status ≠ none) : Onward s (s.mapLaunch id f) where
  outside := rfl
  cores _ := .refl _
  launches n h l hl := by
    rw [State.launch?_mapLaunch s hf] at hl
    obtain ⟨l', hl', rfl⟩ := Option.map_eq_some_iff.1 hl
    split
    · exact hs _ (h l' hl')
    · exact h l' hl'

theorem mapLaunch_abort_onward (s : State) (id : Nat) (st : DoneStatus) (inc : Nat × Nat × Nat) :
    Onward s (s.mapLaunch id (Launch.abort st inc)) :=
  mapLaunch_onward s id (Launch.abort_id st inc) fun l _ => l.abort_status st inc

theorem abortLaunch_onward (s : State) (id : Nat) (st : DoneStatus) (inc : Nat × Nat × Nat) :
    Onward s (abortLaunch s id st inc) := by
  rw [abortLaunch_eq]
  exact (mapLaunch_abort_onward s id st inc).trans (endGroups_onward _ _ _)

/-- The launch that an abort names has ended. -/
theorem abortLaunch_over (s : State) (id : Nat) (st : DoneStatus) (inc : Nat × Nat × Nat) :
    LaunchOver (abortLaunch s id st inc) id := by
  rw [abortLaunch_eq]
  refine (endGroups_onward _ _ _).launches id fun l hl => ?_
  rw [State.launch?_mapLaunch s (Launch.abort_id st inc)] at hl
  obtain ⟨l', hl', rfl⟩ := Option.map_eq_some_iff.1 hl
  rw [if_pos (by simpa using List.find?_some hl')]
  exact l'.abort_status st inc

/-- Every group of the launch that an abort names has ended. -/
theorem abortLaunch_ends {s : State} {core slot : Nat} {g : Group} (hg : s.group? core slot = some g) (st : DoneStatus)
    (inc : Nat × Nat × Nat) :
    ∃ h, (abortLaunch s g.launch st inc).group? core slot = some h ∧ h.ended = true := by
  obtain ⟨c, hc, hm⟩ := State.mem_of_group? hg
  rw [abortLaunch_eq]
  exact endGroups_ends hc hm rfl ((State.group?_mapLaunch ..).trans hg)

/-! ## Faults that park lanes -/

theorem lateFault_onward (s : State) (core slot id : Nat) (f : LateFault) : Onward s (lateFault s core slot id f) := by
  unfold lateFault
  split
  · exact .refl s
  · split
    · exact .mapCore _ _ fun c => .mapBlock c _ _ _
    · split
      · exact abortLaunch_onward _ _ _ _
      · split
        · exact .mapGroup _ _ _ fun _ h => h
        · exact .mapGroup _ _ _ fun g h => (g.takeLate_sameButFaults false f).ended.trans h

theorem lateFaults_onward (s : State) (core slot id : Nat) (fs : List LateFault) :
    Onward s (fs.foldl (fun s f => lateFault s core slot id f) s) :=
  .foldl (fun s f => lateFault_onward s core slot id f) fs s

theorem parkNows_ended (fs : List LateFault) (g : Group) : (fs.foldl Group.parkNow g).ended = g.ended :=
  (Group.SameButFaults.foldl Group.parkNow_sameButFaults fs g).ended

theorem parkAtIssue_onward (s : State) (core slot : Nat) (fs : List LateFault) : Onward s (parkAtIssue s core slot fs) := by
  unfold parkAtIssue
  split
  · split
    · exact abortLaunch_onward _ _ _ _
    · refine .trans (.mapGroup _ _ _ fun g h => ?_) (.mapCore _ _ fun c => .mapSched c _ _)
      exact (parkNows_ended _ g).trans h
  · exact .refl s

/-! ## The course of a run -/

theorem Group.movePcs_ended_of (g : Group) (m : LaneMask) (pc : Word) (h : g.ended = true) :
    (g.movePcs m pc).ended = true := by rwa [Group.movePcs_ended]

theorem endRun_onward (s : State) (core sched : Nat) : Onward s (endRun s core sched) := by
  unfold endRun
  split
  · exact .refl s
  · exact .trans (.mapCore _ _ fun c => .dropRun c sched)
      (.mapGroup _ _ _ fun g h => g.parkAll_sameButFaults.ended.trans h)

theorem stepRun_onward (s : State) (x : Issuer) (r : Run) : Onward s (stepRun s x r) := by
  have h : Onward s ((s.mapGroup x.core x.slot fun g => g.movePcs r.exec r.pos).mapCore x.core fun c =>
      c.mapSched x.sched fun k => { k with run := some r }) :=
    .trans (.mapGroup _ _ _ fun g h => g.movePcs_ended_of r.exec r.pos h) (.mapCore _ _ fun c => .mapSched c _ _)
  unfold stepRun
  simp only
  split
  · exact h.trans (endRun_onward _ _ _)
  · exact h

end Sys2Proof.Machine
end

section
/-! PROOF. The issue of an access: its lanes sorted by what becomes of them, and the access that the others make
(05 R181, R182, 10 R348). -/

namespace Sys2Proof.Machine

/-! ## The lanes of an access -/

/-- The lanes that an access names, before their locations are formed. -/
theorem map_lane_accLanes (s : State) (x : Issuer) (f : AccForm) (m : LaneMask) :
    (accLanes s x f m).map (fun p => p.1.lane) = if f.x.sd then [elect m] else lanesOf m := by
  simp only [accLanes, List.map_map]
  exact List.map_id' _

theorem accLanes_nodup (s : State) (x : Issuer) (f : AccForm) (m : LaneMask) :
    ((accLanes s x f m).map fun p => p.1.lane).Nodup := by
  rw [map_lane_accLanes]
  split
  · exact List.nodup_singleton _
  · exact nodup_lanesOf m

/-- A lane stands once among the lanes of an access. -/
theorem accLanes_lane_inj {s : State} {x : Issuer} {f : AccForm} {m : LaneMask} {p q : LaneAcc × LaneForm}
    (hp : p ∈ accLanes s x f m) (hq : q ∈ accLanes s x f m) (h : p.1.lane = q.1.lane) : p = q :=
  List.inj_on_of_nodup_map (accLanes_nodup s x f m) hp hq h

/-- Where a lane's form says that it goes. -/
theorem accLanes_formed {s : State} {x : Issuer} {f : AccForm} {m : LaneMask} {p : LaneAcc × LaneForm}
    (hp : p ∈ accLanes s x f m) :
    (∀ d t, p.2 = .ok d t → p.1.target = t) ∧ (∀ c e d, p.2 = .fault c e d → p.1.loc = d) ∧
    (∀ c e d, p.2 = .late c e d → p.1.loc = d) := by
  obtain ⟨l, -, rfl⟩ := List.mem_map.1 hp
  refine ⟨fun d t h => ?_, fun c e d h => ?_, fun c e d h => ?_⟩ <;> simp only at h ⊢ <;> simp only [h]

/-- The lanes that fault at issue. -/
def faultsNow (site : Site) (ls : List (LaneAcc × LaneForm)) : List LateFault := (splitLanes site ls).1

/-- The lanes that fault late. -/
def faultsLate (site : Site) (ls : List (LaneAcc × LaneForm)) : List LateFault := (splitLanes site ls).2.1

/-- The lanes whose access is made. -/
def lanesMade (ls : List (LaneAcc × LaneForm)) : List LaneAcc :=
  ls.filterMap fun p => match p.2 with | .ok _ _ => some p.1 | _ => none

theorem mem_faultsNow {site : Site} {ls : List (LaneAcc × LaneForm)} {e : LateFault} :
    e ∈ faultsNow site ls ↔ ∃ p ∈ ls, ∃ c d a, p.2 = .fault c d a ∧ e = lateOf site p.1 c d := by
  simp only [faultsNow, splitLanes, List.mem_filterMap]
  refine exists_congr fun p => and_congr_right fun _ => ?_
  cases p.2 <;> simp [eq_comm]

theorem mem_faultsLate {site : Site} {ls : List (LaneAcc × LaneForm)} {e : LateFault} :
    e ∈ faultsLate site ls ↔ ∃ p ∈ ls, ∃ c d a, p.2 = .late c d a ∧ e = lateOf site p.1 c d := by
  simp only [faultsLate, splitLanes, List.mem_filterMap]
  refine exists_congr fun p => and_congr_right fun _ => ?_
  cases p.2 <;> simp [eq_comm]

theorem mem_lanesMade {ls : List (LaneAcc × LaneForm)} {l : LaneAcc} :
    l ∈ lanesMade ls ↔ ∃ p ∈ ls, ∃ d t, p.2 = .ok d t ∧ l = p.1 := by
  simp only [lanesMade, List.mem_filterMap]
  refine exists_congr fun p => and_congr_right fun _ => ?_
  cases p.2 <;> simp [eq_comm]

theorem splitLanes_eq (site : Site) (ls : List (LaneAcc × LaneForm)) :
    splitLanes site ls = (faultsNow site ls, faultsLate site ls, lanesMade ls) := rfl

theorem numberParts_eq_nil {sp : Space} {k : AccKind} {bytes : Nat} {ls : List LaneAcc} :
    numberParts sp k bytes ls = [] ↔ ls = [] := List.map_eq_nil_iff

/-- Numbering the requests changes no lane's target. -/
theorem target_of_mem_numberParts {sp : Space} {k : AccKind} {bytes : Nat} {ls : List LaneAcc} {l : LaneAcc}
    (h : l ∈ numberParts sp k bytes ls) : ∃ l' ∈ ls, l.target = l'.target := by
  obtain ⟨l', hl', rfl⟩ := List.mem_map.1 h
  exact ⟨l', hl', rfl⟩

/-! ## The access that issues -/

/-- The access that an instruction issues, with the lanes that may be made. -/
def issued (s : State) (x : Issuer) (i : Instr) (f : AccForm) (m : LaneMask) : Access :=
  let ls := accLanes s x f m
  { site := siteOf x i, kind := f.kind, space := f.sp, size := f.x.size.toNat, fresh := f.x.fr, hint := f.x.hint
    aop := f.x.off.extractLsb' 12 4, dReg := f.w.d.toNat, scalar := f.x.sd, win := x.g.winmap
    logged := f.sp == .g && ls.any fun p => inDemand x.l p.1.loc
    behind := [], lanes := numberParts f.sp f.kind (sizeBytes f.x.size.toNat) (lanesMade ls) }

theorem issued_isHomeAtom (s : State) (x : Issuer) (i : Instr) (f : AccForm) (m : LaneMask) :
    (issued s x i f m).isHomeAtom = (f.sp == .g && (f.kind == .atom || f.kind == .red)) := by
  simp only [Access.isHomeAtom, issued]
  cases f.sp <;> cases f.kind <;> rfl

/-- An access whose group has room in the operand log, and whose spans have left the core's L1 where they must, is admitted. -/
theorem issueAccess_admits {s t : State} {x : Issuer} {i : Instr} {f : AccForm} {m : LaneMask} (hl : x.g.logFull = false)
    (hf : (if (issued s x i f m).isHomeAtom then
      flushAtom s x.core x.l.asid (sizeBytes f.x.size.toNat) (issued s x i f m).lanes else some (s, true)) = some (t, true)) :
    issueAccess s x i f m = doneOrGone (admitAccess t x.core x.slot x.l (issued s x i f m)
      (faultsNow (siteOf x i) (accLanes s x f m)) (faultsLate (siteOf x i) (accLanes s x f m))) x := by
  have hw : ((issued s x i f m).logged && x.g.logFull) = false := by rw [hl, Bool.and_false]
  simp only [issueAccess, splitLanes_eq]
  change (if ((issued s x i f m).logged && x.g.logFull) = true then _ else
    match (if (issued s x i f m).isHomeAtom then
      flushAtom s x.core x.l.asid (sizeBytes f.x.size.toNat) (issued s x i f m).lanes else some (s, true)) with
    | none => Act.stall
    | some (t, false) => .held t
    | some (t, true) => doneOrGone (admitAccess t x.core x.slot x.l (issued s x i f m) _ _) x) = _
  rw [hw, hf]
  rfl

/-- An access instruction that executes ends as its issue says. -/
theorem exec_access {s : State} {x : Issuer} {i : Instr} {f : AccForm} (hi : accessForm i = some f) (h : Executes s x i) :
    exec i s = .next (settleAct s x i (issueAccess s x i f (activeOf x i))) := by
  rw [accessForm_exec hi, access, runInstr_executes h]

/-- The issuer's group and run stand in the state. -/
theorem issuer_stands {s : State} {x : Issuer} (h : issuer s = some x) :
    s.group? x.core x.slot = some x.g ∧ ((s.core x.core).sched x.sched).run = some x.run ∧ x.run.slot = x.slot := by
  unfold issuer at h
  split at h
  case h_1 =>
    split at h
    · cases h
    next r hr =>
      split at h
      · cases h
      next g hg =>
        split at h
        · cases h
          exact ⟨hg, hr, rfl⟩
        · cases h
  case h_2 => cases h

/-! ## What admission does -/

/-- A group with an access pending, which takes its entry of the operand log where it is logged (10 R348). -/
def Group.takeAccess (g : Group) (id : Nat) (a : Access) (vals : List (Nat × DWord × DWord × List Word)) : Group :=
  let g := g.addPend id (.access a)
  (if a.logged then g.logPut { id := id, site := a.site, lanes := vals } else g).logFree

/-- An access that has a lane becomes pending. -/
def enterAccess (s : State) (core slot : Nat) (a : Access) (vals : List (Nat × DWord × DWord × List Word)) : State :=
  if a.lanes.isEmpty then s else
    let id := (s.core core).nextId
    holdAtomic ((s.mapGroup core slot fun g => g.takeAccess id a vals).mapCore core Core.tick) core slot id a

/-- A launch that performs an access of the P space uses the fabric (11 R372). -/
def markFabric (s : State) (sp : Space) (id : Nat) : State :=
  if sp == .p then s.mapLaunch id fun l => { l with fabric := true } else s

/-- The entry of an access, the faults found late, and the lanes parked at issue, in this order. -/
def admitted (s : State) (core slot : Nat) (lc : Launch) (a : Access) (vals : List (Nat × DWord × DWord × List Word))
    (late now : List LateFault) : State :=
  let u := markFabric s a.space lc.id
  parkAtIssue (late.foldl (fun s f => lateFault s core slot (u.core core).nextId f) (enterAccess u core slot a vals)) core slot now

/-- Admission translates the lanes, and then the access enters. -/
theorem admitAccess_eq (s : State) (core slot : Nat) (lc : Launch) (a : Access) (now late : List LateFault) :
    let r := translateParts s core lc a.kind a.fresh (sizeBytes a.size) a.lanes (dedup (a.lanes.map fun l => l.part))
    ∃ b vals, admitAccess s core slot lc a now late =
      admitted r.1 core slot lc { a with behind := b, lanes := r.2.1 } vals
        (late ++ (a.lanes.filter fun l => r.2.2.contains l.lane).map fun l => lateOf a.site l .accessRights 3) now :=
  ⟨_, _, rfl⟩

theorem translateLanes_of_target {s : State} {core : Nat} {lc : Launch} {k : AccKind} {fresh : Bool} {bytes : Nat}
    {ls : List LaneAcc} (h : ∀ l ∈ ls, ∀ r p b, l.target ≠ .walk r p b) :
    translateLanes s core lc k fresh bytes ls = (s, ls, []) := by
  unfold translateLanes
  split
  · rfl
  next l ls =>
    split
    next r p b e => exact absurd e (h l (by simp) r p b)
    next => rfl

theorem mem_dedup {α : Type} [DecidableEq α] {x : α} {xs : List α} : x ∈ dedup xs ↔ x ∈ xs := by
  induction xs with
  | nil => rfl
  | cons y ys ih =>
    rw [dedup]
    split
    next h => rw [ih, List.mem_cons]; exact ⟨.inr, fun h' => h'.elim (fun e => e ▸ h) id⟩
    next => rw [List.mem_cons, List.mem_cons, ih]

/-- The lanes of an access, request by request. -/
def lanesByPart (ls : List LaneAcc) (ps : List Nat) : List LaneAcc := ps.flatMap fun p => ls.filter fun l => l.part == p

/-- Lanes none of which awaits a page are translated already. -/
theorem translateParts_of_target {s : State} {core : Nat} {lc : Launch} {k : AccKind} {fresh : Bool} {bytes : Nat}
    {ls : List LaneAcc} (h : ∀ l ∈ ls, ∀ r p b, l.target ≠ .walk r p b) (ps : List Nat) :
    translateParts s core lc k fresh bytes ls ps = (s, lanesByPart ls ps, []) := by
  induction ps with
  | nil => rfl
  | cons p ps ih =>
    rw [translateParts, translateLanes_of_target fun l hl => h l (List.mem_filter.1 hl).1]
    simp only [ih]
    rfl

/-- The requests of an access hold all its lanes. -/
theorem mem_lanesByPart {ls : List LaneAcc} {l : LaneAcc} : l ∈ lanesByPart ls (dedup (ls.map fun l => l.part)) ↔ l ∈ ls := by
  simp only [lanesByPart, List.mem_flatMap, mem_dedup, List.mem_map, List.mem_filter, beq_iff_eq]
  exact ⟨fun ⟨_, _, h, _⟩ => h, fun h => ⟨_, ⟨l, h, rfl⟩, h, rfl⟩⟩

theorem lanesByPart_eq_nil {ls : List LaneAcc} : lanesByPart ls (dedup (ls.map fun l => l.part)) = [] ↔ ls = [] := by
  simp only [List.eq_nil_iff_forall_not_mem, mem_lanesByPart]

/-- A change of page translations: nothing but the dies differs. -/
def OnlyDies (s t : State) : Prop := t = { s with die0 := t.die0, die1 := t.die1 }

theorem OnlyDies.trans {s t u : State} (a : OnlyDies s t) (b : OnlyDies t u) : OnlyDies s u := by
  unfold OnlyDies at *
  rw [b, a]

theorem mapDie_onlyDies (s : State) (d : Nat) (f : Die → Die) : OnlyDies s (s.mapDie d f) := by
  unfold State.mapDie OnlyDies
  split <;> rfl

theorem translateLanes_onlyDies (s : State) (core : Nat) (lc : Launch) (k : AccKind) (fresh : Bool) (bytes : Nat)
    (ls : List LaneAcc) : OnlyDies s (translateLanes s core lc k fresh bytes ls).1 := by
  unfold translateLanes
  split
  · rfl
  · split
    · simp only
      split
      · rfl
      · split
        · split <;> dsimp only <;> exact mapDie_onlyDies _ _ _
        · dsimp only
          exact mapDie_onlyDies _ _ _
    · rfl

theorem translateParts_onlyDies (core : Nat) (lc : Launch) (k : AccKind) (fresh : Bool) (bytes : Nat) (ls : List LaneAcc) :
    ∀ (ps : List Nat) (s : State), OnlyDies s (translateParts s core lc k fresh bytes ls ps).1
  | [], _ => rfl
  | _ :: ps, s => (translateLanes_onlyDies s core lc k fresh bytes _).trans
      (translateParts_onlyDies core lc k fresh bytes ls ps _)

end Sys2Proof.Machine
end

section
/-! PROOF. Lanes that fault park, and the others' access becomes pending; in a handler a fault ends the launch (05 R181, 01 R45,
10 R345, R347). -/

namespace Sys2Proof.Machine

/-! ## The L1 before an atomic -/

/-- Nothing but the L1 of one core differs. -/
structure OnlyL1 (core : Nat) (s t : State) : Prop where
  outside : OnlyCores s t
  others : ∀ k, k ≠ core → t.core k = s.core k
  inCore : t.core core = { s.core core with l1 := (t.core core).l1 }

theorem OnlyL1.refl (core : Nat) (s : State) : OnlyL1 core s s := ⟨rfl, fun _ _ => rfl, rfl⟩

theorem OnlyL1.group? {core : Nat} {s t : State} (h : OnlyL1 core s t) (n : Nat) : t.group? core n = s.group? core n := by
  rw [State.group?, h.inCore]
  rfl

theorem OnlyL1.sched {core : Nat} {s t : State} (h : OnlyL1 core s t) (k : Nat) :
    (t.core core).sched k = (s.core core).sched k := by
  rw [h.inCore]
  rfl

theorem OnlyL1.nextId {core : Nat} {s t : State} (h : OnlyL1 core s t) : (t.core core).nextId = (s.core core).nextId := by
  rw [h.inCore]

theorem OnlyL1.spad {core : Nat} {s t : State} (h : OnlyL1 core s t) (k : Nat) : (t.core k).spad = (s.core k).spad := by
  by_cases e : k = core
  · rw [e, h.inCore]
  · rw [h.others k e]

theorem OnlyL1.tileData {core : Nat} {s t : State} (h : OnlyL1 core s t) (k : Nat) :
    (t.core k).tileData = (s.core k).tileData := by
  by_cases e : k = core
  · rw [e, h.inCore]
  · rw [h.others k e]

theorem flushBytes_gone {s t : State} {core : Nat} {span : L1Line → BitVec 128}
    (h : flushBytes s core span = some (t, true)) : t = s := by
  unfold flushBytes at h
  simp only at h
  split at h
  · cases h
  · split at h
    · cases h
    · cases h
      rfl

/-- Spans that have gone from the L1 leave everything else as it was (05 R197). -/
theorem flushAtom_gone {s t : State} {core asid bytes : Nat} {ls : List LaneAcc}
    (h : flushAtom s core asid bytes ls = some (t, true)) : OnlyL1 core s t := by
  unfold flushAtom at h
  split at h
  next u hu =>
    cases h
    rw [flushBytes_gone hu]
    refine ⟨rfl, fun k hk => State.core_mapCore_other _ _ _ _ hk, ?_⟩
    rw [State.core_mapCore_same]
    rfl
  next hn => exact absurd h (hn t)

theorem wordBytes_zero : wordBytes 0#32 = 0#128 := by decide

/-- No lane, no span to flush. -/
theorem flushAtom_nil (s : State) (core asid bytes : Nat) : ∃ t, flushAtom s core asid bytes [] = some (t, true) := by
  have hw : ∀ y : L1Line, wordBytes (atomWords asid bytes [] y) = 0#128 := fun _ => wordBytes_zero
  have hf : flushBytes s core (fun y => wordBytes (atomWords asid bytes [] y)) = some (s, true) := by
    simp [flushBytes, hw]
  exact ⟨_, by rw [flushAtom, hf]⟩

/-- The state in which the lanes of an access are admitted, when nothing keeps them in the L1. -/
theorem flushed_onlyL1 {s t : State} {core asid bytes : Nat} {ls : List LaneAcc} {atom : Bool}
    (h : (if atom then flushAtom s core asid bytes ls else some (s, true)) = some (t, true)) : OnlyL1 core s t := by
  cases atom
  · cases h
    exact .refl core s
  · exact flushAtom_gone h

/-! ## Admission outside a handler -/

theorem Group.logPut_frame (g : Group) (e : OplogEntry) : g.logPut e = { g with oplog := (g.logPut e).oplog } := by
  unfold Group.logPut
  split <;> rfl

theorem Group.takeAccess_frame (g : Group) (id : Nat) (a : Access) (vals : List (Nat × DWord × DWord × List Word)) :
    g.takeAccess id a vals =
      { g with pend := g.pend ++ [{ id := id, op := .access a }], oplog := (g.takeAccess id a vals).oplog } := by
  unfold Group.takeAccess
  cases a.logged
  · rfl
  · simp only [if_true, Group.logFree]
    rw [Group.logPut_frame]
    rfl

/-- An access with a lane becomes the group's last pending operation. -/
theorem enterAccess_touches {s : State} {core slot : Nat} {g : Group} (a : Access)
    (vals : List (Nat × DWord × DWord × List Word)) (hg : s.group? core slot = some g) :
    ∃ ps o w, Touches core slot s (enterAccess s core slot a vals) g { g with pend := g.pend ++ ps, oplog := o, wait := w } ∧
      (∀ k, ((enterAccess s core slot a vals).core core).sched k = (s.core core).sched k) ∧
      (a.lanes = [] → ps = []) ∧
      (a.lanes ≠ [] → ps = [{ id := (s.core core).nextId, op := .access a }]) := by
  by_cases hl : a.lanes = []
  · refine ⟨[], g.oplog, g.wait, ?_⟩
    rw [enterAccess, hl, List.append_nil]
    exact ⟨.refl hg, fun _ => rfl, fun _ => rfl, fun h => absurd rfl h⟩
  · have hn : a.lanes.isEmpty = false := by simpa using hl
    let id := (s.core core).nextId
    let u := (s.mapGroup core slot fun g => g.takeAccess id a vals).mapCore core Core.tick
    have hu : Touches core slot s u g (g.takeAccess id a vals) :=
      have h1 := Touches.mapGroup hg fun g => g.takeAccess id a vals
      h1.trans (.mapCore h1.after fun _ => rfl)
    have hs : ∀ k, (u.core core).sched k = (s.core core).sched k := fun k => by
      rw [State.core_mapCore_same]
      exact State.sched_mapGroup ..
    rw [Group.takeAccess_frame] at hu
    have he : enterAccess s core slot a vals = holdAtomic u core slot id a := by
      rw [enterAccess, hn]
      rfl
    rw [he, holdAtomic]
    split
    · exact ⟨_, _, _, hu.trans (.mapGroup hu.after fun g => { g with wait := .service id }),
        fun k => (State.sched_mapGroup ..).trans (hs k), fun h => absurd h hl, fun _ => rfl⟩
    · exact ⟨_, _, g.wait, hu, hs, fun h => absurd h hl, fun _ => rfl⟩

theorem markFabric_cores (s : State) (sp : Space) (id : Nat) : (markFabric s sp id).cores = s.cores := by
  unfold markFabric
  split <;> rfl

@[simp] theorem markFabric_core (s : State) (sp : Space) (id n : Nat) : (markFabric s sp id).core n = s.core n := by
  rw [State.core, markFabric_cores, State.core]

@[simp] theorem markFabric_group? (s : State) (sp : Space) (id n k : Nat) :
    (markFabric s sp id).group? n k = s.group? n k := by
  rw [State.group?, markFabric_core, State.group?]

theorem markFabric_outside (s : State) (sp : Space) (id : Nat) :
    markFabric s sp id = { s with launches := (markFabric s sp id).launches } := by
  unfold markFabric
  split <;> rfl

theorem markFabric_launches {sp : Space} (h : sp ≠ .p) (s : State) (id : Nat) : markFabric s sp id = s := by
  have : (sp == Space.p) = false := by simpa using h
  rw [markFabric, this]
  rfl

theorem markFabric_onward (s : State) (sp : Space) (id : Nat) : Onward s (markFabric s sp id) := by
  unfold markFabric
  split
  · exact mapLaunch_onward s id (fun _ => rfl) fun _ h => h
  · exact .refl s

/-- Outside a handler an access that is admitted enters its group, and its faults strike the group (R181, 10 R347). -/
theorem admitted_touches {s : State} {core slot : Nat} {g : Group} (lc : Launch) (a : Access)
    (vals : List (Nat × DWord × DWord × List Word)) (late now : List LateFault) (hg : s.group? core slot = some g)
    (he : g.ended = false) (hh : g.handler = none) :
    ∃ ps o w, let t := admitted s core slot lc a vals late now
      let g1 := { g with pend := g.pend ++ ps, oplog := o, wait := w }
      Touches core slot (markFabric s a.space lc.id) t g (g1.faulted (inRun s core slot) late now) ∧
      (a.lanes = [] → ps = []) ∧ (a.lanes ≠ [] → ps = [{ id := (s.core core).nextId, op := .access a }]) ∧
      ∀ k, ((s.core core).sched k).run.isSome = true → ((t.core core).sched k).run =
        ((s.core core).sched k).run.map fun r => if k = schedOf slot ∧ r.slot = slot then
          { r with exec := r.exec &&& ~~~maskOf (now.map fun f => f.lane) } else r := by
  let u := markFabric s a.space lc.id
  obtain ⟨ps, o, w, h1, hs1, hnil, hcons⟩ := enterAccess_touches (s := u) a vals ((markFabric_group? ..).trans hg)
  obtain ⟨h2, hs2⟩ := lateFaults_touches (id := (u.core core).nextId) late h1.after he (by rw [hh]; rfl)
  obtain ⟨h3, hs3⟩ := parkAtIssue_touches now h2.after
    ((Group.SameButFaults.foldl (Group.takeLate_sameButFaults _) late _).handler.trans hh)
  have hs : ∀ k, ((late.foldl (fun s f => lateFault s core slot (u.core core).nextId f)
      (enterAccess u core slot a vals)).core core).sched k = (s.core core).sched k := fun k => by
    rw [hs2, hs1, markFabric_core]
  have hin : inRun (enterAccess u core slot a vals) core slot = inRun s core slot := by
    rw [inRun, hs1, markFabric_core, inRun]
  refine ⟨ps, o, w, ?_, hnil, by simpa only [u, markFabric_core] using hcons, fun k hk => ?_⟩
  · have := (h1.trans h2).trans h3
    rw [hin] at this
    exact this
  · have := hs3 k (by rwa [hs])
    rw [hs] at this
    exact this

/-- The same of an access none of whose lanes awaits a page: its lanes are translated already. -/
theorem admitAccess_touches {s : State} {core slot : Nat} {g : Group} (lc : Launch) {a : Access} (now late : List LateFault)
    (hg : s.group? core slot = some g) (he : g.ended = false) (hh : g.handler = none)
    (hw : ∀ l ∈ a.lanes, ∀ r p b, l.target ≠ .walk r p b) :
    ∃ ps o w, let t := admitAccess s core slot lc a now late
      let g1 := { g with pend := g.pend ++ ps, oplog := o, wait := w }
      Touches core slot (markFabric s a.space lc.id) t g (g1.faulted (inRun s core slot) late now) ∧
      (a.lanes = [] → ps = []) ∧
      (a.lanes ≠ [] → ∃ b ls, (∀ l, l ∈ ls ↔ l ∈ a.lanes) ∧
        ps = [{ id := (s.core core).nextId, op := .access { a with behind := b, lanes := ls } }]) ∧
      ∀ k, ((s.core core).sched k).run.isSome = true → ((t.core core).sched k).run =
        ((s.core core).sched k).run.map fun r => if k = schedOf slot ∧ r.slot = slot then
          { r with exec := r.exec &&& ~~~maskOf (now.map fun f => f.lane) } else r := by
  obtain ⟨b, vals, hadm⟩ := admitAccess_eq s core slot lc a now late
  have hro : (a.lanes.filter fun l => ([] : List Nat).contains l.lane) = [] := by simp
  rw [translateParts_of_target hw, hro, List.map_nil, List.append_nil] at hadm
  obtain ⟨ps, o, w, ht, hnil, hcons, hrun⟩ := admitted_touches lc
    { a with behind := b, lanes := lanesByPart a.lanes (dedup (a.lanes.map fun l => l.part)) } vals late now hg he hh
  rw [← hadm] at ht hrun
  exact ⟨ps, o, w, ht, fun hn => hnil (lanesByPart_eq_nil.2 hn),
    fun hn => ⟨b, _, fun _ => mem_lanesByPart, hcons (mt lanesByPart_eq_nil.1 hn)⟩, hrun⟩

/-! ## An access outside a handler -/

theorem issued_target {s : State} {x : Issuer} {i : Instr} {f : AccForm} {m : LaneMask}
    (h : ∀ p ∈ accLanes s x f m, ∀ loc r pg b, p.2 ≠ .ok loc (.walk r pg b)) :
    ∀ l ∈ (issued s x i f m).lanes, ∀ r p b, l.target ≠ .walk r p b := by
  intro l hl r pg b e
  obtain ⟨l', hl', ht⟩ := target_of_mem_numberParts hl
  obtain ⟨p, hp, d, t, hok, rfl⟩ := mem_lanesMade.1 hl'
  have := (accLanes_formed hp).1 d t hok
  exact h p hp d r pg b (by rw [hok, ← this, ← ht, e])

theorem doneOrGone_of_live {s : State} {x : Issuer} {g : Group} (hg : s.group? x.core x.slot = some g)
    (he : g.ended = false) : doneOrGone s x = .done s := by
  simp [doneOrGone, hg, he]

/-- The run of an access goes on behind it, without the lanes that have parked. -/
theorem settle_access (s : State) {t u : State} {x : Issuer} {i : Instr} {g h : Group} {lanes : List Nat}
    (ht : Touches x.core x.slot u t g h) (he : h.ended = false) (hs : x.run.slot = x.slot) (hm : x.run.marked = 0#64)
    (hr : ((t.core x.core).sched x.sched).run = some (if x.sched = schedOf x.slot ∧ x.run.slot = x.slot then
      { x.run with exec := x.run.exec &&& ~~~maskOf lanes } else x.run)) :
    ∃ v h' m pc, settleAct s x i (doneOrGone t x) = v ∧ Touches x.core x.slot u v g h' ∧ h.Behind m pc h' ∧
      (x.sched = schedOf x.slot → ∀ l ∈ lanes, l < 64 → m.getLsbD l = false) := by
  obtain ⟨r, hrun, hrs, hrm, hre⟩ : ∃ r, ((t.core x.core).sched x.sched).run = some r ∧ r.slot = x.slot ∧
      r.marked = 0#64 ∧ (x.sched = schedOf x.slot → r.exec = x.run.exec &&& ~~~maskOf lanes) := by
    refine ⟨_, hr, ?_, ?_, fun hx => ?_⟩
    · split <;> exact hs
    · split <;> exact hm
    · rw [if_pos ⟨hx, hs⟩]
  have hnow : runNow t x = r := by rw [runNow, hrun, Option.getD_some]
  obtain ⟨h', ht', hb⟩ := stepRun_touches (r := r.moved (lenOf i)) ht.after (by rw [hrun]; rfl) hrs hrm
  refine ⟨_, h', r.exec, (r.moved (lenOf i)).pos, ?_, ht.trans ht', hb, fun hx l hl h64 => ?_⟩
  · rw [doneOrGone_of_live ht.after he, settleAct, hnow]
  · rw [hre hx, BitVec.getLsbD_and, BitVec.getLsbD_not, getLsbD_maskOf _ h64, List.contains_iff_mem.2 hl]
    simp

/-- What an access leaves of its group and state, outside a handler and with its spans gone from the L1. -/
theorem access_outside_handler {s u : State} {x : Issuer} {i : Instr} {f : AccForm} (hi : accessForm i = some f)
    (h : Executes s x i) (he : x.g.ended = false) (hh : x.g.handler = none) (hlog : x.g.logFull = false)
    (hm : x.run.marked = 0#64)
    (hw : ∀ p ∈ accLanes s x f (activeOf x i), ∀ loc r pg b, p.2 ≠ .ok loc (.walk r pg b))
    (hf : (if (issued s x i f (activeOf x i)).isHomeAtom then
      flushAtom s x.core x.l.asid (sizeBytes f.x.size.toNat) (issued s x i f (activeOf x i)).lanes else some (s, true)) =
        some (u, true)) :
    let ls := accLanes s x f (activeOf x i)
    let late := faultsLate (siteOf x i) ls
    let now := faultsNow (siteOf x i) ls
    let a := issued s x i f (activeOf x i)
    ∃ t g' ps o w b m pc, exec i s = .next t ∧ Touches x.core x.slot (markFabric u f.sp x.l.id) t x.g g' ∧
      (Group.faulted b late now { x.g with pend := x.g.pend ++ ps, oplog := o, wait := w }).Behind m pc g' ∧
      (a.lanes = [] → ps = []) ∧
      (a.lanes ≠ [] → ∃ bh ls', (∀ l, l ∈ ls' ↔ l ∈ a.lanes) ∧
        ps = [{ id := (s.core x.core).nextId, op := .access { a with behind := bh, lanes := ls' } }]) ∧
      (x.sched = schedOf x.slot → ∀ e ∈ now, e.lane < 64 → m.getLsbD e.lane = false) := by
  intro ls late now a
  obtain ⟨hg, hr, hslot⟩ := issuer_stands h.1.1
  have hu := flushed_onlyL1 hf
  have hur : ((u.core x.core).sched x.sched).run = some x.run := by rw [hu.sched, hr]
  obtain ⟨ps, o, w, ht, hnil, hcons, hrun⟩ :=
    admitAccess_touches x.l now late ((hu.group? _).trans hg) he hh (issued_target (i := i) hw)
  have hrun := hrun x.sched (by rw [hur]; rfl)
  rw [hur, Option.map_some] at hrun
  obtain ⟨t, g', m, pc, hset, ht', hb, hpark⟩ := settle_access s (i := i) ht ((Group.faulted_sameButFaults ..).ended.trans he)
    hslot hm hrun
  rw [hu.nextId] at hcons
  refine ⟨t, g', ps, o, w, _, m, pc, ?_, ht', hb, hnil, hcons, fun hx e hem => hpark hx _ (List.mem_map_of_mem hem)⟩
  rw [exec_access hi h, issueAccess_admits hlog hf, hset]

/-! ## What its lanes and the rest of the module show -/

/-- The faults of an access stand each at a lane of its own. -/
theorem faultsNow_of_lane {s : State} {x : Issuer} {f : AccForm} {m : LaneMask} {site : Site} {p : LaneAcc × LaneForm}
    {c : Cause} {d : Nat} {a : DWord} {e : LateFault} (hp : p ∈ accLanes s x f m) (hc : p.2 = .fault c d a)
    (he : e ∈ faultsNow site (accLanes s x f m)) (hl : p.1.lane = e.lane) : e = lateOf site p.1 c d := by
  obtain ⟨q, hq, c', d', a', hc', rfl⟩ := mem_faultsNow.1 he
  obtain rfl := accLanes_lane_inj hp hq hl
  rw [hc] at hc'
  cases hc'
  rfl

theorem faultsLate_of_lane {s : State} {x : Issuer} {f : AccForm} {m : LaneMask} {site : Site} {p : LaneAcc × LaneForm}
    {c : Cause} {d : Nat} {a : DWord} {e : LateFault} (hp : p ∈ accLanes s x f m) (hc : p.2 = .fault c d a)
    (he : e ∈ faultsLate site (accLanes s x f m)) : p.1.lane ≠ e.lane := by
  intro hl
  obtain ⟨q, hq, c', d', a', hc', rfl⟩ := mem_faultsLate.1 he
  obtain rfl := accLanes_lane_inj hp hq hl
  rw [hc] at hc'
  cases hc'

theorem faultsNow_site {site : Site} {ls : List (LaneAcc × LaneForm)} {e : LateFault} (h : e ∈ faultsNow site ls) :
    e.site = site := by
  obtain ⟨p, -, c, d, a, -, rfl⟩ := mem_faultsNow.1 h
  rfl

theorem faultsLate_site {site : Site} {ls : List (LaneAcc × LaneForm)} {e : LateFault} (h : e ∈ faultsLate site ls) :
    e.site = site := by
  obtain ⟨p, -, c, d, a, -, rfl⟩ := mem_faultsLate.1 h
  rfl

section
variable {s : State} {x : Issuer} {f : AccForm} {site : Site} {k : LaneMask} {g g' : Group} {b : Bool} {m : LaneMask}
  {pc : Word} {p : LaneAcc × LaneForm} {n : Nat} {c : Cause} {d : Nat} {a : DWord}

/-- A lane that is made, or that the access does not name, keeps its state, record and entry. -/
theorem made_lane_keeps (hh : g.handler = none) (hd : g.late = [])
    (hb : (g.faulted b (faultsLate site (accLanes s x f k)) (faultsNow site (accLanes s x f k))).Behind m pc g')
    (hn : ∀ p ∈ accLanes s x f k, p.1.lane = n → ∃ loc t, p.2 = .ok loc t) : SameLane n g g' := by
  refine Group.Behind.sameLane hh hd (fun e he hl => ?_) (fun e he hl => ?_) hb
  · obtain ⟨p, hp, c, d, a, hc, rfl⟩ := mem_faultsLate.1 he
    obtain ⟨loc, t, hok⟩ := hn p hp hl.symm
    rw [hc] at hok
    cases hok
  · obtain ⟨p, hp, c, d, a, hc, rfl⟩ := mem_faultsNow.1 he
    obtain ⟨loc, t, hok⟩ := hn p hp hl.symm
    rw [hc] at hok
    cases hok

/-- A lane that runs and faults late is parked, or its fault waits for the end of the run. -/
theorem late_lane_parks (hh : g.handler = none) (hd : g.late = [])
    (hb : (g.faulted b (faultsLate site (accLanes s x f k)) (faultsNow site (accLanes s x f k))).Behind m pc g')
    (hp : p ∈ accLanes s x f k) (hc : p.2 = .late c d a) (hr : nth .exited g.lanes p.1.lane = .run) :
    nth .exited g'.lanes p.1.lane = .parked ∨
      ∃ e ∈ g'.late, e.lane = p.1.lane ∧ e.cause = c ∧ e.detail = d ∧ e.addr = a ∧ e.site = site := by
  have he : lateOf site p.1 c d ∈ faultsLate site (accLanes s x f k) := mem_faultsLate.2 ⟨p, hp, c, d, a, hc, rfl⟩
  refine (Group.Behind.late_parks hh hd he hr hb).imp id fun hm => ?_
  exact ⟨_, hm, rfl, rfl, rfl, (accLanes_formed hp).2.2 c d a hc, rfl⟩

/-- A lane that faults at issue is parked, its PC at its clause, with the record and the entry of its fault. -/
theorem faulting_lane_parks (hh : g.handler = none) (hd : g.late = [])
    (hb : (g.faulted b (faultsLate site (accLanes s x f k)) (faultsNow site (accLanes s x f k))).Behind m pc g')
    (hp : p ∈ accLanes s x f k) (hc : p.2 = .fault c d a) (hl : p.1.lane < g.lanes.length)
    (hlog : p.1.lane < g.faultLog.length) (hpc : p.1.lane < g.lpc.length) :
    nth .exited g'.lanes p.1.lane = .parked ∧
    (m.getLsbD p.1.lane = false → nth 0#32 g'.lpc p.1.lane = site.hdrOff) ∧
    ∀ r, g.lfr[p.1.lane]? = some r → r.valid = false →
      g'.lfr[p.1.lane]? = some { addr := a, pc := site.hdrOff, valid := true, cause := BitVec.ofNat 8 c.code
                                 detail := BitVec.ofNat 16 (d * 16 + site.wordIx % 16) } ∧
      ∃ e, nth none g'.faultLog p.1.lane = some e ∧ e.cause = c ∧ e.site = site ∧ e.a = p.1.a ∧ e.b = p.1.b ∧
        e.data = p.1.data := by
  have he : lateOf site p.1 c d ∈ faultsNow site (accLanes s x f k) := mem_faultsNow.2 ⟨p, hp, c, d, a, hc, rfl⟩
  have hsl : ∀ e ∈ faultsLate site (accLanes s x f k), e.site.hdrOff = site.hdrOff := fun e h => by rw [faultsLate_site h]
  have hsn : ∀ e ∈ faultsNow site (accLanes s x f k), e.site.hdrOff = site.hdrOff := fun e h => by rw [faultsNow_site h]
  refine ⟨Group.Behind.now_parks hh hd he hl hb, fun hm => Group.Behind.now_lpc hh hd he hsl hsn hpc hm hb,
    fun r hr hv => ?_⟩
  obtain ⟨h1, w, h2⟩ := Group.Behind.now_records hh hd he (fun e h => faultsLate_of_lane hp hc h)
    (fun e h hl => faultsNow_of_lane hp hc h hl) hr hv hlog hb
  refine ⟨?_, _, h2, rfl, rfl, rfl, rfl, rfl⟩
  rw [← (accLanes_formed hp).2.1 c d a hc]
  exact h1

end

/-- Nothing of the module but one core and launches differs, nor of that core but its groups, schedulers, order of issue and
L1, nor of its groups but one. -/
structure IssueFrame (s t : State) (core slot : Nat) : Prop where
  outside : t = { s with cores := t.cores, launches := t.launches }
  others : ∀ k, k ≠ core → t.core k = s.core k
  groups : ∀ n, n ≠ slot → t.group? core n = s.group? core n
  inCore : t.core core = { s.core core with
    groups := (t.core core).groups, scheds := (t.core core).scheds, nextId := (t.core core).nextId, l1 := (t.core core).l1 }

theorem IssueFrame.of_touches {s u t : State} {core slot id : Nat} {sp : Space} {g h : Group} (hu : OnlyL1 core s u)
    (ht : Touches core slot (markFabric u sp id) t g h) : IssueFrame s t core slot where
  outside := by rw [ht.outside, markFabric_outside, hu.outside]
  others k hk := by rw [ht.others k hk, markFabric_core, hu.others k hk]
  groups n hn := by rw [ht.groups n hn, markFabric_group?, hu.group?]
  inCore := by rw [ht.inCore, markFabric_core, hu.inCore]

/-- The launches, but for a P access, and the L1, but for an atomic, are as they were. -/
theorem Touches.launches_l1 {s t : State} {core slot id : Nat} {sp : Space} {g h : Group}
    (ht : Touches core slot (markFabric s sp id) t g h) :
    (sp ≠ .p → t.launches = s.launches) ∧ (t.core core).l1 = (s.core core).l1 := by
  refine ⟨fun hp => ?_, by rw [ht.inCore, markFabric_core]⟩
  rw [ht.outside, markFabric_launches hp]

end Sys2Proof.Machine
end

section
/-! PROOF. Faults in a handler end the launch, and no fault changes a memory (10 R345, R347); the statement about faulting
lanes. -/

namespace Sys2Proof.Machine

/-! ## A fault at issue in a handler -/

/-- The group's handler runs for a launch, unless the launch has ended. -/
def HandlesOrOver (s : State) (core slot launch : Nat) : Prop :=
  ∃ g, s.group? core slot = some g ∧ (LaunchOver s launch ∨ (g.handler.isSome = true ∧ g.launch = launch))

section
variable {s t : State} {core slot L : Nat}

theorem HandlesOrOver.of_over (hs : ∃ g, s.group? core slot = some g) (h : Onward s t) (ho : LaunchOver t L) :
    HandlesOrOver t core slot L := by
  obtain ⟨g, hg⟩ := hs
  obtain ⟨g', hg', -⟩ := h.group hg
  exact ⟨g', hg', .inl ho⟩

/-- A change of the group that keeps its handler and its launch. -/
theorem HandlesOrOver.mapGroup (h : HandlesOrOver s core slot L) {f : Group → Group}
    (hf : ∀ g, (f g).handler = g.handler ∧ (f g).launch = g.launch) : HandlesOrOver (s.mapGroup core slot f) core slot L := by
  obtain ⟨g, hg, hc⟩ := h
  exact ⟨f g, by rw [State.group_mapGroup_same, hg, Option.map_some], hc.imp id fun ⟨h1, h2⟩ => by
    rw [(hf g).1, (hf g).2]; exact ⟨h1, h2⟩⟩

theorem HandlesOrOver.lateFault (h : HandlesOrOver s core slot L) (id : Nat) (f : LateFault) :
    HandlesOrOver (lateFault s core slot id f) core slot L := by
  have how := lateFault_onward s core slot id f
  obtain ⟨g, hg, hc⟩ := h
  rcases hc with hc | ⟨hh, hL⟩
  · exact .of_over ⟨g, hg⟩ how (how.launches L hc)
  · cases he : g.ended
    · cases ha : g.handler.any fun h => decide (h.mark ≤ id)
      · rw [lateFault_eq f hg he ha]
        refine HandlesOrOver.mapGroup ⟨g, hg, .inr ⟨hh, hL⟩⟩ fun g => ?_
        exact ⟨(g.takeLate_sameButFaults _ f).handler, (g.takeLate_sameButFaults _ f).launch⟩
      · refine .of_over ⟨g, hg⟩ how ?_
        simp only [Machine.lateFault, hg, he, ha, Bool.false_eq_true, if_false, if_true, hL]
        exact abortLaunch_over _ _ _ _
    · have e : Machine.lateFault s core slot id f = s.mapCore core fun c => c.mapBlock g.launch g.block fun b =>
          { b with incident := b.incident <|> some (f.cause.code, f.addr.toNat) } := by
        simp only [Machine.lateFault, hg, he, if_true]
      refine ⟨g, ?_, .inr ⟨hh, hL⟩⟩
      rw [e, State.group?, State.core_mapCore_same]
      exact hg

theorem HandlesOrOver.lateFaults (h : HandlesOrOver s core slot L) (id : Nat) (fs : List LateFault) :
    HandlesOrOver (fs.foldl (fun s f => Machine.lateFault s core slot id f) s) core slot L :=
  List.foldlRecOn (motive := fun t => HandlesOrOver t core slot L) fs (fun s f => Machine.lateFault s core slot id f) h
    fun _ hs f _ => hs.lateFault id f

/-- A lane that faults at issue in a handler ends the launch (R345). -/
theorem HandlesOrOver.parkAtIssue (h : HandlesOrOver s core slot L) {fs : List LateFault} (hf : fs ≠ []) :
    LaunchOver (parkAtIssue s core slot fs) L := by
  obtain ⟨g, hg, hc⟩ := h
  rcases hc with hc | ⟨hh, hL⟩
  · exact (parkAtIssue_onward s core slot fs).launches L hc
  · cases fs with
    | nil => exact absurd rfl hf
    | cons f fs =>
      simp only [Machine.parkAtIssue, hg, hh, if_true, hL]
      exact abortLaunch_over _ _ _ _

theorem enterAccess_onward (s : State) (core slot : Nat) (a : Access) (vals : List (Nat × DWord × DWord × List Word)) :
    Onward s (enterAccess s core slot a vals) := by
  have h : ∀ id, Onward s ((s.mapGroup core slot fun g => g.takeAccess id a vals).mapCore core Core.tick) := fun id =>
    .trans (.mapGroup s core slot fun g hg => by rw [Group.takeAccess_frame]; exact hg) (.mapCore _ _ .tick)
  unfold enterAccess holdAtomic
  simp only
  split
  · exact .refl s
  · split
    · exact (h _).trans (.mapGroup _ _ _ fun _ hg => hg)
    · exact h _

theorem admitted_onward (s : State) (core slot : Nat) (lc : Launch) (a : Access)
    (vals : List (Nat × DWord × DWord × List Word)) (late now : List LateFault) :
    Onward s (admitted s core slot lc a vals late now) :=
  (markFabric_onward s a.space lc.id).trans <| (enterAccess_onward _ core slot a vals).trans <|
    (lateFaults_onward _ core slot _ late).trans (parkAtIssue_onward _ core slot now)

/-- An access of a handler with a lane that faults at issue ends the launch. -/
theorem admitted_over {g : Group} (lc : Launch) (a : Access) (vals : List (Nat × DWord × DWord × List Word))
    (late : List LateFault) {now : List LateFault} (hg : s.group? core slot = some g) (hh : g.handler.isSome = true)
    (hn : now ≠ []) : LaunchOver (admitted s core slot lc a vals late now) g.launch := by
  obtain ⟨ps, o, w, ht, -⟩ := enterAccess_touches a vals ((markFabric_group? s a.space lc.id core slot).trans hg)
  have h : HandlesOrOver (enterAccess (markFabric s a.space lc.id) core slot a vals) core slot g.launch :=
    ⟨_, ht.after, .inr ⟨hh, rfl⟩⟩
  exact (h.lateFaults _ late).parkAtIssue hn

end

/-- What brings nothing back changes no memory and no L1. -/
theorem Onward.memories {s t : State} (h : Onward s t) :
    t.dram = s.dram ∧ t.hostMem = s.hostMem ∧ t.peers = s.peers ∧ t.die0 = s.die0 ∧ t.die1 = s.die1 ∧
    ∀ k, (t.core k).spad = (s.core k).spad ∧ (t.core k).tileData = (s.core k).tileData ∧ (t.core k).l1 = (s.core k).l1 := by
  refine ⟨?_, ?_, ?_, ?_, ?_, fun k => ⟨(h.cores k).spad, (h.cores k).tileData, (h.cores k).l1⟩⟩ <;> rw [h.outside]

/-- However an access ends once it has been admitted, nothing comes back and no memory changes. -/
theorem settle_doneOrGone_onward (s t : State) (x : Issuer) (i : Instr) : Onward t (settleAct s x i (doneOrGone t x)) := by
  unfold doneOrGone
  split
  · split
    · exact endRun_onward _ _ _
    · exact stepRun_onward _ _ _
  · exact endRun_onward _ _ _

/-- Admission of an access with a lane that faults at issue, in a handler: page translations begin, then the launch ends. -/
theorem admitAccess_in_handler {s : State} {core slot : Nat} {g : Group} (lc : Launch) (a : Access) {now : List LateFault}
    (late : List LateFault) (hg : s.group? core slot = some g) (hh : g.handler.isSome = true) (hn : now ≠ []) :
    ∃ r, OnlyDies s r ∧ Onward r (admitAccess s core slot lc a now late) ∧
      LaunchOver (admitAccess s core slot lc a now late) g.launch := by
  obtain ⟨b, vals, hadm⟩ := admitAccess_eq s core slot lc a now late
  have hd := translateParts_onlyDies core lc a.kind a.fresh (sizeBytes a.size) a.lanes (dedup (a.lanes.map fun l => l.part)) s
  rw [hadm]
  refine ⟨_, hd, admitted_onward .., admitted_over lc _ vals _ ?_ hh hn⟩
  rw [hd]
  exact hg

/-- The lanes of an access that are made, none of a global atomic, are held up in no L1. -/
theorem flush_of_none_made {s : State} {x : Issuer} {i : Instr} {f : AccForm} {m : LaneMask}
    (ha : f.sp = .g → (f.kind = .atom ∨ f.kind = .red) → ∀ p ∈ accLanes s x f m, ∀ loc t, p.2 ≠ .ok loc t) :
    ∃ u, (if (issued s x i f m).isHomeAtom then
      flushAtom s x.core x.l.asid (sizeBytes f.x.size.toNat) (issued s x i f m).lanes else some (s, true)) = some (u, true) := by
  cases hat : (issued s x i f m).isHomeAtom
  · exact ⟨s, rfl⟩
  · rw [issued_isHomeAtom] at hat
    obtain ⟨hg, hk⟩ : f.sp = .g ∧ (f.kind = .atom ∨ f.kind = .red) := by simpa using hat
    have hl : (issued s x i f m).lanes = [] := numberParts_eq_nil.2 (List.eq_nil_iff_forall_not_mem.2 fun l hl => by
      obtain ⟨p, hp, d, t, hok, -⟩ := mem_lanesMade.1 hl
      exact ha hg hk p hp d t hok)
    rw [hl]
    exact flushAtom_nil s x.core x.l.asid (sizeBytes f.x.size.toNat)

/-- In a handler, an access with a lane that faults at issue, and none made of a global atomic, ends the launch and changes
no memory. -/
theorem access_in_handler {s : State} {x : Issuer} {i : Instr} {f : AccForm} (hi : accessForm i = some f)
    (h : Executes s x i) (hh : x.g.handler.isSome = true) (hlog : x.g.logFull = false)
    (ha : f.sp = .g → (f.kind = .atom ∨ f.kind = .red) → ∀ p ∈ accLanes s x f (activeOf x i), ∀ loc t, p.2 ≠ .ok loc t)
    (hf : ∃ p ∈ accLanes s x f (activeOf x i), ∃ c d a, p.2 = .fault c d a) :
    ∃ t, exec i s = .next t ∧ LaunchOver t x.g.launch ∧ t.dram = s.dram ∧ t.hostMem = s.hostMem ∧ t.peers = s.peers ∧
      ∀ k, (t.core k).spad = (s.core k).spad ∧ (t.core k).tileData = (s.core k).tileData := by
  obtain ⟨hg, -, -⟩ := issuer_stands h.1.1
  obtain ⟨p, hp, c, d, a, hc⟩ := hf
  have hnow : faultsNow (siteOf x i) (accLanes s x f (activeOf x i)) ≠ [] :=
    List.ne_nil_of_mem (mem_faultsNow.2 ⟨p, hp, c, d, a, hc, rfl⟩)
  obtain ⟨u, hu⟩ := flush_of_none_made (i := i) ha
  have hl1 := flushed_onlyL1 hu
  obtain ⟨r, hd, hon, hover⟩ := admitAccess_in_handler x.l (issued s x i f (activeOf x i))
    (faultsLate (siteOf x i) (accLanes s x f (activeOf x i))) ((hl1.group? _).trans hg) hh hnow
  have hend := settle_doneOrGone_onward s (admitAccess u x.core x.slot x.l (issued s x i f (activeOf x i))
    (faultsNow (siteOf x i) (accLanes s x f (activeOf x i))) (faultsLate (siteOf x i) (accLanes s x f (activeOf x i)))) x i
  obtain ⟨h1, h2, h3, -, -, h6⟩ := (hon.trans hend).memories
  refine ⟨_, by rw [exec_access hi h, issueAccess_admits hlog hu], hend.launches _ hover, ?_, ?_, ?_, fun k => ?_⟩
  · rw [h1, hd, hl1.outside]
  · rw [h2, hd, hl1.outside]
  · rw [h3, hd, hl1.outside]
  · obtain ⟨h4, h5, -⟩ := h6 k
    have hr : r.core k = u.core k := by rw [hd]; rfl
    exact ⟨by rw [h4, hr, hl1.spad], by rw [h5, hr, hl1.tileData]⟩

/-- In a handler, an access all of whose lanes fault at issue does nothing but end the launch, with the first lane's cause. -/
theorem all_fault_in_handler {s : State} {x : Issuer} {i : Instr} {f : AccForm} {p : LaneAcc × LaneForm}
    {rest : List (LaneAcc × LaneForm)} {c : Cause} {d : Nat} {a : DWord} (hi : accessForm i = some f) (h : Executes s x i)
    (hh : x.g.handler.isSome = true) (hlog : x.g.logFull = false) (hsp : f.sp ≠ .g)
    (hls : accLanes s x f (activeOf x i) = p :: rest) (hp : p.2 = .fault c d a)
    (hrest : ∀ q ∈ rest, ∃ c d a, q.2 = .fault c d a) :
    exec i s = .next (endRun (abortLaunch (markFabric s f.sp x.l.id) x.g.launch .trapInHandler (c.code, x.core, a.toNat))
      x.core x.sched) := by
  obtain ⟨hg, -, -⟩ := issuer_stands h.1.1
  let ac := issued s x i f (activeOf x i)
  have hfault : ∀ q ∈ accLanes s x f (activeOf x i), ∃ c d a, q.2 = .fault c d a := by
    rw [hls]
    exact List.forall_mem_cons.2 ⟨⟨c, d, a, hp⟩, hrest⟩
  have hlate : faultsLate (siteOf x i) (accLanes s x f (activeOf x i)) = [] :=
    List.eq_nil_iff_forall_not_mem.2 fun e he => by
      obtain ⟨q, hq, _, _, _, hl, -⟩ := mem_faultsLate.1 he
      obtain ⟨_, _, _, hc⟩ := hfault q hq
      rw [hl] at hc
      cases hc
  have hmade : ac.lanes = [] := numberParts_eq_nil.2 (List.eq_nil_iff_forall_not_mem.2 fun l hl => by
    obtain ⟨q, hq, _, _, hok, -⟩ := mem_lanesMade.1 hl
    obtain ⟨_, _, _, hc⟩ := hfault q hq
    rw [hok] at hc
    cases hc)
  have hat : ac.isHomeAtom = false := by
    rw [issued_isHomeAtom, beq_eq_false_iff_ne.2 hsp, Bool.false_and]
  have hnow : faultsNow (siteOf x i) (accLanes s x f (activeOf x i)) =
      lateOf (siteOf x i) p.1 c d :: faultsNow (siteOf x i) rest := by
    rw [hls]
    simp only [faultsNow, splitLanes, List.filterMap_cons, hp]
  have hloc : p.1.loc = a := (accLanes_formed (hls ▸ List.mem_cons_self)).2.1 c d a hp
  obtain ⟨b, vals, hadm⟩ := admitAccess_eq s x.core x.slot x.l ac (faultsNow (siteOf x i) (accLanes s x f (activeOf x i)))
    (faultsLate (siteOf x i) (accLanes s x f (activeOf x i)))
  have habort : admitAccess s x.core x.slot x.l ac (faultsNow (siteOf x i) (accLanes s x f (activeOf x i)))
      (faultsLate (siteOf x i) (accLanes s x f (activeOf x i))) =
      abortLaunch (markFabric s f.sp x.l.id) x.g.launch .trapInHandler (c.code, x.core, a.toNat) := by
    rw [hadm, hlate, hmade, hnow]
    show parkAtIssue (markFabric s f.sp x.l.id) x.core x.slot _ = _
    simp only [parkAtIssue, markFabric_group?, hg, hh, if_true, lateOf, hloc]
  obtain ⟨g', hg', he'⟩ := abortLaunch_ends ((markFabric_group? s f.sp x.l.id x.core x.slot).trans hg) .trapInHandler
    (c.code, x.core, a.toNat)
  rw [exec_access hi h, issueAccess_admits hlog (if_neg (by rw [hat]; exact Bool.false_ne_true)), habort, doneOrGone, hg']
  simp only [he', if_true, settleAct]

/-! ## Faults that an event finds -/

/-- A late fault outside the handler's own instructions changes of the groups only its own, whose registers and pending
operations stay, and no other core. -/
theorem lateFault_spec {s : State} {core slot id : Nat} {g : Group} (f : LateFault) (hg : s.group? core slot = some g)
    (hh : (g.handler.any fun h => decide (h.mark ≤ id)) = false) :
    let t := lateFault s core slot id f
    ∃ h, t.group? core slot = some h ∧ g.SameButFaults h ∧ (∀ n, n ≠ slot → t.group? core n = s.group? core n) ∧
      ∀ k, k ≠ core → t.core k = s.core k := by
  cases he : g.ended
  · have ht := lateFault_eq f hg he hh
    have hT := Touches.mapGroup hg fun g => g.takeLate (inRun s core slot) f
    simp only [ht]
    exact ⟨_, hT.after, g.takeLate_sameButFaults _ f, hT.groups, hT.others⟩
  · have e : lateFault s core slot id f = s.mapCore core fun c => c.mapBlock g.launch g.block fun b =>
        { b with incident := b.incident <|> some (f.cause.code, f.addr.toNat) } := by
      simp only [lateFault, hg, he, if_true]
    have hs : ∀ n, (lateFault s core slot id f).group? core n = s.group? core n := fun n => by
      rw [e, State.group?, State.core_mapCore_same]
      rfl
    refine ⟨g, (hs slot).trans hg, .refl g, fun n _ => hs n, fun k hk => ?_⟩
    rw [e, State.core_mapCore_other _ _ _ _ hk]

/-- Such faults of one operation, one after the other. -/
theorem lateFaults_spec {α : Type} {core slot id : Nat} (e : α → LateFault) (xs : List α) {s : State} {g : Group}
    (hg : s.group? core slot = some g) (hh : (g.handler.any fun h => decide (h.mark ≤ id)) = false) :
    let t := xs.foldl (fun s x => lateFault s core slot id (e x)) s
    ∃ h, t.group? core slot = some h ∧ g.SameButFaults h ∧ (∀ n, n ≠ slot → t.group? core n = s.group? core n) ∧
      ∀ k, k ≠ core → t.core k = s.core k := by
  induction xs generalizing s g with
  | nil => exact ⟨g, hg, .refl g, fun _ _ => rfl, fun _ _ => rfl⟩
  | cons x xs ih =>
    obtain ⟨h, hh1, hs, hn, hk⟩ := lateFault_spec (e x) hg hh
    obtain ⟨h', hh', hs', hn', hk'⟩ := ih hh1 (by rw [hs.handler, hh])
    exact ⟨h', hh', hs.trans hs', fun n h => (hn' n h).trans (hn n h), fun k h => (hk' k h).trans (hk k h)⟩

/-- The progress of a part changes of a group at most its operand log and that pending operation. -/
theorem Group.setPart_frame (g : Group) (id part : Nat) (f : LaneAcc → LaneAcc) :
    g.setPart id part f = { g with pend := (g.setPart id part f).pend, oplog := (g.setPart id part f).oplog } ∧
    ∀ p ∈ (g.setPart id part f).pend, p.id ≠ id → p ∈ g.pend := by
  unfold Group.setPart
  split
  · simp only
    split
    · refine ⟨rfl, fun p hp hid => ?_⟩
      obtain ⟨q, hq, rfl⟩ := List.mem_map.1 hp
      by_cases e : q.id = id
      · simp [e] at hid
      · simpa [e] using hq
    · exact ⟨rfl, fun p hp _ => (List.mem_filter.1 hp).1⟩
  · exact ⟨rfl, fun p hp _ => hp⟩

theorem parkPart_onward (s : State) (core slot id part : Nat) (site : Site) (ls : List LaneAcc) (c : Cause) (d : Nat) :
    Onward s (parkPart s core slot id part site ls c d) := by
  unfold parkPart
  refine .trans (.mapGroup s core slot fun g hg => ?_) (.foldl (fun s l => lateFault_onward s core slot id _) ls _)
  rw [(g.setPart_frame id part _).1]
  exact hg

/-- Lanes that an event parks change of the groups only their own, whose registers and other pending operations stay. -/
theorem parkPart_spec {s : State} {core slot id : Nat} {g : Group} (part : Nat) (site : Site) (ls : List LaneAcc) (c : Cause)
    (d : Nat) (hg : s.group? core slot = some g) (hh : (g.handler.any fun h => decide (h.mark ≤ id)) = false) :
    let t := parkPart s core slot id part site ls c d
    ∃ h, t.group? core slot = some h ∧ h.sregs = g.sregs ∧ h.preds = g.preds ∧ (∀ p ∈ h.pend, p.id ≠ id → p ∈ g.pend) ∧
      (∀ n, n ≠ slot → t.group? core n = s.group? core n) ∧ ∀ k, k ≠ core → t.core k = s.core k := by
  let f := fun (l : LaneAcc) => if ls.any fun x => x.lane == l.lane then { l with progress := .parked } else l
  obtain ⟨hf, hp⟩ := g.setPart_frame id part f
  have h1 := Touches.mapGroup hg fun g => g.setPart id part f
  obtain ⟨h, hh', hs, hn, hk⟩ := lateFaults_spec (id := id) (fun l => lateOf site l c d) ls h1.after (by rw [hf]; exact hh)
  refine ⟨h, hh', ?_, ?_, ?_, fun n e => (hn n e).trans (h1.groups n e), fun k e => (hk k e).trans (h1.others k e)⟩
  · rw [hs.sregs, hf]
  · rw [hs.preds, hf]
  · rw [hs.pend]
    exact hp

/-! ## The statement -/

/-- Settles O15, by what admission of an access and the end of its clause change of the issuer's group alone: the lanes
that fault are parked by then or wait for the end of the run, and only the lanes that fault are touched. -/
theorem faultingLanesPark : Obligations.FaultingLanesPark := by
  unfold Obligations.FaultingLanesPark
  refine ⟨?outside, fun s x i f p rest c d a hi h _ hh hlog hsp hls hp hrest =>
      all_fault_in_handler hi h hh hlog hsp hls hp hrest,
    fun s x i f hi h _ hh hlog ha hf => access_in_handler hi h hh hlog ha hf, ?late, ?part⟩
  case outside =>
    intro s x i f hi h he hh hd hlog hm ls bytes good isGAtom hw hfl
    have hat : (issued s x i f (activeOf x i)).isHomeAtom = isGAtom := issued_isHomeAtom s x i f _
    obtain ⟨u, hu, hus⟩ : ∃ u, (if (issued s x i f (activeOf x i)).isHomeAtom then
        flushAtom s x.core x.l.asid bytes (issued s x i f (activeOf x i)).lanes else some (s, true)) = some (u, true) ∧
        (isGAtom = false → u = s) := by
      rw [hat]
      cases hg : isGAtom with
      | false => exact ⟨s, rfl, fun _ => rfl⟩
      | true =>
        obtain ⟨u, hu⟩ := hfl hg
        exact ⟨u, hu, fun h => by cases h⟩
    obtain ⟨t, g', ps, o, w, b, m, pc, ht, hT, hb, hnil, hcons, hmask⟩ := access_outside_handler hi h he hh hlog hm hw hu
    have hL := flushed_onlyL1 hu
    have hF := IssueFrame.of_touches hL hT
    let g1 : Group := { x.g with pend := x.g.pend ++ ps, oplog := o, wait := w }
    have hfs := Group.faulted_sameButFaults b (faultsLate (siteOf x i) (accLanes s x f (activeOf x i)))
      (faultsNow (siteOf x i) (accLanes s x f (activeOf x i))) g1
    have hsame : g1.SameButFaults g' := hfs.trans (hb.sameButFaults (hfs.handler.trans hh))
    have hpend : g'.pend = x.g.pend ++ ps := hsame.pend
    refine ⟨t, g', ht, hT.after, hsame.sregs, hsame.preds, hF.outside, fun hp => ?_, hF.others, hF.groups,
      ⟨hF.inCore, fun hg => ?_⟩, fun hg => ?_, fun hg => ?_, fun n hn hl hr hlg hpc => ⟨fun hok => ?_, ?_, ?_⟩⟩
    · rw [hT.launches_l1.1 hp, hL.outside]
    · rw [hT.launches_l1.2, hus hg]
    · rw [hpend, hnil hg, List.append_nil]
    · obtain ⟨bh, ls', hmem, hps⟩ := hcons hg
      exact ⟨_, by rw [hpend, hps], rfl, rfl, rfl, hmem⟩
    · exact made_lane_keeps (g := g1) hh hd hb hok
    · rintro p hp rfl c d a hc hrun
      exact late_lane_parks (g := g1) hh hd hb hp hc hrun
    · rintro p hp rfl c d a hc
      obtain ⟨h1, h2, h3⟩ := faulting_lane_parks (g := g1) hh hd hb hp hc hl hlg hpc
      exact ⟨h1, fun hx => h2 (hmask hx _ (mem_faultsNow.2 ⟨p, hp, c, d, a, hc, rfl⟩) hn), h3⟩
  case late =>
    intro s core slot id f g hg t
    obtain ⟨h1, h2, h3, h4, h5, h6⟩ := (lateFault_onward s core slot id f).memories
    refine ⟨h1, h2, h3, h4, h5, h6, fun hh => ?_⟩
    obtain ⟨h, hh', hs, hn, hk⟩ := lateFault_spec f hg hh
    exact ⟨h, hh', hs.sregs, hs.preds, hs.pend, hn, hk⟩
  case part =>
    intro s core slot id part site ls c d g hg t
    obtain ⟨h1, h2, h3, h4, h5, h6⟩ := (parkPart_onward s core slot id part site ls c d).memories
    exact ⟨h1, h2, h3, h4, h5, h6, parkPart_spec part site ls c d hg⟩

end Sys2Proof.Machine
end

section
/-! PROOF. A word is what its fields write: the fields of a word read and written back (02 Tables 2.3 to 2.7, 06 Tables 6.1
to 6.6), the converse of Laws/Words. -/

namespace Sys2Proof

/-! ## Neighbouring fields -/

theorem ofBool_getLsbD {n : Nat} (w : BitVec n) (i : Nat) : BitVec.ofBool (w.getLsbD i) = w.extractLsb' i 1 := by
  ext j hj
  obtain rfl : j = 0 := by omega
  simp [← BitVec.getLsbD_eq_getElem]

/-- An opcode is the field OP of a word that has it. -/
theorem op_of_opOf {w : Word} {op : BitVec 7} (ho : opOf w = op.toNat) : op = w.extractLsb' 25 7 :=
  BitVec.eq_of_toNat_eq ho.symm

/-- The field EF of an extension word of a layout. -/
theorem ef_of_efOf {x : Word} {ef : BitVec 2} (h : efOf x = ef.toNat) : ef = x.extractLsb' 30 2 :=
  BitVec.eq_of_toNat_eq h.symm

/-! ## Base and extension words -/

theorem writeBase_readBase {w : Word} {op : BitVec 7} {l : Bool} (ho : opOf w = op.toNat) (hl : longOf w = l) :
    writeBase op l (readBase w) = w := by
  subst hl
  simp (disch := omega) only [op_of_opOf ho, writeBase, readBase, longOf, ofBool_getLsbD,
    BitVec.extractLsb'_append_extractLsb'_eq_extractLsb']
  exact BitVec.extractLsb'_eq_self

theorem writeExtR_readExtR {x : Word} (h : efOf x = 0) : writeExtR (readExtR x) = x := by
  have hef : (0b00#2) = x.extractLsb' 30 2 := ef_of_efOf h
  simp (disch := omega) only [hef, writeExtR, readExtR, ofBool_getLsbD,
    BitVec.extractLsb'_append_extractLsb'_eq_extractLsb']
  exact BitVec.extractLsb'_eq_self

theorem writeExtI_readExtI {x : Word} (h : efOf x = 1) : writeExtI (readExtI x) = x := by
  have hef : (0b01#2) = x.extractLsb' 30 2 := ef_of_efOf h
  simp (disch := omega) only [hef, writeExtI, readExtI, ofBool_getLsbD,
    BitVec.extractLsb'_append_extractLsb'_eq_extractLsb']
  exact BitVec.extractLsb'_eq_self

theorem writeExtM_readExtM {x : Word} (h : efOf x = 2) : writeExtM (readExtM x) = x := by
  have hef : (0b10#2) = x.extractLsb' 30 2 := ef_of_efOf h
  simp (disch := omega) only [hef, writeExtM, readExtM, ofBool_getLsbD,
    BitVec.extractLsb'_append_extractLsb'_eq_extractLsb']
  exact BitVec.extractLsb'_eq_self

theorem writeExtC_readExtC {x : Word} (h : efOf x = 3) : writeExtC (readExtC x) = x := by
  have hef : (0b11#2) = x.extractLsb' 30 2 := ef_of_efOf h
  simp (disch := omega) only [hef, writeExtC, readExtC, ofBool_getLsbD,
    BitVec.extractLsb'_append_extractLsb'_eq_extractLsb']
  exact BitVec.extractLsb'_eq_self

/-! ## X words -/

theorem writeX_of_fields {w : Word} {op : BitVec 7} {l : Bool} {r : BitVec 21} (ho : opOf w = op.toNat) (hl : longOf w = l)
    (hr : r = w.extractLsb' 0 21) : writeX op l (w.extractLsb' 21 3) r = w := by
  subst hl
  simp (disch := omega) only [op_of_opOf ho, hr, writeX, longOf, ofBool_getLsbD,
    BitVec.extractLsb'_append_extractLsb'_eq_extractLsb']
  exact BitVec.extractLsb'_eq_self

theorem writeMm_readMm {w : Word} {op : BitVec 7} (ho : opOf w = op.toNat) (hl : longOf w = false) :
    writeMm op (readMm w) = w :=
  writeX_of_fields ho hl (by
    simp (disch := omega) only [readMm, ofBool_getLsbD, BitVec.extractLsb'_append_extractLsb'_eq_extractLsb'])

theorem writeScl_readScl {w : Word} (ho : opOf w = 0x08) (hl : longOf w = false) : writeScl (readScl w) = w :=
  writeX_of_fields ho hl (by
    simp (disch := omega) only [readScl, ofBool_getLsbD, BitVec.extractLsb'_append_extractLsb'_eq_extractLsb'])

theorem writeStrm_readStrm {w : Word} (ho : opOf w = 0x10) (hl : longOf w = false) : writeStrm (readStrm w) = w :=
  writeX_of_fields ho hl (by
    simp (disch := omega) only [readStrm, BitVec.extractLsb'_append_extractLsb'_eq_extractLsb'])

theorem writePanel_readPanel {w : Word} (ho : opOf w = 0x11) (hl : longOf w = false) : writePanel (readPanel w) = w :=
  writeX_of_fields ho hl (by
    simp (disch := omega) only [readPanel, BitVec.extractLsb'_append_extractLsb'_eq_extractLsb'])

theorem writeIter_readIter {w : Word} (x : Word) {src : Bool} (ho : opOf w = 0x12) (hs : w.getLsbD 14 = src)
    (hl : longOf w = !src) : writeIter src (readIter w x) = w := by
  subst hs
  exact writeX_of_fields ho hl (by
    simp (disch := omega) only [readIter, ofBool_getLsbD, BitVec.extractLsb'_append_extractLsb'_eq_extractLsb'])

theorem writeLoop_readLoop {w : Word} (x : Word) (ho : opOf w = 0x18) (hl : longOf w = true) :
    writeLoop (readLoop w x) = w :=
  writeX_of_fields ho hl (by
    simp (disch := omega) only [readLoop, BitVec.extractLsb'_append_extractLsb'_eq_extractLsb'])

theorem writeXgive_readXgive {w : Word} (ho : opOf w = 0x20) (hl : longOf w = false) : writeXgive (readXgive w) = w :=
  writeX_of_fields ho hl (by
    simp (disch := omega) only [readXgive, BitVec.extractLsb'_append_extractLsb'_eq_extractLsb'])

theorem writeXtake_readXtake {w : Word} (ho : opOf w = 0x21) (hl : longOf w = false) : writeXtake (readXtake w) = w :=
  writeX_of_fields ho hl (by
    simp (disch := omega) only [readXtake, BitVec.extractLsb'_append_extractLsb'_eq_extractLsb'])

theorem writeXsig_readXsig {w : Word} {kind : Bool} (ho : opOf w = 0x22) (hk : w.getLsbD 20 = kind)
    (hl : longOf w = false) : writeXsig kind (readXsig w) = w := by
  subst hk
  exact writeX_of_fields ho hl (by
    simp (disch := omega) only [readXsig, ofBool_getLsbD, BitVec.extractLsb'_append_extractLsb'_eq_extractLsb'])

theorem writeXwait_readXwait {w : Word} (ho : opOf w = 0x23) (hl : longOf w = false) : writeXwait (readXwait w) = w :=
  writeX_of_fields ho hl (by
    simp (disch := omega) only [readXwait, ofBool_getLsbD, BitVec.extractLsb'_append_extractLsb'_eq_extractLsb'])

theorem writeXend_readXend {w : Word} (ho : opOf w = 0x24) (hl : longOf w = false) : writeXend (readXend w) = w :=
  writeX_of_fields ho hl rfl

end Sys2Proof
end

section
/-! PROOF. What decodes to an instruction is that instruction's encoding (02 R68 to R70, 06 R224): first for each layout,
then for each class, whose table decides the opcode and the layout. -/

namespace Sys2Proof.Laws.Decoding

/-- Base word w, with x after it, is the encoding of i in class c. -/
def Encodes (c : Cls) (w x : Word) (i : Instr) : Prop :=
  (∃ op, i.opcode = some (c, op) ∧ op.toNat = opOf w) ∧ i.canonical = true ∧
  encode i = if longOf w then [w, x] else [w]

/-- Where a decoding is an instruction, the words are its encoding. -/
def Faithful (c : Cls) (w x : Word) (d : Decoded) : Prop := ∀ i, d = .ok i → Encodes c w x i

section
variable {c : Cls} {w x : Word} {op : BitVec 7} {i : Instr} {d : Decoded}

theorem Encodes.oneWord (ho : opOf w = op.toNat) (hl : longOf w = false) (hi : i.opcode = some (c, op))
    (hc : i.canonical = true) (he : encode i = [w]) : Encodes c w x i :=
  ⟨⟨op, hi, ho.symm⟩, hc, by rw [he, hl]; rfl⟩

theorem Encodes.twoWords (ho : opOf w = op.toNat) (hl : longOf w = true) (hi : i.opcode = some (c, op))
    (hc : i.canonical = true) (he : encode i = [w, x]) : Encodes c w x i :=
  ⟨⟨op, hi, ho.symm⟩, hc, by rw [he, hl]; rfl⟩

theorem Encodes.faithful (h : Encodes c w x i) : Faithful c w x (.ok i) := by
  rintro _ ⟨⟩
  exact h

theorem faithful_illegal (n : Nat) : Faithful c w x (.illegal n) := fun _ h => nomatch h

theorem faithful_unassigned : Faithful c w x .unassigned := fun _ h => nomatch h

theorem Faithful.ite {p : Prop} [Decidable p] {d' : Decoded} (h : p → Faithful c w x d) (h' : ¬p → Faithful c w x d') :
    Faithful c w x (if p then d else d') := by
  split
  · exact h ‹_›
  · exact h' ‹_›

/-! ## Rows of the opcode tables -/

/-- The row of a short form: its encoding is the base word alone. -/
def ShortRow (c : Cls) (op : BitVec 7) (k : Base → Instr) : Prop :=
  ∀ b, (k b).opcode = some (c, op) ∧ (k b).canonical = true ∧ encode (k b) = [writeBase op false b]

/-- The row of a long form, whose extension word is written by wr. -/
def LongRow {E : Type} (wr : E → Word) (c : Cls) (op : BitVec 7) (k : Base → E → Instr) : Prop :=
  ∀ b e, (k b e).opcode = some (c, op) ∧ (k b e).canonical = true ∧ encode (k b e) = [writeBase op true b, wr e]

/-- Two rows of one opcode that the bit p of the extension word tells apart (02 R79 to R82). -/
theorem longRow_of_bit {E : Type} {wr : E → Word} {p : E → Bool} {k k' : Base → E → Instr}
    (h : ∀ b e, (k b e).opcode = some (c, op) ∧ (k b e).canonical = p e ∧ encode (k b e) = [writeBase op true b, wr e])
    (h' : ∀ b e, (k' b e).opcode = some (c, op) ∧ (k' b e).canonical = !p e ∧
      encode (k' b e) = [writeBase op true b, wr e]) :
    LongRow wr c op fun b e => if p e then k b e else k' b e := by
  intro b e
  cases hp : p e
  · simpa [hp] using h' b e
  · simpa [hp] using h b e

theorem ShortRow.encodes {k : Base → Instr} (h : ShortRow c op k) (ho : opOf w = op.toNat) (hl : longOf w = false) :
    Encodes c w x (k (readBase w)) := by
  obtain ⟨hi, hc, he⟩ := h (readBase w)
  exact .oneWord ho hl hi hc (by rw [he, writeBase_readBase ho hl])

theorem LongRow.encodes {E : Type} {wr : E → Word} {k : Base → E → Instr} (h : LongRow wr c op k)
    (ho : opOf w = op.toNat) (hl : longOf w = true) {e : E} (hx : wr e = x) : Encodes c w x (k (readBase w) e) := by
  obtain ⟨hi, hc, he⟩ := h (readBase w) e
  exact .twoWords ho hl hi hc (by rw [he, writeBase_readBase ho hl, hx])

/-! ## Layouts of the extension word -/

/-- An extension word of layout R, I, M or C, or of R and I as the opcode lists them (02 R70). -/
theorem faithful_dR {k : Base → ExtR → Instr} (h : LongRow writeExtR c op k) (ho : opOf w = op.toNat)
    (hl : longOf w = true) : Faithful c w x (dR w x k) :=
  .ite (fun hx => (h.encodes ho hl (writeExtR_readExtR hx)).faithful) fun _ => faithful_illegal 8

theorem faithful_dRI {k : Base → ExtRI → Instr} (h : LongRow writeExtRI c op k) (ho : opOf w = op.toNat)
    (hl : longOf w = true) : Faithful c w x (dRI w x k) :=
  .ite (fun hx => (h.encodes (e := .r _) ho hl (writeExtR_readExtR hx)).faithful) fun _ =>
    .ite (fun hx => (h.encodes (e := .i _) ho hl (writeExtI_readExtI hx)).faithful) fun _ => faithful_illegal 8

theorem faithful_dM {k : Base → ExtM → Instr} (h : LongRow writeExtM c op k) (ho : opOf w = op.toNat)
    (hl : longOf w = true) : Faithful c w x (dM w x k) :=
  .ite (fun hx => (h.encodes ho hl (writeExtM_readExtM hx)).faithful) fun _ => faithful_illegal 8

theorem faithful_dC {k : Base → ExtC → Instr} (h : LongRow writeExtC c op k) (ho : opOf w = op.toNat)
    (hl : longOf w = true) : Faithful c w x (dC w x k) :=
  .ite (fun hx => (h.encodes ho hl (writeExtC_readExtC hx)).faithful) fun _ => faithful_illegal 8

/-! ## Short and long forms (02 R69) -/

theorem faithful_dShort {k : Base → Instr} (h : ShortRow c op k) (ho : opOf w = op.toNat)
    (hd : longOf w = true → Faithful c w x d) : Faithful c w x (dShort w k d) :=
  .ite hd fun hl => (h.encodes ho (by simpa using hl)).faithful

theorem faithful_dLong (hd : longOf w = true → Faithful c w x d) : Faithful c w x (dLong w d) :=
  .ite hd fun _ => faithful_illegal 8

/-- X words, without and with an extension word (06 R224). -/
theorem faithful_dX (hi : i.opcode = some (c, op)) (hc : i.canonical = true) (ho : opOf w = op.toNat)
    (he : longOf w = false → encode i = [w]) : Faithful c w x (dX w i) :=
  .ite (fun _ => faithful_illegal 8) fun hl =>
    have hl : longOf w = false := by simpa using hl
    (Encodes.oneWord ho hl hi hc (he hl)).faithful

theorem faithful_dXL (hi : i.opcode = some (c, op)) (hc : i.canonical = true) (ho : opOf w = op.toNat)
    (he : longOf w = true → encode i = [w, x]) : Faithful c w x (dXL w i) :=
  .ite (fun hl => (Encodes.twoWords ho hl hi hc (he hl)).faithful) fun _ => faithful_illegal 8

/-! ## Rows by the layouts that they list -/

theorem faithful_dShort_dRI {k : Base → Instr} {k' : Base → ExtRI → Instr} (h : ShortRow c op k)
    (h' : LongRow writeExtRI c op k') (ho : opOf w = op.toNat) : Faithful c w x (dShort w k (dRI w x k')) :=
  faithful_dShort h ho (faithful_dRI h' ho)

theorem faithful_dShort_dR {k : Base → Instr} {k' : Base → ExtR → Instr} (h : ShortRow c op k)
    (h' : LongRow writeExtR c op k') (ho : opOf w = op.toNat) : Faithful c w x (dShort w k (dR w x k')) :=
  faithful_dShort h ho (faithful_dR h' ho)

theorem faithful_dShort_dM {k : Base → Instr} {k' : Base → ExtM → Instr} (h : ShortRow c op k)
    (h' : LongRow writeExtM c op k') (ho : opOf w = op.toNat) : Faithful c w x (dShort w k (dM w x k')) :=
  faithful_dShort h ho (faithful_dM h' ho)

/-- KMAP's rows, told apart by KOP (07 Table 7.8). -/
theorem faithful_kmapOf (ho : opOf w = 0x23) (hl : longOf w = true) (hx : efOf x = 3) :
    Faithful .e w x (kmapOf (readBase w) (readExtC x)) := by
  have hw : writeBase 0x23#7 true (readBase w) = w := writeBase_readBase ho hl
  have he : [writeBase 0x23#7 true (readBase w), writeExtC (readExtC x)] = [w, x] := by rw [hw, writeExtC_readExtC hx]
  have row : ∀ {i : Instr} {n : BitVec 3}, ((readExtC x).imm.extractLsb' 0 3).toNat = n.toNat →
      i.opcode = some (.e, 0x23#7) → i.canonical = ((readExtC x).imm.extractLsb' 0 3 == n) →
      encode i = [writeBase 0x23#7 true (readBase w), writeExtC (readExtC x)] → Faithful .e w x (.ok i) :=
    fun hn hi hc hi' => (Encodes.twoWords ho hl hi (by simp [hc, BitVec.eq_of_toNat_eq hn]) (hi'.trans he)).faithful
  unfold kmapOf
  split
  case h_7 => exact faithful_illegal 7
  all_goals exact row ‹_› rfl rfl rfl

/-! ## The tables of the four classes

The cases of a class stand in the order of its table, gathered by the layouts that the opcodes list; the last is that of
the opcodes that are unassigned (02 R83). -/

/-- Class V (02 Table 2.11). MOVI's second word is its immediate, and VRAND's short form is reason 0x9. -/
theorem faithful_decodeV : Faithful .v w x (decodeV w x) := by
  unfold decodeV
  split
  case h_1 | h_2 | h_3 | h_4 | h_6 | h_7 | h_8 | h_9 | h_11 | h_12 | h_13 | h_14 | h_15 | h_16 | h_17 | h_18 | h_19 |
      h_20 | h_21 | h_22 | h_23 | h_32 | h_33 | h_34 | h_35 | h_37 | h_38 | h_39 | h_40 | h_54 | h_59 =>
    exact faithful_dShort_dRI (fun _ => ⟨rfl, rfl, rfl⟩) (fun _ _ => ⟨rfl, rfl, rfl⟩) ‹_›
  case h_30 | h_41 | h_42 | h_44 | h_45 | h_46 | h_47 | h_48 | h_49 | h_50 | h_51 | h_55 | h_56 | h_57 | h_58 |
      h_62 | h_64 | h_65 | h_66 | h_67 | h_68 | h_69 =>
    exact faithful_dShort_dR (fun _ => ⟨rfl, rfl, rfl⟩) (fun _ _ => ⟨rfl, rfl, rfl⟩) ‹_›
  case h_5 | h_10 | h_24 | h_25 | h_28 | h_29 | h_36 | h_43 | h_52 | h_53 =>
    exact faithful_dLong (faithful_dR (fun _ _ => ⟨rfl, rfl, rfl⟩) ‹_›)
  case h_26 | h_27 =>
    exact faithful_dLong (faithful_dRI (fun _ _ => ⟨rfl, rfl, rfl⟩) ‹_›)
  case h_61 | h_63 =>
    exact faithful_dLong (faithful_dC (fun _ _ => ⟨rfl, rfl, rfl⟩) ‹_›)
  case h_31 =>
    exact faithful_dLong fun hl =>
      (LongRow.encodes (wr := id) (k := .movi) (fun _ _ => ⟨rfl, rfl, rfl⟩) ‹_› hl rfl).faithful
  case h_60 => exact .ite (faithful_dR (fun _ _ => ⟨rfl, rfl, rfl⟩) ‹_›) fun _ => faithful_illegal 9
  case h_70 => exact faithful_unassigned

/-- Class M (02 Table 2.12). -/
theorem faithful_decodeM : Faithful .m w x (decodeM w x) := by
  unfold decodeM
  split
  case h_1 | h_2 | h_4 | h_5 | h_7 | h_8 | h_11 | h_12 | h_22 =>
    exact faithful_dShort_dM (fun _ => ⟨rfl, rfl, rfl⟩) (fun _ _ => ⟨rfl, rfl, rfl⟩) ‹_›
  case h_3 | h_6 | h_9 | h_10 | h_13 | h_14 | h_15 | h_16 | h_17 | h_18 =>
    exact faithful_dLong (faithful_dM (fun _ _ => ⟨rfl, rfl, rfl⟩) ‹_›)
  case h_21 =>
    exact faithful_dShort (fun _ => ⟨rfl, rfl, rfl⟩) ‹_› (faithful_dC (fun _ _ => ⟨rfl, rfl, rfl⟩) ‹_›)
  case h_23 | h_24 | h_25 | h_26 | h_27 | h_28 | h_29 | h_30 | h_31 | h_32 | h_35 =>
    exact faithful_dLong (faithful_dC (fun _ _ => ⟨rfl, rfl, rfl⟩) ‹_›)
  case h_19 | h_20 =>
    exact faithful_dShort (fun _ => ⟨rfl, rfl, rfl⟩) ‹_› (faithful_dC
      (longRow_of_bit (fun _ _ => ⟨rfl, rfl, rfl⟩) fun _ _ => ⟨rfl, rfl, rfl⟩) ‹_›)
  case h_33 | h_34 =>
    exact faithful_dLong (faithful_dC (longRow_of_bit (fun _ _ => ⟨rfl, rfl, rfl⟩) fun _ _ => ⟨rfl, rfl, rfl⟩) ‹_›)
  case h_36 => exact faithful_unassigned

/-- Class X (02 Table 2.13); ITER's SRC and XSIG's KIND tell two rows apart. -/
theorem faithful_decodeX : Faithful .x w x (decodeX w x) := by
  unfold decodeX
  split
  case h_1 ho => exact faithful_dX rfl rfl ho fun hl => congrArg ([·]) (writeMm_readMm (op := 0x00#7) ho hl)
  case h_2 ho => exact faithful_dX rfl rfl ho fun hl => congrArg ([·]) (writeMm_readMm (op := 0x01#7) ho hl)
  case h_3 ho => exact faithful_dX rfl rfl ho fun hl => congrArg ([·]) (writeScl_readScl ho hl)
  case h_4 ho => exact faithful_dX rfl rfl ho fun hl => congrArg ([·]) (writeStrm_readStrm ho hl)
  case h_5 ho => exact faithful_dX rfl rfl ho fun hl => congrArg ([·]) (writePanel_readPanel ho hl)
  case h_6 ho =>
    exact .ite (fun hs => faithful_dX rfl rfl ho fun hl => congrArg ([·]) (writeIter_readIter 0#32 ho hs hl)) fun hs =>
      faithful_dXL rfl rfl ho fun hl => congrArg ([·, x]) (writeIter_readIter x ho (by simpa using hs) hl)
  case h_7 ho => exact faithful_dXL rfl rfl ho fun hl => congrArg ([·, x]) (writeLoop_readLoop x ho hl)
  case h_8 ho => exact faithful_dX rfl rfl ho fun hl => congrArg ([·]) (writeXgive_readXgive ho hl)
  case h_9 ho => exact faithful_dX rfl rfl ho fun hl => congrArg ([·]) (writeXtake_readXtake ho hl)
  case h_10 ho =>
    exact .ite (fun hk => faithful_dX rfl rfl ho fun hl => congrArg ([·]) (writeXsig_readXsig ho hk hl)) fun hk =>
      faithful_dX rfl rfl ho fun hl => congrArg ([·]) (writeXsig_readXsig ho (by simpa using hk) hl)
  case h_11 ho => exact faithful_dX rfl rfl ho fun hl => congrArg ([·]) (writeXwait_readXwait ho hl)
  case h_12 ho => exact faithful_dX rfl rfl ho fun hl => congrArg ([·]) (writeXend_readXend ho hl)
  case h_13 => exact faithful_unassigned

/-- Class E (02 Table 2.14). -/
theorem faithful_decodeE : Faithful .e w x (decodeE w x) := by
  unfold decodeE
  split
  case h_1 | h_2 | h_3 | h_4 | h_13 | h_14 | h_15 | h_23 | h_24 | h_25 | h_26 | h_28 =>
    exact faithful_dLong (faithful_dC (fun _ _ => ⟨rfl, rfl, rfl⟩) ‹_›)
  case h_5 | h_6 | h_9 | h_10 | h_17 | h_18 | h_19 | h_20 | h_21 | h_22 =>
    exact faithful_dLong (faithful_dR (fun _ _ => ⟨rfl, rfl, rfl⟩) ‹_›)
  case h_11 | h_12 | h_27 =>
    exact faithful_dShort_dR (fun _ => ⟨rfl, rfl, rfl⟩) (fun _ _ => ⟨rfl, rfl, rfl⟩) ‹_›
  case h_7 | h_8 =>
    exact faithful_dLong (faithful_dR (longRow_of_bit (fun _ _ => ⟨rfl, rfl, rfl⟩) fun _ _ => ⟨rfl, rfl, rfl⟩) ‹_›)
  case h_16 ho => exact faithful_dLong fun hl => .ite (faithful_kmapOf ho hl) fun _ => faithful_illegal 8
  case h_29 => exact faithful_unassigned

theorem faithful_decode : Faithful c w x (decode c w x) := by
  cases c with
  | v => exact faithful_decodeV
  | m => exact faithful_decodeM
  | x => exact faithful_decodeX
  | e => exact faithful_decodeE

end

/-! ## The statement -/

/-- Settles O53: in each class the table's row decides opcode and layout, and the fields read are the fields written. -/
theorem decodedWordsEncodeBack : Obligations.DecodedWordsEncodeBack := by
  unfold Obligations.DecodedWordsEncodeBack
  intro c w x i h
  exact faithful_decode i h

end Sys2Proof.Laws.Decoding
end

section
/-! PROOF. Every encoding decodes to its instruction, from the laws of the single instructions (02 R68 to R70, R79 to R82,
06 R224). -/

namespace Sys2Proof.Laws.RoundTrip

/-- What has no opcode is no instruction of a clause; every other row is one of Laws/PerInstr. -/
theorem statement_holds (i : Instr) : Statement i := by
  cases i with
  | iadd w => exact iadd w | iaddLong w x => exact iaddLong w x | isub w => exact isub w
  | isubLong w x => exact isubLong w x | imul w => exact imul w | imulLong w x => exact imulLong w x
  | imulh w => exact imulh w | imulhLong w x => exact imulhLong w x | imad w x => exact imad w x
  | imin w => exact imin w | iminLong w x => exact iminLong w x | imax w => exact imax w
  | imaxLong w x => exact imaxLong w x | iabs w => exact iabs w | iabsLong w x => exact iabsLong w x
  | ineg w => exact ineg w | inegLong w x => exact inegLong w x | isad w x => exact isad w x | andW w => exact andW w
  | andLong w x => exact andLong w x | orW w => exact orW w | orLong w x => exact orLong w x | xorW w => exact xorW w
  | xorLong w x => exact xorLong w x | andn w => exact andn w | andnLong w x => exact andnLong w x
  | notW w => exact notW w | notLong w x => exact notLong w x | shl w => exact shl w | shlLong w x => exact shlLong w x
  | shr w => exact shr w | shrLong w x => exact shrLong w x | sar w => exact sar w | sarLong w x => exact sarLong w x
  | rotl w => exact rotl w | rotlLong w x => exact rotlLong w x | popc w => exact popc w
  | popcLong w x => exact popcLong w x | clz w => exact clz w | clzLong w x => exact clzLong w x
  | brev w => exact brev w | brevLong w x => exact brevLong w x | bfx w => exact bfx w
  | bfxLong w x => exact bfxLong w x | bfi w x => exact bfi w x | perm w x => exact perm w x
  | icmp w x => exact icmp w x | fcmp w x => exact fcmp w x | sel w x => exact sel w x | plop w x => exact plop w x
  | mov w => exact mov w | movLong w x => exact movLong w x | movi w imm => exact movi w imm | lea w => exact lea w
  | leaLong w x => exact leaLong w x | fadd w => exact fadd w | faddLong w x => exact faddLong w x
  | fsub w => exact fsub w | fsubLong w x => exact fsubLong w x | fmul w => exact fmul w
  | fmulLong w x => exact fmulLong w x | ffma w x => exact ffma w x | fmin w => exact fmin w
  | fminLong w x => exact fminLong w x | fmax w => exact fmax w | fmaxLong w x => exact fmaxLong w x
  | fscl w => exact fscl w | fsclLong w x => exact fsclLong w x | frnd w => exact frnd w
  | frndLong w x => exact frndLong w x | hadd2 w => exact hadd2 w | hadd2Long w x => exact hadd2Long w x
  | hmul2 w => exact hmul2 w | hmul2Long w x => exact hmul2Long w x | hfma2 w x => exact hfma2 w x
  | frcp w => exact frcp w | frcpLong w x => exact frcpLong w x | frsq w => exact frsq w
  | frsqLong w x => exact frsqLong w x | fsqrt w => exact fsqrt w | fsqrtLong w x => exact fsqrtLong w x
  | fexp2 w => exact fexp2 w | fexp2Long w x => exact fexp2Long w x | flog2 w => exact flog2 w
  | flog2Long w x => exact flog2Long w x | fsin w => exact fsin w | fsinLong w x => exact fsinLong w x
  | fcos w => exact fcos w | fcosLong w x => exact fcosLong w x | ftanh w => exact ftanh w
  | ftanhLong w x => exact ftanhLong w x | cvt w x => exact cvt w x | cvtp w x => exact cvtp w x
  | shfl w => exact shfl w | shflLong w x => exact shflLong w x | ballot w => exact ballot w
  | ballotLong w x => exact ballotLong w x | vote w => exact vote w | voteLong w x => exact voteLong w x
  | redux w => exact redux w | reduxLong w x => exact reduxLong w x | scan w => exact scan w
  | scanLong w x => exact scanLong w x | bcast w => exact bcast w | bcastLong w x => exact bcastLong w x
  | vrand w x => exact vrand w x | bra w x => exact bra w x | bri w => exact bri w | briLong w x => exact briLong w x
  | call w x => exact call w x | ret w => exact ret w | retLong w x => exact retLong w x | conv w => exact conv w
  | convLong w x => exact convLong w x | lyield w => exact lyield w | lyieldLong w x => exact lyieldLong w x
  | prio w => exact prio w | prioLong w x => exact prioLong w x | exit w => exact exit w
  | exitLong w x => exact exitLong w x | nop w => exact nop w | nopLong w x => exact nopLong w x | sld w => exact sld w
  | sldLong w x => exact sldLong w x | sst w => exact sst w | sstLong w x => exact sstLong w x
  | satom w x => exact satom w x | cld w => exact cld w | cldLong w x => exact cldLong w x | cst w => exact cst w
  | cstLong w x => exact cstLong w x | catom w x => exact catom w x | gld w => exact gld w
  | gldLong w x => exact gldLong w x | gst w => exact gst w | gstLong w x => exact gstLong w x
  | gatom w x => exact gatom w x | gred w x => exact gred w x | hld w => exact hld w | hldLong w x => exact hldLong w x
  | hst w => exact hst w | hstLong w x => exact hstLong w x | pld w x => exact pld w x | put w x => exact put w x
  | patom w x => exact patom w x | kld w x => exact kld w x | kst w x => exact kst w x | ksts w x => exact ksts w x
  | fence w => exact fence w | fenceLong w x => exact fenceLong w x | fenceWalk w x => exact fenceWalk w x
  | acq w => exact acq w | acqLong w x => exact acqLong w x | acqRemote w x => exact acqRemote w x
  | rel w => exact rel w | relLong w x => exact relLong w x | pref w => exact pref w
  | prefLong w x => exact prefLong w x | bare w x => exact bare w x | bara w x => exact bara w x
  | barw w x => exact barw w x | baraw w x => exact baraw w x | give w x => exact give w x | take w x => exact take w x
  | ownq w x => exact ownq w x | ctradd w x => exact ctradd w x | ctrwait w x => exact ctrwait w x
  | ctrrd w x => exact ctrrd w x | ringwFill w x => exact ringwFill w x | ringwFree w x => exact ringwFree w x
  | ringlFill w x => exact ringlFill w x | ringlFree w x => exact ringlFree w x | ringq w x => exact ringq w x
  | mm w => exact mm w | mmz w => exact mmz w | scl w => exact scl w | strm w => exact strm w
  | panel w => exact panel w | iterImm w => exact iterImm w | iterReg w => exact iterReg w | loop w => exact loop w
  | xgive w => exact xgive w | xtake w => exact xtake w | xsig w => exact xsig w | xsigBar w => exact xsigBar w
  | xwait w => exact xwait w | xend w => exact xend w | cnest w x => exact cnest w x | cgo w x => exact cgo w x
  | cpy w x => exact cpy w x | cred w x => exact cred w x | qtz w x => exact qtz w x | dqz w x => exact dqz w x
  | rqz w x => exact rqz w x | rqzKv w x => exact rqzKv w x | lsend w x => exact lsend w x
  | lsendPort w x => exact lsendPort w x | lradd w x => exact lradd w x | lwin w x => exact lwin w x
  | qpush w => exact qpush w | qpushLong w x => exact qpushLong w x | qpop w => exact qpop w
  | qpopLong w x => exact qpopLong w x | kopen w x => exact kopen w x | kcommit w x => exact kcommit w x
  | kdrop w x => exact kdrop w x | kmapAlloc w x => exact kmapAlloc w x | kmapFree w x => exact kmapFree w x
  | kmapFetch w x => exact kmapFetch w x | kmapEvict w x => exact kmapEvict w x | kmapLen w x => exact kmapLen w x
  | kmapQuery w x => exact kmapQuery w x | route w x => exact route w x | rret w x => exact rret w x
  | rxwait w x => exact rxwait w x | rxstat w x => exact rxstat w x | amerge w x => exact amerge w x
  | smxup w x => exact smxup w x | sread w x => exact sread w x | swrite w x => exact swrite w x
  | mode w x => exact mode w x | trap w x => exact trap w x | rett w => exact rett w
  | rettLong w x => exact rettLong w x | sleep w x => exact sleep w x
  | _ => exact ofNone rfl

/-- Settles O52, constructor by constructor. -/
theorem encodedInstructionDecodesToItself : Obligations.EncodedInstructionDecodesToItself := by
  unfold Obligations.EncodedInstructionDecodesToItself
  intro i c op hop hc
  exact statement_holds i c op hop hc

end Sys2Proof.Laws.RoundTrip
end

section
/-! PROOF. The words written out in the spec (02 Table 2.20, 04 Table 4.6, 05 Table 5.7, 07 Table 7.15). -/

namespace Sys2Proof.Laws.Decoding

/-- Settles O54: each pair of words is decoded. -/
theorem wordsOfTheSpecDecode : Obligations.WordsOfTheSpecDecode := by
  unfold Obligations.WordsOfTheSpecDecode
  exact ⟨by decide, ⟨_, _, rfl, rfl⟩, ⟨_, _, rfl, rfl⟩, ⟨_, _, rfl, rfl⟩, ⟨_, _, rfl⟩, ⟨_, _, rfl⟩, ⟨_, _, rfl, rfl⟩,
    ⟨_, rfl, rfl⟩⟩

end Sys2Proof.Laws.Decoding
end

section
/-! PROOF. TRAP, unassigned opcodes and RETT: how a handler is left, and what goes on then (06 R244, R248, R266, R267, 10
R346). -/

namespace Sys2Proof.Machine

/-! ## What exec calls -/

theorem exec_trap (w : Base) (e : ExtC) (s : State) : exec (.trap w e) s = userTrap s (.trap w e) e := rfl

theorem exec_unassignedOpcode (c : Cls) (b : Word) (e : Option Word) (s : State) :
    exec (.unassignedOpcode c b e) s = execUnassignedOpcode c b e s := rfl

theorem rettForm_exec {i : Instr} {w : Base} {drop : Bool} (h : rettForm i = some (w, drop)) (s : State) :
    ∃ e : ExtR, exec i s = rett s i e ∧ e.mod.getLsbD 0 = drop := by
  unfold rettForm at h
  split at h <;> cases h
  · exact ⟨shortR 0, rfl, rfl⟩
  · exact ⟨_, rfl, rfl⟩

/-! ## Traps -/

theorem trap_executes {s : State} {x : Issuer} {w : Base} {e : ExtC} (h : Executes s x (.trap w e)) :
    exec (.trap w e) s = .next (instrTrap s x (.trap w e) .userTrap 0 (e.imm.setWidth 32)) := by
  rw [exec_trap, userTrap, runInstr_executes h]
  rfl

/-- UNIMPL needs no active lane (R84). -/
theorem unassignedOpcode_issues {s : State} {x : Issuer} {c : Cls} {b : Word} {e : Option Word}
    (h : Issues s x (.unassignedOpcode c b e)) :
    exec (.unassignedOpcode c b e) s = .next (instrTrap s x (.unassignedOpcode c b e) .unimpl 0 0#32) := by
  obtain ⟨hx, hu⟩ := h
  simp only [exec_unassignedOpcode, execUnassignedOpcode, hx, hu]
  rfl

theorem rett_outside_handler {s : State} {x : Issuer} {i : Instr} (e : ExtR) (h : Executes s x i)
    (hh : x.g.handler = none) : rett s i e = .next (instrTrap s x i .illegalEncoding 0xE 0#32) := by
  rw [rett, runInstr_executes h, hh]
  rfl

theorem rett_in_handler {s : State} {x : Issuer} {i : Instr} {r : Handler} (e : ExtR) (h : Executes s x i)
    (hh : x.g.handler = some r) :
    let t := resumeStopped (((s.mapCore x.core fun c => c.mapSched x.sched fun k =>
      { k with run := k.run.map fun r => { r with marked := 0#64 } })).mapGroup x.core x.slot leaveHandler) x.core r.trap
        (e.mod.getLsbD 0)
    rett s i e = .next (endRun (if r.trap.cause = .gangLost then exitGroup t x.core x.slot else t) x.core x.sched) := by
  rw [rett, runInstr_executes h, hh]
  rfl

/-! ## What the handler was entered for goes on -/

/-- A change of a core is told by its value at that core. -/
theorem State.mapCore_congr {s : State} {n : Nat} {f f' : Core → Core} (h : f (s.core n) = f' (s.core n)) :
    s.mapCore n f = s.mapCore n f' := congrArg (s.setCore n) h

theorem runSet_congr {s : State} {n : Nat} {r : SeqRun} {f f' : SeqRun → SeqRun} (hr : (s.core n).seqRun = some r)
    (h : f r = f' r) : runSet s n f = runSet s n f' :=
  State.mapCore_congr (by simp only [hr, Option.map_some, h])

/-- A stopped clause goes on, or is abandoned; a leader's follower apart, on this core alone (R244). -/
theorem resumeStopped_sequencer {s : State} {core : Nat} {r : SeqRun} {t u : Trap} (hr : (s.core core).seqRun = some r)
    (hu : r.stopped = some u) (hl : r.role ≠ .leader) (ht : t.origin = .sequencer) (drop : Bool) :
    resumeStopped s core t drop =
      runSet s core fun r => if drop then abandonClause r else { r with stopped := none } := by
  have hlead : (r.role == .leader) = false := by simpa using hl
  simp only [resumeStopped, ht, resumeClause, hr, hlead, Bool.false_and, Bool.false_eq_true, if_false]
  exact runSet_congr hr (by simp only [hu, Option.isSome_some, if_true])

/-- A stopped command goes on unless it is a record that fails its checks, or is dropped (R248, R263). -/
theorem resumeStopped_engine {s : State} {core : Nat} {e : Engine} {n : Nat} {t : Trap} (ht : t.origin = .engine e n)
    (hb : (((s.core core).eng e).bad.any fun b => b.1 == n) = false) (drop : Bool) :
    resumeStopped s core t drop = s.mapCmd core e n fun k =>
      if drop then dropCmd k else if badRecord s k then k else { k with fault := none } := by
  simp only [resumeStopped, ht]
  exact State.mapCore_congr (by simp only [resumeCmd, hb, Bool.false_eq_true, if_false])

/-! ## The group behind its handler -/

/-- The lanes parked with VALID clear, which run again (log 26). -/
def freshLanes (g : Group) : LaneMask :=
  maskBy fun l => nth LaneState.exited g.lanes l == .parked && !(match g.lfr[l]? with | some r => r.valid | none => true)

theorem getLsbD_freshLanes {g : Group} {l : Nat} {r : Lfr} (hl : l < 64) (hr : g.lfr[l]? = some r) :
    (freshLanes g).getLsbD l = true ↔ nth LaneState.exited g.lanes l = .parked ∧ r.valid = false := by
  simp [freshLanes, getLsbD_maskBy _ hl, hr]

/-- What of an interrupted run's lanes has not moved (log 41). -/
def unmovedLanes (g : Group) (lanes : List LaneState) (r : Run) : LaneMask :=
  r.exec &&& maskBy fun l => nth 0#32 g.lpc l == r.pos && nth LaneState.exited lanes l == .run

theorem leaveHandler_of_handler {g : Group} {h : Handler} (hh : g.handler = some h) :
    let lanes := mapLanes (freshLanes g) (fun _ _ => .run) g.lanes
    leaveHandler g = { g with
      handler := none, lanes := lanes
      laneHdr := g.laneHdr.mapIdx fun l p =>
        if (freshLanes g).getLsbD l then (match g.lfr[l]? with | some r => some r.pc | none => p) else p
      wait := match h.wait with | .fetch _ _ _ => .none | w => w
      cont := h.cont.map fun r => { r with exec := unmovedLanes g lanes r } } := by
  simp only [leaveHandler, hh]
  rfl

/-- A lane that was PARKED with VALID clear runs, and its clause is that of its LFR; another keeps the frame's state. -/
theorem leaveHandler_lane {g : Group} {h : Handler} (hh : g.handler = some h) {l : Nat} {r : Lfr} (hl : l < 64)
    (hn : l < g.lanes.length) (hr : g.lfr[l]? = some r) :
    nth LaneState.exited (leaveHandler g).lanes l =
        (if nth LaneState.exited g.lanes l = .parked ∧ r.valid = false then .run else nth LaneState.exited g.lanes l) ∧
    ∀ p, g.laneHdr[l]? = some p → (leaveHandler g).laneHdr[l]? =
      some (if nth LaneState.exited g.lanes l = .parked ∧ r.valid = false then some r.pc else p) := by
  simp only [leaveHandler_of_handler hh, nth_mapLanes _ _ _ hn, List.getElem?_mapIdx, getLsbD_freshLanes hl hr, hr]
  exact ⟨trivial, fun p hp => by rw [hp, Option.map_some]⟩

/-- The interrupted run comes back with the lanes that stand where it was cut and run again. -/
theorem leaveHandler_cont {g : Group} {h : Handler} (hh : g.handler = some h) {q : Run} (hq : h.cont = some q) {l : Nat}
    (hl : l < 64) :
    ∃ q', (leaveHandler g).cont = some q' ∧ q' = { q with exec := q'.exec } ∧
      (q'.exec.getLsbD l = true ↔ q.exec.getLsbD l = true ∧ nth 0#32 g.lpc l = q.pos ∧
        nth LaneState.exited (leaveHandler g).lanes l = .run) := by
  rw [leaveHandler_of_handler hh]
  refine ⟨{ q with exec := unmovedLanes g _ q }, congrArg (Option.map _) hq, rfl, ?_⟩
  simp [unmovedLanes, getLsbD_maskBy _ hl]

/-! ## The statement -/

/-- Settles O38: each instruction by its own law, and what leaving a handler does of a group, field by field. -/
theorem trapInstructionsTrap : Obligations.TrapInstructionsTrap := by
  unfold Obligations.TrapInstructionsTrap
  refine ⟨⟨fun s x w e h => trap_executes h, fun s x c b e h => unassignedOpcode_issues h, ?rett, ?clause, ?command⟩, ?leave⟩
  case rett =>
    intro s x i w drop hi h
    obtain ⟨e, he, rfl⟩ := rettForm_exec hi s
    rw [he]
    exact ⟨rett_outside_handler e h, fun r hr => rett_in_handler e h hr⟩
  case clause =>
    intro s core r t u hr hu hl ht
    exact ⟨resumeStopped_sequencer hr hu hl ht false, resumeStopped_sequencer hr hu hl ht true⟩
  case command =>
    intro s core e n t ht hb
    exact ⟨resumeStopped_engine ht hb false, resumeStopped_engine ht hb true⟩
  case leave =>
    intro g hg
    obtain ⟨h, hh⟩ := Option.isSome_iff_exists.1 hg
    have hL := leaveHandler_of_handler hh
    refine ⟨by rw [hL], by rw [hL], by rw [hL], by rw [hL], by rw [hL], by rw [hL], by rw [hL], by rw [hL], ?_⟩
    intro l r hl hn hr
    obtain ⟨hlane, hhdr⟩ := leaveHandler_lane hh hl hn hr
    refine ⟨hlane, hhdr, fun h' hh' => ⟨?_, fun hc => ?_, fun q hq => leaveHandler_cont hh' hq hl⟩⟩
    · exact congrArg Group.wait (leaveHandler_of_handler hh')
    · rw [leaveHandler_of_handler hh', hc]
      rfl

end Sys2Proof.Machine
end

section
/-! PROOF. What a step does: the head of the agenda carried out, and the next instruction of a run, its group of instructions
checked when the run reaches it (02 R65, R66, R85, 09 R328). -/

namespace Sys2Proof.Machine

/-! ## The head of the agenda -/

theorem step_of_agenda {s : State} {m : Move} {ms : List Move} (ha : s.agenda = m :: ms) :
    step s = afterMove m.cycles (carryOut { s with agenda := ms } m) := by
  simp only [step, advance, ha]

theorem carryOut_event {s : State} (hp : s.power ≠ .off) (i : Instr) (q : Sel) :
    carryOut s (.event i q) = exec i { s with sel := q, focus := .none } := by
  simp [carryOut, hp]

/-- What comes next in a run, as the outcome of its issue in state s. -/
def NextInstr.outcome (s : State) : NextInstr → Host.Outcome State Fault Refusal
  | .instr i t => exec i t
  | .moved t => .next t
  | .none => .next s

theorem carryOut_issue {s : State} (hp : s.power ≠ .off) (core k : Nat) :
    carryOut s (.issue core k) = (nextInstr s core k).outcome s := by
  have hoff : (s.power == .off && !(Move.issue core k).resets) = false := by simp [hp]
  simp only [carryOut, hoff, Bool.false_eq_true, if_false]
  rfl

theorem step_of_event {s : State} {i : Instr} {q : Sel} {ms : List Move} (ha : s.agenda = .event i q :: ms)
    (hp : s.power ≠ .off) : step s = afterMove 1 (exec i { s with agenda := ms, sel := q, focus := .none }) := by
  exact (step_of_agenda ha).trans (congrArg (afterMove 1) (carryOut_event (s := { s with agenda := ms }) hp i q))

theorem step_of_issue {s : State} {core k : Nat} {ms : List Move} (ha : s.agenda = .issue core k :: ms)
    (hp : s.power ≠ .off) : step s =
      afterMove 1 ((nextInstr { s with agenda := ms } core k).outcome { s with agenda := ms }) := by
  exact (step_of_agenda ha).trans (congrArg (afterMove 1) (carryOut_issue (s := { s with agenda := ms }) hp core k))

theorem afterMove_on {n : Nat} {t : State} (h : t.power ≠ .off) :
    afterMove n (.next t) = .next (settleAll { t with cycle := t.cycle + n }) :=
  congrArg Host.Outcome.next (if_neg h)

theorem afterMove_off {n : Nat} {t : State} (h : t.power = .off) : afterMove n (.next t) = .next t :=
  congrArg Host.Outcome.next (if_pos h)

/-! ## The next instruction of a run -/

/-- Scheduler k of a core has a run, x, that stands before a word of its clause with lanes to execute it. -/
structure StandsAtWord (s : State) (core k : Nat) (x : Issuer) : Prop where
  issuer : issuer { s with focus := .group core k } = some x
  wait : x.g.wait = .none
  exec : x.run.exec ≠ 0#64
  chain : x.run.mustChain = false
  inside : x.run.atEnd = false

/-- The run of an issuer is that of the scheduler in focus. -/
theorem issuer_place {s : State} {core k : Nat} {x : Issuer} (h : issuer { s with focus := .group core k } = some x) :
    x.core = core ∧ x.sched = k := by
  unfold issuer at h
  simp only at h
  split at h
  · cases h
  · split at h
    · cases h
    · split at h <;> cases h
      exact ⟨rfl, rfl⟩

/-- How far a run's words are checked once its group of instructions at hand has passed. -/
def Run.checkedTo (r : Run) : Word :=
  if r.pos < r.checked then r.checked
  else match (groupWords r).getLast? with
    | some (ix, _, _) => r.cur + BitVec.ofNat 32 (8 + 4 * ix)
    | none => r.pos

theorem Run.wordAt_checked (r : Run) (c off : Word) : { r with checked := c }.wordAt off = r.wordAt off := rfl

section
variable {s : State} {core k : Nat} {x : Issuer} (h : StandsAtWord s core k x)
include h

theorem nextInstr_xClause (hx : hdrClass x.run.hdr = .x) : nextInstr s core k =
    .instr .xclauseHandoff { s with focus := .group core k, sel := { s.sel with core := core, sched := k } } := by
  obtain ⟨hi, hw, he, hc, ha⟩ := h
  simp [nextInstr, hi, hw, he, hc, ha, hx]

/-- A group of instructions that fails a check traps once the registers that the failing word names have landed (R67, R85). -/
theorem nextInstr_failed (hx : hdrClass x.run.hdr ≠ .x) (hn : ¬x.run.pos < x.run.checked) {ix : Nat} {f : Failure}
    (hf : groupFailure (checkEnv x.g x.l) [] (groupWords x.run) = some (ix, f)) (hv : viewPending x.g x.run ix = false) :
    nextInstr s core k = .moved (checkTrap { s with focus := .group core k } x ix f) := by
  obtain ⟨hi, hw, he, hc, ha⟩ := h
  simp [nextInstr, hi, hw, he, hc, ha, hx, hn, hf, hv]

/-- Inside a checked group of instructions, or before one that passes, what the words decode to comes next (R65, R85). -/
theorem nextInstr_checked (hx : hdrClass x.run.hdr ≠ .x)
    (hp : x.run.pos < x.run.checked ∨ groupFailure (checkEnv x.g x.l) [] (groupWords x.run) = none) :
    let r := x.run
    let t := { s with focus := .group core k }.mapCore core fun d => d.mapSched k fun y =>
      { y with run := some { r with checked := r.checkedTo } }
    let fetched := decode (hdrClass r.hdr) (r.wordAt r.pos) (r.wordAt (r.pos + 4#32))
    (∀ i, fetched = .ok i → nextInstr s core k = .instr i t) ∧
    (fetched = .unassigned → nextInstr s core k = .instr (.unassignedOpcode (hdrClass r.hdr) (r.wordAt r.pos)
      (if longOf (r.wordAt r.pos) then some (r.wordAt (r.pos + 4#32)) else none)) t) := by
  obtain ⟨hi, hw, he, hc, ha⟩ := h
  by_cases hl : x.run.pos < x.run.checked
  · exact ⟨fun i hd => by simp [nextInstr, Run.checkedTo, hi, hw, he, hc, ha, hx, hl, hd],
      fun hd => by simp [nextInstr, Run.checkedTo, hi, hw, he, hc, ha, hx, hl, hd]⟩
  · have hg := hp.resolve_left hl
    exact ⟨fun i hd => by
        simp [nextInstr, Run.checkedTo, Run.wordAt_checked, hi, hw, he, hc, ha, hx, hl, hg, hd] <;> rfl,
      fun hd => by
        simp [nextInstr, Run.checkedTo, Run.wordAt_checked, hi, hw, he, hc, ha, hx, hl, hg, hd] <;> rfl⟩
end

/-! ## The statement -/

/-- Settles O50: the head of the agenda is carried out, and an issue runs what the words at the run's position decode to. -/
theorem stepRunsDecodedInstruction : Obligations.StepRunsDecodedInstruction := by
  unfold Obligations.StepRunsDecodedInstruction
  refine ⟨?issue, fun s i q ms ha hp => step_of_event ha hp, fun n t hp => afterMove_on hp, fun n t hp => afterMove_off hp⟩
  case issue =>
    intro s core k ms x ha hp s1 r fetched hi hw he hc hend
    have h : StandsAtWord { s with agenda := ms } core k x := ⟨hi, hw, he, hc, hend⟩
    rw [step_of_issue ha hp]
    refine ⟨fun hx => by rw [nextInstr_xClause h hx]; rfl, fun hx hg => ?_⟩
    obtain ⟨hok, hun⟩ := nextInstr_checked h hx hg
    refine ⟨r.checkedTo, fun hl => if_pos hl, fun i hd => ?_, fun hd => ?_⟩
    · rw [hok i hd]
      rfl
    · rw [hun hd]
      rfl

end Sys2Proof.Machine
end

section
/-! PROOF. Checks that fail: of a word by itself, of a group of instructions, of a header, and the trap that tells the first
(02 R64, R85 to R89). -/

namespace Sys2Proof.Machine

/-! ## What fails, and the trap -/

/-- The trap of a failed check tells its reason, its word and its clause (02 R89). -/
theorem checkTrap_spec (s : State) (x : Issuer) (ix : Nat) (f : Failure) :
    let at_ := x.run.cur + BitVec.ofNat 32 (4 + 4 * ix)
    ∃ t : Trap, checkTrap s x ix f = takeTrap s x.core x.sched x.slot x.run.exec at_ (some x.run.cur) t ∧
      (∀ n, f = .enc n → t.cause = .illegalEncoding ∧ t.reason = BitVec.ofNat 4 n) ∧ (f = .ring → t.cause = .queueFault) ∧
      t.word = BitVec.ofNat 4 ix ∧ t.chain = x.run.chained ∧ t.words = x.run.wordAt at_ ++ x.run.hdr := by
  cases f with
  | enc n => exact ⟨_, rfl, by rintro _ ⟨⟩; exact ⟨rfl, rfl⟩, nofun, rfl, rfl, rfl⟩
  | ring => exact ⟨_, rfl, nofun, fun _ => rfl, rfl, rfl, rfl⟩

/-- The first check that fails decides the reason, in the order of 02 R86. -/
theorem ownFailure_order (e : CheckEnv) (last : Bool) (i : Instr) :
    let f := infoOf e i
    let bad9 := f.bad9 || (f.reads ++ f.writes).any Opd.bad
    (f.bad7 = true → ownFailure e last (.ok i) = some (.enc 0x7)) ∧
    (f.bad7 = false → bad9 = true → ownFailure e last (.ok i) = some (.enc 0x9)) ∧
    (f.bad7 = false → bad9 = false →
      (f.p0 = true → ownFailure e last (.ok i) = some (.enc 0xD)) ∧
      (f.p0 = false → f.badE = true → ownFailure e last (.ok i) = some (.enc 0xE)) ∧
      (f.p0 = false → f.badE = false → f.badRing = true → ownFailure e last (.ok i) = some .ring) ∧
      (f.p0 = false → f.badE = false → f.badRing = false → f.transfer = true → last = false →
        ownFailure e last (.ok i) = some (.enc 0xC))) := by
  intro f bad9
  have hf : ownFailure e last (.ok i) =
      if f.bad7 then some (.enc 0x7) else if bad9 then some (.enc 0x9) else if f.p0 then some (.enc 0xD)
      else if f.badE then some (.enc 0xE) else if f.badRing then some .ring
      else if f.transfer && !last then some (.enc 0xC) else none := rfl
  clear_value bad9 f
  rw [hf]
  exact ⟨fun h7 => by simp [h7], fun h7 h9 => by simp [h7, h9], fun h7 h9 =>
    ⟨fun hD => by simp [h7, h9, hD], fun hD hE => by simp [h7, h9, hD, hE], fun hD hE hR => by simp [h7, h9, hD, hE, hR],
      fun hD hE hR hT hL => by simp [h7, h9, hD, hE, hR, hT, hL]⟩⟩

/-- The failure of a group is that of its first word that fails: by itself, or by dependence on a word before it. -/
theorem groupFailure_first {e : CheckEnv} {ix : Nat} {f : Failure} :
    ∀ {ds : List (Nat × Bool × Decoded)} {passed : List Decoded}, groupFailure e passed ds = some (ix, f) →
      ∃ before last d after, ds = before ++ (ix, last, d) :: after ∧ (∀ p ∈ before, ownFailure e p.2.1 p.2.2 = none) ∧
        (ownFailure e last d = some f ∨
          (ownFailure e last d = none ∧ dependsOnAny e (passed ++ before.map fun p => p.2.2) d = true ∧ f = .enc 0xA))
  | [], _, h => nomatch h
  | (jx, last, d) :: ds, passed, h => by
    unfold groupFailure at h
    split at h
    next g hg =>
      cases h
      exact ⟨[], last, d, ds, rfl, List.forall_mem_nil _, .inl hg⟩
    next hown =>
      split at h
      next hdep =>
        cases h
        exact ⟨[], last, d, ds, rfl, List.forall_mem_nil _, .inr ⟨hown, by simpa using hdep, rfl⟩⟩
      next =>
        obtain ⟨before, last', d', after, rfl, hb, hf⟩ := groupFailure_first h
        refine ⟨(jx, last, d) :: before, last', d', after, rfl, List.forall_mem_cons.2 ⟨hown, hb⟩, ?_⟩
        simpa using hf

/-- A header that fails its checks traps before any word of its clause (02 R64). -/
theorem probeAt_header_fails {s : State} {core slot n : Nat} {g : Group} {l : Launch} {fault : Option Trap} {addr hdr : Word}
    {exec : LaneMask} {res : Option Word} {code : List Word} {c : Bool}
    (hr : readRun s (dieOf core) l (res.getD addr).toNat = .ok code)
    (hc : checkRun l.rec_.codeLen (res.getD addr).toNat
      (if res.isSome then (addr.toNat - (res.getD addr).toNat) / 4 - 1 else 0) code = .enc n c hdr) :
    probeAt s core slot g l fault addr exec res = .fail g (headerTrap n c hdr) := by
  simp only [probeAt, hr, hc]

theorem headerFailure_first (hdr : Word) (k : Nat) (ws : List Word) :
    (hdrCount hdr = 0 → headerFailure hdr k ws = some 0x1) ∧
    (hdrCount hdr ≠ 0 → hdr.getLsbD 0 = true → headerFailure hdr k ws = some 0x2) :=
  ⟨fun h => by simp [headerFailure, h], fun h h0 => by simp [headerFailure, h, h0]⟩

/-! ## The statement -/

/-- Settles O51: the checks in the order of 02 R86, the first word that fails, and the trap that tells it. -/
theorem failedChecksTrap : Obligations.FailedChecksTrap := by
  unfold Obligations.FailedChecksTrap
  refine ⟨?step, fun e last i => ⟨fun _ => rfl, ownFailure_order e last i⟩, fun e ds ix f h => ?group, ?header,
    headerFailure_first⟩
  case step =>
    intro s core k ix ms x f ha hp s1 r hi hw he hc hend hx hn hf hv at_
    have h : StandsAtWord { s with agenda := ms } core k x := ⟨hi, hw, he, hc, hend⟩
    obtain ⟨rfl, rfl⟩ := issuer_place hi
    obtain ⟨t, ht, henc, hring, hword, hchain, hwords⟩ := checkTrap_spec s1 x ix f
    obtain ⟨-, hW, hC, -, -, hR, -⟩ := t.causeWord_fields
    refine ⟨t, ?_, fun n hfn => ⟨(henc n hfn).1, hR.trans (henc n hfn).2⟩, hring, hW.trans hword, hC.trans hchain, hwords⟩
    rw [step_of_issue ha hp, nextInstr_failed h hx hn hf hv, ← ht]
    rfl
  case group =>
    obtain ⟨before, last, d, after, hds, hb, hf⟩ := groupFailure_first h
    exact ⟨before, last, d, after, hds, hb, by simpa using hf⟩
  case header =>
    intro s core slot n g l fault addr hdr exec res code c h hr hc
    obtain ⟨-, hW, hC, -, -, hR, -⟩ := (headerTrap n c hdr).causeWord_fields
    exact ⟨_, probeAt_header_fails hr hc, rfl, hW, hR, hC, rfl⟩

end Sys2Proof.Machine
end

section
/-! PROOF. Numbers: sums of WS96 values, their conversion to FP32, and random bits (03 R128 to R137). -/

namespace Sys2Proof.Machine

/-! ## Fields of a WS96 pattern (R128) -/

/-- The 87 bits of MAG read as a signed number. -/
theorem wsMag_eq_toInt (x : Nat) : wsMag x = (BitVec.ofNat 87 x).toInt := by
  simp only [wsMag, readInt, BitVec.toInt_eq_toNat_cond, BitVec.toNat_ofNat, Bool.true_and, decide_eq_true_eq]
  split <;> split <;> omega

theorem wsMag_emod (x : Nat) : wsMag x % 2 ^ 87 = ((x % 2 ^ 87 : Nat) : Int) := by
  simp only [wsMag, readInt, Bool.true_and, decide_eq_true_eq]
  split <;> omega

theorem wrapInt_lt (v : Int) (w : Nat) : wrapInt v w < 2 ^ w := by
  have h : (0 : Int) < 2 ^ w := by positivity
  have h1 := Int.emod_nonneg v h.ne'
  have h2 := Int.emod_lt_of_pos v h
  unfold wrapInt
  zify
  omega

theorem wsMake_mod (an : Nat) (v : Int) : wsMake an v % 2 ^ 87 = wrapInt v 87 := by
  have := wrapInt_lt v 87
  simp only [wsMake]
  omega

theorem wsAnchor_wsMake {an : Nat} (h : an < 256) (v : Int) : wsAnchor (wsMake an v) = an := by
  have := wrapInt_lt v 87
  simp only [wsAnchor, wsMake]
  omega

theorem wsMake_lt {an : Nat} (h : an < 256) (v : Int) : wsMake an v < 2 ^ 95 := by
  have := wrapInt_lt v 87
  simp only [wsMake]
  omega

theorem wsOvf_of_lt {x : Nat} (h : x < 2 ^ 95) : wsOvf x = false := by
  rw [wsOvf, decide_eq_false_iff_not]
  omega

theorem wsAnchor_lt (x : Nat) : wsAnchor x < 256 := Nat.mod_lt _ (by decide)

/-- A pattern is OVF, ANCHOR and MAG. -/
theorem ws_eq_of_fields {x y : Nat} (hx : x < 2 ^ 96) (hy : y < 2 ^ 96) (ho : wsOvf x = false) (ho' : wsOvf y = false)
    (ha : wsAnchor x = wsAnchor y) (hm : x % 2 ^ 87 = y % 2 ^ 87) : x = y := by
  simp only [wsOvf, decide_eq_false_iff_not, wsAnchor] at ho ho' ha
  omega

/-! ## Addition of two (R130) -/

@[simp] theorem wsOvf_wsMarker : wsOvf wsMarker = true := by decide

theorem wsAdd_marker {x y : Nat} (h : wsOvf x = true ∨ wsOvf y = true ∨ wsAnchor x ≠ wsAnchor y) : wsAdd x y = wsMarker :=
  if_pos (by simpa [or_assoc] using h)

/-- What two terms without OVF and of one anchor add up to. -/
theorem wsAdd_make {x y : Nat} (hx : wsOvf x = false) (hy : wsOvf y = false) (ha : wsAnchor x = wsAnchor y) :
    wsAdd x y = wsMake (wsAnchor x) (wsMag x + wsMag y) :=
  if_neg (by simp [hx, hy, ha])

theorem wsAdd_cases (x y : Nat) :
    (wsOvf x = true ∨ wsOvf y = true ∨ wsAnchor x ≠ wsAnchor y) ∨
      (wsOvf x = false ∧ wsOvf y = false ∧ wsAnchor x = wsAnchor y) := by
  cases wsOvf x <;> cases wsOvf y <;> simp [ne_or_eq]

theorem wsAdd_lt (x y : Nat) : wsAdd x y < 2 ^ 96 := by
  rcases wsAdd_cases x y with h | ⟨hx, hy, ha⟩
  · rw [wsAdd_marker h]
    decide
  · rw [wsAdd_make hx hy ha]
    exact (wsMake_lt (wsAnchor_lt x) _).trans (by decide)

theorem wsAdd_comm (x y : Nat) : wsAdd x y = wsAdd y x := by
  rcases wsAdd_cases x y with h | ⟨hx, hy, ha⟩
  · rw [wsAdd_marker h, wsAdd_marker (by tauto)]
  · rw [wsAdd_make hx hy ha, wsAdd_make hy hx ha.symm, ha, add_comm]

theorem wsAdd_mod {x y : Nat} (hx : wsOvf x = false) (hy : wsOvf y = false) (ha : wsAnchor x = wsAnchor y) :
    wsAdd x y % 2 ^ 87 = (x % 2 ^ 87 + y % 2 ^ 87) % 2 ^ 87 := by
  have h1 := wsMag_emod x
  have h2 := wsMag_emod y
  rw [wsAdd_make hx hy ha, wsMake_mod, wrapInt]
  omega

/-! ## Sums of many (R131) -/

/-- No term is the marker, and the anchors are all equal. -/
def WsAgree (ts : List Nat) : Prop := (∀ t ∈ ts, wsOvf t = false) ∧ ∀ t ∈ ts, ∀ u ∈ ts, wsAnchor t = wsAnchor u

/-- A pattern is the sum of terms that agree: their common anchor, and the sum of their MAGs. -/
structure WsTotal (v : Nat) (ts : List Nat) : Prop where
  ovf : wsOvf v = false
  anchor : ∀ t ∈ ts, wsAnchor v = wsAnchor t
  mag : v % 2 ^ 87 = (ts.map (· % 2 ^ 87)).sum % 2 ^ 87

theorem WsAgree.of_append {xs ys : List Nat} (h : WsAgree (xs ++ ys)) : WsAgree xs ∧ WsAgree ys :=
  ⟨⟨fun t ht => h.1 t (List.mem_append_left _ ht),
    fun t ht u hu => h.2 t (List.mem_append_left _ ht) u (List.mem_append_left _ hu)⟩,
   ⟨fun t ht => h.1 t (List.mem_append_right _ ht),
    fun t ht u hu => h.2 t (List.mem_append_right _ ht) u (List.mem_append_right _ hu)⟩⟩

theorem WsTotal.agree {v : Nat} {ts : List Nat} (h : WsTotal v ts) (ho : ∀ t ∈ ts, wsOvf t = false) : WsAgree ts :=
  ⟨ho, fun t ht u hu => (h.anchor t ht).symm.trans (h.anchor u hu)⟩

theorem WsTotal.add {x y : Nat} {xs ys : List Nat} (hx : WsTotal x xs) (hy : WsTotal y ys) (ha : wsAnchor x = wsAnchor y) :
    WsTotal (wsAdd x y) (xs ++ ys) where
  ovf := by
    rw [wsAdd_make hx.ovf hy.ovf ha]
    exact wsOvf_of_lt (wsMake_lt (wsAnchor_lt x) _)
  anchor t ht := by
    rw [wsAdd_make hx.ovf hy.ovf ha, wsAnchor_wsMake (wsAnchor_lt x)]
    exact (List.mem_append.1 ht).elim (hx.anchor t) fun h => ha.trans (hy.anchor t h)
  mag := by
    rw [wsAdd_mod hx.ovf hy.ovf ha, hx.mag, hy.mag, List.map_append, List.sum_append, ← Nat.add_mod]

theorem WsSum.exists_term (w : WsSum) : ∃ t, t ∈ w.terms := by
  induction w with
  | one x => exact ⟨x, List.mem_singleton_self x⟩
  | add x y ihx _ =>
    obtain ⟨t, ht⟩ := ihx
    exact ⟨t, List.mem_append_left _ ht⟩

/-- Terms that agree have their total as the sum. -/
theorem WsSum.value_total {w : WsSum} (h : WsAgree w.terms) : WsTotal w.value w.terms := by
  induction w with
  | one x => exact ⟨h.1 x (List.mem_singleton_self x), by simp [terms, value], by simp [terms, value]⟩
  | add x y ihx ihy =>
    obtain ⟨hx, hy⟩ := h.of_append
    obtain ⟨t, ht⟩ := x.exists_term
    obtain ⟨u, hu⟩ := y.exists_term
    refine (ihx hx).add (ihy hy) ?_
    rw [(ihx hx).anchor t ht, (ihy hy).anchor u hu, h.2 t (List.mem_append_left _ ht) u (List.mem_append_right _ hu)]

/-- Only terms that agree have a sum without OVF. -/
theorem WsSum.agree_of_value {w : WsSum} (h : wsOvf w.value = false) : WsAgree w.terms := by
  induction w with
  | one x => exact ⟨by simpa [terms, value] using h, by simp [terms]⟩
  | add x y ihx ihy =>
    rcases wsAdd_cases x.value y.value with hm | ⟨hx, hy, ha⟩
    · rw [value, wsAdd_marker hm] at h
      cases h
    · have hx := ihx hx
      have hy := ihy hy
      exact ((value_total hx).add (value_total hy) ha).agree fun t ht => (List.mem_append.1 ht).elim (hx.1 t) (hy.1 t)

/-- Terms that do not agree add up to the marker. -/
theorem WsSum.add_marker {x y : WsSum} (h : ¬WsAgree (WsSum.add x y).terms) : (WsSum.add x y).value = wsMarker := by
  rcases wsAdd_cases x.value y.value with hm | ⟨hx, hy, ha⟩
  · exact wsAdd_marker hm
  · refine absurd (WsSum.agree_of_value ?_) h
    exact ((value_total (agree_of_value hx)).add (value_total (agree_of_value hy)) ha).ovf

/-- Two sums of the same terms have the same value. -/
theorem WsSum.value_eq_of_terms {x y z w : WsSum} (h : (WsSum.add x y).terms = (WsSum.add z w).terms) :
    (WsSum.add x y).value = (WsSum.add z w).value := by
  by_cases ha : WsAgree (WsSum.add x y).terms
  · have h1 := value_total ha
    have h2 := value_total (h ▸ ha)
    obtain ⟨t, ht⟩ := (WsSum.add x y).exists_term
    exact ws_eq_of_fields (wsAdd_lt _ _) (wsAdd_lt _ _) h1.ovf h2.ovf ((h1.anchor t ht).trans (h2.anchor t (h ▸ ht)).symm)
      (by rw [h1.mag, h2.mag, h])
  · rw [add_marker ha, add_marker (h ▸ ha)]

theorem wsAdd_assoc (x y z : Nat) : wsAdd (wsAdd x y) z = wsAdd x (wsAdd y z) :=
  WsSum.value_eq_of_terms (x := .add (.one x) (.one y)) (y := .one z) (z := .one x) (w := .add (.one y) (.one z)) rfl

theorem foldl_add_eq_sum (f : Nat → Nat) (ts : List Nat) : ts.foldl (fun n t => n + f t) 0 = (ts.map f).sum := by
  rw [List.sum_eq_foldl, List.foldl_map]

/-- Settles O40: a sum is the total of its terms where they agree, and the marker where they do not, whatever its tree. -/
theorem ws96SumIsOrderFree : Obligations.Ws96SumIsOrderFree := by
  unfold Obligations.Ws96SumIsOrderFree
  refine ⟨wsAdd_comm, fun a b c _ _ _ => wsAdd_assoc a b c, fun x y _ => ⟨fun h => WsSum.add_marker fun k => ?_, fun ho ha => ?_⟩⟩
  · rcases h with ⟨t, ht, h⟩ | ⟨t, ht, u, hu, h⟩
    · simp [k.1 t ht] at h
    · exact h (k.2 t ht u hu)
  · have h := WsSum.value_total ⟨ho, ha⟩
    rw [foldl_add_eq_sum]
    exact ⟨h.ovf, h.anchor, h.mag⟩

/-! ## Conversion to FP32 (R134) -/

/-- Settles O58, by the value of a pattern with and without OVF. -/
theorem ws96ToFp32 : Obligations.Ws96ToFp32 := by
  unfold Obligations.Ws96ToFp32
  intro x md
  constructor <;> intro h
  · rw [wsTo, wsValue, if_pos h]
    rfl
  · rw [wsTo, wsValue, h, if_neg Bool.false_ne_true, wsMag_eq_toInt]
    rfl

/-! ## Random bits (R137) -/

/-- A round with any constants, on the numbers of the words. -/
theorem toNat_xorshift_mul_add (x c d : DWord) :
    ((x ^^^ (x >>> 29)) * c + d).toNat = ((x.toNat ^^^ (x.toNat >>> 29)) * c.toNat + d.toNat) % 2 ^ 64 := by
  rw [BitVec.toNat_add, BitVec.toNat_mul, BitVec.toNat_xor, BitVec.toNat_ushiftRight, Nat.mod_add_mod]

theorem toNat_vrandRound (x : DWord) : (vrandRound x).toNat = vrandStep x.toNat := by
  unfold vrandRound vrandStep
  rw [toNat_xorshift_mul_add, BitVec.toNat_ofNat, BitVec.toNat_ofNat]
  
/-- What the rounds begin with, with any constants. -/
theorem toNat_xor_add_mul (seed ctr c d : DWord) (n : Nat) :
    ((seed ^^^ (BitVec.ofNat 64 n * c)) + ctr * d).toNat =
      ((seed.toNat ^^^ (n * c.toNat % 2 ^ 64)) + ctr.toNat * d.toNat % 2 ^ 64) % 2 ^ 64 := by
  rw [BitVec.toNat_add, BitVec.toNat_xor, BitVec.toNat_mul, BitVec.toNat_mul, BitVec.toNat_ofNat, Nat.mod_mul_mod]

/-- Settles O59: the start, the four rounds and the low half, each on the numbers of the words. -/
theorem vrandIsItsFunction : Obligations.VrandIsItsFunction := by
  unfold Obligations.VrandIsItsFunction
  intro seed ctr gli
  unfold vrand
  rw [BitVec.toNat_setWidth, BitVec.toNat_xor, BitVec.toNat_ushiftRight, toNat_vrandRound, toNat_vrandRound, toNat_vrandRound,
    toNat_vrandRound, toNat_xor_add_mul, BitVec.toNat_ofNat, BitVec.toNat_ofNat]

end Sys2Proof.Machine
end

section
/-! PROOF. Lists, sorted tables, cores and tiles read back. -/

namespace Sys2Proof.Machine

/-! ## Elements of lists -/

theorem nth_map_range_of_lt {α : Type} (d : α) (f : Nat → α) {n i : Nat} (h : i < n) : nth d ((List.range n).map f) i = f i :=
  nth_of_getElem? (by simp [h])

theorem nth_zipWith {α β γ : Type} (a : α) (b : β) (c : γ) (f : α → β → γ) {xs : List α} {ys : List β} {i : Nat}
    (hx : i < xs.length) (hy : i < ys.length) : nth c (xs.zipWith f ys) i = f (nth a xs i) (nth b ys i) := by
  simp [nth_eq_getElem?, List.getElem?_eq_getElem hx, List.getElem?_eq_getElem hy, List.getElem?_zipWith]

theorem nth_replicate_default {α : Type} (d : α) (k n : Nat) : nth d (List.replicate k d) n = d := by
  rw [nth_eq_getElem?, List.getElem?_replicate]
  split <;> rfl

/-! ## Cores -/

@[simp] theorem assocSet_assocSet {β : Type} (m : List (Nat × β)) (i : Nat) (v w : β) :
    assocSet (assocSet m i v) i w = assocSet m i w := by
  induction m with
  | nil => simp [assocSet]
  | cons p m ih =>
    obtain ⟨k, x⟩ := p
    by_cases h1 : i < k
    · simp [assocSet, h1]
    · by_cases h2 : i = k
      · simp [assocSet, h2]
      · simp [assocSet, h1, h2, ih]

theorem State.setCore_setCore (s : State) (n : Nat) (c d : Core) : (s.setCore n c).setCore n d = s.setCore n d := by
  simp [State.setCore]

theorem State.mapCore_mapCore (s : State) (n : Nat) (f g : Core → Core) :
    (s.mapCore n f).mapCore n g = s.mapCore n fun c => g (f c) := by
  rw [State.mapCore, State.core_mapCore_same]
  exact State.setCore_setCore s n _ _

/-! ## Tiles -/

theorem Core.tile_setTile_same {k : Core} {t : Nat} (x : Tile) (h : t < k.tiles.length) : (k.setTile t x).tile t = x :=
  nth_setNth_same _ _ _ _ h

theorem Core.tile_setTile_other (k : Core) {t u : Nat} (x : Tile) (h : u ≠ t) : (k.setTile t x).tile u = k.tile u :=
  nth_setNth_other _ _ _ _ _ h

@[simp] theorem Core.length_setTile (k : Core) (t : Nat) (x : Tile) : (k.setTile t x).tiles.length = k.tiles.length :=
  setNth_length _ _ _

/-- The tiles of a list changed one by one by a function that does nothing more the second time. -/
theorem tile_foldl_setTile {α : Type} {f : Tile → Tile} (hf : ∀ x, f (f x) = f x) (tile : α → Nat) {t : Nat} (ps : List α) :
    ∀ {k : Core}, t < k.tiles.length →
      (ps.foldl (fun k p => k.setTile (tile p) (f (k.tile (tile p)))) k).tile t =
        if ps.any fun p => tile p == t then f (k.tile t) else k.tile t := by
  induction ps with
  | nil => intros; rfl
  | cons p ps ih =>
    intro k ht
    rw [List.foldl_cons, ih (by simpa using ht), List.any_cons]
    by_cases hp : tile p = t
    · subst hp
      simp [Core.tile_setTile_same _ ht, hf]
    · simp [Core.tile_setTile_other _ _ (Ne.symm hp), hp]

end Sys2Proof.Machine
end

section
/-! PROOF. One MM cycle: its products, fed to every cell of a pass, and the join at the last step (03 R126, 06 R229 to R231). -/

namespace Sys2Proof.Machine

/-! ## Lists of cells -/

/-- Rows of k values each, one after the other. -/
theorem flatMap_range_rows {α : Type} {k : Nat} (hk : 0 < k) (g : Nat → Nat → α) : ∀ m : Nat,
    ((List.range m).flatMap fun i => (List.range k).map (g i)) = (List.range (m * k)).map fun n => g (n / k) (n % k)
  | 0 => by simp
  | m + 1 => by
    rw [List.range_succ, List.flatMap_append, flatMap_range_rows hk g m, Nat.succ_mul, List.range_add, List.map_append,
      List.flatMap_singleton, List.map_map]
    congr 1
    refine List.map_congr_left fun j hj => ?_
    have hj := List.mem_range.1 hj
    simp [Nat.add_div_of_dvd_right (Dvd.intro_left m rfl), Nat.div_eq_of_lt hj, Nat.mod_eq_of_lt hj, hk]

/-! ## The two chains of a cell -/

theorem cellChains_append (xs ys : List (CellOp × Num × Num)) : ∀ (e : Num) (o : Option Num) (k : Nat),
    cellChains e o k (xs ++ ys) = cellChains (cellChains e o k xs).1 (cellChains e o k xs).2 (k + xs.length) ys := by
  induction xs with
  | nil => intros; rfl
  | cons x xs ih =>
    intro e o k
    rw [List.cons_append, List.length_cons, Nat.add_comm xs.length 1, ← Nat.add_assoc]
    simp only [cellChains]
    split <;> exact ih _ _ _

/-- A pass that has taken the steps of a list in every cell, from a step index on, and is else as it was. -/
structure Fed (p q : Pass) (k : Nat) (steps : Nat → List (CellOp × Num × Num)) : Prop where
  same : q = { p with even := q.even, odd := q.odd }
  evens : q.even.length = 4096
  odds : q.odd.length = 4096
  chains : ∀ n, n < 4096 → (nth .nan q.even n, nth none q.odd n) = cellChains (nth .nan p.even n) (nth none p.odd n) k (steps n)

section
variable {p q r : Pass} {k : Nat} {xs ys : Nat → List (CellOp × Num × Num)}

theorem Fed.refl (he : p.even.length = 4096) (ho : p.odd.length = 4096) : Fed p p k fun _ => [] := ⟨rfl, he, ho, fun _ _ => rfl⟩

theorem Fed.trans {m : Nat} (a : Fed p q k xs) (hm : ∀ n, (xs n).length = m) (b : Fed q r (k + m) ys) :
    Fed p r k fun n => xs n ++ ys n where
  same := by rw [b.same, a.same]
  evens := b.evens
  odds := b.odds
  chains n hn := by rw [b.chains n hn, cellChains_append, ← a.chains n hn, hm]

/-- The cells of a pass that holds a history go on with the steps fed. -/
theorem Fed.holds {seed : Nat → Num} (h : PassHolds p seed xs) (hl : ∀ n, (xs n).length = k) (a : Fed p q k ys) :
    PassHolds q seed fun n => xs n ++ ys n :=
  ⟨a.evens, a.odds, fun n hn => by rw [a.chains n hn, cellChains_append, ← h.2.2 n hn, hl, Nat.zero_add]⟩

/-- One product of every cell. -/
theorem feed_fed (he : p.even.length = 4096) (ho : p.odd.length = 4096) (op : CellOp) (a b : Nat → Num) :
    Fed p (feed p op k ((List.range 64).map a) ((List.range 64).map b)) k fun n => [(op, a (n / 64), b (n % 64))] := by
  have hv : (((List.range 64).map a).flatMap fun x => ((List.range 64).map b).map fun y => stepValue op x y)
      = (List.range 4096).map fun n => stepValue op (a (n / 64)) (b (n % 64)) := by
    simp only [List.flatMap_map, List.map_map]
    exact flatMap_range_rows (by decide) (fun i j => stepValue op (a i) (b j)) 64
  have hn : ∀ n, n < 4096 → nth .nan ((List.range 4096).map fun n => stepValue op (a (n / 64)) (b (n % 64))) n
      = stepValue op (a (n / 64)) (b (n % 64)) := fun n h => nth_map_range_of_lt _ _ h
  unfold feed
  rw [hv]
  by_cases hk : k % 2 = 0
  · refine ⟨by simp [hk], by simp [hk, he], by simp [hk, ho], fun n h => ?_⟩
    simp only [hk, if_true, cellChains]
    rw [nth_zipWith Num.nan Num.nan Num.nan _ (by omega) (by simpa using h), hn n h]
  · refine ⟨by simp [hk], by simp [hk, he], by simp [hk, ho], fun n h => ?_⟩
    simp only [hk, if_false, cellChains]
    rw [nth_zipWith none Num.nan none _ (by omega) (by simpa using h), hn n h]
    cases nth none p.odd n <;> rfl
end

/-! ## One cycle on a side -/

/-- The word that operand B comes from. -/
def IssueCtx.panelWord (c : IssueCtx) : PanelWord := c.panel.getD { guard := 0#3, j := 0#3, bfmt := 0#3, rsv := 0#15 }

theorem IssueCtx.panelWord_bfmt (c : IssueCtx) : c.panelWord.bfmt = (c.panel.map fun q => q.bfmt).getD 0#3 := by
  unfold panelWord
  cases c.panel <;> rfl

/-- The pass that an MM goes on with: the open one, or a new one. -/
def mmOpen (s : State) (c : IssueCtx) (d : Side) (m : MmWord) (zero : Bool) : Pass :=
  d.run.pass.getD (openPass (s.core d.core) m zero c.panelWord.bfmt)

/-- A pass with the latches captured where a group of either operand begins (R236). -/
def mmCapture (c : IssueCtx) (lead d : Side) (m : MmWord) (panel : PanelWord) (p : Pass) : Pass :=
  let af := slotFormat c.l m.afmt.toNat
  let p := if p.step * ppcOf af % slotGroup af = 0 then { p with rowCap := lead.run.rows } else p
  if p.step * ppcOf af % slotGroup (slotFormat c.l panel.bfmt.toNat) = 0 then { p with colCap := d.run.cols } else p

/-- Operation, A and B of product j of a cycle, in the cell of a row and a column. -/
def mmOp (c : IssueCtx) (m : MmWord) (p : Pass) (j : Nat) : CellOp :=
  CellOp.ofCode (if (p.step * ppcOf (slotFormat c.l m.afmt.toNat) + j) % 2 = 0 then m.ope.toNat else m.opo.toNat)

def mmA (s : State) (c : IssueCtx) (lead : Side) (m : MmWord) (p : Pass) (j row : Nat) : Num :=
  let af := slotFormat c.l m.afmt.toNat
  elemValue af (aElem s c lead m (slotBits af) row (kCycle c * ppcOf af + j)) (nth Latch.one p.rowCap row)

def mmB (s : State) (c : IssueCtx) (lead d : Side) (m : MmWord) (panel : PanelWord) (p : Pass) (j col : Nat) : Num :=
  let bf := slotFormat c.l panel.bfmt.toNat
  elemValue bf (elemAt (s.core d.core).panels ((iterValue lead.run.iters panel.j.toNat c.ix).toNat * 8192 + 128 * col) (slotBits bf)
    (kCycle c * ppcOf (slotFormat c.l m.afmt.toNat) + j)) (nth Latch.one p.colCap col)

/-- Product j of a cycle fed to every cell, with its operation. -/
def mmFeed (s : State) (c : IssueCtx) (lead d : Side) (m : MmWord) (panel : PanelWord) (q : Pass) (j : Nat) : Pass × CellOp :=
  (feed q (mmOp c m q j) (q.step * ppcOf (slotFormat c.l m.afmt.toNat) + j)
    ((List.range 64).map (mmA s c lead m q j)) ((List.range 64).map (mmB s c lead d m panel q j)), mmOp c m q j)

/-- The first k products of a cycle fed to every cell, and the operation of the last. -/
def mmFeeds (s : State) (c : IssueCtx) (lead d : Side) (m : MmWord) (panel : PanelWord) (k : Nat) (p : Pass) : Pass × CellOp :=
  (List.range k).foldl (fun q j => mmFeed s c lead d m panel q.1 j) (p, .madd)

/-- The pass behind a cycle's products, with the operation of the last. -/
def mmCycle (s : State) (c : IssueCtx) (lead d : Side) (m : MmWord) (zero : Bool) : Pass × CellOp :=
  mmFeeds s c lead d m c.panelWord (ppcOf (slotFormat c.l m.afmt.toNat))
    (mmCapture c lead d m c.panelWord (mmOpen s c d m zero))

/-- What becomes of the pass: at step 63 it is joined, else it stays open one step on. -/
theorem mmStep_eq (s : State) (c : IssueCtx) (lead d : Side) (m : MmWord) (zero : Bool) (n : Nat) :
    mmStep s c lead d m zero n =
      let f := mmCycle s c lead d m zero
      if f.1.step = 63 then
        { d.run with
          pass := none
          writebacks := d.run.writebacks ++ [{ issue := n, pair := f.1.pair, acl := f.1.acl
                                               data := f.1.even.zipWith (fun e o => BitVec.ofNat 32 (cellJoin f.2 e o)) f.1.odd }] }
      else { d.run with pass := some { f.1 with step := f.1.step + 1 } } := rfl

/-- Steps that mmSteps lists are the products with the captured latches. -/
theorem mmSteps_eq (s : State) (c : IssueCtx) (lead d : Side) (m : MmWord) (panel : PanelWord) (p : Pass) (n : Nat) :
    mmSteps s c lead d m panel p n =
      let q := mmCapture c lead d m panel p
      (List.range (ppcOf (slotFormat c.l m.afmt.toNat))).map fun j =>
        (mmOp c m q j, mmA s c lead m q j (n / 64), mmB s c lead d m panel q j (n % 64)) := by
  unfold mmSteps mmCapture
  simp only
  split <;> split <;> rfl

section
variable (s : State) (c : IssueCtx) (lead d : Side) (m : MmWord) (panel : PanelWord)

theorem mmFeeds_succ (k : Nat) (p : Pass) :
    mmFeeds s c lead d m panel (k + 1) p = mmFeed s c lead d m panel (mmFeeds s c lead d m panel k p).1 k := by
  rw [mmFeeds, List.range_succ, List.foldl_append]
  rfl

/-- Feeding changes nothing of a pass but its chains. -/
theorem mmFeeds_frame (k : Nat) (p : Pass) :
    let q := (mmFeeds s c lead d m panel k p).1
    q = { p with even := q.even, odd := q.odd } := by
  induction k with
  | zero => rfl
  | succ k ih =>
    simp only [mmFeeds_succ, mmFeed, feed] at ih ⊢
    split <;> rw [ih]

theorem mmFeeds_fed {p : Pass} (he : p.even.length = 4096) (ho : p.odd.length = 4096) (k : Nat) :
    Fed p (mmFeeds s c lead d m panel k p).1 (p.step * ppcOf (slotFormat c.l m.afmt.toNat)) fun n =>
      (List.range k).map fun j => (mmOp c m p j, mmA s c lead m p j (n / 64), mmB s c lead d m panel p j (n % 64)) := by
  induction k with
  | zero => exact .refl he ho
  | succ k ih =>
    have hq := ih.same
    have hf := feed_fed (k := p.step * ppcOf (slotFormat c.l m.afmt.toNat) + k) ih.evens ih.odds (mmOp c m p k)
      (mmA s c lead m p k) (mmB s c lead d m panel p k)
    simp only [mmFeeds_succ, List.range_succ, List.map_append]
    refine ih.trans (m := k) (fun _ => by simp) ?_
    generalize (mmFeeds s c lead d m panel k p).1 = q at hq hf ⊢
    rw [hq] at hf ⊢
    exact hf

theorem mmCapture_frame (p : Pass) :
    mmCapture c lead d m panel p = { p with rowCap := (mmCapture c lead d m panel p).rowCap
                                            colCap := (mmCapture c lead d m panel p).colCap } := by
  unfold mmCapture
  simp only
  split <;> split <;> rfl

variable {s c lead d m panel} {zero : Bool} {p : Pass}

/-- A cycle takes every cell of a pass through its products, with the latches as they are captured. -/
theorem mmCycle_fed (hp : mmOpen s c d m zero = p) (hc : c.panel = some panel) (he : p.even.length = 4096)
    (ho : p.odd.length = 4096) :
    Fed (mmCapture c lead d m panel p) (mmCycle s c lead d m zero).1 (p.step * ppcOf (slotFormat c.l m.afmt.toNat))
      (mmSteps s c lead d m panel p) := by
  have hw : c.panelWord = panel := by simp [IssueCtx.panelWord, hc]
  have hf := mmCapture_frame c lead d m panel p
  have hfed := mmFeeds_fed s c lead d m panel (p := mmCapture c lead d m panel p) (by rw [hf]; exact he) (by rw [hf]; exact ho)
    (ppcOf (slotFormat c.l m.afmt.toNat))
  have hs : (mmCapture c lead d m panel p).step = p.step := by rw [hf]
  rw [hs] at hfed
  rw [mmCycle, hw, hp, funext (mmSteps_eq s c lead d m panel p)]
  exact hfed

/-- A cycle moves neither the step nor the pair of a pass. -/
theorem mmCycle_frame (hp : mmOpen s c d m zero = p) :
    (mmCycle s c lead d m zero).1.step = p.step ∧ (mmCycle s c lead d m zero).1.pair = p.pair ∧
      (mmCycle s c lead d m zero).1.acl = p.acl := by
  rw [mmCycle, hp, mmFeeds_frame, mmCapture_frame]
  exact ⟨rfl, rfl, rfl⟩

/-- The operation of a cycle is that of the last step, in every cell. -/
theorem mmCycle_op (hp : mmOpen s c d m zero = p) (hc : c.panel = some panel) (hk : 0 < ppcOf (slotFormat c.l m.afmt.toNat))
    (xs : List (CellOp × Num × Num)) (n : Nat) :
    (((xs ++ mmSteps s c lead d m panel p n).getLast?.map fun x => x.1).getD .madd) = (mmCycle s c lead d m zero).2 := by
  have hw : c.panelWord = panel := by simp [IssueCtx.panelWord, hc]
  obtain ⟨k, hk⟩ := Nat.exists_eq_succ_of_ne_zero hk.ne'
  simp only [mmCycle, hw, hp, mmSteps_eq, hk, mmFeeds_succ, mmFeed]
  rw [mmFeeds_frame]
  simp [List.range_succ, List.getLast?_append, mmOp]

/-- The join of a cell that has been led through the steps of a list. -/
theorem cellJoin_eq_cellResult {e : Num} {o : Option Num} {seed : Num} {steps : List (CellOp × Num × Num)} {op : CellOp}
    (h : (e, o) = cellChains seed none 0 steps) (hop : ((steps.getLast?.map fun x => x.1).getD .madd) = op) :
    cellJoin op e o = cellResult seed steps := by
  rw [cellResult, ← h, hop]
  cases o <;> rfl

/-- The cells behind a cycle hold its steps behind their history. -/
theorem mmCycle_holds (hp : mmOpen s c d m zero = p) (hc : c.panel = some panel) {seed : Nat → Num}
    {hist : Nat → List (CellOp × Num × Num)} (h : PassHolds p seed hist)
    (hl : ∀ n, (hist n).length = p.step * ppcOf (slotFormat c.l m.afmt.toNat)) :
    PassHolds (mmCycle s c lead d m zero).1 seed fun n => hist n ++ mmSteps s c lead d m panel p n := by
  have hcap : PassHolds (mmCapture c lead d m panel p) seed hist := by rw [mmCapture_frame]; exact h
  exact (mmCycle_fed hp hc h.1 h.2.1).holds hcap hl

/-- A cycle before step 63 leaves the pass open, one step on. -/
theorem mmStep_open (n : Nat) (hp : mmOpen s c d m zero = p) (h : p.step ≠ 63) :
    mmStep s c lead d m zero n = { d.run with
      pass := some { (mmCycle s c lead d m zero).1 with step := p.step + 1 } } := by
  rw [mmStep_eq]
  simp only [(mmCycle_frame hp).1, h, if_false]

/-- At step 63 the pass is joined, and waits to be written back. -/
theorem mmStep_joined (n : Nat) (hp : mmOpen s c d m zero = p) (h : p.step = 63) :
    mmStep s c lead d m zero n = { d.run with
      pass := none
      writebacks := d.run.writebacks ++ [
        { issue := n, pair := p.pair, acl := p.acl
          data := (mmCycle s c lead d m zero).1.even.zipWith
            (fun e o => BitVec.ofNat 32 (cellJoin (mmCycle s c lead d m zero).2 e o)) (mmCycle s c lead d m zero).1.odd }] } := by
  obtain ⟨hs, hpair, hacl⟩ := mmCycle_frame (lead := lead) hp
  rw [mmStep_eq]
  simp only [hs, h, if_true, hpair, hacl]

/-- A new pass holds its seeds. -/
theorem openPass_holds (k : Core) (m : MmWord) (zero : Bool) (bfmt : BitVec 3) :
    PassHolds (openPass k m zero bfmt)
      (fun n => if zero then Num.zero false else dec .fp32 (k.tileData.nat (accAddr m.acl m.apair.toNat (n / 64) (n % 64)) 4))
      fun _ => [] := by
  refine ⟨by rw [openPass, List.length_map, List.length_range], by rw [openPass, List.length_replicate], fun n hn => ?_⟩
  have he : nth .nan (openPass k m zero bfmt).even n = if zero then Num.zero false else
      dec .fp32 (k.tileData.nat (accAddr m.acl m.apair.toNat (n / 64) (n % 64)) 4) := by
    rw [openPass, nth_map_range_of_lt _ _ hn]
  have ho : nth none (openPass k m zero bfmt).odd n = none := by
    rw [openPass, nth_replicate_default]
  rw [he, ho, cellChains]

end

end Sys2Proof.Machine
end

section
/-! PROOF. The words of a bundle by themselves: what each does to the sequencer's run, and the tile that XGIVE gives
(06 R226 to R242). -/

namespace Sys2Proof.Machine

/-! ## A word in the bundle at hand -/

section
variable {s : State} {core : Nat} {run : SeqRun} {l : Launch} {b : Block} {i : Instr} {w : BundleWord}

theorem seqFocus_spec (h : seqFocus s = some (core, run, l)) : (s.core core).seqRun = some run := by
  unfold seqFocus at h
  split at h
  · split at h
    next r hr =>
      obtain ⟨_, _, h⟩ := Option.map_eq_some_iff.1 h
      cases h
      exact hr
    · cases h
  · cases h

/-- A word that stands in the bundle acts there. -/
theorem xWord_of_seqWord (h : SeqWord s core run l b i w) (act : State → IssueCtx → Side → BundleWord → State) :
    xWord s i act = .next (act s (issueCtx l run) { core := core, b := b, run := run } w) := by
  obtain ⟨hf, hw, hb⟩ := h
  simp only [xWord, hf, hw, hb]

theorem xPlain_of_seqWord (h : SeqWord s core run l b i w) :
    xPlain s i = .next (wordAct s (issueCtx l run) { core := core, b := b, run := run } { core := core, b := b, run := run } w s) :=
  xWord_of_seqWord h _
end

/-! ## Landing of given tiles (R239) -/

/-- Nothing of the clause holds a tile back any longer. -/
def Tile.landed (x : Tile) : Tile := { x with seqWait := false, land := !x.waits.isEmpty }

/-- Every issue of a run before a place is complete, on the other side of a PAIR clause too. -/
def SeqRun.freedAt (r : SeqRun) (other : Option SeqRun) (n : Nat) : Bool :=
  r.doneBefore n && other.all fun f => f.doneBefore n

theorem landGives_eq (other : Option SeqRun) {k : Core} {r : SeqRun} (hr : k.seqRun = some r) :
    landGives other k =
      { (r.giveLand.filter fun p => r.freedAt other p.2).foldl (fun k p => k.setTile p.1 (k.tile p.1).landed) k with
        seqRun := some { r with giveLand := r.giveLand.filter fun p => !r.freedAt other p.2 } } := by
  simp only [landGives, hr]
  rfl

theorem landGives_none (other : Option SeqRun) {k : Core} (hr : k.seqRun = none) : landGives other k = k := by
  simp only [landGives, hr]

theorem landGives_tile (other : Option SeqRun) {k : Core} {r : SeqRun} (hr : k.seqRun = some r) {t : Nat}
    (ht : t < k.tiles.length) : (landGives other k).tile t =
      if r.giveLand.any fun p => p.1 == t && r.freedAt other p.2 then (k.tile t).landed else k.tile t := by
  rw [landGives_eq other hr]
  refine (tile_foldl_setTile (f := Tile.landed) (fun _ => rfl) Prod.fst _ ht).trans ?_
  simp only [List.any_filter, Bool.and_comm]

theorem landGives_seqRun (other : Option SeqRun) {k : Core} {r : SeqRun} (hr : k.seqRun = some r) :
    (landGives other k).seqRun = some { r with giveLand := r.giveLand.filter fun p => !r.freedAt other p.2 } := by
  rw [landGives_eq other hr]

@[simp] theorem landGives_tiles_length (other : Option SeqRun) (k : Core) : (landGives other k).tiles.length = k.tiles.length := by
  cases hr : k.seqRun with
  | none => rw [landGives_none other hr]
  | some r =>
    rw [landGives_eq other hr]
    exact List.foldlRecOn (motive := fun c : Core => c.tiles.length = k.tiles.length) _ _ rfl fun c h p _ => by simpa using h

/-- Landing changes neither owner nor offer of a tile. -/
theorem landGives_tile_owner (other : Option SeqRun) (k : Core) {t : Nat} (ht : t < k.tiles.length) :
    ((landGives other k).tile t).owner = (k.tile t).owner ∧ ((landGives other k).tile t).offer = (k.tile t).offer := by
  cases hr : k.seqRun with
  | none => simp [landGives_none other hr]
  | some r =>
    rw [landGives_tile other hr ht]
    split <;> exact ⟨rfl, rfl⟩

/-- The place of the other side of a run's clause. -/
def otherCore (s : State) (core : Nat) : Option Nat := ((s.core core).seqRun).bind fun r => r.partner? core

theorem otherSide_eq (s : State) (core : Nat) : otherSide s core = (otherCore s core).bind fun m => (s.core m).seqRun := rfl

/-- A core behind the landing of tiles on both sides: its own landing, and where it is its own other side a second one. -/
theorem landSides_core (s : State) (core : Nat) :
    let k := landGives (otherSide s core) (s.core core)
    (landSides s core).core core = if otherCore s core = some core then landGives k.seqRun k else k := by
  unfold landSides
  rw [← otherCore]
  cases h : otherCore s core with
  | none => simp
  | some m =>
    by_cases hm : m = core
    · subst hm
      simp
    · simp [hm, State.core_mapCore_other _ _ _ _ (Ne.symm hm)]

/-! ## XGIVE (R239) -/

/-- The core at which XGIVE of an issue gives a tile, before anything is landed. -/
def gives (k : Core) (n t new : Nat) : Core :=
  { k.setTile t { k.tile t with owner := new, offer := (k.tile t).offer || decide (new ≤ 0x1F), land := true, seqWait := true } with
    seqRun := k.seqRun.map fun x => { x with giveLand := x.giveLand ++ [(t, n)] } }

theorem wordAct_xgive (s : State) (c : IssueCtx) (lead d : Side) {w : BundleWord} {t new : Nat} (hw : w.word = .xgive t new) :
    wordAct s c lead d w s = landSides (s.mapCore d.core fun k => gives k d.run.issue t new) d.core := by
  simp only [wordAct, hw, State.mapCore_mapCore]
  rfl

theorem otherCore_gives {s : State} {core : Nat} {run : SeqRun} (hr : (s.core core).seqRun = some run) (n t new : Nat) :
    otherCore (s.mapCore core fun k => gives k n t new) core = otherCore s core := by
  simp [otherCore, gives, hr, SeqRun.partner?]

/-- What is complete on both sides does not turn on the tiles that are given. -/
theorem freedAt_gives {s : State} {core : Nat} {run : SeqRun} (hr : (s.core core).seqRun = some run) (n t new m : Nat)
    (g : List (Nat × Nat)) :
    { run with giveLand := g }.freedAt (otherSide (s.mapCore core fun k => gives k n t new) core) m =
      run.freedAt (otherSide s core) m := by
  rw [otherSide_eq, otherSide_eq, otherCore_gives hr]
  cases h : otherCore s core with
  | none => rfl
  | some o =>
    by_cases ho : o = core
    · subst ho
      simp [gives, hr]
      rfl
    · simp [State.core_mapCore_other _ _ _ _ ho]
      rfl

theorem landSides_tile_owner (s : State) {core t : Nat} (ht : t < (s.core core).tiles.length) :
    (((landSides s core).core core).tile t).owner = ((s.core core).tile t).owner ∧
      (((landSides s core).core core).tile t).offer = ((s.core core).tile t).offer := by
  have h1 := landGives_tile_owner (otherSide s core) (s.core core) ht
  rw [landSides_core]
  split
  · have h2 := landGives_tile_owner (landGives (otherSide s core) (s.core core)).seqRun
      (landGives (otherSide s core) (s.core core)) (t := t) (by simpa using ht)
    exact ⟨h2.1.trans h1.1, h2.2.trans h1.2⟩
  · exact h1

/-- A tile that alone is given is landed when what is to complete before has completed, and stays so when its core is its
own other side. -/
theorem landSides_given {u : State} {core : Nat} {r : SeqRun} (hr : (u.core core).seqRun = some r) {t n : Nat}
    (ht : t < (u.core core).tiles.length) {gs : List (Nat × Nat)} (hg : r.giveLand = gs ++ [(t, n)]) (hn : ∀ p ∈ gs, p.1 ≠ t) :
    ((landSides u core).core core).tile t =
      if r.freedAt (otherSide u core) n then ((u.core core).tile t).landed else (u.core core).tile t := by
  have hany : (r.giveLand.any fun p => p.1 == t && r.freedAt (otherSide u core) p.2) = r.freedAt (otherSide u core) n := by
    have h0 : (gs.any fun p => p.1 == t && r.freedAt (otherSide u core) p.2) = false := by
      simpa using fun a b hp h => absurd h (hn (a, b) hp)
    simp [hg, h0]
  rw [landSides_core]
  split
  next ho =>
    have hself : otherSide u core = some r := by rw [otherSide_eq, ho]; exact hr
    have hkr := landGives_seqRun (otherSide u core) hr
    rw [landGives_tile _ hkr (by simpa using ht), landGives_tile _ hr ht, hany, if_neg]
    intro h
    obtain ⟨p, hp, hfreed⟩ := List.any_eq_true.1 h
    have hkept : r.freedAt (otherSide u core) p.2 = false := by simpa using (List.mem_filter.1 hp).2
    rw [hkr] at hfreed
    rw [hself] at hkept
    exact Bool.false_ne_true (hkept.symm.trans (Bool.and_eq_true_iff.1 hfreed).2)
  next => rw [landGives_tile _ hr ht, hany]

/-- Given is the tile: its new owner, and landed with it what the landing on both sides lands. -/
theorem xgive_tile {s : State} {core : Nat} {run : SeqRun} (hr : (s.core core).seqRun = some run) {n t new : Nat}
    (ht : t < (s.core core).tiles.length) :
    let x := (s.core core).tile t
    let y := ((landSides (s.mapCore core fun k => gives k n t new) core).core core).tile t
    y.owner = new ∧ y.offer = (x.offer || decide (new ≤ 0x1F)) ∧
      ((∀ p ∈ run.giveLand, p.1 ≠ t) → y.land = (!run.freedAt (otherSide s core) n || !x.waits.isEmpty)) := by
  intro x y
  have hu : (s.mapCore core fun k => gives k n t new).core core = gives (s.core core) n t new := State.core_mapCore_same _ _ _
  have hlen : t < (gives (s.core core) n t new).tiles.length := by simpa [gives] using ht
  have hx : (gives (s.core core) n t new).tile t =
      { x with owner := new, offer := x.offer || decide (new ≤ 0x1F), land := true, seqWait := true } := Core.tile_setTile_same _ ht
  have hrun : (gives (s.core core) n t new).seqRun = some { run with giveLand := run.giveLand ++ [(t, n)] } := by
    simp only [gives, hr, Option.map_some]
  obtain ⟨hown, hoffer⟩ := landSides_tile_owner (s.mapCore core fun k => gives k n t new) (core := core) (hu ▸ hlen)
  rw [hu, hx] at hown hoffer
  refine ⟨hown, hoffer, fun hn => ?_⟩
  have hy := landSides_given (u := s.mapCore core fun k => gives k n t new) (core := core) (hu ▸ hrun) (hu ▸ hlen) rfl hn
  rw [hu, hx, freedAt_gives hr] at hy
  rw [show y = _ from hy]
  cases run.freedAt (otherSide s core) n <;> simp [Tile.landed]

/-! ## The statement -/

section
variable {s : State} {core : Nat} {run : SeqRun} {l : Launch} {b : Block} {i : Instr} {w : BundleWord}

/-- MM and MMZ take their sequencer's pass through one cycle. -/
theorem exec_mm {m : MmWord} {z : Bool} (hi : i = .mm m ∧ z = false ∨ i = .mmz m ∧ z = true) (h : SeqWord s core run l b i w)
    (hw : w.word = .mm m z) :
    let d : Side := { core := core, b := b, run := run }
    let r := mmStep s (issueCtx l run) d d m z run.issue
    exec i s = .next (runSet s core fun y => { y with pass := r.pass, writebacks := r.writebacks }) := by
  have hx : exec i s = xPlain s i := by rcases hi with ⟨rfl, rfl⟩ | ⟨rfl, rfl⟩ <;> rfl
  rw [hx, xPlain_of_seqWord h]
  simp only [wordAct, hw]
  rfl

end

/-- Settles O25: each word by what it does in its bundle, an MM's pass by what its cycle feeds to every cell. -/
theorem tilePassWords : Obligations.TilePassWords := by
  unfold Obligations.TilePassWords
  refine ⟨⟨?mm, ?opens, ?cycle, ?scl⟩, ?iter, ?loop, ?names, ?signals, ?gives⟩
  case mm =>
    intro s core run l b i w m z hi h hw c d r
    refine ⟨exec_mm hi h hw, ?_⟩
    intro p
    have hp : mmOpen s c d m z = p := by rw [mmOpen, IssueCtx.panelWord_bfmt]
    split
    next h63 =>
      have hr : r = _ := mmStep_joined (lead := d) run.issue hp h63
      rw [hr]
      exact ⟨rfl, _, rfl, rfl, rfl⟩
    next h63 =>
      have hr : r = _ := mmStep_open (lead := d) run.issue hp h63
      rw [hr]
      exact ⟨⟨_, rfl, rfl, (mmCycle_frame hp).2.1⟩, rfl⟩
  case opens => exact fun k m z bfmt => ⟨openPass_holds k m z bfmt, rfl⟩
  case cycle =>
    intro s c lead d m z q issue p seed hist hc hp hh hk hl r all
    have hp : mmOpen s c d m z = p := by
      rw [← hp, mmOpen, IssueCtx.panelWord, hc]
      rfl
    have hall : PassHolds (mmCycle s c lead d m z).1 seed all := mmCycle_holds hp hc hh hl
    obtain ⟨he, ho, hcells⟩ := hall
    refine ⟨fun h => ?_, fun h => ?_⟩
    · have hr : r = _ := mmStep_open (lead := lead) issue hp h
      rw [hr]
      exact ⟨_, rfl, rfl, he, ho, hcells⟩
    · have hr : r = _ := mmStep_joined (lead := lead) issue hp h
      rw [hr]
      refine ⟨_, rfl, rfl, by simp [he, ho], fun n hn => ?_⟩
      rw [nth_zipWith Num.nan none _ _ (he.symm ▸ hn) (ho.symm ▸ hn)]
      exact congrArg _ (cellJoin_eq_cellResult (hcells n hn) (mmCycle_op hp hc hk _ n))
  case scl =>
    intro s core run l b q w h hw c
    rw [show exec (.scl q) s = xPlain s (.scl q) from rfl, xPlain_of_seqWord h]
    simp only [wordAct, hw]
    cases sclPos (issueCtx l run) q with
    | none => rfl
    | some p => simp only [ite_self]; rfl
  case iter =>
    intro s core run l b i w j f v hi h hw
    have hx : exec i s = xPlain s i := by rcases hi with ⟨u, rfl | rfl⟩ <;> rfl
    rw [hx, xPlain_of_seqWord h]
    simp only [wordAct, hw]
    rfl
  case loop =>
    intro s core run l b u w h
    exact xWord_of_seqWord h fun s c d _ => setSeqRun s d.core (advanceNest c)
  case names =>
    intro s core run l b i w hi h
    have hx : exec i s = xPlain s i := by
      rcases hi with ⟨u, rfl, -⟩ | ⟨u, rfl, -⟩ | ⟨u, t, rfl, -⟩ | ⟨u, n, v, rfl, -⟩ <;> rfl
    rw [hx, xPlain_of_seqWord h]
    rcases hi with ⟨u, -, hw⟩ | ⟨u, -, hw⟩ | ⟨u, t, -, hw⟩ | ⟨u, n, v, -, hw⟩ <;> simp only [wordAct, hw]
  case signals =>
    intro s core run l b i w g hi h posts
    have hx : exec i s = xPlain s i := by
      rcases hi with ⟨u, j, v, rfl, -⟩ | ⟨u, j, rfl, -⟩ | ⟨u, t, rfl, -⟩ <;> rfl
    have hx := hx.trans (xPlain_of_seqWord h)
    rcases hi with ⟨u, j, v, -, hw, rfl⟩ | ⟨u, j, -, hw, rfl⟩ | ⟨u, t, -, hw, rfl⟩ <;> simp only [wordAct, hw] at hx
    · exact ⟨fun _ => hx, fun _ => hx, fun _ hg => absurd rfl (hg j v)⟩
    · exact ⟨fun ⟨_, _, h⟩ => (nomatch h), fun hr => by rwa [if_neg hr] at hx, fun hr _ => by rwa [if_pos hr] at hx⟩
    · exact ⟨fun ⟨_, _, h⟩ => (nomatch h), fun hr => by rwa [if_neg hr] at hx, fun hr _ => by rwa [if_pos hr] at hx⟩
  case gives =>
    intro s core run l b u w t n h hw ht
    obtain ⟨hown, hoffer, hland⟩ := xgive_tile (seqFocus_spec h.1) (n := run.issue) (new := n) ht
    refine ⟨_, (xPlain_of_seqWord h).trans (congrArg _ (wordAct_xgive s _ _ _ hw)), hown, hoffer, hland⟩

end Sys2Proof.Machine
end

section
/-! PROOF. The course of an engine command does not hold as it is said: where two commands of an engine bear one number, a fault
of the first is recorded on both, each with its own words, and not with the words of the first (06 R245, R248). -/

namespace Sys2Proof.Machine

/-! ## A started command takes one step of its operation (R245) -/

theorem exec_engineCommandStart_one {s : State} (h : s.sel.count ≤ 1) :
    exec .engineCommandStart s = .next (cmdRun s s.sel.core s.sel.engine s.sel.id 1) := by
  show Host.Outcome.next (cmdRun s s.sel.core s.sel.engine s.sel.id (max 1 s.sel.count)) = _
  rw [max_eq_left h]

theorem cmdRun_started {s : State} {core id : Nat} {e : Engine} {x : CmdCtx} (hx : cmdCtx s core e id = some x)
    (hr : cmdReady s core x.k = true) (hn : x.k.started = true) : cmdRun s core e id 1 =
    match cmdStep x with
    | .go t j => if hasTurn x then grantStep x t j else s
    | r => putStep s core x.k r := by
  simp only [cmdRun, hx, hr, hn, Bool.not_true, Bool.false_eq_true, if_false, if_true] <;> rfl

theorem exec_engineCommandStart_fault {s : State} {x : CmdCtx} {c : Cause}
    (hx : cmdCtx s s.sel.core s.sel.engine s.sel.id = some x) (hr : cmdReady s s.sel.core x.k = true)
    (hn : x.k.started = true) (hc : s.sel.count ≤ 1) (hf : cmdStep x = .fault c) :
    exec .engineCommandStart s = .next (putStep s s.sel.core x.k (.fault c)) := by
  rw [exec_engineCommandStart_one hc, cmdRun_started hx hr hn, hf]

/-! ## The counterexample -/

/-- A started CPY of no bytes, pushed as command 0 of the first block of launch 1, with the base word `w`. -/
def emptyCopy (w : Word) : EngCmd := { freshCmd .cpy 1 0 0 0 w 0#32 0#64 0#64 0#64 0#64 0#64 with started := true }

def twinBlock : Block := { Block.absent 1 0 with slots := [0] }

/-- Core 0 holds the block, and in its copy engine two such commands with the same number and different words. -/
def twinCopies : State :=
  { State.reset with
    launches := [soloLaunch]
    cores := [(0, { Core.reset with
      blocks := [twinBlock], copy := { Core.reset.copy with cmds := [emptyCopy 0#32, emptyCopy 1#32] } })] }

/-- What a step of the first of the two is taken with. -/
def twinStep : CmdCtx := { s := twinCopies, core := 0, l := soloLaunch, b := twinBlock, k := emptyCopy 0#32 }

/-- The words in the trap records of the commands of core 0's copy engine. -/
def copyFaultWords (s : State) : List (Option DWord) := (s.core 0).copy.cmds.map fun k => k.fault.map (·.words)

theorem cmdCtx_twinCopies : cmdCtx twinCopies 0 .copy 0 = some twinStep := rfl

theorem cmdReady_twinCopies : cmdReady twinCopies 0 (emptyCopy 0#32) = true := by decide

/-- A CPY of fewer than 4 bytes faults (R251). -/
theorem cmdStep_twinStep : cmdStep twinStep = .fault .queueFault := by
  have hn : (emptyCopy 0#32).count < 4 := by decide
  show cpyStep twinStep = _
  simp only [cpyStep, twinStep, hn, true_or, if_true]

/-- The model records on each of the two the words of its own. -/
theorem copyFaultWords_putStep :
    copyFaultWords (putStep twinCopies 0 (emptyCopy 0#32) (.fault .queueFault)) = [some 0#64, some 1#64] := by decide

/-- Refutes O29: its second part writes the trap of the command that steps on every command with that number, while the model
gives each its own; in `twinCopies` the second copy's words differ from the first's. -/
theorem not_engineCommandCourse : ¬ Obligations.EngineCommandCourse := by
  rintro ⟨-, hsteps, -⟩
  have hsaid := hsteps twinCopies twinStep cmdCtx_twinCopies rfl cmdReady_twinCopies (Nat.zero_le 1)
  rw [exec_engineCommandStart_fault cmdCtx_twinCopies cmdReady_twinCopies rfl (Nat.zero_le 1) cmdStep_twinStep,
    cmdStep_twinStep] at hsaid
  have hwords := congrArg copyFaultWords (Host.Outcome.next.inj hsaid)
  have hmodel : copyFaultWords (putStep twinCopies twinCopies.sel.core twinStep.k (.fault .queueFault)) =
    [some 0#64, some 1#64] := copyFaultWords_putStep
  rw [hmodel] at hwords
  exact absurd hwords (by decide)

end Sys2Proof.Machine
end

section
/-! PROOF. What an engine reads and writes in its block's scratchpad: a range that lies in it is read whole and written whole,
however the lines of its addresses cut it (06 R247, Table 6.11). -/

namespace Sys2Proof.Machine

/-! ## Runs of bytes -/

@[simp] theorem Memory.length_bytes (m : Memory) (a n : Nat) : (m.bytes a n).length = n := by simp [Memory.bytes, cellGets]

theorem Memory.bytes_add (m : Memory) (a n k : Nat) : m.bytes a (n + k) = m.bytes a n ++ m.bytes (a + n) k := by
  simp [Memory.bytes, cellGets, List.range_add, Function.comp_def, Nat.add_assoc]

@[simp] theorem Memory.put_nil (m : Memory) (a : Nat) : m.put a [] = m := rfl

theorem Memory.put_append (bs cs : List Byte) : ∀ (m : Memory) (a : Nat),
    m.put a (bs ++ cs) = (m.put a bs).put (a + bs.length) cs := by
  induction bs with
  | nil => intro m a; rfl
  | cons v bs ih =>
    intro m a
    have hlen : a + (v :: bs).length = a + 1 + bs.length := by simp only [List.length_cons]; omega
    rw [hlen]
    exact ih (m.set a v) (a + 1)

/-! ## The lines of a range -/

theorem lineParts_zero (a : Nat) : ∀ fuel : Nat, lineParts a 0 fuel = []
  | 0 => rfl
  | _ + 1 => by simp [lineParts]

theorem lineParts_pos {n : Nat} (a fuel : Nat) (h : 0 < n) : lineParts a n (fuel + 1) =
    (a, min n (128 - a % 128)) :: lineParts (a + min n (128 - a % 128)) (n - min n (128 - a % 128)) fuel := by
  rw [lineParts, if_neg (Nat.ne_of_gt h)]

theorem mem_lineParts {p : Nat × Nat} (fuel : Nat) : ∀ {a n : Nat}, p ∈ lineParts a n fuel → p.1 + p.2 ≤ a + n := by
  induction fuel with
  | zero => intro a n h; exact absurd h (by simp [lineParts])
  | succ fuel ih =>
    intro a n h
    rcases Nat.eq_zero_or_pos n with rfl | hn
    · exact absurd h (by simp [lineParts_zero])
    · rw [lineParts_pos _ _ hn, List.mem_cons] at h
      rcases h with rfl | h
      · exact Nat.add_le_add_left (Nat.min_le_left _ _) _
      · have := ih h
        omega

/-- A part that ends before the range does ends at a line. -/
theorem lineParts_rest {a n fuel : Nat} (hf : n + a % 128 ≤ 128 * (fuel + 1)) (hr : 0 < n - min n (128 - a % 128)) :
    n - min n (128 - a % 128) + (a + min n (128 - a % 128)) % 128 ≤ 128 * fuel := by omega

/-! ## Parts in the scratchpad -/

/-- Where a part of a scratchpad range lies. -/
def spadPart (b : Block) (p : Nat × Nat) : EngLoc × Nat := (.spad (b.spadBase + p.1), p.2)

/-- The parts of a range of a block's scratchpad. -/
def spadParts (b : Block) (a n : Nat) : List (EngLoc × Nat) := (partsOf a n).map (spadPart b)

theorem locate_spad (s : State) (core : Nat) (l : Launch) {b : Block} (awaited : Option (Nat × Nat)) (code : Nat) (rd wr : Bool)
    {a n : Nat} (h : a + n ≤ b.spadSize) (hs : b.spadSize ≤ 2 ^ 32) :
    locate s core l b awaited code 0 rd wr a n = .ok (.spad (b.spadBase + a)) := by
  have ha : engAddr a = a := Nat.mod_eq_of_lt (by omega)
  simp only [locate, ha, if_neg (Nat.not_lt.2 h)]

theorem locateAll_spad (s : State) (core : Nat) (l : Launch) {b : Block} (awaited : Option (Nat × Nat)) (code : Nat) (rd wr : Bool)
    (hs : b.spadSize ≤ 2 ^ 32) : ∀ ps : List (Nat × Nat), (∀ p ∈ ps, p.1 + p.2 ≤ b.spadSize) →
      locateAll s core l b awaited code 0 rd wr ps = .ok (ps.map (spadPart b)) := by
  intro ps
  induction ps with
  | nil => intro _; rfl
  | cons p ps ih =>
    intro h
    obtain ⟨hp, hps⟩ := List.forall_mem_cons.1 h
    simp only [locateAll, locate_spad s core l awaited code rd wr hp hs, ih hps, List.map_cons, spadPart]

theorem readAll_spad (s : State) (core : Nat) (b : Block) (fuel : Nat) : ∀ {a n : Nat}, (0 < n → n + a % 128 ≤ 128 * fuel) →
    readAll s core ((lineParts a n fuel).map (spadPart b)) = (s.core core).spad.bytes (b.spadBase + a) n := by
  induction fuel with
  | zero =>
    intro a n h
    obtain rfl : n = 0 := by omega
    rfl
  | succ fuel ih =>
    intro a n h
    rcases Nat.eq_zero_or_pos n with rfl | hn
    · rw [lineParts_zero]; rfl
    · have hsplit : n = min n (128 - a % 128) + (n - min n (128 - a % 128)) := by omega
      rw [lineParts_pos _ _ hn, List.map_cons, readAll, List.flatMap_cons]
      have hrest := ih (lineParts_rest (h hn))
      rw [readAll] at hrest
      rw [hrest]
      conv_rhs => rw [hsplit, Memory.bytes_add, Nat.add_assoc]
      rfl

theorem writeAll_spad (core : Nat) (e : Engine) (id : Nat) (b : Block) (fuel : Nat) : ∀ {a n : Nat} {bs : List Byte} (s : State),
    0 < n → n + a % 128 ≤ 128 * fuel → bs.length = n →
    writeAll s core e id ((lineParts a n fuel).map (spadPart b)) bs =
      (s.mapCore core fun c => { c with spad := c.spad.put (b.spadBase + a) bs }, 0) := by
  induction fuel with
  | zero => intro a n bs s hn hf _; omega
  | succ fuel ih =>
    intro a n bs s hn hf hbs
    rw [lineParts_pos _ _ hn]
    generalize hm : min n (128 - a % 128) = m
    have htake : (bs.take m).length = m := by rw [List.length_take]; omega
    have hput : ∀ c : Memory, (c.put (b.spadBase + a) (bs.take m)).put (b.spadBase + (a + m)) (bs.drop m) =
        c.put (b.spadBase + a) bs := by
      intro c
      conv_rhs => rw [← List.take_append_drop m bs, Memory.put_append, htake, Nat.add_assoc]
    simp only [List.map_cons, writeAll, spadPart, writeLoc]
    rcases Nat.eq_zero_or_pos (n - m) with h0 | hr
    · have hall : bs.take m = bs := List.take_of_length_le (by omega)
      rw [h0, lineParts_zero, hall]
      rfl
    · have hrest := lineParts_rest hf (hm ▸ hr)
      rw [hm] at hrest
      rw [ih (s.mapCore core _) hr hrest (by rw [List.length_drop]; omega), State.mapCore_mapCore]
      simp only [hput]

/-- Reading and writing the scratchpad uses no page and no L2 line. -/
theorem useParts_spad (s : State) (core : Nat) (l : Launch) (b : Block) (rd : Bool) (ps qs : List (Nat × Nat)) :
    useParts s core l 0 rd ps (qs.map (spadPart b)) = s := by
  have hfold : ∀ (qs : List (Nat × Nat)) (s : State), (qs.map (spadPart b)).foldl
      (fun s (q : EngLoc × Nat) => match q.1 with | .glob d => touchSpan s d q.2 false | _ => s) s = s := by
    intro qs
    induction qs with
    | nil => intro s; rfl
    | cons q qs ih => intro s; exact ih s
  simp only [useParts, Nat.zero_ne_one, if_false]
  cases rd with
  | false => rfl
  | true => exact hfold qs s

/-! ## Ranges of a command -/

section
variable {b : Block} {a n : Nat} (h : a + n ≤ b.spadSize) (hs : b.spadSize ≤ 2 ^ 32)
include h hs

theorem spadParts_eq : spadParts b a n = (lineParts a n (n / 128 + 2)).map (spadPart b) := by
  have ha : engAddr a = a := Nat.mod_eq_of_lt (by omega)
  rw [spadParts, partsOf, ha]

theorem readAll_spadParts (s : State) (core : Nat) :
    readAll s core (spadParts b a n) = (s.core core).spad.bytes (b.spadBase + a) n := by
  rw [spadParts_eq h hs]
  exact readAll_spad s core b _ fun _ => by omega

theorem writeAll_spadParts (s : State) (core : Nat) (e : Engine) (id : Nat) {bs : List Byte} (hn : 0 < n) (hbs : bs.length = n) :
    writeAll s core e id (spadParts b a n) bs =
      (s.mapCore core fun c => { c with spad := c.spad.put (b.spadBase + a) bs }, 0) := by
  rw [spadParts_eq h hs]
  exact writeAll_spad core e id b _ s hn (by omega) hbs
end

section
variable (x : CmdCtx)

@[simp] theorem partsOf_zero (a : Nat) : partsOf a 0 = [] := lineParts_zero _ _

/-- A range of no bytes is found, wherever it lies. -/
theorem CmdCtx.find_empty (sp : Nat) (rd wr : Bool) (a : Nat) : x.find sp rd wr a 0 = .ok [] := by
  rw [CmdCtx.find, partsOf_zero]; rfl

theorem CmdCtx.used_empty (sp : Nat) (rd : Bool) (a : Nat) : x.used sp rd a 0 [] = x := by
  rw [CmdCtx.used, partsOf_zero]
  simp [useParts]

theorem CmdCtx.read_empty (sp a : Nat) (next : CmdCtx → List Byte → CmdStep) : x.read sp a 0 next = next x [] := by
  rw [CmdCtx.read, CmdCtx.find_empty]
  show next (x.used sp true a 0 []) [] = _
  rw [CmdCtx.used_empty]

@[simp] theorem CmdCtx.used_spad (rd : Bool) (a n c m : Nat) : x.used 0 rd a n (spadParts x.b c m) = x := by
  rw [CmdCtx.used, spadParts, useParts_spad]

variable {a n : Nat} (h : a + n ≤ x.b.spadSize) (hs : x.b.spadSize ≤ 2 ^ 32)
include h hs

theorem CmdCtx.find_spad (rd wr : Bool) : x.find 0 rd wr a n = .ok (spadParts x.b a n) := by
  rw [CmdCtx.find, spadParts_eq h hs]
  have ha : engAddr a = a := Nat.mod_eq_of_lt (by omega)
  rw [partsOf, ha]
  exact locateAll_spad _ _ _ _ _ _ _ hs _ fun p hp => (mem_lineParts _ hp).trans h

theorem CmdCtx.read_spad (next : CmdCtx → List Byte → CmdStep) :
    x.read 0 a n next = next x ((x.s.core x.core).spad.bytes (x.b.spadBase + a) n) := by
  rw [CmdCtx.read, x.find_spad h hs]
  simp only [CmdCtx.used_spad, readAll_spadParts h hs]

theorem CmdCtx.write_spad {bs : List Byte} (hn : 0 < n) (hbs : bs.length = n) (next : State → EngCmd → CmdStep) :
    x.write 0 a n bs next =
      next (x.s.mapCore x.core fun c => { c with spad := c.spad.put (x.b.spadBase + a) bs }) x.k := by
  rw [CmdCtx.write, x.find_spad h hs]
  simp only [CmdCtx.used_spad, writeAll_spadParts h hs _ _ _ _ hn hbs]
  rfl
end

end Sys2Proof.Machine
end

section
/-! PROOF. One step of CPY and CRED in the scratchpad, of LSEND, and of LRADD (06 R251, R254, R259, R260). -/

namespace Sys2Proof.Machine

/-! ## Registers as addresses, and the bytes of a run -/

/-- An address that a register holds is the address that the engine forms. -/
theorem engAddr_toNat (v : DWord) : engAddr v.toNat = v.toNat := Nat.mod_eq_of_lt v.isLt

theorem Memory.nth_bytes (m : Memory) (a : Nat) {n i : Nat} (h : i < n) : nth 0#8 (m.bytes a n) i = m.get (a + i) :=
  nth_map_range_of_lt _ _ h

/-! ## CPY (R251) -/

theorem rangesMeet_false {a n b k : Nat} (sp tp : Nat) (ha : engAddr a = a) (hb : engAddr b = b) (h : b + k ≤ a ∨ a + n ≤ b) :
    rangesMeet sp a n tp b k = false := by
  simp only [rangesMeet, ha, hb, Bool.and_eq_false_iff, decide_eq_false_iff_not, Nat.not_lt]
  omega

section
variable {x : CmdCtx} {n : Nat}

/-- The chunk of a copy within the scratchpad that takes the whole of it. -/
theorem CmdCtx.copy_spad {sa da : Nat} (hsa : engAddr sa = sa) (hda : engAddr da = da) (hn : 0 < n) (hsl : sa % 128 + n ≤ 128)
    (hdl : da % 128 + n ≤ 128) (hs : sa + n ≤ x.b.spadSize) (hd : da + n ≤ x.b.spadSize) (hb : x.b.spadSize ≤ 2 ^ 32)
    (hm : da + n ≤ sa ∨ sa + n ≤ da) (next : State → EngCmd → Nat → CmdStep) :
    x.copy 0 sa 0 da n 0 next =
      next (x.s.mapCore x.core fun c =>
        { c with spad := c.spad.put (x.b.spadBase + da) ((x.s.core x.core).spad.bytes (x.b.spadBase + sa) n) })
        { x.k with page := none } n := by
  have hmin : min (n - 0) (min (128 - sa % 128) (128 - da % 128)) = n := by omega
  simp only [CmdCtx.copy, rangesMeet_false 0 0 hsa hda hm, Bool.false_eq_true, if_false, hsa, hda, Nat.add_zero, Nat.zero_add, hmin]
  rw [x.read_spad hs hb, x.write_spad hd hb hn (Memory.length_bytes _ _ _)]

theorem cpyStep_spad (hs0 : x.k.ssp = 0) (hd0 : x.k.dsp = 0) (hc : x.k.count = n) (hp : x.k.progress = 0) (h4 : 4 ≤ n)
    (hn4 : n % 4 = 0) (hsa4 : x.k.va.toNat % 4 = 0) (hda4 : x.k.vd.toNat % 4 = 0) (hsl : x.k.va.toNat % 128 + n ≤ 128)
    (hdl : x.k.vd.toNat % 128 + n ≤ 128) (hs : x.k.va.toNat + n ≤ x.b.spadSize) (hd : x.k.vd.toNat + n ≤ x.b.spadSize)
    (hb : x.b.spadSize ≤ 2 ^ 32) (hm : x.k.vd.toNat + n ≤ x.k.va.toNat ∨ x.k.va.toNat + n ≤ x.k.vd.toNat) :
    cpyStep x = .go (x.s.mapCore x.core fun c => { c with
        spad := c.spad.put (x.b.spadBase + x.k.vd.toNat) ((x.s.core x.core).spad.bytes (x.b.spadBase + x.k.va.toNat) n) })
      { x.k with page := none, progress := n, finished := true, buffer := [] } := by
  have hsize : ¬(n < 4 ∨ 1048576 < n) := by omega
  have halign : ¬(n % 4 ≠ 0 ∨ x.k.va.toNat % 4 ≠ 0 ∨ x.k.vd.toNat % 4 ≠ 0) := by omega
  simp only [cpyStep, hc, if_neg hsize, if_neg halign, hs0, hd0, hp]
  rw [CmdCtx.copy_spad (engAddr_toNat _) (engAddr_toNat _) (by omega) hsl hdl hs hd hb hm]
  simp only [le_refl, if_true, decide_true]
end

/-! ## CRED in the scratchpad (R254) -/

/-- The element of a CRED whose source bytes have been read: it is added where its destination lies, or sets out. -/
def credPut (k : EngCmd) (sf : FFmt) (df : Option FFmt) (ds : Nat) (y : CmdCtx) (bs : List Byte) : CmdStep :=
  let anchor := (k.vb.extractLsb' 32 8).toNat
  let a := k.vd.toNat + k.progress * ds
  match locate y.s y.core y.l y.b k.page 0x21 k.dsp true true a ds with
  | .ok q =>
    let y := y.used k.dsp false a ds [(q, ds)]
    (match q with
     | .glob d =>
       .go (sendCred y.s { core := y.core, id := k.id, dpa := d, conv := (k.imm.extractLsb' 7 3).toNat, anchor := anchor,
                           src := natOfBytes bs })
         { k with progress := k.progress + 1, acks := 1, page := none }
     | _ =>
       let new := credNew sf df anchor (natOfBytes (readLoc y.s y.core q ds)) (natOfBytes bs)
       .go (writeLoc y.s y.core .copy k.id q (bytesOfNat ds new)).1
         { k with progress := k.progress + 1, finished := decide (k.count ≤ k.progress + 1), page := none })
  | r => .ofLocated r

section
variable {x : CmdCtx} {sf : FFmt} {ss : Nat} {df : Option FFmt} {ds : Nat}
  (hf : credForms (x.k.imm.extractLsb' 7 3).toNat = (sf, ss, df, ds)) (hr : x.k.vb.extractLsb' 40 24 = 0)
  (hva : x.k.va.toNat % 4 = 0) (hvd : x.k.vd.toNat % max 4 ds = 0)
include hf hr hva hvd

/-- A CRED with an element left, and none on its way. -/
theorem credStep_next (ha : x.k.acks = 0) (he : x.k.progress < x.k.count) (hn : x.k.count ≤ 65536) : credStep x =
    x.read x.k.ssp (x.k.va.toNat + x.k.progress * ss) ss (credPut x.k sf df ds) := by
  have hcount : ¬(x.k.count < 1 ∨ 65536 < x.k.count ∨ x.k.vb.extractLsb' 40 24 ≠ 0) := by
    rw [hr]; simp only [ne_eq, not_true, or_false]; omega
  have halign : ¬(x.k.va.toNat % 4 ≠ 0 ∨ x.k.vd.toNat % max 4 ds ≠ 0) := by simp [hva, hvd]
  have hacks : ¬x.k.acks ≠ 0 := not_not.2 ha
  simp only [credStep, hf, if_neg hcount, if_neg halign, if_neg hacks, if_neg (Nat.not_le.2 he)]
  rfl

/-- One whose element is with its home's service group. -/
theorem credStep_away {c : CredElem} (ha : x.k.acks ≠ 0) (h1 : 1 ≤ x.k.count) (hn : x.k.count ≤ 65536)
    (hc : credFront x.s x.core x.k.id = some c)
    (hp : x.s.poisonedAt c.dpa = false) (hq : x.s.poisonedAt (c.dpa + ds - 1) = false) :
    credStep x = .go (serveCred x.s c) { x.k with finished := decide (x.k.count ≤ x.k.progress) } := by
  have hcount : ¬(x.k.count < 1 ∨ 65536 < x.k.count ∨ x.k.vb.extractLsb' 40 24 ≠ 0) := by
    rw [hr]; simp only [ne_eq, not_true, or_false]; omega
  have halign : ¬(x.k.va.toNat % 4 ≠ 0 ∨ x.k.vd.toNat % max 4 ds ≠ 0) := by simp [hva, hvd]
  simp only [credStep, hf, if_neg hcount, if_neg halign, ha, ne_eq, not_false_eq_true, if_true, hc, hp, hq, Bool.or_self,
    Bool.false_eq_true, if_false]
end

theorem CmdCtx.used_spadLoc (x : CmdCtx) (rd : Bool) (a n c m : Nat) : x.used 0 rd a n [(.spad c, m)] = x := by
  have h := useParts_spad x.s x.core x.l { x.b with spadBase := 0 } rd (partsOf a n) [(c, m)]
  simp only [List.map_cons, List.map_nil, spadPart, Nat.zero_add] at h
  rw [CmdCtx.used, h]

theorem credPut_spad {k : EngCmd} (sf : FFmt) (df : Option FFmt) {ds : Nat} (y : CmdCtx) (bs : List Byte) (hd : k.dsp = 0)
    (h : k.vd.toNat + k.progress * ds + ds ≤ y.b.spadSize) (hb : y.b.spadSize ≤ 2 ^ 32) :
    let m := (y.s.core y.core).spad
    let at_ := y.b.spadBase + (k.vd.toNat + k.progress * ds)
    credPut k sf df ds y bs = .go
      (y.s.mapCore y.core fun c => { c with
        spad := m.putNat at_ ds (credNew sf df (k.vb.extractLsb' 32 8).toNat (m.nat at_ ds) (natOfBytes bs)) })
      { k with progress := k.progress + 1, finished := decide (k.count ≤ k.progress + 1), page := none } := by
  intro m at_
  simp only [credPut, hd, locate_spad _ _ _ _ _ _ _ h hb, CmdCtx.used_spadLoc]
  rfl

/-! ## LSEND (R259) -/

theorem lsendStep_puts {x : CmdCtx} (hbad : x.k.badControl = false) {n p off d w m : Nat} (hn : x.k.count = n)
    (hp : x.k.progress = p) (hoff : x.k.vc.toNat = off) (hd : (lowWord x.k.vd).toNat % 256 = d)
    (hw : (lowWord x.k.vd).toNat / 256 % 64 = w) (hm : min (n - p) (128 - (off + p) % 128) = m) (h4 : 4 ≤ n) (hmax : n ≤ 1048576)
    (hn4 : n % 4 = 0) (hput : putCheck x.s (lowWord x.k.vd).toNat off n = none)
    (hsrc : x.k.va.toNat + p + m ≤ x.b.spadSize) (hb : x.b.spadSize ≤ 2 ^ 32)
    (hmv : streamMoves x.s x.core d w (streamLink x.s x.core d w) = false) :
    lsendStep x = .go (sendPut x.s
        { id := 0, link := streamLink x.s x.core d w, out := true, device := d, window := w,
          cells := ((x.s.core x.core).spad.bytes (x.b.spadBase + (x.k.va.toNat + p)) m).mapIdx fun i v => (off + p + i, v),
          n := if n ≤ p + m then 1 else 0, core := x.core, ref := .engine x.core .link x.k.id, landed := false,
          final := decide (n ≤ p + m), acks := 0, late := [] })
      { x.k with progress := p + m, finished := decide (n ≤ p + m), acks := x.k.acks + 1 } := by
  have hok : (x.k.badControl || decide (n < 4) || decide (1048576 < n) || decide (n % 4 ≠ 0)) = false := by
    simp [hbad, hn4, h4, hmax]
  simp only [lsendStep, hn, hp, hoff, hd, hw, hm, hok, hput, hmv, Bool.false_eq_true, if_false]
  rw [x.read_spad hsrc hb]
  simp only [decide_eq_true_eq]

/-! ## LRADD (R260) -/

/-- The channels once a receive has taken n bytes of one of them. -/
def channelsLeft (here : PortChannel → Bool) (cs : List PortChannel) (c : PortChannel) (n : Nat) : List PortChannel :=
  let others := cs.filter fun y => !here y
  if (c.bytes.drop n).isEmpty then others else others ++ [{ c with bytes := c.bytes.drop n }]

theorem takeBytes_peer {s : State} {core src port dev : Nat} {c : PortChannel} (n : Nat) (hd : dev ≠ s.device.toNat)
    (hc : (s.channels.find? fun y => y.isOf dev src core port) = some c) :
    takeBytes s core src port dev n =
      ({ s with channels := channelsLeft (fun y => y.isOf dev src core port) s.channels c n }, c.bytes.take n) := by
  simp only [takeBytes, if_neg hd, hc, channelsLeft]

section
variable {here : PortChannel → Bool} (cs : List PortChannel) {c : PortChannel} {n : Nat}

/-- No other channel changes. -/
theorem filter_channelsLeft (h : here { c with bytes := c.bytes.drop n } = true) :
    ((channelsLeft here cs c n).filter fun y => !here y) = cs.filter fun y => !here y := by
  unfold channelsLeft
  dsimp only
  split
  · rw [List.filter_filter]; simp only [Bool.and_self]
  · rw [List.filter_append, List.filter_filter]; simp [h]

/-- A channel of which all bytes are taken is gone. -/
theorem any_channelsLeft (h : c.bytes.length = n) : (channelsLeft here cs c n).any here = false := by
  have hnil : (c.bytes.drop n).isEmpty = true := by simp [h]
  simp [channelsLeft, hnil]

/-- One with bytes left keeps those. -/
theorem find_channelsLeft (h : here { c with bytes := c.bytes.drop n } = true) (hl : n < c.bytes.length) :
    (channelsLeft here cs c n).find? here = some { c with bytes := c.bytes.drop n } := by
  have hrest : (c.bytes.drop n).isEmpty = false := by
    rw [List.isEmpty_eq_false_iff_exists_mem]
    exact List.exists_mem_of_length_pos (by rw [List.length_drop]; omega)
  have hothers : (cs.filter fun y => !here y).find? here = none := by
    rw [List.find?_eq_none]
    intro y hy
    simpa using (List.mem_filter.1 hy).2
  simp [channelsLeft, hrest, List.find?_append, hothers, h]
end

theorem laddSize_pos (k : EngCmd) : 0 < laddSize k := by
  unfold laddSize
  split <;> decide

/-- The next element of an LRADD, whose bytes have all arrived from a peer. -/
theorem lraddElement_adds {x : CmdCtx} {c : PortChannel} {dev src port e : Nat} (hp : portOf x.k.vd = (dev, src, port))
    (hbad : x.k.badControl = false) (he : x.k.progress = e) (hlt : e < x.k.count) (hbuf : x.k.buffer = [])
    (hd : dev ≠ x.s.device.toNat) (hu : unreachable x.s dev = false)
    (hbefore : ((x.s.core x.core).link.cmds.any fun j => j.op == .lradd && decide (j.id < x.k.id) && !j.finished &&
      portOf j.vd == (dev, src, port)) = false)
    (hin : x.k.va.toNat + e * laddSize x.k + laddSize x.k ≤ x.b.spadSize) (hb : x.b.spadSize ≤ 2 ^ 32)
    (hc : (x.s.channels.find? fun y => y.isOf dev src x.core port) = some c) (hlen : laddSize x.k ≤ c.bytes.length) :
    let m := (x.s.core x.core).spad
    let at_ := x.b.spadBase + (x.k.va.toNat + e * laddSize x.k)
    let new := laddNew x.k.x.type.toNat (m.nat at_ (laddSize x.k)) (natOfBytes (c.bytes.take (laddSize x.k)))
    lraddElement x = .go
      { x.s.mapCore x.core (fun y => { y with spad := m.putNat at_ (laddSize x.k) new }) with
        channels := channelsLeft (fun y => y.isOf dev src x.core port) x.s.channels c (laddSize x.k) }
      { x.k with progress := e + 1, buffer := [], finished := decide (x.k.count ≤ e + 1) } := by
  intro m at_ new
  have hstep : lraddStep x = .wait x.s none := by
    simp [lraddStep, hp, hbad, he, Nat.ne_of_lt hlt, hu]
  have htaken : (c.bytes.take (laddSize x.k)).length = laddSize x.k := by rw [List.length_take]; omega
  have hsome : (c.bytes.take (laddSize x.k)).isEmpty = false := by
    rw [List.isEmpty_eq_false_iff_exists_mem]
    exact List.exists_mem_of_length_pos (by rw [htaken]; exact laddSize_pos x.k)
  simp only [lraddElement, hp, hstep, hbefore, he, Bool.false_eq_true, if_false, locate_spad _ _ _ _ _ _ _ hin hb, hbuf,
    List.length_nil, Nat.sub_zero, takeBytes_peer _ hd hc, hsome, List.nil_append, htaken, lt_irrefl]
  rfl

end Sys2Proof.Machine
end

section
/-! PROOF. A CRED to device memory: its element sets out for its home, and is served there (06 R254, 08 R304, 09 R336). -/

namespace Sys2Proof.Machine

/-! ## Dies -/

section
variable (s : State) (f : Die → Die) {n d : Nat}

/-- Any number but 0 means die 1. -/
theorem State.die_mapDie (n d : Nat) : (s.mapDie d f).die n = if d = 0 ↔ n = 0 then f (s.die n) else s.die n := by
  by_cases hd : d = 0 <;> by_cases hn : n = 0 <;> simp [State.mapDie, State.die, hd, hn]

theorem State.die_mapDie_same (d : Nat) : (s.mapDie d f).die d = f (s.die d) := by rw [State.die_mapDie, if_pos Iff.rfl]

theorem State.die_mapDie_other (hn : n < 2) (hd : d < 2) (h : n ≠ d) : (s.mapDie d f).die n = s.die n := by
  rw [State.die_mapDie, if_neg (by omega)]
end

theorem enqueue_onlyDies (s : State) (a : Nat) (r : SvcRef) : OnlyDies s (enqueue s a r) := by
  unfold enqueue; exact mapDie_onlyDies _ _ _

theorem dequeue_onlyDies (s : State) (a : Nat) (r : SvcRef) : OnlyDies s (dequeue s a r) := by
  unfold dequeue; exact mapDie_onlyDies _ _ _

theorem homeDie_lt (a : Nat) : homeDie a < 2 := Nat.mod_lt _ (by decide)

/-! ## An element sets out -/

theorem enqueue_sends (s : State) (a : Nat) (r : SvcRef) : ∃ q : SvcReq,
    (enqueue s a r).die (homeDie a) = { s.die (homeDie a) with svc := (s.die (homeDie a)).svc ++ [q] } ∧
      q.ref = r ∧ q.strip = servingStrip s (homeDie a) (stripOf (lineOf a)) := by
  rw [enqueue, State.die_mapDie_same]
  exact ⟨_, rfl, rfl, rfl⟩

theorem sendMsg_sends (s : State) (d : Nat) (k : BridgeKind) : ∃ m : BridgeMsg, m.kind = k ∧
    (sendMsg s d k).die d = { s.die d with out := (s.die d).out ++ [m], clock := (m.c0, m.c1) } := by
  let clock := if d = 0 then ((s.die d).clock.1 + 1, (s.die d).clock.2) else ((s.die d).clock.1, (s.die d).clock.2 + 1)
  rw [sendMsg, State.die_mapDie_same]
  exact ⟨{ c0 := clock.1, c1 := clock.2, kind := k }, rfl, rfl⟩

/-- An element sets out: only the die of its core differs, by a request of its service group or a message. -/
theorem sendCred_sends (s : State) (c : CredElem) (hc : dieOf c.core < 2) : let t := sendCred s c
    OnlyDies s t ∧ (∀ m, m < 2 → m ≠ dieOf c.core → t.die m = s.die m) ∧
    (let y := s.die (dieOf c.core)
     (homeDie c.dpa = dieOf c.core → ∃ q : SvcReq, t.die (dieOf c.core) = { y with svc := y.svc ++ [q] } ∧ q.ref = .cred c ∧
       q.strip = servingStrip s (homeDie c.dpa) (stripOf (lineOf c.dpa))) ∧
     (homeDie c.dpa ≠ dieOf c.core → ∃ m : BridgeMsg, m.kind = .cred c ∧
       t.die (dieOf c.core) = { y with out := y.out ++ [m], clock := (m.c0, m.c1) })) := by
  by_cases h : homeDie c.dpa = dieOf c.core
  · simp only [sendCred, if_pos h]
    refine ⟨enqueue_onlyDies _ _ _, fun m hm hne => ?_, fun _ => ?_, fun hne => absurd h hne⟩
    · rw [enqueue, h, State.die_mapDie_other _ _ hm hc hne]
    · rw [← h]; exact enqueue_sends s c.dpa _
  · simp only [sendCred, if_neg h]
    exact ⟨mapDie_onlyDies s (dieOf c.core) _, fun m hm hne => State.die_mapDie_other _ _ hm hc hne, fun hh => absurd hh h,
      fun _ => sendMsg_sends s _ _⟩

theorem credForms_size (conv : Nat) : (credForms conv).2.2.2 = 2 ∨ (credForms conv).2.2.2 = 4 ∨ (credForms conv).2.2.2 = 16 := by
  unfold credForms
  split <;> simp

theorem partsOf_line {a n : Nat} (ha : a < 2 ^ 64) (hn : 0 < n) (h : a % 128 + n ≤ 128) : partsOf a n = [(a, n)] := by
  have he : engAddr a = a := Nat.mod_eq_of_lt ha
  have hm : min n (128 - a % 128) = n := by omega
  rw [partsOf, he, lineParts_pos _ _ hn, hm, Nat.sub_self, lineParts_zero]

section
variable {l : Launch} {a i : Nat} {r : Region} (hr : regionOf l a = some (i, r)) (hk : r.kind = 0) (ha : a < 2 ^ 64)
include hr hk ha

/-- Bytes of a line of a resident region that may be read and written. -/
theorem locate_resident {s : State} (core : Nat) (b : Block) (awaited : Option (Nat × Nat)) (code : Nat) {n : Nat}
    (hin : a + n ≤ r.vbase + r.length) (hrw : r.rights % 4 = 3) (hp : s.poisonedAt (r.target + (a - r.vbase)) = false)
    (hq : s.poisonedAt (r.target + (a - r.vbase) + n - 1) = false) :
    locate s core l b awaited code 1 true true a n = .ok (.glob (r.target + (a - r.vbase))) := by
  have he : engAddr a = a := Nat.mod_eq_of_lt ha
  have hrd : r.rd = true := by simp [Region.rd]; omega
  have hwr : r.wr = true := by simp [Region.wr]; omega
  simp [locate, he, hr, Nat.not_lt.2 hin, hk, hrd, hwr, hp, hq]

/-- Writing bytes of a line of a resident region uses no page. -/
theorem CmdCtx.used_resident {x : CmdCtx} (hl : x.l = l) {n : Nat} (hn : 0 < n) (h : a % 128 + n ≤ 128)
    (qs : List (EngLoc × Nat)) : x.used 1 false a n qs = x := by
  have he : engAddr a = a := Nat.mod_eq_of_lt ha
  subst hl
  simp [CmdCtx.used, partsOf_line ha hn h, useParts, he, hr, hk]
end

theorem credPut_resident {k : EngCmd} (sf : FFmt) (df : Option FFmt) {ds a i : Nat} {r : Region} (y : CmdCtx) (bs : List Byte)
    (hd : k.dsp = 1) (ha : k.vd.toNat + k.progress * ds = a) (hds : ds = 2 ∨ ds = 4 ∨ ds = 16)
    (halign : k.vd.toNat % max 4 ds = 0) (hlt : a + ds ≤ 2 ^ 64) (hr : regionOf y.l a = some (i, r))
    (hin : a + ds ≤ r.vbase + r.length) (hk : r.kind = 0) (hrw : r.rights % 4 = 3)
    (hp : y.s.poisonedAt (r.target + (a - r.vbase)) = false)
    (hq : y.s.poisonedAt (r.target + (a - r.vbase) + ds - 1) = false) :
    credPut k sf df ds y bs = .go
      (sendCred y.s { core := y.core, id := k.id, dpa := r.target + (a - r.vbase), conv := (k.imm.extractLsb' 7 3).toNat,
                      anchor := (k.vb.extractLsb' 32 8).toNat, src := natOfBytes bs })
      { k with progress := k.progress + 1, acks := 1, page := none } := by
  have ha64 : a < 2 ^ 64 := by omega
  have hline : a % 128 + ds ≤ 128 := by
    rcases hds with rfl | rfl | rfl <;> norm_num at halign <;> omega
  simp only [credPut, hd, ha, locate_resident hr hk ha64 _ _ _ _ hin hrw hp hq,
    CmdCtx.used_resident hr hk ha64 rfl (show 0 < ds by omega) hline]

/-! ## What an operation at a home leaves of the dies -/

/-- A die but for its L2, what it has sent and its clock. -/
def ServedDie (x y : Die) : Prop := y = { x with l2 := y.l2, out := y.out, clock := y.clock }

/-- Nothing but L2, clocks and messages of the dies differs. -/
def Served (s t : State) : Prop := OnlyDies s t ∧ ∀ n, ServedDie (s.die n) (t.die n)

theorem ServedDie.trans {x y z : Die} (h : ServedDie x y) (k : ServedDie y z) : ServedDie x z := by
  unfold ServedDie at *
  rw [k, h]

theorem Served.refl (s : State) : Served s s := ⟨rfl, fun _ => rfl⟩

theorem Served.trans {s t u : State} (h : Served s t) (k : Served t u) : Served s u :=
  ⟨h.1.trans k.1, fun n => (h.2 n).trans (k.2 n)⟩

/-- Other device memory under both sides. -/
theorem Served.withDram {s t : State} (h : Served s t) (m : Memory) : Served { s with dram := m } { t with dram := m } := by
  obtain ⟨hs, hd⟩ := h
  refine ⟨?_, hd⟩
  unfold OnlyDies at *
  rw [hs]

theorem Served.dram {s t : State} (h : Served s t) : t.dram = s.dram := by rw [h.1]

theorem mapDie_served (s : State) (d : Nat) {f : Die → Die} (hf : ∀ x, ServedDie x (f x)) : Served s (s.mapDie d f) := by
  refine ⟨mapDie_onlyDies s d f, fun n => ?_⟩
  rw [State.die_mapDie]
  split
  · exact hf _
  · rfl

theorem touchL2_served (s : State) (a : Nat) (dirty : Bool) : Served s (touchL2 s a dirty) := mapDie_served s _ fun _ => rfl

theorem sendMsg_served (s : State) (d : Nat) (k : BridgeKind) : Served s (sendMsg s d k) := mapDie_served s _ fun _ => rfl

theorem afterHome_served (s : State) (d line : Nat) (mask : BitVec 32) (ref : AckRef) : Served s (afterHome s d line mask ref) := by
  unfold afterHome
  split
  · exact sendMsg_served _ _ _
  · exact (sendMsg_served _ _ _).trans (sendMsg_served _ _ _)

theorem afterSpans_served (d : Nat) (ref : AckRef) : ∀ (ps : List (Nat × BitVec 32)) (s : State), Served s (afterSpans s d ref ps)
  | [], s => Served.refl s
  | [_], _ => afterHome_served _ _ _ _ _
  | _ :: q :: ps, _ => (afterHome_served _ _ _ _ _).trans (afterSpans_served d ref (q :: ps) _)

/-- Fewer than 128 cells do not fill a line. -/
theorem not_full {cells : List Host.Cell} (h : cells.length < 128) (line : Nat) :
    ((List.range 128).all fun i => cells.any fun x => x.1 == line + i) = false := by
  rw [Bool.eq_false_iff]
  intro hall
  have hsub : (List.range 128).map (line + ·) ⊆ cells.map (·.1) := by
    intro a ha
    obtain ⟨i, hi, rfl⟩ := List.mem_map.1 ha
    obtain ⟨c, hc, he⟩ := List.any_eq_true.1 (List.all_eq_true.1 hall i hi)
    exact List.mem_map.2 ⟨c, hc, beq_iff_eq.1 he⟩
  have hnodup : ((List.range 128).map (line + ·)).Nodup := List.nodup_range.map fun _ _ => Nat.add_left_cancel
  have hle := (List.subperm_of_subset hnodup hsub).length_le
  simp only [List.length_map, List.length_range] at hle
  omega

theorem performHome_served (s : State) {cells : List Host.Cell} (h : cells.length < 128) :
    Served { s with dram := s.dram.putCells cells } (performHome s cells) := by
  cases cells with
  | nil => exact Served.refl s
  | cons c cs =>
    simp only [performHome, not_full h, Bool.false_eq_true, if_false]
    exact touchL2_served _ _ _

theorem performHomes_served : ∀ (xs : List (List Host.Cell)) (s : State), (∀ cells ∈ xs, cells.length < 128) →
    Served { s with dram := s.dram.putCells xs.flatten } (xs.foldl performHome s)
  | [], s, _ => Served.refl s
  | cells :: xs, s, h => by
    have hfirst := performHome_served s (h cells List.mem_cons_self)
    have hrest := performHomes_served xs (performHome s cells) fun c hc => h c (List.mem_cons_of_mem _ hc)
    have hdram : s.dram.putCells (cells :: xs).flatten = (performHome s cells).dram.putCells xs.flatten := by
      rw [hfirst.dram, List.flatten_cons, Memory.putCells, List.foldl_append]; rfl
    rw [hdram]
    exact (hfirst.withDram _).trans hrest

/-! ## Cells written one by one -/

theorem Memory.get_putCells_other {a : Nat} : ∀ (cs : List Host.Cell) {m : Memory}, m.wf = true → (∀ c ∈ cs, c.1 ≠ a) →
    (m.putCells cs).get a = m.get a
  | [], _, _, _ => rfl
  | c :: cs, m, hm, h => by
    obtain ⟨hc, hcs⟩ := List.forall_mem_cons.1 h
    have hrest := Memory.get_putCells_other cs (Memory.wf_set hm c.1 c.2) hcs
    rw [Memory.get_set hm, if_neg (Ne.symm hc)] at hrest
    exact hrest

/-- Cells of one address that agree. -/
theorem Memory.get_putCells {a : Nat} {v : Byte} : ∀ (cs : List Host.Cell) {m : Memory}, m.wf = true →
    (∀ c ∈ cs, c.1 = a → c.2 = v) → (a, v) ∈ cs → (m.putCells cs).get a = v
  | [], _, _, _, hin => absurd hin (by simp)
  | c :: cs, m, hm, h, hin => by
    obtain ⟨hc, hcs⟩ := List.forall_mem_cons.1 h
    by_cases hrest : (a, v) ∈ cs
    · exact Memory.get_putCells cs (Memory.wf_set hm c.1 c.2) hcs hrest
    · have hnone : ∀ q ∈ cs, q.1 ≠ a := fun q hq ha => hrest (by have := hcs q hq ha; subst this ha; exact hq)
      obtain rfl : (a, v) = c := (List.mem_cons.1 hin).resolve_right hrest
      have hput := Memory.get_putCells_other cs (Memory.wf_set hm a v) hnone
      rw [Memory.get_set hm, if_pos rfl] at hput
      exact hput

theorem mem_flatten_byLine {cells : List Host.Cell} {c : Host.Cell} : c ∈ (byLine cells).flatten ↔ c ∈ cells := by
  simp only [byLine, List.mem_flatten, List.mem_map, mem_dedup]
  constructor
  · rintro ⟨_, ⟨_, _, rfl⟩, hc⟩
    exact (List.mem_filter.1 hc).1
  · intro hc
    exact ⟨_, ⟨lineOf c.1, ⟨c, hc, rfl⟩, rfl⟩, List.mem_filter.2 ⟨hc, by simp⟩⟩

theorem byLine_length {cells xs : List Host.Cell} (h : xs ∈ byLine cells) : xs.length ≤ cells.length := by
  simp only [byLine, List.mem_map] at h
  obtain ⟨_, _, rfl⟩ := h
  exact List.length_filter_le _ _

/-- The bytes of a run as cells. -/
theorem mem_cellsAt {a : Nat} {bs : List Byte} {c : Host.Cell} : c ∈ (bs.mapIdx fun i v => (a + i, v)) ↔
    ∃ i, i < bs.length ∧ c = (a + i, nth 0#8 bs i) := by
  rw [List.mem_mapIdx]
  constructor
  · rintro ⟨i, hi, rfl⟩
    exact ⟨i, hi, by rw [nth_of_getElem? (List.getElem?_eq_getElem hi)]⟩
  · rintro ⟨i, hi, rfl⟩
    exact ⟨i, hi, by rw [nth_of_getElem? (List.getElem?_eq_getElem hi)]⟩

section
variable {m : Memory} (hm : m.wf = true) {a : Nat} {bs : List Byte}
include hm

/-- A run of bytes written line by line. -/
theorem Memory.get_putLines {i : Nat} (hi : i < bs.length) :
    (m.putCells (byLine (bs.mapIdx fun i v => (a + i, v))).flatten).get (a + i) = nth 0#8 bs i := by
  refine Memory.get_putCells _ hm (fun c hc ha => ?_) (mem_flatten_byLine.2 (mem_cellsAt.2 ⟨i, hi, rfl⟩))
  obtain ⟨j, _, rfl⟩ := mem_cellsAt.1 (mem_flatten_byLine.1 hc)
  have hj : j = i := by simpa using ha
  rw [hj]

theorem Memory.get_putLines_other {b : Nat} (hb : b < a ∨ a + bs.length ≤ b) :
    (m.putCells (byLine (bs.mapIdx fun i v => (a + i, v))).flatten).get b = m.get b := by
  refine Memory.get_putCells_other _ hm fun c hc => ?_
  obtain ⟨i, hi, rfl⟩ := mem_cellsAt.1 (mem_flatten_byLine.1 hc)
  show a + i ≠ b
  omega
end

/-- A run that holds given bytes one by one is those bytes. -/
theorem Memory.bytes_eq {m : Memory} {a : Nat} {bs : List Byte} (h : ∀ i, i < bs.length → m.get (a + i) = nth 0#8 bs i) :
    m.bytes a bs.length = bs := by
  refine List.ext_getElem (Memory.length_bytes _ _ _) fun i hi hi' => ?_
  rw [← nth_of_getElem? (d := 0#8) (List.getElem?_eq_getElem hi), ← nth_of_getElem? (d := 0#8) (List.getElem?_eq_getElem hi'),
    Memory.nth_bytes _ _ hi', h i hi']

/-! ## The element is served (09 R336) -/

theorem dequeue_die (s : State) (a : Nat) (r : SvcRef) {n : Nat} (hn : n < 2) : (dequeue s a r).die n =
    if n = homeDie a then { s.die n with svc := (s.die n).svc.filter fun q => q.ref != r } else s.die n := by
  unfold dequeue
  split
  next h => rw [h, State.die_mapDie_same]
  next h => rw [State.die_mapDie_other _ _ hn (homeDie_lt a) h]

/-- The bytes that the element of a CRED becomes. -/
def credBytes (s : State) (c : CredElem) : List Byte :=
  let (sf, _, df, ds) := credForms c.conv
  bytesOfNat ds (credNew sf df c.anchor (natOfBytes (readHome s c.dpa ds)) c.src)

theorem serveCred_served (s : State) (c : CredElem) : Served
    { dequeue s c.dpa (.cred c) with
      dram := s.dram.putCells (byLine ((credBytes s c).mapIdx fun i v => (c.dpa + i, v))).flatten }
    (serveCred s c) := by
  have hsize := credForms_size c.conv
  have hlen : ∀ cells ∈ byLine ((credBytes s c).mapIdx fun i v => (c.dpa + i, v)), cells.length < 128 := by
    intro cells hc
    have h := byLine_length hc
    have hbytes : (credBytes s c).length = (credForms c.conv).2.2.2 := bytesOfNat_length _ _
    rw [List.length_mapIdx, hbytes] at h
    omega
  have hdram : (dequeue s c.dpa (.cred c)).dram = s.dram := by rw [dequeue_onlyDies s _ _]
  rw [← hdram]
  exact (performHomes_served _ (dequeue s c.dpa (.cred c)) hlen).trans (afterSpans_served _ _ _ _)

/-- When an element is served, its home holds the sum and no other byte changes, the request is gone from its service group, and
of the dies only L2, clocks and messages differ. -/
theorem serveCred_spec {s : State} (hw : s.dram.wf = true) (c : CredElem) : let t := serveCred s c
    t.dram.bytes c.dpa (credBytes s c).length = credBytes s c ∧
    (∀ a, a < c.dpa ∨ c.dpa + (credBytes s c).length ≤ a → t.dram.get a = s.dram.get a) ∧
    t = { s with dram := t.dram, die0 := t.die0, die1 := t.die1 } ∧
    ∀ n, n < 2 → let y := t.die n
      y = { s.die n with l2 := y.l2, out := y.out, clock := y.clock, svc := y.svc } ∧
      y.svc = (if n = homeDie c.dpa then (s.die n).svc.filter fun q => q.ref != .cred c else (s.die n).svc) := by
  intro t
  have hserved := serveCred_served s c
  have hdram : t.dram = _ := hserved.dram
  refine ⟨?_, fun a ha => ?_, ?_, fun n hn => ?_⟩
  · rw [hdram]
    exact Memory.bytes_eq fun i hi => Memory.get_putLines hw hi
  · rw [hdram]
    exact Memory.get_putLines_other hw ha
  · have hdies : t = _ := hserved.1
    have hqueue := dequeue_onlyDies s c.dpa (.cred c)
    rw [hdies, hqueue]
  · intro y
    have hdie : ServedDie ((dequeue s c.dpa (.cred c)).die n) y := hserved.2 n
    rw [dequeue_die s c.dpa _ hn] at hdie
    split at hdie
    next h => rw [hdie]; simp [h]
    next h => rw [hdie]; simp [h]

end Sys2Proof.Machine
end

section
/-! PROOF. One step of QTZ and DQZ in the scratchpad and of RQZ in device memory (06 R256 to R258, 03 R123). -/

namespace Sys2Proof.Machine

/-! ## Sizes -/

theorem elemKind_width {slot : Word} {sg : Bool} {w : Nat} (h : elemKind slot = .int sg w) : w = 8 ∨ w = 4 := by
  unfold elemKind at h
  split at h <;> cases h <;> simp

theorem slotBits_pos (slot : Word) : 0 < slotBits slot := by
  unfold slotBits
  split
  next f _ => cases f <;> decide
  next h => rcases elemKind_width h with rfl | rfl <;> decide
  next => decide

theorem unitOf_pos (slot : Word) {left : Nat} (h : 0 < left) : 0 < unitOf slot left := by
  unfold unitOf slotGroup
  split
  · exact Nat.lt_min.2 ⟨h, by decide⟩
  · exact Nat.lt_min.2 ⟨h, by positivity⟩

theorem planeBytes_pos {bits n : Nat} (hb : 0 < bits) (hn : 0 < n) : 0 < planeBytes bits n := by
  have h : 0 < n * bits := Nat.mul_pos hn hb
  unfold planeBytes
  omega

theorem metaSize_unscaled {slot : Word} (h : slotScale slot = 0) : metaSize slot = 0 := by simp [metaSize, h]

theorem metaSize_pos {slot : Word} (h : slotScale slot ≠ 0) : 0 < metaSize slot := by
  unfold metaSize
  split
  next h0 => exact absurd h0 h
  all_goals decide

theorem valueFmt_size (k : EngCmd) : 0 < (valueFmt k).2 := by
  unfold valueFmt
  split <;> decide

/-- A group becomes as many elements as it has values. -/
theorem quantGroup_length (slot : Word) (xs : List Num) : (quantGroup slot xs).elems.length = xs.length := by
  unfold quantGroup
  dsimp only
  split
  · simp
  · split
    · split <;> simp
    · split <;> simp

/-! ## Bytes read back from a buffer -/

/-- A run of bytes that a command holds reads as the memory that it came from. -/
theorem Memory.nat_buffer (m : Memory) (a : Nat) {n i k : Nat} (h : i + k ≤ n) :
    Memory.nat (Memory.put [] 0 (m.bytes a n)) i k = m.nat (a + i) k := by
  have hget : ∀ j, j < k → Memory.get (Memory.put [] 0 (m.bytes a n)) (i + j) = m.get (a + i + j) := by
    intro j hj
    rw [Memory.get_put _ Memory.wf_nil, Memory.length_bytes, if_pos (by omega), Nat.sub_zero, Memory.nth_bytes _ _ (by omega),
      Nat.add_assoc]
  have hbytes : Memory.bytes (Memory.put [] 0 (m.bytes a n)) i k = m.bytes (a + i) k :=
    List.map_congr_left fun j hj => hget j (List.mem_range.1 hj)
  rw [Memory.nat, hbytes]; rfl

/-! ## A unit written -/

/-- The elements that the values of a unit become. -/
def unitElems (slot : Word) (xs : List Num) : List Nat :=
  if slotScale slot = 0 then
    xs.map fun v => match elemKind slot with | .flt f => rndSatNum f v | .int sg w => wrapInt (rndi sg w .rne v) w | _ => 0
  else (quantGroup slot xs).elems

/-- The metadata entry of a unit; none without scale. -/
def unitEntry (slot : Word) (xs : List Num) : List Byte :=
  if slotScale slot = 0 then [] else bytesOfNat (metaSize slot) (metaOf slot (quantGroup slot xs))

theorem unitElems_length (slot : Word) (xs : List Num) : (unitElems slot xs).length = xs.length := by
  unfold unitElems
  split
  · simp
  · exact quantGroup_length slot xs

theorem unitEntry_length (slot : Word) (xs : List Num) : (unitEntry slot xs).length = metaSize slot := by
  unfold unitEntry
  split
  next h => rw [metaSize_unscaled h]; rfl
  next h => exact bytesOfNat_length _ _

section
variable {x : CmdCtx} {slot : Word} {xs : List Num} {dsp d m e : Nat}

/-- A unit whose places are found is written there. -/
theorem CmdCtx.putUnit_found {qs ms : List (EngLoc × Nat)} (n : Nat)
    (hq : x.find dsp false true (d + e * slotBits slot / 8) (planeBytes (slotBits slot) xs.length) = .ok qs)
    (hm : x.find dsp false true (m + e / slotGroup slot * metaSize slot) (metaSize slot) = .ok ms) :
    let y := (x.used dsp false (d + e * slotBits slot / 8) (planeBytes (slotBits slot) xs.length) qs).used dsp false
      (m + e / slotGroup slot * metaSize slot) (metaSize slot) ms
    let w := writeAll y.s x.core .quant x.k.id qs (elemBytes (slotBits slot) (unitElems slot xs) (readAll x.s x.core qs))
    let v := writeAll w.1 x.core .quant x.k.id ms (unitEntry slot xs)
    x.putUnit slot dsp d m e xs n = .go v.1 { x.k with
      progress := e + xs.length, acks := x.k.acks + w.2 + v.2, page := none, finished := decide (n ≤ e + xs.length) } := by
  have hentry := unitEntry_length slot xs
  by_cases h0 : slotScale slot = 0
  · simp only [unitEntry, h0, if_true] at hentry
    simp only [CmdCtx.putUnit, unitElems, unitEntry, h0, if_true, hq, hentry, hm] <;> rfl
  · simp only [unitEntry, h0, if_false] at hentry
    simp only [CmdCtx.putUnit, unitElems, unitEntry, h0, if_false, hq, hentry, hm]

variable (hd : d + e * slotBits slot / 8 + planeBytes (slotBits slot) xs.length ≤ x.b.spadSize)
  (hm : slotScale slot ≠ 0 → m + e / slotGroup slot * metaSize slot + metaSize slot ≤ x.b.spadSize)
  (hb : x.b.spadSize ≤ 2 ^ 32) (hxs : 0 < xs.length)
include hd hm hb hxs

/-- A unit written in the scratchpad. -/
theorem CmdCtx.putUnit_spad (n : Nat) :
    let c := (x.s.core x.core).spad
    let at_ := x.b.spadBase + (d + e * slotBits slot / 8)
    let old := c.bytes at_ (planeBytes (slotBits slot) xs.length)
    x.putUnit slot 0 d m e xs n = .go
      (x.s.mapCore x.core fun k => { k with
        spad := (c.put at_ (elemBytes (slotBits slot) (unitElems slot xs) old)).put
          (x.b.spadBase + (m + e / slotGroup slot * metaSize slot)) (unitEntry slot xs) })
      { x.k with progress := e + xs.length, page := none, finished := decide (n ≤ e + xs.length) } := by
  intro c at_ old
  have hlen : ∀ old, (elemBytes (slotBits slot) (unitElems slot xs) old).length = planeBytes (slotBits slot) xs.length := by
    intro old
    rw [elemBytes, Memory.length_bytes, unitElems_length]
  have hplane := planeBytes_pos (slotBits_pos slot) hxs
  have hq := x.find_spad hd hb false true
  by_cases h0 : slotScale slot = 0
  · have hms : x.find 0 false true (m + e / slotGroup slot * metaSize slot) (metaSize slot) = .ok [] := by
      rw [metaSize_unscaled h0]; exact x.find_empty _ _ _ _
    have hentry : unitEntry slot xs = [] := by simp [unitEntry, h0]
    rw [CmdCtx.putUnit_found n hq hms]
    simp only [CmdCtx.used_spad, metaSize_unscaled h0, CmdCtx.used_empty, readAll_spadParts hd hb,
      writeAll_spadParts hd hb _ _ _ _ hplane (hlen _), hentry, Memory.put_nil]
    rfl
  · have hms := x.find_spad (hm h0) hb false true
    rw [CmdCtx.putUnit_found n hq hms]
    simp only [CmdCtx.used_spad, readAll_spadParts hd hb, writeAll_spadParts hd hb _ _ _ _ hplane (hlen _),
      writeAll_spadParts (hm h0) hb _ _ _ _ (metaSize_pos h0) (unitEntry_length slot xs), State.mapCore_mapCore]
    rfl
end

/-! ## QTZ (R256) -/

theorem qtzStep_spad {x : CmdCtx} {f : FFmt} {size : Nat} (hv : valueFmt x.k = (f, size)) (hss : x.k.ssp = 0) (hds : x.k.dsp = 0)
    (hbad : x.k.badControl = false) {slot : Word} (hslot : x.k.slotOf x.l = slot) {n e u : Nat} (hn : x.k.count = n)
    (he : x.k.progress = e) (hu : unitOf slot (n - e) = u)
    (hcount : if slotScale slot = 0 then 1 ≤ n else n % slotGroup slot = 0) (hmax : n ≤ 1048576) (hlt : e < n)
    (hsrc : x.k.va.toNat + e * size + u * size ≤ x.b.spadSize)
    (hdst : x.k.vd.toNat + e * slotBits slot / 8 + planeBytes (slotBits slot) u ≤ x.b.spadSize)
    (hm : slotScale slot ≠ 0 → x.k.vc.toNat + e / slotGroup slot * metaSize slot + metaSize slot ≤ x.b.spadSize)
    (hb : x.b.spadSize ≤ 2 ^ 32) :
    let c := (x.s.core x.core).spad
    let xs := (List.range u).map fun i => dec f (c.nat (x.b.spadBase + (x.k.va.toNat + e * size) + i * size) size)
    let at_ := x.b.spadBase + (x.k.vd.toNat + e * slotBits slot / 8)
    let old := c.bytes at_ (planeBytes (slotBits slot) u)
    qtzStep x = .go
      (x.s.mapCore x.core fun k => { k with
        spad := (c.put at_ (elemBytes (slotBits slot) (unitElems slot xs) old)).put
          (x.b.spadBase + (x.k.vc.toNat + e / slotGroup slot * metaSize slot)) (unitEntry slot xs) })
      { x.k with progress := e + u, page := none, finished := decide (n ≤ e + u) } := by
  intro c xs at_ old
  have hupos : 0 < u := hu ▸ unitOf_pos slot (Nat.sub_pos_of_lt hlt)
  have hxs : xs.length = u := by simp [xs]
  have hread : ((List.range u).map fun i =>
      dec f (Memory.nat (Memory.put [] 0 (c.bytes (x.b.spadBase + (x.k.va.toNat + e * size)) (u * size))) (i * size) size)) = xs := by
    refine List.map_congr_left fun i hi => ?_
    have hle : i * size + size ≤ u * size := by
      rw [← Nat.succ_mul]; exact Nat.mul_le_mul_right size (List.mem_range.1 hi)
    rw [Memory.nat_buffer c _ hle]
  have hok : (if slotScale slot = 0 then decide (1 ≤ n) else decide (n % slotGroup slot = 0)) = true := by
    split at hcount <;> simp_all
  have hgate : (x.k.badControl || !(if slotScale slot = 0 then decide (1 ≤ n) else decide (n % slotGroup slot = 0)) ||
      decide (1048576 < n) || !(x.k.ssp != 3 || decide (engAddr x.k.va.toNat % 8192 + n * size ≤ 8192))) = false := by
    simp [hbad, hok, hmax, hss]
  rw [qtzStep]
  simp only [hv, hslot, hn, he, hu, hgate, Bool.false_eq_true, if_false, if_neg (Nat.ne_of_gt (Nat.zero_lt_of_lt hlt))]
  rw [hss, hds, x.read_spad hsrc hb, hread]
  have hput := CmdCtx.putUnit_spad (xs := xs) (hxs.symm ▸ hdst) hm hb (hxs.symm ▸ hupos) n
  simp only [hxs] at hput
  exact hput

/-! ## DQZ (R257) -/

/-- The values of a unit read from the scratchpad. -/
theorem CmdCtx.slotValues_spad {x : CmdCtx} (slot : Word) {a m e u : Nat}
    (ha : a + e * slotBits slot / 8 + planeBytes (slotBits slot) u ≤ x.b.spadSize)
    (hm : slotScale slot ≠ 0 → m + e / slotGroup slot * metaSize slot + metaSize slot ≤ x.b.spadSize)
    (hb : x.b.spadSize ≤ 2 ^ 32) (next : CmdCtx → List Num → CmdStep) :
    let c := (x.s.core x.core).spad
    let latch := readMeta slot (c.nat (x.b.spadBase + (m + e / slotGroup slot * metaSize slot)) (metaSize slot))
    x.slotValues slot 0 a m e u next = next x ((elemsFrom (slotBits slot) u
      (c.bytes (x.b.spadBase + (a + e * slotBits slot / 8)) (planeBytes (slotBits slot) u))).map fun q => elemValue slot q latch) := by
  intro c latch
  rw [CmdCtx.slotValues, x.read_spad ha hb]
  by_cases h0 : slotScale slot = 0
  · have hlatch : latch = readMeta slot (natOfBytes []) := by simp only [latch, metaSize_unscaled h0]; rfl
    simp only [metaSize_unscaled h0, CmdCtx.read_empty, hlatch]
    rfl
  · rw [x.read_spad (hm h0) hb]
    rfl

theorem dqzStep_spad {x : CmdCtx} {f : FFmt} {size : Nat} (hv : valueFmt x.k = (f, size)) (hss : x.k.ssp = 0) (hds : x.k.dsp = 0)
    (hbad : x.k.badControl = false) {slot : Word} (hslot : x.k.slotOf x.l = slot) {n e u : Nat} (hn : x.k.count = n)
    (he : x.k.progress = e) (hu : unitOf slot (n - e) = u) (hlt : e < n)
    (hsrc : x.k.va.toNat + e * slotBits slot / 8 + planeBytes (slotBits slot) u ≤ x.b.spadSize)
    (hm : slotScale slot ≠ 0 → x.k.vc.toNat + e / slotGroup slot * metaSize slot + metaSize slot ≤ x.b.spadSize)
    (hdst : x.k.vd.toNat + e * size + u * size ≤ x.b.spadSize) (hb : x.b.spadSize ≤ 2 ^ 32) :
    let c := (x.s.core x.core).spad
    let latch := readMeta slot (c.nat (x.b.spadBase + (x.k.vc.toNat + e / slotGroup slot * metaSize slot)) (metaSize slot))
    let vs := (elemsFrom (slotBits slot) u (c.bytes (x.b.spadBase + (x.k.va.toNat + e * slotBits slot / 8))
      (planeBytes (slotBits slot) u))).map fun q => elemValue slot q latch
    dqzStep x = .go
      (x.s.mapCore x.core fun k => { k with
        spad := c.put (x.b.spadBase + (x.k.vd.toNat + e * size)) (vs.flatMap fun v => bytesOfNat size (rnd f .std v)) })
      { x.k with progress := e + u, finished := decide (n ≤ e + u), page := none } := by
  intro c latch vs
  have hsize : 0 < size := by have h := valueFmt_size x.k; rwa [hv] at h
  have hlen : (vs.flatMap fun v => bytesOfNat size (rnd f .std v)).length = u * size := by
    simp [vs, elemsFrom, List.length_flatMap, Function.comp_def]
  have hpos : 0 < u * size := Nat.mul_pos (hu ▸ unitOf_pos slot (Nat.sub_pos_of_lt hlt)) hsize
  rw [dqzStep]
  simp only [hv, hslot, hn, he, hu, hbad, Bool.false_eq_true, if_false, if_neg (Nat.ne_of_gt (Nat.zero_lt_of_lt hlt))]
  rw [hss, hds, CmdCtx.slotValues_spad slot hsrc hm hb, x.write_spad hdst hb hpos hlen]
  rfl

/-! ## RQZ (R258) -/

/-- The values of a unit whose planes are found. -/
theorem CmdCtx.slotValues_found {x : CmdCtx} {slot : Word} {sp a m e u : Nat} {qs ms : List (EngLoc × Nat)}
    (hq : x.find sp true false (a + e * slotBits slot / 8) (planeBytes (slotBits slot) u) = .ok qs)
    (hm : (x.used sp true (a + e * slotBits slot / 8) (planeBytes (slotBits slot) u) qs).find sp true false
      (m + e / slotGroup slot * metaSize slot) (metaSize slot) = .ok ms) (next : CmdCtx → List Num → CmdStep) :
    let y := x.used sp true (a + e * slotBits slot / 8) (planeBytes (slotBits slot) u) qs
    x.slotValues slot sp a m e u next = next (y.used sp true (m + e / slotGroup slot * metaSize slot) (metaSize slot) ms)
      ((elemsFrom (slotBits slot) u (readAll x.s x.core qs)).map fun q =>
        elemValue slot q (readMeta slot (natOfBytes (readAll y.s y.core ms)))) := by
  simp only [CmdCtx.slotValues, CmdCtx.read, hq, hm]

/-- A run of elements that lies in one group is read at once. -/
theorem manyValues_group {slot : Word} {sp a m : Nat} {next : CmdCtx → List Num → CmdStep} (fuel : Nat) (x : CmdCtx) {e u : Nat}
    (hs : slotScale slot ≠ 0) (hu : 0 < u) (hg : e % slotGroup slot + u ≤ slotGroup slot) :
    manyValues slot sp a m next (fuel + 2) x e u [] = x.slotValues slot sp a m e u next := by
  have hmin : min u (slotGroup slot - e % slotGroup slot) = u := by omega
  simp only [manyValues, if_neg (Nat.ne_of_gt hu), if_neg hs, hmin, Nat.sub_self, if_true, List.nil_append]

/-- The element plane and the metadata of n elements of a slot, each with its bytes. -/
def slotPlanes (slot : Word) (n a m : Nat) : List (Nat × Nat) :=
  [(a, planeBytes (slotBits slot) n), (m, if slotScale slot = 0 then 0 else (n + slotGroup slot - 1) / slotGroup slot * metaSize slot)]

/-- A step of RQZ reads a group of the destination slot and writes it, where the source has it in one group. -/
theorem rqzStep_group {x : CmdCtx} {src dst : Word} (hsrc : x.k.slotOf x.l = src)
    (hdst : slotFormat x.l (x.k.x.mod.extractLsb' 0 3).toNat = dst) {n e u : Nat} (hn : x.k.count = n) (he : x.k.progress = e)
    (hu : unitOf dst (n - e) = u) (hbad : x.k.badControl = false) (hlt : e < n)
    (hmeet : ∀ p ∈ slotPlanes src n x.k.va.toNat x.k.vc.toNat, ∀ q ∈ slotPlanes dst n x.k.vd.toNat x.k.vd1.toNat,
      p.2 ≠ 0 → q.2 ≠ 0 → rangesMeet 1 p.1 p.2 1 q.1 q.2 = false)
    (hs : slotScale src ≠ 0) (hg : e % slotGroup src + u ≤ slotGroup src) :
    rqzStep x = x.slotValues src 1 x.k.va.toNat x.k.vc.toNat e u fun y vs => y.putUnit dst 1 x.k.vd.toNat x.k.vd1.toNat e vs n := by
  have hupos : 0 < u := hu ▸ unitOf_pos dst (Nat.sub_pos_of_lt hlt)
  have hoverlap : ((slotPlanes src n x.k.va.toNat x.k.vc.toNat).any fun p =>
      (slotPlanes dst n x.k.vd.toNat x.k.vd1.toNat).any fun q =>
        p.2 != 0 && q.2 != 0 && rangesMeet 1 p.1 p.2 1 q.1 q.2) = false := by
    refine List.any_eq_false.2 fun p hp => ?_
    rw [Bool.not_eq_true]
    refine List.any_eq_false.2 fun q hq hall => ?_
    simp only [Bool.and_eq_true, bne_iff_ne] at hall
    obtain ⟨⟨hp0, hq0⟩, hr⟩ := hall
    exact absurd hr (by simp [hmeet p hp q hq hp0 hq0])
  simp only [slotPlanes] at hoverlap
  rw [rqzStep]
  simp only [hsrc, hdst, hn, he, hu, hbad, hoverlap, Bool.or_self, Bool.false_eq_true, if_false,
    if_neg (Nat.ne_of_gt (Nat.zero_lt_of_lt hlt))]
  exact manyValues_group 8 x hs hupos hg

/-- The same where every place is found: the group's values, quantised for the destination slot, go to its planes. -/
theorem rqzStep_found {x : CmdCtx} {src dst : Word} {n e u : Nat} {ss sm ds dm : List (EngLoc × Nat)} {vs : List Num}
    (hstep : rqzStep x = x.slotValues src 1 x.k.va.toNat x.k.vc.toNat e u fun y vs =>
      y.putUnit dst 1 x.k.vd.toNat x.k.vd1.toNat e vs n) (hscaled : slotScale dst ≠ 0)
    (hss : x.find 1 true false (x.k.va.toNat + e * slotBits src / 8) (planeBytes (slotBits src) u) = .ok ss) {x1 y : CmdCtx}
    (hx1 : x.used 1 true (x.k.va.toNat + e * slotBits src / 8) (planeBytes (slotBits src) u) ss = x1)
    (hsm : x1.find 1 true false (x.k.vc.toNat + e / slotGroup src * metaSize src) (metaSize src) = .ok sm)
    (hy : y = x1.used 1 true (x.k.vc.toNat + e / slotGroup src * metaSize src) (metaSize src) sm)
    (hvs : vs = (elemsFrom (slotBits src) u (readAll x.s x.core ss)).map
      fun q => elemValue src q (readMeta src (natOfBytes (readAll x1.s x.core sm))))
    (hds : y.find 1 false true (x.k.vd.toNat + e * slotBits dst / 8) (planeBytes (slotBits dst) u) = .ok ds)
    (hdm : y.find 1 false true (x.k.vd1.toNat + e / slotGroup dst * metaSize dst) (metaSize dst) = .ok dm) :
    let z := ((y.used 1 false (x.k.vd.toNat + e * slotBits dst / 8) (planeBytes (slotBits dst) u) ds).used 1 false
      (x.k.vd1.toNat + e / slotGroup dst * metaSize dst) (metaSize dst) dm).s
    let w := writeAll z x.core .quant x.k.id ds
      (elemBytes (slotBits dst) (quantGroup dst vs).elems (readAll y.s x.core ds))
    let v := writeAll w.1 x.core .quant x.k.id dm (bytesOfNat (metaSize dst) (metaOf dst (quantGroup dst vs)))
    rqzStep x = .go v.1 { x.k with
      progress := e + u, acks := x.k.acks + w.2 + v.2, page := none, finished := decide (n ≤ e + u) } := by
  have hlen : vs.length = u := by simp [hvs, elemsFrom]
  have hput := CmdCtx.putUnit_found (xs := vs) n (hlen.symm ▸ hds) hdm
  simp only [hlen, unitElems, unitEntry, if_neg hscaled] at hput
  subst hx1 hy hvs
  rw [hstep, CmdCtx.slotValues_found hss hsm]
  exact hput

end Sys2Proof.Machine
end

section
/-! PROOF. The results of the engines' steps (06 R251 to R260). -/

namespace Sys2Proof.Machine

/-- Settles O30, clause by clause: each step is the equation of its operation in the scratchpad or at the home. -/
theorem engineResults : Obligations.EngineResults := by
  unfold Obligations.EngineResults
  refine ⟨?cpy, ?cred, ?credSends, fun _ _ _ => rfl, fun _ _ _ _ _ => ⟨rfl, rfl⟩, ?credServed, ?qtz, ?dqz, ?rqz, ?lsend, ?lradd,
    fun _ _ => ⟨rfl, rfl, rfl⟩⟩
  case cpy =>
    rintro x _ _ n ho hs0 hd0 rfl rfl hc hp h4 hn4 hsa4 hda4 hsl hdl hs hd hb hm hw
    have hstep : cmdStep x = cpyStep x := by rw [cmdStep, ho]
    rw [hstep, cpyStep_spad hs0 hd0 hc hp h4 hn4 hsa4 hda4 hsl hdl hs hd hb hm]
    refine ⟨_, _, rfl, rfl, rfl, rfl, rfl, ?_, ?_, fun a => ?_⟩
    · rw [State.core_mapCore_same]; rfl
    · rw [State.core_mapCore_same]; exact Memory.wf_put hw _ _
    · rw [State.core_mapCore_same]
      show Memory.get (Memory.put _ _ _) a = _
      rw [Memory.get_put _ hw, Memory.length_bytes]
      split
      next h => exact Memory.nth_bytes _ _ (by omega)
      next => rfl
  case cred =>
    intro x ho hs0 hd0 ha n e conv anchor
    generalize hf : credForms conv = forms
    obtain ⟨sf, ss, df, ds⟩ := forms
    intro he hn hr hva hvd hsrc hdst hb
    have hstep : cmdStep x = credStep x := by rw [cmdStep, ho]
    rw [hstep, credStep_next hf hr hva hvd ha he hn, hs0, x.read_spad hsrc hb, credPut_spad sf df x _ hd0 hdst hb]
    exact ⟨_, _, rfl, rfl, rfl, ha, rfl, rfl⟩
  case credSends =>
    intro x i r ho hs0 hd1 ha n e conv
    have hsize := credForms_size conv
    generalize hf : credForms conv = forms at hsize
    obtain ⟨sf, ss, df, ds⟩ := forms
    intro he hn hr hva hvd hsrc hb hlt hcore hreg hin hk hrw d hp hq c
    have hstep : cmdStep x = credStep x := by rw [cmdStep, ho]
    have hdie : dieOf x.core < 2 := by unfold dieOf; omega
    rw [hstep, credStep_next hf hr hva hvd ha he hn, hs0, x.read_spad hsrc hb,
      credPut_resident sf df x _ hd1 rfl hsize hvd hlt hreg hin hk hrw hp hq]
    exact ⟨_, rfl, sendCred_sends x.s c hdie⟩
  case credServed =>
    intro x c ho ha hconv
    generalize hf : credForms c.conv = forms
    obtain ⟨sf, ss, df, ds⟩ := forms
    intro h1 hn hr hva hvd hc hp hq hw
    have hstep : cmdStep x = credStep x := by rw [cmdStep, ho]
    rw [hconv] at hf
    rw [hf] at hvd
    have hbytes : credBytes x.s c = bytesOfNat ds (credNew sf df c.anchor (natOfBytes (readHome x.s c.dpa ds)) c.src) := by
      simp only [credBytes, hconv, hf]
    have hserved := serveCred_spec hw c
    simp only [hbytes, bytesOfNat_length] at hserved
    rw [hstep, credStep_away hf hr hva hvd ha h1 hn hc hp hq]
    exact ⟨_, rfl, hserved⟩
  case qtz =>
    intro x ho hs0 hd0 hbad slot n e
    generalize hv : valueFmt x.k = fmt
    obtain ⟨f, size⟩ := fmt
    intro hcount hmax hlt hsrc hdst hm hb
    have hstep : cmdStep x = qtzStep x := by rw [cmdStep, ho]
    rw [hstep, qtzStep_spad hv hs0 hd0 hbad rfl rfl rfl rfl hcount hmax hlt hsrc hdst hm hb]
    exact ⟨_, _, rfl, rfl, rfl, rfl, rfl⟩
  case dqz =>
    intro x ho hs0 hd0 hbad slot n e
    generalize hv : valueFmt x.k = fmt
    obtain ⟨f, size⟩ := fmt
    intro hlt hsrc hm hdst hb
    have hstep : cmdStep x = dqzStep x := by rw [cmdStep, ho]
    rw [hstep, dqzStep_spad hv hs0 hd0 hbad rfl rfl rfl rfl hlt hsrc hm hdst hb]
    exact ⟨_, _, rfl, rfl, rfl, rfl, rfl⟩
  case rqz =>
    intro x vs y src md qs ms ho hbad hlt from_ to_ n e u planes hmeet hsf hst _ hg sa ma da na hss x1 hsm hy hvs hds hdm q z w v
    have hstep : cmdStep x = rqzStep x := by rw [cmdStep, ho]
    have hgroup := rqzStep_group rfl rfl rfl rfl rfl hbad hlt hmeet hsf hg
    have hfound := rqzStep_found hgroup hst hss rfl hsm hy hvs hds hdm
    rw [hstep]
    exact hfound
  case lsend =>
    intro x ho hbad n p sel off m d w src h4 hmax hn4 _ hput hsrc hb hmv
    have hstep : cmdStep x = lsendStep x := by rw [cmdStep, ho]
    rw [hstep]
    exact lsendStep_puts hbad rfl rfl rfl rfl rfl rfl h4 hmax hn4 hput hsrc hb hmv
  case lradd =>
    intro x c ho hbad
    generalize hp : portOf x.k.vd = ports
    obtain ⟨dev, src, port⟩ := ports
    intro hlt hbuf hd hu hbefore hin hb hc hlen
    have hhere : PortChannel.isOf { c with bytes := c.bytes.drop (laddSize x.k) } dev src x.core port = true := by
      have h := List.find?_some hc
      exact h
    rw [lraddElement_adds hp hbad rfl hlt hbuf hd hu hbefore hin hb hc hlen]
    refine ⟨_, _, rfl, rfl, rfl, rfl, rfl, filter_channelsLeft _ hhere, any_channelsLeft _, fun hl => ?_⟩
    exact congrArg (Option.map _) (find_channelsLeft _ hhere hl)

end Sys2Proof.Machine
end

section
/-! PROOF. What class V instructions call, and the integer results (04 R138 to R140, R144). -/

namespace Sys2Proof.Machine

/-! ## What `exec` calls -/

theorem integerForm_exec {i : Instr} {w : Base} {e : ExtRI} {op : IntOp} (h : integerForm i = some (w, e, op)) (s : State) :
    exec i s = intOp s i w e op := by
  unfold integerForm at h; split at h <;> cases h <;> rfl

theorem bitForm_exec {i : Instr} {w : Base} {e : ExtRI} {op : BitOp} (h : bitForm i = some (w, e, op)) (s : State) :
    exec i s = bitOp s i w e op := by
  unfold bitForm at h; split at h <;> cases h <;> rfl

/-- An instruction of one result a lane writes that result, and its run goes on (R139, R140). -/
theorem laneOp_executes {s : State} {x : Issuer} {i : Instr} (h : Executes s x i) (w : Base) (e : ExtRI)
    (f : FpMode → VSrc → Nat → Nat) :
    laneOp s i w e f = .next (goesOn (putResult s x (activeOf x i) (srcOf s x w e).sd w.d.toNat (srcOf s x w e).type
      (f (fpMode x) (srcOf s x w e))) x i) := runInstr_done h rfl

/-- One result a lane given in another way is the same result. -/
theorem next_putResult_congr {s : State} {x : Issuer} {i : Instr} {m : LaneMask} {sd : Bool} {d t : Nat} {f g : Nat → Nat}
    (h : ∀ l, f l = g l) :
    (.next (goesOn (putResult s x m sd d t f) x i) : Host.Outcome State Fault Refusal) =
      .next (goesOn (putResult s x m sd d t g) x i) := by
  rw [funext h]

/-! ## Integers -/

theorem clampI_eq_max_min {z lo hi : Int} (h : lo ≤ hi) : clampI z lo hi = max lo (min z hi) := by
  unfold clampI
  split
  · omega
  · split <;> omega

theorem intMin_le_intMax (sg : Bool) (n : Nat) : intMin sg n ≤ intMax sg n := by
  have h1 : (0 : Int) < 2 ^ n := by positivity
  have h2 : (0 : Int) < 2 ^ (n - 1) := by positivity
  unfold intMin intMax
  split <;> omega

/-- The integer result is the exact one, clamped where the opcode saturates, and wrapped (R144). -/
theorem intResult_eq (op : IntOp) (t : Nat) (sat : Bool) (a b c : Nat) :
    intResult op t sat a b c =
      let n := typeBits t
      let sg := signedType t
      let v := op.exact n (readInt sg n a) (readInt sg n b) (readInt sg n c)
      ((if sat && op.saturates then max (intMin sg n) (min v (intMax sg n)) else v) % 2 ^ n).toNat := by
  rw [intResult, wrapInt, clampI_eq_max_min (intMin_le_intMax _ _)]

/-- Settles O1: the result of each operation on the integers of the sources. -/
theorem integerArithmeticResult : Obligations.IntegerArithmeticResult := by
  intro s x i w e op hi hx v n sg z sat
  rw [integerForm_exec hi, intOp, laneOp_executes hx]
  refine next_putResult_congr fun l => ?_
  have hz : op.exact n (readInt sg n (v.a l)) (readInt sg n (v.b l)) (readInt sg n (v.c l)) = z l := by
    cases op
    case min => exact (min_def _ _).symm
    case max => exact (max_def _ _).symm
    case abs => exact (Int.abs_eq_natAbs _).symm
    case sad => exact congrArg (· + _) (Int.abs_eq_natAbs _).symm
    all_goals rfl
  have hs : (v.mod.testBit 0 && op.saturates) = sat := by cases op <;> rfl
  rw [intResult_eq, ← hs, ← hz]

end Sys2Proof.Machine
end

section
/-! PROOF. Logic, shifts and bit fields: the results on patterns, and what BREV makes of every bit (04 R145). -/

namespace Sys2Proof.Machine

/-- The number of 1 bits, counted bit by bit. -/
theorem popCount_eq_length (n : Nat) : ∀ a, popCount n a = ((List.range n).filter fun j => a.testBit j).length := by
  induction n with
  | zero => exact fun _ => rfl
  | succ n ih =>
    intro a
    have hshift : ((List.range n).filter fun j => (a / 2).testBit j).length =
        (((List.range n).map Nat.succ).filter fun j => a.testBit j).length := by
      simp [List.filter_map, Function.comp_def, Nat.testBit_succ]
    rw [popCount, ih, hshift, List.range_succ_eq_map, List.filter_cons, Nat.testBit_zero]
    rcases Nat.mod_two_eq_zero_or_one a with h | h <;> simp [h, Nat.add_comm]

theorem bitReverse_lt (n : Nat) : ∀ a, bitReverse n a < 2 ^ n := by
  induction n with
  | zero => exact fun _ => Nat.one_pos
  | succ n ih =>
    intro a
    have hr := ih (a / 2)
    have hb : a % 2 * 2 ^ n ≤ 2 ^ n := by
      rcases Nat.mod_two_eq_zero_or_one a with h | h <;> simp [h]
    rw [bitReverse, pow_succ]
    omega

/-- Bit j of a reversed pattern is bit n − 1 − j of the pattern. -/
theorem testBit_bitReverse (n : Nat) : ∀ a j, (bitReverse n a).testBit j = (decide (j < n) && a.testBit (n - 1 - j)) := by
  induction n with
  | zero => intro a j; simp [bitReverse]
  | succ n ih =>
    intro a j
    rw [bitReverse, Nat.mul_comm, Nat.testBit_two_pow_mul_add _ (bitReverse_lt n _), ih]
    rcases Nat.lt_trichotomy j n with h | rfl | h
    · rw [if_pos h, ← Nat.testBit_succ, show (n - 1 - j).succ = n + 1 - 1 - j by omega]
      simp [h, h.trans n.lt_succ_self]
    · simp
    · have hbit : a % 2 < 2 ^ (j - n) := (Nat.mod_lt a two_pos).trans_le (Nat.le_self_pow (by omega) 2)
      rw [if_neg h.asymm, Nat.testBit_eq_false_of_lt hbit]
      simp [show ¬ j < n + 1 by omega]

/-- PERM's result is its four bytes. -/
theorem permByte_bytes (ab c : Nat) :
    permByte ab c 0 + 256 * permByte ab c 1 + 65536 * permByte ab c 2 + 16777216 * permByte ab c 3 =
      natOfBytes ((List.range 4).map fun j =>
        if 8 ≤ c / 16 ^ j % 16 then 0#8 else BitVec.ofNat 8 (ab / 256 ^ (c / 16 ^ j % 16 % 8))) := by
  have hbyte : ∀ j, (if 8 ≤ c / 16 ^ j % 16 then 0#8 else BitVec.ofNat 8 (ab / 256 ^ (c / 16 ^ j % 16 % 8))).toNat =
      permByte ab c j := by
    intro j
    unfold permByte
    split
    next h => simp [h]
    next h => simp [h]
  have hrange : List.range 4 = [0, 1, 2, 3] := rfl
  simp only [hrange, List.map_cons, List.map_nil, natOfBytes, hbyte]
  omega

theorem typeBits_pos (t : Nat) : 0 < typeBits t := by
  unfold typeBits; split <;> decide

/-- Settles O2: each operation on the patterns of the sources, and BREV bit by bit. -/
theorem bitwiseAndShiftResult : Obligations.BitwiseAndShiftResult := by
  refine ⟨fun s x i w e op hi hx => ?_, testBit_bitReverse⟩
  intro v n r
  rw [bitForm_exec hi, bitOp, laneOp_executes hx]
  refine next_putResult_congr fun l => ?_
  have hn : 0 < n := typeBits_pos _
  cases op
  case popc => exact popCount_eq_length _ _
  case perm => exact permByte_bytes _ _
  case sar =>
    have hk : (if v.b l % 256 < n then v.b l % 256 else n - 1) = min (v.b l % 256) (n - 1) := by split <;> omega
    exact congrArg (fun k => wrapInt (readInt true n (v.a l) / 2 ^ k) n) hk
  case bfx => simp only [bitResult, r, Bool.and_eq_true, decide_eq_true_eq]; rfl
  all_goals rfl

end Sys2Proof.Machine
end

section
/-! PROOF. The results of float instructions and of long operations (04 R153 to R159). -/

namespace Sys2Proof.Machine

/-! ## What `exec` calls -/

/-- The value of an FP32 operation on the sources of a lane (04 R153, R154, R156). -/
def FpOp.value (op : FpOp) (md : FpMode) (v : VSrc) (l : Nat) : Nat :=
  match op with
  | .add => fpAdd md .fp32 (v.a l) (v.b l)
  | .sub => fpSub md .fp32 (v.a l) (v.b l)
  | .mul => fpMul md .fp32 (v.a l) (v.b l)
  | .fma => fpFma md .fp32 (v.a l) (v.b l) (v.c l)
  | .min => fpMinMax md .fp32 false (v.a l) (v.b l)
  | .max => fpMinMax md .fp32 true (v.a l) (v.b l)
  | .integral => fpIntegral md (match v.mod with | 1 => .rne | 2 => .rtz | 3 => .rup | 4 => .rdn | _ => md.rm) (v.a l)

/-- The value of a packed operation on one pair of elements (04 R157). -/
def FpOp.half (op : FpOp) (md : FpMode) (f : FFmt) (a b c : Nat) : Nat :=
  match op with
  | .add => fpAdd md f a b
  | .mul => fpMul md f a b
  | _ => fpFma md f a b c

theorem floatForm_exec {i : Instr} {w : Base} {e : ExtRI} {op : FpOp} (h : floatForm i = some (w, e, op)) (s : State) :
    exec i s = laneOp s i w e op.value := by
  unfold floatForm at h; split at h <;> cases h <;> rfl

theorem halfForm_exec {i : Instr} {w : Base} {e : ExtR} {op : FpOp} (h : halfForm i = some (w, e, op)) (s : State) :
    exec i s = halfOp s i w e op.half := by
  unfold halfForm at h; split at h <;> cases h <;> rfl

theorem longForm_exec {i : Instr} {w : Base} {e : ExtR} {fn : LongFn} (h : longForm i = some (w, e, fn)) (s : State) :
    exec i s = longInstr s i w e fn := by
  unfold longForm at h; split at h <;> cases h <;> rfl

/-- FSCL writes its source scaled, as a float (R155). -/
theorem fscl_executes {s : State} {x : Issuer} {i : Instr} (h : Executes s x i) (w : Base) (e : ExtRI) :
    fscl s i w e = .next (goesOn (putResult s x (activeOf x i) (srcOf s x w e).sd w.d.toNat 9 fun l =>
      fpScale (fpMode x) ((srcOf s x w e).a l) (readInt true 32 ((srcOf s x w e).b l))) x i) := runInstr_done h rfl

/-- Settles O3: one rounding of the exact value, and the NaN of the operands; packed pairs half by half. -/
theorem floatArithmeticResult : Obligations.FloatArithmeticResult := by
  refine ⟨fun s x i w e op hi hx => ?_, fun s x i w e hi hx => ?_, fun s x i w e op hi hx => ?_⟩
  · intro v md once down r
    rw [floatForm_exec hi, laneOp_executes hx]
    exact next_putResult_congr fun l => by cases op <;> rfl
  · rw [fsclForm_exec hi, fscl_executes hx]
    rfl
  · intro v md f r
    rw [halfForm_exec hi, halfOp, laneOp_executes hx]
    refine next_putResult_congr fun l => ?_
    have hr : op.half md f = r := by cases op <;> rfl
    rw [← hr]
    rfl

/-! ## Long operations -/

/-- Settles O4: the issue only adds the pending operation, and the landing writes what that operation holds. -/
theorem longOperationIssuesAndLands : Obligations.LongOperationIssuesAndLands := by
  refine ⟨fun s x i w e fn hi hx => ?_, fun s g win ws sc hg hp => ?_⟩
  · rw [longForm_exec hi, longInstr, runInstr_done hx rfl]
    rfl
  · have hland : exec .longOpLand s = .next (landLong s s.sel.core s.sel.slot s.sel.id) := rfl
    simp only [hland, landLong, hg, hp] <;> rfl

end Sys2Proof.Machine
end

section
/-! PROOF. Moves, selects, addresses, predicates and conversions (04 R146 to R152, R160, R161, R165). -/

namespace Sys2Proof.Machine

/-! ## What `exec` calls -/

theorem movForm_exec {i : Instr} {w : Base} {e : ExtR} (h : movForm i = some (w, e)) (s : State) :
    exec i s = laneOp s i w (.r e) fun _ v l => v.a l := by
  unfold movForm at h; split at h <;> cases h <;> rfl

theorem voteForm_exec {i : Instr} {w : Base} {e : ExtR} (h : voteForm i = some (w, e)) (s : State) :
    exec i s = vote s i w e := by
  unfold voteForm at h; split at h <;> cases h <;> rfl

theorem cmpForm_exec {i : Instr} {w : Base} {e : ExtRI} {float : Bool}
    (h : i = .icmp w e ∧ float = false ∨ i = .fcmp w e ∧ float = true) (s : State) : exec i s = compare s i w e float := by
  rcases h with ⟨rfl, rfl⟩ | ⟨rfl, rfl⟩ <;> rfl

theorem exec_sel (w : Base) (e : ExtR) (s : State) : exec (.sel w e) s = select s (.sel w e) w e := rfl
theorem exec_movi (w : Base) (imm : Word) (s : State) : exec (.movi w imm) s = moveImm s (.movi w imm) w imm := rfl
theorem exec_plop (w : Base) (e : ExtR) (s : State) : exec (.plop w e) s = plop s (.plop w e) w e := rfl

theorem sel_executes {s : State} {x : Issuer} {w : Base} {e : ExtR} (h : Executes s x (.sel w e)) :
    exec (.sel w e) s = .next (goesOn (putResult s x (activeOf x (.sel w e)) e.sd w.d.toNat e.type.toNat fun l =>
      if (x.g.pred (e.c.extractLsb' 0 3).toNat).getLsbD l then (srcR s x w e).a l else (srcR s x w e).b l) x (.sel w e)) := by
  rw [exec_sel]
  exact runInstr_done h rfl

/-- The state in which MOVI has written its immediate (R76, R151). -/
def moviPut (s : State) (x : Issuer) (m : LaneMask) (w : Base) (imm : Word) : State :=
  if w.a.getLsbD 0 = true then
    sset s x w.d.toNat (if w.a.getLsbD 2 = true then imm ++ lowWord (x.g.sreg w.d.toNat) else imm.signExtend 64)
  else vsets s x ((lanesOf m).map fun l => (w.d.toNat, l, imm))

theorem movi_executes {s : State} {x : Issuer} {w : Base} {imm : Word} (h : Executes s x (.movi w imm)) :
    exec (.movi w imm) s = .next (goesOn (moviPut s x (activeOf x (.movi w imm)) w imm) x (.movi w imm)) := by
  rw [exec_movi]
  exact runInstr_done h (apply_ite Act.done _ _ _).symm

/-- The address that LEA forms (R152). -/
def leaValue (s : State) (x : Issuer) (w : Base) (e : ExtRI) (l : Nat) : Nat :=
  let v := srcOf s x w e
  match e with
  | .i _ => (v.a l + v.b l) % 2 ^ typeBits v.type
  | .r y => wrapInt ((v.a l : Int) + readInt true 32 (val32 s x y.sb w.b.toNat l).toNat * (2 ^ (y.mod.toNat % 4) : Int))
      (typeBits v.type)

theorem lea_executes {s : State} {x : Issuer} {i : Instr} (h : Executes s x i) (w : Base) (e : ExtRI) :
    lea s i w e = .next (goesOn (putResult s x (activeOf x i) (srcOf s x w e).sd w.d.toNat (srcOf s x w e).type
      (leaValue s x w e)) x i) := by
  rw [lea, runInstr_done h rfl]
  cases e <;> rfl

theorem readInt_word (v : Word) : readInt true 32 v.toNat = v.toInt := by
  have h := v.isLt
  rw [readInt, BitVec.toInt_eq_toNat_cond, Nat.mod_eq_of_lt h]
  simp only [Bool.true_and, decide_eq_true_eq]
  split <;> split <;> omega

theorem leaValue_of_register (s : State) (x : Issuer) (w : Base) (y : ExtR) (l : Nat) :
    leaValue s x w (.r y) l = ((((srcR s x w y).a l : Int) + (val32 s x y.sb w.b.toNat l).toInt * 2 ^ (y.mod.toNat % 4))
      % 2 ^ typeBits (srcR s x w y).type).toNat := by
  rw [leaValue, readInt_word]
  rfl

/-! ## Compares -/

theorem srcPattern_lt (s : State) (x : Issuer) (wide scalar : Bool) (n l : Nat) : srcPattern s x wide scalar n l < 2 ^ 64 := by
  unfold srcPattern
  split
  · exact BitVec.isLt _
  · exact (BitVec.isLt _).trans (by decide)

theorem immPattern_lt (t : Nat) (imm : BitVec 22) : immPattern t imm < 2 ^ 64 := by
  have h := imm.isLt
  unfold immPattern
  split
  · exact BitVec.isLt _
  split
  · exact (BitVec.isLt _).trans (by decide)
  split <;> omega

/-- A value read at issue is that of its lane. -/
theorem at_vals {f : Nat → Nat} {n l : Nat} (hl : l < n) (hf : ∀ l, f l < 2 ^ 64) :
    CmpSrc.at (.vals ((List.range n).map fun l => BitVec.ofNat 64 (f l))) l = f l := by
  rw [CmpSrc.at, nth_map_range_of_lt _ _ hl, BitVec.toNat_ofNat, Nat.mod_eq_of_lt (hf l)]

/-- Predicates written alike in the lanes of a mask are the same. -/
theorem Group.setP_congr (g : Group) (p : Nat) {m a b : LaneMask} (h : ∀ l, m.getLsbD l = true → a.getLsbD l = b.getLsbD l) :
    g.setP p m a = g.setP p m b := by
  have hm : a &&& m = b &&& m := by
    refine BitVec.eq_of_getLsbD_eq fun l _ => ?_
    rw [BitVec.getLsbD_and, BitVec.getLsbD_and]
    cases hml : m.getLsbD l
    · rw [Bool.and_false, Bool.and_false]
    · rw [h l hml]
  rw [Group.setP, hm, Group.setP]

/-- An operand that lies within one that nothing is to write is not to be written either. -/
theorem Group.pendingOpd_of_opd {g : Group} {scalar : Bool} {n k m : Nat} (hk : k ≤ m)
    (h : g.pendingOpd (opd scalar n m) = false) : g.pendingOpd (opd scalar n k) = false := by
  simp only [Group.pendingOpd, List.any_eq_false] at h ⊢
  intro p hp ha
  rw [List.any_eq_true] at ha
  obtain ⟨o, ho, hm⟩ := ha
  refine h p hp (List.any_eq_true.2 ⟨o, ho, ?_⟩)
  cases scalar
  · cases o <;> simp_all [opd, Opd.meets]
    omega
  · exact hm

theorem wideSpan_le_typeSpan (t : Nat) : (if wideType t then 2 else 1) ≤ typeSpan t := by
  unfold wideType typeSpan
  simp only [Bool.or_eq_true, beq_iff_eq]
  split
  · exact le_rfl
  · split <;> decide

/-- A source of a compare that nothing is to write has been read. -/
theorem cmpSrc_of_landed {s : State} {x : Issuer} {t n : Nat} {scalar : Bool}
    (h : x.g.pendingOpd (opd scalar n (typeSpan t)) = false) : cmpSrc s x (wideType t) scalar n =
      .vals ((List.range x.g.width).map fun l => BitVec.ofNat 64 (srcPattern s x (wideType t) scalar n l)) := by
  rw [cmpSrc, Group.pendingOpd_of_opd (wideSpan_le_typeSpan t) h]
  rfl

/-- The compare that ICMP or FCMP makes at issue (R146, R147). -/
def cmpAt (s : State) (x : Issuer) (m : LaneMask) (w : Base) (e : ExtRI) (float : Bool) : PendingCmp :=
  let (t, sd, sa) : BitVec 5 × Bool × Bool := match e with | .r y => (y.type, y.sd, y.sa) | .i y => (y.type, y.sd, y.sa)
  { float := float, type := t, cond := (w.d.extractLsb' 3 4).toNat, pred := (w.d.extractLsb' 0 3).toNat, scalar := sd
    lanes := if sd then x.run.exec else m, a := cmpSrc s x (wideType t.toNat) sa w.a.toNat
    b := match e with
      | .r y => cmpSrc s x (wideType t.toNat) y.sb w.b.toNat
      | .i y => .vals ((List.range x.g.width).map fun _ => BitVec.ofNat 64 (immPattern t.toNat y.imm))
    mode := x.g.modeNow, win := x.g.winmap }

/-- The operands that a compare reads. -/
theorem cmp_reads {x : Issuer} {i : Instr} {w : Base} {e : ExtRI} {float : Bool}
    (hi : i = .icmp w e ∧ float = false ∨ i = .fcmp w e ∧ float = true) : (infoOf (checkEnv x.g x.l) i).reads =
      match e with
      | .r y => [opd y.sa w.a.toNat (typeSpan y.type.toNat), opd y.sb w.b.toNat (typeSpan y.type.toNat)]
      | .i y => [opd y.sa w.a.toNat (typeSpan y.type.toNat)] := by
  rcases hi with ⟨rfl, rfl⟩ | ⟨rfl, rfl⟩ <;> cases e <;> rfl

/-- A compare whose sources have landed has read both. -/
theorem cmpAt_landed {s : State} {x : Issuer} {i : Instr} (m : LaneMask) {w : Base} {e : ExtRI} {float : Bool}
    (hi : i = .icmp w e ∧ float = false ∨ i = .fcmp w e ∧ float = true)
    (hp : ∀ o ∈ (infoOf (checkEnv x.g x.l) i).reads, x.g.pendingOpd o = false) :
    (cmpAt s x m w e float).a = .vals ((List.range x.g.width).map fun l => BitVec.ofNat 64 ((srcOf s x w e).a l)) ∧
    (cmpAt s x m w e float).b = .vals ((List.range x.g.width).map fun l => BitVec.ofNat 64 ((srcOf s x w e).b l)) := by
  rw [cmp_reads hi] at hp
  cases e with
  | r y => exact ⟨cmpSrc_of_landed (hp _ (by simp)), cmpSrc_of_landed (hp _ (by simp))⟩
  | i y => exact ⟨cmpSrc_of_landed (hp _ (by simp)), rfl⟩

/-- A compare whose sources have landed writes its predicate at once. -/
theorem compare_executes {s : State} {x : Issuer} {i : Instr} (h : Executes s x i) {w : Base} {e : ExtRI} {float : Bool}
    (hi : i = .icmp w e ∧ float = false ∨ i = .fcmp w e ∧ float = true)
    (hp : ∀ o ∈ (infoOf (checkEnv x.g x.l) i).reads, x.g.pendingOpd o = false) : let k := cmpAt s x (activeOf x i) w e float
    compare s i w e float = .next (goesOn (s.mapGroup x.core x.slot fun g => g.setP k.pred k.lanes k.result) x i) := by
  intro k
  obtain ⟨ha, hb⟩ := cmpAt_landed (s := s) (activeOf x i) hi hp
  have hn : (k.a.isPending || k.b.isPending) = false := by rw [ha, hb]; rfl
  refine runInstr_done h ?_
  cases e <;> exact if_neg (Bool.eq_false_iff.1 hn)

/-- The condition in a lane of the width. -/
theorem cmpAt_cond {s : State} {x : Issuer} {i : Instr} (m : LaneMask) {w : Base} {e : ExtRI} {float : Bool}
    (hi : i = .icmp w e ∧ float = false ∨ i = .fcmp w e ∧ float = true)
    (hp : ∀ o ∈ (infoOf (checkEnv x.g x.l) i).reads, x.g.pendingOpd o = false) {l : Nat} (hl : l < x.g.width) :
    let k := cmpAt s x m w e float
    let v := srcOf s x w e
    cmpResult (FpMode.ofWord k.mode) k.float k.type.toNat k.cond (k.a.at l) (k.b.at l) =
      cmpResult (FpMode.ofWord x.g.modeNow) float v.type (w.d.extractLsb' 3 4).toNat (v.a l) (v.b l) := by
  intro k v
  obtain ⟨ha, hb⟩ := cmpAt_landed (s := s) m hi hp
  have hva : ∀ l, v.a l < 2 ^ 64 := by intro l; cases e <;> exact srcPattern_lt ..
  have hvb : ∀ l, v.b l < 2 ^ 64 := by
    intro l
    cases e
    · exact srcPattern_lt ..
    · exact immPattern_lt ..
  rw [ha, hb, at_vals hl hva, at_vals hl hvb]
  cases e <;> rfl

/-! ## Lanes of a set -/

theorem mem_lanesOf {m : LaneMask} {l : Nat} : l ∈ lanesOf m ↔ m.getLsbD l = true := by
  simp only [lanesOf, List.mem_filter, List.mem_range, and_iff_right_iff_imp]
  exact BitVec.lt_of_getLsbD

theorem lanesOf_ne_nil {m : LaneMask} (h : m ≠ 0#64) : lanesOf m ≠ [] := by
  refine fun he => h (BitVec.eq_of_getLsbD_eq fun l _ => ?_)
  have hl : l ∉ lanesOf m := by rw [he]; exact List.not_mem_nil
  rw [mem_lanesOf, Bool.not_eq_true] at hl
  rw [hl, BitVec.getLsbD_zero]

/-- The elected lane of a set that is not empty lies in it. -/
theorem getLsbD_elect {m : LaneMask} (h : m ≠ 0#64) : m.getLsbD (elect m) = true := by
  obtain ⟨l, ls, hl⟩ := List.exists_cons_of_ne_nil (lanesOf_ne_nil h)
  rw [elect, lowest, hl]
  exact mem_lanesOf.1 (by simp [hl])

/-- An active lane executes. -/
theorem getLsbD_of_activeOf {x : Issuer} {i : Instr} {l : Nat} (h : (activeOf x i).getLsbD l = true) :
    x.run.exec.getLsbD l = true := by
  simp only [activeOf, BitVec.getLsbD_and, Bool.and_eq_true] at h
  exact h.1

theorem exec_ne_zero {x : Issuer} {i : Instr} (h : activeOf x i ≠ 0#64) : x.run.exec ≠ 0#64 := fun he =>
  h (BitVec.eq_of_getLsbD_eq fun l _ => by
    refine Bool.eq_iff_iff.2 ⟨fun hl => ?_, fun hl => by simp at hl⟩
    rw [← he]
    exact getLsbD_of_activeOf hl)

/-- A vote's result: all, any, or all alike (R165). -/
theorem voteResult_eq (mode : Nat) (m p : LaneMask) : voteResult mode m p =
    if mode = 0 then decide (m &&& p = m)
    else if mode = 1 then decide (m &&& p ≠ 0#64)
    else decide (m &&& p = m) || decide (m &&& p = 0#64) := by
  rcases mode with _ | _ | n
  · rfl
  · rw [if_neg (by omega), if_pos rfl, decide_not]
    rfl
  · rw [if_neg (by omega), if_neg (by omega)]
    rfl

/-- Settles O5: each instruction by the state its body makes; a compare by the condition of the lanes that take it. -/
theorem moveSelectAndAddressResult : Obligations.MoveSelectAndAddressResult := by
  refine ⟨⟨fun s x i w e hi hx => ?mov, fun s x w e hx => sel_executes hx, fun s x w imm hx => movi_executes hx,
    fun s x i w e hi hx => ?lea⟩, fun s x i w e float hi hx => ?cmp, fun s x w e hx => ?plop, fun s x i w e hi hx => ?vote⟩
  case mov =>
    rw [movForm_exec hi, laneOp_executes hx]
    rfl
  case lea =>
    rw [leaForm_exec hi, lea_executes hx]
    refine next_putResult_congr fun l => ?_
    cases e with
    | r y => exact leaValue_of_register s x w y l
    | i y => rfl
  case cmp =>
    intro v hp hw holds
    let k := cmpAt s x (activeOf x i) w e float
    have hcond : ∀ {l}, x.run.exec.getLsbD l = true → _ = holds l := fun hl => cmpAt_cond (activeOf x i) hi hp (hw _ hl)
    have hsd : k.scalar = v.sd := by cases e <;> rfl
    have hpred : k.pred = (w.d.extractLsb' 0 3).toNat := by cases e <;> rfl
    have hlanes : k.lanes = if v.sd then x.run.exec else activeOf x i := by cases e <;> rfl
    have hset : (fun g : Group => g.setP k.pred k.lanes k.result) = fun g =>
        if v.sd then g.setP (w.d.extractLsb' 0 3).toNat x.run.exec (allIf (holds (elect x.run.exec)))
        else g.setP (w.d.extractLsb' 0 3).toNat (activeOf x i) (maskBy holds) := by
      funext g
      rw [PendingCmp.result, hsd, hpred, hlanes]
      split
      · exact congrArg (fun b => g.setP _ _ (allIf b)) (hcond (getLsbD_elect (exec_ne_zero hx.2.1)))
      · refine g.setP_congr _ fun l hl => ?_
        rw [getLsbD_maskBy _ (BitVec.lt_of_getLsbD hl), getLsbD_maskBy _ (BitVec.lt_of_getLsbD hl)]
        exact hcond (getLsbD_of_activeOf hl)
    rw [cmpForm_exec hi, compare_executes hx hi hp, hset]
  case plop =>
    rw [exec_plop, plop, runInstr_done hx rfl]
    rfl
  case vote =>
    intro m p r
    rw [voteForm_exec hi, vote, runInstr_done hx rfl, voteResult_eq]
    rfl

end Sys2Proof.Machine
end

section
/-! PROOF. Conversions and what lanes give each other (04 R160 to R167). -/

namespace Sys2Proof.Machine

theorem exec_cvt (w : Base) (e : ExtR) (s : State) : exec (.cvt w e) s = convert s (.cvt w e) w e := rfl
theorem exec_cvtp (w : Base) (e : ExtR) (s : State) : exec (.cvtp w e) s = convertPair s (.cvtp w e) w e := rfl
theorem exec_vrand (w : Base) (e : ExtR) (s : State) : exec (.vrand w e) s = vrandInstr s (.vrand w e) w e := rfl

/-! ## Conversions -/

/-- The registers that a result of CVT fills, word by word from the lowest (R160). -/
theorem cvtWrites_eq (t d l v : Nat) : cvtWrites t d l v =
    if t = 15 then (List.range 3).map fun j => (d + j, l, BitVec.ofNat 32 (v / 2 ^ (32 * j)))
    else if t = 3 ∨ t = 7 then (List.range 2).map fun j => (d + j, l, BitVec.ofNat 32 (v / 2 ^ (32 * j)))
    else [(d, l, BitVec.ofNat 32 v)] := by
  have h3 : List.range 3 = [0, 1, 2] := rfl
  have h2 : List.range 2 = [0, 1] := rfl
  unfold cvtWrites laneWrites wideType
  simp only [Bool.or_eq_true, beq_iff_eq]
  split
  · simp [h3]
  · split
    · simp [h2]
    · rfl

/-- The value that CVT makes of its sources in a lane (R160). -/
def cvtValue (s : State) (x : Issuer) (w : Base) (e : ExtR) (l : Nat) : Nat :=
  cvt (fpMode x) (cvtRnd x (e.mod.getLsbD 5) (val32 s x e.sc e.c.toNat l).toNat) (tyKind x.l.rec_.formats e.type.toNat)
    (tyKind x.l.rec_.formats (e.mod.extractLsb' 0 5).toNat) ((val32 s x e.sb w.b.toNat l).toNat % 256)
    (cvtSrc s x e.type.toNat e.sa w.a.toNat l)

/-- The state in which CVT has written its result. -/
def cvtPut (s : State) (x : Issuer) (m : LaneMask) (w : Base) (e : ExtR) : State :=
  if e.sd = true then sset s x w.d.toNat (BitVec.ofNat 64 (cvtValue s x w e (elect m)))
  else vsets s x ((lanesOf m).flatMap fun l => cvtWrites (e.mod.extractLsb' 0 5).toNat w.d.toNat l (cvtValue s x w e l))

theorem cvt_executes {s : State} {x : Issuer} {w : Base} {e : ExtR} (h : Executes s x (.cvt w e)) :
    exec (.cvt w e) s = .next (goesOn (cvtPut s x (activeOf x (.cvt w e)) w e) x (.cvt w e)) := by
  rw [exec_cvt]
  exact runInstr_done h (apply_ite Act.done _ _ _).symm

/-- One element of CVTP: a pattern converted with its random bits (R161). -/
def cvtpElem (x : Issuer) (e : ExtR) (u a : Nat) : Nat :=
  cvt (fpMode x) (cvtRnd x (e.mod.getLsbD 5) u) (tyKind [] e.type.toNat) (tyKind [] (e.mod.extractLsb' 0 5).toNat) 0 a

/-- The state in which CVTP has packed two values, or unpacked a pair. -/
def cvtpPut (s : State) (x : Issuer) (m : LaneMask) (w : Base) (e : ExtR) : State :=
  let d := (e.mod.extractLsb' 0 5).toNat
  let half : Nat → Word := fun a =>
    BitVec.ofNat 32 (cvt (fpMode x) (fpMode x).rm (tyKind [] e.type.toNat) (tyKind [] d) 0 a)
  let a := fun l => (val32 s x e.sa w.a.toNat l).toNat
  let b := fun l => (val32 s x e.sb w.b.toNat l).toNat
  let u := fun l => (val32 s x e.sc e.c.toNat l).toNat
  if d = 9 then
    vsets s x ((lanesOf m).flatMap fun l => [(w.d.toNat, l, half (a l % 65536)), (w.d.toNat + 1, l, half (a l / 65536))])
  else putResult s x m e.sd w.d.toNat 9 fun l => cvtpElem x e (u l) (a l)
    + (if d = 10 ∨ d = 11 then 65536 else if d = 14 then 16 else 256) * cvtpElem x e (u l / 65536) (b l)

theorem cvtp_executes {s : State} {x : Issuer} {w : Base} {e : ExtR} (h : Executes s x (.cvtp w e)) :
    exec (.cvtp w e) s = .next (goesOn (cvtpPut s x (activeOf x (.cvtp w e)) w e) x (.cvtp w e)) := by
  rw [exec_cvtp]
  exact runInstr_done h (apply_ite Act.done _ _ _).symm

/-- Settles O6: the registers of each type, and the two elements of a pair. -/
theorem conversionResult : Obligations.ConversionResult := by
  refine ⟨fun s x w e hx => ?_, fun s x w e hx => ?_⟩
  · intro d md r regs
    have hregs : regs = fun l => cvtWrites d w.d.toNat l (r l) := funext fun l => (cvtWrites_eq d _ l (r l)).symm
    rw [cvt_executes hx, hregs]
    rfl
  · rw [cvtp_executes hx]
    rfl

/-! ## Lanes -/

theorem toNat_extractLsb'_high {n k : Nat} (v : BitVec n) (i : Nat) : (v.extractLsb' i k).toNat = v.toNat / 2 ^ i % 2 ^ k := by
  rw [BitVec.extractLsb'_toNat, Nat.shiftRight_eq_div_pow]

/-- The lane whose source SHFL gives, as a number that may lie outside the lanes (R162). -/
def shuffleFrom (mode b l : Nat) : Int :=
  if mode = 0 then b else if mode = 1 then (l : Int) - b else if mode = 2 then (l : Int) + b else ((l ^^^ b : Nat) : Int)

/-- SHFL gives a lane its own source where the named lane is none of the executing ones. -/
theorem shuffleLane_eq (mode width : Nat) (exec : LaneMask) (b l : Nat) : shuffleLane mode width exec b l =
    if 0 ≤ shuffleFrom mode b l ∧ shuffleFrom mode b l < width ∧ exec.getLsbD (shuffleFrom mode b l).toNat = true
    then (shuffleFrom mode b l).toNat else l := by
  have pick : ∀ j : Nat, (if j < width ∧ exec.getLsbD j = true then j else l) =
      if 0 ≤ (j : Int) ∧ (j : Int) < width ∧ exec.getLsbD (j : Int).toNat = true then (j : Int).toNat else l := by
    intro j
    simp only [Int.natCast_nonneg, Int.toNat_natCast, Nat.cast_lt, true_and]
  match mode with
  | 0 => exact pick b
  | 1 =>
    have hfrom : shuffleFrom 1 b l = (l : Int) - b := rfl
    by_cases h : b ≤ l
    · rw [hfrom, ← Nat.cast_sub h, ← pick]
      simp only [shuffleLane, h, if_true]
    · rw [hfrom, if_neg (by omega)]
      simp only [shuffleLane, h, if_false]
  | 2 => exact pick (l + b)
  | n + 3 => exact pick (l ^^^ b)

/-- The mode and the lane operand of SHFL (R162). -/
def shuffleArgs (s : State) (x : Issuer) (w : Base) (e : ExtRI) (l : Nat) : Nat × Nat :=
  match e with
  | .r y => (y.mod.toNat % 4, (srcOf s x w e).b l % 256)
  | .i y => ((y.imm.extractLsb' 8 2).toNat, (y.imm.extractLsb' 0 8).toNat)

theorem shuffle_executes {s : State} {x : Issuer} {i : Instr} (h : Executes s x i) (w : Base) (e : ExtRI) :
    shuffle s i w e = .next (goesOn (putResult s x (activeOf x i) false w.d.toNat 8 fun l => (srcOf s x w e).a
      (shuffleLane (shuffleArgs s x w e l).1 x.g.width x.run.exec (shuffleArgs s x w e l).2 l)) x i) := by
  rw [shuffle, runInstr_done h rfl]
  cases e <;> rfl

theorem ballot_executes {s : State} {x : Issuer} {i : Instr} (h : Executes s x i) (w : Base) (e : ExtR) :
    ballot s i w e = .next (goesOn (putResult s x (activeOf x i) (e.mod.getLsbD 5) w.d.toNat (if x.g.wide then 7 else 8)
      fun _ => (activeOf x i &&& x.g.pred (w.a.extractLsb' 0 3).toNat).toNat) x i) := runInstr_done h rfl

theorem redux_executes {s : State} {x : Issuer} {i : Instr} (h : Executes s x i) (w : Base) (e : ExtR) :
    redux s i w e = .next (goesOn (putResult s x (activeOf x i) (e.mod.getLsbD 5) w.d.toNat e.type.toNat fun _ =>
      combineAll (fpMode x) (e.mod.toNat % 16) e.type.toNat ((lanesOf (activeOf x i)).map (srcR s x w e).a)) x i) :=
  runInstr_done h rfl

theorem scan_executes {s : State} {x : Issuer} {i : Instr} (h : Executes s x i) (w : Base) (e : ExtR) :
    scan s i w e = .next (goesOn (putResult s x (activeOf x i) false w.d.toNat e.type.toNat fun l =>
      combineAll (fpMode x) (e.mod.toNat % 16) e.type.toNat
        (((lanesOf (activeOf x i)).filter fun j => if e.mod.getLsbD 4 then decide (j < l) else decide (j ≤ l)).map
          (srcR s x w e).a)) x i) := runInstr_done h rfl

/-- The lane that BCAST gives, where it executes (R166). -/
def bcastLane (s : State) (x : Issuer) (m : LaneMask) (w : Base) (e : ExtRI) : Nat :=
  match e with | .r _ => (srcOf s x w e).b (elect m) % 256 | .i y => y.imm.toNat

/-- BCAST writes a scalar register. -/
def bcastScalar : ExtRI → Bool
  | .r y => y.mod.getLsbD 5
  | .i _ => false

theorem broadcast_executes {s : State} {x : Issuer} {i : Instr} (h : Executes s x i) (w : Base) (e : ExtRI) :
    let m := activeOf x i
    let k := bcastLane s x m w e
    broadcast s i w e = .next (goesOn (putResult s x m (bcastScalar e) w.d.toNat 8 fun _ =>
      (srcOf s x w e).a (if k < x.g.width ∧ x.run.exec.getLsbD k = true then k else elect m)) x i) := by
  cases e <;> exact runInstr_done h rfl

/-- VRAND writes its words, and its counter advances (R167). -/
theorem vrand_acts {s : State} {x : Issuer} {w : Base} {e : ExtR} (h : Acts s x (.vrand w e)) :
    exec (.vrand w e) s = .next (goesOn
      (sset (vsets s x ((lanesOf (activeOf x (.vrand w e))).map fun l =>
          (w.d.toNat, l, vrand (x.g.sreg w.a.toNat) (globalLane x.l.rec_ x.g.block x.g.index x.g.width l) (x.g.sreg w.b.toNat))))
        x w.b.toNat (x.g.sreg w.b.toNat + 1#64)) x (.vrand w e)) := by
  rw [exec_vrand, vrandInstr, runAlways_acts h]
  rfl

/-- Settles O7: the lane from which each lane takes its value, and the words of VRAND. -/
theorem laneExchangeResult : Obligations.LaneExchangeResult := by
  refine ⟨⟨fun s x i w e hi hx => ?shuffle, fun s x i w e hi hx => ?ballot, fun s x i w e hi hx => ?redux,
    fun s x i w e hi hx => ?scan, fun s x i w e hi hx => ?bcast⟩, fun s x w e hx => vrand_acts hx⟩
  case shuffle =>
    intro v mode b from_
    rw [shuffleForm_exec hi, shuffle_executes hx]
    refine next_putResult_congr fun l => ?_
    have hmode : (shuffleArgs s x w e l).1 = mode := by
      cases e
      · rfl
      · exact toNat_extractLsb'_high ..
    have hb : ((shuffleArgs s x w e l).2 : Int) = b l := by
      cases e
      · rfl
      · exact congrArg Nat.cast (toNat_extractLsb'_byte _)
    have hfrom : shuffleFrom mode (shuffleArgs s x w e l).2 l = from_ l := by
      unfold shuffleFrom
      simp only [from_, ← hb, Int.toNat_natCast]
    rw [shuffleLane_eq, hmode, hfrom]
  case ballot => rw [ballotForm_exec hi, ballot_executes hx]
  case redux =>
    rw [reduxForm_exec hi, redux_executes hx]
    rfl
  case scan =>
    rw [scanForm_exec hi, scan_executes hx]
    rfl
  case bcast =>
    rw [bcastForm_exec hi, broadcast_executes hx]
    cases e <;> rfl

end Sys2Proof.Machine
end

section
/-! PROOF. A result written to registers reads back, and nothing else changes (01 Table 1.2, R17, 04 R139, R140). -/

namespace Sys2Proof.Machine

/-! ## Numbers in memory -/

theorem Memory.nat_congr {m m' : Memory} {a n : Nat} (h : ∀ i, i < n → m'.get (a + i) = m.get (a + i)) :
    m'.nat a n = m.nat a n := by
  have hb : m'.bytes a n = m.bytes a n := List.map_congr_left fun i hi => h i (List.mem_range.1 hi)
  rw [Memory.nat, hb, Memory.nat]

theorem Memory.nat_putNat_same {m : Memory} (h : m.wf = true) (a n x : Nat) : (m.putNat a n x).nat a n = x % 256 ^ n := by
  have hb : (m.putNat a n x).bytes a n = bytesOfNat n x := by
    have hget := Memory.bytes_eq (m := m.putNat a n x) (a := a) (bs := bytesOfNat n x) fun i hi => by
      rw [Memory.putNat, Memory.get_put _ h, if_pos ⟨Nat.le_add_right .., by omega⟩, Nat.add_sub_cancel_left]
    rwa [bytesOfNat_length] at hget
  rw [Memory.nat, hb, natOfBytes_bytesOfNat]

theorem Memory.get_putNat_other {m : Memory} (h : m.wf = true) {a b n : Nat} (x : Nat) (hb : b < a ∨ a + n ≤ b) :
    (m.putNat a n x).get b = m.get b := by
  refine Memory.get_put_other h _ _ _ ?_
  rwa [bytesOfNat_length]

/-! ## Registers in the tiles -/

/-- Two registers of two lanes share no byte of the tiles. -/
def Apart (win : List (Option Nat)) (wide : Bool) (n l k j : Nat) : Prop :=
  ∀ a b, vAddr win wide n l = some a → vAddr win wide k j = some b → a + 4 ≤ b ∨ b + 4 ≤ a

/-- Registers of other lanes, or of other places in their tiles, lie apart. -/
theorem apart_of_ne (win : List (Option Nat)) {wide : Bool} {n l k j : Nat} (hl : l < if wide then 64 else 32)
    (hj : j < if wide then 64 else 32)
    (h : n % (if wide then 32 else 64) ≠ k % (if wide then 32 else 64) ∨ l ≠ j) : Apart win wide n l k j := by
  intro a b ha hb
  simp only [vAddr, Option.map_eq_some_iff] at ha hb
  obtain ⟨t, -, rfl⟩ := ha
  obtain ⟨u, -, rfl⟩ := hb
  unfold vByte
  cases wide
  · simp only [Bool.false_eq_true, if_false] at *
    omega
  · simp only [if_true] at *
    omega

/-- The tiles' bytes after several register writes, in order. -/
def tileWrites (win : List (Option Nat)) (wide : Bool) (ws : List (Nat × Nat × Word)) (m : Memory) : Memory :=
  ws.foldl (fun m w => match vAddr win wide w.1 w.2.1 with | none => m | some a => m.putNat a 4 w.2.2.toNat) m

section
variable {win : List (Option Nat)} {wide : Bool} {m : Memory}

theorem Core.foldl_vWrite (win : List (Option Nat)) (wide : Bool) (ws : List (Nat × Nat × Word)) (c : Core) :
    ws.foldl (fun c w => c.vWrite win wide w.1 w.2.1 w.2.2) c = { c with tileData := tileWrites win wide ws c.tileData } := by
  induction ws generalizing c with
  | nil => rfl
  | cons w ws ih =>
    rw [List.foldl_cons, ih]
    cases h : vAddr win wide w.1 w.2.1 <;> simp only [Core.vWrite, tileWrites, List.foldl_cons, h]

theorem wf_tileWrites (hm : m.wf = true) (ws : List (Nat × Nat × Word)) : (tileWrites win wide ws m).wf = true := by
  refine List.foldlRecOn ws _ (motive := fun m : Memory => m.wf = true) hm fun m hm w _ => ?_
  split
  · exact hm
  · exact Memory.wf_putNat hm _ _ _

/-- A byte of no written register stays. -/
theorem get_tileWrites_other (hm : m.wf = true) {a : Nat} (ws : List (Nat × Nat × Word))
    (h : ∀ w ∈ ws, ∀ b, vAddr win wide w.1 w.2.1 = some b → a < b ∨ b + 4 ≤ a) :
    (tileWrites win wide ws m).get a = m.get a := by
  induction ws generalizing m with
  | nil => rfl
  | cons w ws ih =>
    have hws := fun v hv => h v (List.mem_cons_of_mem _ hv)
    rw [tileWrites, List.foldl_cons]
    cases hw : vAddr win wide w.1 w.2.1 with
    | none => exact ih hm hws
    | some b =>
      exact (ih (Memory.wf_putNat hm _ _ _) hws).trans (Memory.get_putNat_other hm _ (h w List.mem_cons_self b hw))

/-- The word of a register, after writes that each give it one value or lie apart from it. -/
theorem nat_tileWrites (hm : m.wf = true) {n l a : Nat} {v : Word} (ha : vAddr win wide n l = some a)
    (ws : List (Nat × Nat × Word)) (h : ∀ w ∈ ws, w = (n, l, v) ∨ Apart win wide w.1 w.2.1 n l) :
    (tileWrites win wide ws m).nat a 4 = if (n, l, v) ∈ ws then v.toNat else m.nat a 4 := by
  induction ws using List.reverseRecOn with
  | nil => rfl
  | append_singleton ws w ih =>
    have hws := ih fun u hu => h u (List.mem_append_left _ hu)
    have hwf := wf_tileWrites (win := win) (wide := wide) hm ws
    rw [tileWrites, List.foldl_concat, ← tileWrites]
    by_cases hw : w = (n, l, v)
    · subst hw
      simp only [ha]
      rw [Memory.nat_putNat_same hwf, if_pos (by simp)]
      exact Nat.mod_eq_of_lt v.isLt
    · have hmem : ((n, l, v) ∈ ws ++ [w]) ↔ (n, l, v) ∈ ws := by simp [Ne.symm hw]
      have hap := (h w (by simp)).resolve_left hw
      simp only [hmem]
      rw [← hws]
      cases hb : vAddr win wide w.1 w.2.1 with
      | none => rfl
      | some b =>
        refine Memory.nat_congr fun i hi => Memory.get_putNat_other hwf _ ?_
        have := hap b a hb ha
        omega

end

/-! ## Registers through an issuer -/

theorem vsets_eq (s : State) (x : Issuer) (ws : List (Nat × Nat × Word)) : vsets s x ws =
    s.mapCore x.core fun c => { c with tileData := tileWrites x.g.winmap x.g.wide ws c.tileData } := by
  rw [vsets]
  simp only [Core.foldl_vWrite]

@[simp] theorem tileData_vsets (s : State) (x : Issuer) (ws : List (Nat × Nat × Word)) : ((vsets s x ws).core x.core).tileData =
    tileWrites x.g.winmap x.g.wide ws (s.core x.core).tileData := by
  rw [vsets_eq, State.core_mapCore_same]

@[simp] theorem group?_vsets (s : State) (x : Issuer) (ws : List (Nat × Nat × Word)) (n k : Nat) :
    (vsets s x ws).group? n k = s.group? n k := by
  rw [vsets_eq, State.group?, State.group?]
  by_cases h : n = x.core
  · subst h
    rw [State.core_mapCore_same]
    rfl
  · rw [State.core_mapCore_other _ _ _ _ h]

theorem groupOf_issuer {s : State} {x : Issuer} (h : issuer s = some x) : groupOf s x = x.g := by
  rw [groupOf, (issuer_stands h).1, Option.getD_some]

/-- A register bound to a tile holds the word that stands in its bytes. -/
theorem vget_of_tile {s : State} {x : Issuer} {n t : Nat} (hg : groupOf s x = x.g)
    (ht : winTile x.g.winmap (vEntry x.g.wide n) = some t) (l : Nat) : ∃ a, vAddr x.g.winmap x.g.wide n l = some a ∧
      vget s x n l = BitVec.ofNat 32 ((s.core x.core).tileData.nat a 4) := by
  have ha : vAddr x.g.winmap x.g.wide n l = some (t * 8192 + vByte x.g.wide n l) := by rw [vAddr, ht, Option.map_some]
  refine ⟨_, ha, ?_⟩
  rw [vget, hg, Core.vRead, ha]

/-- A register after writes that each give it one value or lie apart from it. -/
theorem vget_vsets {s : State} {x : Issuer} (hx : issuer s = some x) (hm : (s.core x.core).tileData.wf = true) {n l t : Nat}
    {v : Word} (ht : winTile x.g.winmap (vEntry x.g.wide n) = some t) {ws : List (Nat × Nat × Word)}
    (h : ∀ w ∈ ws, w = (n, l, v) ∨ Apart x.g.winmap x.g.wide w.1 w.2.1 n l) :
    vget (vsets s x ws) x n l = if (n, l, v) ∈ ws then v else vget s x n l := by
  have hg : groupOf (vsets s x ws) x = x.g := by rw [groupOf, group?_vsets]; exact groupOf_issuer hx
  obtain ⟨a, ha, hv⟩ := vget_of_tile hg ht l
  obtain ⟨b, hb, hv'⟩ := vget_of_tile (groupOf_issuer hx) ht l
  obtain rfl := Option.some.inj (ha.symm.trans hb)
  rw [hv, hv', tileData_vsets, nat_tileWrites hm ha ws h]
  split
  · rw [BitVec.ofNat_toNat, BitVec.setWidth_eq]
  · rfl

/-! ## A result in vector registers -/

/-- The registers that a result fills in a set of lanes (R139). -/
def resultWrites (m : LaneMask) (d t : Nat) (f : Nat → Nat) : List (Nat × Nat × Word) :=
  (lanesOf m).flatMap fun l => laneWrites (wideType t) d l (f l)

theorem putResult_vector (s : State) (x : Issuer) (m : LaneMask) (d t : Nat) (f : Nat → Nat) :
    putResult s x m false d t f = vsets s x (resultWrites m d t f) := rfl

theorem mem_resultWrites {m : LaneMask} {d t : Nat} {f : Nat → Nat} {w : Nat × Nat × Word} : w ∈ resultWrites m d t f ↔
    ∃ l, m.getLsbD l = true ∧
      (w = (d, l, BitVec.ofNat 32 (f l)) ∨ wideType t = true ∧ w = (d + 1, l, BitVec.ofNat 32 (f l / 2 ^ 32))) := by
  simp only [resultWrites, List.mem_flatMap, mem_lanesOf]
  cases wideType t <;> simp [laneWrites]

section
variable {s : State} {x : Issuer} {m : LaneMask} {d t : Nat} {f : Nat → Nat}

/-- The first register of a result holds it in the lanes of the set, and what it held in the others. -/
theorem vget_putResult_low (hx : issuer s = some x) (hwf : (s.core x.core).tileData.wf = true) {lo : Nat}
    (hlo : winTile x.g.winmap (vEntry x.g.wide d) = some lo) (hm : ∀ l, m.getLsbD l = true → l < x.g.width) {l : Nat}
    (hl : l < x.g.width) : vget (putResult s x m false d t f) x d l =
      if m.getLsbD l then BitVec.ofNat 32 (f l) else vget s x d l := by
  rw [putResult_vector, vget_vsets hx hwf hlo (v := BitVec.ofNat 32 (f l))]
  · have hmem : (d, l, BitVec.ofNat 32 (f l)) ∈ resultWrites m d t f ↔ m.getLsbD l = true := by
      rw [mem_resultWrites]
      simp
    simp only [hmem]
  · intro w hw
    obtain ⟨k, hk, rfl | ⟨-, rfl⟩⟩ := mem_resultWrites.1 hw
    · by_cases e : k = l
      · exact .inl (by rw [e])
      · exact .inr (apart_of_ne _ (hm k hk) hl (.inr e))
    · exact .inr (apart_of_ne _ (hm k hk) hl (.inl (by split <;> omega)))

/-- The second register of a 64-bit result holds its high word. -/
theorem vget_putResult_high (hx : issuer s = some x) (hwf : (s.core x.core).tileData.wf = true) (hw : wideType t = true)
    {hi : Nat} (hhi : winTile x.g.winmap (vEntry x.g.wide (d + 1)) = some hi) (hm : ∀ l, m.getLsbD l = true → l < x.g.width)
    {l : Nat} (hl : l < x.g.width) : vget (putResult s x m false d t f) x (d + 1) l =
      if m.getLsbD l then BitVec.ofNat 32 (f l / 2 ^ 32) else vget s x (d + 1) l := by
  rw [putResult_vector, vget_vsets hx hwf hhi (v := BitVec.ofNat 32 (f l / 2 ^ 32))]
  · have hmem : (d + 1, l, BitVec.ofNat 32 (f l / 2 ^ 32)) ∈ resultWrites m d t f ↔ m.getLsbD l = true := by
      rw [mem_resultWrites]
      simp [hw]
    simp only [hmem]
  · intro w hw
    obtain ⟨k, hk, rfl | ⟨-, rfl⟩⟩ := mem_resultWrites.1 hw
    · exact .inr (apart_of_ne _ (hm k hk) hl (.inl (by split <;> omega)))
    · by_cases e : k = l
      · exact .inl (by rw [e])
      · exact .inr (apart_of_ne _ (hm k hk) hl (.inr e))

/-- A byte that belongs to no register of the result stays. -/
theorem get_putResult_other (hwf : (s.core x.core).tileData.wf = true) {a : Nat} (hlo : ¬laneByte x m d a)
    (hhi : wideType t = true → ¬laneByte x m (d + 1) a) :
    ((putResult s x m false d t f).core x.core).tileData.get a = (s.core x.core).tileData.get a := by
  rw [putResult_vector, tileData_vsets]
  refine get_tileWrites_other hwf _ fun w hw b hb => ?_
  obtain ⟨k, hk, rfl | ⟨ht, rfl⟩⟩ := mem_resultWrites.1 hw
  · by_contra hc
    exact hlo ⟨k, b, hk, hb, by omega, by omega⟩
  · by_contra hc
    exact hhi ht ⟨k, b, hk, hb, by omega, by omega⟩

/-! ## A result in a scalar register -/

theorem groupOf_sset (hx : issuer s = some x) (n : Nat) (v : DWord) : groupOf (sset s x n v) x = x.g.setS n v := by
  rw [groupOf, sset, State.group_mapGroup_same, (issuer_stands hx).1, Option.map_some, Option.getD_some]

theorem Group.sreg_setS_same {g : Group} {n : Nat} (h : n < g.sregs.length) (v : DWord) : (g.setS n v).sreg n = v :=
  nth_setNth_same _ _ _ _ h

theorem Group.sreg_setS_other (g : Group) {n k : Nat} (h : k ≠ n) (v : DWord) : (g.setS n v).sreg k = g.sreg k :=
  nth_setNth_other _ _ _ _ _ h

theorem scalarOf_eq (t v : Nat) : scalarOf t v = if t = 3 ∨ t = 7 then BitVec.ofNat 64 v
    else if t = 2 then (BitVec.ofNat 32 v).signExtend 64 else (BitVec.ofNat 32 v).setWidth 64 := by
  simp only [scalarOf, wideType, Bool.or_eq_true, beq_iff_eq]

end

/-- Settles O10: a read after a write, at the addresses that the window gives. -/
theorem vectorResultReadsBack : Obligations.VectorResultReadsBack := by
  refine ⟨fun s x m d t f lo hx hwf hlo hm => ?_, fun s x m d t f hx hd => ?_⟩
  · exact ⟨fun l hl => vget_putResult_low hx hwf hlo hm hl, fun hi ht hhi l hl => vget_putResult_high hx hwf ht hhi hm hl,
      fun a hlo hhi => get_putResult_other hwf hlo hhi, by
        rw [putResult_vector, tileData_vsets]
        exact wf_tileWrites hwf _⟩
  · intro u
    have hu : groupOf u x = x.g.setS d (scalarOf t (f (elect m))) := groupOf_sset hx _ _
    rw [hu]
    exact ⟨(Group.sreg_setS_same hd _).trans (scalarOf_eq _ _), fun n hn => Group.sreg_setS_other _ hn _⟩

end Sys2Proof.Machine
end

section
/-! PROOF. CONV, LYIELD, PRIO, NOP and EXIT (04 R171 to R175). -/

namespace Sys2Proof.Machine

/-! ## What `exec` calls -/

theorem convForm_exec {i : Instr} (h : convForm i = true) (s : State) : exec i s = converge s i := by
  unfold convForm at h
  split at h
  case h_3 => cases h
  all_goals rfl

theorem lyieldForm_exec {i : Instr} (h : lyieldForm i = true) (s : State) : exec i s = lyield s i := by
  unfold lyieldForm at h
  split at h
  case h_3 => cases h
  all_goals rfl

theorem exitForm_exec {i : Instr} (h : exitForm i = true) (s : State) : exec i s = exitInstr s i := by
  unfold exitForm at h
  split at h
  case h_3 => cases h
  all_goals rfl

theorem nopForm_exec {i : Instr} (h : nopForm i = true) (s : State) : exec i s = nop s i := by
  unfold nopForm at h
  split at h
  case h_3 => cases h
  all_goals rfl

theorem prioForm_exec {i : Instr} {w : Base} (h : prioForm i = some w) (s : State) : exec i s = prio s i w := by
  unfold prioForm at h; split at h <;> cases h <;> rfl

/-! ## Groups changed twice -/

@[simp] theorem Group.setPcs_pcs (g : Group) : g.setPcs g.pcs = g := by
  obtain ⟨launch, block, index, ended, sregs, preds, lpc, lanes, lfr, mode, modeNow, winmap, handler⟩ := g
  cases handler <;> rfl

theorem Core.mapGroup_mapGroup (c : Core) (k : Nat) (f g : Group → Group) :
    (c.mapGroup k f).mapGroup k g = c.mapGroup k fun h => g (f h) := by
  cases hc : c.group? k with
  | none => simp only [Core.mapGroup, hc]
  | some h =>
    have hf : c.mapGroup k f = c.setGroup k (f h) := by simp only [Core.mapGroup, hc]
    have hgf : c.mapGroup k (fun h => g (f h)) = c.setGroup k (g (f h)) := by simp only [Core.mapGroup, hc]
    rw [hf, hgf, Core.mapGroup, Core.group_setGroup_same]
    simp only [Core.setGroup, assocSet_assocSet]

theorem State.mapGroup_mapGroup (s : State) (n k : Nat) (f g : Group → Group) :
    (s.mapGroup n k f).mapGroup n k g = s.mapGroup n k fun h => g (f h) := by
  simp only [State.mapGroup, State.mapCore_mapCore, Core.mapGroup_mapGroup]

/-! ## The token of issue priority -/

/-- The slot that PRIO names may hold the token where it holds a group of this scheduler that has not ended (R174). -/
theorem prioTarget_eq (c : Core) (sched slot : Nat) : prioTarget c sched slot =
    match c.group? slot with
    | some g => if g.ended = false ∧ slot % 4 = sched then some slot else none
    | none => none := by
  unfold prioTarget
  cases c.group? slot with
  | none => rfl
  | some g => cases he : g.ended <;> by_cases hs : slot % 4 = sched <;> simp [he, hs, schedOf]

/-- PRIO moves the token where the group holds it, or nobody does. -/
theorem prio_executes {s : State} {x : Issuer} {i : Instr} (h : Executes s x i) (w : Base) :
    prio s i w = .next (goesOn (s.mapCore x.core fun c => c.mapSched x.sched fun k =>
      if k.holder = none ∨ k.holder = some x.slot then { k with holder := prioTarget c x.sched w.a.toNat } else k) x i) := by
  rw [prio, runInstr_done h rfl]
  congr 3
  funext c
  congr 1
  funext k
  obtain ⟨run, holder, last, streak⟩ := k
  cases holder with
  | none => rfl
  | some h => simp

/-! ## EXIT -/

/-- The state in which the executing lanes stand behind an EXIT and the active ones have left (R171). -/
def exited (s : State) (x : Issuer) (i : Instr) : State :=
  s.mapGroup x.core x.slot fun g => (g.movePcs x.run.exec (afterInstr x i)).exitLanes (activeOf x i)

theorem transfer_none (s : State) (x : Issuer) (i : Instr) (f : Nat → Word) :
    transfer s x i 0#64 f = s.mapGroup x.core x.slot fun g => g.movePcs x.run.exec (afterInstr x i) := by
  simp only [transfer, mapLanes_zero, Group.setPcs_pcs]

theorem endIfExited_eq (s : State) (core slot : Nat) : endIfExited s core slot =
    if (s.group? core slot).any fun g => g.states.all fun l => l == .exited then endGroup s core slot else s := by
  unfold endIfExited
  cases s.group? core slot <;> rfl

theorem exit_acts {s : State} {x : Issuer} {i : Instr} (hi : exitForm i = true) (h : Acts s x i) (hc : convergeTrap x = none) :
    exec i s = .next (endRun (endIfExited (exited s x i) x.core x.slot) x.core x.sched) := by
  have hs : exited s x i = (transfer s x i 0#64 fun _ => 0#32).mapGroup x.core x.slot fun g => g.exitLanes (activeOf x i) := by
    rw [transfer_none, State.mapGroup_mapGroup]
    rfl
  rw [exitForm_exec hi, exitInstr, runAlways_acts h, hc, hs]
  rfl

theorem convergeTrap_of_parked {x : Issuer} {t : Trap} (hh : x.g.handler = none) (ht : laneFaultTrap x.g = some t) :
    convergeTrap x = some t := by
  rw [convergeTrap, hh, ht]
  rfl

/-- Settles O9: each instruction by its own law. -/
theorem convergeYieldPriorityNop : Obligations.ConvergeYieldPriorityNop := by
  refine ⟨⟨fun s x i hi hx => ?onward, fun s x i hi hx => ?lyield, fun s x i w hi hx => ?prio⟩,
    fun s x i t hi hh ht => ?trap, fun s x i hi hx hc => ?exit⟩
  case onward =>
    rcases hi with hi | ⟨hi, hc⟩
    · rw [nopForm_exec hi, nop, runInstr_done hx rfl]
    · rw [convForm_exec hi, converge, runInstr_executes hx, hc]
      rfl
  case lyield => rw [lyieldForm_exec hi, lyield, runInstr_done hx rfl]
  case prio =>
    rw [prioForm_exec hi, prio_executes hx]
    simp only [prioTarget_eq] <;> rfl
  case trap =>
    have hc := convergeTrap_of_parked hh ht
    rcases hi with ⟨hi, hx⟩ | ⟨hi, hx⟩
    · rw [convForm_exec hi, converge, runInstr_executes hx, hc]
      rfl
    · rw [exitForm_exec hi, exitInstr, runAlways_acts hx, hc]
      rfl
  case exit =>
    intro t gone
    rw [exit_acts hi hx hc, endIfExited_eq]
    rfl

end Sys2Proof.Machine
end

section
/-! PROOF. What an instruction that goes on leaves as it was, and registers out of reach (02 R73, 04 R139, R141, 01 R17). -/

namespace Sys2Proof.Machine

/-! ## A group along a run -/

theorem SameButCourse.trans {g h k : Group} (a : SameButCourse g h) (b : SameButCourse h k) : SameButCourse g k := by
  unfold SameButCourse at *
  rw [b, a]

/-- Two groups that differ only in what the course of a run moves, and in no register or predicate. -/
structure Group.SameRegisters (g h : Group) : Prop where
  course : SameButCourse g h
  sregs : h.sregs = g.sregs
  preds : h.preds = g.preds

namespace Group.SameRegisters

theorem refl (g : Group) : g.SameRegisters g := ⟨rfl, rfl, rfl⟩

theorem trans {g h k : Group} (a : g.SameRegisters h) (b : h.SameRegisters k) : g.SameRegisters k where
  course := a.course.trans b.course
  sregs := b.sregs.trans a.sregs
  preds := b.preds.trans a.preds

theorem setPcs (g : Group) (ps : List Word) : g.SameRegisters (g.setPcs ps) := by
  unfold Group.setPcs
  split <;> exact ⟨rfl, rfl, rfl⟩

theorem setStates (g : Group) (ls : List LaneState) : g.SameRegisters (g.setStates ls) := by
  unfold Group.setStates
  split <;> exact ⟨rfl, rfl, rfl⟩

theorem of_sameButFaults {g h : Group} (a : g.SameButFaults h) : g.SameRegisters h where
  course := by
    unfold SameButCourse
    rw [a.eq]
  sregs := a.sregs
  preds := a.preds

end Group.SameRegisters

/-! ## Steps that move one group and one scheduler -/

/-- From s to t only the issuer's group has changed, from g to h, and of its core the issuer's scheduler. -/
structure Moves (x : Issuer) (s t : State) (g h : Group) : Prop where
  before : s.group? x.core x.slot = some g
  after : t.group? x.core x.slot = some h
  only : OnlyGroup s t x
  tiles : (t.core x.core).tileData = (s.core x.core).tileData

theorem OnlyGroup.refl (s : State) (x : Issuer) : OnlyGroup s s x :=
  ⟨rfl, fun _ _ => rfl, rfl, fun _ _ => rfl, fun _ _ => rfl⟩

theorem OnlyGroup.trans {s t u : State} {x : Issuer} (a : OnlyGroup s t x) (b : OnlyGroup t u x) : OnlyGroup s u x := by
  obtain ⟨a1, a2, a3, a4, a5⟩ := a
  obtain ⟨b1, b2, b3, b4, b5⟩ := b
  refine ⟨a1.trans b1, fun n hn => (b2 n hn).trans (a2 n hn), ?_, fun k hk => (b4 k hk).trans (a4 k hk),
    fun k hk => (b5 k hk).trans (a5 k hk)⟩
  rw [b3, a3]

/-- A new core in which only the issuer's group, its scheduler and tile bytes differ. -/
theorem OnlyGroup.mapCore {s : State} {x : Issuer} {f : Core → Core}
    (hf : f (s.core x.core) = { s.core x.core with
      groups := (f (s.core x.core)).groups, scheds := (f (s.core x.core)).scheds, tileData := (f (s.core x.core)).tileData })
    (hg : ∀ k, k ≠ x.slot → (f (s.core x.core)).group? k = (s.core x.core).group? k)
    (hs : ∀ k, k ≠ x.sched → (f (s.core x.core)).sched k = (s.core x.core).sched k) :
    OnlyGroup s (s.mapCore x.core f) x := by
  refine ⟨rfl, fun n hn => State.core_mapCore_other _ _ _ _ hn, ?_, fun k hk => ?_, fun k hk => ?_⟩
  · rw [State.core_mapCore_same]
    exact hf
  · rw [State.group?, State.core_mapCore_same, hg k hk, State.group?]
  · rw [State.core_mapCore_same, hs k hk]

theorem Core.sched_mapGroup (c : Core) (n k : Nat) (f : Group → Group) : (c.mapGroup n f).sched k = c.sched k := by
  rw [Core.mapGroup_frame]
  rfl

theorem OnlyGroup.mapGroup (s : State) (x : Issuer) (f : Group → Group) : OnlyGroup s (s.mapGroup x.core x.slot f) x :=
  .mapCore (by rw [Core.mapGroup_frame]) (fun _ hk => Core.group_mapGroup_other _ _ _ _ hk) fun _ _ => Core.sched_mapGroup ..

namespace Moves

variable {x : Issuer} {s t u : State} {g h k : Group}

theorem refl (hg : s.group? x.core x.slot = some g) : Moves x s s g g := ⟨hg, hg, .refl s x, rfl⟩

theorem trans (a : Moves x s t g h) (b : Moves x t u h k) : Moves x s u g k :=
  ⟨a.before, b.after, a.only.trans b.only, b.tiles.trans a.tiles⟩

theorem mapGroup (hg : s.group? x.core x.slot = some g) (f : Group → Group) :
    Moves x s (s.mapGroup x.core x.slot f) g (f g) where
  before := hg
  after := by rw [State.group_mapGroup_same, hg, Option.map_some]
  only := .mapGroup s x f
  tiles := by rw [State.mapGroup, State.core_mapCore_same, Core.mapGroup_frame]

theorem mapSched (hg : s.group? x.core x.slot = some g) (f : Scheduler → Scheduler) :
    Moves x s (s.mapCore x.core fun c => c.mapSched x.sched f) g g where
  before := hg
  after := by rw [State.group?, State.core_mapCore_same]; exact hg
  only := .mapCore rfl (fun _ _ => rfl) fun _ hk => Core.sched_mapSched_other _ hk _
  tiles := by rw [State.core_mapCore_same]; rfl

/-- The run of the issuer's scheduler ends. -/
theorem dropRun (hg : s.group? x.core x.slot = some g) {r : Run} (hr : ((s.core x.core).sched x.sched).run = some r)
    (hs : r.slot = x.slot) : ∃ h, Moves x s (s.mapCore x.core fun c => c.dropRun x.sched) g h ∧ g.SameRegisters h := by
  have hd : (s.mapCore x.core fun c => c.dropRun x.sched) =
      (s.mapGroup x.core x.slot fun g => g.setLanes (r.marked &&& g.lanesIn .run) .yielded).mapCore x.core
        fun c => c.mapSched x.sched fun k => { k with run := none } := by
    rw [State.mapGroup, State.mapCore_mapCore, State.mapCore, State.mapCore, Core.dropRun, hr, ← hs]
  rw [hd]
  exact ⟨_, (mapGroup hg _).trans (mapSched (mapGroup hg _).after _), .setStates _ _⟩

theorem endRun (hg : s.group? x.core x.slot = some g) {r : Run} (hr : ((s.core x.core).sched x.sched).run = some r)
    (hs : r.slot = x.slot) : ∃ h, Moves x s (endRun s x.core x.sched) g h ∧ g.SameRegisters h := by
  obtain ⟨h, hm, hh⟩ := dropRun hg hr hs
  rw [Machine.endRun, hr]
  simp only [hs]
  exact ⟨_, hm.trans (mapGroup hm.after _), hh.trans (.of_sameButFaults (Group.parkAll_sameButFaults _))⟩

/-- A run that goes on moves its group's lanes and its scheduler alone. -/
theorem stepRun (hg : s.group? x.core x.slot = some g) {r q : Run} (hq : ((s.core x.core).sched x.sched).run = some q)
    (hs : r.slot = x.slot) : ∃ h, Moves x s (stepRun s x r) g h ∧ g.SameRegisters h := by
  have h1 := mapGroup hg fun g => g.movePcs r.exec r.pos
  have h2 := h1.trans (mapSched h1.after fun k => { k with run := some r })
  have hsched : ((s.mapGroup x.core x.slot fun g => g.movePcs r.exec r.pos).core x.core).sched x.sched =
      (s.core x.core).sched x.sched := State.sched_mapGroup ..
  have hpc : g.SameRegisters (g.movePcs r.exec r.pos) := .setPcs _ _
  unfold Machine.stepRun
  simp only
  split
  · obtain ⟨h, hm, hh⟩ := endRun (r := r) h2.after (by
      rw [State.core_mapCore_same, Core.sched_mapSched_same (by rw [hsched, hq]; rfl)]) hs
    exact ⟨h, h2.trans hm, hpc.trans hh⟩
  · exact ⟨_, h2, hpc⟩

/-- Going on behind an instruction whose effect has left the issuer's run in place. -/
theorem goesOn (hg : s.group? x.core x.slot = some g) (hr : ((s.core x.core).sched x.sched).run = some x.run)
    (hs : x.run.slot = x.slot) (i : Instr) : ∃ h, Moves x s (goesOn s x i) g h ∧ g.SameRegisters h := by
  refine stepRun hg hr ?_
  rw [runNow, hr]
  exact hs

end Moves

/-! ## Class V instructions that act on active lanes alone -/

/-- The shapes of the instructions whose whole effect is one result. -/
inductive ResultShape : Instr → Prop
  | integer {i : Instr} {w : Base} {e : ExtRI} {op : IntOp} (h : integerForm i = some (w, e, op)) : ResultShape i
  | bits {i : Instr} {w : Base} {e : ExtRI} {op : BitOp} (h : bitForm i = some (w, e, op)) : ResultShape i
  | float {i : Instr} {w : Base} {e : ExtRI} {op : FpOp} (h : floatForm i = some (w, e, op)) : ResultShape i
  | half {i : Instr} {w : Base} {e : ExtR} {op : FpOp} (h : halfForm i = some (w, e, op)) : ResultShape i
  | fscl {i : Instr} {w : Base} {e : ExtRI} (h : fsclForm i = some (w, e)) : ResultShape i
  | mov {i : Instr} {w : Base} {e : ExtR} (h : movForm i = some (w, e)) : ResultShape i
  | lea {i : Instr} {w : Base} {e : ExtRI} (h : leaForm i = some (w, e)) : ResultShape i
  | shuffle {i : Instr} {w : Base} {e : ExtRI} (h : shuffleForm i = some (w, e)) : ResultShape i
  | ballot {i : Instr} {w : Base} {e : ExtR} (h : ballotForm i = some (w, e)) : ResultShape i
  | redux {i : Instr} {w : Base} {e : ExtR} (h : reduxForm i = some (w, e)) : ResultShape i
  | scan {i : Instr} {w : Base} {e : ExtR} (h : scanForm i = some (w, e)) : ResultShape i
  | bcast {i : Instr} {w : Base} {e : ExtRI} (h : bcastForm i = some (w, e)) : ResultShape i
  | sel (w : Base) (e : ExtR) : ResultShape (.sel w e)
  | movi (w : Base) (imm : Word) : ResultShape (.movi w imm)
  | cvt (w : Base) (e : ExtR) : ResultShape (.cvt w e)
  | cvtp (w : Base) (e : ExtR) : ResultShape (.cvtp w e)

theorem resultShape_of_resultForm {i : Instr} (h : resultForm i = true) : ResultShape i := by
  unfold resultForm at h
  rw [Bool.or_eq_true] at h
  rcases h with h | h
  · simp only [Bool.or_eq_true, Option.isSome_iff_exists, Prod.exists] at h
    rcases h with
      ((((((((((⟨_, _, _, h⟩ | ⟨_, _, _, h⟩) | ⟨_, _, _, h⟩) | ⟨_, _, _, h⟩) | ⟨_, _, h⟩) | ⟨_, _, h⟩) | ⟨_, _, h⟩) | ⟨_, _, h⟩) |
        ⟨_, _, h⟩) | ⟨_, _, h⟩) | ⟨_, _, h⟩) | ⟨_, _, h⟩
    · exact .integer h
    · exact .bits h
    · exact .float h
    · exact .half h
    · exact .fscl h
    · exact .mov h
    · exact .lea h
    · exact .shuffle h
    · exact .ballot h
    · exact .redux h
    · exact .scan h
    · exact .bcast h
  · split at h
    · exact .sel ..
    · exact .movi ..
    · exact .cvt ..
    · exact .cvtp ..
    · cases h

/-- The shapes of the class V instructions that act on the active lanes alone. -/
inductive MaskedShape : Instr → Prop
  | result {i : Instr} (h : ResultShape i) : MaskedShape i
  | long {i : Instr} {w : Base} {e : ExtR} {fn : LongFn} (h : longForm i = some (w, e, fn)) : MaskedShape i
  | vote {i : Instr} {w : Base} {e : ExtR} (h : voteForm i = some (w, e)) : MaskedShape i
  | conv {i : Instr} (h : convForm i = true) : MaskedShape i
  | lyield {i : Instr} (h : lyieldForm i = true) : MaskedShape i
  | nop {i : Instr} (h : nopForm i = true) : MaskedShape i
  | prio {i : Instr} {w : Base} (h : prioForm i = some w) : MaskedShape i
  | compare {i : Instr} {w : Base} {e : ExtRI} {float : Bool}
    (h : i = .icmp w e ∧ float = false ∨ i = .fcmp w e ∧ float = true) : MaskedShape i
  | plop (w : Base) (e : ExtR) : MaskedShape (.plop w e)

theorem maskedShape_of_maskedForm {i : Instr} (h : maskedForm i = true) : MaskedShape i := by
  unfold maskedForm at h
  rw [Bool.or_eq_true] at h
  rcases h with h | h
  · simp only [Bool.or_eq_true, Option.isSome_iff_exists, Prod.exists] at h
    rcases h with (((((h | ⟨_, _, _, h⟩) | ⟨_, _, h⟩) | h) | h) | h) | ⟨_, h⟩
    · exact .result (resultShape_of_resultForm h)
    · exact .long h
    · exact .vote h
    · exact .conv h
    · exact .lyield h
    · exact .nop h
    · exact .prio h
  · split at h
    · exact .compare (.inl ⟨rfl, rfl⟩)
    · exact .compare (.inr ⟨rfl, rfl⟩)
    · exact .plop ..
    · cases h

theorem ResultShape.runs {i : Instr} (h : ResultShape i) (s : State) : ∃ body, exec i s = runInstr s i body := by
  cases h with
  | integer h => rw [integerForm_exec h, intOp, laneOp]; exact ⟨_, rfl⟩
  | bits h => rw [bitForm_exec h, bitOp, laneOp]; exact ⟨_, rfl⟩
  | float h => rw [floatForm_exec h, laneOp]; exact ⟨_, rfl⟩
  | half h => rw [halfForm_exec h, halfOp]; exact ⟨_, rfl⟩
  | fscl h => exact ⟨_, fsclForm_exec h s⟩
  | mov h => exact ⟨_, movForm_exec h s⟩
  | lea h => exact ⟨_, leaForm_exec h s⟩
  | shuffle h => exact ⟨_, shuffleForm_exec h s⟩
  | ballot h => exact ⟨_, ballotForm_exec h s⟩
  | redux h => exact ⟨_, reduxForm_exec h s⟩
  | scan h => exact ⟨_, scanForm_exec h s⟩
  | bcast h => exact ⟨_, bcastForm_exec h s⟩
  | sel w e => exact ⟨_, exec_sel ..⟩
  | movi w imm => exact ⟨_, exec_movi ..⟩
  | cvt w e => exact ⟨_, exec_cvt ..⟩
  | cvtp w e => exact ⟨_, exec_cvtp ..⟩

/-- Such an instruction is a body that acts on the active lanes (04 R141). -/
theorem MaskedShape.runs {i : Instr} (h : MaskedShape i) (s : State) : ∃ body, exec i s = runInstr s i body := by
  cases h with
  | result h => exact h.runs s
  | long h => exact ⟨_, longForm_exec h s⟩
  | vote h => exact ⟨_, voteForm_exec h s⟩
  | conv h => exact ⟨_, convForm_exec h s⟩
  | lyield h => exact ⟨_, lyieldForm_exec h s⟩
  | nop h => exact ⟨_, nopForm_exec h s⟩
  | prio h => exact ⟨_, prioForm_exec h s⟩
  | compare h => exact ⟨_, cmpForm_exec h s⟩
  | plop w e => exact ⟨_, exec_plop ..⟩

/-- A register check fails with one of the two causes of R17. -/
theorem opdChecks_cause {c : Core} {g : Group} {slot : Nat} {os : List Opd} {k : Cause} (h : opdChecks c g slot os = some k) :
    k = .tileState ∨ k = .tileOwner := by
  obtain ⟨n, -, hn⟩ := List.exists_of_findSome?_eq_some h
  unfold vCheck at hn
  split at hn
  · exact .inl (Option.some.inj hn).symm
  · split at hn
    · cases hn
    · exact .inr (Option.some.inj hn).symm

/-- An instruction whose registers cannot be reached traps before any effect (R17, R139). -/
theorem runInstr_unreached {s : State} {x : Issuer} {i : Instr} {c : Cause} (h : Issues s x i) (hm : activeOf x i ≠ 0#64)
    (hc : opdChecks (s.core x.core) x.g x.slot (operandsOf x i) = some c) (body : Issuer → LaneMask → Act) :
    runInstr s i body = .next (instrTrap s x i c 0 0#32) := by
  obtain ⟨h1, h2⟩ := h
  have hc' : opdChecks (s.core x.core) x.g x.slot
      ((infoOf (checkEnv x.g x.l) i).reads ++ (infoOf (checkEnv x.g x.l) i).writes) = some c := hc
  simp [runInstr, h1, h2, hm, hc', settleAct]

/-! ## A trap changes no byte -/

/-- Of a core only its groups change with a group. -/
theorem State.core_mapGroup (s : State) (n k : Nat) (f : Group → Group) (m : Nat) :
    (s.mapGroup n k f).core m = { s.core m with groups := ((s.mapGroup n k f).core m).groups } := by
  by_cases h : m = n
  · subst h
    rw [State.mapGroup, State.core_mapCore_same, Core.mapGroup_frame]
  · rw [State.mapGroup, State.core_mapCore_other _ _ _ _ h]

theorem State.tileData_mapGroup (s : State) (n k : Nat) (f : Group → Group) (m : Nat) :
    ((s.mapGroup n k f).core m).tileData = (s.core m).tileData := by rw [State.core_mapGroup]

theorem raiseTrap_tileData (s : State) (core slot : Nat) (m : LaneMask) (pc : Word) (hdr : Option Word) (t : Trap) (n : Nat) :
    ((raiseTrap s core slot m pc hdr t).core n).tileData = (s.core n).tileData := by
  unfold raiseTrap
  split
  · rfl
  · split
    · exact ((abortLaunch_onward ..).cores n).tileData
    · exact State.tileData_mapGroup ..

theorem takeTrap_tileData (s : State) (core sched slot : Nat) (m : LaneMask) (pc : Word) (hdr : Option Word) (t : Trap)
    (n : Nat) : ((takeTrap s core sched slot m pc hdr t).core n).tileData = (s.core n).tileData := by
  unfold takeTrap
  split
  · rfl
  · split
    · exact raiseTrap_tileData ..
    · exact (raiseTrap_tileData ..).trans ((Onward.mapCore s core fun c => .dropRun c sched).cores n).tileData

/-- Settles O12: what a run that goes on moves, and the trap of the registers. -/
theorem noActiveLaneChangesNothing : Obligations.NoActiveLaneChangesNothing := by
  refine ⟨fun s x i hi hx hm => ?_, fun s x i c hi hx hm hc => ?_⟩
  · obtain ⟨body, hb⟩ := (maskedShape_of_maskedForm hi).runs s
    obtain ⟨hg, hr, hs⟩ := issuer_stands hx.1
    obtain ⟨h, hmv, hh⟩ := Moves.goesOn hg hr hs i
    exact ⟨by rw [hb, runInstr_masked hx hm], hmv.only, hmv.tiles, h, hmv.after, hh.course, hh.sregs, hh.preds⟩
  · obtain ⟨body, hb⟩ := (maskedShape_of_maskedForm hi).runs s
    exact ⟨opdChecks_cause hc, by rw [hb, runInstr_unreached hx hm hc], fun _ => takeTrap_tileData ..⟩

end Sys2Proof.Machine
end

section
/-! PROOF. The frame of the instructions whose effect is one result, and of those that write a predicate (04 R138 to R142). -/

namespace Sys2Proof.Machine

/-! ## The destinations of an instruction -/

theorem bad7_of_wellFormed {e : CheckEnv} {i : Instr} (h : i.wellFormed e = true) : (infoOf e i).bad7 = false := by
  by_contra h7
  rw [Bool.not_eq_false] at h7
  rw [Instr.wellFormed, (ownFailure_order e true i).1 h7] at h
  simp at h

theorem integerForm_info {i : Instr} {w : Base} {e : ExtRI} {op : IntOp} (h : integerForm i = some (w, e, op)) (env : CheckEnv) :
    ∃ f, infoOf env i = infoV w e f := by
  unfold integerForm at h; split at h <;> cases h <;> exact ⟨_, rfl⟩

theorem bitForm_info {i : Instr} {w : Base} {e : ExtRI} {op : BitOp} (h : bitForm i = some (w, e, op)) (env : CheckEnv) :
    ∃ f, infoOf env i = infoV w e f := by
  unfold bitForm at h; split at h <;> cases h <;> exact ⟨_, rfl⟩

theorem floatForm_info {i : Instr} {w : Base} {e : ExtRI} {op : FpOp} (h : floatForm i = some (w, e, op)) (env : CheckEnv) :
    ∃ f, infoOf env i = infoV w e f := by
  unfold floatForm at h; split at h <;> cases h <;> exact ⟨_, rfl⟩

theorem halfForm_info {i : Instr} {w : Base} {e : ExtR} {op : FpOp} (h : halfForm i = some (w, e, op)) (env : CheckEnv) :
    ∃ f, infoOf env i = infoV w (.r e) f := by
  unfold halfForm at h; split at h <;> cases h <;> exact ⟨_, rfl⟩

theorem movForm_info {i : Instr} {w : Base} {e : ExtR} (h : movForm i = some (w, e)) (env : CheckEnv) :
    ∃ f, infoOf env i = infoV w (.r e) f := by
  unfold movForm at h; split at h <;> cases h <;> exact ⟨_, rfl⟩

theorem fsclForm_info {i : Instr} {w : Base} {e : ExtRI} (h : fsclForm i = some (w, e)) (env : CheckEnv) :
    infoOf env i = infoFscl w e := by
  unfold fsclForm at h; split at h <;> cases h <;> rfl

theorem leaForm_info {i : Instr} {w : Base} {e : ExtRI} (h : leaForm i = some (w, e)) (env : CheckEnv) :
    infoOf env i = infoLea w e := by
  unfold leaForm at h; split at h <;> cases h <;> rfl

theorem shuffleForm_info {i : Instr} {w : Base} {e : ExtRI} (h : shuffleForm i = some (w, e)) (env : CheckEnv) :
    infoOf env i = infoShfl w e := by
  unfold shuffleForm at h; split at h <;> cases h <;> rfl

theorem ballotForm_info {i : Instr} {w : Base} {e : ExtR} (h : ballotForm i = some (w, e)) (env : CheckEnv) :
    infoOf env i = infoBallot env w e := by
  unfold ballotForm at h; split at h <;> cases h <;> rfl

theorem reduxForm_info {i : Instr} {w : Base} {e : ExtR} (h : reduxForm i = some (w, e)) (env : CheckEnv) :
    infoOf env i = infoCombine w e true := by
  unfold reduxForm at h; split at h <;> cases h <;> rfl

theorem scanForm_info {i : Instr} {w : Base} {e : ExtR} (h : scanForm i = some (w, e)) (env : CheckEnv) :
    infoOf env i = infoCombine w e false := by
  unfold scanForm at h; split at h <;> cases h <;> rfl

theorem bcastForm_info {i : Instr} {w : Base} {e : ExtRI} (h : bcastForm i = some (w, e)) (env : CheckEnv) :
    infoOf env i = infoBcast w e := by
  unfold bcastForm at h; split at h <;> cases h <;> rfl

/-- The destination of an arithmetic instruction: as many registers as its type occupies, or one scalar register (R71). -/
theorem infoV_writes (s : State) (x : Issuer) (w : Base) (e : ExtRI) (f : RForm) :
    (infoV w e f).writes = [opd (srcOf s x w e).sd w.d.toNat (typeSpan (srcOf s x w e).type)] := by
  cases e <;> rfl

theorem infoFscl_writes (s : State) (x : Issuer) (w : Base) (e : ExtRI) :
    (infoFscl w e).writes = [opd (srcOf s x w e).sd w.d.toNat (typeSpan (srcOf s x w e).type)] := by
  cases e <;> rfl

theorem infoLea_writes (s : State) (x : Issuer) (w : Base) (e : ExtRI) :
    (infoLea w e).writes = [opd (srcOf s x w e).sd w.d.toNat (typeSpan (srcOf s x w e).type)] := by
  cases e <;> rfl

/-- SHFL has no scalar form (R162). -/
theorem infoShfl_writes {w : Base} {e : ExtRI} (h : (infoShfl w e).bad7 = false) :
    (infoShfl w e).writes = [opd false w.d.toNat 1] := by
  cases e <;> simp_all [infoShfl, infoVR, infoVI, typeSpan]

/-- BCAST writes a scalar register where its modifier says so, and never by the flag of its destination (R166). -/
theorem infoBcast_writes {w : Base} {e : ExtRI} (h : (infoBcast w e).bad7 = false) :
    (infoBcast w e).writes = [opd (bcastScalar e) w.d.toNat 1] := by
  cases e <;> simp_all [infoBcast, infoVR, infoVI, typeSpan, bcastScalar]

/-- The types that REDUX and SCAN combine have 32 bits (Table 4.5). -/
theorem wideType_of_mem_combineTypes (n : Nat) : ∀ t ∈ combineTypes n, wideType t = false := by
  unfold combineTypes
  split <;> decide

theorem wideType_of_infoCombine {w : Base} {e : ExtR} {redux : Bool} (h : (infoCombine w e redux).bad7 = false) :
    wideType e.type.toNat = false := by
  simp only [infoCombine, Bool.or_eq_false_iff, Bool.not_eq_false', List.contains_iff_mem] at h
  obtain ⟨⟨-, hmem⟩, -⟩ := h
  exact wideType_of_mem_combineTypes _ _ hmem

/-- CVTP with destination FP32 unpacks into a pair of vector registers; else it packs into one register (Table 4.4). -/
theorem infoCvtp_writes {w : Base} {e : ExtR} (h : (infoCvtp w e).bad7 = false) :
    if (e.mod.extractLsb' 0 5).toNat = 9 then (infoCvtp w e).writes = [opd false w.d.toNat 2]
    else (infoCvtp w e).writes = [opd e.sd w.d.toNat 1] := by
  simp only [infoCvtp, Bool.or_eq_false_iff] at h ⊢
  obtain ⟨⟨⟨-, hpair⟩, hun⟩, -⟩ := h
  generalize (e.mod.extractLsb' 0 5).toNat = d at hpair hun ⊢
  split
  next hd =>
    have h16 : (e.type.toNat == 10 || e.type.toNat == 11) = true := by
      by_contra h
      rw [Bool.not_eq_true] at h
      simp [h, hd] at hpair
    have hsd : e.sd = false := by
      simp only [h16, hd, beq_self_eq_true, Bool.and_self, Bool.true_and, Bool.or_eq_false_iff] at hun
      exact hun.1.1.2
    rw [h16, hd, hsd]
    rfl
  next hd =>
    rw [beq_eq_false_iff_ne.2 hd, Bool.and_false]
    rfl

theorem one_le_typeSpan (t : Nat) : 1 ≤ typeSpan t := by
  unfold typeSpan
  split
  · decide
  · split <;> decide

theorem two_le_typeSpan {t : Nat} (h : wideType t = true) : 2 ≤ typeSpan t := by
  have := wideSpan_le_typeSpan t
  rwa [if_pos h] at this

/-! ## One result -/

/-- The effect of an instruction is a write of one scalar register it names, or of registers it names in lanes of a set. -/
def OneResult (s : State) (x : Issuer) (m : LaneMask) (os : List Opd) (u : State) : Prop :=
  (∃ n v, names os (.s n) = true ∧ u = sset s x n v) ∨
  ∃ ws, (∀ w ∈ ws, names os (.v w.1 1) = true ∧ m.getLsbD w.2.1 = true) ∧ u = vsets s x ws

theorem names_scalar (n k : Nat) : names [opd true n k] (.s n) = true := by simp [names, opd, Opd.meets]

theorem names_vector {n k j : Nat} (h : n ≤ j) (hj : j < n + k) : names [opd false n k] (.v j 1) = true := by
  simp [names, opd, Opd.meets]
  omega

namespace OneResult

variable {s u : State} {x : Issuer} {m : LaneMask} {os : List Opd}

theorem putResult {sd : Bool} {d t k : Nat} (f : Nat → Nat) (hk : 1 ≤ k) (hw : sd = false → wideType t = true → 2 ≤ k) :
    OneResult s x m [opd sd d k] (putResult s x m sd d t f) := by
  cases sd with
  | true => exact .inl ⟨d, _, names_scalar d k, rfl⟩
  | false =>
    refine .inr ⟨_, fun w hm => ?_, putResult_vector ..⟩
    obtain ⟨l, hl, rfl | ⟨ht, rfl⟩⟩ := mem_resultWrites.1 hm
    · exact ⟨names_vector (Nat.le_refl d) (by omega), hl⟩
    · have := hw rfl ht
      exact ⟨names_vector (Nat.le_succ d) (by omega), hl⟩

theorem onlyGroup (h : OneResult s x m os u) : OnlyGroup s u x := by
  obtain ⟨n, v, -, rfl⟩ | ⟨ws, -, rfl⟩ := h
  · exact .mapGroup s x _
  · rw [vsets_eq]
    exact .mapCore rfl (fun _ _ => rfl) fun _ _ => rfl

/-- A byte of no named register of the lanes stays. -/
theorem get_tileData (h : OneResult s x m os u) (hwf : (s.core x.core).tileData.wf = true) {a : Nat}
    (ha : ∀ n, names os (.v n 1) = true → ¬laneByte x m n a) :
    (u.core x.core).tileData.get a = (s.core x.core).tileData.get a := by
  obtain ⟨n, v, -, rfl⟩ | ⟨ws, hws, rfl⟩ := h
  · rw [sset, State.tileData_mapGroup]
  · rw [tileData_vsets]
    refine get_tileWrites_other hwf _ fun w hw b hb => ?_
    obtain ⟨hn, hl⟩ := hws w hw
    by_contra hc
    exact ha _ hn ⟨w.2.1, b, hl, hb, by omega, by omega⟩

/-- The group keeps its predicates and every scalar register that is not named. -/
theorem group (h : OneResult s x m os u) (hg : s.group? x.core x.slot = some x.g) :
    ∃ g, u.group? x.core x.slot = some g ∧ SameButCourse x.g g ∧ g.preds = x.g.preds ∧
      ∀ n, names os (.s n) = false → g.sreg n = x.g.sreg n := by
  obtain ⟨n, v, hn, rfl⟩ | ⟨ws, -, rfl⟩ := h
  · refine ⟨x.g.setS n v, by rw [sset, State.group_mapGroup_same, hg, Option.map_some], rfl, rfl, fun k hk => ?_⟩
    refine Group.sreg_setS_other _ (fun e => ?_) v
    rw [e, hn] at hk
    cases hk
  · exact ⟨x.g, by rw [group?_vsets, hg], rfl, rfl, fun _ _ => rfl⟩

theorem sched (h : OneResult s x m os u) (k : Nat) : (u.core x.core).sched k = (s.core x.core).sched k := by
  obtain ⟨n, v, -, rfl⟩ | ⟨ws, -, rfl⟩ := h
  · exact State.sched_mapGroup ..
  · rw [vsets_eq, State.core_mapCore_same]
    rfl

end OneResult

/-! ## The instructions of one result -/

/-- The instruction goes on behind one result in its destinations. -/
def Results (s : State) (x : Issuer) (i : Instr) : Prop :=
  ∃ u, exec i s = .next (goesOn u x i) ∧ OneResult s x (activeOf x i) (writesOf x i) u

namespace Results

variable {s : State} {x : Issuer} {i : Instr}

theorem of_putResult {sd : Bool} {d t k : Nat} {f : Nat → Nat}
    (h : exec i s = .next (goesOn (putResult s x (activeOf x i) sd d t f) x i)) (hw : writesOf x i = [opd sd d k])
    (hk : 1 ≤ k) (ht : sd = false → wideType t = true → 2 ≤ k) : Results s x i :=
  ⟨_, h, hw ▸ .putResult f hk ht⟩

theorem of_laneOp (hx : Executes s x i) {w : Base} {e : ExtRI} {f : FpMode → VSrc → Nat → Nat}
    (h : exec i s = laneOp s i w e f) (hi : ∃ k, infoOf (checkEnv x.g x.l) i = infoV w e k) : Results s x i := by
  obtain ⟨k, hk⟩ := hi
  exact of_putResult (h.trans (laneOp_executes hx w e f)) (by rw [writesOf, hk, infoV_writes s x]) (one_le_typeSpan _)
    fun _ => two_le_typeSpan

theorem of_movi {w : Base} {imm : Word} (hx : Executes s x (.movi w imm)) : Results s x (.movi w imm) := by
  refine ⟨_, movi_executes hx, ?_⟩
  have hw : writesOf x (.movi w imm) = [opd (w.a.getLsbD 0) w.d.toNat 1] := rfl
  rw [hw, moviPut]
  split
  next hs => exact .inl ⟨_, _, by rw [hs]; exact names_scalar _ _, rfl⟩
  next hs =>
    refine .inr ⟨_, fun u hu => ?_, rfl⟩
    rw [Bool.not_eq_true] at hs
    obtain ⟨l, hl, rfl⟩ := List.mem_map.1 hu
    rw [hs]
    exact ⟨names_vector (Nat.le_refl _) (by simp), mem_lanesOf.1 hl⟩

/-- CVT fills as many registers as its destination type occupies (R71, R160). -/
theorem of_cvt {w : Base} {e : ExtR} (hx : Executes s x (.cvt w e)) : Results s x (.cvt w e) := by
  refine ⟨_, cvt_executes hx, ?_⟩
  have hw : writesOf x (.cvt w e) = [opd e.sd w.d.toNat (typeSpan (e.mod.extractLsb' 0 5).toNat)] := rfl
  rw [hw, cvtPut]
  generalize (e.mod.extractLsb' 0 5).toNat = d
  cases e.sd with
  | true => exact .inl ⟨_, _, names_scalar _ _, rfl⟩
  | false =>
    refine .inr ⟨_, fun u hu => ?_, rfl⟩
    obtain ⟨l, hl, hu⟩ := List.mem_flatMap.1 hu
    obtain ⟨j, hj, v, rfl⟩ : ∃ j, j < typeSpan d ∧ ∃ v, u = (w.d.toNat + j, l, v) := by
      rw [cvtWrites_eq] at hu
      unfold typeSpan
      split at hu
      next h15 =>
        obtain ⟨j, hj, rfl⟩ := List.mem_map.1 hu
        exact ⟨j, by simpa [h15] using hj, _, rfl⟩
      next h15 =>
        split at hu
        next hw2 =>
          obtain ⟨j, hj, rfl⟩ := List.mem_map.1 hu
          exact ⟨j, by simpa [hw2] using hj, _, rfl⟩
        next hw2 =>
          rw [List.mem_singleton] at hu
          exact ⟨0, by simp [h15, hw2], _, hu⟩
    exact ⟨names_vector (Nat.le_add_right _ _) (by omega), mem_lanesOf.1 hl⟩

theorem of_cvtp {w : Base} {e : ExtR} (hx : Executes s x (.cvtp w e)) (h7 : (infoCvtp w e).bad7 = false) :
    Results s x (.cvtp w e) := by
  refine ⟨_, cvtp_executes hx, ?_⟩
  have hw : writesOf x (.cvtp w e) = (infoCvtp w e).writes := rfl
  have hd := infoCvtp_writes h7
  rw [hw, cvtpPut]
  split at hd
  next h9 =>
    rw [hd]
    simp only [h9, if_true]
    refine .inr ⟨_, fun u hu => ?_, rfl⟩
    obtain ⟨l, hl, hu⟩ := List.mem_flatMap.1 hu
    have hl := mem_lanesOf.1 hl
    simp only [List.mem_cons, List.not_mem_nil, or_false] at hu
    obtain rfl | rfl := hu
    · exact ⟨names_vector le_rfl (by simp), hl⟩
    · exact ⟨names_vector (Nat.le_succ _) (by simp), hl⟩
  next h9 =>
    rw [hd]
    simp only [h9, if_false]
    exact .putResult _ le_rfl fun _ ht => absurd ht (by decide)

end Results

theorem ResultShape.results {s : State} {x : Issuer} {i : Instr} (hi : ResultShape i)
    (hwf : i.wellFormed (checkEnv x.g x.l) = true) (hx : Executes s x i) : Results s x i := by
  have h7 := bad7_of_wellFormed hwf
  cases hi with
  | integer h => exact .of_laneOp hx (integerForm_exec h s) (integerForm_info h _)
  | bits h => exact .of_laneOp hx (bitForm_exec h s) (bitForm_info h _)
  | float h => exact .of_laneOp hx (floatForm_exec h s) (floatForm_info h _)
  | half h => exact .of_laneOp hx (halfForm_exec h s) (halfForm_info h _)
  | fscl h =>
    exact .of_putResult (by rw [fsclForm_exec h, fscl_executes hx]) (by rw [writesOf, fsclForm_info h, infoFscl_writes s x])
      (one_le_typeSpan _) fun _ ht => absurd ht (by decide)
  | mov h => exact .of_laneOp hx (movForm_exec h s) (movForm_info h _)
  | lea h =>
    exact .of_putResult (by rw [leaForm_exec h, lea_executes hx]) (by rw [writesOf, leaForm_info h, infoLea_writes s x])
      (one_le_typeSpan _) fun _ => two_le_typeSpan
  | shuffle h =>
    rw [shuffleForm_info h] at h7
    exact .of_putResult (by rw [shuffleForm_exec h, shuffle_executes hx])
      (by rw [writesOf, shuffleForm_info h, infoShfl_writes h7]) le_rfl fun _ ht => absurd ht (by decide)
  | ballot h =>
    refine .of_putResult (by rw [ballotForm_exec h, ballot_executes hx]) (by rw [writesOf, ballotForm_info h]; rfl) ?_ ?_
    · show 1 ≤ if x.g.wide then 2 else 1
      split <;> decide
    · intro _ ht
      show 2 ≤ if x.g.wide then 2 else 1
      split at ht
      next hw => rw [if_pos hw]
      next => exact absurd ht (by decide)
  | redux h =>
    rw [reduxForm_info h] at h7
    exact .of_putResult (by rw [reduxForm_exec h, redux_executes hx]) (by rw [writesOf, reduxForm_info h]; rfl) le_rfl
      fun _ ht => by rw [wideType_of_infoCombine h7] at ht; cases ht
  | scan h =>
    rw [scanForm_info h] at h7
    exact .of_putResult (by rw [scanForm_exec h, scan_executes hx]) (by rw [writesOf, scanForm_info h]; rfl) le_rfl
      fun _ ht => by rw [wideType_of_infoCombine h7] at ht; cases ht
  | bcast h =>
    rw [bcastForm_info h] at h7
    exact .of_putResult (by rw [bcastForm_exec h, broadcast_executes hx])
      (by rw [writesOf, bcastForm_info h, infoBcast_writes h7]) le_rfl fun _ ht => absurd ht (by decide)
  | sel w e => exact .of_putResult (sel_executes hx) rfl (one_le_typeSpan _) fun _ => two_le_typeSpan
  | movi w imm => exact .of_movi hx
  | cvt w e => exact .of_cvt hx
  | cvtp w e => exact .of_cvtp hx h7

/-! ## The instructions that write a predicate -/

/-- The instruction goes on behind the write of one predicate. -/
def SetsPredicate (s : State) (x : Issuer) (i : Instr) (p : Nat) : Prop :=
  ∃ m v, exec i s = .next (goesOn (s.mapGroup x.core x.slot fun g => g.setP p m v) x i)

theorem Group.pred_setP_other (g : Group) {p q : Nat} (h : q ≠ p) (m v : LaneMask) : (g.setP p m v).pred q = g.pred q := by
  rw [Group.pred, Group.setP, nth_setNth_other _ _ _ _ _ h, Group.pred]

theorem plop_setsPredicate {s : State} {x : Issuer} {w : Base} {e : ExtR} (hx : Executes s x (.plop w e)) :
    SetsPredicate s x (.plop w e) (w.d.extractLsb' 0 3).toNat :=
  ⟨_, _, (exec_plop w e s).trans (runInstr_done hx rfl)⟩

theorem vote_setsPredicate {s : State} {x : Issuer} {i : Instr} {w : Base} {e : ExtR} (hx : Executes s x i)
    (hi : voteForm i = some (w, e)) : SetsPredicate s x i (w.d.extractLsb' 0 3).toNat :=
  ⟨_, _, (voteForm_exec hi s).trans (runInstr_done hx rfl)⟩

/-- A compare whose sources have landed (R146). -/
theorem cmp_setsPredicate {s : State} {x : Issuer} {i : Instr} {w : Base} {e : ExtRI} {float : Bool} (hx : Executes s x i)
    (hi : i = .icmp w e ∧ float = false ∨ i = .fcmp w e ∧ float = true)
    (hp : ∀ o ∈ (infoOf (checkEnv x.g x.l) i).reads, x.g.pendingOpd o = false) :
    SetsPredicate s x i (w.d.extractLsb' 0 3).toNat := by
  have hpred : (cmpAt s x (activeOf x i) w e float).pred = (w.d.extractLsb' 0 3).toNat := by cases e <;> rfl
  rw [← hpred]
  exact ⟨_, _, (cmpForm_exec hi s).trans (compare_executes hx hi hp)⟩

/-- Settles O11: what the one result changes, and then what the run that goes on moves. -/
theorem resultInstructionsFrame : Obligations.ResultInstructionsFrame := by
  refine ⟨fun s t x i hi hw hx hwf ht => ?_, fun s t x i p hi hx ht => ?_⟩
  · obtain ⟨u, hu, hr⟩ := (resultShape_of_resultForm hi).results hw hx
    obtain rfl : t = goesOn u x i := by simpa [hu] using ht.symm
    obtain ⟨hg, hrun, hs⟩ := issuer_stands hx.1.1
    obtain ⟨g, hg, hcourse, hpreds, hsregs⟩ := hr.group hg
    obtain ⟨h, hm, hh⟩ := Moves.goesOn hg (by rw [hr.sched]; exact hrun) hs i
    refine ⟨hr.onlyGroup.trans hm.only, fun a ha => ?_, h, hm.after, SameButCourse.trans hcourse hh.course,
      hh.preds.trans hpreds, fun n hn => ?_⟩
    · rw [hm.tiles, hr.get_tileData hwf ha]
    · rw [← hsregs n hn, Group.sreg, hh.sregs, Group.sreg]
  · obtain ⟨m, v, hu⟩ : SetsPredicate s x i p := by
      obtain ⟨w, e, rfl | hi, rfl⟩ | ⟨w, e, rfl | rfl, rfl, hp⟩ := hi
      · exact plop_setsPredicate hx
      · exact vote_setsPredicate hx hi
      · exact cmp_setsPredicate (float := false) hx (.inl ⟨rfl, rfl⟩) hp
      · exact cmp_setsPredicate (float := true) hx (.inr ⟨rfl, rfl⟩) hp
    obtain rfl : t = goesOn _ x i := by simpa [hu] using ht.symm
    obtain ⟨hg, hrun, hs⟩ := issuer_stands hx.1.1
    have hset := Moves.mapGroup hg fun g => g.setP p m v
    obtain ⟨h, hm, hh⟩ := Moves.goesOn hset.after (by rw [State.sched_mapGroup]; exact hrun) hs i
    refine ⟨hset.only.trans hm.only, hm.tiles.trans hset.tiles, h, hm.after, ?_, hh.sregs, fun q hq => ?_⟩
    · exact SameButCourse.trans (show SameButCourse x.g (x.g.setP p m v) from rfl) hh.course
    · rw [← x.g.pred_setP_other hq m v, Group.pred, hh.preds, Group.pred]

end Sys2Proof.Machine
end

section
/-! PROOF. Branches, and the predicted arm of a hinted one (04 R168 to R170, 09 R331 to R333). -/

namespace Sys2Proof.Machine

/-! ## What `exec` calls -/

theorem exec_bra (w : Base) (e : ExtC) (s : State) : exec (.bra w e) s = branch s (.bra w e) w e := rfl
theorem exec_call (w : Base) (e : ExtC) (s : State) : exec (.call w e) s = call s (.call w e) w e := rfl
theorem exec_seqIssue (s : State) : exec .seqIssue s = .next (seqIssue s s.sel.core) := rfl

theorem jumpForm_exec {i : Instr} {w : Base} {e : ExtR} (h : jumpForm i = some (w, e)) (s : State) :
    exec i s = branchReg s i w e := by
  unfold jumpForm at h; split at h <;> cases h <;> rfl

/-! ## Branches that are not predicted -/

theorem bra_acts {s : State} {x : Issuer} {w : Base} {e : ExtC} (h : Acts s x (.bra w e))
    (hp : w.d.extractLsb' 1 2 = 0#2 ∨ w.guard = 0#3 ∨ x.g.pendingOpd (.p w.guard.toNat) = false) :
    exec (.bra w e) s = .next (endRun (transfer s x (.bra w e)
      (branchLanes (w.d.getLsbD 0) x.run.exec (activeOf x (.bra w e))) fun _ => branchTarget e) x.core x.sched) := by
  have hc : (w.d.extractLsb' 1 2 != 0 && decide (w.guard ≠ 0) && x.g.pendingOpd (.p w.guard.toNat)) = false := by
    rcases hp with hp | hp | hp <;> simp [hp]
  rw [exec_bra, branch, runAlways_acts h, hc]
  rfl

/-- A hinted branch whose guard is pending is predicted (R331). -/
theorem bra_predicts {s : State} {x : Issuer} {w : Base} {e : ExtC} (h : Acts s x (.bra w e)) (hh : w.d.extractLsb' 1 2 ≠ 0#2)
    (hg : w.guard ≠ 0#3) (hp : x.g.pendingOpd (.p w.guard.toNat) = true) :
    exec (.bra w e) s = .next (endRun (predictBranch s x (.bra w e) w e) x.core x.sched) := by
  have hc : (w.d.extractLsb' 1 2 != 0 && decide (w.guard ≠ 0) && x.g.pendingOpd (.p w.guard.toNat)) = true := by
    simp [hh, hg, hp]
  rw [exec_bra, branch, runAlways_acts h, hc]
  rfl

/-! ## Groups whose lanes go back -/

theorem Group.parkAll_of_late_nil {g : Group} (h : g.late = []) : g.parkAll = g := by
  rw [Group.parkAll, h, List.foldl_nil, ← h]

section
variable (g : Group) (p : Predicted) (pc : Word) (resume : Option Word)

theorem Group.unpredict_keeps : (g.unpredict p pc resume).late = g.late ∧ (g.unpredict p pc resume).due = g.due ∧
    (g.unpredict p pc resume).pend = g.pend := by
  simp only [Group.unpredict]
  split <;> simp

theorem Group.unpredict_resumeHdr (h : g.handler = none) : (g.unpredict p pc resume).resumeHdr = resume := by
  simp [Group.unpredict, Group.setLanes, Group.setStates, Group.setPcs, h]

/-- Its live lanes stand where the branch sends them, or where they stood. -/
theorem Group.unpredict_pcs : (g.unpredict p pc resume).pcs = mapLanes (g.lanesIn .run ||| g.lanesIn .yielded)
    (fun l _ => if p.exec.getLsbD l then pcWord pc else nth 0#32 p.before.pcs l) g.pcs := by
  cases h : g.handler <;>
    simp [Group.unpredict, Group.setLanes, Group.setStates, Group.setPcs, Group.pcs, Group.lanesIn, Group.states, h]

theorem Group.unpredict_states : (g.unpredict p pc resume).states =
    mapLanes (g.lanesIn .run &&& maskBy fun l => nth .exited p.before.states l == .yielded) (fun _ _ => .yielded) g.states := by
  cases h : g.handler <;>
    simp [Group.unpredict, Group.setLanes, Group.setStates, Group.setPcs, Group.pcs, Group.lanesIn, Group.states, h]

end

/-! ## The cores of a pair -/

theorem State.core_mapKnown_same {s : State} {n : Nat} {f : Core → Core} (hf : f Core.reset = Core.reset) :
    (s.mapKnown n f).core n = f (s.core n) := by
  unfold State.mapKnown
  split
  · rw [State.core_mapCore_same]
  next h => rw [State.core, h, Option.getD_none, hf]

theorem State.core_mapKnown_other (s : State) {n m : Nat} (f : Core → Core) (h : m ≠ n) :
    (s.mapKnown n f).core m = s.core m := by
  unfold State.mapKnown
  split
  · exact State.core_mapCore_other _ _ _ _ h
  · rfl

theorem core_foldl_mapKnown {f : Core → Core} (hf : f Core.reset = Core.reset) (m : Nat) {ns : List Nat} (hns : ns.Nodup)
    (s : State) : (ns.foldl (fun s n => s.mapKnown n f) s).core m = if m ∈ ns then f (s.core m) else s.core m := by
  induction ns generalizing s with
  | nil => rfl
  | cons n ns ih =>
    obtain ⟨hn, hns⟩ := List.nodup_cons.1 hns
    rw [List.foldl_cons, ih hns]
    by_cases h : m = n
    · subst h
      rw [if_neg hn, if_pos List.mem_cons_self, State.core_mapKnown_same hf]
    · rw [State.core_mapKnown_other _ _ h]
      simp only [List.mem_cons, h, false_or]

theorem nodup_pairCores (core : Nat) : (pairCores core).Nodup := by
  unfold pairCores
  split <;> simp

theorem mem_pairCores_self (core : Nat) : core ∈ pairCores core := by
  unfold pairCores
  split <;> simp

/-! ## Discarding what a group did in predicted mode (R333) -/

section
variable (s : State) (core slot : Nat) (g : Group) (p : Predicted) (pc : Word) (resume : Option Word)

/-- Of a core of the pair only the group's predicted clauses, groups and schedulers change. -/
theorem core_discardPredicted {n : Nat} (hn : n ∈ pairCores core) :
    let u := discardPredicted s core slot g p pc resume
    u.core n = { (s.core n).dropClauses (predictedOf g slot) with groups := (u.core n).groups, scheds := (u.core n).scheds } := by
  intro u
  have hfold := core_foldl_mapKnown (f := fun c => c.dropClauses (predictedOf g slot)) rfl n (nodup_pairCores core) s
  rw [if_pos hn] at hfold
  rw [← hfold]
  simp only [u, discardPredicted]
  rw [State.core_mapGroup]
  by_cases h : n = core
  · subst h
    rw [State.core_mapCore_same]
    split
    · split <;> rfl
    · rfl
  · rw [State.core_mapCore_other _ _ _ _ h]

theorem group_discardPredicted (hg : s.group? core slot = some g) (hl : g.late = []) :
    (discardPredicted s core slot g p pc resume).group? core slot = some (g.unpredict p pc resume) := by
  have hfold := core_foldl_mapKnown (f := fun c => c.dropClauses (predictedOf g slot)) rfl core (nodup_pairCores core) s
  rw [if_pos (mem_pairCores_self core)] at hfold
  simp only [discardPredicted]
  rw [State.group_mapGroup_same, State.group?, State.core_mapCore_same, hfold]
  have hc : ((s.core core).dropClauses (predictedOf g slot)).group? slot = some g := hg
  have hk : (g.unpredict p pc resume).parkAll = g.unpredict p pc resume :=
    Group.parkAll_of_late_nil ((g.unpredict_keeps p pc resume).1.trans hl)
  split
  case h_1 => split <;> exact (congrArg _ hc).trans (congrArg some hk)
  case h_2 => exact (congrArg _ hc).trans (congrArg some hk)

end

/-- What a group did in predicted mode is gone: its clauses and the marks of its lanes, which stand where a branch sends
them or where they stood; nothing else of its core has moved. -/
def Discarded (s : State) (core slot : Nat) (g : Group) (p : Predicted) (t : State) (pc : Word) (h : Group) : Prop :=
  t.group? core slot = some h ∧
  (∀ n ∈ pairCores core, (∀ k ∈ (t.core n).seqQueue, predictedOf g slot k = false) ∧
    ∀ k, (t.core n).seqRun = some k → predictedOf g slot k.clause = false) ∧
  h.predicted = none ∧ h.due = g.due ∧ h.pend = g.pend ∧ h.laneHdr = p.before.laneHdr ∧ h.marks = p.before.marks ∧
  h.pcs = mapLanes (g.lanesIn .run ||| g.lanesIn .yielded)
    (fun l _ => if p.exec.getLsbD l then pcWord pc else nth 0#32 p.before.pcs l) g.pcs ∧
  h.states = mapLanes (g.lanesIn .run &&& maskBy fun l => nth .exited p.before.states l == .yielded)
    (fun _ _ => .yielded) g.states ∧
  (t.core core).queues = (s.core core).queues ∧ (t.core core).copy = (s.core core).copy ∧
  (t.core core).quant = (s.core core).quant ∧ (t.core core).link = (s.core core).link ∧
  (t.core core).tileData = (s.core core).tileData ∧ (t.core core).spad = (s.core core).spad ∧
  (t.core core).counters = (s.core core).counters

theorem discardPredicted_discarded {s : State} {core slot : Nat} {g : Group} (p : Predicted) (pc : Word) (resume : Option Word)
    (hg : s.group? core slot = some g) (hl : g.late = []) :
    Discarded s core slot g p (discardPredicted s core slot g p pc resume) pc (g.unpredict p pc resume) := by
  obtain ⟨-, hdue, hpend⟩ := g.unpredict_keeps p pc resume
  have hcore := core_discardPredicted s core slot g p pc resume (mem_pairCores_self core)
  refine ⟨group_discardPredicted _ _ _ _ _ _ _ hg hl, fun n hn => ?_, rfl, hdue, hpend, rfl, rfl, g.unpredict_pcs ..,
    g.unpredict_states .., (congrArg Core.queues hcore :), (congrArg Core.copy hcore :), (congrArg Core.quant hcore :),
    (congrArg Core.link hcore :), (congrArg Core.tileData hcore :), (congrArg Core.spad hcore :),
    (congrArg Core.counters hcore :)⟩
  have hcore := core_discardPredicted s core slot g p pc resume hn
  have hqueue : _ = (s.core n).seqQueue.filter fun k => !predictedOf g slot k := congrArg Core.seqQueue hcore
  have hrun : _ = (s.core n).seqRun.filter fun r => !predictedOf g slot r.clause := congrArg Core.seqRun hcore
  refine ⟨fun k hk => ?_, fun k hk => ?_⟩
  · rw [hqueue, List.mem_filter] at hk
    simpa using hk.2
  · rw [hrun, Option.filter_eq_some_iff] at hk
    simpa using hk.2

/-! ## Releasing what a group withheld (R332) -/

theorem usesFabric_core (s : State) (k : EngCmd) (n : Nat) : (usesFabric s k).core n = s.core n := by
  unfold usesFabric
  split <;> rfl

theorem insertCmd_of_le {k : EngCmd} {js : List EngCmd} (h : ∀ j ∈ js, j.id ≤ k.id) : insertCmd k js = js ++ [k] := by
  induction js with
  | nil => rfl
  | cons j js ih =>
    obtain ⟨hj, hjs⟩ := List.forall_mem_cons.1 h
    rw [insertCmd, if_neg (by omega), ih hjs, List.cons_append]

theorem Core.eng_pushCmd (c : Core) (k : EngCmd) :
    (c.pushCmd k).eng (engineOf k.op) = { c.eng (engineOf k.op) with cmds := insertCmd k (c.eng (engineOf k.op)).cmds } := by
  unfold Core.pushCmd
  cases engineOf k.op <;> rfl

theorem Core.eng_tick (c : Core) (e : Engine) : c.tick.eng e = c.eng e := by cases e <;> rfl

theorem Core.eng_groups (c : Core) (gs : List (Nat × Group)) (e : Engine) : { c with groups := gs }.eng e = c.eng e := by
  cases e <;> rfl

theorem Core.group?_pushCmd (c : Core) (k : EngCmd) (n : Nat) : (c.pushCmd k).group? n = c.group? n := by
  unfold Core.pushCmd
  cases engineOf k.op <;> rfl

/-- A released clause is no longer predicted in the clause queues of the pair. -/
theorem seqQueue_releaseClause (s : State) {core n : Nat} (slot : Nat) (g : Group) (id : Nat) (hn : n ∈ pairCores core) :
    ((releaseClause s core slot g id).core n).seqQueue =
      (s.core n).seqQueue.map fun k => if predictedOf g slot k && k.id == id then { k with predicted := false } else k := by
  have hfold := core_foldl_mapKnown (f := fun c => c.mapClauses (fun k => predictedOf g slot k && k.id == id)
    fun k => { k with predicted := false }) rfl n (nodup_pairCores core) s
  rw [if_pos hn] at hfold
  simp only [releaseClause]
  rw [State.core_mapGroup, hfold]
  rfl

/-- Two groups that differ in nothing but what they wait for. -/
def SameButWait (g h : Group) : Prop := h = { g with wait := h.wait }

theorem SameButWait.trans {g h k : Group} (a : SameButWait g h) (b : SameButWait h k) : SameButWait g k := by
  unfold SameButWait at *
  rw [b, a]

theorem group_releaseClause {s : State} {core slot : Nat} {g : Group} (k : Group) (id : Nat) (hg : s.group? core slot = some g) :
    ∃ h, (releaseClause s core slot k id).group? core slot = some h ∧ SameButWait g h := by
  have hfold := core_foldl_mapKnown (f := fun c => c.mapClauses (fun j => predictedOf k slot j && j.id == id)
    fun k => { k with predicted := false }) rfl core (nodup_pairCores core) s
  rw [if_pos (mem_pairCores_self core)] at hfold
  have hc : ((s.core core).mapClauses (fun j => predictedOf k slot j && j.id == id)
    fun k => { k with predicted := false }).group? slot = some g := hg
  simp only [releaseClause]
  rw [State.group_mapGroup_same, State.group?, hfold, hc]
  refine ⟨_, rfl, ?_⟩
  beta_reduce
  split
  · split <;> rfl
  · rfl

/-- Releasing withheld items moves nothing of the group but the clause that it waits with. -/
theorem group_flushItems {s : State} {core slot : Nat} {g : Group} (k : Group) (items : List PredItem)
    (hg : s.group? core slot = some g) :
    ∃ h, (flushItems s core slot k items).1.group? core slot = some h ∧ SameButWait g h := by
  induction items generalizing s g with
  | nil => exact ⟨g, hg, rfl⟩
  | cons it items ih =>
    cases it with
    | cmd e c =>
      rw [flushItems]
      split
      · exact ⟨g, hg, rfl⟩
      · refine ih ?_
        rw [State.group?, usesFabric_core, State.core_setCore_same]
        exact (Core.group?_pushCmd ..).trans hg
    | push q v =>
      rw [flushItems]
      split
      · exact ⟨g, hg, rfl⟩
      · refine ih ?_
        rw [State.group?, State.core_setCore_same]
        exact hg
    | clause id =>
      obtain ⟨h, hh, hgh⟩ := group_releaseClause k id hg
      obtain ⟨j, hj, hhj⟩ := ih hh
      exact ⟨j, hj, hgh.trans hhj⟩

/-- What is left has gone behind what was released. -/
theorem flushItems_suffix (s : State) (core slot : Nat) (g : Group) (items : List PredItem) :
    (flushItems s core slot g items).2 <:+ items := by
  induction items generalizing s with
  | nil => exact List.suffix_rfl
  | cons it items ih =>
    cases it with
    | cmd e c =>
      rw [flushItems]
      split
      · exact List.suffix_rfl
      · exact (ih _).trans (List.suffix_cons ..)
    | push q v =>
      rw [flushItems]
      split
      · exact List.suffix_rfl
      · exact (ih _).trans (List.suffix_cons ..)
    | clause id => exact (ih _).trans (List.suffix_cons ..)

/-- A group whose branch has resolved, all of whose withheld items are out: its held trap falls due. -/
def Group.resolved (g : Group) (held : Option Trap) : Group :=
  match held with
  | none => { g with predicted := none }
  | some t => { g with predicted := none, due := some t, delivered := g.due.toList ++ g.delivered }

theorem flushPredicted_out {s : State} {core slot : Nat} {g : Group} {p : Predicted}
    (hl : (flushItems s core slot g p.items).2 = []) (hh : g.handler = none ∨ p.heldTrap = none) :
    flushPredicted s core slot g p =
      (flushItems s core slot g p.items).1.mapGroup core slot fun g => g.resolved p.heldTrap := by
  unfold flushPredicted
  simp only [hl]
  cases ht : p.heldTrap with
  | none => rfl
  | some t =>
    rw [ht] at hh
    simp only [hh.resolve_right (by simp)]
    exact State.mapGroup_mapGroup ..

theorem flushPredicted_left {s : State} {core slot : Nat} {g : Group} {p : Predicted}
    (hl : (flushItems s core slot g p.items).2 ≠ []) :
    flushPredicted s core slot g p = (flushItems s core slot g p.items).1.mapGroup core slot fun h =>
      { h with predicted := some { p with items := (flushItems s core slot g p.items).2, matched := true } } := by
  unfold flushPredicted
  simp only [List.isEmpty_eq_false_iff.2 hl, Bool.not_false, if_true]

/-- In a handler the held trap ends the launch (10 R345). -/
theorem flushPredicted_handler {s : State} {core slot : Nat} {g : Group} {p : Predicted} {t : Trap}
    (hi : p.items = []) (hh : g.handler.isSome = true) (ht : p.heldTrap = some t) :
    flushPredicted s core slot g p = abortLaunch (s.mapGroup core slot fun g => { g with predicted := none }) g.launch
      .trapInHandler (t.cause.code, core, p.heldAt.toNat) := by
  unfold flushPredicted
  simp only [hi, flushItems, ht]
  rw [if_pos hh]
  rfl

theorem Group.resolved_predicted (g : Group) (held : Option Trap) : (g.resolved held).predicted = none := by
  cases held <;> rfl

/-- A group whose branch went as hinted keeps its lanes and pending operations, and is predicted while items are left. -/
theorem group_flushPredicted {s : State} {core slot : Nat} {g : Group} (p : Predicted) (hg : s.group? core slot = some g)
    (hh : g.handler = none ∨ p.heldTrap = none) :
    ∃ h, (flushPredicted s core slot g p).group? core slot = some h ∧ h.pcs = g.pcs ∧ h.pend = g.pend ∧
      ((h.predicted = none ∧ h.due = (p.heldTrap <|> g.due)) ∨
        ∃ q, h.predicted = some q ∧ q.matched = true ∧ q.heldTrap = p.heldTrap ∧ h.due = g.due ∧ q.items ≠ [] ∧
          q.items <:+ p.items) := by
  obtain ⟨h, hf, hs⟩ := group_flushItems g p.items hg
  by_cases hl : (flushItems s core slot g p.items).2 = []
  · refine ⟨h.resolved p.heldTrap, ?_, ?_, ?_, .inl ⟨h.resolved_predicted _, ?_⟩⟩
    · rw [flushPredicted_out hl hh, State.group_mapGroup_same, hf, Option.map_some]
    all_goals
      rw [hs]
      cases p.heldTrap <;> rfl
  · let q := { p with items := (flushItems s core slot g p.items).2, matched := true }
    have hu : (flushPredicted s core slot g p).group? core slot = some { h with predicted := some q } := by
      rw [flushPredicted_left hl, State.group_mapGroup_same, hf]
      rfl
    exact ⟨_, hu, (congrArg Group.pcs hs :), (congrArg Group.pend hs :),
      .inr ⟨q, rfl, rfl, rfl, (congrArg Group.due hs :), hl, flushItems_suffix ..⟩⟩

/-- Once all is out the group is predicted no longer, and its cores are as the release has left them. -/
theorem flushPredicted_done {s t : State} {core slot : Nat} {g : Group} {p : Predicted}
    (hf : flushItems s core slot g p.items = (t, [])) (hh : g.handler = none ∨ p.heldTrap = none) :
    (∀ h, (flushPredicted s core slot g p).group? core slot = some h → h.predicted = none) ∧
    ∀ n, (flushPredicted s core slot g p).core n =
      { t.core n with groups := ((flushPredicted s core slot g p).core n).groups } := by
  have ht : flushPredicted s core slot g p = t.mapGroup core slot fun g => g.resolved p.heldTrap := by
    rw [flushPredicted_out (by rw [hf]) hh, hf]
  rw [ht]
  refine ⟨fun h hg => ?_, State.core_mapGroup _ _ _ _⟩
  rw [State.group_mapGroup_same, Option.map_eq_some_iff] at hg
  obtain ⟨k, -, rfl⟩ := hg
  exact k.resolved_predicted _

section
variable {s : State} {core slot : Nat} {g : Group} {p : Predicted}

/-- A withheld clause is predicted no longer. -/
theorem flushPredicted_clause {id : Nat} (hi : p.items = [.clause id]) (hh : g.handler = none ∨ p.heldTrap = none) :
    (∀ h, (flushPredicted s core slot g p).group? core slot = some h → h.predicted = none) ∧
    ∀ n ∈ pairCores core, ((flushPredicted s core slot g p).core n).seqQueue =
      (s.core n).seqQueue.map fun k => if predictedOf g slot k && k.id == id then { k with predicted := false } else k := by
  obtain ⟨hnone, hcore⟩ := flushPredicted_done (s := s) (core := core) (slot := slot) (by rw [hi]; rfl) hh
  refine ⟨hnone, fun n hn => ?_⟩
  rw [hcore n]
  exact seqQueue_releaseClause s slot g id hn

/-- A withheld push enters its queue behind what stands there. -/
theorem flushPredicted_push {q : Nat} {v : DWord} (hi : p.items = [.push q v]) (hq : q < (s.core core).queues.length)
    (hroom : (s.core core).queueFull q = false) (hh : g.handler = none ∨ p.heldTrap = none) :
    (∀ h, (flushPredicted s core slot g p).group? core slot = some h → h.predicted = none) ∧
    nth [] ((flushPredicted s core slot g p).core core).queues q = nth [] (s.core core).queues q ++
      [{ launch := g.launch, block := g.block, slot := slot, id := (s.core core).nextId, value := v }] := by
  obtain ⟨hnone, hcore⟩ := flushPredicted_done (s := s) (core := core) (slot := slot)
    (by rw [hi]; exact if_neg (by rw [hroom]; decide)) hh
  refine ⟨hnone, ?_⟩
  rw [hcore core, State.core_setCore_same]
  exact nth_setNth_same _ _ _ _ hq

/-- A withheld command enters its engine's queue behind what stands there. -/
theorem flushPredicted_cmd {e : Engine} {k : EngCmd} (hi : p.items = [.cmd e k]) (hroom : (s.core core).cmdFull k = false)
    (hid : ∀ j ∈ ((s.core core).eng (engineOf k.op)).cmds, j.id ≤ (s.core core).nextId)
    (hh : g.handler = none ∨ p.heldTrap = none) :
    (∀ h, (flushPredicted s core slot g p).group? core slot = some h → h.predicted = none) ∧
    (((flushPredicted s core slot g p).core core).eng (engineOf k.op)).cmds =
      ((s.core core).eng (engineOf k.op)).cmds ++ [{ k with id := (s.core core).nextId }] := by
  obtain ⟨hnone, hcore⟩ := flushPredicted_done (s := s) (core := core) (slot := slot)
    (by rw [hi]; exact if_neg (by rw [hroom]; decide)) hh
  refine ⟨hnone, ?_⟩
  rw [hcore core, Core.eng_groups, usesFabric_core, State.core_setCore_same, Core.eng_tick]
  exact (congrArg EngineState.cmds (Core.eng_pushCmd _ _)).trans (insertCmd_of_le hid)

end

/-! ## The resolution of a branch -/

section
variable {s : State} {core slot : Nat} {g : Group} {p : Predicted}

theorem resolveBranch_pending (hg : s.group? core slot = some g) (hp : g.predicted = some p) (hm : p.matched = false)
    (hw : g.pendingOpd (.p p.pred) = true) : resolveBranch s core slot = s := by
  simp [resolveBranch, hg, hp, hm, hw]

theorem resolveBranch_missed (hg : s.group? core slot = some g) (hp : g.predicted = some p) (hm : p.matched = false)
    (hw : g.pendingOpd (.p p.pred) = false) (ht : ((g.pred p.pred).getLsbD p.lane != p.gn) ≠ p.hintTaken) :
    resolveBranch s core slot = discardPredicted s core slot g p
      (if (g.pred p.pred).getLsbD p.lane != p.gn then p.taken else p.next) p.before.hdr := by
  simp only [resolveBranch, hg, hp, hm, hw]
  rw [if_neg ht]
  rfl

theorem resolveBranch_hit (hg : s.group? core slot = some g) (hp : g.predicted = some p) (hm : p.matched = false)
    (hw : g.pendingOpd (.p p.pred) = false) (ht : ((g.pred p.pred).getLsbD p.lane != p.gn) = p.hintTaken) :
    resolveBranch s core slot = flushPredicted s core slot g p := by
  simp only [resolveBranch, hg, hp, hm, hw]
  rw [if_pos ht]
  rfl

theorem abandonPrediction_predicted (hg : s.group? core slot = some g) (hp : g.predicted = some p) (hm : p.matched = false) :
    abandonPrediction s core slot = discardPredicted s core slot g p p.braPos (some p.hdrOff) := by
  simp [abandonPrediction, hg, hp, hm]

end

/-! ## Predicted clauses and traps -/

theorem seqIssue_predicted {s : State} {core : Nat} {run : SeqRun} {l : Launch} (hr : (s.core core).seqRun = some run)
    (hl : s.launch? run.clause.launch = some l) (hp : run.clause.predicted = true)
    (hc : check1 (issueCtx l run) (sidesOf s core run) = none) (hw : issueWrites (issueCtx l run) run = true) :
    seqIssue s core = s := by
  simp only [seqIssue, hr, hl]
  split
  · rfl
  · simp [hc, hp, hw]

theorem raiseTrap_predicted {s : State} {core slot : Nat} {g : Group} {p : Predicted} (hg : s.group? core slot = some g)
    (hp : g.predicted = some p) (hl : g.late = []) (ex : LaneMask) (pc : Word) (hdr : Option Word) (t : Trap) :
    ∃ h, (raiseTrap s core slot ex pc hdr t).group? core slot = some h ∧ h.due = g.due ∧
      h.predicted = some { p with heldTrap := some t, heldAt := pc } := by
  have hk : (g.movePcs ex pc).parkAll = g.movePcs ex pc := Group.parkAll_of_late_nil (by simp [hl])
  simp only [raiseTrap, hg, hp, Option.isNone_some, Bool.and_false]
  refine ⟨_, by rw [if_neg (by simp), State.group_mapGroup_same, hg, Option.map_some], ?_⟩
  simp [hk, hp]

/-- Settles O8: the lanes that a branch moves, and for a predicted one its resolution. -/
theorem branchMovesLanes : Obligations.BranchMovesLanes := by
  refine ⟨⟨fun s x w e hx hp => bra_acts hx hp, fun s x i w e hi hx => ?jump, fun s x w e hx => ?call⟩,
    fun s x w e hx hh hg hp => ?predict, fun s core slot g p hg hp hm hl => ?resolve,
    fun s run l w hr hl hp hc hw hk => ?issue,
    fun s core slot ex pc hdr t g p hg hp hl => raiseTrap_predicted hg hp hl ex pc hdr t⟩
  case jump =>
    rw [jumpForm_exec hi, branchReg, runAlways_acts hx]
    rfl
  case call =>
    rw [exec_call, call, runAlways_acts hx]
    rfl
  case predict =>
    intro pt target after q
    rw [bra_predicts hx (by rcases hh with hh | hh <;> rw [hh] <;> decide) hg hp]
    have hpt : ((w.d.extractLsb' 1 2).toNat == 1) = pt := by
      rcases hh with hh | hh <;> simp [pt, hh]
    simp only [predictBranch, hpt]
    rfl
  case resolve =>
    intro c taken r a noneLeft gone
    refine ⟨resolveBranch_pending hg hp hm, fun hw ht => ?_, fun u hw ht hh hi hu => ?_, fun hw ht hh => ?_, ?_⟩
    · refine ⟨_, ?_, g.unpredict_resumeHdr p (if taken then p.taken else p.next) p.before.hdr⟩
      rw [show r = _ from resolveBranch_missed hg hp hm hw ht]
      exact discardPredicted_discarded p _ _ hg hl
    · exact (resolveBranch_hit hg hp hm hw ht).trans (flushPredicted_handler hi hh hu)
    · rw [show r = _ from resolveBranch_hit hg hp hm hw ht]
      obtain ⟨h, hf, hpcs, hpend, hcase⟩ := group_flushPredicted p hg hh
      refine ⟨h, hf, hpcs, hpend, hcase, fun id hi => ?_, fun n v hi hn hroom => ?_, fun m k hi hroom hid => ?_⟩
      · exact (flushPredicted_clause hi hh).imp_left fun hnone => hnone h hf
      · exact (flushPredicted_push hi hn hroom hh).imp_left fun hnone => hnone h hf
      · exact (flushPredicted_cmd hi hroom hid hh).imp_left fun hnone => hnone h hf
    · refine ⟨_, ?_, g.unpredict_resumeHdr p p.braPos (some p.hdrOff)⟩
      rw [show a = _ from abandonPrediction_predicted hg hp hm]
      exact discardPredicted_discarded p _ _ hg hl
  case issue =>
    rw [exec_seqIssue, seqIssue_predicted hr hl hp hc]
    refine List.any_eq_true.2 ⟨w, hw, ?_⟩
    rcases hk with ⟨_, _, hk⟩ | ⟨_, hk⟩ | ⟨_, _, hk⟩ | ⟨_, hk⟩ | ⟨_, hk⟩ | ⟨_, _, q, hk, hq, h63⟩
    case inr.inr.inr.inr.inr => simp [hk, hq, h63]
    all_goals simp [hk]

end Sys2Proof.Machine
end

section
/-! PROOF. What is pending in a group, and the blocks of a core: what the synchronisation instructions ask of them
(01 R52, R55, 05 Table 5.4). -/

namespace Sys2Proof.Machine

/-! ## Pending operations -/

/-- No access is pending before a place in program order. -/
theorem Group.accessesDone_of {g : Group} {id : Nat} (h : ∀ p ∈ g.pend, p.id < id → p.op.isAccess = false) :
    g.accessesDone id = true := by
  refine List.all_eq_true.2 fun p hp => ?_
  by_cases hlt : p.id < id
  · simp [h p hp hlt]
  · simp [Nat.not_lt.1 hlt]

@[simp] theorem Group.pend?_dropPend (g : Group) (id : Nat) : (g.dropPend id).pend? id = none := by
  simp [Group.pend?, Group.dropPend, List.find?_eq_none]

/-! ## Blocks -/

theorem Core.block?_of_blocks {c d : Core} (h : d.blocks = c.blocks) (l n : Nat) : d.block? l n = c.block? l n := by
  rw [Core.block?, h, Core.block?]

/-- A change of the blocks of a place in a launch that keeps their place. -/
theorem Core.block?_mapBlock (c : Core) (l n : Nat) {f : Block → Block}
    (hf : ∀ b, (f b).launch = b.launch ∧ (f b).index = b.index) :
    (c.mapBlock l n f).block? l n = (c.block? l n).map f := by
  have hp : (fun b : Block => b.launch == l && b.index == n) ∘ (fun b => if b.launch = l ∧ b.index = n then f b else b) =
      fun b => b.launch == l && b.index == n := by
    funext b
    by_cases h : b.launch = l ∧ b.index = n <;> simp [h, hf]
  simp only [Core.block?, Core.mapBlock, List.find?_map, hp]
  cases hb : c.blocks.find? fun b => b.launch == l && b.index == n with
  | none => rfl
  | some b =>
    have := List.find?_some hb
    simp only [Bool.and_eq_true, beq_iff_eq] at this
    simp [this]

end Sys2Proof.Machine
end

section
/-! PROOF. Rings: slots yielded and awaited, pointers that move, and what RINGQ reads (05 R215 to R219). -/

namespace Sys2Proof.Machine

/-! ## What exec calls -/

theorem exec_ringw {i : Instr} {w : Base} {e : ExtC} {free : Bool} (h : ringForm i = some (w, e, true, free)) (s : State) :
    exec i s = ringw s i w e free := by
  cases i <;> simp_all [ringForm] <;> rfl

theorem exec_ringl {i : Instr} {w : Base} {e : ExtC} {free : Bool} (h : ringForm i = some (w, e, false, free)) (s : State) :
    exec i s = ringl s i e free := by
  cases i <;> simp_all [ringForm] <;> rfl

theorem exec_ringq (w : Base) (e : ExtC) (s : State) : exec (.ringq w e) s = ringq s (.ringq w e) w e := rfl
theorem exec_ringlApply (s : State) : exec .ringlApply s = .next (applyRingl s s.sel.core s.sel.slot s.sel.id) := rfl

/-! ## RINGW (R217) -/

/-- The slot that a RINGW yields where there are enough: the n-th behind the pointer of its side. -/
def ringSlot (d : RingDesc) (p : Nat × Nat) (free : Bool) (n : Nat) : DWord :=
  BitVec.ofNat 64 (d.base + ((if free then p.1 else p.2) + n) % d.slots * d.lines * 128)

/-- How many slots of a side a ring has. -/
def ringHas (d : RingDesc) (p : Nat × Nat) (free : Bool) : Nat := if free then ringFree d.slots p else ringFilled d.slots p

theorem ringwValue_eq (d : RingDesc) (p : Nat × Nat) (free : Bool) (n : Nat) :
    ringwValue d p free n = if n + 1 ≤ ringHas d p free then some (ringSlot d p free n) else none := by
  cases free <;> rfl

theorem ringw_executes {s : State} {x : Issuer} {i : Instr} (h : Executes s x i) (w : Base) (e : ExtC) (free : Bool) :
    let d := ringDesc x.l (ringOf e)
    let p := x.b.ring (ringOf e)
    ringw s i w e free = .next
      (if d.slots - 1 ≤ ringN e then instrTrap s x i .queueFault 0 0#32
       else if ringN e + 1 ≤ ringHas d p free then
        goesOn (s.mapGroup x.core x.slot fun g => g.ringGot free w.d.toNat (ringSlot d p free (ringN e)) (s.core x.core).nextId) x i
       else waitsBehind (setWait s x.core x.slot (.ring (ringOf e) free (ringN e) w.d.toNat)) x i) := by
  intro d p
  rw [ringw, runInstr_executes h]
  simp only [ringwValue_eq]
  congr 1
  by_cases hn : d.slots - 1 ≤ ringN e
  · rw [if_pos (show (ringDesc x.l (ringOf e)).slots ≤ ringN e + 1 from Nat.sub_le_iff_le_add.1 hn), if_pos hn]
    rfl
  · rw [if_neg (show ¬(ringDesc x.l (ringOf e)).slots ≤ ringN e + 1 from fun h => hn (Nat.sub_le_iff_le_add.2 h)), if_neg hn]
    by_cases hv : ringN e + 1 ≤ ringHas d p free
    · simp only [d, p] at hv ⊢
      rw [if_pos hv, if_pos hv]
      rfl
    · simp only [d, p] at hv ⊢
      rw [if_neg hv, if_neg hv]
      rfl

/-! ## RINGL (R218, R219) -/

theorem ringl_executes {s : State} {x : Issuer} {i : Instr} (h : Executes s x i) (e : ExtC) (free : Bool) :
    let d := ringDesc x.l (ringOf e)
    let p := ringAhead x.g d.slots (ringOf e) (x.b.ring (ringOf e))
    ringl s i e free = .next
      (if d.slots ≠ 0 ∧ 1 ≤ ringHas d p free then
        goesOn ((s.mapGroup x.core x.slot fun g => g.addPend (s.core x.core).nextId (.ringl (ringOf e) free)).mapCore x.core
          Core.tick) x i
       else instrTrap s x i .queueFault 0 0#32) := by
  intro d p
  rw [ringl, runInstr_executes h]
  congr 1
  simp only
  change settleAct s x i (if d.slots ≠ 0 ∧ 1 ≤ ringHas d p free then _ else _) = _
  split <;> rfl

/-- A RINGL whose release is complete, the group's first on its ring, applies. -/
theorem applyRingl_first {s : State} {core slot id r : Nat} {g : Group} {l : Launch} {free : Bool}
    (hg : s.group? core slot = some g) (hp : g.pend? id = some (.ringl r free)) (hl : s.launch? g.launch = some l)
    (hbefore : ∀ p ∈ g.pend, p.id < id → p.op.isAccess = false ∧ ∀ b, p.op ≠ .ringl r b) :
    applyRingl s core slot id =
      (s.mapGroup core slot fun g => g.dropPend id).mapCore core fun c => c.moveRing l g.block r free := by
  have hdone : g.accessesDone id = true := Group.accessesDone_of fun p hp' hlt => (hbefore p hp' hlt).1
  simp only [applyRingl, hg, hp, hl, hdone, Bool.not_true, Bool.or_false]
  refine if_neg (Bool.not_eq_true _ ▸ List.any_eq_false.2 fun p hp' h => ?_)
  rw [Bool.and_eq_true, decide_eq_true_eq] at h
  obtain ⟨hlt, hk⟩ := h
  split at hk
  next k b ho => exact (hbefore p hp' hlt).2 b (by rw [ho, beq_iff_eq.1 hk])
  next => cases hk

/-- The pointers of a ring after a move. -/
def ringMoved (slots : Nat) (free : Bool) (p : Nat × Nat) : Nat × Nat :=
  if free then ((p.1 + 1) % slots, p.2) else (p.1, (p.2 + 1) % slots)

theorem moveRing_block {c : Core} {l : Launch} {n r : Nat} {free : Bool} {b : Block} (hb : c.block? l.id n = some b)
    (hr : r < b.rings.length) : ∃ b', (c.moveRing l n r free).block? l.id n = some b' ∧
      b'.ring r = ringMoved (ringDesc l r).slots free (b.ring r) := by
  let move : Block → Block := fun b => { b with rings := setNth b.rings r (ringMoved (ringDesc l r).slots free (b.ring r)) }
  have hblock : (c.mapBlock l.id n move).block? l.id n = some (move b) := by
    rw [Core.block?_mapBlock c _ _ (f := move) fun b => ⟨rfl, rfl⟩, hb, Option.map_some]
  refine ⟨move b, ?_, nth_setNth_same _ _ _ _ hr⟩
  rw [← hblock, Core.moveRing]
  refine Core.block?_of_blocks ?_ _ _
  change Core.blocks (match (c.mapBlock l.id n move).block? l.id n with | none => _ | some b => _) = _
  rw [hblock]
  rfl

/-- Settles O24: RINGW by the slots that the ring has, RINGL by those that it will have, and its move. -/
theorem ringInstructions : Obligations.RingInstructions := by
  refine ⟨⟨fun s x i w e free hi hx => ?ringw, fun s x i w e free hi hx => ?ringl, fun s x w e hx => ?ringq⟩,
    fun s g l r free hg hp hl hb => ⟨?apply, fun c b hc hr => moveRing_block hc hr⟩⟩
  case ringw =>
    rw [exec_ringw hi, ringw_executes hx]
    cases free <;> rfl
  case ringl =>
    rw [exec_ringl hi, ringl_executes hx]
    rfl
  case ringq =>
    rw [exec_ringq, ringq, runInstr_done hx rfl]
    rfl
  case apply =>
    rw [exec_ringlApply, applyRingl_first hg hp hl hb]

end Sys2Proof.Machine
end

section
/-! PROOF. Releases of a scope, and the counters: read, awaited and added to (05 R198, R211 to R214, Table 5.4, 01 R26). -/

namespace Sys2Proof.Machine

/-! ## One step of a release (Table 5.4) -/

section
variable {s : State} {core slot scope mark : Nat} {g : Group} (hg : s.group? core slot = some g)
  (ha : g.accessesDone mark = true)
include hg ha

/-- At core scope a release awaits accesses alone. -/
theorem releaseStep_core (hs : scope < 2) : releaseStep s core slot scope mark = some (s, true) := by
  simp [releaseStep, hg, ha, hs]

/-- A release wider than core writes the dirty bytes of L1 back first. -/
theorem releaseStep_dirty (hs : 2 ≤ scope) (hd : (s.core core).l1Dirty = true) :
    releaseStep s core slot scope mark = some (writeBack s core fun _ => true, false) := by
  simp [releaseStep, hg, ha, Nat.not_lt.2 hs, hd]

/-- A release is complete once what it wrote back, and at domain and system scope the earlier PUTs, are acknowledged. -/
theorem releaseStep_complete (hd : 2 ≤ scope → (s.core core).l1Dirty = false ∧ (s.core core).wbOut = 0)
    (hp : 6 ≤ scope → putsDone s core slot mark = true) : releaseStep s core slot scope mark = some (s, true) := by
  by_cases hs : scope < 2
  · exact releaseStep_core hg ha hs
  · obtain ⟨hclean, hout⟩ := hd (Nat.not_lt.1 hs)
    simp [releaseStep, hg, ha, hs, hclean, hout]
    exact hp
end

/-! ## What exec calls -/

theorem exec_ctradd (w : Base) (e : ExtC) (s : State) : exec (.ctradd w e) s = ctradd s (.ctradd w e) w e := rfl
theorem exec_ctrwait (w : Base) (e : ExtC) (s : State) : exec (.ctrwait w e) s = ctrwait s (.ctrwait w e) w e := rfl
theorem exec_ctrrd (w : Base) (e : ExtC) (s : State) : exec (.ctrrd w e) s = ctrrd s (.ctrrd w e) w e := rfl
theorem exec_ctraddApply (s : State) : exec .ctraddApply s = .next (applyCtradd s s.sel.core s.sel.slot s.sel.id) := rfl

/-! ## Counters -/

theorem ctrwait_executes {s : State} {x : Issuer} {w : Base} {e : ExtC} (h : Executes s x (.ctrwait w e)) :
    ctrwait s (.ctrwait w e) w e = .next
      (if ctrValue x w e ≤ (s.core x.core).counter (ctrOf e) then
        goesOn (s.mapGroup x.core x.slot fun g => g.acquire (ctrScope e) (s.core x.core).nextId) x (.ctrwait w e)
      else waitsBehind (setWait s x.core x.slot (.counter (ctrOf e) (ctrValue x w e) (ctrScope e))) x (.ctrwait w e)) := by
  rw [ctrwait, runInstr_executes h]
  simp only
  split <;> rfl

/-- The group's first pending addition takes the next step of its release. -/
theorem applyCtradd_first {s : State} {core slot id k scope : Nat} {v : DWord} {g : Group}
    (hg : s.group? core slot = some g) (hp : g.pend? id = some (.ctradd k v scope))
    (hbefore : ∀ p ∈ g.pend, p.id < id → ∀ j u c, p.op ≠ .ctradd j u c) :
    applyCtradd s core slot id = match releaseStep s core slot scope id with
      | none => s
      | some (t, false) => t
      | some (t, true) => (t.mapGroup core slot fun g => g.dropPend id).mapCore core fun c => c.addCounter k v := by
  simp only [applyCtradd, hg, hp]
  refine (if_neg (Bool.not_eq_true _ ▸ List.any_eq_false.2 fun p hp' h => ?_)).trans (by rfl)
  rw [Bool.and_eq_true, decide_eq_true_eq] at h
  obtain ⟨hlt, hk⟩ := h
  split at hk
  next j u c ho => exact hbefore p hp' hlt j u c ho
  next => cases hk

/-- Adding to a counter wraps, and releases groups alone. -/
theorem Core.addCounter_frame (c : Core) (k : Nat) (v : DWord) :
    c.addCounter k v = { c with counters := setNth c.counters k (c.counter k + v), groups := (c.addCounter k v).groups } := rfl

theorem Core.counter_addCounter_same {c : Core} {k : Nat} (v : DWord) (h : k < c.counters.length) :
    (c.addCounter k v).counter k = c.counter k + v := nth_setNth_same _ _ _ _ h

theorem Core.counter_addCounter_other (c : Core) {k j : Nat} (v : DWord) (h : j ≠ k) :
    (c.addCounter k v).counter j = c.counter j := nth_setNth_other _ _ _ _ _ h

/-- Settles O23: an addition is released and applies, a wait compares, and other counters keep their value. -/
theorem counterInstructions : Obligations.CounterInstructions := by
  refine ⟨⟨fun s x w e hx => ?add, fun s g k scope v hg hp hb => ⟨fun hs hd => ?dirty, fun hd hputs => ?apply⟩,
    fun s x w e hx => ?wait, fun s x w e hx => ?read⟩,
    fun c k v hk => ⟨?sum, fun j hj => c.counter_addCounter_other v hj, rfl, rfl, rfl, rfl, rfl, rfl⟩⟩
  case add =>
    rw [exec_ctradd, ctradd, runInstr_done hx rfl]
    rfl
  case wait =>
    rw [exec_ctrwait, ctrwait_executes hx]
    rfl
  case read =>
    rw [exec_ctrrd, ctrrd, runInstr_done hx rfl]
    rfl
  case sum =>
    rw [c.counter_addCounter_same v hk]
    exact BitVec.eq_of_toNat_eq (by simp)
  all_goals
    have hdone : g.accessesDone s.sel.id = true := Group.accessesDone_of fun p hp' hlt => (hb p hp' hlt).1
    rw [exec_ctraddApply, applyCtradd_first hg hp fun p hp' hlt => (hb p hp' hlt).2]
  case dirty => rw [releaseStep_dirty hg hdone hs hd]
  case apply => rw [releaseStep_complete hg hdone hd hputs]

end Sys2Proof.Machine
end

section
/-! PROOF. Tiles: given, taken and queried; the steps of a group's first pending TAKE (05 R206 to R210). -/

namespace Sys2Proof.Machine

/-! ## What exec calls -/

theorem exec_give (w : Base) (e : ExtC) (s : State) : exec (.give w e) s = give s (.give w e) w e := rfl
theorem exec_take (w : Base) (e : ExtC) (s : State) : exec (.take w e) s = take s (.take w e) w e := rfl
theorem exec_ownq (w : Base) (e : ExtC) (s : State) : exec (.ownq w e) s = ownq s (.ownq w e) w e := rfl
theorem exec_takeComplete (s : State) : exec .takeComplete s = .next
    (match (s.core s.sel.core).stepTake s.sel.slot with | some c => s.setCore s.sel.core c | none => s) := rfl

/-! ## The first pending TAKE (R208) -/

theorem Group.firstTake_eq_none {g : Group} : g.firstTake = none ↔ g.takePending = false := by
  simp only [Group.firstTake, Group.takePending, List.findSome?_eq_none_iff, List.any_eq_false]
  refine forall₂_congr fun p _ => ?_
  cases p.op <;> simp

/-- A TAKE is the first where none is pending. -/
theorem Group.firstTake_addPend {g : Group} (h : g.takePending = false) (id : Nat) (k : TakeSel) (e : Option Nat) :
    (g.addPend id (.take k e)).firstTake = some (id, k, e) := by
  have hn := Group.firstTake_eq_none.2 h
  rw [Group.firstTake] at hn
  simp [Group.firstTake, Group.addPend, List.findSome?_append, hn]

/-! ## A TAKE completes (R207) -/

/-- A group whose TAKE of a tile is complete. -/
def Group.took (g : Group) (id t : Nat) (bind : Option Nat) : Group :=
  let g := g.dropPend id
  let g := match bind with | some e => { g with winmap := setNth g.winmap e (some t) } | none => g
  { g with wait := if g.wait = .take then .none else g.wait }

/-- A core whose group has taken a tile. -/
def Core.tookTile (c : Core) (slot id t : Nat) (bind : Option Nat) : Core :=
  (c.setTile t { c.tile t with offer := false }).mapGroup slot fun g => g.took id t bind

theorem Core.completeTake_eq (c : Core) (slot id t : Nat) (bind : Option Nat) : c.completeTake slot id t bind =
    if (c.tile t).owner = slot ∧ (c.tile t).land = false then some (c.tookTile slot id t bind) else none := by
  unfold Core.completeTake
  simp only [Bool.not_eq_true']
  rfl

theorem Group.took_pend (g : Group) (id t : Nat) (bind : Option Nat) : (g.took id t bind).pend = (g.dropPend id).pend := by
  cases bind <;> rfl

theorem Group.took_bound {g : Group} {e : Nat} (he : e < g.winmap.length) (id t : Nat) :
    winTile (g.took id t (some e)).winmap e = some t := nth_setNth_same _ _ _ _ he

theorem Core.tookTile_tile {c : Core} {t : Nat} (ht : t < c.tiles.length) (slot id : Nat) (bind : Option Nat) :
    (c.tookTile slot id t bind).tile t = { c.tile t with offer := false } := by
  rw [Core.tookTile, Core.mapGroup_frame]
  exact Core.tile_setTile_same _ ht

theorem Core.tookTile_group {c : Core} {slot : Nat} {g : Group} (hg : c.group? slot = some g) (id t : Nat)
    (bind : Option Nat) : (c.tookTile slot id t bind).group? slot = some (g.took id t bind) := by
  have hset : (c.setTile t { c.tile t with offer := false }).group? slot = some g := hg
  rw [Core.tookTile, Core.group_mapGroup_same, hset, Option.map_some]

/-! ## Steps of a TAKE -/

section
variable {c : Core} {slot id : Nat} {g : Group} {bind : Option Nat} (hg : c.group? slot = some g)
include hg

theorem Core.stepTake_none (h : g.takePending = false) : c.stepTake slot = none := by
  simp [Core.stepTake, hg, Group.firstTake_eq_none.2 h]

theorem Core.stepTake_tile {t : Nat} (h : g.firstTake = some (id, .tile t, bind)) :
    c.stepTake slot = c.completeTake slot id t bind := by
  simp [Core.stepTake, hg, h]

theorem Core.stepTake_offered (h : g.firstTake = some (id, .offered, bind)) : c.stepTake slot =
    (offeredTo c.tiles slot).map fun t =>
      let c := c.mapGroup slot fun g => g.setPend id (.take (.tile t) bind)
      (c.completeTake slot id t bind).getD c := by
  simp only [Core.stepTake, hg, Option.bind_some, h]
  cases offeredTo c.tiles slot <;> rfl
end

/-! ## Offered tiles -/

/-- The model's search is the library's. -/
theorem findIx_eq_findIdx? {α : Type} (p : α → Bool) (xs : List α) : findIx p xs = xs.findIdx? p := by
  induction xs with
  | nil => rfl
  | cons x xs ih => rw [findIx, ih, List.findIdx?_cons]

/-- A tile is offered to a slot. -/
def Core.Offers (c : Core) (slot t : Nat) : Prop :=
  t < c.tiles.length ∧ (c.tile t).owner = slot ∧ (c.tile t).offer = true

theorem Core.offers_iff {c : Core} {slot t : Nat} : c.Offers slot t ↔
    ∃ h : t < c.tiles.length, (c.tiles[t].owner == slot && c.tiles[t].offer) = true := by
  have hnth : ∀ h : t < c.tiles.length, c.tile t = c.tiles[t] := fun h => nth_of_getElem? (List.getElem?_eq_getElem h)
  constructor
  · rintro ⟨h, ho, hf⟩
    exact ⟨h, by simp [← hnth h, ho, hf]⟩
  · rintro ⟨h, ho⟩
    rw [← hnth h, Bool.and_eq_true, beq_iff_eq] at ho
    exact ⟨h, ho⟩

theorem offeredTo_none {c : Core} {slot : Nat} (h : ∀ t, ¬c.Offers slot t) : offeredTo c.tiles slot = none := by
  rw [offeredTo, findIx_eq_findIdx?, List.findIdx?_eq_none_iff]
  intro y hy
  obtain ⟨t, ht, rfl⟩ := List.getElem_of_mem hy
  exact Bool.eq_false_iff.2 fun ho => h t (Core.offers_iff.2 ⟨ht, ho⟩)

theorem offeredTo_lowest {c : Core} {slot t : Nat} (h : c.Offers slot t) (hlow : ∀ u, u < t → ¬c.Offers slot u) :
    offeredTo c.tiles slot = some t := by
  rw [offeredTo, findIx_eq_findIdx?, List.findIdx?_eq_some_iff_getElem]
  obtain ⟨ht, ho⟩ := Core.offers_iff.1 h
  exact ⟨ht, ho, fun u hu hu' => hlow u hu (Core.offers_iff.2 ⟨hu.trans ht, hu'⟩)⟩

/-! ## GIVE and TAKE -/

/-- GIVE of an own tile to a live group of the block, or to a unit (R206). -/
theorem give_executes {s : State} {x : Issuer} {w : Base} {e : ExtC} {t : Nat} (h : Executes s x (.give w e))
    (ht : tileSel x w e = some t) (ho : ((s.core x.core).tile t).owner = x.slot)
    (hlive : (e.imm.extractLsb' 0 6).toNat ≠ x.slot → (e.imm.extractLsb' 0 6).toNat ≤ 0x1F →
      liveSlot (s.core x.core) x.g (e.imm.extractLsb' 0 6).toNat = true) :
    let n := (e.imm.extractLsb' 0 6).toNat
    let c := s.core x.core
    let y := c.tile t
    give s (.give w e) w e = .next (goesOn
      (if n = x.slot then s
       else s.setCore x.core ((c.setTile t { y with
        owner := n, offer := y.offer || decide (n ≤ 0x1F), land := true
        waits := y.waits ++ [(x.slot, c.nextId)] }).tick.settleTiles)) x (.give w e)) := by
  intro n c y
  rw [give, runInstr_executes h]
  simp only [ht, ho]
  by_cases hn : n = x.slot
  · rw [if_pos hn, if_neg (fun h => h rfl), if_pos hn]
    rfl
  · have hdead : ¬(n ≤ 0x1F ∧ (!liveSlot c x.g n) = true) := fun ⟨hle, hd⟩ => by
      rw [hlive hn hle] at hd
      cases hd
    rw [if_neg hn, if_neg (fun h => h rfl), if_neg hn, if_neg hdead]
    rfl

/-- A group with a new TAKE pending. -/
def takeIssued (s : State) (x : Issuer) (k : TakeSel) (bind : Option Nat) : State :=
  (s.mapGroup x.core x.slot fun g => g.addPend (s.core x.core).nextId (.take k bind)).mapCore x.core Core.tick

/-- The entry of the window that a TAKE binds. -/
def takeBind (e : ExtC) : Option Nat := if e.imm.getLsbD 15 then some (e.imm.extractLsb' 13 2).toNat else none

theorem take_executes {s : State} {x : Issuer} {w : Base} {e : ExtC} {k : TakeSel} (h : Executes s x (.take w e))
    (hk : (e.imm.extractLsb' 22 2).toNat = 3 ∧ k = .offered ∨
      ∃ t, (e.imm.extractLsb' 22 2).toNat ≠ 3 ∧ tileSel x w e = some t ∧ k = .tile t ∧
        ((e.imm.extractLsb' 22 2).toNat = 0 ∨ x.b.tiles.contains t = true)) :
    take s (.take w e) w e = .next (goesOn
      ((takeIssued s x k (takeBind e)).mapCore x.core fun c => c.stepTakes x.slot 2) x (.take w e)) := by
  rw [take, runInstr_executes h]
  rcases hk with ⟨h3, rfl⟩ | ⟨t, h3, ht, rfl, hin⟩
  · simp only [h3, if_true]
    rfl
  · have hok : ¬((e.imm.extractLsb' 22 2).toNat ≠ 0 ∧ (!x.b.tiles.contains t) = true) := fun ⟨h0, hnot⟩ => by
      rw [hin.resolve_left h0] at hnot
      cases hnot
    simp only [if_neg h3, ht, if_neg hok]
    rfl

/-- The group of a TAKE that is the only one pending, and what the rest of its core shows. -/
theorem takeIssued_group {s : State} {x : Issuer} (hx : issuer s = some x) (k : TakeSel) (bind : Option Nat) :
    ((takeIssued s x k bind).core x.core).group? x.slot = some (x.g.addPend (s.core x.core).nextId (.take k bind)) := by
  have hg : (s.core x.core).group? x.slot = some x.g := (issuer_stands hx).1
  rw [takeIssued, State.core_mapCore_same, State.mapGroup, State.core_mapCore_same]
  exact (Core.group_mapGroup_same _ _ _).trans (by rw [hg]; rfl)

theorem takeIssued_tiles (s : State) (x : Issuer) (k : TakeSel) (bind : Option Nat) :
    ((takeIssued s x k bind).core x.core).tiles = (s.core x.core).tiles := by
  rw [takeIssued, State.core_mapCore_same, State.mapGroup, State.core_mapCore_same, Core.mapGroup_frame]
  rfl

theorem takeIssued_unchanged (s : State) (x : Issuer) (k : TakeSel) (bind : Option Nat) {f : Core → Core}
    (hf : f ((takeIssued s x k bind).core x.core) = (takeIssued s x k bind).core x.core) :
    (takeIssued s x k bind).mapCore x.core f = takeIssued s x k bind := by
  rw [takeIssued, State.core_mapCore_same] at hf
  rw [takeIssued, State.mapCore_mapCore]
  exact State.mapCore_congr hf

/-- A TAKE that is complete leaves nothing pending but what was pending before it. -/
theorem Group.mem_pend_took {g : Group} {id t : Nat} {k : TakeSel} {bind : Option Nat} {p : Pend}
    (h : p ∈ ((g.addPend id (.take k bind)).took id t bind).pend) : p ∈ g.pend := by
  rw [Group.took_pend, Group.dropPend, List.mem_filter, decide_eq_true_eq, Group.addPend, List.mem_append] at h
  obtain ⟨hold | hnew, hne⟩ := h
  · exact hold
  · rw [List.mem_singleton.1 hnew] at hne
    exact absurd rfl hne

/-- The only TAKE of a group, of a named tile: it completes at once where the tile is the group's own with LAND clear. -/
theorem takeIssued_settles {s : State} {x : Issuer} {t : Nat} (bind : Option Nat) (hx : issuer s = some x)
    (hp : x.g.takePending = false) (ht : t < (s.core x.core).tiles.length) :
    let y := (s.core x.core).tile t
    let u := takeIssued s x (.tile t) bind
    let v := u.mapCore x.core fun c => c.stepTakes x.slot 2
    (¬(y.owner = x.slot ∧ y.land = false) → v = u) ∧
    (y.owner = x.slot → y.land = false → (v.core x.core).tile t = { y with offer := false } ∧
      (∀ p ∈ (groupOf v x).pend, p ∈ x.g.pend) ∧
      ∀ n, bind = some n → n < x.g.winmap.length → winTile (groupOf v x).winmap n = some t) := by
  intro y u v
  let id := (s.core x.core).nextId
  have hg := takeIssued_group hx (.tile t) bind
  have htiles := takeIssued_tiles s x (.tile t) bind
  have htile : (u.core x.core).tile t = y := by rw [Core.tile, htiles]; rfl
  have hstep : (u.core x.core).stepTake x.slot = (u.core x.core).completeTake x.slot id t bind :=
    Core.stepTake_tile hg (Group.firstTake_addPend hp _ _ _)
  rw [Core.completeTake_eq, htile] at hstep
  constructor
  · intro hno
    rw [if_neg hno] at hstep
    exact takeIssued_unchanged s x _ bind (by rw [Core.stepTakes, hstep])
  · intro ho hl
    rw [if_pos ⟨ho, hl⟩] at hstep
    have hafter := Core.tookTile_group hg id t bind
    have hnone : ((u.core x.core).tookTile x.slot id t bind).stepTake x.slot = none :=
      Core.stepTake_none hafter (List.any_eq_false.2 fun p hp' => List.any_eq_false.1 hp p (Group.mem_pend_took hp'))
    have hv : v.core x.core = (u.core x.core).tookTile x.slot id t bind := by
      simp only [v, State.core_mapCore_same, Core.stepTakes, hstep, hnone]
    have hgroup : groupOf v x = (x.g.addPend id (.take (.tile t) bind)).took id t bind := by
      rw [groupOf, State.group?, hv, hafter]
      rfl
    refine ⟨?_, fun p hp' => Group.mem_pend_took (hgroup ▸ hp'), fun n hn hlt => ?_⟩
    · rw [hv, Core.tookTile_tile (htiles ▸ ht), htile]
    · rw [hgroup, hn]
      exact Group.took_bound (g := x.g.addPend id _) hlt id t

/-! ## TAKE_COMPLETE -/

section
variable {s : State} {g : Group} {id : Nat} {bind : Option Nat} (hg : s.group? s.sel.core s.sel.slot = some g)
include hg

theorem takeComplete_offered_none (hf : g.firstTake = some (id, .offered, bind))
    (h : ∀ t, ¬(s.core s.sel.core).Offers s.sel.slot t) : exec .takeComplete s = .next s := by
  rw [exec_takeComplete, Core.stepTake_offered hg hf, offeredTo_none h]
  rfl

theorem takeComplete_offered_lowest (hf : g.firstTake = some (id, .offered, bind)) {t : Nat}
    (h : (s.core s.sel.core).Offers s.sel.slot t) (hlow : ∀ u, u < t → ¬(s.core s.sel.core).Offers s.sel.slot u) :
    let c := (s.core s.sel.core).mapGroup s.sel.slot fun g => g.setPend id (.take (.tile t) bind)
    exec .takeComplete s = .next (s.setCore s.sel.core ((c.completeTake s.sel.slot id t bind).getD c)) := by
  rw [exec_takeComplete, Core.stepTake_offered hg hf, offeredTo_lowest h hlow]
  rfl

theorem takeComplete_waits {t : Nat} (hf : g.firstTake = some (id, .tile t, bind))
    (h : ¬(((s.core s.sel.core).tile t).owner = s.sel.slot ∧ ((s.core s.sel.core).tile t).land = false)) :
    exec .takeComplete s = .next s := by
  rw [exec_takeComplete, Core.stepTake_tile hg hf, Core.completeTake_eq, if_neg h]

theorem takeComplete_takes {t : Nat} (hf : g.firstTake = some (id, .tile t, bind))
    (ho : ((s.core s.sel.core).tile t).owner = s.sel.slot) (hl : ((s.core s.sel.core).tile t).land = false) :
    exec .takeComplete s = .next (s.setCore s.sel.core ((s.core s.sel.core).tookTile s.sel.slot id t bind)) := by
  rw [exec_takeComplete, Core.stepTake_tile hg hf, Core.completeTake_eq, if_pos ⟨ho, hl⟩]
end

/-- Settles O22: the new owner of a given tile, the TAKE that completes or waits, and what OWNQ reads. -/
theorem tileHandOff : Obligations.TileHandOff := by
  refine ⟨⟨fun s x w e t hx ht => ?give, fun s x w e k hx hk => ⟨?take, fun hp t hkt ht => ?once⟩,
    fun s x w e hx => ?query⟩, fun s g id bind hg hf => ⟨?none, ?lowest⟩,
    fun s g id t bind hg hf ht => ⟨takeComplete_waits hg hf, fun ho hl => ?takes⟩⟩
  case give =>
    intro n y ho hl
    rw [exec_give, give_executes hx ht ho hl]
    rfl
  case take =>
    rw [exec_take, take_executes hx hk]
    rfl
  case once =>
    subst hkt
    exact takeIssued_settles (takeBind e) hx.1.1 hp ht
  case query =>
    rw [exec_ownq, ownq, runInstr_done hx rfl]
    cases tileSel x w e <;> rfl
  case none => exact takeComplete_offered_none hg hf
  case lowest => exact fun t h hlow => takeComplete_offered_lowest hg hf h hlow
  case takes =>
    have hafter := Core.tookTile_group (c := s.core s.sel.core) hg id t bind
    refine ⟨_, g.took id t bind, takeComplete_takes hg hf ho hl, ?_, ?_, ?_, fun e he hlt => ?_⟩
    · rw [State.core_setCore_same, Core.tookTile_tile ht]
    · rw [State.group?, State.core_setCore_same, hafter]
    · rw [Group.pend?, Group.took_pend]
      exact g.pend?_dropPend id
    · rw [he]
      exact Group.took_bound hlt _ _

end Sys2Proof.Machine
end

section
/-! PROOF. FENCE, ACQ and REL: what they leave a group waiting for, and the actions one by one until they are complete
(05 R198 to R201, Table 5.4). -/

namespace Sys2Proof.Machine

/-! ## What exec calls -/

theorem exec_syncActionsComplete {s : State} {g : Group} {op : SyncOp} (hg : s.group? s.sel.core s.sel.slot = some g)
    (hw : g.wait = .sync op) : exec .syncActionsComplete s = .next (syncStep s s.sel.core s.sel.slot op) := by
  change execSyncActionsComplete s = _
  simp only [execSyncActionsComplete, hg, hw]

/-! ## Issue -/

theorem scope_toNat_eq_zero {v : BitVec 3} : v.toNat = 0 ↔ v = 0#3 :=
  ⟨fun h => BitVec.eq_of_toNat_eq h, fun h => by rw [h]; rfl⟩

/-- An instruction of a synchronisation waits for its actions, but for the scope group, which has none. -/
theorem sync_executes {s : State} {x : Issuer} {i : Instr} (h : Executes s x i) (e : ExtC) (rel acq walk : Bool) :
    sync s i e rel acq walk = .next (if e.scope = 0#3 then goesOn s x i
      else goesOn (setWait s x.core x.slot (.sync
        { rel := rel, acq := acq, scope := e.scope.toNat, walk := walk, victim := none
          mark := (s.core x.core).nextId, sent := false })) x i) := by
  rw [sync, runInstr_executes h, syncWait]
  simp only [scope_toNat_eq_zero]
  split <;> rfl

/-- The victim that an ACQ .remote names. -/
def remoteVictim (s : State) (x : Issuer) (w : Base) (e : ExtC) : Nat :=
  if e.sa then (x.g.sreg w.a.toNat).toNat else (vget s x w.a.toNat (elect (activeOf x (.acqRemote w e)))).toNat

/-- The late fault of a victim that the scope does not reach. -/
def remoteFault (s : State) (x : Issuer) (w : Base) (e : ExtC) : LateFault :=
  { lane := elect (activeOf x (.acqRemote w e)), cause := .accessRights, detail := 6, addr := 0#64
    site := siteOf x (.acqRemote w e), a := BitVec.ofNat 64 (remoteVictim s x w e), b := 0#64, data := [] }

/-- What an ACQ .remote does: a fault of its victim, or a wait with the victim's actions before its own. -/
def remoteAct (s : State) (x : Issuer) (w : Base) (e : ExtC) : Act :=
  if 512 ≤ remoteVictim s x w e ∨ (!sameInstance e.scope.toNat x.core (remoteVictim s x w e)) = true then
    doneOrGone (faultLanes s x [remoteFault s x w e]) x
  else syncWait s x false true false e.scope.toNat
    (if remoteVictim s x w e = x.core then none else some (remoteVictim s x w e))

section
variable {s : State} {x : Issuer} {w : Base} {e : ExtC} (h : Executes s x (.acqRemote w e))
include h

theorem acqRemote_inside (hv : remoteVictim s x w e < 512)
    (hin : sameInstance e.scope.toNat x.core (remoteVictim s x w e) = true) (hs : e.scope ≠ 0#3) :
    acqRemote s (.acqRemote w e) w e = .next (goesOn (setWait s x.core x.slot (.sync
      { rel := false, acq := true, scope := e.scope.toNat, walk := false
        victim := if remoteVictim s x w e = x.core then none else some (remoteVictim s x w e)
        mark := (s.core x.core).nextId, sent := false })) x (.acqRemote w e)) := by
  have hno : ¬(512 ≤ remoteVictim s x w e ∨ (!sameInstance e.scope.toNat x.core (remoteVictim s x w e)) = true) := by
    simp [hin, hv]
  rw [acqRemote, runInstr_executes h]
  change Host.Outcome.next (settleAct s x _ (remoteAct s x w e)) = _
  rw [remoteAct, if_neg hno, syncWait, if_neg (mt scope_toNat_eq_zero.1 hs)]
  rfl

theorem acqRemote_outside (he : x.g.ended = false) (hh : x.g.handler = none)
    (hout : 512 ≤ remoteVictim s x w e ∨ sameInstance e.scope.toNat x.core (remoteVictim s x w e) = false) :
    acqRemote s (.acqRemote w e) w e =
      .next (goesOn (parkAtIssue s x.core x.slot [remoteFault s x w e]) x (.acqRemote w e)) := by
  have hyes : 512 ≤ remoteVictim s x w e ∨ (!sameInstance e.scope.toNat x.core (remoteVictim s x w e)) = true := by
    simpa using hout
  obtain ⟨hparked, -⟩ := parkAtIssue_touches [remoteFault s x w e] (issuer_stands h.1.1).1 hh
  rw [acqRemote, runInstr_executes h]
  change Host.Outcome.next (settleAct s x _ (remoteAct s x w e)) = _
  rw [remoteAct, if_pos hyes]
  change Host.Outcome.next (settleAct s x _ (doneOrGone (parkAtIssue s x.core x.slot [remoteFault s x w e]) x)) = _
  rw [doneOrGone_of_live hparked.after (by rw [parkNows_ended, he])]
  rfl
end

/-! ## Actions (Table 5.4) -/

section
variable {s : State} {core slot scope mark : Nat} {g : Group} (hg : s.group? core slot = some g)
  (hl : g.loadsDone mark = true)
include hg hl

theorem acquireStep_core (hs : scope < 2) : acquireStep s core slot scope mark = some (s, true) := by
  simp [acquireStep, hg, hl, hs]

theorem acquireStep_dirty (hs : 2 ≤ scope) (hd : (s.core core).l1Dirty = true) :
    acquireStep s core slot scope mark = some (writeBack s core fun _ => true, false) := by
  simp [acquireStep, hg, hl, Nat.not_lt.2 hs, hd]

theorem acquireStep_clean (hs : 2 ≤ scope) (hd : (s.core core).l1Dirty = false) (ho : (s.core core).wbOut = 0) :
    acquireStep s core slot scope mark = some
      (let t := s.mapCore core Core.l1Acquire
       if 6 ≤ scope then t.mapDie (dieOf core) fun d => d.rdcDropPeers fun _ _ => true else t, true) := by
  simp [acquireStep, hg, hl, Nat.not_lt.2 hs, hd, ho]
end

theorem victimStep_dirty {s : State} {v : Nat} (hd : (s.core v).l1Dirty = true) :
    victimStep s v = some (writeBack s v fun _ => true, false) := by
  simp [victimStep, hd]

theorem victimStep_clean {s : State} {v : Nat} (hd : (s.core v).l1Dirty = false) (ho : (s.core v).wbOut = 0) :
    victimStep s v = some (s.mapCore v Core.l1Acquire, true) := by
  simp [victimStep, hd, ho]

/-! ## The actions in their order (R199 to R201) -/

section
variable {s : State} {core slot : Nat} {op : SyncOp}

theorem syncStep_release (hr : op.rel = true) : syncStep s core slot op =
    match releaseStep s core slot op.scope op.mark with
    | none => s
    | some (t, true) => setWait t core slot (.sync { op with rel := false })
    | some (t, false) => t := by
  simp only [syncStep, hr]
  rfl

theorem syncStep_victim {g : Group} {v : Nat} (hg : s.group? core slot = some g) (hr : op.rel = false)
    (hv : op.victim = some v) (hl : g.loadsDone op.mark = true) : syncStep s core slot op =
    match victimStep s v with
    | none => s
    | some (t, true) => setWait t core slot (.sync { op with victim := none })
    | some (t, false) => t := by
  simp only [syncStep, hr, hv, hg, Option.any_some, hl]
  rfl

theorem syncStep_acquire (hr : op.rel = false) (hv : op.victim = none) (ha : op.acq = true) : syncStep s core slot op =
    match acquireStep s core slot op.scope op.mark with
    | none => s
    | some (t, true) => setWait t core slot (.sync { op with acq := false })
    | some (t, false) => t := by
  simp only [syncStep, hr, hv, ha]
  rfl

theorem syncStep_over {g : Group} (hg : s.group? core slot = some g) (hr : op.rel = false) (hv : op.victim = none)
    (ha : op.acq = false) : syncStep s core slot op =
    if op.walk then walkFence (setWait s core slot .none) (asidOf s g.launch) else setWait s core slot .none := by
  have hafter : (setWait s core slot .none).group? core slot = some { g with wait := .none } := by
    rw [setWait, State.group_mapGroup_same, hg, Option.map_some]
  simp only [syncStep, hr, hv, ha, Bool.false_eq_true, if_false, hafter]
  rfl
end

/-! ## What goes from L1 and TLB -/

/-- Words outside .ro spans go from L1 at an acquire, and lines without a word left with them (R199). -/
theorem mem_l1Acquire {c : Core} {y : L1Line} :
    y ∈ c.l1Acquire.l1 ↔ y.valid ≠ 0#32 ∧ ∃ z ∈ c.l1, y = { z with valid := z.valid &&& z.ro } := by
  have hdrop : ∀ z : L1Line, ({ z with valid := z.valid &&& ~~~(~~~z.ro), ro := z.ro &&& ~~~(~~~z.ro) } : L1Line) =
      { z with valid := z.valid &&& z.ro } := fun z => by simp
  simp only [Core.l1Acquire, Core.l1Drop, hdrop, List.mem_filter, List.mem_map, decide_eq_true_eq]
  constructor
  · rintro ⟨⟨z, hz, rfl⟩, hv⟩
    exact ⟨hv, z, hz, rfl⟩
  · rintro ⟨hv, z, hz, rfl⟩
    exact ⟨⟨z, hz, rfl⟩, hv⟩

/-- Two states whose TLBs agree. -/
def SameTlb (s t : State) : Prop := t.die0.tlb = s.die0.tlb ∧ t.die1.tlb = s.die1.tlb

theorem SameTlb.trans {s t u : State} (h : SameTlb s t) (k : SameTlb t u) : SameTlb s u :=
  ⟨k.1.trans h.1, k.2.trans h.2⟩

theorem SameTlb.foldl {α : Type} {f : State → α → State} (hf : ∀ s x, SameTlb s (f s x)) (xs : List α) :
    ∀ s, SameTlb s (xs.foldl f s) := by
  induction xs with
  | nil => exact fun _ => ⟨rfl, rfl⟩
  | cons x xs ih => exact fun s => (hf s x).trans (ih _)

theorem startWalk_sameTlb (s : State) (d : Nat) (w : Walk) : SameTlb s (s.mapDie d fun y => y.startWalk w) := by
  have hw : ∀ y : Die, (y.startWalk w).tlb = y.tlb := fun y => by unfold Die.startWalk; split <;> rfl
  unfold State.mapDie
  split
  · exact ⟨hw _, rfl⟩
  · exact ⟨rfl, hw _⟩

/-- Walks that start fill no entry. -/
theorem startWalks_sameTlb (s : State) (asid : Nat) (again : Nat × Nat → Bool) : SameTlb s (startWalks s asid again) := by
  refine SameTlb.foldl (fun t p => SameTlb.foldl (fun t w => ?_) _ t) _ s
  split
  · exact startWalk_sameTlb _ _ _
  · exact ⟨rfl, rfl⟩

/-- A FENCE .walk leaves no entry of its address space in either TLB (R356). -/
theorem walkFence_drops (s : State) (asid d : Nat) : ∀ e ∈ ((walkFence s asid).die d).tlb, e.asid ≠ asid := by
  have hkept : SameTlb { s with
      die0 := { s.die0 with tlb := s.die0.tlb.filter fun e => e.asid ≠ asid }
      die1 := { s.die1 with tlb := s.die1.tlb.filter fun e => e.asid ≠ asid } } (walkFence s asid) :=
    SameTlb.trans ⟨rfl, rfl⟩ (startWalks_sameTlb _ asid _)
  intro e he
  rw [State.die] at he
  split at he
  · rw [hkept.1] at he
    exact of_decide_eq_true (List.mem_filter.1 he).2
  · rw [hkept.2] at he
    exact of_decide_eq_true (List.mem_filter.1 he).2

/-- Settles O19, clause by clause: what is issued, then each action in the order of Table 5.4. -/
theorem fenceAcquireReleaseWait : Obligations.FenceAcquireReleaseWait := by
  unfold Obligations.FenceAcquireReleaseWait
  refine ⟨⟨fun s x i e rel acq walk hi h => ?_, fun s x w e h => acqRemote_inside h,
    fun s x w e h => acqRemote_outside h⟩, fun s g op hg hw => ?_⟩
  · rw [syncForm_exec hi]
    exact sync_executes h e rel acq walk
  · rw [exec_syncActionsComplete hg hw]
    refine ⟨fun hr hs ha => ?_, fun hr hs ha hd => ?_, fun hr hs ha hd ho hp => ?_,
      fun v hr hv hl => ⟨fun hd => ?_, fun hd ho => ?_⟩, fun hr hv ha hs hl => ?_,
      fun hr hv ha hs hl => ⟨fun hd => ?_, fun hd ho => ?_⟩, fun hr hv ha hk => ?_, fun hr hv ha hk => ?_,
      fun c y => mem_l1Acquire, fun t asid d _ => walkFence_drops t asid d⟩
    · rw [syncStep_release hr, releaseStep_core hg ha (by omega)]
    · rw [syncStep_release hr, releaseStep_dirty hg ha hs hd]
    · rw [syncStep_release hr, releaseStep_complete hg ha (fun _ => ⟨hd, ho⟩) hp]
    · rw [syncStep_victim hg hr hv hl, victimStep_dirty hd]
    · rw [syncStep_victim hg hr hv hl, victimStep_clean hd ho]
    · rw [syncStep_acquire hr hv ha, acquireStep_core hg hl hs]
    · rw [syncStep_acquire hr hv ha, acquireStep_dirty hg hl hs hd]
    · rw [syncStep_acquire hr hv ha, acquireStep_clean hg hl hs hd ho]
    · rw [syncStep_over hg hr hv ha, if_neg (by simp [hk])]
    · rw [syncStep_over hg hr hv ha, if_pos hk]

end Sys2Proof.Machine
end

section
/-! PROOF. The location of a lane: alignment, bounds and rights in the order of Table 5.2, space by space (05 R177, R178,
R181, R186, 10 R351). -/

namespace Sys2Proof.Machine

/-! ## A location within an allocation (S and C) -/

section
variable {o : Int} {bytes limit : Nat} (t : Nat → Target)

theorem boundLane_misaligned (h : o % bytes ≠ 0) : boundLane o bytes limit t = .fault .addrAlign 0 (BitVec.ofInt 64 o) :=
  if_pos h

theorem boundLane_outside (ha : o % bytes = 0) (h : o < 0 ∨ (limit : Int) < o + bytes) :
    boundLane o bytes limit t = .fault .addrRegion 1 (BitVec.ofInt 64 o) :=
  (if_neg (not_not.2 ha)).trans (if_pos h)

theorem boundLane_inside (ha : o % bytes = 0) (h0 : 0 ≤ o) (h1 : o + bytes ≤ limit) :
    boundLane o bytes limit t = .ok (BitVec.ofInt 64 o) (t o.toNat) :=
  (if_neg (not_not.2 ha)).trans (if_neg (by omega))
end

/-! ## The block of a C-space selector (R186) -/

section
variable {s : State} {x : Issuer} {k : AccKind} {bytes : Nat} {base : DWord} {idx off : Int}

theorem formLane_c_misaligned (h : (idx + off) % bytes ≠ 0) :
    formLane s x .c k bytes base idx off = .fault .addrAlign 0 (BitVec.ofInt 64 (idx + off)) :=
  if_pos h

theorem formLane_c_wideSelector (ha : (idx + off) % bytes = 0) (hb : 2 ^ 11 ≤ (lowWord base).toNat) :
    formLane s x .c k bytes base idx off = .fault .addrRegion 1 (BitVec.ofInt 64 (idx + off)) :=
  (if_neg (not_not.2 ha)).trans (if_pos (by omega))

theorem formLane_c_selected (ha : (idx + off) % bytes = 0) (hb : (lowWord base).toNat < 2 ^ 11) :
    formLane s x .c k bytes base idx off =
      match targetBlock s x ((lowWord base).toNat % 64) ((lowWord base).toNat / 64) with
      | none => .fault .addrRegion 2 (BitVec.ofInt 64 (idx + off))
      | some (n, t) => boundLane (idx + off) bytes t.spadSize fun o => .spad n (t.spadBase + o) := by
  rw [show (lowWord base).toNat / 64 = (lowWord base).toNat / 64 % 32 by omega]
  exact (if_neg (not_not.2 ha)).trans (if_neg (by omega))
end

theorem targetBlock_some {s : State} {x : Issuer} {c q n : Nat} {t : Block} (h : targetBlock s x c q = some (n, t)) :
    n = x.core / 64 * 64 + c ∧
    t ∈ ((s.core n).blocks.filter fun d => d.launch == x.g.launch && gangOf x.l d.index == gangOf x.l x.g.block) ∧
    (((s.core n).blocks.filter fun d => d.launch == x.g.launch && gangOf x.l d.index == gangOf x.l x.g.block).filter
      fun d => d.index < t.index).length = q := by
  obtain ⟨b, hb, he⟩ := Option.map_eq_some_iff.1 h
  obtain ⟨rfl, rfl⟩ := Prod.mk.inj he
  have hrank := List.find?_some hb
  exact ⟨rfl, List.mem_of_find?_eq_some hb, eq_of_beq hrank⟩

/-! ## The region of an address (R178, 10 R351) -/

theorem Region.covers_iff {r : Region} {a : Nat} :
    r.covers a = true ↔ r.length ≠ 0 ∧ r.vbase ≤ a ∧ a < r.vbase + r.length := by
  simp [Region.covers, and_assoc]

theorem regionOf_some {l : Launch} {a n : Nat} {r : Region} (h : regionOf l a = some (n, r)) :
    l.regions[n]? = some r ∧ r.length ≠ 0 ∧ r.vbase ≤ a ∧ a < r.vbase + r.length := by
  rw [regionOf, findIx_eq_findIdx?] at h
  split at h
  · exact absurd h nofun
  · rename_i i hi
    obtain ⟨q, hq, he⟩ := Option.map_eq_some_iff.1 h
    obtain ⟨rfl, rfl⟩ := Prod.mk.inj he
    obtain ⟨hlt, hc, -⟩ := List.findIdx?_eq_some_iff_getElem.1 hi
    rw [List.getElem?_eq_getElem hlt] at hq
    exact ⟨(List.getElem?_eq_getElem hlt).trans hq, Region.covers_iff.1 (Option.some.inj hq ▸ hc)⟩

theorem regionOf_none {l : Launch} {a : Nat} (h : regionOf l a = none) :
    ∀ r ∈ l.regions, r.length = 0 ∨ a < r.vbase ∨ r.vbase + r.length ≤ a := by
  rw [regionOf, findIx_eq_findIdx?] at h
  split at h
  · rename_i hi
    intro r hr
    have hno := mt Region.covers_iff.2 (Bool.not_eq_true _ ▸ List.findIdx?_eq_none_iff.1 hi r hr)
    omega
  · rename_i i hi
    obtain ⟨hlt, -, -⟩ := List.findIdx?_eq_some_iff_getElem.1 hi
    rw [List.getElem?_eq_getElem hlt] at h
    exact absurd h nofun

/-! ## A location in a region (G and H) -/

section
variable {l : Launch} {host : Bool} {k : AccKind} {bytes a : Nat}

theorem globalLaneForm_misaligned (h : a % bytes ≠ 0) :
    globalLaneForm l host k bytes a = .fault .addrAlign 0 (BitVec.ofNat 64 a) := by
  simp only [globalLaneForm, if_pos h]

theorem globalLaneForm_outside (ha : a % bytes = 0) (h : regionOf l a = none) :
    globalLaneForm l host k bytes a = .fault .addrRegion 1 (BitVec.ofNat 64 a) := by
  simp only [globalLaneForm, if_neg (not_not.2 ha), h]

variable {n : Nat} {r : Region} (ha : a % bytes = 0) (hr : regionOf l a = some (n, r))
include ha hr

/-- What a region of the right kind answers: its rights first, then its place. -/
theorem globalLaneForm_covered : globalLaneForm l host k bytes a =
    if host = true ∧ r.kind ≠ 2 then .fault .addrRegion 1 (BitVec.ofNat 64 a)
    else if host = false ∧ r.kind = 2 then .fault .accessRights 4 (BitVec.ofNat 64 a)
    else if k ≠ .store ∧ r.rights % 2 ≠ 1 then .fault .accessRights 1 (BitVec.ofNat 64 a)
    else if k ≠ .load ∧ r.rights / 2 % 2 ≠ 1 then .fault .accessRights 2 (BitVec.ofNat 64 a)
    else if r.kind = 2 then .ok (BitVec.ofNat 64 a) (.host (r.target + (a - r.vbase)))
    else if r.kind = 0 then .ok (BitVec.ofNat 64 a) (.dram (r.target + (a - r.vbase)))
    else .ok (BitVec.ofNat 64 a) (.walk n ((a - r.vbase) / 2 ^ r.pageBits) false) := by
  have hread : (isRead k && !r.rd) = true ↔ k ≠ .store ∧ r.rights % 2 ≠ 1 := by
    cases k <;> simp [isRead, Region.rd]
  have hwrite : (isWrite k && !r.wr) = true ↔ k ≠ .load ∧ r.rights / 2 % 2 ≠ 1 := by
    cases k <;> simp [isWrite, Region.wr]
  simp only [globalLaneForm, if_neg (not_not.2 ha), hr, hread, hwrite]
  cases host <;> by_cases hk : r.kind = 2 <;> simp [hk]
end

/-! ## A location in a registered window (P) -/

/-- The bit of a window's rights that an access needs: load, store, then whatever changes a value and returns it. -/
def peerRight : AccKind → Nat
  | .load => 0
  | .store => 1
  | _ => 2

section
variable {s : State} {x : Issuer} {k : AccKind} {bytes : Nat} {base : DWord} {idx off : Int}

theorem formLane_p_misaligned (h : (idx + off) % bytes ≠ 0) :
    formLane s x .p k bytes base idx off = .fault .addrAlign 0 (BitVec.ofInt 64 (idx + off)) :=
  if_pos h

theorem formLane_p_wideHandle (ha : (idx + off) % bytes = 0) (hb : 2 ^ 14 ≤ (lowWord base).toNat) :
    formLane s x .p k bytes base idx off = .fault .addrRegion 1 (BitVec.ofInt 64 (idx + off)) :=
  (if_neg (not_not.2 ha)).trans (if_pos (by omega))

theorem formLane_p_named (ha : (idx + off) % bytes = 0) (hb : (lowWord base).toNat < 2 ^ 14) :
    formLane s x .p k bytes base idx off =
      match registration? s ((lowWord base).toNat % 256) ((lowWord base).toNat / 256 % 64) with
      | none => .fault .addrRegion 3 (BitVec.ofInt 64 (idx + off))
      | some r =>
        if idx + off < 0 ∨ (r.length : Int) < idx + off + bytes then .fault .addrRegion 1 (BitVec.ofInt 64 (idx + off))
        else if r.rights.testBit (peerRight k) = false then .fault .accessRights 5 (BitVec.ofInt 64 (idx + off))
        else if r.down || unreachable s ((lowWord base).toNat % 256) then
          .late .uncorrectable 3 (BitVec.ofInt 64 (idx + off))
        else .ok (BitVec.ofInt 64 (idx + off))
          (.peer ((lowWord base).toNat % 256) ((lowWord base).toNat / 256 % 64) (idx + off).toNat r.fallBack) := by
  have hright : ∀ r : Registration, r.rights.testBit (peerRight k) = false ↔
      r.rights / (match k with | .load => 1 | .store => 2 | _ => 4) % 2 = 0 := fun r => by
    rw [Nat.testBit_eq_decide_div_mod_eq, decide_eq_false_iff_not]
    cases k <;> simp [peerRight]
  simp only [hright]
  exact (if_neg (not_not.2 ha)).trans (if_neg (by omega))
end

/-- Settles O14, space by space in the order of the checks. -/
theorem laneLocations : Obligations.LaneLocations := by
  unfold Obligations.LaneLocations
  refine ⟨fun s x k bytes base idx off => ?spad,
    fun s x k bytes base idx off => ⟨formLane_c_misaligned, formLane_c_wideSelector, fun ha hb hn => ?none,
      fun n t ha hb ht => ?some⟩, fun s x c q n t h => targetBlock_some h, fun s x k bytes base idx off => ?global,
    fun l a => ⟨fun n r h => regionOf_some h, regionOf_none⟩, fun s x k bytes base idx off =>
      ⟨formLane_p_misaligned, formLane_p_wideHandle, fun ha hb hn => ?unnamed, fun r ha hb hr => ?named⟩⟩
  case spad =>
    intro o r
    rw [show r = boundLane o bytes x.b.spadSize fun o => .spad x.core (x.b.spadBase + o) from rfl]
    exact ⟨boundLane_misaligned _, boundLane_outside _, boundLane_inside _⟩
  case none =>
    rw [formLane_c_selected ha hb, hn]
  case some =>
    rw [formLane_c_selected ha hb, ht]
    exact ⟨boundLane_outside _ ha, boundLane_inside _ ha⟩
  case global =>
    intro d a g h
    have hg : g = globalLaneForm x.l false k bytes d.toNat := rfl
    have hh : h = match globalLaneForm x.l true k bytes d.toNat with
        | .ok d t => if hostDown s then .late .uncorrectable 3 d else .ok d t
        | f => f := rfl
    have hd : BitVec.ofNat 64 d.toNat = d := by rw [BitVec.ofNat_toNat, BitVec.setWidth_eq]
    refine ⟨fun ha => ?_, fun ha hn => ?_, fun n r ha hr => ?_⟩
    · rw [hg, hh, globalLaneForm_misaligned ha, globalLaneForm_misaligned ha, hd]
      exact ⟨rfl, rfl⟩
    · rw [hg, hh, globalLaneForm_outside ha hn, globalLaneForm_outside ha hn, hd]
      exact ⟨rfl, rfl⟩
    · rw [hg, hh, globalLaneForm_covered ha hr, globalLaneForm_covered ha hr, hd]
      refine ⟨fun hk => by simp [hk], fun hk => ⟨by simp [hk], fun hreads hrd => by simp [hk, hreads, hrd],
        fun hread hwrites hwr => ?_, fun hread hwrite => ⟨fun hk => ?_, fun hk => ?_⟩⟩,
        fun hk => ⟨fun hreads hrd => by simp [hk, hreads, hrd], fun hread hwrites hwr => ?_, fun hread hwrite => ?_⟩⟩
      · rw [if_neg (by simp), if_neg (by simp [hk]), if_neg fun hno => hno.2 (hread hno.1), if_pos ⟨hwrites, hwr⟩]
      · rw [if_neg (by simp), if_neg (by simp [hk]), if_neg fun hno => hno.2 (hread hno.1),
          if_neg fun hno => hno.2 (hwrite hno.1), if_neg (by omega), if_pos hk]
      · rw [if_neg (by simp), if_neg (by simp [hk]), if_neg fun hno => hno.2 (hread hno.1),
          if_neg fun hno => hno.2 (hwrite hno.1), if_neg (by omega), if_neg (by omega)]
      · rw [if_neg (by simp [hk]), if_neg (by simp), if_neg fun hno => hno.2 (hread hno.1), if_pos ⟨hwrites, hwr⟩]
      · rw [if_neg (by simp [hk]), if_neg (by simp), if_neg fun hno => hno.2 (hread hno.1),
          if_neg fun hno => hno.2 (hwrite hno.1), if_pos hk]
  case unnamed =>
    rw [formLane_p_named ha hb, hn]
  case named =>
    rw [formLane_p_named ha hb, hr]
    refine ⟨fun ho => if_pos ho, fun h0 h1 hno => ?_, fun h0 h1 hyes => ?_⟩
    · exact (if_neg (by omega)).trans (if_pos hno)
    · have hright : ¬r.rights.testBit (peerRight k) = false := Bool.not_eq_false _ ▸ hyes
      exact (if_neg (by omega)).trans (if_neg hright)

end Sys2Proof.Machine
end

section
/-! PROOF. An access none of whose lanes faults or awaits a page: it becomes pending as it is formed (05 R177 to R182,
R197). -/

namespace Sys2Proof.Machine

/-! ## Lanes whose locations stand -/

theorem accLanes_ok {s : State} {x : Issuer} {f : AccForm} {m : LaneMask} {p : LaneAcc × LaneForm} {d : DWord} {t : Target}
    (hp : p ∈ accLanes s x f m) (h : p.2 = .ok d t) :
    p.1.loc = d ∧ ∃ k base idx off, formLane s x f.sp k (sizeBytes f.x.size.toNat) base idx off = .ok d t := by
  obtain ⟨l, -, rfl⟩ := List.mem_map.1 hp
  refine ⟨?_, _, _, _, _, h⟩
  simp only at h ⊢
  simp only [h]

/-- A location of the G space that its region does not translate lies in no demand region (10 R348). -/
theorem inDemand_of_formed {s : State} {x : Issuer} {k : AccKind} {bytes : Nat} {base : DWord} {idx off : Int} {d : DWord}
    {t : Target} (h : formLane s x .g k bytes base idx off = .ok d t) (ht : ∀ r p b, t ≠ .walk r p b) :
    inDemand x.l d = false := by
  have hform : globalLaneForm x.l false k bytes (dwordOf ((base.toNat : Int) + idx + off)).toNat = .ok d t := h
  by_cases ha : (dwordOf ((base.toNat : Int) + idx + off)).toNat % bytes = 0
  case neg =>
    rw [globalLaneForm_misaligned ha] at hform
    cases hform
  cases hr : regionOf x.l (dwordOf ((base.toNat : Int) + idx + off)).toNat with
  | none =>
    rw [globalLaneForm_outside ha hr] at hform
    cases hform
  | some q =>
    obtain ⟨n, r⟩ := q
    rw [globalLaneForm_covered ha hr] at hform
    by_cases hk : r.kind = 1
    · rw [if_neg (by simp), if_neg (by simp [hk])] at hform
      split at hform
      · cases hform
      split at hform
      · cases hform
      rw [if_neg (by omega), if_neg (by omega)] at hform
      cases hform
      exact absurd rfl (ht _ _ _)
    · split_ifs at hform
      all_goals cases hform
      all_goals
        rw [inDemand, BitVec.ofNat_toNat, BitVec.setWidth_eq, hr]
        simpa using hk

section
variable {s : State} {x : Issuer} {i : Instr} {f : AccForm} {m : LaneMask}
  (hok : ∀ p ∈ accLanes s x f m, ∃ loc t, p.2 = .ok loc t ∧ ∀ r pg b, t ≠ .walk r pg b)
include hok

theorem faultsNow_of_ok (site : Site) : faultsNow site (accLanes s x f m) = [] := by
  refine List.eq_nil_iff_forall_not_mem.2 fun e he => ?_
  obtain ⟨p, hp, c, d, a, hc, -⟩ := mem_faultsNow.1 he
  obtain ⟨loc, t, ht, -⟩ := hok p hp
  exact absurd (ht.symm.trans hc) nofun

theorem faultsLate_of_ok (site : Site) : faultsLate site (accLanes s x f m) = [] := by
  refine List.eq_nil_iff_forall_not_mem.2 fun e he => ?_
  obtain ⟨p, hp, c, d, a, hc, -⟩ := mem_faultsLate.1 he
  obtain ⟨loc, t, ht, -⟩ := hok p hp
  exact absurd (ht.symm.trans hc) nofun

theorem lanesMade_of_ok : lanesMade (accLanes s x f m) = (accLanes s x f m).map fun p => p.1 := by
  rw [lanesMade, ← List.filterMap_eq_map]
  refine List.filterMap_congr fun p hp => ?_
  obtain ⟨loc, t, ht, -⟩ := hok p hp
  rw [ht]
  rfl

theorem issued_unlogged_of_ok : (issued s x i f m).logged = false := by
  rw [issued, Bool.and_eq_false_imp]
  intro hsp
  refine List.any_eq_false.2 fun p hp => ?_
  obtain ⟨loc, t, ht, hw⟩ := hok p hp
  obtain ⟨hloc, k, base, idx, off, hf⟩ := accLanes_ok hp ht
  rw [eq_of_beq hsp] at hf
  rw [hloc, inDemand_of_formed hf hw]
  exact Bool.false_ne_true

theorem issued_target_of_ok : ∀ l ∈ (issued s x i f m).lanes, ∀ r p b, l.target ≠ .walk r p b := by
  refine issued_target fun p hp loc r pg b e => ?_
  obtain ⟨loc', t, ht, hw⟩ := hok p hp
  rw [ht] at e
  cases e
  exact hw _ _ _ rfl
end

theorem accLanes_ne_nil (s : State) (x : Issuer) (f : AccForm) {m : LaneMask} (hm : m ≠ 0#64) : accLanes s x f m ≠ [] := by
  intro h
  have hmap := map_lane_accLanes s x f m
  rw [h, List.map_nil] at hmap
  split at hmap
  · cases hmap
  · exact lanesOf_ne_nil hm hmap.symm

/-! ## Issue without the operand log -/

/-- What the flush of an atomic's spans lets an unlogged access do. -/
def afterFlush (x : Issuer) (a : Access) (now late : List LateFault) : Option (State × Bool) → Act
  | none => .stall
  | some (t, false) => .held t
  | some (t, true) => doneOrGone (admitAccess t x.core x.slot x.l a now late) x

theorem issueAccess_unlogged {s : State} {x : Issuer} {i : Instr} {f : AccForm} {m : LaneMask}
    (h : (issued s x i f m).logged = false) :
    issueAccess s x i f m =
      afterFlush x (issued s x i f m) (faultsNow (siteOf x i) (accLanes s x f m)) (faultsLate (siteOf x i) (accLanes s x f m))
        (if (issued s x i f m).isHomeAtom then
          flushAtom s x.core x.l.asid (sizeBytes f.x.size.toNat) (issued s x i f m).lanes else some (s, true)) := by
  have hroom : ¬((issued s x i f m).logged && x.g.logFull) = true := by simp [h]
  refine (if_neg hroom).trans ?_
  unfold afterFlush
  rfl

/-- The accesses that an access is logged behind at its admission (10 R355). -/
def behindAt (s : State) (core slot : Nat) (lc : Launch) (a : Access) : List Nat :=
  match s.group? core slot with
  | some g => if a.logged then g.heldOn lc a.lanes else []
  | none => []

theorem behindAt_unlogged {a : Access} (h : a.logged = false) (s : State) (core slot : Nat) (lc : Launch) :
    behindAt s core slot lc a = [] := by
  unfold behindAt
  rw [h]
  split <;> rfl

/-- Without faults, walks or log, admission enters the access, its lanes request by request. -/
theorem admitAccess_unlogged (s : State) (core slot : Nat) (lc : Launch) {a : Access} (hlog : a.logged = false)
    (hw : ∀ l ∈ a.lanes, ∀ r p b, l.target ≠ .walk r p b) :
    ∃ vals, admitAccess s core slot lc a [] [] = enterAccess (markFabric s a.space lc.id) core slot
      { a with behind := [], lanes := lanesByPart a.lanes (dedup (a.lanes.map fun l => l.part)) } vals := by
  have hro : (a.lanes.filter fun l => ([] : List Nat).contains l.lane) = [] := by simp
  refine ⟨(a.lanes.map fun l => (l.lane, l.a, l.b, l.data)) ++ [], ?_⟩
  rw [← behindAt_unlogged hlog s core slot lc]
  simp only [admitAccess, translateParts_of_target hw, hro]
  rfl

theorem enterAccess_unlogged {s : State} {core slot : Nat} {a : Access} (vals : List (Nat × DWord × DWord × List Word))
    (hl : a.lanes ≠ []) (hlog : a.logged = false) :
    enterAccess s core slot a vals =
      holdAtomic ((s.mapGroup core slot fun g => (g.addPend (s.core core).nextId (.access a)).logFree).mapCore core
        Core.tick) core slot (s.core core).nextId a := by
  have htake : (fun g : Group => g.takeAccess (s.core core).nextId a vals) =
      fun g => (g.addPend (s.core core).nextId (.access a)).logFree := by
    funext g
    rw [Group.takeAccess, hlog]
    rfl
  rw [← htake]
  exact if_neg (by simpa using hl)

/-- The group of an access that is entered lives on. -/
theorem enterAccess_lives {s : State} {core slot : Nat} {g : Group} (a : Access)
    (vals : List (Nat × DWord × DWord × List Word)) (hg : s.group? core slot = some g) (he : g.ended = false) :
    ∃ h, (enterAccess s core slot a vals).group? core slot = some h ∧ h.ended = false := by
  obtain ⟨ps, o, w, ht, -⟩ := enterAccess_touches a vals hg
  exact ⟨_, ht.after, he⟩

/-- Settles O13: the access passes its checks, so that it is entered as it was formed. -/
theorem accessBecomesPending : Obligations.AccessBecomesPending := by
  unfold Obligations.AccessBecomesPending
  intro s x i f hi h he ls bytes ok isGAtom hok
  have hex := exec_access hi h
  rw [issueAccess_unlogged (issued_unlogged_of_ok hok), faultsNow_of_ok hok, faultsLate_of_ok hok,
    issued_isHomeAtom] at hex
  have hlanes : (issued s x i f (activeOf x i)).lanes = ok := by rw [issued, lanesMade_of_ok hok]
  rw [hlanes] at hex
  have hne : ok ≠ [] := fun h0 => accLanes_ne_nil s x f h.2.1 (List.map_eq_nil_iff.1 (numberParts_eq_nil.1 h0))
  refine ⟨fun ha hf => ?stalls, fun u ha hf => ?flushes, fun u hf hu => ?enters⟩
  case stalls =>
    rw [hex, if_pos ha, hf]
    rfl
  case flushes =>
    rw [hex, if_pos ha, hf]
    rfl
  case enters =>
    have hflush : (if isGAtom then flushAtom s x.core x.l.asid bytes ok else some (s, true)) = some (u, true) := by
      cases hat : isGAtom
      · rw [hu hat]
        rfl
      · exact hf hat
    have hl1 := flushed_onlyL1 hflush
    have hg := (hl1.group? x.slot).trans (issuer_stands h.1.1).1
    let a : Access := { issued s x i f (activeOf x i) with lanes := lanesByPart ok (dedup (ok.map fun l => l.part)) }
    have hatom : a.isHomeAtom = isGAtom := issued_isHomeAtom s x i f (activeOf x i)
    have hlog : a.logged = false := issued_unlogged_of_ok (i := i) hok
    obtain ⟨vals, hadm⟩ : ∃ vals, admitAccess u x.core x.slot x.l (issued s x i f (activeOf x i)) [] [] =
        enterAccess (markFabric u f.sp x.l.id) x.core x.slot a vals := by
      have hadmitted := admitAccess_unlogged u x.core x.slot x.l (a := issued s x i f (activeOf x i)) hlog
        (issued_target_of_ok hok)
      rw [hlanes] at hadmitted
      exact hadmitted
    obtain ⟨h', hg', he'⟩ := enterAccess_lives (s := markFabric u f.sp x.l.id) a vals ((markFabric_group? ..).trans hg) he
    have henter := enterAccess_unlogged (s := markFabric u f.sp x.l.id) (core := x.core) (slot := x.slot) vals
      (mt lanesByPart_eq_nil.1 hne) hlog
    rw [markFabric_core, hl1.nextId, holdAtomic, hatom] at henter
    refine ⟨a, rfl, rfl, rfl, rfl, rfl, rfl, rfl, rfl, rfl, rfl, hlog, rfl, fun l => mem_lanesByPart, ?_⟩
    rw [hex, hflush, afterFlush, hadm, doneOrGone_of_live hg' he']
    exact congrArg (fun v => Host.Outcome.next (goesOn v x i)) henter

end Sys2Proof.Machine
end

section
/-! PROOF. Barriers: what is issued, an arrival at a block's barrier and at a wider one's segments, and an EXPECT that was
deferred (05 R203, 01 R55, R56). -/

namespace Sys2Proof.Machine

/-! ## Issue -/

section
variable {s : State} {x : Issuer} {w : Base} {e : ExtC}

theorem exec_bare_expects (h : Executes s x (.bare w e))
    (hb : x.g.arrivesBefore (barOf e).1 (barOf e).2 (s.core x.core).nextId = false) :
    exec (.bare w e) s = .next (if pendingOf s x.core x.l x.b (barOf e).1 (barOf e).2 + (e.imm.extractLsb' 8 6).toNat ≤ 63
      then goesOn (expectBar s x.core x.l x.b (barOf e).1 (barOf e).2 (e.imm.extractLsb' 8 6).toNat) x (.bare w e)
      else instrTrap s x (.bare w e) .barOverflow 0 0#32) := by
  have hx : exec (.bare w e) s = bare s (.bare w e) e := rfl
  rw [hx, bare, runInstr_executes h]
  simp only [hb, Bool.false_eq_true, if_false]
  by_cases hfit : pendingOf s x.core x.l x.b (barOf e).1 (barOf e).2 + (e.imm.extractLsb' 8 6).toNat ≤ 63
  · rw [if_neg (Nat.not_lt.2 hfit), if_pos hfit]
    rfl
  · rw [if_pos (Nat.not_le.1 hfit), if_neg hfit]
    rfl

theorem exec_bare_deferred (h : Executes s x (.bare w e))
    (hb : x.g.arrivesBefore (barOf e).1 (barOf e).2 (s.core x.core).nextId = true) :
    exec (.bare w e) s = .next (goesOn ((s.mapGroup x.core x.slot fun g => g.addPend (s.core x.core).nextId
      (.expect (siteOf x (.bare w e)) (barOf e).1 (barOf e).2 (e.imm.extractLsb' 8 6).toNat (issueView s x (.bare w e)))).mapCore
        x.core Core.tick) x (.bare w e)) := by
  have hx : exec (.bare w e) s = bare s (.bare w e) e := rfl
  rw [hx, bare, runInstr_executes h]
  simp only [hb]
  rfl

/-- WAIT goes on, acquiring, or leaves the group waiting. -/
theorem settle_barWait (s t : State) (x : Issuer) (i : Instr) (k : BarKind) (n : Nat) :
    settleAct s x i (barWait t x k n) =
      if (groupOf t x).arriving k n = false ∧ (groupOf t x).token k n ≠ phaseOf t x.core x.l x.b k n then
        goesOn (t.mapGroup x.core x.slot fun g => g.acquire (barScope k) (t.core x.core).nextId) x i
      else waitsBehind (setWait t x.core x.slot (.barrier k n)) x i := by
  simp only [barWait, Bool.and_eq_true, Bool.not_eq_true', bne_iff_ne]
  split <;> rfl

theorem exec_barw (h : Executes s x (.barw w e)) :
    exec (.barw w e) s = .next (settleAct s x (.barw w e) (barWait s x (barOf e).1 (barOf e).2)) :=
  runInstr_executes h fun x _ => barWait s x (barOf e).1 (barOf e).2

theorem exec_baraw (h : Executes s x (.baraw w e)) :
    exec (.baraw w e) s = .next (settleAct s x (.baraw w e) (barWait
      (applyArrive (arriveLater s x (barOf e).1 (barOf e).2 true) x.core x.slot (s.core x.core).nextId) x (barOf e).1 (barOf e).2)) :=
  runInstr_executes h fun x _ =>
    barWait (applyArrive (arriveLater s x (barOf e).1 (barOf e).2 true) x.core x.slot (s.core x.core).nextId) x
      (barOf e).1 (barOf e).2
end

/-! ## Tokens and waiting groups -/

theorem Group.token_setToken {g : Group} {k : BarKind} {n : Nat} (x : Bool)
    (h : ∃ v, (((k, n), v) : (BarKind × Nat) × Bool) ∈ g.tokens) : (g.setToken k n x).token k n = x := by
  obtain ⟨v, hv⟩ := h
  cases hf : (g.setToken k n x).tokens.find? fun t => t.1 == (k, n) with
  | none =>
    have hmem : ((k, n), x) ∈ (g.setToken k n x).tokens := List.mem_map.2 ⟨_, hv, by simp⟩
    exact absurd (List.find?_eq_none.1 hf _ hmem) (by simp)
  | some t =>
    obtain ⟨u, -, rfl⟩ := List.mem_map.1 (List.mem_of_find?_eq_some hf)
    have hu := List.find?_some hf
    rw [Group.token, hf]
    split at hu
    next hk => simp [hk]
    next hk => exact absurd (by simpa using hu) hk

/-- A group keeps its pending operations and its tokens. -/
def Group.KeepsArrivals (g h : Group) : Prop := h.pend = g.pend ∧ h.tokens = g.tokens

theorem Group.KeepsArrivals.token {g h : Group} (e : g.KeepsArrivals h) (k : BarKind) (n : Nat) : h.token k n = g.token k n := by
  rw [Group.token, e.2, Group.token]

theorem Group.KeepsArrivals.pend? {g h : Group} (e : g.KeepsArrivals h) (id : Nat) : h.pend? id = g.pend? id := by
  rw [Group.pend?, e.1, Group.pend?]

theorem Core.group?_mapGroups (c : Core) (f : Nat → Group → Group) (n : Nat) :
    (mapGroups c f).group? n = (c.group? n).map (f n) := Core.Onward.assocGet_map f c.groups n

theorem Core.wakeBar_group? {c : Core} {slot : Nat} {g : Group} (hg : c.group? slot = some g) (launch : Nat)
    (block : Nat → Bool) (k : BarKind) (n : Nat) (phase : Bool) :
    ∃ h, (c.wakeBar launch block k n phase).group? slot = some h ∧ g.KeepsArrivals h := by
  rw [Core.wakeBar, Core.group?_mapGroups, hg]
  refine ⟨_, rfl, ?_⟩
  simp only
  split
  · split <;> exact ⟨rfl, rfl⟩
  · exact ⟨rfl, rfl⟩

/-! ## An arrival at a block's barrier -/

/-- What an arrival makes of a block barrier (R55). -/
def Barrier.arrived (y : Barrier) : Barrier :=
  if y.pending ≤ 1 then
    { y with pending := y.members - y.leaving, members := y.members - y.leaving, phase := !y.phase, leaving := 0 }
  else { y with pending := y.pending - 1 }

theorem Core.arriveBlock_bars (c : Core) (b : Block) (n : Nat) :
    (c.arriveBlock b n).bars = setNth c.bars (b.bar n) (nth Barrier.empty c.bars (b.bar n)).arrived := by
  simp only [Core.arriveBlock, Barrier.arrived]
  split <;> rfl

theorem Core.arriveBlock_group? {c : Core} {slot : Nat} {g : Group} (hg : c.group? slot = some g) (b : Block) (n : Nat) :
    ∃ h, (c.arriveBlock b n).group? slot = some h ∧ g.KeepsArrivals h := by
  simp only [Core.arriveBlock]
  split
  · refine Core.wakeBar_group? ?_ _ _ _ _ _
    exact hg
  · exact ⟨g, hg, rfl, rfl⟩

/-- The group goes on when the phase that it waits for has come. -/
def Group.wakeAt (k : BarKind) (n : Nat) (phase : Bool) (mark : Nat) (g : Group) : Group :=
  if g.wait = .barrier k n ∧ g.arriving k n = false ∧ g.token k n ≠ phase then g.acquire (barScope k) mark else g

theorem Group.wakeAt_keeps (k : BarKind) (n : Nat) (phase : Bool) (mark : Nat) (g : Group) :
    g.KeepsArrivals (g.wakeAt k n phase mark) := by
  unfold Group.wakeAt
  split <;> exact ⟨rfl, rfl⟩

section
variable {s : State} {core slot id : Nat} {g : Group} {l : Launch} {b : Block} {k : BarKind} {n : Nat} {w : Bool}

/-- An arrival whose release is complete. -/
theorem applyArrive_released (hg : s.group? core slot = some g) (hp : g.pend? id = some (.arrive k n w))
    (hl : s.launch? g.launch = some l) (hb : (s.core core).block? g.launch g.block = some b)
    (hf : g.arrivesBefore k n id = false) (hr : releaseStep s core slot (barScope k) id = some (s, true)) :
    let t := arrive (s.mapGroup core slot fun g => (g.dropPend id).setToken k n (phaseOf s core l b k n)) core l b k n
    applyArrive s core slot id =
      t.mapGroup core slot (Group.wakeAt k n (phaseOf t core l b k n) (t.core core).nextId) := by
  simp only [applyArrive, hg, hp, hf, hr, hl, hb, Bool.false_eq_true, if_false, Bool.not_eq_true']
  rfl

theorem applyArrive_releasing {t : State} (hg : s.group? core slot = some g) (hp : g.pend? id = some (.arrive k n w))
    (hf : g.arrivesBefore k n id = false) (hr : releaseStep s core slot (barScope k) id = some (t, false)) :
    applyArrive s core slot id = t := by
  simp only [applyArrive, hg, hp, hf, hr, Bool.false_eq_true, if_false]

theorem applyArrive_block (hg : s.group? core slot = some g) (hp : g.pend? id = some (.arrive .block n w))
    (hl : s.launch? g.launch = some l) (hb : (s.core core).block? g.launch g.block = some b)
    (hf : g.arrivesBefore .block n id = false) (ha : g.accessesDone id = true)
    (hlen : b.bar n < (s.core core).bars.length) :
    let y := nth Barrier.empty (s.core core).bars (b.bar n)
    ∃ h, (applyArrive s core slot id).group? core slot = some h ∧ h.pend? id = none ∧
      ((∃ v, (((BarKind.block, n), v) : (BarKind × Nat) × Bool) ∈ g.tokens) → h.token .block n = y.phase) ∧
      nth Barrier.empty ((applyArrive s core slot id).core core).bars (b.bar n) = y.arrived := by
  intro y
  let u := s.mapGroup core slot fun g => (g.dropPend id).setToken .block n y.phase
  let t := u.mapCore core fun c => c.arriveBlock b n
  have happ : applyArrive s core slot id =
      t.mapGroup core slot (Group.wakeAt .block n (phaseOf t core l b .block n) (t.core core).nextId) :=
    applyArrive_released hg hp hl hb hf (releaseStep_core hg ha (by decide))
  have hu : u.group? core slot = some ((g.dropPend id).setToken .block n y.phase) := by
    rw [State.group_mapGroup_same, hg, Option.map_some]
  have hbars : (u.core core).bars = (s.core core).bars := by
    rw [State.core_mapGroup]
  obtain ⟨h, hh, hk⟩ := Core.arriveBlock_group? hu b n
  have hh' : t.group? core slot = some h := by
    rw [State.group?, State.core_mapCore_same, hh]
  rw [happ]
  refine ⟨h.wakeAt .block n (phaseOf t core l b .block n) (t.core core).nextId, ?_, ?_, fun hv => ?_, ?_⟩
  · exact (State.group_mapGroup_same ..).trans (congrArg _ hh')
  · rw [(Group.wakeAt_keeps ..).pend?, hk.pend?]
    exact Group.pend?_dropPend g id
  · rw [(Group.wakeAt_keeps ..).token, hk.token]
    exact Group.token_setToken y.phase hv
  · rw [State.core_mapGroup]
    change nth Barrier.empty (t.core core).bars (b.bar n) = _
    rw [State.core_mapCore_same, Core.arriveBlock_bars, hbars, nth_setNth_same _ _ _ _ hlen]
end

/-! ## An arrival at a segment -/

theorem mem_assocSet {β : Type} {m : List (Nat × β)} {i : Nat} {v : β} {p : Nat × β}
    (hm : (m.map fun p => p.1).Pairwise (· < ·)) (hp : p ∈ assocSet m i v) : p = (i, v) ∨ p ∈ m ∧ p.1 ≠ i := by
  induction m with
  | nil => exact .inl (List.mem_singleton.1 hp)
  | cons q m ih =>
    obtain ⟨k, w⟩ := q
    rw [List.map_cons, List.pairwise_cons] at hm
    have hbelow : ∀ q ∈ m, k < q.1 := fun q hq => hm.1 _ (List.mem_map_of_mem hq)
    rw [assocSet] at hp
    split at hp
    next hi =>
      rcases List.mem_cons.1 hp with rfl | hp
      · exact .inl rfl
      · refine .inr ⟨hp, ?_⟩
        rcases List.mem_cons.1 hp with rfl | hp
        · exact (Nat.ne_of_lt hi).symm
        · have := hbelow p hp
          omega
    split at hp
    next hi =>
      rcases List.mem_cons.1 hp with rfl | hp
      · exact .inl rfl
      · have := hbelow p hp
        exact .inr ⟨List.mem_cons_of_mem _ hp, by omega⟩
    next hi =>
      rcases List.mem_cons.1 hp with rfl | hp
      · exact .inr ⟨List.mem_cons_self, fun e => hi e.symm⟩
      · exact (ih hm.2 hp).imp_right fun h => ⟨List.mem_cons_of_mem _ h.1, h.2⟩

/-- A core that has been changed stands in the state's table. -/
theorem State.mem_cores_mapCore (s : State) (n : Nat) (f : Core → Core) : (n, f (s.core n)) ∈ (s.mapCore n f).cores :=
  mem_of_assocGet (assocGet_assocSet_same ..)

/-- What an arrival makes of a core's segment (R55). -/
def Segment.arrived (y : Segment) : Segment :=
  if y.bar.sent then { y with bar := { y.bar with extra := y.bar.extra + 1 } }
  else if y.bar.pending ≤ 1 then { y with bar := { y.bar with pending := 0, sent := true } }
  else { y with bar := { y.bar with pending := y.bar.pending - 1 } }

section
variable (s : State) (core launch inst : Nat) (k : BarKind) (n : Nat)

def arriveAt : State :=
  s.mapCore core fun c => { c with segs := c.segs.map fun y => if isSeg launch inst k n y then y.arrived else y }

theorem arriveSeg_eq : arriveSeg s core launch inst k n =
    if segsComplete (arriveAt s core launch inst k n) launch inst k n then
      segsAdvance (arriveAt s core launch inst k n) launch inst k n
    else arriveAt s core launch inst k n := rfl

theorem arriveAt_segs : ((arriveAt s core launch inst k n).core core).segs =
    (s.core core).segs.map fun y => if isSeg launch inst k n y then y.arrived else y := by
  rw [arriveAt, State.core_mapCore_same]

/-- A core whose segments of a barrier have begun their next phase. -/
def advanceCore (m : Nat) (c : Core) : Core :=
  let c := { c with segs := c.segs.map fun y => if isSeg launch inst k n y then y.next else y }
  match c.segs.find? (isSeg launch inst k n) with
  | none => c
  | some y => c.wakeBar launch (inInstance s launch m inst k) k n y.bar.phase

theorem segsAdvance_cores : (segsAdvance s launch inst k n).cores =
    s.cores.map fun p => (p.1, advanceCore s launch inst k n p.1 p.2) := by
  refine List.map_congr_left fun p _ => ?_
  simp only [advanceCore]
  cases (p.2.segs.map fun y => if isSeg launch inst k n y then y.next else y).find? (isSeg launch inst k n) <;> rfl

theorem segsAdvance_segs (m : Nat) : ((segsAdvance s launch inst k n).core m).segs =
    (s.core m).segs.map fun y => if isSeg launch inst k n y then y.next else y := by
  have hadv : ∀ c, (advanceCore s launch inst k n m c).segs =
      c.segs.map fun y => if isSeg launch inst k n y then y.next else y := fun c => by
    simp only [advanceCore]
    split <;> rfl
  rw [State.core, segsAdvance_cores, Core.Onward.assocGet_map, State.core]
  cases assocGet s.cores m with
  | none => rfl
  | some c => exact hadv c
end

section
variable {s : State} {core launch inst n : Nat} {k : BarKind}

theorem isSeg_arrived (y : Segment) : isSeg launch inst k n y.arrived = isSeg launch inst k n y := by
  unfold Segment.arrived
  split
  · rfl
  · split <;> rfl

theorem arriveSeg_counts {y : Segment} (hy : y ∈ (s.core core).segs) (hk : isSeg launch inst k n y = true)
    (hs : y.bar.sent = false) (hp : 2 ≤ y.bar.pending) :
    { y with bar := { y.bar with pending := y.bar.pending - 1 } } ∈ ((arriveSeg s core launch inst k n).core core).segs := by
  have hless : y.arrived = { y with bar := { y.bar with pending := y.bar.pending - 1 } } := by
    simp [Segment.arrived, hs, Nat.not_le.2 hp]
  have hmem : y.arrived ∈ ((arriveAt s core launch inst k n).core core).segs := by
    rw [arriveAt_segs]
    exact List.mem_map.2 ⟨y, hy, if_pos hk⟩
  have hwaits : segsComplete (arriveAt s core launch inst k n) launch inst k n = false := by
    rw [segsComplete, Bool.and_eq_false_imp]
    intro hall
    have hin : y.arrived ∈ (arriveAt s core launch inst k n).cores.flatMap fun p => p.2.segs.filter (isSeg launch inst k n) := by
      refine List.mem_flatMap.2 ⟨_, State.mem_cores_mapCore s core _, List.mem_filter.2 ⟨?_, (isSeg_arrived y).trans hk⟩⟩
      exact List.mem_map.2 ⟨y, hy, if_pos hk⟩
    have hsent := List.all_eq_true.1 hall _ hin
    rw [hless] at hsent
    exact absurd (hs.symm.trans hsent) Bool.false_ne_true
  rw [arriveSeg_eq, if_neg (by simp [hwaits]), ← hless]
  exact hmem

section
variable (hlast : ∀ y ∈ (s.core core).segs, isSeg launch inst k n y = true → y.bar.sent = false ∧ y.bar.pending ≤ 1)
include hlast

theorem arrived_of_last {y : Segment} (hy : y ∈ (s.core core).segs) (hk : isSeg launch inst k n y = true) :
    y.arrived = { y with bar := { y.bar with pending := 0, sent := true } } := by
  obtain ⟨hs, hp⟩ := hlast y hy hk
  simp [Segment.arrived, hs, hp]

variable (hstays : ∃ y ∈ (s.core core).segs, isSeg launch inst k n y = true ∧ y.bar.leaving < y.bar.members)
  (hothers : ∀ p ∈ s.cores, p.1 ≠ core → ∀ y ∈ p.2.segs, isSeg launch inst k n y = true → y.bar.sent = true)
  (hsorted : (s.cores.map fun p => p.1).Pairwise (· < ·))
include hstays hothers hsorted

/-- The last arrival at a barrier's segments completes its phase (R55). -/
theorem segsComplete_of_last : segsComplete (arriveAt s core launch inst k n) launch inst k n = true := by
  have hcores := fun p => mem_assocSet (p := p) (i := core)
    (v := { s.core core with segs := (s.core core).segs.map fun y => if isSeg launch inst k n y then y.arrived else y }) hsorted
  rw [segsComplete, Bool.and_eq_true, List.all_eq_true, List.any_eq_true]
  constructor
  · intro z hz
    obtain ⟨p, hp, hz⟩ := List.mem_flatMap.1 hz
    obtain ⟨hz, hk⟩ := List.mem_filter.1 hz
    rcases hcores p hp with rfl | ⟨hp, hne⟩
    · obtain ⟨y, hy, rfl⟩ := List.mem_map.1 hz
      by_cases hky : isSeg launch inst k n y = true
      · simp only [hky, if_true, arrived_of_last hlast hy hky]
      · rw [if_neg hky] at hk
        exact absurd hk hky
    · exact hothers p hp hne z hz hk
  · obtain ⟨y, hy, hk, hlt⟩ := hstays
    refine ⟨y.arrived, List.mem_flatMap.2 ⟨_, State.mem_cores_mapCore s core _,
      List.mem_filter.2 ⟨List.mem_map.2 ⟨y, hy, if_pos hk⟩, (isSeg_arrived y).trans hk⟩⟩, ?_⟩
    rw [arrived_of_last hlast hy hk]
    exact decide_eq_true hlt

theorem arriveSeg_completes {m : Nat} {z : Segment} (hz : z ∈ ((arriveSeg s core launch inst k n).core m).segs)
    (hk : isSeg launch inst k n z = true) :
    ∃ y ∈ (s.core m).segs, isSeg launch inst k n y = true ∧ z.bar.phase = (!y.bar.phase) ∧
      z.bar.members = y.bar.members - y.bar.leaving ∧ z.bar.pending = z.bar.members - y.bar.extra := by
  rw [arriveSeg_eq, if_pos (segsComplete_of_last hlast hstays hothers hsorted), segsAdvance_segs] at hz
  obtain ⟨u, hu, rfl⟩ := List.mem_map.1 hz
  have hku : isSeg launch inst k n u = true := by
    by_contra hno
    rw [if_neg hno] at hk
    exact hno hk
  rw [if_pos hku]
  by_cases hm : m = core
  · subst hm
    rw [arriveAt_segs] at hu
    obtain ⟨y, hy, rfl⟩ := List.mem_map.1 hu
    have hky : isSeg launch inst k n y = true := by
      by_contra hno
      rw [if_neg hno] at hku
      exact hno hku
    rw [if_pos hky, arrived_of_last hlast hy hky]
    exact ⟨y, hy, hky, rfl, rfl, rfl⟩
  · rw [arriveAt, State.core_mapCore_other _ _ _ _ hm] at hu
    exact ⟨u, hu, hku, rfl, rfl, rfl⟩
end
end

/-! ## An EXPECT that was deferred -/

section
variable {s : State} {core slot : Nat} {p : Pend} {q : Site} {k : BarKind} {n count : Nat} {v : List (List Word)} {g : Group}
  {l : Launch} {b : Block} (hop : p.op = .expect q k n count v) (hg : s.group? core slot = some g)
  (hf : g.arrivesBefore k n p.id = false) (hl : s.launch? g.launch = some l)
  (hb : (s.core core).block? g.launch g.block = some b)
include hop hg hf hl hb

/-- What a deferred EXPECT does once the operations before it have applied. -/
theorem applyExpect_eq : applyExpect s core slot p =
    let t := s.mapGroup core slot fun g => g.dropPend p.id
    if pendingOf s core l b k n + count ≤ 63 then expectBar t core l b k n count
    else if g.ended then t
    else if g.handler.any fun h => decide (h.mark ≤ p.id) then
      abortLaunch t g.launch .trapInHandler (Cause.barOverflow.code, core, q.hdrOff.toNat)
    else t.mapGroup core slot fun g => { g with delivered := g.delivered ++ [overflowTrap q v] } := by
  have hpend : pendingOf (s.mapGroup core slot fun g => g.dropPend p.id) core l b k n = pendingOf s core l b k n := by
    unfold pendingOf
    rw [State.core_mapGroup]
  have hb' : ((s.mapGroup core slot fun g => g.dropPend p.id).core core).block? g.launch g.block = some b := by
    rw [State.core_mapGroup]
    exact hb
  have hl' : (s.mapGroup core slot fun g => g.dropPend p.id).launch? g.launch = some l := hl
  simp only [applyExpect, hop, hg, hf, hl', hb', hpend, Bool.false_eq_true, if_false]

theorem applyExpect_fits (hfit : pendingOf s core l b k n + count ≤ 63) :
    applyExpect s core slot p = expectBar (s.mapGroup core slot fun g => g.dropPend p.id) core l b k n count := by
  rw [applyExpect_eq hop hg hf hl hb]
  exact if_pos hfit

theorem applyExpect_overflows (hover : 63 < pendingOf s core l b k n + count) :
    let t := s.mapGroup core slot fun g => g.dropPend p.id
    (g.ended = true → applyExpect s core slot p = t) ∧
    (g.ended = false → g.handler = none → applyExpect s core slot p = t.mapGroup core slot fun g =>
      { g with delivered := g.delivered ++ [overflowTrap q v] }) ∧
    (∀ h, g.ended = false → g.handler = some h → h.mark ≤ p.id →
      applyExpect s core slot p = abortLaunch t g.launch .trapInHandler (Cause.barOverflow.code, core, q.hdrOff.toNat)) := by
  rw [applyExpect_eq hop hg hf hl hb]
  simp only [if_neg (Nat.not_le.2 hover)]
  refine ⟨fun he => if_pos he, fun he hh => ?_, fun h he hh hm => ?_⟩
  · simp [he, hh]
  · simp [he, hh, hm]
end

/-! ## The obligation -/

theorem exec_arriveApply (s : State) : exec .arriveApply s = .next (applyArrive s s.sel.core s.sel.slot s.sel.id) := rfl

theorem Group.arrivesBefore_false {g : Group} {k : BarKind} {n id : Nat}
    (h : ∀ p ∈ g.pend, p.id < id → (∀ v, p.op ≠ .arrive k n v) ∧ ∀ q c v, p.op ≠ .expect q k n c v) :
    g.arrivesBefore k n id = false := by
  refine List.any_eq_false.2 fun p hp hk => ?_
  rw [Bool.and_eq_true, decide_eq_true_eq] at hk
  obtain ⟨hlt, hop⟩ := hk
  obtain ⟨harrive, hexpect⟩ := h p hp hlt
  split at hop
  next j m w heq =>
    rw [Bool.and_eq_true, beq_iff_eq, beq_iff_eq] at hop
    exact harrive w (by rw [heq, hop.1, hop.2])
  next q j m c v heq =>
    rw [Bool.and_eq_true, beq_iff_eq, beq_iff_eq] at hop
    exact hexpect q c v (by rw [heq, hop.1, hop.2])
  next => exact Bool.false_ne_true hop

/-- A barrier wider than a block's is a release at a scope wider than core, and its arrivals count at segments. -/
theorem barScope_wide {k : BarKind} (h : k ≠ .block) : 2 ≤ barScope k ∧ ¬6 ≤ barScope k ∧
    ∀ s core l b n, arrive s core l b k n = arriveSeg s core l.id (barInstance l core b.index k) k n := by
  cases k with
  | block => exact absurd rfl h
  | cluster => exact ⟨by decide, by decide, fun _ _ _ _ _ => rfl⟩
  | die => exact ⟨by decide, by decide, fun _ _ _ _ _ => rfl⟩
  | device => exact ⟨by decide, by decide, fun _ _ _ _ _ => rfl⟩

/-- Settles O21, from the instructions to the arrivals and EXPECTs that apply later. -/
theorem barrierInstructions : Obligations.BarrierInstructions := by
  unfold Obligations.BarrierInstructions
  refine ⟨fun s x w e => ?issue, ?block, ?wide, fun s core launch inst n k y hy hk hs hp => arriveSeg_counts hy hk hs hp,
    fun s core launch inst n m k z hlast hstays hothers hsorted hz hk =>
      arriveSeg_completes hlast hstays hothers hsorted hz hk,
    fun s core slot p q k n count v g l b hop hg hf hl hb hfit => applyExpect_fits hop hg hf hl hb hfit,
    fun s core slot p q k n count v g l b hop hg hf hl hb hover => applyExpect_overflows hop hg hf hl hb hover⟩
  case issue =>
    intro k n count id later waits fit
    refine ⟨fun h hb => exec_bare_expects h hb, fun h hb => exec_bare_deferred h hb, fun h => ?_, fun h => ?_, fun h => ?_⟩
    · exact runInstr_done h (body := fun x _ => .done (arriveLater s x (barOf e).1 (barOf e).2 false)) rfl
    · rw [exec_barw h, settle_barWait]
    · rw [exec_baraw h, settle_barWait]
      rfl
  case block =>
    intro s g l b n w hg hp hl hb hfirst hlen y
    obtain ⟨h, hh, hpend, htok, hbar⟩ := applyArrive_block hg hp hl hb
      (Group.arrivesBefore_false fun p hp hlt => (hfirst p hp hlt).2) (Group.accessesDone_of fun p hp hlt => (hfirst p hp hlt).1) hlen
    exact ⟨_, h, exec_arriveApply s, hh, hpend, htok, hbar⟩
  case wide =>
    intro s g l b k n w hk hg hp hl hb hf ha core
    obtain ⟨hscope, hnarrow, harrive⟩ := barScope_wide hk
    refine ⟨fun hd => ?_, fun hd ho => ?_⟩
    · rw [exec_arriveApply, applyArrive_releasing hg hp hf (releaseStep_dirty hg ha hscope hd)]
    · intro u
      have happ := applyArrive_released hg hp hl hb hf
        (releaseStep_complete hg ha (fun _ => ⟨hd, ho⟩) fun h6 => absurd h6 hnarrow)
      rw [exec_arriveApply, happ, harrive]
      rfl

end Sys2Proof.Machine
end

section
/-! PROOF. Copies of a line: the words that a mask names, what a fetch of a line at the core's own die brings, and what L1
and RDC keep of the bytes that they hold (05 R187, R188, 08 R303, R304). -/

namespace Sys2Proof.Machine

/-! ## Masks of bytes and words -/

theorem getLsbD_foldl_setIf {w : Nat} (p : Nat → Bool) (xs : List Nat) : ∀ (m : BitVec w) {j : Nat}, j < w →
    (xs.foldl (fun m i => if p i then m ||| (1#w <<< i) else m) m).getLsbD j = (m.getLsbD j || (xs.contains j && p j)) := by
  induction xs with
  | nil => simp
  | cons i xs ih =>
    intro m j hj
    rw [List.foldl_cons, ih _ hj, List.contains_cons]
    by_cases hi : j = i
    · subst hi
      cases hp : p j <;> simp [hj]
    · have hshift : (1#w <<< i).getLsbD j = false := by
        rw [BitVec.getLsbD_shiftLeft, BitVec.getLsbD_one]
        by_cases hlt : j < i
        · simp [hlt]
        · simp [show j - i ≠ 0 by omega]
      have hne : (j == i) = false := by simpa using hi
      cases hp : p i <;> simp [hne, hshift]

theorem getLsbD_wordBytes (m : BitVec 32) {i : Nat} (h : i < 128) : (wordBytes m).getLsbD i = m.getLsbD (i / 4) := by
  rw [wordBytes, getLsbD_foldl_setIf _ _ _ h]
  simp [h]

theorem getLsbD_byteWords (b : BitVec 128) {w : Nat} (h : w < 32) :
    (byteWords b).getLsbD w = (List.range 4).any fun i => b.getLsbD (4 * w + i) := by
  rw [byteWords, getLsbD_foldl_setIf _ _ _ h]
  simp [h]

/-- A byte of a mask lies in one of its words. -/
theorem byteWords_ne_zero {b : BitVec 128} {i : Nat} (hi : i < 128) (h : b.getLsbD i = true) : byteWords b ≠ 0#32 := by
  intro h0
  have hw : (byteWords b).getLsbD (i / 4) = true := by
    rw [getLsbD_byteWords _ (by omega), List.any_eq_true]
    exact ⟨i % 4, List.mem_range.2 (by omega), by rwa [Nat.div_add_mod]⟩
  rw [h0, BitVec.getLsbD_zero] at hw
  exact Bool.false_ne_true hw

/-! ## Bytes laid over a line's -/

theorem get_overlay {m : Memory} (hm : m.wf = true) (mask : BitVec 32) (bytes : List Byte) {b : Nat} (hb : b < 128) :
    (overlay mask bytes m).get b = if mask.getLsbD (b / 4) then nth 0#8 bytes b else m.get b := by
  have hfold : ∀ (xs : List Nat) (m : Memory), m.wf = true →
      (xs.foldl (fun (m : Memory) i => if mask.getLsbD (i / 4) then m.set i (nth 0#8 bytes i) else m) m).get b =
        if b ∈ xs ∧ mask.getLsbD (b / 4) = true then nth 0#8 bytes b else m.get b := by
    intro xs
    induction xs with
    | nil => simp
    | cons i xs ih =>
      intro m hm
      rw [List.foldl_cons]
      by_cases hi : mask.getLsbD (i / 4) = true
      · rw [if_pos hi, ih _ (Memory.wf_set hm _ _), Memory.get_set hm]
        by_cases hbi : b = i
        · subst hbi
          simp [hi]
        · simp [hbi]
      · rw [if_neg hi, ih _ hm]
        by_cases hbi : b = i
        · subst hbi
          simp [hi]
        · simp [hbi]
  rw [overlay, hfold _ _ hm]
  simp [hb]

/-! ## Lines -/

theorem lineOf_lineOf (a : Nat) : lineOf (lineOf a) = lineOf a := by
  unfold lineOf
  omega

theorem homeDie_lineOf (a : Nat) : homeDie (lineOf a) = homeDie a := by
  unfold homeDie lineOf
  omega

theorem poisonedAt_lineOf (s : State) (a : Nat) : s.poisonedAt (lineOf a) = s.poisonedAt a := by
  rw [State.poisonedAt, lineOf_lineOf, State.poisonedAt]

/-- The line behind that of an unaligned place. -/
theorem lineOf_next {p : Nat} (h : p % 128 ≠ 0) : lineOf p + 128 = lineOf (p + 127) := by
  unfold lineOf
  omega

/-! ## A fetch at the core's own die -/

/-- A fetch from a line of the own die that is not poisoned: the bytes of the home, and nothing changes but its L2. -/
theorem fetchHome_near {s : State} {d p : Nat} (mask : BitVec 32) (hn : homeDie p = d) (hp : s.poisonedAt p = false) :
    fetchHome s d p mask = if mask = 0#32 then some (s, []) else some (touchL2 s p false, s.dram.bytes p 128) := by
  have hdram : (touchL2 s p false).dram = s.dram := (touchL2_served s p false).dram
  simp only [fetchHome, hn, beq_self_eq_true, hp, Bool.not_true, Bool.false_and, Bool.false_eq_true, if_false, if_true,
    readHome, hdram]

/-- What a fetch from the own die leaves: L2s alone differ. -/
structure Fetched (s : State) (p : Nat) (mask : BitVec 32) (t : State) (bs : List Byte) : Prop where
  served : Served s t
  home : ∀ b, b < 128 → mask.getLsbD (b / 4) = true → nth 0#8 bs b = s.dram.get (p + b)

theorem fetchHome_fetched {s : State} {d p : Nat} (mask : BitVec 32) (hn : homeDie p = d) (hp : s.poisonedAt p = false) :
    ∃ t bs, fetchHome s d p mask = some (t, bs) ∧ Served s t ∧
      (mask ≠ 0#32 → ∀ b, b < 128 → nth 0#8 bs b = s.dram.get (p + b)) := by
  rw [fetchHome_near mask hn hp]
  split
  next h => exact ⟨s, [], rfl, .refl s, fun h0 => absurd h h0⟩
  next => exact ⟨_, _, rfl, touchL2_served s p false, fun _ b hb => Memory.nth_bytes s.dram p hb⟩

theorem Served.poisonedAt {s t : State} (h : Served s t) (a : Nat) : t.poisonedAt a = s.poisonedAt a := by
  rw [h.1]
  rfl

/-- The 128 bytes that begin k bytes into the first of two lines. -/
def joinLines (k : Nat) (lo hi : List Byte) : List Byte :=
  (List.range 128).map fun i => if i + k < 128 then nth 0#8 lo (i + k) else nth 0#8 hi (i + k - 128)

/-- A line of the own die comes with the bytes of the home, wherever it begins there (10 R351). -/
theorem fetchLine_near {s : State} {d p : Nat} (mask : BitVec 32) (h0 : homeDie p = d) (h1 : homeDie (p + 127) = d)
    (hp0 : s.poisonedAt p = false) (hp1 : s.poisonedAt (p + 127) = false) :
    ∃ t bs, fetchLine s d p mask = some (t, bs) ∧ Fetched s p mask t bs := by
  by_cases hk : p % 128 = 0
  · obtain ⟨t, bs, hf, hs, hb⟩ := fetchHome_fetched mask h0 hp0
    refine ⟨t, bs, (if_pos hk).trans hf, hs, fun b hlt hm => hb (fun hz => ?_) b hlt⟩
    rw [hz, BitVec.getLsbD_zero] at hm
    exact Bool.false_ne_true hm
  · have hnext := lineOf_next hk
    obtain ⟨t, lo, hlo, hs, hblo⟩ := fetchHome_fetched (byteWords (wordBytes mask <<< (p % 128)))
      ((homeDie_lineOf p).trans h0) ((poisonedAt_lineOf s p).trans hp0)
    obtain ⟨u, hi, hhi, hu, hbhi⟩ := fetchHome_fetched (s := t) (d := d) (p := lineOf p + 128)
      (byteWords (wordBytes mask >>> (128 - p % 128)))
      (by rw [hnext, homeDie_lineOf, h1]) (by rw [hnext, poisonedAt_lineOf, hs.poisonedAt, hp1])
    refine ⟨u, joinLines (p % 128) lo hi, ?_, hs.trans hu, fun b hlt hm => ?_⟩
    · simp only [fetchLine, if_neg hk, hlo, hhi, joinLines]
    · have hline : p = lineOf p + p % 128 := by
        unfold lineOf
        omega
      rw [joinLines, nth_map_range_of_lt _ _ hlt]
      split
      next hin =>
        rw [hblo (byteWords_ne_zero (i := b + p % 128) hin ?_) _ hin]
        · exact congrArg s.dram.get (by omega)
        · simp [hin, getLsbD_wordBytes _ hlt, hm]
      next hout =>
        rw [hbhi (byteWords_ne_zero (i := b + p % 128 - 128) (by omega) ?_) _ (by omega), hs.dram]
        · exact congrArg s.dram.get (by omega)
        · rw [BitVec.getLsbD_ushiftRight, show 128 - p % 128 + (b + p % 128 - 128) = b by omega, getLsbD_wordBytes _ hlt, hm]

/-! ## Lines of L1 -/

theorem Core.l1Find_some {c : Core} {asid va : Nat} {l : L1Line} (h : c.l1Find asid va = some l) :
    l ∈ c.l1 ∧ l.asid = asid ∧ l.va = lineOf va := by
  have hkey := List.find?_some h
  rw [Bool.and_eq_true, beq_iff_eq, beq_iff_eq] at hkey
  exact ⟨List.mem_of_find?_eq_some h, hkey⟩

theorem Core.l1Find_lineOf (c : Core) (asid va : Nat) : c.l1Find asid (lineOf va) = c.l1Find asid va := by
  rw [Core.l1Find, lineOf_lineOf, Core.l1Find]

theorem Core.l1Find_l1Put (c : Core) {x : L1Line} {asid va : Nat} (ha : x.asid = asid) (hv : x.va = lineOf va) :
    (c.l1Put x).l1Find asid va = some x :=
  List.find?_cons_of_pos (by simp [ha, hv])

/-- A line whose words a mask names are .ro spans where the read asks for it. -/
def L1Line.marked (ro : Bool) (mask : BitVec 32) (l : L1Line) : L1Line := if ro then { l with ro := l.ro ||| mask } else l

/-- A line that a fill brings into L1. -/
def freshLine (asid va p : Nat) (mask : BitVec 32) (prio : Nat) (bs : List Byte) : L1Line :=
  { asid := asid, va := va, dpa := p, valid := mask, dirty := 0#128, prio := prio, ro := 0#32, data := overlay mask bs []
    wb := [] }

theorem L1Line.marked_frame (ro : Bool) (mask : BitVec 32) (l : L1Line) :
    l.marked ro mask = { l with ro := (l.marked ro mask).ro } := by
  cases ro <;> rfl

section
variable {s u : State} {core asid va dpa : Nat} {mask whole : BitVec 32} {prio : Nat} {ro : Bool} {l : L1Line} {bs : List Byte}

theorem fillL1_hit (hf : (s.core core).l1Find asid va = some l) (hv : l.valid &&& mask = mask) :
    fillL1 s core asid va dpa mask whole prio ro = .ready (s.setCore core ((s.core core).l1Put (l.marked ro mask))) := by
  simp only [fillL1, Core.l1Find_lineOf, hf, hv, if_true]
  rfl

theorem fillL1_partial (hf : (s.core core).l1Find asid va = some l) (hv : l.valid &&& mask ≠ mask)
    (hb : mask &&& ~~~l.valid &&& homeBusy s core asid (lineOf va) = 0#32)
    (hh : fetchLine s (dieOf core) (dpa - va % 128) (mask &&& ~~~l.valid &&& ~~~whole) = some (u, bs)) :
    fillL1 s core asid va dpa mask whole prio ro = .ready (u.mapCore core fun c => c.l1Put (L1Line.marked ro mask
      { l with valid := l.valid ||| mask, data := overlay (mask &&& ~~~l.valid) bs l.data, prio := prio })) := by
  simp only [fillL1, Core.l1Find_lineOf, hf, if_neg hv, hb, ne_eq, not_true_eq_false, if_false, hh]
  rfl

theorem fillL1_absent (hf : (s.core core).l1Find asid va = none)
    (hb : mask &&& homeBusy s core asid (lineOf va) = 0#32)
    (hw : (s.core core).l1Victim asid (lineOf va) (s.waysLeft 1 core (l1Set (lineOf va)) 8) = none)
    (hh : fetchLine s (dieOf core) (dpa - va % 128) (mask &&& ~~~whole) = some (u, bs)) :
    fillL1 s core asid va dpa mask whole prio ro = .ready (u.mapCore core fun c =>
      c.l1Put (L1Line.marked ro mask (freshLine asid (lineOf va) (dpa - va % 128) mask prio bs))) := by
  simp only [fillL1, Core.l1Find_lineOf, hf, hb, hw, hh, ne_eq, not_true_eq_false, if_false]
  rfl
end

/-- A store sets the bytes that it writes and marks them dirty. -/
theorem Core.l1Store_line {c : Core} {asid va : Nat} {l : L1Line} {cells : List (Nat × Byte)}
    (hf : c.l1Find asid va = some l) : (c.l1Store asid va cells).l1Find asid va =
      some { l with data := l.data.putCells cells, dirty := cells.foldl (fun d x => d ||| (1#128 <<< x.1)) l.dirty } := by
  obtain ⟨-, ha, hv⟩ := Core.l1Find_some hf
  rw [Core.l1Store, hf]
  exact Core.l1Find_l1Put c ha hv

theorem getLsbD_foldl_dirty (cells : List (Nat × Byte)) (d : BitVec 128) {b : Nat} (hb : b < 128) :
    (cells.foldl (fun d x => d ||| (1#128 <<< x.1)) d).getLsbD b = (d.getLsbD b || decide (∃ v, (b, v) ∈ cells)) := by
  have hfold := getLsbD_foldl_setIf (w := 128) (fun _ => true) (cells.map fun x => x.1) d hb
  rw [List.foldl_map] at hfold
  refine hfold.trans (congrArg (d.getLsbD b || ·) ?_)
  rw [Bool.and_true, Bool.eq_iff_iff, List.contains_iff_mem, List.mem_map, decide_eq_true_eq]
  exact ⟨fun ⟨x, hx, he⟩ => ⟨x.2, he ▸ hx⟩, fun ⟨v, hv⟩ => ⟨_, hv, rfl⟩⟩

/-! ## Lines of the RDC -/

/-- Of the words of a mask those are taken that a line lacks. -/
theorem getLsbD_lacking {mask : BitVec 32} (valid : BitVec 32) {w : Nat} (hw : w < 32) (hm : mask.getLsbD w = true) :
    (mask &&& ~~~valid).getLsbD w = !valid.getLsbD w := by
  rw [BitVec.getLsbD_and, BitVec.getLsbD_not, hm, decide_eq_true hw, Bool.true_and, Bool.true_and]

theorem viaRdc_data (s : State) (d : Nat) (key : RdcKey) (mask : BitVec 32) (home : List Byte) :
    (viaRdc s d key mask home).2 =
      let old := ((s.die d).rdcFind key).getD { key := key, valid := 0#32, data := [] }
      overlay (mask &&& ~~~old.valid) home old.data := by
  simp only [viaRdc, Die.rdcFill]

theorem viaRdc_absent {s : State} {d : Nat} {key : RdcKey} {mask : BitVec 32} (home : List Byte) {b : Nat} (hb : b < 128)
    (hm : mask.getLsbD (b / 4) = true) (hf : (s.die d).rdcFind key = none) :
    (viaRdc s d key mask home).2.get b = nth 0#8 home b := by
  simp only [viaRdc_data, hf, Option.getD_none, get_overlay Memory.wf_nil _ _ hb, getLsbD_lacking _ (by omega : b / 4 < 32) hm,
    BitVec.getLsbD_zero, Bool.not_false, if_true]

theorem viaRdc_held {s : State} {d : Nat} {key : RdcKey} {mask : BitVec 32} {l : RdcLine} (home : List Byte) {b : Nat}
    (hb : b < 128) (hm : mask.getLsbD (b / 4) = true) (hf : (s.die d).rdcFind key = some l) (hw : l.data.wf = true) :
    (viaRdc s d key mask home).2.get b = if l.valid.getLsbD (b / 4) then l.data.get b else nth 0#8 home b := by
  simp only [viaRdc_data, hf, Option.getD_some, get_overlay hw _ _ hb, getLsbD_lacking _ (by omega : b / 4 < 32) hm]
  cases l.valid.getLsbD (b / 4) <;> rfl

/-! ## Bytes that go home -/

theorem performHome_dram (s : State) (cells : List Host.Cell) : (performHome s cells).dram = s.dram.putCells cells := by
  cases cells with
  | nil => rfl
  | cons c cs => exact (touchL2_served _ _ _).dram

/-- A write to lines of the own die is performed at once. -/
theorem writeHomes_dram (d : Nat) (ref : AckRef) : ∀ (ps : List (List Host.Cell × BitVec 32)) (s : State),
    (∀ p ∈ ps, ∀ c ∈ p.1, homeDie c.1 = d) → (writeHomes s d ref ps).dram = s.dram.putCells (ps.flatMap fun p => p.1) := by
  have hone : ∀ (s : State) (p : List Host.Cell × BitVec 32) (ref : AckRef), (∀ c ∈ p.1, homeDie c.1 = d) →
      (writeHome s d p.1 p.2 ref).dram = s.dram.putCells p.1 := by
    intro s p ref h
    unfold writeHome
    split
    next he => rw [he]; rfl
    next c cs he =>
      rw [if_pos (h c (by simp [he])), (afterHome_served ..).dram, performHome_dram]
  intro ps
  induction ps with
  | nil => exact fun s _ => rfl
  | cons p ps ih =>
    intro s h
    obtain ⟨hp, hps⟩ := List.forall_mem_cons.1 h
    cases ps with
    | nil =>
      rw [writeHomes, hone s p ref hp]
      simp
    | cons q ps =>
      have hrest := ih (writeHome s d p.1 p.2 .none) hps
      rw [hone s p .none hp] at hrest
      rw [List.flatMap_cons, Memory.putCells, List.foldl_append]
      exact hrest

theorem writeCells_dram {s : State} {d : Nat} {cells : List Host.Cell} (ref : AckRef) (h : ∀ c ∈ cells, homeDie c.1 = d) :
    (writeCells s d cells ref).dram = s.dram.putCells (byLine cells).flatten := by
  rw [writeCells, writeHomes_dram]
  · rw [List.flatMap_map, List.flatMap_id']
  · intro p hp c hc
    obtain ⟨cs, hcs, rfl⟩ := List.mem_map.1 hp
    exact h c (mem_flatten_byLine.1 (List.mem_flatten_of_mem hcs hc))

theorem L1Line.mem_dirtyCells {l : L1Line} {c : Host.Cell} :
    c ∈ l.dirtyCells ↔ ∃ b, b < 128 ∧ l.dirty.getLsbD b = true ∧ c = (l.dpa + b, l.data.get b) := by
  rw [L1Line.dirtyCells, List.mem_map]
  simp only [List.mem_filter, List.mem_range, and_assoc]
  exact exists_congr fun b => and_congr_right fun _ => and_congr_right fun _ => eq_comm

/-! ## A write-back -/

/-- The lines that a write-back sends, with the bytes that it sends of each. -/
def sentLines (c : Core) (m : L1Line → BitVec 128) : List L1Line :=
  (c.l1.map fun l => { l with dirty := l.dirty &&& m l }).filter fun l => l.dirty != 0#128

/-- The state in which the lines of a write-back have set out. -/
def setOut (s : State) (core : Nat) (m : L1Line → BitVec 128) : State :=
  s.setCore core { s.core core with
    l1 := (s.core core).l1.map fun l => l.sendBytes (m l)
    wbOut := (s.core core).wbOut + (sentLines (s.core core) m).length }

theorem writeBackBytes_eq (s : State) (core : Nat) (m : L1Line → BitVec 128) :
    writeBackBytes s core m = (sentLines (s.core core) m).foldl
      (fun s l => writeCells s (dieOf core) l.dirtyCells (.writeback core l.asid l.va)) (setOut s core m) := rfl

theorem writeBackBytes_onlyHomes (s : State) (core : Nat) (m : L1Line → BitVec 128) :
    OnlyHomes (setOut s core m) (writeBackBytes s core m) := by
  rw [writeBackBytes_eq]
  exact foldl_onlyHomes (fun s l => writeCells_onlyHomes _ _ _ _) _ _

theorem OnlyHomes.core {s t : State} (h : OnlyHomes s t) (k : Nat) : t.core k = s.core k := by
  rw [h]
  rfl

theorem OnlyHomes.hostMem {s t : State} (h : OnlyHomes s t) : t.hostMem = s.hostMem := by rw [h]

/-- Device memory after a write-back to lines of the core's own die. -/
theorem writeBackBytes_dram {s : State} {core : Nat} {m : L1Line → BitVec 128}
    (h : ∀ y ∈ (s.core core).l1, ∀ b, b < 128 → homeDie (y.dpa + b) = dieOf core) :
    (writeBackBytes s core m).dram =
      s.dram.putCells ((sentLines (s.core core) m).flatMap fun l => (byLine l.dirtyCells).flatten) := by
  have hfold : ∀ (ls : List L1Line) (s : State), (∀ y ∈ ls, ∀ b, b < 128 → homeDie (y.dpa + b) = dieOf core) →
      (ls.foldl (fun s l => writeCells s (dieOf core) l.dirtyCells (.writeback core l.asid l.va)) s).dram =
        s.dram.putCells (ls.flatMap fun l => (byLine l.dirtyCells).flatten) := by
    intro ls
    induction ls with
    | nil => exact fun s _ => rfl
    | cons l ls ih =>
      intro s hls
      obtain ⟨hl, hls⟩ := List.forall_mem_cons.1 hls
      rw [List.foldl_cons, ih _ hls, writeCells_dram, List.flatMap_cons, Memory.putCells, Memory.putCells, Memory.putCells,
        List.foldl_append]
      intro c hc
      obtain ⟨b, hb, -, rfl⟩ := L1Line.mem_dirtyCells.1 hc
      exact hl b hb
  rw [writeBackBytes_eq, hfold]
  · rfl
  · intro y hy
    obtain ⟨z, hz, rfl⟩ := List.mem_map.1 (List.mem_filter.1 hy).1
    exact h z hz

theorem mem_sentCells {c : Core} {x : Host.Cell} :
    x ∈ ((sentLines c fun _ => BitVec.allOnes 128).flatMap fun l => (byLine l.dirtyCells).flatten) ↔
      ∃ y ∈ c.l1, ∃ b, b < 128 ∧ y.dirty.getLsbD b = true ∧ x = (y.dpa + b, y.data.get b) := by
  simp only [List.mem_flatMap, mem_flatten_byLine, L1Line.mem_dirtyCells, sentLines, List.mem_filter, List.mem_map,
    BitVec.and_allOnes]
  constructor
  · rintro ⟨_, ⟨⟨y, hy, rfl⟩, -⟩, b, hb, hd, rfl⟩
    exact ⟨y, hy, b, hb, hd, rfl⟩
  · rintro ⟨y, hy, b, hb, hd, rfl⟩
    refine ⟨y, ⟨⟨y, hy, rfl⟩, bne_iff_ne.2 fun h0 => ?_⟩, b, hb, hd, rfl⟩
    rw [h0, BitVec.getLsbD_zero] at hd
    exact Bool.false_ne_true hd

section
variable (s : State) (core : Nat)

theorem writeBack_clean : ((writeBack s core fun _ => true).core core).l1Dirty = false := by
  rw [writeBack, (writeBackBytes_onlyHomes s core _).core, setOut, State.core_setCore_same, Core.l1Dirty]
  refine List.any_eq_false.2 fun y hy => ?_
  obtain ⟨l, -, rfl⟩ := List.mem_map.1 hy
  simp only [if_true, L1Line.sendBytes, BitVec.and_allOnes, BitVec.not_allOnes, BitVec.and_zero]
  split
  next h0 => simp [h0]
  next => simp

theorem writeBack_spad (k : Nat) : ((writeBack s core fun _ => true).core k).spad = (s.core k).spad := by
  rw [writeBack, (writeBackBytes_onlyHomes s core _).core, setOut]
  by_cases hk : k = core
  · rw [hk, State.core_setCore_same]
  · rw [State.core_setCore_other _ _ _ _ hk]

section
variable {s core} (hw : s.dram.wf = true) (hnear : ∀ y ∈ (s.core core).l1, ∀ b, b < 128 → homeDie (y.dpa + b) = dieOf core)
include hw hnear

theorem writeBack_home (hp : (s.core core).l1.Pairwise fun y z => y.dpa + 128 ≤ z.dpa ∨ z.dpa + 128 ≤ y.dpa) {y : L1Line}
    (hy : y ∈ (s.core core).l1) {b : Nat} (hb : b < 128) (hd : y.dirty.getLsbD b = true) :
    (writeBack s core fun _ => true).dram.get (y.dpa + b) = y.data.get b := by
  have hone : ∀ z ∈ (s.core core).l1, ∀ b', b' < 128 → z.dpa + b' = y.dpa + b → z = y := by
    intro z hz b' hb' he
    by_contra hne
    have hsymm : Std.Symm fun y z : L1Line => y.dpa + 128 ≤ z.dpa ∨ z.dpa + 128 ≤ y.dpa := ⟨fun _ _ h => h.symm⟩
    have hapart := hp.forall hz hy hne
    omega
  simp only [writeBack, if_true]
  rw [writeBackBytes_dram hnear]
  refine Memory.get_putCells _ hw (fun c hc hat => ?_) (mem_sentCells.2 ⟨y, hy, b, hb, hd, rfl⟩)
  obtain ⟨z, hz, b', hb', -, rfl⟩ := mem_sentCells.1 hc
  obtain rfl := hone z hz b' hb' hat
  obtain rfl : b' = b := by simpa using hat
  rfl

theorem writeBack_elsewhere {a : Nat}
    (ha : ∀ y ∈ (s.core core).l1, a < y.dpa ∨ y.dpa + 128 ≤ a ∨ y.dirty.getLsbD (a - y.dpa) = false) :
    (writeBack s core fun _ => true).dram.get a = s.dram.get a := by
  simp only [writeBack, if_true]
  rw [writeBackBytes_dram hnear]
  refine Memory.get_putCells_other _ hw fun c hc hat => ?_
  obtain ⟨y, hy, b, hb, hd, rfl⟩ := mem_sentCells.1 hc
  subst hat
  rcases ha y hy with h | h | h
  · omega
  · omega
  · rw [Nat.add_sub_cancel_left, hd] at h
    exact Bool.noConfusion h
end
end

/-- Settles O17: L1, RDC and write-backs keep the bytes that they hold. -/
theorem fillsAndCopies : Obligations.FillsAndCopies := by
  unfold Obligations.FillsAndCopies
  refine ⟨fun s core asid va dpa mask whole prio ro l hf hv => ?hit, fun s core asid va dpa mask prio ro hf hw => ?absent,
    fun c asid va l cells hf hwf hin hnodup => ?store, fun s d key mask home b hb hm =>
      ⟨viaRdc_absent home hb hm, fun l hf hwf => viaRdc_held home hb hm hf hwf⟩, fun s core hw hp hnear =>
      ⟨fun y hy b hb hd => writeBack_home hw hnear hp hy hb hd, fun a ha => writeBack_elsewhere hw hnear ha,
        writeBack_clean s core, (writeBackBytes_onlyHomes s core _).hostMem, writeBack_spad s core⟩⟩
  case hit =>
    obtain ⟨-, ha, hva⟩ := Core.l1Find_some hf
    refine ⟨_, l.marked ro mask, fillL1_hit hf hv, ?_, ?_⟩
    · rw [State.core_setCore_same]
      refine Core.l1Find_l1Put _ ?_ ?_ <;> rw [L1Line.marked_frame]
      · exact ha
      · exact hva
    · rw [L1Line.marked_frame]
      exact ⟨rfl, rfl, rfl, rfl, rfl⟩
  case absent =>
    intro p hle h0 h1 hp0 hp1 hne hbusy
    obtain ⟨u, bs, hfetch, hu⟩ := fetchLine_near mask h0 h1 hp0 hp1
    have hfill := fillL1_absent (whole := 0#32) (prio := prio) (ro := ro) hf hbusy hw
      (by rwa [BitVec.not_zero, BitVec.and_allOnes])
    refine ⟨_, L1Line.marked ro mask (freshLine asid (lineOf va) p mask prio bs), hfill, ?_, ?_⟩
    · rw [State.core_mapCore_same]
      exact Core.l1Find_l1Put _ (by rw [L1Line.marked_frame, freshLine]) (by rw [L1Line.marked_frame, freshLine])
    · rw [L1Line.marked_frame]
      refine ⟨rfl, rfl, rfl, rfl, hu.served.dram, fun b hb hm => ?_⟩
      exact (get_overlay Memory.wf_nil mask bs hb).trans ((if_pos hm).trans (hu.home b hb hm))
  case store =>
    refine ⟨_, Core.l1Store_line hf, rfl, rfl, fun b hb => ⟨fun v hv => ⟨?_, ?_⟩, fun hv => ⟨?_, ?_⟩⟩⟩
    · refine Memory.get_putCells cells hwf (fun c hc hat => ?_) hv
      exact congrArg Prod.snd (List.inj_on_of_nodup_map hnodup hc hv hat)
    · rw [getLsbD_foldl_dirty cells _ hb, decide_eq_true ⟨v, hv⟩, Bool.or_true]
    · exact Memory.get_putCells_other cells hwf fun c hc hat => hv c.2 (hat ▸ hc)
    · rw [getLsbD_foldl_dirty cells _ hb, decide_eq_false fun ⟨v, h⟩ => hv v h, Bool.or_false]

end Sys2Proof.Machine
end

section
/-! PROOF. LOAD_LAND, STORE_DRAIN and ATOMIC_PERFORM: which part of an access they carry out, and what it does in each space
(05 R182 to R197). -/

namespace Sys2Proof.Machine

/-! ## The part that an event names -/

section
variable {s : State} {g : Group} {a : Access} (hg : s.group? s.sel.core s.sel.slot = some g)
  (hp : g.pend? s.sel.id = some (.access a))
include hg hp

theorem performSel_access {ks : List AccKind} (hk : a.kind ∈ ks) :
    performSel s ks = (performPart s s.sel.core s.sel.slot s.sel.id s.sel.part).getD s := by
  have hks : a.kindIs ks = true := List.contains_iff_mem.2 hk
  simp only [performSel, hg, hp, hks, if_true]

theorem exec_loadLand_access (hk : a.kind = .load) :
    exec .loadLand s = .next ((performPart s s.sel.core s.sel.slot s.sel.id s.sel.part).getD s) := by
  have hx : exec .loadLand s = .next (performSel s [.load]) := rfl
  rw [hx, performSel_access hg hp (by simp [hk])]

theorem exec_storeDrain_access (hk : a.kind = .store) :
    exec .storeDrain s = .next ((performPart s s.sel.core s.sel.slot s.sel.id s.sel.part).getD s) := by
  have hx : exec .storeDrain s = execStoreDrain s := rfl
  have hbind : ((s.group? s.sel.core s.sel.slot).bind fun g => g.pend? s.sel.id) = some (.access a) := by
    rw [hg, Option.bind_some, hp]
  rw [hx, execStoreDrain, hbind, performSel_access hg hp (by simp [hk])]

theorem exec_atomicPerform_access (hk : a.kind = .atom ∨ a.kind = .red) :
    exec .atomicPerform s = .next ((performPart s s.sel.core s.sel.slot s.sel.id s.sel.part).getD s) := by
  have hx : exec .atomicPerform s = .next (performSel s [.atom, .red]) := rfl
  rw [hx, performSel_access hg hp (by simpa using hk)]
end

/-- What a part does that nothing holds up. -/
def performFree (s : State) (core slot id part : Nat) (g : Group) (a : Access) (ls : List LaneAcc) : Option State :=
  match a.space, a.kind with
  | .g, .load => loadGlobal s core slot id part g a ls
  | .g, .store => storeGlobal s core slot id part g a ls
  | .g, _ => sendAtomic s core slot id part g a ls
  | .h, _ => some (performHost s core slot id part a ls)
  | .p, _ => performPeer s core slot id part a ls
  | _, _ => performSpad s core slot id part a ls

theorem LaneAcc.walking_of_target {l : LaneAcc} (h : ∀ r p b, l.target ≠ .walk r p b) : l.walking = false := by
  unfold LaneAcc.walking
  split
  next r p b he => exact absurd he (h r p b)
  next => rfl

/-- The lanes of a part that wait have not ended. -/
theorem waiting_of_open (lanes : List LaneAcc) (part : Nat) :
    ((lanes.filter fun l => l.part == part && l.open_).filter fun l => l.progress == .waiting) =
      lanes.filter fun l => l.part == part && l.progress == .waiting := by
  rw [List.filter_filter]
  refine List.filter_congr fun l _ => ?_
  cases hw : l.progress == LaneProgress.waiting
  · simp
  · have hopen : l.open_ = true := by rw [LaneAcc.open_, eq_of_beq hw]
    simp [hopen]

section
variable {s : State} {core slot id part : Nat} {g : Group} {a : Access} (hg : s.group? core slot = some g)
  (hp : g.pend? id = some (.access a))
include hg hp

theorem performPart_waiting (hne : (a.lanes.filter fun l => l.part == part && l.progress == .waiting) ≠ [])
    (hw : ∀ l ∈ a.lanes.filter fun l => l.part == part && l.progress == .waiting, ∀ r p b, l.target ≠ .walk r p b) :
    performPart s core slot id part =
      if partFree s core slot id g a (a.lanes.filter fun l => l.part == part && l.progress == .waiting) then
        performFree s core slot id part g a (a.lanes.filter fun l => l.part == part && l.progress == .waiting) else none := by
  have hwalk : ((a.lanes.filter fun l => l.part == part && l.progress == .waiting).any LaneAcc.walking) = false :=
    List.any_eq_false.2 fun l hl => by rw [LaneAcc.walking_of_target (hw l hl)]; exact Bool.false_ne_true
  have hsome : (a.lanes.filter fun l => l.part == part && l.progress == .waiting).isEmpty = false := by simpa using hne
  simp only [performPart, hg, hp, waiting_of_open, hsome, hwalk, Bool.false_or, Bool.false_eq_true, if_false]
  cases partFree s core slot id g a (a.lanes.filter fun l => l.part == part && l.progress == .waiting)
  · rfl
  · rfl

theorem performPart_queued (ha : a.isHomeAtom = true)
    (hq : ∀ l ∈ a.lanes.filter fun l => l.part == part && l.open_, l.progress = .queued) :
    performPart s core slot id part = serveAtomic s core slot id part a (a.lanes.filter fun l => l.part == part && l.open_) := by
  have hnone : ((a.lanes.filter fun l => l.part == part && l.open_).filter fun l => l.progress == .waiting) = [] :=
    List.filter_eq_nil_iff.2 fun l hl => by rw [hq l hl]; decide
  simp only [performPart, hg, hp, hnone, List.isEmpty_nil, ha, if_true]
end

theorem performFree_load {s : State} {core slot id part : Nat} {g : Group} {a : Access} {ls : List LaneAcc}
    (hs : a.space = .g) (hk : a.kind = .load) :
    performFree s core slot id part g a ls = loadGlobal s core slot id part g a ls := by
  simp only [performFree, hs, hk]

theorem performFree_store {s : State} {core slot id part : Nat} {g : Group} {a : Access} {ls : List LaneAcc}
    (hs : a.space = .g) (hk : a.kind = .store) :
    performFree s core slot id part g a ls = storeGlobal s core slot id part g a ls := by
  simp only [performFree, hs, hk]

/-! ## S and C -/

section
variable {s : State} {core slot id part c : Nat} {a : Access} {ls : List LaneAcc} (hne : ls ≠ [])
  (ht : ∀ l ∈ ls, ∃ o, l.target = .spad c o)
include hne ht

theorem spadOf_core : ∃ l rest, ls = l :: rest ∧ (spadOf l).1 = c := by
  obtain ⟨l, rest, rfl⟩ := List.exists_cons_of_ne_nil hne
  obtain ⟨o, ho⟩ := ht l (by simp)
  exact ⟨l, rest, rfl, by rw [spadOf, ho]⟩

theorem performSpad_load (hk : a.kind = .load) : performSpad s core slot id part a ls = some (finishPart
    (landLanes s core slot a (ls.map fun l => (l.lane, (s.core c).spad.nat (spadOf l).2 (sizeBytes a.size))))
    core slot id part) := by
  obtain ⟨l, rest, rfl, hc⟩ := spadOf_core hne ht
  simp only [performSpad, hc, hk, loadValues]

theorem performSpad_store (hk : a.kind = .store) : performSpad s core slot id part a ls = some (finishPart
    (s.mapCore c fun d => { d with spad := d.spad.putCells (storeCells a ls fun l => (spadOf l).2) }) core slot id part) := by
  obtain ⟨l, rest, rfl, hc⟩ := spadOf_core hne ht
  simp only [performSpad, hc, hk]

theorem performSpad_atom (hk : a.kind = .atom) :
    let r := atomicMany a.aop.toNat a.size (s.core c).spad (ls.map fun l => ((spadOf l).2, l.data))
    performSpad s core slot id part a ls = some (finishPart
      (landLanes (s.mapCore c fun d => { d with spad := r.1 }) core slot a ((ls.map fun l => l.lane).zip r.2))
      core slot id part) := by
  obtain ⟨l, rest, rfl, hc⟩ := spadOf_core hne ht
  simp only [performSpad, hc, hk]
end

/-! ## G -/

section
variable {s : State} {core : Nat} {span : L1Line → BitVec 128}

theorem flushBytes_dirty (h : ∃ y ∈ (s.core core).l1, y.dirty &&& span y ≠ 0#128) :
    flushBytes s core span = some (writeBackBytes s core span, false) := by
  obtain ⟨y, hy, hd⟩ := h
  exact if_pos (List.any_eq_true.2 ⟨y, hy, by simpa using hd⟩)

theorem flushBytes_inFlight (h : ∀ y ∈ (s.core core).l1, y.dirty &&& span y = 0#128)
    (hf : ∃ y ∈ (s.core core).l1, y.inFlight &&& span y ≠ 0#128) : flushBytes s core span = none := by
  obtain ⟨y, hy, hd⟩ := hf
  exact (if_neg (by simpa using h)).trans (if_pos (List.any_eq_true.2 ⟨y, hy, by simpa using hd⟩))

theorem flushBytes_free (h : ∀ y ∈ (s.core core).l1, y.dirty &&& span y = 0#128 ∧ y.inFlight &&& span y = 0#128) :
    flushBytes s core span = some (s, true) :=
  (if_neg (by simpa using fun y hy => (h y hy).1)).trans (if_neg (by simpa using fun y hy => (h y hy).2))
end

/-- Reads of home lines change no byte. -/
theorem touchLines_served (dirty : Bool) : ∀ (spans : List (Nat × BitVec 32)) (s : State),
    Served s (spans.foldl (fun s p => touchL2 s p.1 dirty) s)
  | [], s => .refl s
  | p :: ps, s => (touchL2_served s p.1 dirty).trans (touchLines_served dirty ps _)

section
variable {s t : State} {core slot id part : Nat} {g : Group} {a : Access} {lc : Launch} {l0 : LaneAcc} {rest : List LaneAcc}
  (hl : s.launch? g.launch = some lc)
include hl

theorem loadGlobal_waits (hf : a.fresh = true)
    (hb : flushBytes s core (ownSpan lc.asid (sizeBytes a.size) (l0 :: rest)) = none) :
    loadGlobal s core slot id part g a (l0 :: rest) = none := by
  simp only [loadGlobal, hl, hf, if_true, hb]

theorem loadGlobal_writesBack (hf : a.fresh = true)
    (hb : flushBytes s core (ownSpan lc.asid (sizeBytes a.size) (l0 :: rest)) = some (t, false)) :
    loadGlobal s core slot id part g a (l0 :: rest) = some t := by
  simp only [loadGlobal, hl, hf, if_true, hb]

/-- A .fresh load of bytes that no L1 line of the core holds dirty or under way reads the home. -/
theorem loadGlobal_home (hf : a.fresh = true)
    (hb : flushBytes s core (ownSpan lc.asid (sizeBytes a.size) (l0 :: rest)) = some (s, true)) :
    loadGlobal s core slot id part g a (l0 :: rest) =
      if ∃ l ∈ l0 :: rest, s.lanePoisoned (sizeBytes a.size) l = true then
        some (parkPart s core slot id part a.site ((l0 :: rest).filter (s.lanePoisoned (sizeBytes a.size))) .uncorrectable 2)
      else some (finishPart (landLanes ((homeSpans (sizeBytes a.size) (l0 :: rest)).foldl (fun s p => touchL2 s p.1 false) s)
        core slot a ((l0 :: rest).map fun l => (l.lane, s.dram.nat (dramOf l) (sizeBytes a.size)))) core slot id part) := by
  have hbad : (!((l0 :: rest).filter (s.lanePoisoned (sizeBytes a.size))).isEmpty) = true ↔
      ∃ l ∈ l0 :: rest, s.lanePoisoned (sizeBytes a.size) l = true := by
    rw [Bool.not_eq_true', ← Bool.not_eq_true, List.isEmpty_iff, List.filter_eq_nil_iff]
    simp only [not_forall, not_not, exists_prop]
  have hdram := (touchLines_served false (homeSpans (sizeBytes a.size) (l0 :: rest)) s).dram
  simp only [loadGlobal, hl, hf, if_true, hb, hbad, loadValues, hdram]

/-- A .stale load fills its line and reads it there. -/
theorem loadGlobal_stale (hf : a.fresh = false) : loadGlobal s core slot id part g a (l0 :: rest) =
    match fillL1 s core lc.asid l0.loc.toNat (dramOf l0) (spanMask (sizeBytes a.size) (l0 :: rest)) 0#32 (hintPrio a.hint)
      (a.hint == 1#2) with
    | .blocked => none
    | .held t => some t
    | .poisoned =>
      some (parkPart s core slot id part a.site ((l0 :: rest).filter (s.lanePoisoned (sizeBytes a.size))) .uncorrectable 2)
    | .ready t => match (t.core core).l1Find lc.asid l0.loc.toNat with
      | none => none
      | some y => some (finishPart (landLanes t core slot a
          ((l0 :: rest).map fun l => (l.lane, y.data.nat (l.loc.toNat % 128) (sizeBytes a.size)))) core slot id part) := by
  simp only [loadGlobal, hl, hf, Bool.false_eq_true, if_false, loadValues] <;> rfl

theorem storeGlobal_fresh (hf : a.fresh = true) :
    let t := s.mapGroup core slot fun g => g.setPart id part fun l => { l with progress := .sent }
    storeGlobal s core slot id part g a (l0 :: rest) = some (writeHomes
      (if homeDie (dramOf l0) = dieOf core then freshCopy t core lc.asid a (l0 :: rest)
       else sendOlder t core lc.asid l0 (storeCells a (l0 :: rest) fun l => l.loc.toNat % 128)) (dieOf core)
      (.part core slot id part)
      ((homeSpans (sizeBytes a.size) (l0 :: rest)).map fun p =>
        ((storeCells a (l0 :: rest) dramOf).filter fun c => lineOf c.1 == p.1, p.2))) := by
  simp only [storeGlobal, hl, hf, if_true]

theorem storeGlobal_stale (hf : a.fresh = false) :
    let cells := storeCells a (l0 :: rest) fun l => l.loc.toNat % 128
    storeGlobal s core slot id part g a (l0 :: rest) =
    match fillL1 s core lc.asid l0.loc.toNat (dramOf l0) (spanMask (sizeBytes a.size) (l0 :: rest)) (wholeWords cells)
      (hintPrio a.hint) false with
    | .blocked => none
    | .held t => some t
    | .poisoned =>
      some (parkPart s core slot id part a.site ((l0 :: rest).filter (s.lanePoisoned (sizeBytes a.size))) .uncorrectable 2)
    | .ready t => some (finishPart (t.mapCore core fun c => c.l1Store lc.asid l0.loc.toNat cells) core slot id part) := by
  simp only [storeGlobal, hl, hf, Bool.false_eq_true, if_false] <;> rfl
end

/-- What an atomic leaves at the home: the operations of its lanes in lines that are not poisoned. -/
theorem atomicAtHome_dram (s : State) (core slot id part : Nat) (a : Access) (ls : List LaneAcc) :
    (atomicAtHome s core slot id part a ls).dram = (atomicMany a.aop.toNat a.size s.dram
      ((ls.filter fun l => !s.lanePoisoned (sizeBytes a.size) l).map fun l => (dramOf l, l.data))).1 := by
  have hpark : (if (ls.filter (s.lanePoisoned (sizeBytes a.size))).isEmpty then s else
      parkPart s core slot id part a.site (ls.filter (s.lanePoisoned (sizeBytes a.size))) .uncorrectable 2).dram = s.dram := by
    split
    · rfl
    · exact (parkPart_onward s core slot id part a.site _ .uncorrectable 2).memories.1
  simp only [atomicAtHome]
  split
  next hnone =>
    rw [List.isEmpty_iff.1 hnone, hpark]
    rfl
  next =>
    rw [(afterSpans_served ..).dram]
    refine (touchLines_served true _ _).dram.trans ?_
    rw [hpark]

/-- A request of an atomic that has reached the front of its service group is performed there. -/
theorem serveAtomic_front {s : State} {core slot id part : Nat} {a : Access} {l0 : LaneAcc} {rest : List LaneAcc}
    (hq : l0.progress = .queued) (hf : atFront s (dramOf l0) (.part core slot id part) = true) :
    serveAtomic s core slot id part a (l0 :: rest) =
      some (atomicAtHome (dequeue s (dramOf l0) (.part core slot id part)) core slot id part a (l0 :: rest)) := by
  simp only [serveAtomic, hq, hf, if_true]

theorem OnlyDies.lanePoisoned {s t : State} (h : OnlyDies s t) : t.lanePoisoned = s.lanePoisoned := by
  rw [h]
  rfl

/-! ## P -/

/-- A window that cannot be reached, or whose registration is down or gone. -/
def windowGone (s : State) (d w : Nat) : Bool :=
  unreachable s d || (match registration? s d w with | some r => r.down | none => true)

section
variable {s : State} {core slot id part d w o : Nat} {f : Bool} {a : Access} {l0 : LaneAcc} {rest : List LaneAcc}
  (ht : l0.target = .peer d w o f)
include ht

theorem performPeer_gone (hgone : windowGone s d w = true) : performPeer s core slot id part a (l0 :: rest) =
    let t := parkPart s core slot id part a.site (l0 :: rest) .uncorrectable 3
    some (match a.kind with
      | .store => closePut t core slot id d w
        { a with lanes := a.lanes.map fun q => if q.part = part then { q with progress := .parked } else q }
      | _ => t) := by
  have hpeer : peerOf l0 = (d, w, o) := by rw [peerOf, ht]
  simp only [performPeer, hpeer]
  exact if_pos hgone

theorem performPeer_reached (hgone : windowGone s d w = false) : performPeer s core slot id part a (l0 :: rest) =
    match a.kind with
    | .load => some (peerLoad s core slot id part a l0 (l0 :: rest))
    | .store => peerPut s core slot id part a l0 (l0 :: rest)
    | _ => some (peerAtom s core slot id part a l0 (l0 :: rest)) := by
  have hpeer : peerOf l0 = (d, w, o) := by rw [peerOf, ht]
  have hno : ¬windowGone s d w = true := by rw [hgone]; exact Bool.false_ne_true
  simp only [performPeer, hpeer]
  exact if_neg hno

theorem peerLoad_eq : peerLoad s core slot id part a l0 (l0 :: rest) =
    if a.fresh || f then finishPart
      (landLanes s core slot a ((l0 :: rest).map fun l => (l.lane, (peerData s d w).nat (peerOf l).2.2 (sizeBytes a.size))))
      core slot id part
    else
      let r := viaRdc s (dieOf core) (.peer d w (o / 128)) (spanMask (sizeBytes a.size) (l0 :: rest))
        ((peerData s d w).bytes (o / 128 * 128) 128)
      finishPart (landLanes r.1 core slot a
        ((l0 :: rest).map fun l => (l.lane, r.2.nat ((peerOf l).2.2 % 128) (sizeBytes a.size)))) core slot id part := by
  have hpeer : peerOf l0 = (d, w, o) := by rw [peerOf, ht]
  have hfell : fellBack l0 = f := by rw [fellBack, ht]
  simp only [peerLoad, hpeer, hfell, loadValues]

theorem peerAtom_eq :
    let r := atomicMany a.aop.toNat a.size (peerData s d w) ((l0 :: rest).map fun l => ((peerOf l).2.2, l.data))
    peerAtom s core slot id part a l0 (l0 :: rest) = finishPart
      (landLanes (setPeerData s d w r.1) core slot a (((l0 :: rest).map fun l => l.lane).zip r.2)) core slot id part := by
  have hpeer : peerOf l0 = (d, w, o) := by rw [peerOf, ht]
  simp only [peerAtom, hpeer]

/-- The message of a PUT that sets out. -/
def putMsg (s : State) (core slot id part d w : Nat) (a : Access) (ls : List LaneAcc) : PutMsg :=
  let same := a.lanes.filter fun q => (peerOf q).1 == d && (peerOf q).2.1 == w && q.progress != .parked
  let last := !(same.any fun q => decide (part < q.part))
  { id := 0, link := streamLink s core d w, out := true, device := d, window := w
    cells := storeCells a ls fun l => (peerOf l).2.2, n := if last then same.length else 0, core := core
    ref := .part core slot id part, landed := false, final := last, acks := 0
    late := ls.map fun l => lateOf a.site l .uncorrectable 3 }

theorem peerPut_sends (hls : lsendBefore (s.core core) slot id d w = false)
    (hearlier : ∀ q ∈ a.lanes, q.part < part → q.open_ = true → (peerOf q).1 ≠ d ∨ (peerOf q).2.1 ≠ w)
    (hm : streamMoves s core d w (streamLink s core d w) = false) :
    peerPut s core slot id part a l0 (l0 :: rest) =
      some (finishPart (sendPut s (putMsg s core slot id part d w a (l0 :: rest))) core slot id part) := by
  have hpeer : peerOf l0 = (d, w, o) := by rw [peerOf, ht]
  have hnone : (a.lanes.any fun q => decide (q.part < part) && q.open_ && (peerOf q).1 == d && (peerOf q).2.1 == w) = false := by
    refine List.any_eq_false.2 fun q hq h => ?_
    simp only [Bool.and_eq_true, decide_eq_true_eq, beq_iff_eq] at h
    obtain ⟨⟨⟨hlt, hopen⟩, hd⟩, hw⟩ := h
    exact (hearlier q hq hlt hopen).elim (absurd hd) (absurd hw)
  simp only [peerPut, hpeer, hnone, hls, hm, Bool.or_self, Bool.false_eq_true, if_false, putMsg]
end

/-! ## H -/

section
variable {s : State} {core slot id part : Nat} {a : Access} {l0 : LaneAcc} {rest : List LaneAcc}

theorem performHost_down (hd : hostDown s = true) (ls : List LaneAcc) :
    performHost s core slot id part a ls = parkPart s core slot id part a.site ls .uncorrectable 3 := if_pos hd

theorem performHost_load (hd : hostDown s = false) (hk : a.kind = .load) : performHost s core slot id part a (l0 :: rest) =
    finishPart (landLanes (touchHost s (hostOf l0)) core slot a
      ((l0 :: rest).map fun l => (l.lane, s.hostMem.nat (hostOf l) (sizeBytes a.size)))) core slot id part := by
  simp only [performHost, hd, hk, Bool.false_eq_true, if_false, loadValues, touchHost]

theorem performHost_store (hd : hostDown s = false) (hk : a.kind = .store) : performHost s core slot id part a (l0 :: rest) =
    finishPart { touchHost s (hostOf l0) with hostMem := s.hostMem.putCells (storeCells a (l0 :: rest) hostOf) }
      core slot id part := by
  simp only [performHost, hd, hk, Bool.false_eq_true, if_false, touchHost]
end

/-- Settles O16: in each space the part is the one that the event names, and nothing holds it up. -/
theorem accessPartPerforms : Obligations.AccessPartPerforms := by
  unfold Obligations.AccessPartPerforms
  intro s g a hg hp core slot id part n mine ls free lost badPark
  have hfree : free → (∀ l ∈ ls, ∀ r p b, l.target ≠ .walk r p b) →
      performPart s core slot id part = performFree s core slot id part g a ls := fun hf hw =>
    (performPart_waiting hg hp hf.1 hw).trans (if_pos hf.2)
  refine ⟨fun c hf hsp ht => ?spad, fun l0 rest hf hsp hls ht => ?host, fun l0 rest lc hf hsp hls hl ht => ?global,
    fun l0 rest hsp hk hmine hq hfront => ?atomic, fun l0 rest d w o f hf hsp hls ht0 ht => ?peer⟩
  case spad =>
    have hpart := hfree hf fun l hl r p b e => by obtain ⟨o, ho⟩ := ht l hl; rw [ho] at e; cases e
    have hbody : performFree s core slot id part g a ls = performSpad s core slot id part a ls := by
      rcases hsp with hsp | hsp <;> simp only [performFree, hsp]
    rw [hbody] at hpart
    refine ⟨fun hk => ?_, fun hk => ?_, fun hk => ?_⟩
    · rw [exec_loadLand_access hg hp hk, hpart, performSpad_load hf.1 ht hk]
      rfl
    · rw [exec_storeDrain_access hg hp hk, hpart, performSpad_store hf.1 ht hk]
      rfl
    · intro r
      rw [exec_atomicPerform_access hg hp (.inl hk), hpart, performSpad_atom hf.1 ht hk]
      rfl
  case host =>
    have hpart := hfree hf fun l hl r p b e => by obtain ⟨o, ho⟩ := ht l hl; rw [ho] at e; cases e
    have hbody : performFree s core slot id part g a ls = some (performHost s core slot id part a ls) := by
      simp only [performFree, hsp]
    rw [hbody] at hpart
    refine ⟨fun hk => ?_, fun hk => ?_⟩
    · rw [exec_loadLand_access hg hp hk, hpart]
      cases hd : hostDown s
      · rw [hls, performHost_load hd hk]
        rfl
      · rw [performHost_down hd]
        rfl
    · rw [exec_storeDrain_access hg hp hk, hpart]
      cases hd : hostDown s
      · rw [hls, performHost_store hd hk]
        rfl
      · rw [performHost_down hd]
        rfl
  case global =>
    have hpart := hfree hf fun l hl r p b e => by obtain ⟨o, ho⟩ := ht l hl; rw [ho] at e; cases e
    rw [hls] at hpart
    have hbadPark : badPark = .next (parkPart s core slot id part a.site ((l0 :: rest).filter (s.lanePoisoned n))
        .uncorrectable 2) := by rw [← hls]
    refine ⟨fun hk hfr => ?_, fun hk hfr => ?_, fun hk hfr => ?_, fun hk hfr => ?_⟩
    · intro own
      have hown : own = ownSpan lc.asid (sizeBytes a.size) (l0 :: rest) := by rw [← hls]
      have hexec := exec_loadLand_access hg hp hk
      rw [hpart, performFree_load hsp hk] at hexec
      rw [hown, hls]
      refine ⟨fun hd => ?_, fun hd hi => ?_, fun hclean => ?_⟩
      · rw [hexec, loadGlobal_writesBack hl hfr (flushBytes_dirty hd), Option.getD_some]
      · rw [hexec, loadGlobal_waits hl hfr (flushBytes_inFlight hd hi), Option.getD_none]
      · rw [hexec, loadGlobal_home hl hfr (flushBytes_free hclean)]
        by_cases hbad : ∃ l ∈ l0 :: rest, s.lanePoisoned (sizeBytes a.size) l = true
        · rw [if_pos hbad, if_pos hbad, hbadPark]
          rfl
        · rw [if_neg hbad, if_neg hbad]
          rfl
    · have hexec := exec_loadLand_access hg hp hk
      rw [hpart, performFree_load hsp hk, loadGlobal_stale hl hfr] at hexec
      rw [hexec, hls, hbadPark]
      cases fillL1 s core lc.asid l0.loc.toNat (dramOf l0) (spanMask (sizeBytes a.size) (l0 :: rest)) 0#32 (hintPrio a.hint)
        (a.hint == 1#2) with
      | ready t => cases hfind : (t.core core).l1Find lc.asid l0.loc.toNat <;> simp only [hfind] <;> rfl
      | held t => rfl
      | blocked => rfl
      | poisoned => rfl
    · intro t
      rw [exec_storeDrain_access hg hp hk, hpart, performFree_store hsp hk, storeGlobal_fresh hl hfr, hls]
      rfl
    · intro cells
      have hcells : cells = storeCells a (l0 :: rest) fun l => l.loc.toNat % 128 := by rw [← hls]
      have hexec := exec_storeDrain_access hg hp hk
      rw [hpart, performFree_store hsp hk, storeGlobal_stale hl hfr] at hexec
      rw [hexec, hls, hbadPark, hcells]
      cases fillL1 s core lc.asid l0.loc.toNat (dramOf l0) (spanMask (sizeBytes a.size) (l0 :: rest))
        (wholeWords (storeCells a (l0 :: rest) fun l => l.loc.toNat % 128)) (hintPrio a.hint) false <;> rfl
  case atomic =>
    intro t
    have hat : a.isHomeAtom = true := by rcases hk with hk | hk <;> rw [Access.isHomeAtom, hsp, hk]
    refine ⟨?_, ?_⟩
    · rw [exec_atomicPerform_access hg hp hk, performPart_queued hg hp hat hq]
      change Host.Outcome.next ((serveAtomic s core slot id part a mine).getD s) = _
      rw [hmine, serveAtomic_front (hq l0 (by rw [hmine]; exact List.mem_cons_self)) hfront]
      rfl
    · have ht := dequeue_onlyDies s (dramOf l0) (.part core slot id part)
      have hdram : t.dram = s.dram := by
        change (dequeue s _ _).dram = _
        rw [ht]
      rw [atomicAtHome_dram, hdram, ht.lanePoisoned]
  case peer =>
    intro gone data
    have hpart := hfree hf fun l hl r p b e => by obtain ⟨_, _, h⟩ := ht l hl; rw [h] at e; cases e
    have hbody : performFree s core slot id part g a ls = performPeer s core slot id part a ls := by
      simp only [performFree, hsp]
    rw [hbody, hls] at hpart
    have hlost : lost 3 = .next (parkPart s core slot id part a.site (l0 :: rest) .uncorrectable 3) := by rw [← hls]
    refine ⟨fun hk => ?_, fun hk => ?_, fun hk hgone => ?_, fun hk hgone hls' hearlier hmoves => ?_⟩
    · rw [exec_loadLand_access hg hp hk, hpart, hls]
      by_cases hgone : gone = true
      · rw [performPeer_gone ht0 hgone, hk, if_pos hgone, hlost]
        rfl
      · rw [performPeer_reached ht0 (Bool.eq_false_of_not_eq_true hgone), hk, if_neg hgone]
        change Host.Outcome.next (peerLoad s core slot id part a l0 (l0 :: rest)) = _
        rw [peerLoad_eq ht0]
        split <;> rfl
    · rw [exec_atomicPerform_access hg hp (.inl hk), hpart, hls]
      by_cases hgone : gone = true
      · rw [performPeer_gone ht0 hgone, hk, if_pos hgone, hlost]
        rfl
      · rw [performPeer_reached ht0 (Bool.eq_false_of_not_eq_true hgone), hk, if_neg hgone]
        exact congrArg Host.Outcome.next (peerAtom_eq ht0)
    · rw [exec_storeDrain_access hg hp hk, hpart, performPeer_gone ht0 hgone, hk, hls]
      rfl
    · refine ⟨putMsg s core slot id part d w a (l0 :: rest), rfl, rfl, rfl, rfl, rfl, ?_, rfl, rfl, ⟨rfl, rfl⟩, ?_⟩
      · rw [hls]
        rfl
      · rw [exec_storeDrain_access hg hp hk, hpart, performPeer_reached ht0 hgone, hk]
        exact congrArg (fun r => Host.Outcome.next (Option.getD r s)) (peerPut_sends ht0 hls' hearlier hmoves)

end Sys2Proof.Machine
end

section
/-! PROOF. What STORE_DRAIN leaves as it was: every byte that no lane stores, and every other memory (05 R182 to R193). -/

namespace Sys2Proof.Machine

/-! ## The bytes of a store -/

theorem length_storeBytes (a : Access) (l : LaneAcc) : (storeBytes a l).length = sizeBytes a.size := by
  have hlen : ∀ n x, (bytesOfNat n x).length = n := by
    intro n
    induction n with
    | zero => exact fun _ => rfl
    | succ n ih => exact fun x => congrArg (· + 1) (ih _)
  exact hlen _ _

/-- A byte that a store writes lies in the location of one of its lanes. -/
theorem mem_storeCells {a : Access} {ls : List LaneAcc} {at_ : LaneAcc → Nat} {c : Nat × Byte} (h : c ∈ storeCells a ls at_) :
    ∃ l ∈ ls, at_ l ≤ c.1 ∧ c.1 < at_ l + sizeBytes a.size := by
  have hfold : ∀ (xs cs : List (Nat × Byte)),
      c ∈ xs.foldl (fun cs c => (cs.filter fun d => d.1 ≠ c.1) ++ [c]) cs → c ∈ cs ∨ c ∈ xs := by
    intro xs
    induction xs with
    | nil => exact fun cs h => .inl h
    | cons x xs ih =>
      intro cs h
      rcases ih _ h with h | h
      · rcases List.mem_append.1 h with h | h
        · exact .inl (List.mem_filter.1 h).1
        · exact .inr (List.mem_cons.2 (.inl (List.mem_singleton.1 h)))
      · exact .inr (List.mem_cons_of_mem _ h)
  have hlanes := (hfold _ _ h).resolve_left List.not_mem_nil
  obtain ⟨l, hl, hc⟩ := List.mem_flatMap.1 hlanes
  obtain ⟨i, hi, rfl⟩ := mem_cellsAt.1 hc
  rw [length_storeBytes] at hi
  exact ⟨l, hl, Nat.le_add_right _ _, Nat.add_lt_add_left hi _⟩

theorem get_putCells_storeCells {m : Memory} (hm : m.wf = true) {a : Access} {ls : List LaneAcc} {at_ : LaneAcc → Nat} {b : Nat}
    (hb : ∀ l ∈ ls, b < at_ l ∨ at_ l + sizeBytes a.size ≤ b) : (m.putCells (storeCells a ls at_)).get b = m.get b := by
  refine Memory.get_putCells_other _ hm fun c hc he => ?_
  obtain ⟨l, hl, hlo, hhi⟩ := mem_storeCells hc
  have := hb l hl
  omega

/-! ## What a part leaves -/

theorem finishPart_onward (s : State) (core slot id part : Nat) : Onward s (finishPart s core slot id part) := by
  refine .mapGroup s core slot fun g hg => ?_
  rw [(g.setPart_frame id part _).1]
  exact hg

/-- No memory of the module differs, nor of a core's scratchpad. -/
structure KeepsMemories (s t : State) : Prop where
  spad : ∀ k, (t.core k).spad = (s.core k).spad
  dram : t.dram = s.dram
  hostMem : t.hostMem = s.hostMem
  peers : t.peers = s.peers

theorem KeepsMemories.refl (s : State) : KeepsMemories s s := ⟨fun _ => rfl, rfl, rfl, rfl⟩

theorem KeepsMemories.trans {s t u : State} (h : KeepsMemories s t) (k : KeepsMemories t u) : KeepsMemories s u :=
  ⟨fun n => (k.spad n).trans (h.spad n), k.dram.trans h.dram, k.hostMem.trans h.hostMem, k.peers.trans h.peers⟩

theorem Onward.keepsMemories {s t : State} (h : Onward s t) : KeepsMemories s t := by
  obtain ⟨hdram, hhost, hpeers, -, -, hcores⟩ := h.memories
  exact ⟨fun k => (hcores k).1, hdram, hhost, hpeers⟩

theorem KeepsMemories.mapCore (s : State) (n : Nat) {f : Core → Core} (hf : ∀ c, (f c).spad = c.spad) :
    KeepsMemories s (s.mapCore n f) := by
  refine ⟨fun k => ?_, rfl, rfl, rfl⟩
  by_cases hk : k = n
  · rw [hk, State.core_mapCore_same, hf]
  · rw [State.core_mapCore_other _ _ _ _ hk]

theorem finishPart_keepsMemories (s : State) (core slot id part : Nat) : KeepsMemories s (finishPart s core slot id part) :=
  (finishPart_onward s core slot id part).keepsMemories

theorem freshCopy_keepsMemories (s : State) (core asid : Nat) (a : Access) (ls : List LaneAcc) :
    KeepsMemories s (freshCopy s core asid a ls) := by
  unfold freshCopy
  split
  · exact .refl s
  · refine .mapCore s core fun c => ?_
    split
    · rfl
    · unfold Core.l1Refresh
      split <;> rfl

/-- Writes toward home lines put cells of theirs into device memory, those of the own die. -/
theorem writeHomes_putCells (d : Nat) (ref : AckRef) : ∀ (ps : List (List Host.Cell × BitVec 32)) (s : State),
    ∃ cs : List Host.Cell, (∀ c ∈ cs, ∃ p ∈ ps, c ∈ p.1) ∧ (writeHomes s d ref ps).dram = s.dram.putCells cs := by
  have hone : ∀ (p : List Host.Cell × BitVec 32) (ref : AckRef) (s : State),
      ∃ cs : List Host.Cell, (∀ c ∈ cs, c ∈ p.1) ∧ (writeHome s d p.1 p.2 ref).dram = s.dram.putCells cs := by
    intro p ref s
    unfold writeHome
    split
    next => exact ⟨[], nofun, rfl⟩
    next c cs he =>
      split
      · rw [(afterHome_served ..).dram, performHome_dram]
        exact ⟨p.1, fun _ h => h, rfl⟩
      · exact ⟨[], nofun, (sendMsg_served ..).dram⟩
  intro ps
  induction ps with
  | nil => exact fun s => ⟨[], nofun, rfl⟩
  | cons p ps ih =>
    intro s
    cases ps with
    | nil =>
      obtain ⟨cs, hcs, hd⟩ := hone p ref s
      exact ⟨cs, fun c hc => ⟨p, List.mem_cons_self, hcs c hc⟩, hd⟩
    | cons q ps =>
      obtain ⟨cs, hcs, hd⟩ := hone p .none s
      obtain ⟨cs', hcs', hd'⟩ := ih (writeHome s d p.1 p.2 .none)
      refine ⟨cs ++ cs', fun c hc => ?_, ?_⟩
      · rcases List.mem_append.1 hc with hc | hc
        · exact ⟨p, List.mem_cons_self, hcs c hc⟩
        · obtain ⟨r, hr, hin⟩ := hcs' c hc
          exact ⟨r, List.mem_cons_of_mem _ hr, hin⟩
      · rw [Memory.putCells, List.foldl_append]
        rw [hd] at hd'
        exact hd'

theorem sendDone_keepsMemories (s : State) (core d w n : Nat) : KeepsMemories s (sendDone s core d w n) := by
  unfold sendDone
  split
  · exact .mapCore s core fun c => by rw [Core.addCounter_frame]
  · exact .refl s

theorem closePut_keepsMemories (s : State) (core slot id d w : Nat) (a : Access) :
    KeepsMemories s (closePut s core slot id d w a) := by
  simp only [closePut]
  split
  · exact .refl s
  · split
    · exact ⟨fun _ => rfl, rfl, rfl, rfl⟩
    · exact sendDone_keepsMemories _ _ _ _ _

theorem sendPut_keepsMemories (s : State) (p : PutMsg) : KeepsMemories s (sendPut s p) := ⟨fun _ => rfl, rfl, rfl, rfl⟩

/-! ## Space by space -/

/-- A PUT changes no memory before it lands (R193). -/
theorem performPeer_store_keepsMemories {s t : State} {core slot id part d w o : Nat} {f : Bool} {a : Access} {l0 : LaneAcc}
    {rest : List LaneAcc} (ht : l0.target = .peer d w o f) (hk : a.kind = .store)
    (h : performPeer s core slot id part a (l0 :: rest) = some t) : KeepsMemories s t := by
  by_cases hgone : windowGone s d w = true
  · rw [performPeer_gone ht hgone, hk] at h
    cases h
    exact (parkPart_onward ..).keepsMemories.trans (closePut_keepsMemories ..)
  · rw [performPeer_reached ht (Bool.eq_false_of_not_eq_true hgone), hk] at h
    simp only [peerPut] at h
    split at h
    · cases h
    · cases h
      exact (sendPut_keepsMemories s _).trans (finishPart_keepsMemories ..)

theorem performHost_store_frame {s : State} {core slot id part : Nat} {a : Access} {ls : List LaneAcc} (hne : ls ≠ [])
    (hk : a.kind = .store) (hwf : s.hostMem.wf = true) :
    let t := performHost s core slot id part a ls
    (∀ b, (∀ l ∈ ls, b < hostOf l ∨ hostOf l + sizeBytes a.size ≤ b) → t.hostMem.get b = s.hostMem.get b) ∧
    (∀ k, (t.core k).spad = (s.core k).spad) ∧ t.dram = s.dram ∧ t.peers = s.peers ∧ t.hostMem.wf = true := by
  intro t
  cases hd : hostDown s
  · obtain ⟨l0, rest, rfl⟩ := List.exists_cons_of_ne_nil hne
    have hkeep := finishPart_keepsMemories
      { touchHost s (hostOf l0) with hostMem := s.hostMem.putCells (storeCells a (l0 :: rest) hostOf) } core slot id part
    rw [← performHost_store hd hk] at hkeep
    refine ⟨fun b hb => ?_, hkeep.spad, hkeep.dram, hkeep.peers, ?_⟩
    · rw [hkeep.hostMem]
      exact get_putCells_storeCells hwf hb
    · rw [hkeep.hostMem]
      exact Memory.wf_putCells hwf _
  · have hkeep := (parkPart_onward s core slot id part a.site ls .uncorrectable 3).keepsMemories
    rw [← performHost_down hd] at hkeep
    exact ⟨fun b _ => by rw [hkeep.hostMem], hkeep.spad, hkeep.dram, hkeep.peers, by rw [hkeep.hostMem, hwf]⟩

/-- The state in which the bytes of a .fresh store to the own die have set out: the copy in L1 has them (R188). -/
def freshSent (s : State) (core slot id part asid : Nat) (a : Access) (ls : List LaneAcc) : State :=
  freshCopy (s.mapGroup core slot fun g => g.setPart id part fun l => { l with progress := .sent }) core asid a ls

theorem freshSent_keepsMemories (s : State) (core slot id part asid : Nat) (a : Access) (ls : List LaneAcc) :
    KeepsMemories s (freshSent s core slot id part asid a ls) :=
  .trans (Onward.keepsMemories (.mapGroup s core slot fun g hg => by rw [(g.setPart_frame id part _).1]; exact hg))
    (freshCopy_keepsMemories _ core asid a ls)

/-- A .fresh store's cells, home line by home line. -/
def homeCells (a : Access) (ls : List LaneAcc) : List (List Host.Cell × BitVec 32) :=
  (homeSpans (sizeBytes a.size) ls).map fun p => ((storeCells a ls dramOf).filter fun c => lineOf c.1 == p.1, p.2)

/-- A .fresh store whose first lane lies on the core's die. -/
theorem storeGlobal_fresh_frame {s : State} {core slot id part : Nat} {g : Group} {a : Access} {lc : Launch} {l0 : LaneAcc}
    {rest : List LaneAcc} (hl : s.launch? g.launch = some lc) (hf : a.fresh = true) (hwf : s.dram.wf = true)
    (hn : homeDie (dramOf l0) = dieOf core) :
    ∃ t, storeGlobal s core slot id part g a (l0 :: rest) = some t ∧
      (∀ b, (∀ l ∈ l0 :: rest, b < dramOf l ∨ dramOf l + sizeBytes a.size ≤ b) → t.dram.get b = s.dram.get b) ∧
      (∀ k, (t.core k).spad = (s.core k).spad) ∧ t.hostMem = s.hostMem ∧ t.peers = s.peers ∧ t.dram.wf = true := by
  let u := freshSent s core slot id part lc.asid a (l0 :: rest)
  have hkeep : KeepsMemories s u := freshSent_keepsMemories ..
  have hstore : storeGlobal s core slot id part g a (l0 :: rest) =
      some (writeHomes u (dieOf core) (.part core slot id part) (homeCells a (l0 :: rest))) := by
    rw [storeGlobal_fresh hl hf, if_pos hn]
    rfl
  obtain ⟨cs, hcs, hdram⟩ := writeHomes_putCells (dieOf core) (.part core slot id part) (homeCells a (l0 :: rest)) u
  have hhomes := writeHomes_onlyHomes (dieOf core) (.part core slot id part) (homeCells a (l0 :: rest)) u
  rw [hkeep.dram] at hdram
  refine ⟨_, hstore, fun b hb => ?_, fun k => ?_, ?_, ?_, ?_⟩
  · rw [hdram]
    refine Memory.get_putCells_other _ hwf fun c hc he => ?_
    obtain ⟨p, hp, hc⟩ := hcs c hc
    obtain ⟨span, -, rfl⟩ := List.mem_map.1 hp
    obtain ⟨l, hl, hlo, hhi⟩ := mem_storeCells (List.mem_filter.1 hc).1
    have := hb l hl
    omega
  · rw [hhomes.core, hkeep.spad]
  · rw [hhomes.hostMem, hkeep.hostMem]
  · rw [hhomes]
    exact hkeep.peers
  · rw [hdram]
    exact Memory.wf_putCells hwf _

/-- Settles O18: the bytes that the part writes are those of its lanes, space by space. -/
theorem drainFrame : Obligations.DrainFrame := by
  unfold Obligations.DrainFrame
  intro s t g a hg hp hk n ls hne hexec
  have ht : t = (performPart s s.sel.core s.sel.slot s.sel.id s.sel.part).getD s := by
    rw [exec_storeDrain_access hg hp hk] at hexec
    cases hexec
    rfl
  have hcases : (∀ l ∈ ls, ∀ r p b, l.target ≠ .walk r p b) →
      t = s ∨ t = (performFree s s.sel.core s.sel.slot s.sel.id s.sel.part g a ls).getD s := by
    intro hw
    rw [performPart_waiting hg hp hne hw] at ht
    split at ht
    · exact .inr ht
    · exact .inl ht
  refine ⟨fun c hsp hl hwf => ?spad, fun hsp hl hwf => ?host, fun hsp hfr hl hwf => ?global, fun hsp hl => ?peer⟩
  case spad =>
    rcases hcases (fun l h r p b e => by obtain ⟨o, ho⟩ := hl l h; rw [ho] at e; cases e) with rfl | rfl
    · exact ⟨fun _ _ => rfl, fun _ _ => rfl, rfl, rfl, rfl, hwf⟩
    · have hbody : performFree s s.sel.core s.sel.slot s.sel.id s.sel.part g a ls =
          performSpad s s.sel.core s.sel.slot s.sel.id s.sel.part a ls := by
        rcases hsp with hsp | hsp <;> simp only [performFree, hsp]
      rw [hbody, performSpad_store hne hl hk, Option.getD_some]
      have hkeep := finishPart_keepsMemories
        (s.mapCore c fun d => { d with spad := d.spad.putCells (storeCells a ls fun l => (spadOf l).2) })
        s.sel.core s.sel.slot s.sel.id s.sel.part
      refine ⟨fun b hb => ?_, fun k hne => ?_, hkeep.dram, hkeep.hostMem, hkeep.peers, ?_⟩
      · rw [hkeep.spad, State.core_mapCore_same]
        exact get_putCells_storeCells hwf hb
      · rw [hkeep.spad, State.core_mapCore_other _ _ _ _ hne]
      · rw [hkeep.spad, State.core_mapCore_same]
        exact Memory.wf_putCells hwf _
  case host =>
    rcases hcases (fun l h r p b e => by obtain ⟨o, ho⟩ := hl l h; rw [ho] at e; cases e) with rfl | rfl
    · exact ⟨fun _ _ => rfl, fun _ => rfl, rfl, rfl, hwf⟩
    · simp only [performFree, hsp, Option.getD_some]
      exact performHost_store_frame hne hk hwf
  case global =>
    rcases hcases (fun l h r p b e => by obtain ⟨o, ho, -⟩ := hl l h; rw [ho] at e; cases e) with rfl | rfl
    · exact ⟨fun _ _ => rfl, fun _ => rfl, rfl, rfl, hwf⟩
    · rw [performFree_store hsp hk]
      obtain ⟨l0, rest, hls⟩ := List.exists_cons_of_ne_nil hne
      rw [hls] at hl ⊢
      obtain ⟨p, hp0, hhome⟩ := hl l0 List.mem_cons_self
      cases hlc : s.launch? g.launch with
      | none =>
        have hnone : storeGlobal s s.sel.core s.sel.slot s.sel.id s.sel.part g a (l0 :: rest) = none := by
          simp only [storeGlobal, hlc]
        rw [hnone]
        exact ⟨fun _ _ => rfl, fun _ => rfl, rfl, rfl, hwf⟩
      | some lc =>
        obtain ⟨t, ht, hframe⟩ := storeGlobal_fresh_frame (core := s.sel.core) (slot := s.sel.slot) (id := s.sel.id)
          (part := s.sel.part) (l0 := l0) (rest := rest) hlc hfr hwf (by rw [dramOf, hp0]; exact hhome)
        rw [ht]
        exact hframe
  case peer =>
    rcases hcases (fun l h r p b e => by obtain ⟨_, _, _, _, ho⟩ := hl l h; rw [ho] at e; cases e) with rfl | rfl
    · exact ⟨fun _ => rfl, rfl, rfl, rfl⟩
    · have hbody : performFree s s.sel.core s.sel.slot s.sel.id s.sel.part g a ls =
          performPeer s s.sel.core s.sel.slot s.sel.id s.sel.part a ls := by simp only [performFree, hsp]
      obtain ⟨l0, rest, hls⟩ := List.exists_cons_of_ne_nil hne
      obtain ⟨d, w, o, f, ht0⟩ := hl l0 (by rw [hls]; exact List.mem_cons_self)
      rw [hbody, hls]
      cases hput : performPeer s s.sel.core s.sel.slot s.sel.id s.sel.part a (l0 :: rest) with
      | none => exact ⟨fun _ => rfl, rfl, rfl, rfl⟩
      | some u =>
        have hkeep := performPeer_store_keepsMemories ht0 hk hput
        exact ⟨hkeep.spad, hkeep.dram, hkeep.hostMem, hkeep.peers⟩

end Sys2Proof.Machine
end

section
/-! PROOF. PREF: where its address lies, the L2 that it reaches under .fresh, and the L1 line that it fills otherwise
(05 R187, R190, 08 R303, 10 R351). -/

namespace Sys2Proof.Machine

/-! ## The address of a prefetch -/

section
variable {t : State} {x : Issuer} {a n : Nat} {r : Region}

theorem prefetchLine_outside (h : regionOf x.l a = none) : prefetchLine t x a = none := by
  rw [prefetchLine, globalLaneForm_outside (Nat.mod_one a) h]

variable (hr : regionOf x.l a = some (n, r))
include hr

theorem prefetchLine_unreadable (h : r.kind = 2 ∨ r.rights % 2 = 0) : prefetchLine t x a = none := by
  rw [prefetchLine, globalLaneForm_covered (Nat.mod_one a) hr, if_neg (by simp)]
  by_cases hk : r.kind = 2
  · rw [if_pos ⟨rfl, hk⟩]
  · rw [if_neg (by simp [hk]), if_pos ⟨by decide, by omega⟩]

theorem prefetchLine_resident (hk : r.kind = 0) (hrd : r.rights % 2 = 1) :
    prefetchLine t x a = some (t, r.target + (a - r.vbase) - a % 128) := by
  rw [prefetchLine, globalLaneForm_covered (Nat.mod_one a) hr, if_neg (by simp), if_neg (by simp [hk]),
    if_neg (by simp [hrd]), if_neg (by simp), if_neg (by omega), if_pos hk]

theorem prefetchLine_demand (hk : r.kind = 1) (hrd : r.rights % 2 = 1) :
    prefetchLine t x a = ((t.die (dieOf x.core)).tlbFind x.l.asid n ((a - r.vbase) / 2 ^ r.pageBits)).map fun e =>
      (t.mapDie (dieOf x.core) fun y => y.tlbTouch x.l.asid n ((a - r.vbase) / 2 ^ r.pageBits),
        lineOf (e.dpa + (a - r.vbase) % 2 ^ r.pageBits)) := by
  obtain ⟨hreg, -⟩ := regionOf_some hr
  rw [prefetchLine, globalLaneForm_covered (Nat.mod_one a) hr, if_neg (by simp), if_neg (by simp [hk]),
    if_neg (by simp [hrd]), if_neg (by simp), if_neg (by omega), if_neg (by omega)]
  simp only [hreg]
  cases (t.die (dieOf x.core)).tlbFind x.l.asid n ((a - r.vbase) / 2 ^ r.pageBits) <;> rfl
end

section
variable {t u v : State} {x : Issuer} {hint : BitVec 2} {a d : Nat}

theorem prefetchOne_none (h : prefetchLine t x a = none) (fresh : Bool) : prefetchOne t x fresh hint a = t := by
  simp only [prefetchOne, h]

variable (h : prefetchLine t x a = some (u, d))
include h

theorem prefetchOne_fresh : prefetchOne t x true hint a = touchSpan u d 128 false := by
  simp only [prefetchOne, h, if_true]

theorem prefetchOne_ready
    (hf : fillL1 u x.core x.l.asid (lineOf a) d (BitVec.allOnes 32) 0#32 (hintPrio hint) (hint == 1#2) = .ready v) :
    prefetchOne t x false hint a = v := by
  simp only [prefetchOne, h, hf, Bool.false_eq_true, if_false]

theorem prefetchOne_held
    (hf : fillL1 u x.core x.l.asid (lineOf a) d (BitVec.allOnes 32) 0#32 (hintPrio hint) (hint == 1#2) = .held v) :
    prefetchOne t x false hint a = (v.mapGroup x.core x.slot fun g =>
      g.addPend (v.core x.core).nextId (.pref (lineOf a) d hint)).mapCore x.core Core.tick := by
  simp only [prefetchOne, h, hf, Bool.false_eq_true, if_false]

theorem prefetchOne_poisoned
    (hf : fillL1 u x.core x.l.asid (lineOf a) d (BitVec.allOnes 32) 0#32 (hintPrio hint) (hint == 1#2) = .poisoned) :
    prefetchOne t x false hint a = u := by
  simp only [prefetchOne, h, hf, Bool.false_eq_true, if_false]
end

/-! ## The L2 of a home -/

/-- Nothing differs but the L2s. -/
def OnlyL2 (s t : State) : Prop :=
  t = { s with die0 := { s.die0 with l2 := t.die0.l2 }, die1 := { s.die1 with l2 := t.die1.l2 } }

theorem OnlyL2.trans {s t u : State} (h : OnlyL2 s t) (k : OnlyL2 t u) : OnlyL2 s u := by
  unfold OnlyL2 at *
  rw [k, h]

theorem touchL2_onlyL2 (s : State) (p : Nat) (dirty : Bool) : OnlyL2 s (touchL2 s p dirty) := by
  unfold touchL2 State.mapDie OnlyL2
  split <;> rfl

theorem touchLines_onlyL2 (dirty : Bool) : ∀ (spans : List (Nat × BitVec 32)) (s : State),
    OnlyL2 s (spans.foldl (fun s p => touchL2 s p.1 dirty) s)
  | [], _ => rfl
  | p :: ps, s => (touchL2_onlyL2 s p.1 dirty).trans (touchLines_onlyL2 dirty ps _)

theorem touchL2_holds (s : State) (p : Nat) (dirty : Bool) :
    ∃ y ∈ ((touchL2 s p dirty).die (homeDie p)).l2, y.dpa = lineOf p := by
  rw [touchL2, State.die_mapDie_same]
  exact ⟨_, List.mem_cons_self, rfl⟩

/-- The last line of a span is there. -/
theorem touchSpan_holds (s : State) (d : Nat) (dirty : Bool) :
    ∃ y ∈ ((touchSpan s d 128 dirty).die (homeDie (d + 127))).l2, y.dpa = lineOf (d + 127) := by
  have hlast : ∀ s : State, ∃ y ∈ ((touchL2 s (lineOf (d + 127)) dirty).die (homeDie (d + 127))).l2, y.dpa = lineOf (d + 127) := by
    intro s
    have := touchL2_holds s (lineOf (d + 127)) dirty
    rwa [homeDie_lineOf, lineOf_lineOf] at this
  rw [touchSpan, lineSpans, show d + 128 - 1 = d + 127 by omega]
  split
  next he =>
    rw [he]
    exact hlast s
  next => exact hlast _

/-! ## A whole line -/

theorem allWords_getLsbD {b : Nat} (hb : b < 128) : (BitVec.allOnes 32).getLsbD (b / 4) = true := by
  rw [BitVec.getLsbD_allOnes]
  exact decide_eq_true (by omega)

theorem fetchHome_poisoned {s : State} {d p : Nat} {mask : BitVec 32} (hm : mask ≠ 0#32) (hn : homeDie p = d)
    (hp : s.poisonedAt p = true) : fetchHome s d p mask = none := by
  simp only [fetchHome, if_neg hm, hn, beq_self_eq_true, Bool.not_true, Bool.false_and, Bool.false_eq_true, if_false, hp, if_true]

/-- A poisoned line of the own die does not come, wherever it begins. -/
theorem fetchLine_poisoned {s : State} {d p : Nat} (hn : homeDie p = d) (hp : s.poisonedAt p = true) :
    fetchLine s d p (BitVec.allOnes 32) = none := by
  by_cases hk : p % 128 = 0
  · exact (if_pos hk).trans (fetchHome_poisoned (by decide) hn hp)
  · have hlo : fetchHome s d (lineOf p) (byteWords (wordBytes (BitVec.allOnes 32) <<< (p % 128))) = none := by
      refine fetchHome_poisoned (byteWords_ne_zero (i := 127) (by decide) ?_) ((homeDie_lineOf p).trans hn)
        ((poisonedAt_lineOf s p).trans hp)
      rw [BitVec.getLsbD_shiftLeft, getLsbD_wordBytes _ (by omega), BitVec.getLsbD_allOnes, decide_eq_true (by omega),
        decide_eq_false (by omega), decide_eq_true (by omega)]
      rfl
    simp only [fetchLine, if_neg hk, hlo]

theorem viaRdc_onlyDies (s : State) (d : Nat) (key : RdcKey) (mask : BitVec 32) (home : List Byte) :
    OnlyDies s (viaRdc s d key mask home).1 := by
  change OnlyDies s (s.mapDie d fun _ => ((s.die d).rdcFill (s.waysLeft 3 d 0 rdcLines) key mask home).1)
  exact mapDie_onlyDies _ _ _

/-- A line of the other die of which the RDC holds no copy comes through it. -/
theorem fetchLine_far {s : State} {d p : Nat} (hn : homeDie p ≠ d) (hk : p % 128 = 0) (hp : s.poisonedAt p = false)
    (hr : (s.die d).rdcFind (.line p) = none) :
    ∃ t bs, fetchLine s d p (BitVec.allOnes 32) = some (t, bs) ∧ OnlyDies s t ∧
      ∀ b, b < 128 → nth 0#8 bs b = s.dram.get (p + b) := by
  have hserved := touchL2_served s p false
  have hhas : (s.die d).rdcHas (.line p) (BitVec.allOnes 32) = false := by rw [Die.rdcHas, hr]
  have hfind : ((touchL2 s p false).die d).rdcFind (.line p) = none := by
    rw [hserved.2 d]
    exact hr
  have hfar : (homeDie p == d) = false := beq_false_of_ne hn
  let v := viaRdc (touchL2 s p false) d (.line p) (BitVec.allOnes 32) (s.dram.bytes p 128)
  have hfetch : fetchLine s d p (BitVec.allOnes 32) = some (v.1, v.2.bytes 0 128) := by
    have hnone : BitVec.allOnes 32 ≠ 0#32 := by decide
    refine (if_pos hk).trans ?_
    simp only [fetchHome, if_neg hnone, hfar, hhas, hp, Bool.not_false, Bool.and_false, Bool.false_eq_true, if_false, readHome,
      hserved.dram]
    rfl
  refine ⟨_, _, hfetch, hserved.1.trans (viaRdc_onlyDies _ _ _ _ _), fun b hb => ?_⟩
  rw [Memory.nth_bytes _ _ hb, Nat.zero_add, viaRdc_absent _ hb (allWords_getLsbD hb) hfind, Memory.nth_bytes _ _ hb]

/-! ## What a fill leaves -/

/-- Nothing differs but the dies and the L1 of one core. -/
def OnlyFilled (core : Nat) (s t : State) : Prop :=
  t = { s with cores := t.cores, die0 := t.die0, die1 := t.die1 } ∧ (∀ k, k ≠ core → t.core k = s.core k) ∧
  t.core core = { s.core core with l1 := (t.core core).l1 }

theorem OnlyDies.core {s t : State} (h : OnlyDies s t) (k : Nat) : t.core k = s.core k := by
  rw [h]
  rfl

theorem OnlyDies.filled {s u : State} (h : OnlyDies s u) (core : Nat) (y : L1Line) :
    OnlyFilled core s (u.mapCore core fun c => c.l1Put y) := by
  refine ⟨?_, fun k hk => ?_, ?_⟩
  · rw [h]
    rfl
  · rw [State.core_mapCore_other _ _ _ _ hk, h.core]
  · rw [State.core_mapCore_same, h.core]
    rfl

theorem l1Find_filled {u : State} {core asid va : Nat} {y : L1Line} (ha : y.asid = asid) (hv : y.va = lineOf va) :
    ((u.mapCore core fun c => c.l1Put y).core core).l1Find asid va = some y := by
  rw [State.core_mapCore_same]
  exact Core.l1Find_l1Put _ ha hv

theorem lineOf_mod (a : Nat) : lineOf a % 128 = 0 := by
  unfold lineOf
  omega

section
variable {s u : State} {core asid va d prio : Nat} {ro : Bool} {bs : List Byte}
  (hb : homeBusy s core asid (lineOf va) = 0#32)
include hb

/-- A fill of a whole line that the core does not hold, into a set with room. -/
theorem fillLine_absent (hf : (s.core core).l1Find asid va = none)
    (hw : (s.core core).l1Victim asid (lineOf va) (s.waysLeft 1 core (l1Set (lineOf va)) 8) = none)
    (hh : fetchLine s (dieOf core) d (BitVec.allOnes 32) = some (u, bs)) :
    fillL1 s core asid (lineOf va) d (BitVec.allOnes 32) 0#32 prio ro = .ready (u.mapCore core fun c =>
      c.l1Put (L1Line.marked ro (BitVec.allOnes 32) (freshLine asid (lineOf va) d (BitVec.allOnes 32) prio bs))) := by
  have hfill := fillL1_absent (s := s) (u := u) (core := core) (asid := asid) (va := lineOf va) (dpa := d)
    (mask := BitVec.allOnes 32) (whole := 0#32) (prio := prio) (ro := ro) (bs := bs)
  rw [lineOf_lineOf, lineOf_mod, Nat.sub_zero, Core.l1Find_lineOf, hb] at hfill
  exact hfill hf rfl hw hh

/-- A fill of the words that the core lacks of a line. -/
theorem fillLine_partial {l : L1Line} (hf : (s.core core).l1Find asid va = some l) (hv : l.valid ≠ BitVec.allOnes 32)
    (hh : fetchLine s (dieOf core) d (~~~l.valid) = some (u, bs)) :
    fillL1 s core asid (lineOf va) d (BitVec.allOnes 32) 0#32 prio ro = .ready (u.mapCore core fun c =>
      c.l1Put (L1Line.marked ro (BitVec.allOnes 32)
        { l with valid := BitVec.allOnes 32, data := overlay (~~~l.valid) bs l.data, prio := prio })) := by
  have hfill := fillL1_partial (s := s) (u := u) (core := core) (asid := asid) (va := lineOf va) (dpa := d)
    (mask := BitVec.allOnes 32) (whole := 0#32) (prio := prio) (ro := ro) (bs := bs) (l := l)
  rw [lineOf_lineOf, lineOf_mod, Nat.sub_zero, Core.l1Find_lineOf, hb, BitVec.allOnes_and, BitVec.not_zero, BitVec.and_allOnes,
    BitVec.and_allOnes, BitVec.or_allOnes] at hfill
  exact hfill hf hv BitVec.and_zero hh

theorem fillLine_poisoned (hf : (s.core core).l1Find asid va = none)
    (hw : (s.core core).l1Victim asid (lineOf va) (s.waysLeft 1 core (l1Set (lineOf va)) 8) = none)
    (hh : fetchLine s (dieOf core) d (BitVec.allOnes 32) = none) :
    fillL1 s core asid (lineOf va) d (BitVec.allOnes 32) 0#32 prio ro = .poisoned := by
  simp only [fillL1, lineOf_lineOf, lineOf_mod, Nat.sub_zero, Core.l1Find_lineOf, hf, hb, BitVec.and_zero, ne_eq,
    not_true_eq_false, if_false, hw, BitVec.not_zero, BitVec.and_allOnes, hh]

/-- The dirty way that a fill would replace is written back first. -/
theorem fillLine_victim {y : L1Line} (hf : (s.core core).l1Find asid va = none)
    (hw : (s.core core).l1Victim asid (lineOf va) (s.waysLeft 1 core (l1Set (lineOf va)) 8) = some y) (hd : y.dirty ≠ 0#128) :
    fillL1 s core asid (lineOf va) d (BitVec.allOnes 32) 0#32 prio ro =
      .held (writeBack s core fun l => l.asid == y.asid && l.va == y.va) := by
  simp only [fillL1, lineOf_lineOf, Core.l1Find_lineOf, hf, hb, BitVec.and_zero, ne_eq, not_true_eq_false, if_false, hw, hd,
    not_false_eq_true, if_true]
end

/-- A write-back leaves the core but for its L1 and the count of write-backs, and the lines that it names clean. -/
theorem writeBack_core (s : State) (core : Nat) (p : L1Line → Bool) :
    (writeBack s core p).core core = { s.core core with
      l1 := ((writeBack s core p).core core).l1, wbOut := ((writeBack s core p).core core).wbOut } := by
  rw [writeBack, (writeBackBytes_onlyHomes s core _).core, setOut, State.core_setCore_same]

theorem writeBack_lines {s : State} {core : Nat} {p : L1Line → Bool} (hp : ∀ l l' : L1Line, l.asid = l'.asid → l.va = l'.va → p l = p l')
    {z : L1Line} (hz : z ∈ ((writeBack s core p).core core).l1) (h : p z = true) : z.dirty = 0#128 := by
  rw [writeBack, (writeBackBytes_onlyHomes s core _).core, setOut, State.core_setCore_same] at hz
  obtain ⟨l, -, rfl⟩ := List.mem_map.1 hz
  have hkey : ∀ m, (l.sendBytes m).asid = l.asid ∧ (l.sendBytes m).va = l.va := fun m => by
    unfold L1Line.sendBytes
    split <;> exact ⟨rfl, rfl⟩
  have hl : p l = true := (hp _ _ (hkey _).1 (hkey _).2).symm.trans h
  rw [hl, if_pos rfl, L1Line.sendBytes, BitVec.and_allOnes]
  split
  next h0 => exact h0
  next => rw [BitVec.not_allOnes, BitVec.and_zero]

theorem get_freshLine {asid va d prio : Nat} {bs : List Byte} {ro : Bool} {m : Memory}
    (hbs : ∀ b, b < 128 → nth 0#8 bs b = m.get (d + b)) {b : Nat} (hb : b < 128) :
    (L1Line.marked ro (BitVec.allOnes 32) (freshLine asid va d (BitVec.allOnes 32) prio bs)).data.get b = m.get (d + b) := by
  rw [L1Line.marked_frame, freshLine, get_overlay Memory.wf_nil _ bs hb, if_pos (allWords_getLsbD hb), hbs b hb]

/-! ## The prefetch of one line into L1 -/

section
variable {t u : State} {x : Issuer} {hint : BitVec 2} {a d : Nat} (hline : prefetchLine t x a = some (u, d))
include hline

theorem prefetchOne_held_line {y : L1Line} (hf : (u.core x.core).l1Find x.l.asid a = some y)
    (hv : y.valid = BitVec.allOnes 32) : prefetchOne t x false hint a =
      u.setCore x.core ((u.core x.core).l1Put (y.marked (hint == 1#2) (BitVec.allOnes 32))) := by
  refine prefetchOne_ready hline (fillL1_hit ((Core.l1Find_lineOf ..).trans hf) ?_)
  rw [hv, BitVec.and_self]

variable (hquiet : homeBusy u x.core x.l.asid (lineOf a) = 0#32)
include hquiet

theorem prefetchOne_partial {y : L1Line} (hf : (u.core x.core).l1Find x.l.asid a = some y) (hwf : y.data.wf = true)
    (hv : y.valid ≠ BitVec.allOnes 32) (h0 : homeDie d = dieOf x.core) (h1 : homeDie (d + 127) = dieOf x.core)
    (hp0 : u.poisonedAt d = false) (hp1 : u.poisonedAt (d + 127) = false) :
    OnlyFilled x.core u (prefetchOne t x false hint a) ∧
    ∃ z, ((prefetchOne t x false hint a).core x.core).l1Find x.l.asid a = some z ∧ z.valid = BitVec.allOnes 32 ∧
      z.dirty = y.dirty ∧ z.prio = hintPrio hint ∧ (hint = 1#2 → z.ro = BitVec.allOnes 32) ∧
      ∀ b, b < 128 → z.data.get b = if y.valid.getLsbD (b / 4) then y.data.get b else u.dram.get (d + b) := by
  obtain ⟨-, hya, hyv⟩ := Core.l1Find_some hf
  obtain ⟨v, bs, hfetch, hserved, hhome⟩ := fetchLine_near (~~~y.valid) h0 h1 hp0 hp1
  let z := L1Line.marked (hint == 1#2) (BitVec.allOnes 32)
    { y with valid := BitVec.allOnes 32, data := overlay (~~~y.valid) bs y.data, prio := hintPrio hint }
  have hz : z = { y with valid := BitVec.allOnes 32, data := overlay (~~~y.valid) bs y.data, prio := hintPrio hint, ro := z.ro } :=
    L1Line.marked_frame ..
  rw [prefetchOne_ready hline (fillLine_partial hquiet hf hv hfetch)]
  refine ⟨hserved.1.filled _ _, z, l1Find_filled ?_ ?_, ?_, ?_, ?_, fun hro => ?_, fun b hb => ?_⟩
  · rw [L1Line.marked_frame]
    exact hya
  · rw [L1Line.marked_frame]
    exact hyv
  · rw [hz]
  · rw [hz]
  · rw [hz]
  · subst hro
    exact BitVec.or_allOnes
  · rw [hz, get_overlay hwf _ bs hb]
    have hnot : (~~~y.valid).getLsbD (b / 4) = !y.valid.getLsbD (b / 4) := by
      rw [BitVec.getLsbD_not, decide_eq_true (by omega), Bool.true_and]
    cases hval : y.valid.getLsbD (b / 4)
    · rw [hval, Bool.not_false] at hnot
      rw [if_pos hnot, if_neg Bool.false_ne_true, hhome b hb hnot]
    · rw [hval] at hnot
      rw [if_neg (by simp [hnot]), if_pos rfl]

variable (hf : (u.core x.core).l1Find x.l.asid a = none)
include hf

section
variable (hw : (u.core x.core).l1Victim x.l.asid (lineOf a) (u.waysLeft 1 x.core (l1Set (lineOf a)) 8) = none)
include hw

theorem prefetchOne_fetched {v : State} {bs : List Byte}
    (hh : fetchLine u (dieOf x.core) d (BitVec.allOnes 32) = some (v, bs)) (hd : OnlyDies u v)
    (hbs : ∀ b, b < 128 → nth 0#8 bs b = u.dram.get (d + b)) :
    OnlyFilled x.core u (prefetchOne t x false hint a) ∧
    ∃ z, ((prefetchOne t x false hint a).core x.core).l1Find x.l.asid a = some z ∧ z.valid = BitVec.allOnes 32 ∧
      z.dirty = 0#128 ∧ z.prio = hintPrio hint ∧ z.dpa = d ∧ z.ro = (if hint = 1#2 then BitVec.allOnes 32 else 0#32) ∧
      ∀ b, b < 128 → z.data.get b = u.dram.get (d + b) := by
  rw [prefetchOne_ready hline (fillLine_absent hquiet hf hw hh)]
  refine ⟨hd.filled _ _, _, l1Find_filled ?_ ?_, ?_, ?_, ?_, ?_, ?ro, fun b hb => get_freshLine hbs hb⟩
  case ro =>
    by_cases hro : hint = 1#2
    · rw [if_pos hro, hro]
      exact BitVec.or_allOnes
    · rw [if_neg hro, L1Line.marked, beq_false_of_ne hro]
      rfl
  all_goals rw [L1Line.marked_frame, freshLine]

theorem prefetchOne_lost (h0 : homeDie d = dieOf x.core) (hp : u.poisonedAt d = true) : prefetchOne t x false hint a = u :=
  prefetchOne_poisoned hline (fillLine_poisoned hquiet hf hw (fetchLine_poisoned h0 hp))
end

theorem prefetchOne_victim {y : L1Line} {g : Group} (hg : u.group? x.core x.slot = some g)
    (hw : (u.core x.core).l1Victim x.l.asid (lineOf a) (u.waysLeft 1 x.core (l1Set (lineOf a)) 8) = some y)
    (hd : y.dirty ≠ 0#128) :
    let v := prefetchOne t x false hint a
    v.group? x.core x.slot = some (g.addPend (u.core x.core).nextId (.pref (lineOf a) d hint)) ∧
    (v.core x.core).spad = (u.core x.core).spad ∧ (v.core x.core).tileData = (u.core x.core).tileData ∧
    ∀ z ∈ (v.core x.core).l1, z.asid = y.asid → z.va = y.va → z.dirty = 0#128 := by
  intro v
  let isV := fun l : L1Line => l.asid == y.asid && l.va == y.va
  let w := writeBack u x.core isV
  have hcore : w.core x.core = { u.core x.core with l1 := (w.core x.core).l1, wbOut := (w.core x.core).wbOut } :=
    writeBack_core u x.core isV
  have hv : v = (w.mapGroup x.core x.slot fun g => g.addPend (w.core x.core).nextId (.pref (lineOf a) d hint)).mapCore x.core
      Core.tick := prefetchOne_held hline (fillLine_victim hquiet hf hw hd)
  have hid : (w.core x.core).nextId = (u.core x.core).nextId := by rw [hcore]
  have hspad : (w.core x.core).spad = (u.core x.core).spad := by rw [hcore]
  have htile : (w.core x.core).tileData = (u.core x.core).tileData := by rw [hcore]
  have hwg : w.group? x.core x.slot = some g := by
    rw [State.group?, hcore]
    exact hg
  have hvcore : v.core x.core = ((w.mapGroup x.core x.slot fun g => g.addPend (u.core x.core).nextId
      (.pref (lineOf a) d hint)).core x.core).tick := by
    rw [hv, State.core_mapCore_same, hid]
  refine ⟨?_, ?_, ?_, fun z hz ha hva => ?_⟩
  · rw [State.group?, hvcore]
    exact (State.group_mapGroup_same ..).trans (congrArg _ hwg)
  · rw [hvcore, State.core_mapGroup]
    exact hspad
  · rw [hvcore, State.core_mapGroup]
    exact htile
  · rw [hvcore, State.core_mapGroup] at hz
    refine writeBack_lines (p := isV) (fun l l' h1 h2 => ?_) hz ?_
    · simp only [isV, h1, h2]
    · simp only [isV, ha, hva, beq_self_eq_true, Bool.and_self]
end

/-! ## A prefetch under way -/

/-- LOAD_LAND of a prefetch that is pending fills its line and ends it. -/
theorem exec_loadLand_pref {s t : State} {g : Group} {l : Launch} {va d : Nat} {hint : BitVec 2}
    (hg : s.group? s.sel.core s.sel.slot = some g) (hp : g.pend? s.sel.id = some (.pref va d hint))
    (hl : s.launch? g.launch = some l)
    (hf : fillL1 s s.sel.core l.asid va d (BitVec.allOnes 32) 0#32 (hintPrio hint) (hint == 1#2) = .ready t) :
    exec .loadLand s = .next (t.mapGroup s.sel.core s.sel.slot fun g => g.dropPend s.sel.id) := by
  have hx : exec .loadLand s = .next (performSel s [.load]) := rfl
  have hks : [AccKind.load].contains .load = true := by decide
  have hpart : performPart s s.sel.core s.sel.slot s.sel.id s.sel.part =
      some (t.mapGroup s.sel.core s.sel.slot fun g => g.dropPend s.sel.id) := by
    simp only [performPart, hg, hp, performPref, hl, hf]
  rw [hx]
  simp only [performSel, hg, hp, hks, if_true, hpart, Option.getD_some]

theorem exec_pref {s : State} {x : Issuer} {i : Instr} {w : Base} {e : ExtM} (hi : prefForm i = some (w, e))
    (h : Executes s x i) : exec i s = .next (goesOn ((lanesOf (activeOf x i)).foldl (fun t l =>
      prefetchOne t x e.fr e.hint (dwordOf (((accBase s x { sp := .g, kind := .load, w := w, x := e } l).toNat : Int) +
        (accIndex s x { sp := .g, kind := .load, w := w, x := e } l).toInt * 2 ^ e.xs.toNat + e.off.toInt)).toNat) s) x i) := by
  rw [prefForm_exec hi]
  unfold prefetch
  exact runInstr_done h rfl

/-- Settles O20: the line's place, then L2 or L1 case by case, then the prefetch that had to wait. -/
theorem prefetchFillsLines : Obligations.PrefetchFillsLines := by
  unfold Obligations.PrefetchFillsLines
  refine ⟨fun s x i w e hi h => exec_pref hi h, fun t x a => ?place, fun t u x hint a d hline => ?fresh,
    fun t u x hint a d hline => ?fill, ?land⟩
  case place =>
    refine ⟨fun h fresh hint => prefetchOne_none h fresh, prefetchLine_outside, fun n r hr h => prefetchLine_unreadable hr h,
      fun n r hr hk hrd => prefetchLine_resident hr hk hrd, fun n r hr hk hrd => ?_⟩
    intro d page
    have hline : prefetchLine t x a = _ := prefetchLine_demand hr hk hrd
    refine ⟨fun hmiss => ?_, fun e hhit => ?_⟩
    · exact hline.trans (congrArg _ hmiss)
    · exact hline.trans (congrArg _ hhit)
  case fresh =>
    rw [prefetchOne_fresh hline]
    exact ⟨touchSpan_holds u d false, touchLines_onlyL2 false _ u⟩
  case fill =>
    intro c v prio only near clean quiet room
    refine ⟨fun y hf hv => ?_, fun y hf hwf hv hn hc hq => ?_, fun hf hw hn hc hq => ?_, fun hf hw hn hk hp hq hr => ?_,
      fun hf hw hn hp hq => prefetchOne_lost hline hq hf hw hn.1 hp, fun y g hf hq hg hw hd => ?_⟩
    · obtain ⟨-, hya, hyv⟩ := Core.l1Find_some hf
      have hone : v = u.mapCore x.core fun c => c.l1Put (y.marked (hint == 1#2) (BitVec.allOnes 32)) :=
        prefetchOne_held_line hline hf hv
      have hmark := L1Line.marked_frame (hint == 1#2) (BitVec.allOnes 32) y
      have honly : OnlyFilled x.core u v := by
        rw [hone]
        exact OnlyDies.filled (s := u) (u := u) rfl _ _
      refine ⟨honly, ?_, ?_, y.marked (hint == 1#2) (BitVec.allOnes 32), ?_, ?_⟩
      · rw [hone]
        rfl
      · rw [hone]
        rfl
      · rw [hone]
        exact l1Find_filled (by rw [hmark]; exact hya) (by rw [hmark]; exact hyv)
      · rw [hmark]
        exact ⟨rfl, rfl, rfl⟩
    · exact prefetchOne_partial hline hq hf hwf hv hn.1 hn.2 hc.1 hc.2
    · obtain ⟨w, bs, hfetch, hserved, hhome⟩ := fetchLine_near (BitVec.allOnes 32) hn.1 hn.2 hc.1 hc.2
      exact prefetchOne_fetched hline hq hf hw hfetch hserved.1 fun b hb => hhome b hb (allWords_getLsbD hb)
    · obtain ⟨w, bs, hfetch, hdies, hhome⟩ := fetchLine_far hn hk hp hr
      obtain ⟨honly, z, hz, hvalid, -, -, -, -, hdata⟩ := prefetchOne_fetched (hint := hint) hline hq hf hw hfetch hdies hhome
      exact ⟨honly, z, hz, hvalid, hdata⟩
    · obtain ⟨hgroup, hspad, htile, hlines⟩ := prefetchOne_victim (hint := hint) hline hq hf hg hw hd
      exact ⟨rfl, _, hgroup, rfl, rfl, rfl, hspad, htile, hlines⟩
  case land =>
    intro s g l va d hint hg hp hl hva core hf hw h0 h1 hp0 hp1 hq
    have hline : lineOf va = va := by
      unfold lineOf
      omega
    obtain ⟨u, bs, hfetch, hserved, hhome⟩ := fetchLine_near (BitVec.allOnes 32) h0 h1 hp0 hp1
    let z := L1Line.marked (hint == 1#2) (BitVec.allOnes 32) (freshLine l.asid va d (BitVec.allOnes 32) (hintPrio hint) bs)
    let t := u.mapCore core fun c => c.l1Put z
    have hz : z = { freshLine l.asid va d (BitVec.allOnes 32) (hintPrio hint) bs with ro := z.ro } := L1Line.marked_frame ..
    have hfill := fillLine_absent (prio := hintPrio hint) (ro := hint == 1#2) (by rw [hline]; exact hq) hf
      (by rw [hline]; exact hw) hfetch
    rw [hline] at hfill
    have htg : t.group? core s.sel.slot = some g := by
      rw [State.group?, State.core_mapCore_same, hserved.1.core]
      exact hg
    refine ⟨_, g.dropPend s.sel.id, z, exec_loadLand_pref hg hp hl hfill,
      (State.group_mapGroup_same ..).trans (congrArg _ htg), Group.pend?_dropPend g _, rfl, ?_, ?_, hserved.dram,
      fun b hb => get_freshLine (fun b hb => hhome b hb (allWords_getLsbD hb)) hb⟩
    · rw [State.core_mapGroup]
      refine l1Find_filled ?_ ?_
      · rw [L1Line.marked_frame, freshLine]
      · rw [L1Line.marked_frame, freshLine, hline]
    · rw [hz, freshLine]

end Sys2Proof.Machine
end

section
/-! PROOF. The course of a clause of the sequencer: handed off, started when the sequencer is free, retired when it is drained
(06 R220, R221, R225, R243, 09 R332, R334). -/

namespace Sys2Proof.Machine

/-! ## The hand-off (R220, R225) -/

/-- The groups that STOP bits end hold the words of the clause in their order. -/
theorem flatten_splitGroups (hdr : Word) : ∀ ws : List RawWord, (splitGroups hdr ws).flatten = ws
  | [] => rfl
  | w :: ws => by
    have ih := flatten_splitGroups hdr ws
    unfold splitGroups
    simp only
    split
    · exact congrArg (w :: ·) ih
    · cases h : splitGroups hdr ws <;> rw [h] at ih <;> rw [← ih] <;> rfl

/-- Without a failure every bundle is taken. -/
theorem length_takeBundles (e : CheckEnv) (g : Group) : ∀ (ws : List (List RawWord)) {bs : List (List BundleWord)},
    takeBundles e g ws = (bs, none) → bs.length = ws.length
  | [], _, h => by cases h; rfl
  | w :: ws, bs, h => by
    unfold takeBundles at h
    split at h
    · cases h
    · obtain ⟨rfl, hf⟩ := Prod.mk.inj h
      exact congrArg (· + 1) (length_takeBundles e g ws (Prod.ext rfl hf))

/-- The scalar registers that a word of a clause reads. -/
def RawWord.reads (w : RawWord) : List Opd := match w.dec with | .ok i => xReads i | _ => []

/-- The words of the clause at hand, from the run's position on. -/
def clauseWords (x : Issuer) : List RawWord := rawWords x.run .x (hdrCount x.run.hdr) 16 x.run.wordIx

/-- A hand-off takes the next place in the core's order; a predicted group notes the clause there among what it withholds. -/
def noteClause (s : State) (x : Issuer) : State :=
  match x.g.predicted with
  | some p => holdItem s x p (.clause (s.core x.core).nextId)
  | none => s.mapCore x.core Core.tick

section
variable {x : Issuer} {bs : List (List BundleWord)}
  (hb : takeBundles (checkEnv x.g x.l) x.g (splitGroups x.run.hdr (clauseWords x)) = (bs, none))
include hb

theorem handoffBundles_whole : handoffBundles x = (splitGroups x.run.hdr (clauseWords x), bs, none) :=
  Prod.ext rfl hb

/-- A clause whose bundles all pass waits for the scalar registers that its words read, and for nothing else. -/
theorem handoffWaits_whole (hp : ((clauseWords x).flatMap RawWord.reads).any x.g.pendingOpd = false) :
    handoffWaits x = false := by
  have hall : (splitGroups x.run.hdr (clauseWords x)).take bs.length = splitGroups x.run.hdr (clauseWords x) :=
    List.take_of_length_le (length_takeBundles _ _ _ hb).ge
  simp only [handoffWaits, handoffBundles_whole hb, hall, flatten_splitGroups, Bool.or_false]
  exact Bool.and_eq_false_iff.2 (.inr hp)

/-- A clause that passes is handed over whole: into the queue, or kept by its group at a full one. -/
theorem handoff_whole {s : State} (hpair : pairRefused x = false) (hne : bs ≠ []) (hw : handoffWaits x = false) :
    let k : XClause :=
      { id := (s.core x.core).nextId, launch := x.g.launch, block := x.g.block, slot := x.slot, hdrOff := x.run.cur, hdr := x.run.hdr
        bundles := bs, pair := hdrHold x.run.hdr, predicted := x.g.predicted.isSome }
    let behind := { x.run with pos := clauseEnd x.run.cur x.run.hdr }
    handoff s x =
      if (s.core x.core).seqQueue.length < 8 then
        stepRun ((noteClause s x).mapCore x.core fun c => { c with seqQueue := c.seqQueue ++ [k] }) x behind
      else suspendRun (setWait (noteClause s x) x.core x.slot (.handoff k)) x behind := by
  have hsome : bs.isEmpty = false := by simpa using hne
  simp only [handoff, hpair, hw, handoffBundles_whole hb, hsome, Bool.false_eq_true, if_false, Bool.not_false, Bool.true_and,
    decide_eq_true_eq]
  by_cases hfull : 8 ≤ (s.core x.core).seqQueue.length
  · rw [if_pos hfull, if_neg (Nat.not_lt.2 hfull)]
    rfl
  · rw [if_neg hfull, if_pos (Nat.lt_of_not_le hfull)]
    rfl
end

theorem exec_xclauseHandoff {s : State} {x : Issuer} (h : issuer { s with focus := .group s.sel.core s.sel.sched } = some x)
    (hc : hdrClass x.run.hdr = .x) (hw : x.g.wait = .none) :
    exec .xclauseHandoff s = .next (handoff { s with focus := .group s.sel.core s.sel.sched } x) := by
  show execXclauseHandoff s = _
  simp only [execXclauseHandoff, h, hc, hw, beq_self_eq_true, Bool.and_self, if_true]

/-- Only a PAIR clause is refused whole, on an odd core or without a level of DOMAIN 2. -/
theorem pairRefused_of {x : Issuer} (h : hdrHold x.run.hdr = true → x.core % 2 = 0 ∧ hasPair x.l.rec_ = true) :
    pairRefused x = false := by
  cases hh : hdrHold x.run.hdr with
  | false => simp [pairRefused, hh]
  | true =>
    obtain ⟨heven, hlevel⟩ := h hh
    simp [pairRefused, heven, hlevel]

/-- A kept clause enters the queue when that has room. -/
theorem enterQueue_room {s : State} {core slot : Nat} {g : Group} {k : XClause} (hg : s.group? core slot = some g)
    (hw : g.wait = .handoff k) (hs : g.stopped = false) (hroom : (s.core core).seqQueue.length < 8) :
    enterQueue s core slot =
      (setWait s core slot .none).mapCore core fun c => { c with seqQueue := c.seqQueue ++ [k] } := by
  simp only [enterQueue, hg, hw, hs, Bool.false_eq_true, or_false, if_neg (Nat.not_le.2 hroom)]

/-! ## The start (R221, R243) -/

theorem mayBegin_of {s : State} {c : XClause} (h : ∀ l, s.launch? c.launch = some l → l.phase = .admitted) :
    mayBegin s c = true := by
  unfold mayBegin
  split
  next l hl => rw [h l hl]; rfl
  next => rfl

section
variable {s : State} {c : XClause} {cs : List XClause} (hfree : (s.core s.sel.core).seqRun = none)
  (hq : (s.core s.sel.core).seqQueue = c :: cs) (hl : ∀ l, s.launch? c.launch = some l → l.phase = .admitted)
include hfree hq hl

theorem exec_seqClauseStart (hp : c.pair = false) (ha : pairAhead s s.sel.core = false) :
    exec .seqClauseStart s = .next (s.setCore s.sel.core
      { s.core s.sel.core with seqQueue := cs, seqRun := some (.fresh c .own) }) := by
  show execSeqClauseStart s = _
  simp only [execSeqClauseStart, hfree, hq, hp, ha, mayBegin_of hl, Bool.not_true, Bool.or_self, Bool.false_eq_true, if_false]

theorem exec_pairClauseStart (hp : c.pair = true) (heven : s.sel.core % 2 = 0) (hf : (s.core (s.sel.core + 1)).seqRun = none) :
    exec .pairClauseStart s = .next ((s.setCore s.sel.core
      { s.core s.sel.core with seqQueue := cs, seqRun := some (.fresh c .leader) }).setCore (s.sel.core + 1)
      { s.core (s.sel.core + 1) with seqRun := some (.fresh c .follower) }) := by
  show execPairClauseStart s = _
  simp only [execPairClauseStart, hfree, hq, hf, hp, heven, mayBegin_of hl, beq_self_eq_true, Bool.and_self, if_true]
end

/-! ## The retirement (R243, 09 R334) -/

theorem SeqRun.drained_iff (r : SeqRun) : r.drained = true ↔
    r.clause.bundles.length ≤ r.bundle ∧ r.stopped = none ∧ r.writebacks = [] ∧ r.signals = [] ∧ r.giveLand = [] := by
  simp [SeqRun.drained, and_assoc]

section
variable {s : State} {r : SeqRun} (hr : (s.core s.sel.core).seqRun = some r)
include hr

theorem exec_seqClauseRetire_undrained (h : r.drained = false) : exec .seqClauseRetire s = .next s := by
  show execSeqClauseRetire s = _
  simp only [execSeqClauseRetire, hr, h, Bool.not_false, if_true]

theorem exec_seqClauseRetire_own (hrole : r.role = .own) (h : r.drained = true) :
    exec .seqClauseRetire s = .next (s.mapCore s.sel.core fun k => { k with seqRun := none }) := by
  show execSeqClauseRetire s = _
  simp only [execSeqClauseRetire, hr, hrole, h, Bool.not_true, Bool.false_eq_true, if_false]

theorem exec_seqClauseRetire_leader {f : SeqRun} (hrole : r.role = .leader) (hf : (s.core (s.sel.core + 1)).seqRun = some f)
    (h : r.drained = true) :
    exec .seqClauseRetire s = .next (if f.drained then
      (s.mapCore s.sel.core fun k => { k with seqRun := none }).mapCore (s.sel.core + 1) fun k => { k with seqRun := none }
      else s) := by
  show execSeqClauseRetire s = _
  simp only [execSeqClauseRetire, hr, hrole, hf, h, Bool.not_true, Bool.false_eq_true, if_false]

/-- A follower's side retires with its leader's alone. -/
theorem exec_seqClauseRetire_follower (hrole : r.role = .follower) : exec .seqClauseRetire s = .next s := by
  show execSeqClauseRetire s = _
  simp only [execSeqClauseRetire, hr, hrole, ite_self]
end

/-! ## The statement -/

/-- Settles O26: the hand-off by its law for a clause that passes, the start and the retirement by their conditions. -/
theorem sequencerClauseCourse : Obligations.SequencerClauseCourse := by
  unfold Obligations.SequencerClauseCourse
  refine ⟨?handoff, ?enters, ⟨?start, ?pair⟩, ?retire⟩
  case handoff =>
    intro s x bs hx hc hw hpair hne ws hb hp t id k u
    have hu : noteClause t x = u := by
      simp only [noteClause, u]
      cases x.g.predicted <;> rfl
    rw [exec_xclauseHandoff hx hc hw,
      handoff_whole hb (pairRefused_of hpair) hne (handoffWaits_whole hb hp), ← hu]
    rfl
  case enters =>
    intro s core slot g k hg hw hs hroom
    rw [enterQueue_room hg hw hs hroom]
    refine ⟨{ g with wait := .none }, ?_, rfl, ?_⟩
    · rw [State.group?, State.core_mapCore_same]
      have := congrArg (Option.map fun g : Group => { g with wait := .none }) hg
      exact (State.group_mapGroup_same ..).trans this
    · rw [State.core_mapCore_same]
      simp [setWait, State.mapGroup]
  case start => exact fun s c cs hfree hq hp ha hl => exec_seqClauseStart hfree hq hl hp ha
  case pair => exact fun s c cs hfree hq hp heven hl hf => exec_pairClauseStart hfree hq hl hp heven hf
  case retire =>
    intro done free s r hr
    have hdone : ∀ r, r.drained = true ↔ done r := SeqRun.drained_iff
    refine ⟨fun hrole h => exec_seqClauseRetire_own hr hrole ((hdone r).2 h), fun f hrole hf => ⟨fun h h' => ?_, fun h => ?_⟩,
      fun hrole => exec_seqClauseRetire_follower hr hrole⟩
    · rw [exec_seqClauseRetire_leader hr hrole hf ((hdone r).2 h), if_pos ((hdone f).2 h')]
    · cases hd : r.drained with
      | false => exact exec_seqClauseRetire_undrained hr hd
      | true =>
        rw [exec_seqClauseRetire_leader hr hrole hf hd, if_neg fun hf => h ⟨(hdone r).1 hd, (hdone f).1 hf⟩]

end Sys2Proof.Machine
end

section
/-! PROOF. An issue of the sequencer, and what completes behind it: writebacks, signals and records, with what a writeback
leaves as it was (06 R222, R223, R231, R232, R241, R242, R244). -/

namespace Sys2Proof.Machine

/-! ## Ranges of sparse bytes -/

theorem cellGet_eq_find? {β : Type} (d : β) (i : Nat) : ∀ m : List (Nat × β),
    cellGet d m i = ((m.find? fun p => p.1 == i).map Prod.snd).getD d
  | [] => rfl
  | (k, v) :: m => by
    by_cases h : k = i
    · simp [cellGet, h]
    · simp [cellGet, h, cellGet_eq_find? d i m]

/-- Behind a filter of indices, an index that it keeps finds the entry that it found before. -/
theorem find?_filter_key {β : Type} (m : List (Nat × β)) (q : Nat → Bool) (i : Nat) :
    ((m.filter fun c => q c.1).find? fun p => p.1 == i) = if q i then m.find? fun p => p.1 == i else none := by
  rw [List.find?_filter]
  split
  next h =>
    congr 1
    funext p
    by_cases hp : p.1 = i <;> simp [hp, h]
  next h =>
    refine List.find?_eq_none.2 fun p _ hp => ?_
    by_cases he : p.1 = i <;> simp [he, h] at hp

/-- Bytes outside a range that is replaced are as they were. -/
theorem Memory.get_splice_other {m new : Memory} {a n b : Nat} (hnew : ∀ p ∈ new, a ≤ p.1 ∧ p.1 < a + n)
    (hb : b < a ∨ a + n ≤ b) : (m.splice a n new).get b = m.get b := by
  have hmid : new.find? (fun p => p.1 == b) = none := by
    refine List.find?_eq_none.2 fun p hp he => ?_
    obtain ⟨hlo, hhi⟩ := hnew p hp
    have := beq_iff_eq.1 he
    omega
  have hlow := find?_filter_key m (fun k => decide (k < a)) b
  have hhigh := find?_filter_key m (fun k => decide (a + n ≤ k)) b
  rw [Memory.get, Memory.get, cellGet_eq_find?, cellGet_eq_find?, Memory.splice, List.find?_append, List.find?_append, hmid, hlow,
    hhigh]
  rcases hb with hb | hb
  · simp [hb, show ¬a + n ≤ b by omega]
  · simp [hb, show ¬b < a by omega]

/-- The bytes of a run, those that are 0 left out, are in canonical form. -/
theorem cellWfFrom_run (bs : List Byte) : ∀ (lo : Option Nat) (a : Nat), (∀ l ∈ lo, l < a) →
    cellWfFrom 0#8 lo ((bs.mapIdx fun i v => (a + i, v)).filter fun c => c.2 ≠ 0#8) = true := by
  induction bs with
  | nil => intros; rfl
  | cons v bs ih =>
    intro lo a hlo
    have hnext : (fun i v => (a + (i + 1), v)) = fun (i : Nat) (v : Byte) => (a + 1 + i, v) := by
      funext i v
      rw [Nat.add_assoc, Nat.add_comm 1 i]
    rw [List.mapIdx_cons, hnext]
    by_cases hv : v = 0#8
    · rw [List.filter_cons_of_neg (by simp [hv])]
      exact ih lo (a + 1) fun l hl => Nat.lt_succ_of_lt (hlo l hl)
    · rw [List.filter_cons_of_pos (by simpa using hv), cellWfFrom_cons]
      exact ⟨hlo, hv, ih (some a) (a + 1) fun l hl => by cases hl; exact Nat.lt_succ_self _⟩

/-! ## An issue (R222, R223, R244) -/

/-- Landing latches changes nothing else of a run. -/
theorem landLatches_frame (r : SeqRun) :
    landLatches r = { r with
      rows := (landLatches r).rows, cols := (landLatches r).cols, latchWrites := r.latchWrites.filter fun w => r.issue < w.due } := by
  refine List.foldlRecOn (motive := fun q : SeqRun =>
    q = { r with rows := q.rows, cols := q.cols, latchWrites := r.latchWrites.filter fun w => r.issue < w.due }) _ _ rfl ?_
  intro q hq w _
  rw [hq]
  split <;> rfl

/-- A clause of its own core has one side. -/
theorem sidesOf_own {s : State} {core : Nat} {run : SeqRun} {b : Block} (hrole : run.role = .own)
    (hb : (s.core core).block? run.clause.launch run.clause.block = some b) :
    sidesOf s core run = [{ core := core, b := b, run := run }] := by
  simp [sidesOf, hb, hrole]

/-- The sequencer of a clause that has issues left, and whose launch is not stopping, comes to its checks. -/
theorem seqIssue_ready {run : SeqRun} {l : Launch} (hrole : run.role = .own) (hstop : run.stopped = none)
    (hlen : run.bundle < run.clause.bundles.length) (hphase : l.phase = .admitted) :
    (run.role == .follower || run.stopped.isSome || l.phase != .admitted
      || decide (run.clause.bundles.length ≤ run.bundle)) = false := by
  rw [hrole, hstop, hphase, decide_eq_false (Nat.not_le.2 hlen)]
  rfl

section
variable {s : State} {core : Nat} {run : SeqRun} {l : Launch} {b : Block} (hr : (s.core core).seqRun = some run)
  (hl : s.launch? run.clause.launch = some l) (hb : (s.core core).block? run.clause.launch run.clause.block = some b)
  (hrole : run.role = .own) (hstop : run.stopped = none) (hlen : run.bundle < run.clause.bundles.length)
  (hphase : l.phase = .admitted)
include hr hl hb hrole hstop hlen hphase

/-- A failing check of the first kind stops the clause with its trap. -/
theorem seqIssue_stops {w : BundleWord} {k : Cause}
    (h : check1 (issueCtx l run) [{ core := core, b := b, run := run }] = some (w, k)) :
    seqIssue s core = runSet s core fun r => { r with stopped := some (seqTrap run w k run.issue) } := by
  simp only [seqIssue, hr, hl, seqIssue_ready hrole hstop hlen hphase, sidesOf_own hrole hb, h, Bool.false_eq_true, if_false]
  rfl

/-- An issue acts each word on the state before it, in which the latches that are due have landed, and moves the nest on. -/
theorem seqIssue_acts (hpred : run.clause.predicted = false)
    (h1 : check1 (issueCtx l run) [{ core := core, b := b, run := run }] = none)
    (hcond : conditions s (issueCtx l run) { core := core, b := b, run := run } = true)
    (h2 : check2 s (issueCtx l run) [{ core := core, b := b, run := run }] = none) :
    let c := issueCtx l run
    let s1 := runSet s core landLatches
    let d : Side := { core := core, b := b, run := landLatches run }
    seqIssue s core = runSet (c.ws.foldl (fun t w => wordAct s1 c d d w t) s1) core fun r => endFault (advanceNest c r) := by
  have hframe := landLatches_frame run
  have hsides : sidesOf (setSeqRun s core landLatches) core (((setSeqRun s core landLatches).core core).seqRun.getD run) =
      [{ core := core, b := b, run := landLatches run }] := by
    have hrun : ((setSeqRun s core landLatches).core core).seqRun.getD run = landLatches run := by simp [setSeqRun, hr]
    rw [hrun]
    refine sidesOf_own (by rw [hframe]; exact hrole) ?_
    rw [hframe]
    exact (Core.block?_of_blocks (by simp [setSeqRun]) _ _).trans hb
  simp only [seqIssue, hr, hl, seqIssue_ready hrole hstop hlen hphase, sidesOf_own hrole hb, h1, hpred, h2, hsides,
    List.all_cons, List.all_nil, hcond, List.foldl_cons, List.foldl_nil, Bool.false_and, Bool.and_self, Bool.not_true,
    Bool.false_eq_true, if_false]
  rfl
end

/-! ## What completes (R231, R241, R242) -/

theorem exec_passWritebackLand (s : State) : exec .passWritebackLand s = .next (landWriteback s s.sel.core) := rfl

/-- The state in which the oldest joined pass stands in its pair, and no tile that is given has landed yet. -/
def writtenBack (s : State) (core : Nat) (r : SeqRun) (b : Writeback) (bs : List Writeback) : State :=
  s.mapCore core fun k =>
    { k with tileData := k.tileData.splice (2 * b.pair * 8192) 16384 (writebackCells b), seqRun := some { r with writebacks := bs } }

section
variable {s : State} {core : Nat} {r : SeqRun} (hr : (s.core core).seqRun = some r)
include hr

theorem landWriteback_oldest {b : Writeback} {bs : List Writeback} (hw : r.writebacks = b :: bs) :
    landWriteback s core = landSides (writtenBack s core r b bs) core := by
  simp only [landWriteback, hr, hw]
  rfl

variable {n : Nat} {g : SeqSignal} {gs : List (Nat × SeqSignal)} (hg : r.signals = (n, g) :: gs)
include hg

/-- The oldest signal acts once the writebacks of earlier issues have landed, and on the other side of a PAIR clause the signals
of earlier issues have acted too. -/
theorem nextSignal_oldest (hb : ∀ b ∈ r.writebacks, n ≤ b.issue)
    (hf : ∀ f, otherSide s core = some f → (∀ b ∈ f.writebacks, n ≤ b.issue) ∧ ∀ q ∈ f.signals, n ≤ q.1) :
    nextSignal s core = some (r, g) := by
  have hother : (otherSide s core).all (fun f => f.doneBefore n) = true := by
    cases ho : otherSide s core with
    | none => rfl
    | some f =>
      obtain ⟨hw, hs⟩ := hf f ho
      simpa [SeqRun.doneBefore] using ⟨hw, fun a b hab => hs (a, b) hab⟩
  have hown : (r.writebacks.all fun b => decide (n ≤ b.issue)) = true := by simpa using hb
  simp only [nextSignal, hr, hg, hown, hother, Bool.and_self, if_true]

theorem dropSignal_oldest : dropSignal s core =
    landSides (s.mapCore core fun k => { k with seqRun := some { r with signals := gs } }) core := by
  unfold dropSignal
  congr 1
  exact State.mapCore_congr (by simp [hr, hg])
end

section
variable {s : State} {r : SeqRun}

theorem exec_xsigApply_add {j v : Nat} (h : nextSignal s s.sel.core = some (r, .add j v)) :
    exec .xsigApply s = .next ((dropSignal s s.sel.core).mapCore s.sel.core fun k => k.addCounter j (BitVec.ofNat 64 v)) := by
  show execXsigApply s = _
  rw [execXsigApply, h]

theorem exec_xsigApply_bar {j : Nat} (h : nextSignal s s.sel.core = some (r, .bar j)) :
    exec .xsigApply s = .next ((dropSignal s s.sel.core).mapCore s.sel.core fun k =>
      signalBar k r.clause.launch r.clause.block j) := by
  show execXsigApply s = _
  rw [execXsigApply, h]

theorem exec_xendPush_room {t : BitVec 21} (h : nextSignal s s.sel.core = some (r, .done t))
    (hroom : (nth [] (s.core s.sel.core).queues 7).length < 16) :
    exec .xendPush s = .next ((dropSignal s s.sel.core).mapCore s.sel.core fun k => k.pushQueue 7
      { launch := r.clause.launch, block := r.clause.block, slot := r.clause.slot, id := 0
        value := xendRecord r.clause.slot t }) := by
  have hfull : (s.core s.sel.core).queueFull 7 = false := decide_eq_false (Nat.not_le.2 hroom)
  show execXendPush s = _
  simp only [execXendPush, h, hfull, Bool.false_eq_true, if_false]
end

section
variable (s : State) (core : Nat) (r : SeqRun) (b : Writeback) (bs : List Writeback)

theorem writtenBack_core : (writtenBack s core r b bs).core core = { s.core core with
    tileData := (s.core core).tileData.splice (2 * b.pair * 8192) 16384 (writebackCells b)
    seqRun := some { r with writebacks := bs } } := State.core_mapCore_same _ _ _

theorem writtenBack_core_other {n : Nat} (h : n ≠ core) : (writtenBack s core r b bs).core n = s.core n :=
  State.core_mapCore_other _ _ _ _ h

theorem writtenBack_onlyCores : OnlyCores s (writtenBack s core r b bs) := mapCore_onlyCores _ _ _

/-- A writeback changes nothing of which core runs the other side. -/
theorem otherCore_writtenBack : otherCore (writtenBack s core r b bs) core = r.partner? core := by
  rw [otherCore, writtenBack_core]
  rfl
end

/-! ## What the landing of tiles leaves (R239) -/

/-- Nothing of a core differs but its tiles' owners and hand-off bits, and its sequencer's run. -/
def Core.OnlyHandOffs (c d : Core) : Prop := d = { c with tiles := d.tiles, seqRun := d.seqRun }

theorem Core.OnlyHandOffs.trans {c d e : Core} (h : c.OnlyHandOffs d) (k : d.OnlyHandOffs e) : c.OnlyHandOffs e := by
  unfold Core.OnlyHandOffs at *
  rw [k, h]

section
variable {c d : Core} (h : c.OnlyHandOffs d)
include h

theorem Core.OnlyHandOffs.tileData : d.tileData = c.tileData := by rw [h]
theorem Core.OnlyHandOffs.groups : d.groups = c.groups := by rw [h]
theorem Core.OnlyHandOffs.spad : d.spad = c.spad := by rw [h]
end

theorem landGives_onlyHandOffs (other : Option SeqRun) (k : Core) : k.OnlyHandOffs (landGives other k) := by
  cases hr : k.seqRun with
  | none => rw [landGives_none other hr]; rfl
  | some r =>
    have hfold : ∀ ps : List (Nat × Nat), k.OnlyHandOffs (ps.foldl (fun k p => k.setTile p.1 (k.tile p.1).landed) k) := fun ps =>
      List.foldlRecOn (motive := k.OnlyHandOffs) ps _ rfl fun c hc p _ => hc.trans rfl
    rw [landGives_eq other hr]
    exact (hfold _).trans rfl

theorem landSides_eq (s : State) (core : Nat) : landSides s core =
    match otherCore s core with
    | none => s.mapCore core (landGives (otherSide s core))
    | some m => (s.mapCore core (landGives (otherSide s core))).mapCore m
        (landGives ((s.mapCore core (landGives (otherSide s core))).core core).seqRun) := rfl

/-- On every core, landing moves hand-off bits and what the clause has still to land. -/
theorem landSides_onlyHandOffs (s : State) (core n : Nat) : (s.core n).OnlyHandOffs ((landSides s core).core n) := by
  have hmap : ∀ (u : State) (m : Nat) (other : Option SeqRun), (u.core n).OnlyHandOffs ((u.mapCore m (landGives other)).core n) := by
    intro u m other
    by_cases h : n = m
    · subst h
      rw [State.core_mapCore_same]
      exact landGives_onlyHandOffs other _
    · rw [State.core_mapCore_other _ _ _ _ h]
      rfl
  rw [landSides_eq]
  cases otherCore s core with
  | none => exact hmap _ _ _
  | some m => exact (hmap _ _ _).trans (hmap _ _ _)

/-- Only the two sides of the clause are touched. -/
theorem landSides_core_other {s : State} {core n : Nat} (h : n ≠ core) (ho : otherCore s core ≠ some n) :
    (landSides s core).core n = s.core n := by
  rw [landSides_eq]
  cases hm : otherCore s core with
  | none => exact State.core_mapCore_other _ _ _ _ h
  | some m =>
    have hne : n ≠ m := fun e => ho (by rw [hm, e])
    exact (State.core_mapCore_other _ _ _ _ hne).trans (State.core_mapCore_other _ _ _ _ h)

theorem landSides_onlyCores (s : State) (core : Nat) : OnlyCores s (landSides s core) := by
  rw [landSides_eq]
  cases otherCore s core <;> rfl

/-! ## What a writeback leaves (R232) -/

section
variable (b : Writeback)

/-- The words of a writeback, from the first byte of its pair on, in the order of its layout. -/
def pairWords : List Word :=
  if b.acl then (List.range 4096).map fun k => nth 0#32 b.data (k % 2048 / 32 * 64 + 32 * (k / 2048) + k % 32) else b.data

/-- The bytes of a writeback in the order of their addresses. -/
def pairBytes : List Byte := (pairWords b).flatMap fun w => bytesOfNat 4 w.toNat

theorem writebackCells_eq :
    writebackCells b = ((pairBytes b).mapIdx fun i v => (2 * b.pair * 8192 + i, v)).filter fun c => c.2 ≠ 0#8 := rfl

theorem writebackCells_wf : (writebackCells b).wf = true := by
  rw [writebackCells_eq]
  exact cellWfFrom_run _ none _ (by simp)

variable {b} (hb : b.data.length = 4096)
include hb

theorem length_pairBytes : (pairBytes b).length = 16384 := by
  have hwords : (pairWords b).length = 4096 := by
    unfold pairWords
    split
    · rw [List.length_map, List.length_range]
    · exact hb
  have hbytes : (pairBytes b).length = (pairWords b).length * 4 := by simp [pairBytes, List.length_flatMap]
  rw [hbytes, hwords]

/-- A writeback of 4,096 words stays within its pair of tiles. -/
theorem writebackCells_range {p : Host.Cell} (hp : p ∈ writebackCells b) :
    2 * b.pair * 8192 ≤ p.1 ∧ p.1 < 2 * b.pair * 8192 + 16384 := by
  rw [writebackCells_eq] at hp
  obtain ⟨i, hi, rfl⟩ := mem_cellsAt.1 (List.mem_filter.1 hp).1
  rw [length_pairBytes hb] at hi
  exact ⟨Nat.le_add_right _ _, Nat.add_lt_add_left hi _⟩
end

/-! ## The statement -/

/-- Settles O27: an issue by its checks and its words, what completes by the oldest of its kind, and the frame of a writeback by
the range of its pair and by what the landing of tiles leaves. -/
theorem sequencerIssueAndResults : Obligations.SequencerIssueAndResults := by
  unfold Obligations.SequencerIssueAndResults
  refine ⟨⟨?issue, ?writeback, ?signals⟩, ?frame⟩
  case issue =>
    intro s run l b hr hl hb hrole hstop hlen hpred hphase c
    rw [exec_seqIssue]
    exact ⟨fun w k h => congrArg _ (seqIssue_stops hr hl hb hrole hstop hlen hphase h),
      fun h1 hcond h2 => congrArg _ (seqIssue_acts hr hl hb hrole hstop hlen hphase hpred h1 hcond h2)⟩
  case writeback =>
    intro s r b bs hr hw
    rw [exec_passWritebackLand, landWriteback_oldest hr hw]
    rfl
  case signals =>
    intro s r n g gs hr hg hb hf rest
    have hnext := nextSignal_oldest hr hg hb hf
    have hrest : dropSignal s s.sel.core = rest := dropSignal_oldest hr hg
    refine ⟨fun j v hadd => ?_, fun j hbar => ?_, fun t hdone hroom => ?_⟩
    · rw [exec_xsigApply_add (hadd ▸ hnext), hrest]
    · rw [exec_xsigApply_bar (hbar ▸ hnext), hrest]
    · rw [exec_xendPush_room (hdone ▸ hnext) hroom, hrest]
      rfl
  case frame =>
    intro s t r b bs hr hw hlen hwf ht
    rw [exec_passWritebackLand, landWriteback_oldest hr hw] at ht
    cases ht
    have hland := landSides_onlyHandOffs (writtenBack s s.sel.core r b bs) s.sel.core
    have hself := hland s.sel.core
    rw [writtenBack_core] at hself
    have helse := fun n => writtenBack_core_other s s.sel.core r b bs (n := n)
    refine ⟨fun a ha => ?_, ?_, hself.groups, hself.spad, fun n hn hp => ?_, fun n => ?_, ?_⟩
    · rw [hself.tileData]
      exact Memory.get_splice_other (fun p hp => writebackCells_range hlen hp) ha
    · rw [hself.tileData]
      exact Memory.wf_splice hwf (writebackCells_wf b) _ _ fun p hp => writebackCells_range hlen hp
    · rw [landSides_core_other hn (by rw [otherCore_writtenBack]; exact hp), helse n hn]
    · split
      next h => rw [h]
      next h => rw [(hland n).tileData, helse n h]
    · exact (writtenBack_onlyCores ..).trans (landSides_onlyCores _ _)

end Sys2Proof.Machine
end

section
/-! PROOF. The statement about copies, nests and bindings does not hold as it is said: of a write of any length it asks only that
its first and its last byte have their home on the writer's die, and the homes between the two need not lie there (06 R247,
08 R304, 10 R351). -/

namespace Sys2Proof.Machine

/-! ## A write changes no home of the other die -/

section
variable {d a : Nat} (ha : homeDie a ≠ d)
include ha

/-- Bytes of one home that are written by an agent of a die leave the homes of the other die as they are: they are performed
on that die, or set out over the bridge. -/
theorem writeHome_far {s : State} (hw : s.dram.wf = true) {cells : List Host.Cell}
    (hone : ∀ c ∈ cells, ∀ e ∈ cells, homeDie c.1 = homeDie e.1) (mask : BitVec 32) (ref : AckRef) :
    (writeHome s d cells mask ref).dram.wf = true ∧ (writeHome s d cells mask ref).dram.get a = s.dram.get a := by
  unfold writeHome
  split
  next => exact ⟨hw, rfl⟩
  next c cs =>
    split
    next hc =>
      rw [(afterHome_served ..).dram, performHome_dram]
      exact ⟨Memory.wf_putCells hw _, Memory.get_putCells_other _ hw fun e he hea =>
        ha (by rw [← hea, ← hone c List.mem_cons_self e he, hc])⟩
    next =>
      rw [(sendMsg_served ..).dram]
      exact ⟨hw, rfl⟩

theorem writeHomes_far (ref : AckRef) : ∀ (ps : List (List Host.Cell × BitVec 32)) {s : State}, s.dram.wf = true →
    (∀ p ∈ ps, ∀ c ∈ p.1, ∀ e ∈ p.1, homeDie c.1 = homeDie e.1) → (writeHomes s d ref ps).dram.get a = s.dram.get a
  | [], _, _, _ => rfl
  | [p], _, hw, h => (writeHome_far ha hw (h p List.mem_cons_self) p.2 ref).2
  | p :: q :: ps, _, hw, h => by
    obtain ⟨hp, hps⟩ := List.forall_mem_cons.1 h
    obtain ⟨hwf, hget⟩ := writeHome_far ha hw hp p.2 .none
    exact (writeHomes_far ref (q :: ps) hwf hps).trans hget

/-- The lines of a write have one home each. -/
theorem writeCells_far {s : State} (hw : s.dram.wf = true) (cells : List Host.Cell) (ref : AckRef) :
    (writeCells s d cells ref).dram.get a = s.dram.get a := by
  refine writeHomes_far ha ref _ hw fun p hp c hc e he => ?_
  obtain ⟨cs, hcs, rfl⟩ := List.mem_map.1 hp
  obtain ⟨n, -, rfl⟩ := List.mem_map.1 hcs
  have hline : ∀ c ∈ cells.filter (fun c => lineOf c.1 == n), homeDie c.1 = homeDie n := fun c hc => by
    rw [← beq_iff_eq.1 (List.mem_filter.1 hc).2, homeDie_lineOf]
  rw [hline c hc, hline e he]
end

/-! ## The counterexample -/

/-- Refutes O31: its fifth part says that a write by die 0 puts every byte at its home when the first and the last byte have
theirs on die 0. A write of 2^46 + 2 bytes from the last byte of die 0's first 2^46 on ends on die 0 again, and has all the 2^46
addresses of die 1 between; of those no byte is written, for they set out over the bridge. At reset the byte at 2^46 stays 0 where
the statement has 1. -/
theorem not_copiesNestsAndBindings : ¬ Obligations.CopiesNestsAndBindings := by
  rintro ⟨-, -, -, -, hwrite, -⟩
  obtain ⟨bs, hlen, hbyte⟩ : ∃ bs : List Byte, bs.length = 2 ^ 46 + 2 ∧ nth 0#8 bs 1 = 1#8 :=
    ⟨List.replicate (2 ^ 46 + 2) 1#8, List.length_replicate,
      nth_of_getElem? (List.getElem?_replicate_of_lt (by norm_num))⟩
  have hne : bs ≠ [] := List.ne_nil_of_length_pos (by rw [hlen]; norm_num)
  obtain ⟨hnear, -⟩ := hwrite State.reset 0 (2 ^ 46 - 1) bs .none rfl (by decide) hne
  have hsaid := hnear (by decide) (by rw [hlen]; decide) (2 ^ 46)
  rw [if_pos ⟨by norm_num, by rw [hlen]; norm_num⟩, show 2 ^ 46 - (2 ^ 46 - 1) = 1 by norm_num, hbyte,
    writeCells_far (by decide) rfl] at hsaid
  exact absurd hsaid (by decide)

end Sys2Proof.Machine
end

section
/-! PROOF. What class E instructions give to engines and queues, and the trap of TRAP (06 R245, R249, R262, R266, 01 R25). -/

namespace Sys2Proof.Machine

/-! ## Engine instructions (R245, R249) -/

/-- A command is withheld in a predicted clause, waits at a full queue, and else stands in its engine's queue. -/
theorem settleAct_pushCommand (s : State) (x : Issuer) (i : Instr) (k : EngCmd) :
    settleAct s x i (pushCommand s x k) =
      match x.g.predicted with
      | some p => goesOn (holdItem s x p (.cmd (engineOf k.op) k)) x i
      | none =>
        if (s.core x.core).cmdFull k then s
        else goesOn (usesFabric (s.setCore x.core (((s.core x.core).pushCmd k).tick)) k) x i := by
  unfold pushCommand
  cases x.g.predicted with
  | some p => rfl
  | none =>
    cases hfull : (s.core x.core).cmdFull k <;> simp only [hfull, if_true, Bool.false_eq_true, if_false] <;> rfl

/-- The command that an engine instruction makes: what it reads at issue, with the next place in the core's order. -/
def issuedCmd (s : State) (x : Issuer) (i : Instr) (op : EngOp) (w : Base) (e : Option ExtR) : EngCmd :=
  freshCmd op x.l.id x.b.index x.slot (s.core x.core).nextId (siteOf x i).base (siteOf x i).ext (x.g.sreg w.d.toNat)
    (x.g.sreg w.a.toNat) (x.g.sreg w.b.toNat) (match e with | some r => x.g.sreg r.c.toNat | none => 0#64)
    (match e with | some _ => x.g.sreg (w.d.toNat + 1) | none => 0#64)

/-- In either layout the instruction pushes its command. -/
theorem engineForm_executes {s : State} {x : Issuer} {i : Instr} {op : EngOp} {w : Base} {e : Option ExtR}
    (hi : engineForm i = some (op, w, e)) (h : Executes s x i) :
    exec i s = .next (settleAct s x i (pushCommand s x (issuedCmd s x i op w e))) := by
  cases e with
  | none => rw [engineFormC_exec hi, engineC_, runInstr_executes h]; rfl
  | some r => rw [engineFormR_exec hi, engineR_, runInstr_executes h]; rfl

/-- Settles O28: an engine instruction pushes its command, by what becomes of a command that is pushed. -/
theorem engineInstructionsPushACommand : Obligations.EngineInstructionsPushACommand := by
  intro s x i op w e hi h c k
  have hx : exec i s = .next (settleAct s x i (pushCommand s x k)) := engineForm_executes hi h
  rw [hx, settleAct_pushCommand]
  refine ⟨fun hp hroom => ?_, fun hp hfull => ?_, fun p hp => ?_⟩
  · rw [hp]
    exact congrArg _ (if_neg (Bool.eq_false_iff.1 hroom))
  · rw [hp]
    exact congrArg _ (if_pos hfull)
  · rw [hp]
    rfl

/-! ## QPUSH and QPOP (R262, 01 R25) -/

theorem popOnly_iff (q : Nat) : popOnly q = true ↔ q ∈ [1, 3, 5, 6, 7] := by simp [popOnly, or_assoc]
theorem pushOnly_iff (q : Nat) : pushOnly q = true ↔ q ∈ [0, 2, 4] := by simp [pushOnly, or_assoc]

/-- The queue that a word's B field names. -/
def queueOf (w : Base) : Nat := (w.b.extractLsb' 0 4).toNat

theorem queueOf_eq (w : Base) : queueOf w = w.b.toNat % 16 := by simp [queueOf, BitVec.extractLsb'_toNat]

/-- What QPUSH pushes: S[A], or the elected lane's value. -/
def pushValue (s : State) (x : Issuer) (w : Base) (e : ExtR) (l : Nat) : DWord :=
  if e.sa then x.g.sreg w.a.toNat
  else if e.type = 7#5 then pair (vget s x w.a.toNat l) (vget s x (w.a.toNat + 1) l)
  else (vget s x w.a.toNat l).setWidth 64

section
variable {s : State} {x : Issuer} {i : Instr} {w : Base} (e : ExtR) (h : Executes s x i)
include h

/-- A queue that groups may only pop takes no push. -/
theorem qpush_refused (hq : popOnly (queueOf w) = true) : qpush s i w e = .next (instrTrap s x i .queueFault 0 0#32) := by
  rw [qpush, runInstr_executes h]
  simp only [queueOf] at hq
  simp only [hq, if_true]
  rfl

/-- Outside a predicted clause an entry enters a queue with room; else its push holds the scheduler before an engine's queue,
and leaves the group waiting before one between groups. -/
theorem qpush_executes (hq : popOnly (queueOf w) = false) (hp : x.g.predicted = none) :
    let v := pushValue s x w e (elect (activeOf x i))
    qpush s i w e = .next
      (if (s.core x.core).queueFull (queueOf w) = false then
        goesOn (s.setCore x.core (pushEntry (s.core x.core) x (queueOf w) v)) x i
       else if pushOnly (queueOf w) then s
       else waitsBehind (setWait s x.core x.slot (.push (queueOf w) v)) x i) := by
  intro v
  rw [qpush, runInstr_executes h]
  simp only [queueOf] at hq
  simp only [hq, hp, Bool.false_eq_true, if_false, Bool.not_eq_true']
  congr 1
  change settleAct s x i (if (s.core x.core).queueFull (queueOf w) = false then _ else if pushOnly (queueOf w) then _ else _) = _
  split
  · rfl
  · split <;> rfl

theorem qpop_refused (hq : pushOnly (queueOf w) = true) : qpop s i w e = .next (instrTrap s x i .queueFault 0 0#32) := by
  rw [qpop, runInstr_executes h]
  simp only [queueOf] at hq
  simp only [hq, if_true]
  rfl

/-- Where a pop's entry will land. -/
theorem qpop_executes (hq : pushOnly (queueOf w) = false) :
    qpop s i w e = .next (goesOn ((s.mapGroup x.core x.slot fun g => g.addPend (s.core x.core).nextId
      (.pop (queueOf w) { scalar := e.sd, wide := e.type == 7#5, reg := w.d.toNat, lanes := activeOf x i, win := x.g.winmap })).mapCore
        x.core Core.tick) x i) := by
  rw [qpop, runInstr_executes h]
  simp only [queueOf] at hq
  simp only [hq, Bool.false_eq_true, if_false]
  rfl
end

/-- Settles O32: the queue decides, by the side of it that groups may use and by its room. -/
theorem queueInstructions : Obligations.QueueInstructions := by
  intro s x i push w e hi h
  rw [← queueOf_eq w]
  intro q l c v
  have hpop : queueOf w ∉ [1, 3, 5, 6, 7] → popOnly (queueOf w) = false := fun hq => Bool.eq_false_iff.2 (mt (popOnly_iff _).1 hq)
  have hpush : queueOf w ∉ [0, 2, 4] → pushOnly (queueOf w) = false := fun hq => Bool.eq_false_iff.2 (mt (pushOnly_iff _).1 hq)
  refine ⟨fun hb hq hp hroom => ?enters, fun hb hq hp hfull => ?waits, fun hb hq => ?refused, fun hb hq => ?pends,
    fun hb hq => ?refused'⟩ <;> subst hb
  case enters =>
    rw [queueFormPush_exec hi, qpush_executes e h (hpop hq) hp, if_pos hroom]
    rfl
  case waits =>
    rw [queueFormPush_exec hi, qpush_executes e h (hpop hq) hp, if_neg (by rw [hfull]; decide)]
    simp only [pushOnly_iff]
    rfl
  case refused => rw [queueFormPush_exec hi, qpush_refused e h ((popOnly_iff _).2 hq)]
  case pends => rw [queueFormPop_exec hi, qpop_executes e h (hpush hq)]
  case refused' => rw [queueFormPop_exec hi, qpop_refused e h ((pushOnly_iff _).2 hq)]

/-! ## TRAP (R266) -/

/-- Settles O60: the trap of the instruction at hand, and the fields of its TRAP_CAUSE. -/
theorem trapInstructionRecordsItsCode : Obligations.TrapInstructionRecordsItsCode := by
  intro s x w e
  refine ⟨fun h => ⟨_, trap_executes h, rfl, ?_⟩, fun h hm => ?_⟩
  · obtain ⟨hcause, hword, hchain, -, -, -, -, -, -, hinfo⟩ := Trap.causeWord_fields
      { Trap.plain .userTrap with
        word := BitVec.ofNat 4 (siteOf x (.trap w e)).wordIx, chain := x.run.chained, reason := BitVec.ofNat 4 0
        info := e.imm.setWidth 32, words := (siteOf x (.trap w e)).base ++ (siteOf x (.trap w e)).hdr
        view := issueView s x (.trap w e) }
    refine ⟨hcause, hword, hchain, ?_⟩
    have hcode : ∀ c : DWord, c.extractLsb' 32 24 = (c.extractLsb' 32 32).setWidth 24 := fun c => by ext j hj; simp; omega
    rw [hcode, hinfo]
    exact BitVec.eq_of_toNat_eq (by simp)
  · rw [exec_trap, userTrap, runInstr_masked h hm]

end Sys2Proof.Machine
end

section
/-! PROOF. Commands that set objects: KV contexts, route tables, windows, partitions, the fabric and the aperture (07 R269, R292,
11 R370 to R379, R390). -/

namespace Sys2Proof.Machine

/-! ## A command taken and answered (R383) -/

/-- A command that is performed without awaiting anything answers what its performance gives. -/
theorem exec_command {s t : State} {i : Instr} {op : Nat} {st : Byte} {bs : List Byte}
    (hi : commandForm s i = some (op, s.sel.bytes)) (h : Accepts s op s.sel.bytes)
    (hr : perform s s.sel.master op s.sel.bytes s.sel.pick = { s := t, status := st, payload := bs })
    (hm : t.modeChange = none) (hop : op ≠ 0x40) : exec i s = .next (answered s t st bs) := by
  have hno : ¬(op = 0x40 ∧ field s.sel.bytes 0 1 = 1 ∧ st = 0#8) := fun ⟨e, _⟩ => hop e
  rw [commandForm_exec hi, runCommand_accepts h, hr]
  simp only [hm, Option.isSome_none, Bool.false_eq_true, if_false, afterAnswer, if_neg hno]

/-- A command that leaves a change of mode under way is answered later (R375). -/
theorem exec_command_later {s t : State} {i : Instr} {op : Nat} (hi : commandForm s i = some (op, s.sel.bytes))
    (h : Accepts s op s.sel.bytes) (hr : perform s s.sel.master op s.sel.bytes s.sel.pick = okReply t)
    (hm : t.modeChange.isSome = true) : exec i s = .next t := by
  rw [commandForm_exec hi, runCommand_accepts h, hr]
  simp only [okReply, hm, if_true]

/-! ## What the loss of devices and links leaves of a change of mode (R371, R372, R375) -/

/-- What every step of a fold keeps, the fold keeps. -/
theorem foldl_keeps {σ α β : Type} (p : σ → β) {f : σ → α → σ} (hf : ∀ s x, p (f s x) = p s) (xs : List α) (s : σ) :
    p (xs.foldl f s) = p s :=
  List.foldlRecOn xs f (motive := fun t => p t = p s) rfl fun t h x _ => (hf t x).trans h

@[simp] theorem State.mapCmd_modeChange (s : State) (core : Nat) (e : Engine) (id : Nat) (f : EngCmd → EngCmd) :
    (s.mapCmd core e id f).modeChange = s.modeChange := rfl

@[simp] theorem State.mapPort_modeChange (s : State) (n : Nat) (f : HostPort → HostPort) :
    (s.mapPort n f).modeChange = s.modeChange := by unfold State.mapPort; split <;> rfl

@[simp] theorem State.send_modeChange (s : State) (o : Output) : (s.send o).modeChange = s.modeChange := rfl

@[simp] theorem raiseVector_modeChange (s : State) (port : Nat) (ctl : Word) :
    (raiseVector s port ctl).modeChange = s.modeChange := by
  simp only [raiseVector]
  split
  · rfl
  · split
    · exact State.mapPort_modeChange _ _ _
    · rfl

@[simp] theorem ringWrite_modeChange (s : State) (n : Nat) (r : List Byte) : (ringWrite s n r).modeChange = s.modeChange := by
  simp only [ringWrite]
  split <;> simp

@[simp] theorem postEvent_modeChange (s : State) (type : Nat) (body : List Byte) :
    (postEvent s type body).modeChange = s.modeChange := by
  simp only [postEvent]
  split <;> simp

@[simp] theorem postLink_modeChange (s : State) (n : Nat) : (postLink s n).modeChange = s.modeChange := by
  unfold postLink
  split <;> simp

@[simp] theorem lateFault_modeChange (s : State) (core slot id : Nat) (f : LateFault) :
    (lateFault s core slot id f).modeChange = s.modeChange := by rw [(lateFault_onward s core slot id f).outside]

@[simp] theorem sendDone_modeChange (s : State) (core d w n : Nat) : (sendDone s core d w n).modeChange = s.modeChange := by
  unfold sendDone
  split <;> rfl

@[simp] theorem putStep_fault_modeChange (s : State) (core : Nat) (k : EngCmd) (c : Cause) :
    (putStep s core k (.fault c)).modeChange = s.modeChange := rfl

@[simp] theorem dropPuts_modeChange (s : State) (p : PutMsg → Bool) : (dropPuts s p).modeChange = s.modeChange := by
  unfold dropPuts
  refine (foldl_keeps State.modeChange (fun s q => ?_) _ _).trans rfl
  split
  case h_1 => split <;> rfl
  case h_2 core slot id _ _ =>
    have hlate : (q.late.foldl (fun s f => lateFault s core slot id f) s).modeChange = s.modeChange :=
      foldl_keeps State.modeChange (fun s f => lateFault_modeChange s core slot id f) _ s
    simp only
    split
    · exact hlate
    · split
      · exact hlate
      · split
        · exact hlate
        · rw [sendDone_modeChange, hlate]
  case h_3 => rfl

@[simp] theorem faultPorts_modeChange (s : State) : (faultPorts s).modeChange = s.modeChange := by
  unfold faultPorts
  refine foldl_keeps State.modeChange (fun s q => foldl_keeps State.modeChange (fun s k => ?_) _ s) _ s
  simp only
  split <;> rfl

@[simp] theorem loseDevices_modeChange (s : State) : (loseDevices s).modeChange = s.modeChange := by
  simp [loseDevices, faultChoices]

@[simp] theorem linkDown_modeChange (s : State) (n : Nat) : (linkDown s n).modeChange = s.modeChange := by
  unfold linkDown
  split
  · rfl
  · split
    · rfl
    · simp [loseFlits, setLink]

@[simp] theorem retrain_modeChange (s : State) (n : Nat) (l : Link) : (retrain s n l).modeChange = s.modeChange := by
  simp only [retrain, postLink_modeChange, setLink]
  split <;> simp [loseForeign]

@[simp] theorem rekeyLinks_modeChange (s : State) : (rekeyLinks s).modeChange = s.modeChange := by
  unfold rekeyLinks
  refine foldl_keeps State.modeChange (fun s n => ?_) _ s
  split
  · rfl
  · split
    · rfl
    · exact retrain_modeChange _ _ _

/-! ## KV contexts and route tables -/

section
variable {s : State} {p : List Byte}

/-- The context that KV_CREATE adds (Table 7.1). -/
def newContext (id : Nat) (p : List Byte) : KvContext :=
  { id := id, nseq := field p 0 4, nhead := field p 4 2, headDim := field p 6 2, capacity := field p 8 4
    defaultEnc := BitVec.ofNat 11 (field p 0x0C 2), nstate := field p 0x0E 2, stateElems := field p 0x10 2
    draftStates := field p 0x12 1, pool := field p 0x14 4, held := 0, lens := [], entries := [], committed := []
    windows := List.replicate 16 KvWindow.closed, requants := [], returns := [] }

theorem newContext_window (id : Nat) (p : List Byte) (w : Nat) : (newContext id p).window w = KvWindow.closed :=
  nth_replicate_default KvWindow.closed 16 w

theorem newContext_held (id : Nat) (p : List Byte) (seq : Nat) : (newContext id p).held? seq = false := by
  simp [KvContext.held?, newContext, KvWindow.holds, KvWindow.closed]

theorem cmdKvCreate_ok {pick id : Nat} (hz : zeros p 0x13 1 = true) (hl : kvLimits p = true)
    (hid : freshId (s.kvs.map fun k => k.id) pick = some id) : cmdKvCreate s p pick =
      { s := { s with kvs := s.kvs ++ [newContext id p] }, status := 0#8, payload := bytesOfNat 2 id ++ [0#8, 0#8] } := by
  simp only [cmdKvCreate, hz, hl, hid, Bool.not_true, Bool.false_eq_true, if_false]
  rfl

theorem cmdKvDestroy_ok (hz : zeros p 2 2 = true) (hk : ∃ k ∈ s.kvs, k.id = field p 0 2)
    (hn : named s (fun r => r.kvContext == field p 0 2) = false) :
    cmdKvDestroy s p = okReply { s with kvs := s.kvs.filter fun k => k.id ≠ field p 0 2 } := by
  have hany : (s.kvs.any fun k => k.id == field p 0 2) = true := by simpa using hk
  simp only [cmdKvDestroy, hz, hany, hn, Bool.not_true, Bool.false_eq_true, if_false]

theorem cmdKvPool_ok {k : KvContext} (hz : zeros p 2 2 = true) (h0 : field p 4 4 ≠ 0) (hk : s.kv? (field p 0 2) = some k)
    (hn : k.entries.length + k.held ≤ field p 4 4) :
    cmdKvPool s p = okReply (s.mapKv (field p 0 2) fun k => { k with pool := field p 4 4 }) := by
  simp only [cmdKvPool, hz, h0, hk, Nat.not_lt.2 hn, Bool.not_true, Bool.false_eq_true, if_false]

theorem cmdRouteCreate_ok {pick id : Nat} (hz : zeros p 1 3 = true) (hn : field p 0 1 ≤ 1) (ht : field p 4 4 ≠ 0)
    (hid : freshId (s.routes.map fun t => t.id) pick = some id) : cmdRouteCreate s p pick =
      { s := { s with routes := s.routes ++ [{ id := id, next := field p 0 1 == 1, timeout := field p 4 4, dests := [] }] }
        status := 0#8, payload := bytesOfNat 2 id ++ [0#8, 0#8] } := by
  have hok : ¬(1 < field p 0 1 ∨ field p 4 4 = 0) := by omega
  simp only [cmdRouteCreate, hz, hok, hid, Bool.not_true, Bool.false_eq_true, if_false]
  rfl

theorem cmdRouteSet_ok {t : RouteTable} {ds : List RouteDest} (h1 : 1 ≤ field p 4 4) (h2 : field p 4 4 ≤ 253)
    (hlen : p.length = 8 + 16 * field p 4 4) (hz : zeros p 2 2 = true)
    (ht : (s.routes.find? fun t => t.id == field p 0 2) = some t) (hd : setDests p (field p 4 4) 8 t.dests = .ok ds) :
    cmdRouteSet s p = okReply (s.mapRoute (field p 0 2) fun t => { t with dests := ds }) := by
  have hok : ¬(field p 4 4 < 1 ∨ 253 < field p 4 4 ∨ p.length ≠ 8 + 16 * field p 4 4 ∨ (!zeros p 2 2) = true) := by
    simp [hz, hlen]
    omega
  simp only [cmdRouteSet, hok, ht, hd, if_false]
  rfl

theorem cmdRouteDestroy_ok (hz : zeros p 2 2 = true) (ht : ∃ t ∈ s.routes, t.id = field p 0 2)
    (hn : named s (fun r => r.routeTable == field p 0 2) = false) :
    cmdRouteDestroy s p = okReply { s with routes := s.routes.filter fun t => t.id ≠ field p 0 2 } := by
  have hany : (s.routes.any fun t => t.id == field p 0 2) = true := by simpa using ht
  simp only [cmdRouteDestroy, hz, hany, hn, Bool.not_true, Bool.false_eq_true, if_false]

/-! ## Windows (R373 to R375) -/

/-- The window that WINDOW_EXPOSE exposes. -/
def newExposure (p : List Byte) : Exposure :=
  { window := field p 0 1, target := field p 8 8, length := 65536 * field p 4 4, rights := field p 1 1
    mask := BitVec.ofNat 256 (field p 0x10 32), fallBack := false, down := false, registrants := [] }

theorem cmdExpose_ok (hz : zeros p 2 2 = true) (hw : field p 0 1 ≤ 63) (hr : field p 1 1 ≤ 7) (h1 : 1 ≤ field p 4 4)
    (h2 : field p 4 4 ≤ 65536) (ht : field p 8 8 % 65536 = 0)
    (hi : rangeInstalled s (field p 8 8) (65536 * field p 4 4) = true) (hf : s.fabricDown = false)
    (he : ∀ e ∈ s.exposures, e.window = field p 0 1 → e.down = true) : cmdExpose s p = okReply
      { s with exposures := (s.exposures.filter fun e => e.window ≠ field p 0 1) ++ [newExposure p] } := by
  have hok : ¬(63 < field p 0 1 ∨ 7 < field p 1 1 ∨ (!inRange (field p 4 4) 1 65536) = true ∨ field p 8 8 % 65536 ≠ 0 ∨
      (!rangeInstalled s (field p 8 8) (65536 * field p 4 4)) = true) := by
    simp [inRange, hi, ht, h1, h2, hw, hr]
  have hfree : (s.exposures.any fun e => e.window == field p 0 1 && !e.down) = false := by
    simpa using he
  simp only [cmdExpose, hz, hok, hf, hfree, Bool.not_true, Bool.false_eq_true, if_false]
  rfl

theorem cmdRegister_ok {x : PeerWindow} (hz : zeros p 2 2 = true) (hw : field p 1 1 ≤ 63)
    (hd : unreachable s (field p 0 1) = false)
    (hx : (s.peers.find? fun x => x.device == field p 0 1 && x.window == field p 1 1) = some x) : cmdRegister s p =
      { s := { s with registrations :=
          (s.registrations.filter fun q => q.device ≠ field p 0 1 ∨ q.window ≠ field p 1 1) ++
            [{ device := field p 0 1, window := field p 1 1, length := x.length, rights := x.rights, fallBack := x.fallBack
               down := false }] }
        status := 0#8
        payload := bytesOfNat 4 (x.length / 65536) ++ bytesOfNat 1 x.rights ++ bytesOfNat 1 x.fallBack.toNat ++ bytesOfNat 2 0 } := by
  simp only [cmdRegister, hz, Nat.not_lt.2 hw, hd, hx, Bool.not_true, Bool.false_eq_true, if_false]

/-- A window has a mode, and every registrant that can be reached is sent it. -/
def sentMode (s : State) (w : Nat) (fall : Bool) : State :=
  (registrantsOf s w).foldl (fun s d => s.send (.windowMode d w fall)) (s.mapExposure w fun e => { e with fallBack := fall })

/-- The mode goes to every registrant; with one to await, the change of mode is under way. -/
theorem cmdWindowMode_ok {m : Nat} (hz : zeros p 2 2 = true) (hw : field p 0 1 ≤ 63) (hf : field p 1 1 ≤ 1)
    (he : ∃ e ∈ s.exposures, e.window = field p 0 1) : cmdWindowMode s p m =
      okReply (if (registrantsOf s (field p 0 1)).isEmpty then sentMode s (field p 0 1) (field p 1 1 == 1)
        else { sentMode s (field p 0 1) (field p 1 1 == 1) with
          modeChange := some { window := field p 0 1, awaiting := registrantsOf s (field p 0 1), master := m, slot := none } }) := by
  have hok : ¬(63 < field p 0 1 ∨ 1 < field p 1 1) := by omega
  have hany : (s.exposures.any fun e => e.window == field p 0 1) = true := by simpa using he
  simp only [cmdWindowMode, hz, hok, hany, Bool.not_true, Bool.false_eq_true, if_false]
  rfl

theorem cmdWindowRemove_exposure (hz : zeros p 3 1 = true) (hw : field p 2 1 ≤ 63) (hk : field p 0 1 = 0) (hd : field p 1 1 = 0)
    (he : ∃ e ∈ s.exposures, e.window = field p 2 1) :
    cmdWindowRemove s p = okReply { s with exposures := s.exposures.filter fun e => e.window ≠ field p 2 1 } := by
  have hany : (s.exposures.any fun e => e.window == field p 2 1) = true := by simpa using he
  have hok : ¬(1 < field p 0 1 ∨ 63 < field p 2 1 ∨ (field p 0 1 = 0 ∧ field p 1 1 ≠ 0)) := by omega
  simp only [cmdWindowRemove, hz, hok, hany, Bool.not_true, Bool.false_eq_true, if_false, if_pos hk, if_true]

theorem cmdWindowRemove_registration (hz : zeros p 3 1 = true) (hw : field p 2 1 ≤ 63) (hk : field p 0 1 = 1)
    (hr : ∃ r ∈ s.registrations, r.device = field p 1 1 ∧ r.window = field p 2 1) : cmdWindowRemove s p =
      okReply { s with registrations := s.registrations.filter fun r => r.device ≠ field p 1 1 ∨ r.window ≠ field p 2 1 } := by
  have hany : (s.registrations.any fun r => r.device == field p 1 1 && r.window == field p 2 1) = true := by simpa using hr
  have hok : ¬(1 < field p 0 1 ∨ 63 < field p 2 1 ∨ (field p 0 1 = 0 ∧ field p 1 1 ≠ 0)) := by omega
  simp only [cmdWindowRemove, hz, Bool.not_true, Bool.false_eq_true, if_false, if_neg hok]
  rw [if_neg (by omega), if_pos hany]

/-! ## Partitions, the fabric and the aperture -/

theorem cmdPartition_ok (hp : ∀ b ∈ p, b.toNat ≤ 3) (hl : ∀ l ∈ s.launches, launchState l = 2) :
    cmdPartition s p = okReply { s with partitions := p.map fun b => b.toNat } := by
  have hbytes : (p.any fun b => decide (3 < b.toNat)) = false := by simpa using hp
  have hidle : (s.launches.any fun l => launchState l != 2) = false := by simpa using hl
  simp only [cmdPartition, hbytes, hidle, Bool.false_eq_true, if_false]

/-- The route map of a FABRIC_CONFIG: the links of each device. -/
def routeMapOf (p : List Byte) : List (List Nat) := (List.range 256).map fun d => (mapEntry p d).filter fun n => n != 255

theorem cmdFabric_ok (hz : zeros p 1 7 = true) (hm : ∀ d, d < 256 → ∀ n ∈ mapEntry p d, n ≤ 17 ∨ n = 255)
    (hid : field p 0 1 = s.device.toNat ∨ unreachable s (field p 0 1) = true) :
    cmdFabric s p = okReply (loseDevices (rekeyLinks { s with
      device := BitVec.ofNat 8 (field p 0 1), partitionKey := BitVec.ofNat 64 (field p 8 8), routeMap := routeMapOf p })) := by
  have hmap : (((List.range 256).map (mapEntry p)).any fun e => e.any fun n => decide (17 < n) && n != 255) = false := by
    simp only [List.any_eq_false, List.mem_map, List.mem_range]
    rintro _ ⟨d, hd, rfl⟩
    simp only [Bool.not_eq_true, List.any_eq_false]
    intro n hn
    have := hm d hd n hn
    simp
    omega
  have hok : ¬(field p 0 1 ≠ s.device.toNat ∧ (!unreachable s (field p 0 1)) = true) := by
    rintro ⟨h1, h2⟩
    rcases hid with h | h
    · exact h1 h
    · rw [h] at h2; cases h2
  simp only [cmdFabric, hz, hmap, hok, Bool.not_true, Bool.false_eq_true, if_false, List.map_map]
  rfl

theorem cmdFabricReset_eq (s : State) : cmdFabricReset s = okReply
    (if s.fabricDown then (List.range 18).foldl linkDown { s with fabricReset := true } else s) := by
  cases h : s.fabricDown <;> simp [cmdFabricReset, h]

theorem cmdAperture_none (h : field p 0 8 = 2 ^ 64 - 1) : cmdAperture s p = okReply { s with aperture := none } := by
  simp only [cmdAperture, h, if_true]

theorem cmdAperture_some (h1 : field p 0 8 % 2 ^ 36 = 0) (h2 : field p 0 8 < 2 ^ 47) :
    cmdAperture s p = okReply { s with aperture := some (field p 0 8) } := by
  have hoff : ¬field p 0 8 = 2 ^ 64 - 1 := by omega
  have hok : ¬(field p 0 8 % 2 ^ 36 ≠ 0 ∨ 2 ^ 47 ≤ field p 0 8) := by omega
  simp only [cmdAperture, hoff, hok, if_false]
end

/-! ## The end of a change of mode (R375) -/

theorem receiveModeAck_modeChange {s : State} {c : ModeChange} (h : s.modeChange = some c) (d w : Nat) :
    (receiveModeAck s d w).modeChange =
      some (if c.window = w then { c with awaiting := c.awaiting.filter fun x => x ≠ d } else c) := by
  have hne : (fun x : Nat => x != d) = fun x => decide (x ≠ d) := funext fun x => by by_cases e : x = d <;> simp [e]
  simp only [receiveModeAck, h, Option.map_some, hne]

/-- A change of mode that awaits none is answered, and leaves the ROM with nothing more to serve. -/
theorem settleRom_answers {s : State} {c : ModeChange} (h : s.modeChange = some c) (ha : c.awaiting = [])
    (hs : c.slot = none) (hr : s.rung = []) : settleRom s =
      { s with modeChange := none, response := some { master := c.master, status := 0#8, payload := [] } } := by
  simp only [settleRom, h, ha, List.filter_nil, List.isEmpty_nil, if_true, endMode, hs, okReply, serveAll, serveRung, hr]

/-! ## The statement -/

/-- Settles O47: each command answers what its performance gives, and none but WINDOW_MODE leaves a change of mode. -/
theorem objectCommands : Obligations.ObjectCommands := by
  intro s p
  refine ⟨fun id h hz hl hid => ?kvCreate, fun h hz hk hn => ?kvDestroy, fun k h hz h0 hk hn => ?kvPool,
    fun id h hz hn ht hid => ?routeCreate, fun t ds h h1 h2 hlen hz ht hd => ?routeSet, fun h hz ht hn => ?routeDestroy,
    fun h hz hw hr h1 h2 ht hi hf he => ?expose, fun x h hz hw hd hx => ?register, fun h hz hw hf he => ?mode,
    fun c hc => ⟨fun d w => receiveModeAck_modeChange hc d w, fun ha hs hr => settleRom_answers hc ha hs hr⟩,
    fun h hz hw => ⟨fun hk hd he => ?removeExposure, fun hk hr => ?removeRegistration⟩, fun h hp hl => ?partition,
    fun maps hmaps h hz hm hid => ?fabric, fun h => ?fabricReset, fun h => ⟨fun hb => ?noAperture, fun h1 h2 => ?aperture⟩⟩
  all_goals have hnone : s.modeChange = none := h.1
  case kvCreate =>
    exact ⟨newContext id p, exec_command rfl h (cmdKvCreate_ok hz hl hid) hnone (by decide), rfl, rfl, rfl, rfl, rfl, rfl, rfl, rfl,
      rfl, rfl, rfl, rfl, rfl, rfl, fun seq => ⟨rfl, newContext_held id p seq⟩, fun _ => rfl, rfl,
      fun w => by rw [newContext_window]; exact ⟨rfl, rfl⟩⟩
  case kvDestroy => exact exec_command rfl h (cmdKvDestroy_ok hz hk hn) hnone (by decide)
  case kvPool => exact exec_command rfl h (cmdKvPool_ok hz h0 hk hn) hnone (by decide)
  case routeCreate => exact exec_command rfl h (cmdRouteCreate_ok hz hn ht hid) hnone (by decide)
  case routeSet => exact exec_command rfl h (cmdRouteSet_ok h1 h2 hlen hz ht hd) hnone (by decide)
  case routeDestroy => exact exec_command rfl h (cmdRouteDestroy_ok hz ht hn) hnone (by decide)
  case expose => exact exec_command rfl h (cmdExpose_ok hz hw hr h1 h2 ht hi hf he) hnone (by decide)
  case register => exact exec_command rfl h (cmdRegister_ok hz hw hd hx) hnone (by decide)
  case mode =>
    have hcmd := cmdWindowMode_ok (m := s.sel.master) hz hw hf he
    refine ⟨fun hempty => ?_, fun hne => ?_⟩
    · rw [sentMode, hempty] at hcmd
      exact exec_command rfl h hcmd hnone (by decide)
    · rw [if_neg (mt List.isEmpty_iff.1 hne)] at hcmd
      exact exec_command_later rfl h hcmd rfl
  case removeExposure => exact exec_command rfl h (cmdWindowRemove_exposure hz hw hk hd he) hnone (by decide)
  case removeRegistration => exact exec_command rfl h (cmdWindowRemove_registration hz hw hk hr) hnone (by decide)
  case partition => exact exec_command rfl h (cmdPartition_ok hp hl) hnone (by decide)
  case fabric =>
    subst hmaps
    exact exec_command rfl h (cmdFabric_ok hz hm hid) (by rw [loseDevices_modeChange, rekeyLinks_modeChange]; exact hnone) (by decide)
  case fabricReset =>
    refine exec_command rfl h (cmdFabricReset_eq s) ?_ (by decide)
    split
    · exact (foldl_keeps State.modeChange linkDown_modeChange _ _).trans hnone
    · exact hnone
  case noAperture => exact exec_command rfl h (cmdAperture_none hb) hnone (by decide)
  case aperture => exact exec_command rfl h (cmdAperture_some h1 h2) hnone (by decide)

end Sys2Proof.Machine
end

section
/-! PROOF. ROUTE, RRET, RXWAIT, RXSTAT, AMERGE and SMXUP, and the values of the online softmax step (07 R289, R290, R295, R297,
R299). -/

namespace Sys2Proof.Machine

/-! ## The order of numbers, −0 below +0 (04 R154) -/

/-- A signed significand at a lower exponent is a multiple of the one at a higher exponent. -/
theorem alignTo_lower (s : Bool) (m : Nat) {e a b : Int} (hab : b ≤ a) (ha : a ≤ e) :
    alignTo s m e b = alignTo s m e a * 2 ^ (a - b).toNat := by
  have hsum : (e - b).toNat = (e - a).toNat + (a - b).toNat := by omega
  cases s <;> simp [alignTo, hsum, pow_add, mul_assoc]

theorem alignTo_eq_zero {s : Bool} {m : Nat} {e a : Int} : alignTo s m e a = 0 ↔ m = 0 := by
  cases s <;> simp [alignTo]

theorem Num.isZero_fin {s : Bool} {m : Nat} {e b : Int} : Num.isZero (.fin s m e) = true ↔ alignTo s m e b = 0 := by
  rw [alignTo_eq_zero]
  cases m <;> simp [Num.isZero]

/-- Finite numbers compare as their significands do at any exponent not above either; zeros as their signs do. -/
theorem Num.ltz_fin {s t : Bool} {m n : Nat} {e f b : Int} (he : b ≤ e) (hf : b ≤ f) :
    Num.ltz (.fin s m e) (.fin t n f) = true ↔ alignTo s m e b < alignTo t n f b ∨
      (alignTo s m e b = 0 ∧ alignTo t n f b = 0 ∧ s = true ∧ t = false) := by
  have hpos : (0 : Int) < 2 ^ (min e f - b).toNat := by positivity
  have hlt : Num.lt (.fin s m e) (.fin t n f) = true ↔ alignTo s m e b < alignTo t n f b := by
    rw [alignTo_lower s m (le_min he hf) (min_le_left e f), alignTo_lower t n (le_min he hf) (min_le_right e f),
      mul_lt_mul_iff_left₀ hpos]
    simp [Num.lt]
  simp [Num.ltz, hlt, Num.isZero_fin (b := b), Num.sign, and_assoc]

theorem Num.ltz_asymm {a b : Num} (h : a.ltz b = true) : b.ltz a = false := by
  rw [Bool.eq_false_iff]
  intro h'
  cases a with
  | nan => simp [Num.ltz, Num.lt, Num.isZero] at h
  | inf s => cases b <;> simp_all [Num.ltz, Num.lt, Num.isZero]
  | fin s m e =>
    cases b with
    | nan => simp [Num.ltz, Num.lt, Num.isZero] at h
    | inf t => simp_all [Num.ltz, Num.lt, Num.isZero]
    | fin t n f =>
      rw [Num.ltz_fin (min_le_left e f) (min_le_right e f)] at h
      rw [Num.ltz_fin (min_le_right e f) (min_le_left e f)] at h'
      cases s <;> cases t <;> simp at h h' <;> omega

theorem Num.ltz_irrefl (a : Num) : a.ltz a = false := by
  rw [Bool.eq_false_iff]
  intro h
  rw [Num.ltz_asymm h] at h
  cases h

/-- A number that is not NaN lies above one or below the other of two in order. -/
theorem Num.ltz_split {a b c : Num} (h : a.ltz c = true) (hb : b.isNan = false) : a.ltz b = true ∨ b.ltz c = true := by
  cases b with
  | nan => cases hb
  | inf t => cases a <;> cases c <;> cases t <;> simp_all [Num.ltz, Num.lt, Num.isZero]
  | fin t n f =>
    cases a with
    | nan => simp [Num.ltz, Num.lt, Num.isZero] at h
    | inf s => cases c <;> simp_all [Num.ltz, Num.lt, Num.isZero]
    | fin s m e =>
      cases c with
      | nan => simp [Num.ltz, Num.lt, Num.isZero] at h
      | inf u => exact .inr (by simpa [Num.ltz, Num.lt, Num.isZero] using h)
      | fin u k g =>
        have h1 : min e (min f g) ≤ e := min_le_left _ _
        have h2 : min e (min f g) ≤ f := (min_le_right _ _).trans (min_le_left _ _)
        have h3 : min e (min f g) ≤ g := (min_le_right _ _).trans (min_le_right _ _)
        rw [Num.ltz_fin h1 h3] at h
        rw [Num.ltz_fin h1 h2, Num.ltz_fin h2 h3]
        cases s <;> cases t <;> cases u <;> simp at h ⊢ <;> omega

/-- The running maximum of patterns, as SMXUP forms it (R289). -/
def runMax (m : Nat) (ts : List Nat) : Nat :=
  ts.foldl (fun (best : Nat) t => if (dec .fp32 best).ltz (dec .fp32 t) then t else best) m

theorem runMax_mem (ts : List Nat) : ∀ m, runMax m ts ∈ m :: ts := by
  induction ts with
  | nil => simp [runMax]
  | cons t ts ih =>
    intro m
    have h := ih (if (dec .fp32 m).ltz (dec .fp32 t) then t else m)
    rw [runMax, List.foldl_cons, ← runMax]
    revert h
    split <;> intro h <;> rcases List.mem_cons.1 h with h | h <;> simp [h]

/-- No pattern lies above the maximum, where none is NaN. -/
theorem runMax_ge (ts : List Nat) : ∀ m, (∀ t ∈ m :: ts, (dec .fp32 t).isNan = false) →
    ∀ t ∈ m :: ts, (dec .fp32 (runMax m ts)).ltz (dec .fp32 t) = false := by
  induction ts with
  | nil =>
    intro m _ t ht
    rw [List.mem_singleton.1 ht]
    exact Num.ltz_irrefl _
  | cons t ts ih =>
    intro m hn
    have hm : (dec .fp32 m).isNan = false := hn m (by simp)
    have ht : (dec .fp32 t).isNan = false := hn t (by simp)
    have hts : ∀ u ∈ ts, (dec .fp32 u).isNan = false := fun u hu => hn u (by simp [hu])
    rw [runMax, List.foldl_cons, ← runMax]
    by_cases hlt : (dec .fp32 m).ltz (dec .fp32 t) = true
    · rw [if_pos hlt]
      have h := ih t (List.forall_mem_cons.2 ⟨ht, hts⟩)
      have htop := h t List.mem_cons_self
      refine List.forall_mem_cons.2 ⟨Bool.eq_false_iff.2 fun hc => ?_, h⟩
      rcases Num.ltz_split hc ht with h' | h'
      · rw [htop] at h'; cases h'
      · rw [Num.ltz_asymm hlt] at h'; cases h'
    · rw [if_neg hlt]
      have h := ih m (List.forall_mem_cons.2 ⟨hm, hts⟩)
      have htop := h m List.mem_cons_self
      refine List.forall_mem_cons.2 ⟨htop, List.forall_mem_cons.2 ⟨Bool.eq_false_iff.2 fun hc => ?_, fun u hu => h u (by simp [hu])⟩⟩
      rcases Num.ltz_split hc hm with h' | h'
      · rw [htop] at h'; cases h'
      · exact hlt h'

/-! ## A row of SMXUP (R289) -/

theorem expDiff_negInf (f : FFmt) {x : Nat} (y : Nat) (h : dec .fp32 x = .inf true) : expDiff f x y = 0 := by
  simp only [expDiff, h]

theorem expDiff_fin (f : FFmt) {x y : Nat} {s : Bool} {m : Nat} {e : Int} (hx : dec .fp32 x ≠ .inf true)
    (h : Num.add false (dec .fp32 x) (dec .fp32 y).neg = .fin s m e) : expDiff f x y =
      exp2In f .std (Config.expValue (match f with | .fp32 => 0 | .bf16 => 1 | _ => 2) (BitVec.ofNat 32 x) (BitVec.ofNat 32 y)).toNat
        s m e := by
  unfold expDiff
  split
  next h' => exact absurd h' hx
  next => rw [h] <;> cases f <;> rfl

section
variable (pf : FFmt) (c m l : Nat) (scores : List Nat)

/-- The scaled scores of a row. -/
def scaledScores (c : Nat) (scores : List Nat) : List Nat :=
  scores.map fun x => rnd .fp32 .std (Num.mul (dec .fp32 c) (dec .fp32 x))

/-- A row that gives NaN everywhere: a NaN among what it reads, or a maximum of +∞. -/
def RowBad (m l : Nat) (ts : List Nat) : Prop :=
  (dec .fp32 l).isNan = true ∨ ∃ t ∈ m :: ts, (dec .fp32 t).isNan = true ∨ dec .fp32 t = .inf false

/-- The three courses of a row, as its maximum decides. -/
theorem softRow_eq : softRow pf c scores m l =
    let ts := scaledScores c scores
    let mn := runMax m ts
    if (m :: l :: ts).any (fun x => (dec .fp32 x).isNan) || dec .fp32 mn == .inf false then
      { ml := some (0x7FC00000, 0x7FC00000), alpha := 0x7FC00000, p := ts.map fun _ => pf.canonicalNan }
    else if dec .fp32 mn == .inf true then { ml := none, alpha := 0x3F800000, p := ts.map fun _ => 0 }
    else
      let ps := ts.map fun t => expDiff pf t mn
      { ml := some (mn, rnd .fp32 .std (ps.foldl (fun a p => Num.add false a (dec pf p))
          (Num.mul (dec .fp32 l) (dec .fp32 (expDiff .fp32 m mn)))))
        alpha := expDiff .fp32 m mn, p := ps } := rfl

theorem softRow_p_length : (softRow pf c scores m l).p.length = scores.length := by
  rw [softRow_eq]
  simp only
  split
  · simp [scaledScores]
  · split <;> simp [scaledScores]

variable {m l}

/-- A number above every other that is not NaN is above +∞ only as +∞, and is −∞ only where all are. -/
theorem Num.eq_inf_of_ltz_false {a : Num} (hn : a.isNan = false) (h : a.ltz (.inf false) = false) : a = .inf false := by
  cases a <;> simp_all [Num.ltz, Num.lt, Num.isZero, Num.isNan]

theorem Num.eq_negInf_of_ltz_false {a : Num} (hn : a.isNan = false) (h : Num.ltz (.inf true) a = false) : a = .inf true := by
  cases a <;> simp_all [Num.ltz, Num.lt, Num.isZero, Num.isNan]

/-- The row is bad exactly when the model's test says so. -/
theorem rowBad_iff (ts : List Nat) : ((m :: l :: ts).any (fun x => (dec .fp32 x).isNan) || dec .fp32 (runMax m ts) == .inf false) = true
    ↔ RowBad m l ts := by
  simp only [Bool.or_eq_true, List.any_eq_true, beq_iff_eq, RowBad]
  constructor
  · rintro (⟨t, ht, hn⟩ | hinf)
    · rcases List.mem_cons.1 ht with rfl | ht
      · exact .inr ⟨t, by simp, .inl hn⟩
      · rcases List.mem_cons.1 ht with rfl | ht
        · exact .inl hn
        · exact .inr ⟨t, by simp [ht], .inl hn⟩
    · exact .inr ⟨_, runMax_mem ts m, .inr hinf⟩
  · rintro (hn | ⟨t, ht, hn | hinf⟩)
    · exact .inl ⟨l, by simp, hn⟩
    · exact .inl ⟨t, by rcases List.mem_cons.1 ht with rfl | ht <;> simp [*], hn⟩
    · by_cases hnan : ∃ x ∈ m :: ts, (dec .fp32 x).isNan = true
      · obtain ⟨x, hx, hn⟩ := hnan
        exact .inl ⟨x, by rcases List.mem_cons.1 hx with rfl | hx <;> simp [*], hn⟩
      · have hno : ∀ x ∈ m :: ts, (dec .fp32 x).isNan = false := fun x hx => Bool.eq_false_iff.2 fun h => hnan ⟨x, hx, h⟩
        have hge := runMax_ge ts m hno t ht
        rw [hinf] at hge
        exact .inr (Num.eq_inf_of_ltz_false (hno _ (runMax_mem ts m)) hge)

theorem RowBad.nan_free {ts : List Nat} (h : ¬RowBad m l ts) : ∀ t ∈ m :: ts, (dec .fp32 t).isNan = false :=
  fun t ht => Bool.eq_false_iff.2 fun hn => h (.inr ⟨t, ht, .inl hn⟩)

theorem softRow_bad (h : RowBad m l (scaledScores c scores)) : softRow pf c scores m l =
    { ml := some (0x7FC00000, 0x7FC00000), alpha := 0x7FC00000, p := (scaledScores c scores).map fun _ => pf.canonicalNan } := by
  rw [softRow_eq]
  exact if_pos ((rowBad_iff _).2 h)

theorem softRow_allNegInf (h : ¬RowBad m l (scaledScores c scores))
    (ha : ∀ t ∈ m :: scaledScores c scores, dec .fp32 t = .inf true) : softRow pf c scores m l =
      { ml := none, alpha := 0x3F800000, p := (scaledScores c scores).map fun _ => 0 } := by
  rw [softRow_eq]
  exact (if_neg (mt (rowBad_iff _).1 h)).trans (if_pos (by rw [ha _ (runMax_mem _ m)]; rfl))

theorem softRow_max (h : ¬RowBad m l (scaledScores c scores)) (ha : ∃ t ∈ m :: scaledScores c scores, dec .fp32 t ≠ .inf true) :
    let mn := runMax m (scaledScores c scores)
    let ps := (scaledScores c scores).map fun t => expDiff pf t mn
    softRow pf c scores m l =
      { ml := some (mn, rnd .fp32 .std (ps.foldl (fun a p => Num.add false a (dec pf p))
          (Num.mul (dec .fp32 l) (dec .fp32 (expDiff .fp32 m mn)))))
        alpha := expDiff .fp32 m mn, p := ps } := by
  have hno := RowBad.nan_free h
  have hmax : ¬(dec .fp32 (runMax m (scaledScores c scores)) == .inf true) = true := by
    rw [beq_iff_eq]
    intro hinf
    obtain ⟨t, ht, hne⟩ := ha
    have hge := runMax_ge _ m hno t ht
    rw [hinf] at hge
    exact hne (Num.eq_negInf_of_ltz_false (hno t ht) hge)
  rw [softRow_eq]
  exact (if_neg (mt (rowBad_iff _).1 h)).trans (if_neg hmax)
end

/-- Pairs of a row packed: word j holds elements 2j and 2j + 1. -/
theorem packRow_eq : ∀ xs : List Nat, packRow xs = (List.range (xs.length / 2)).map fun j =>
    BitVec.ofNat 32 (nth 0 xs (2 * j) + nth 0 xs (2 * j + 1) * 2 ^ 16)
  | [] => rfl
  | [_] => by simp [packRow]
  | a :: b :: xs => by
    have hlen : (a :: b :: xs).length / 2 = xs.length / 2 + 1 := by
      simp only [List.length_cons]
      omega
    rw [packRow, packRow_eq xs, hlen, List.range_succ_eq_map, List.map_cons, List.map_map]
    rfl

theorem mem_packRow_mapIdx {α : Type} {xs : List Nat} (f : Nat → Word → α) {q : α} : q ∈ (packRow xs).mapIdx f ↔
    ∃ j, j < xs.length / 2 ∧ q = f j (BitVec.ofNat 32 (nth 0 xs (2 * j) + nth 0 xs (2 * j + 1) * 2 ^ 16)) := by
  rw [packRow_eq, List.mem_mapIdx]
  simp [eq_comm]

/-! ## What exec calls -/

theorem exec_route (w : Base) (e : ExtR) (s : State) : exec (.route w e) s = route s (.route w e) w e := rfl
theorem exec_rret (w : Base) (e : ExtR) (s : State) : exec (.rret w e) s = rret s (.rret w e) w := rfl
theorem exec_rxwait (w : Base) (e : ExtR) (s : State) : exec (.rxwait w e) s = rxwait s (.rxwait w e) e := rfl
theorem exec_rxstat (w : Base) (e : ExtR) (s : State) : exec (.rxstat w e) s = rxstat s (.rxstat w e) w e := rfl
theorem exec_amerge (w : Base) (e : ExtR) (s : State) : exec (.amerge w e) s = amerge s (.amerge w e) w e := rfl
theorem exec_smxup (w : Base) (e : ExtR) (s : State) : exec (.smxup w e) s = smxup s (.smxup w e) w e := rfl

/-! ## The instructions -/

/-- The low bits of a field. -/
theorem toNat_low {n : Nat} (v : BitVec n) (k : Nat) : (v.extractLsb' 0 k).toNat = v.toNat % 2 ^ k := by
  rw [BitVec.extractLsb'_toNat, Nat.shiftRight_zero]

section
variable {s : State} {x : Issuer} {w : Base} {e : ExtR}

/-- The table that ROUTE opens. -/
def openedTable (y : RxTable) (x : Issuer) (e : ExtR) (mark p q : Nat) (rows : List RxRow) (rt : RouteTable) : RxTable :=
  { y with
    used := true, open_ := true, dispatched := false, launch := x.l.id, block := x.b.index, slot := x.slot, mark := mark, pair := p
    inTile := q, gen := y.gen + 1#32, rows := rows, bf16 := e.type == 11#5, ctr := e.c.toNat % 64, res := e.mod.getLsbD 2
    policyNext := rt.next, timeout := rt.timeout, start := 0, timedOut := false, dests := rt.dests }

theorem route_opens {rt : RouteTable} {rows : List RxRow} (h : Executes s x (.route w e)) :
    let a := (x.g.sreg w.a.toNat).toNat
    let o := (x.g.sreg w.b.toNat).toNat
    let q := a % 64
    let p := a / 64 % 32
    let c := s.core x.core
    let t := x.b.table (e.mod.toNat % 4)
    (∀ n ∈ [q, 2 * p, 2 * p + 1], (c.tile n).owner = x.slot) → (c.table t).open_ = false →
    q ≠ 2 * p → q ≠ 2 * p + 1 → a < 2 ^ 11 → o % 32 = 0 → o + 2048 ≤ x.b.spadSize →
    x.g.storeBefore c.nextId x.core (x.b.spadBase + o) 2048 = false → routeOf s x.l = some rt →
    readVector c.spad (x.b.spadBase + o) rt.dests = some rows →
    route s (.route w e) w e =
      .next (goesOn (s.setCore x.core ((c.setTable t (openedTable (c.table t) x e c.nextId p q rows rt)).tick)) x (.route w e)) := by
  intro a o q p c t hown hopen hq hq' ha ho hsize hst hrt hrows
  have htiles : ([q, 2 * p, 2 * p + 1].any fun n => (c.tile n).owner != x.slot) = false := by
    simp only [List.any_eq_false, bne_iff_ne, ne_eq, not_not]
    exact hown
  have hfields : ¬(q / 2 = p ∨ a / 2 ^ 11 ≠ 0 ∨ o % 32 ≠ 0 ∨ x.b.spadSize < o + 2048) := by omega
  rw [route, runInstr_executes h]
  simp only [toNat_low]
  rw [if_neg (by simpa using htiles), if_neg (by simpa using hopen), if_neg hfields, if_neg (by simpa using hst)]
  simp only [hrt, show readVector (s.core x.core).spad (x.b.spadBase + (x.g.sreg w.b.toNat).toNat) rt.dests = some rows from hrows]
  rfl

theorem rret_pends (h : Executes s x (.rret w e)) : let o := (x.g.sreg w.b.toNat).toNat
    o % 128 = 0 → o + 128 ≤ x.b.spadSize → rret s (.rret w e) w =
      .next (goesOn ((s.mapGroup x.core x.slot fun g => g.addPend (s.core x.core).nextId
        (.rret (x.g.sreg w.a.toNat) (x.b.spadBase + o))).mapCore x.core Core.tick) x (.rret w e)) := by
  intro o ha hb
  rw [rret, runInstr_executes h]
  simp only
  rw [if_neg (by omega), if_neg (by omega)]
  rfl

theorem rxwait_executes (h : Executes s x (.rxwait w e)) : let t := x.b.table (e.mod.toNat % 4)
    rxwait s (.rxwait w e) e = .next
      (if ((s.core x.core).table t).open_ then waitsBehind (setWait s x.core x.slot (.rx t)) x (.rxwait w e)
       else goesOn (s.mapGroup x.core x.slot fun g => g.acquire 1 (s.core x.core).nextId) x (.rxwait w e)) := by
  intro t
  rw [rxwait, runInstr_executes h]
  simp only [toNat_low]
  change _ = Host.Outcome.next (if ((s.core x.core).table (x.b.table (e.mod.toNat % 2 ^ 2))).open_ = true then _ else _)
  split <;> rfl

theorem rxstat_executes (h : Executes s x (.rxstat w e)) : let r := (x.g.sreg w.b.toNat).toNat
    let t := (s.core x.core).table (x.b.table (e.mod.toNat % 4))
    r ≤ 64 → rxstat s (.rxstat w e) w e =
      .next (goesOn (sset s x w.d.toNat (if r = 64 then tableStatus t else rowStatus t r)) x (.rxstat w e)) := by
  intro r t hr
  rw [rxstat, runInstr_executes h]
  simp only [toNat_low]
  rw [if_neg (by omega)]
  rfl

theorem amerge_pends (h : Executes s x (.amerge w e)) : let q := (x.g.sreg w.a.toNat).toNat % 32
    let na := e.mod.getLsbD 0
    ((s.core x.core).tile (2 * q)).owner = x.slot → ((s.core x.core).tile (2 * q + 1)).owner = x.slot →
    amerge s (.amerge w e) w e = .next (goesOn ((s.mapGroup x.core x.slot fun g => g.addPend (s.core x.core).nextId
      (.amerge (siteOf x (.amerge w e)) q w.d.toNat
        ((List.range 64).map fun l => if na then 0#32 else vget s x w.b.toNat l) na
        (activeOf x (.amerge w e)) (e.c.toNat % 64) x.g.winmap)).mapCore x.core Core.tick) x (.amerge w e)) := by
  intro q na h0 h1
  rw [amerge, runInstr_executes h]
  simp only [toNat_low]
  rw [if_neg (by simp only [ne_eq, not_or, not_not]; exact ⟨h0, h1⟩)]
  rfl
end

/-! ## SMXUP -/

section
variable (s : State) (x : Issuer) (w : Base) (e : ExtR)

/-- What SMXUP makes of a row. -/
def smxupRow (r : Nat) : SoftRow :=
  softRow (if e.mod.getLsbD 0 then .fp16 else .bf16) (lowWord (x.g.sreg e.c.toNat)).toNat
    ((List.range 64).map fun j => (vget s x (w.a.toNat + r) j).toNat) (vget s x w.b.toNat r).toNat (vget s x (w.b.toNat + 1) r).toNat

/-- What SMXUP writes for a row: m and l where they change, α, and the packed row of P. -/
def smxupWrites (r : Nat) : List (Nat × Nat × Word) :=
  (match (smxupRow s x w e r).ml with
    | some v => [(w.b.toNat, r, BitVec.ofNat 32 v.1), (w.b.toNat + 1, r, BitVec.ofNat 32 v.2)]
    | none => []) ++ [(w.b.toNat + 2, r, BitVec.ofNat 32 (smxupRow s x w e r).alpha)] ++
  (packRow (smxupRow s x w e r).p).mapIdx fun k v => (w.d.toNat + r / 2, 32 * (r % 2) + k, v)

theorem mem_smxupWrites {r : Nat} {q : Nat × Nat × Word} : q ∈ smxupWrites s x w e r ↔ let y := smxupRow s x w e r
    (q = (w.b.toNat + 2, r, BitVec.ofNat 32 y.alpha) ∨
     (∃ m l, y.ml = some (m, l) ∧ (q = (w.b.toNat, r, BitVec.ofNat 32 m) ∨ q = (w.b.toNat + 1, r, BitVec.ofNat 32 l))) ∨
     ∃ j, j < 32 ∧ q = (w.d.toNat + r / 2, 32 * (r % 2) + j,
      BitVec.ofNat 32 (nth 0 y.p (2 * j) + nth 0 y.p (2 * j + 1) * 2 ^ 16))) := by
  have hlen : (smxupRow s x w e r).p.length / 2 = 32 := by rw [smxupRow, softRow_p_length]; simp
  simp only [smxupWrites, List.mem_append, mem_packRow_mapIdx, hlen, List.mem_singleton]
  have hml : (q ∈ (match (smxupRow s x w e r).ml with
      | some v => [(w.b.toNat, r, BitVec.ofNat 32 v.1), (w.b.toNat + 1, r, BitVec.ofNat 32 v.2)]
      | none => [])) ↔ ∃ m l, (smxupRow s x w e r).ml = some (m, l) ∧
        (q = (w.b.toNat, r, BitVec.ofNat 32 m) ∨ q = (w.b.toNat + 1, r, BitVec.ofNat 32 l)) := by
    cases (smxupRow s x w e r).ml with
    | none => simp
    | some v => obtain ⟨m, l⟩ := v; simp
  rw [hml, or_comm (a := ∃ m l, _), or_assoc]

variable {s x w e}

theorem smxup_pends (h : Executes s x (.smxup w e)) : smxup s (.smxup w e) w e =
    .next (goesOn ((s.mapGroup x.core x.slot fun g => g.addPend (s.core x.core).nextId (.long x.g.winmap
      ((lanesOf (activeOf x (.smxup w e))).flatMap (smxupWrites s x w e)) none)).mapCore x.core Core.tick) x (.smxup w e)) := by
  rw [smxup, runInstr_done h rfl]
  rfl
end

/-! ## The statement -/

/-- Settles O35: the instructions by their own rules, and a row of SMXUP by its maximum. -/
theorem routeAndAttentionInstructions : Obligations.RouteAndAttentionInstructions := by
  refine ⟨fun s x w e rt rows h => ?route, fun s x w e h => ?rret, fun s x w e h => ?rxwait, fun s x w e h => ?rxstat,
    fun s x w e h => ?amerge, fun s x w e h => ?smxup, fun pf c m l scores => ?row,
    fun f x y => ⟨expDiff_negInf f y, fun s m e hx h => expDiff_fin f hx h⟩⟩
  case route =>
    intro a o q p c t y hown hopen hq hq' ha ho hsize hst hrt hrows
    rw [exec_route, route_opens h hown hopen hq hq' ha ho hsize hst hrt hrows]
    rfl
  case rret => exact fun ha hb => (exec_rret w e s).trans (rret_pends h ha hb)
  case rxwait => exact (exec_rxwait w e s).trans (rxwait_executes h)
  case rxstat => exact fun hr => (exec_rxstat w e s).trans (rxstat_executes h hr)
  case amerge => exact fun h0 h1 => (exec_amerge w e s).trans (amerge_pends h h0 h1)
  case smxup =>
    refine ⟨_, (exec_smxup w e s).trans (smxup_pends h), fun q => ?_⟩
    simp only [List.mem_flatMap, mem_lanesOf, mem_smxupWrites]
    rfl
  case row =>
    intro ts y bad
    refine ⟨fun h => ?_, fun h ha => ?_, fun h ha => ?_⟩
    · rw [show y = _ from softRow_bad pf c scores h]
      exact ⟨rfl, rfl, rfl⟩
    · rw [show y = _ from softRow_allNegInf pf c scores h ha]
      exact ⟨rfl, rfl, rfl⟩
    · rw [show y = _ from softRow_max pf c scores h ha]
      exact ⟨_, runMax_mem _ _, runMax_ge _ _ (RowBad.nan_free h), rfl, rfl, rfl⟩

end Sys2Proof.Machine
end

section
/-! PROOF. Rows on their way: dispatched to destinations and spares, landed in inboxes, returned, and timed out (07 R295 to
R298). -/

namespace Sys2Proof.Machine

/-! ## What exec calls -/

theorem exec_routeDispatch (s : State) : exec .routeDispatch s = .next (dispatchTable s s.sel.core s.sel.table) := rfl
theorem exec_routeTimeout (s : State) : exec .routeTimeout s = .next (expireTable s s.sel.core s.sel.table) := rfl
theorem exec_amergeFold (s : State) : exec .amergeFold s = .next (foldAll s s.sel.core s.sel.slot s.sel.id) := rfl

theorem exec_inboxLanding {s : State} {m : RowMsg} (hm : s.rowsOut[s.sel.index]? = some m)
    (hb : rowBehind s s.sel.index m = false) : exec .inboxLanding s = .next (match landRow s m with
      | none => s
      | some t => { t with rowsOut := dropIx t.rowsOut s.sel.index }) := by
  change execInboxLanding s = _
  simp only [execInboxLanding, hm, hb, Bool.false_eq_true, if_false] <;> rfl

theorem exec_routeReturnArrival {s : State} {m : RetMsg} (hm : s.returns[s.sel.index]? = some m)
    (hd : m.token.toNat % 256 = s.device.toNat) : exec .routeReturnArrival s =
      .next (arriveReturn { s with returns := dropIx s.returns s.sel.index } m) := by
  change execRouteReturnArrival s = _
  simp only [execRouteReturnArrival, hm, hd, if_true]

/-! ## Dispatch (R295) -/

/-- The tiles of a dispatch pass to the unit. -/
def takeTiles (x : RxTable) (c : Core) : Core :=
  [x.inTile, 2 * x.pair, 2 * x.pair + 1].foldl (fun c n => c.setTile n { c.tile n with owner := 0x24, offer := false }) c

theorem dispatchTable_ready {s : State} {core t : Nat} : let x := (s.core core).table t
    x.open_ = true → x.dispatched = false → (∀ n ∈ [x.inTile, 2 * x.pair, 2 * x.pair + 1], ((s.core core).tile n).land = false) →
    let taken := s.mapCore core (takeTiles x)
    let r := (List.range 4).foldl (fun (p : Dispatch × List RxRow) k => dispatchPass taken core t x k 0 p.2 p.1)
      ({ counts := [], used := [], out := [] }, x.rows)
    dispatchTable s core t = { (taken.mapCore core fun c => (giveBack c x.launch x.block x.slot x.inTile).setTable t
      { x with rows := r.2, dispatched := true, start := s.cycle }) with rowsOut := s.rowsOut ++ r.1.out } := by
  intro x hopen hd hland taken r
  have hno : ([x.inTile, 2 * x.pair, 2 * x.pair + 1].any fun n => ((s.core core).tile n).land) = false := by
    simpa only [List.any_eq_false, Bool.not_eq_true] using hland
  have hrun : ¬((!x.open_ || x.dispatched || [x.inTile, 2 * x.pair, 2 * x.pair + 1].any fun n => ((s.core core).tile n).land) = true) := by
    rw [hopen, hd, hno]
    decide
  rw [dispatchTable]
  refine (if_neg hrun).trans ?_
  rw [State.mapCore, State.core_mapCore_same]
  rfl

/-- A row is sent to a resident block below CAP. -/
theorem sendRow_sent {s : State} {core t : Nat} {x : RxTable} {q : Dispatch} {r k dest b : Nat} {d : RouteDest}
    (hd : findDest x.dests dest = some d) (hb : resident s d = some b) (hc : q.counts.get dest < d.cap) :
    sendRow s core t x q r k dest = some
      ({ q with
          counts := q.counts.set dest (q.counts.get dest + 1)
          out := q.out ++ [{ link := rowLink s core d.device d.core, srcCore := core, device := d.device, core := d.core
                             launch := d.launch, block := b, ring := d.ring, token := tokenOf s.device core t r k x.gen
                             dest := dest, row := (s.core core).tileData.bytes (x.inTile * 8192 + 128 * r) 128 }] }, d, b) := by
  simp only [sendRow, hd, hb, Nat.not_le.2 hc, if_false]

theorem sendRow_full {s : State} {core t : Nat} {x : RxTable} {q : Dispatch} {r k dest b : Nat} {d : RouteDest}
    (hd : findDest x.dests dest = some d) (hb : resident s d = some b) (hc : d.cap ≤ q.counts.get dest) :
    sendRow s core t x q r k dest = none := by
  simp only [sendRow, hd, hb, hc, if_true]

section
variable {s : State} {core t : Nat} {x : RxTable} {q : Dispatch} {r k : Nat} {row : RxRow} {y : RxChoice} {d : RouteDest}
  (hd : findDest x.dests y.dest = some d)
include hd

theorem dispatchOne_absent (hb : resident s d = none) :
    dispatchOne s core t x q r k row y = (q, { y with status := 4 }) := by
  simp only [dispatchOne, hd, hb, Option.isSome_none, Bool.not_false, if_true]

variable {b : Nat} (hb : resident s d = some b)
include hb

theorem dispatchOne_sent (hc : q.counts.get y.dest < d.cap) : dispatchOne s core t x q r k row y =
    ({ q with
        counts := q.counts.set y.dest (q.counts.get y.dest + 1)
        out := q.out ++ [{ link := rowLink s core d.device d.core, srcCore := core, device := d.device, core := d.core
                           launch := d.launch, block := b, ring := d.ring, token := tokenOf s.device core t r k x.gen
                           dest := y.dest, row := (s.core core).tileData.bytes (x.inTile * 8192 + 128 * r) 128 }] },
     sentChoice y y.dest d b false) := by
  simp only [dispatchOne, hd, hb, sendRow_sent hd hb hc, Option.isSome_some, Bool.not_true, Bool.false_eq_true, if_false]

theorem dispatchOne_dropped (hc : d.cap ≤ q.counts.get y.dest) (hp : x.policyNext = false) :
    dispatchOne s core t x q r k row y = (q, { y with status := 1 }) := by
  simp only [dispatchOne, hd, hb, sendRow_full hd hb hc, hp, Option.isSome_some, Bool.not_true, Bool.not_false, Bool.false_eq_true,
    if_false, if_true]

/-- The first spare that is not used and takes the row gets it (R295). -/
theorem dispatchOne_spare (hc : d.cap ≤ q.counts.get y.dest) (hp : x.policyNext = true) {j : Nat} {z : Dispatch × RouteDest × Nat}
    (hj : row.nch ≤ j) (hj4 : j < 4) (hused : q.used.contains (r, j) = false)
    (hz : sendRow s core t x q r k (nth (0, 0#32) row.entries j).1 = some z)
    (hfirst : ∀ i, row.nch ≤ i → i < j → q.used.contains (r, i) = true ∨
      sendRow s core t x q r k (nth (0, 0#32) row.entries i).1 = none) :
    dispatchOne s core t x q r k row y =
      ({ z.1 with used := (r, j) :: z.1.used }, sentChoice y (nth (0, 0#32) row.entries j).1 z.2.1 z.2.2 true) := by
  have hsplit : ∀ j < 4, ∀ n ≤ j, (List.range 4).drop n = List.range' n (j - n) ++ j :: List.range' (j + 1) (3 - j) := by decide
  have hfound : (((List.range 4).drop row.nch).filter fun j => !q.used.contains (r, j)).findSome? (fun j =>
      (sendRow s core t x q r k (nth (0, 0#32) row.entries j).1).map fun z => (j, z)) = some (j, z) := by
    rw [hsplit j hj4 _ hj, List.filter_append, List.findSome?_append, List.filter_cons_of_pos (by rw [hused]; rfl)]
    have hnone : ((List.range' row.nch (j - row.nch)).filter fun j => !q.used.contains (r, j)).findSome? (fun j =>
        (sendRow s core t x q r k (nth (0, 0#32) row.entries j).1).map fun z => (j, z)) = none := by
      refine List.findSome?_eq_none_iff.2 fun i hi => ?_
      obtain ⟨hi, hu⟩ := List.mem_filter.1 hi
      obtain ⟨hlo, hhi⟩ := List.mem_range'_1.1 hi
      rcases hfirst i hlo (by omega) with h | h
      · rw [h] at hu; cases hu
      · rw [h]; rfl
    rw [hnone, Option.none_or, List.findSome?_cons, hz]
    rfl
  simp only [dispatchOne, hd, hb, sendRow_full hd hb hc, hp, hfound, Option.isSome_some, Bool.not_true, Bool.false_eq_true, if_false]
end

/-! ## Inboxes (R296) -/

theorem landRow_lands {s : State} {m : RowMsg} {b : Block} {l : Launch} (hd : m.device = s.device.toNat)
    (hb : (s.core m.core).block? m.launch m.block = some b) (hl : s.launch? m.launch = some l)
    (h0 : (ringDesc l m.ring).slots ≠ 0) (h2 : 2 ≤ (ringDesc l m.ring).lines)
    (hfree : ringFree (ringDesc l m.ring).slots (b.ring m.ring) ≠ 0) : landRow s m = some (s.mapCore m.core fun c =>
      { c with spad := c.spad.put (b.spadBase + slotOffset (ringDesc l m.ring) (b.ring m.ring).1) (inboxBytes m) }.moveRing
        l m.block m.ring true) := by
  have hroom : ¬((ringDesc l m.ring).slots = 0 ∨ (ringDesc l m.ring).lines < 2 ∨
      ringFree (ringDesc l m.ring).slots (b.ring m.ring) = 0) := by omega
  simp only [landRow, hd, ne_eq, not_true_eq_false, if_false, hb, hl]
  exact if_neg hroom

/-! ## Returns (R297) -/

/-- A choice whose row has come back. -/
def RxChoice.returned (y : RxChoice) (m : RetMsg) : RxChoice := { y with
  pending := false, status := if y.redirected then 2 else 0
  row := (List.range 64).map fun j =>
    BitVec.ofNat 16 ((nth 0#8 m.row (2 * j)).toNat + 256 * (nth 0#8 m.row (2 * j + 1)).toNat) }

theorem arriveReturn_late {s : State} {m : RetMsg} : let core := m.token.toNat / 2 ^ 8 % 512
    let t := m.token.toNat / 2 ^ 17 % 4
    let x := (s.core core).table t
    (x.open_ = false ∨ x.gen ≠ BitVec.ofNat 32 (m.token.toNat / 2 ^ 27) ∨ x.late_ s.cycle = true) →
    arriveReturn s m = s.mapTable core t fun x => { x with late := x.late + 1#16 } := by
  intro core t x h
  unfold arriveReturn
  simp only
  split
  · rfl
  · split
    · rfl
    · refine if_neg ?_
      rintro ⟨-, hopen, hgen, hlate, -⟩
      rcases h with h | h | h
      · exact Bool.false_ne_true (h.symm.trans hopen)
      · exact h hgen
      · rw [h] at hlate
        cases hlate

theorem arriveReturn_accepted {s : State} {m : RetMsg} {row : RxRow} {y : RxChoice} : let core := m.token.toNat / 2 ^ 8 % 512
    let t := m.token.toNat / 2 ^ 17 % 4
    let x := (s.core core).table t
    let r := m.token.toNat / 2 ^ 19 % 64
    let k := m.token.toNat / 2 ^ 25 % 4
    m.token.toNat < 2 ^ 59 → x.open_ = true → x.gen = BitVec.ofNat 32 (m.token.toNat / 2 ^ 27) → x.late_ s.cycle = false →
    x.rows[r]? = some row → row.choices[k]? = some y → y.pending = true →
    y.device = m.device → y.core = m.core → y.launch = m.launch → y.block = m.block →
    arriveReturn s m = completeTable (s.mapTable core t fun x =>
      { x with rows := setNth x.rows r { row with choices := setNth row.choices k (y.returned m) } }) core t := by
  intro core t x r k htok hopen hgen hlate hrow hy hp hdev hcore hlaunch hblock
  have hok : m.token.toNat / 2 ^ 59 = 0 ∧ x.open_ = true ∧ x.gen = BitVec.ofNat 32 (m.token.toNat / 2 ^ 27) ∧
      (!x.late_ s.cycle) = true ∧ y.pending = true ∧
      (y.device == m.device && y.core == m.core && y.launch == m.launch && y.block == m.block) = true :=
    ⟨Nat.div_eq_of_lt htok, hopen, hgen, by rw [hlate]; rfl, hp, by simp [hdev, hcore, hlaunch, hblock]⟩
  unfold arriveReturn
  simp only [show ((s.core (m.token.toNat / 2 ^ 8 % 512)).table (m.token.toNat / 2 ^ 17 % 4)).rows[m.token.toNat / 2 ^ 19 % 64]? =
    some row from hrow, show row.choices[m.token.toNat / 2 ^ 25 % 4]? = some y from hy]
  exact if_pos hok

/-! ## Timeouts (R298) -/

theorem expireTable_late {s : State} {core t : Nat} : let x := (s.core core).table t
    x.open_ = true → x.dispatched = true → x.start + x.timeout ≤ s.cycle →
    expireTable s core t = completeTable (s.mapTable core t fun x =>
      { x with timedOut := true, rows := x.rows.map fun r =>
        { r with choices := r.choices.map fun y => if y.pending then { y with pending := false, status := 3 } else y } }) core t := by
  intro x hopen hd ht
  have hlate : x.late_ s.cycle = true := by
    simp [RxTable.late_, hopen, hd, ht]
  rw [expireTable, if_pos hlate]
  simp only [RxTable.settle, Bool.and_true]

end Sys2Proof.Machine
end

section
/-! PROOF. A complete table gives its pair back with the weighted sums in it (07 R298). -/

namespace Sys2Proof.Machine

/-! ## A pair as a window -/

/-- A wide window over the two tiles of a pair. -/
def pairWin (p : Nat) : List (Option Nat) := [some (2 * p), some (2 * p + 1)]

/-- A pair's element, row by row, is a register of that window. -/
theorem vAddr_pairWin {p r j : Nat} (hr : r < 64) : vAddr (pairWin p) true r j = some (accAddr false p r j) := by
  have htile : winTile (pairWin p) (vEntry true r) = some (2 * p + r / 32) := by
    rcases (by omega : r / 32 = 0 ∨ r / 32 = 1) with h | h <;> simp [winTile, vEntry, pairWin, nth, h]
  rw [vAddr, htile, Option.map_some]
  simp only [vByte, accAddr, if_true, Bool.false_eq_true, if_false]
  refine congrArg some ?_
  omega

/-- The elements of a 64 by 64 result, row by row. -/
def squareWrites (f : Nat → Nat → Word) : List (Nat × Nat × Word) :=
  (List.range 64).flatMap fun r => (List.range 64).map fun j => (r, j, f r j)

theorem mem_squareWrites {f : Nat → Nat → Word} {w : Nat × Nat × Word} :
    w ∈ squareWrites f ↔ w.1 < 64 ∧ w.2.1 < 64 ∧ w.2.2 = f w.1 w.2.1 := by
  obtain ⟨r, j, v⟩ := w
  simp only [squareWrites, List.mem_flatMap, List.mem_map, List.mem_range, Prod.mk.injEq]
  constructor
  · rintro ⟨r, hr, j, hj, rfl, rfl, rfl⟩
    exact ⟨hr, hj, rfl⟩
  · rintro ⟨hr, hj, rfl⟩
    exact ⟨r, hr, j, hj, rfl, rfl, rfl⟩

theorem tileWrites_squareWrites (p : Nat) (f : Nat → Nat → Word) (m : Memory) :
    (List.range 64).foldl (fun (m : Memory) r => (List.range 64).foldl (fun (m : Memory) j =>
      m.putNat (accAddr false p r j) 4 (f r j).toNat) m) m = tileWrites (pairWin p) true (squareWrites f) m := by
  rw [tileWrites, squareWrites, List.foldl_flatMap]
  refine List.foldl_ext _ _ _ fun m r hr => ?_
  rw [List.foldl_map]
  refine List.foldl_ext _ _ _ fun m j _ => ?_
  simp only [vAddr_pairWin (List.mem_range.1 hr)]

theorem nat_squareWrites {p : Nat} {f : Nat → Nat → Word} {m : Memory} (hm : m.wf = true) {r j : Nat} (hr : r < 64) (hj : j < 64) :
    (tileWrites (pairWin p) true (squareWrites f) m).nat (accAddr false p r j) 4 = (f r j).toNat := by
  rw [nat_tileWrites hm (vAddr_pairWin hr) (v := f r j), if_pos (mem_squareWrites.2 ⟨hr, hj, rfl⟩)]
  rintro ⟨r', j', v⟩ hw
  obtain ⟨hr', hj', hv⟩ := mem_squareWrites.1 hw
  simp only at hr' hj' hv
  by_cases h : r' = r ∧ j' = j
  · obtain ⟨rfl, rfl⟩ := h
    exact .inl (by rw [hv])
  · refine .inr fun a b ha hb => ?_
    rw [vAddr_pairWin hr', Option.some.injEq] at ha
    rw [vAddr_pairWin hr, Option.some.injEq] at hb
    subst ha hb
    simp only [accAddr, Bool.false_eq_true, if_false]
    omega

theorem get_squareWrites_other {p a : Nat} {f : Nat → Nat → Word} {m : Memory} (hm : m.wf = true)
    (ha : a < 2 * p * 8192 ∨ 2 * p * 8192 + 16384 ≤ a) :
    (tileWrites (pairWin p) true (squareWrites f) m).get a = m.get a := by
  refine get_tileWrites_other hm _ fun ⟨r, j, v⟩ hw b hb => ?_
  obtain ⟨hr, hj, -⟩ := mem_squareWrites.1 hw
  simp only at hr hj
  rw [vAddr_pairWin hr, Option.some.injEq] at hb
  subst hb
  simp only [accAddr, Bool.false_eq_true, if_false]
  generalize 2 * p * 8192 = base at ha ⊢
  omega

/-! ## Tiles that go back -/

section
variable (c : Core) (launch block slot t : Nat)

/-- A tile that goes back changes that tile alone. -/
theorem giveBack_frame : giveBack c launch block slot t = { c with tiles := (giveBack c launch block slot t).tiles } := by
  unfold giveBack
  split <;> rfl

theorem giveBack_live (h : liveSlotOf c launch block slot = true) : giveBack c launch block slot t =
    c.setTile t { c.tile t with owner := slot, offer := true, land := false, waits := [], seqWait := false } := if_pos h

@[simp] theorem giveBack_tileData : (giveBack c launch block slot t).tileData = c.tileData := by rw [giveBack_frame]
@[simp] theorem giveBack_tables : (giveBack c launch block slot t).tables = c.tables := by rw [giveBack_frame]
@[simp] theorem giveBack_counters : (giveBack c launch block slot t).counters = c.counters := by rw [giveBack_frame]
@[simp] theorem giveBack_queues : (giveBack c launch block slot t).queues = c.queues := by rw [giveBack_frame]
@[simp] theorem giveBack_blocks : (giveBack c launch block slot t).blocks = c.blocks := by rw [giveBack_frame]
end

theorem liveSlotOf_congr {c d : Core} (h : d.groups = c.groups) (launch block slot : Nat) :
    liveSlotOf d launch block slot = liveSlotOf c launch block slot := by
  simp only [liveSlotOf, Core.group?, h]

/-- A pair that goes back to a live group is its own, offered and landed. -/
theorem giveBack_pair_tile {c : Core} {launch block slot p n : Nat} (h : liveSlotOf c launch block slot = true)
    (hn : n = 2 * p ∨ n = 2 * p + 1) (hlen : n < c.tiles.length) :
    let u := (giveBack (giveBack c launch block slot (2 * p)) launch block slot (2 * p + 1)).tile n
    u.owner = slot ∧ u.offer = true ∧ u.land = false := by
  rw [giveBack_live c _ _ _ _ h, giveBack_live (c.setTile _ _) _ _ _ _ h]
  rcases hn with rfl | rfl
  · rw [Core.tile_setTile_other _ _ (by omega), Core.tile_setTile_same _ hlen]
    exact ⟨rfl, rfl, rfl⟩
  · rw [Core.tile_setTile_same _ (by rwa [Core.length_setTile])]
    exact ⟨rfl, rfl, rfl⟩

/-! ## Completion -/

/-- The sums of a table's rows. -/
def RxTable.sums (x : RxTable) (r j : Nat) : Word := mergeElem x.bf16 (nth { nch := 0, entries := [], choices := [] } x.rows r) j

/-- A core whose table t, already merged, closes: its pair goes back and its counter moves. -/
def Core.closeTable (c : Core) (x : RxTable) (t : Nat) : Core :=
  ((giveBack (giveBack c x.launch x.block x.slot (2 * x.pair)) x.launch x.block x.slot (2 * x.pair + 1)).setTable t
    { x with open_ := false }).addCounter x.ctr 1#64

section
variable (c : Core) (x : RxTable) (t : Nat)

@[simp] theorem closeTable_tileData : (c.closeTable x t).tileData = c.tileData := by
  change (giveBack (giveBack ..) ..).tileData = _
  simp only [giveBack_tileData]

@[simp] theorem closeTable_tables : (c.closeTable x t).tables = setNth c.tables t { x with open_ := false } := by
  change setNth (giveBack (giveBack ..) ..).tables _ _ = _
  simp only [giveBack_tables]

@[simp] theorem closeTable_queues : (c.closeTable x t).queues = c.queues := by
  change (giveBack (giveBack ..) ..).queues = _
  simp only [giveBack_queues]

@[simp] theorem closeTable_blocks : (c.closeTable x t).blocks = c.blocks := by
  change (giveBack (giveBack ..) ..).blocks = _
  simp only [giveBack_blocks]

@[simp] theorem closeTable_counters : (c.closeTable x t).counters = setNth c.counters x.ctr (c.counter x.ctr + 1#64) := by
  change setNth (giveBack (giveBack ..) ..).counters _ (nth _ (giveBack (giveBack ..) ..).counters _ + _) = _
  simp only [giveBack_counters]
  rfl
end

/-- The record that a completed table leaves in Q6. -/
def RxTable.entry (x : RxTable) (c : Core) (t : Nat) : QEntry :=
  { launch := x.launch, block := x.block, slot := x.slot, id := 0
    value := routeRecord x (match c.block? x.launch x.block with | some b => b.tableName t | none => 0) }

theorem entry_congr {c d : Core} (h : d.blocks = c.blocks) (x : RxTable) (t : Nat) : x.entry d t = x.entry c t := by
  simp only [RxTable.entry, Core.block?, h]

/-- A core whose table t has completed, before its waiting groups go on. -/
def Core.completeAt (c : Core) (t : Nat) : Core :=
  let x := c.table t
  let d := { c with tileData := tileWrites (pairWin x.pair) true (squareWrites x.sums) c.tileData }
  let e := d.closeTable x t
  if x.res then e.pushQueue 6 (x.entry e t) else e

section
variable (c : Core) (t : Nat)

@[simp] theorem completeAt_tileData : (c.completeAt t).tileData =
    tileWrites (pairWin (c.table t).pair) true (squareWrites (c.table t).sums) c.tileData := by
  cases h : (c.table t).res <;> simp [Core.completeAt, Core.pushQueue, h]

@[simp] theorem completeAt_tables : (c.completeAt t).tables = setNth c.tables t { c.table t with open_ := false } := by
  cases h : (c.table t).res <;> simp [Core.completeAt, Core.pushQueue, h]

@[simp] theorem completeAt_counters : (c.completeAt t).counters =
    setNth c.counters (c.table t).ctr (c.counter (c.table t).ctr + 1#64) := by
  cases h : (c.table t).res <;> simp [Core.completeAt, Core.pushQueue, Core.counter, h]

theorem completeAt_queues (h : (c.table t).res = true) : (c.completeAt t).queues =
    setNth c.queues 6 (nth [] c.queues 6 ++ [(c.table t).entry c t]) := by
  have he := entry_congr (c := c) (closeTable_blocks { c with
    tileData := tileWrites (pairWin (c.table t).pair) true (squareWrites (c.table t).sums) c.tileData } (c.table t) t) (c.table t) t
  simp only [Core.completeAt, h, if_true, he, Core.pushQueue, closeTable_queues]

theorem completeAt_pair_tile {n : Nat} : let x := c.table t
    liveSlotOf c x.launch x.block x.slot = true → (n = 2 * x.pair ∨ n = 2 * x.pair + 1) → n < c.tiles.length →
    ((c.completeAt t).tile n).owner = x.slot ∧ ((c.completeAt t).tile n).offer = true ∧ ((c.completeAt t).tile n).land = false := by
  intro x hlive hn hlen
  have h := giveBack_pair_tile (c := { c with tileData := tileWrites (pairWin x.pair) true (squareWrites x.sums) c.tileData })
    ((liveSlotOf_congr (by rfl) _ _ _).trans hlive) hn hlen
  cases hr : (c.table t).res
  · simp only [Core.completeAt, hr, Bool.false_eq_true, if_false]
    exact h
  · simp only [Core.completeAt, hr, if_true]
    exact h
end

/-- A table that has every row back completes when Q6 has room for its record (R298). -/
theorem completeTable_completes {s : State} {core t : Nat} : let c := s.core core
    let x := c.table t
    x.open_ = true → x.dispatched = true → x.waiting = false → (x.res = true → c.queueFull 6 = false) →
    completeTable s core t = s.setCore core (mapGroups (c.completeAt t) fun _ g =>
      if g.wait = .rx t then g.acquire 1 (c.completeAt t).nextId else g) := by
  intro c x hopen hd hw hq
  have hroom : (x.res && c.queueFull 6) = false := by
    cases h : x.res
    · rfl
    · rw [hq h]; rfl
  have hrun : ¬((!x.open_ || !x.dispatched || x.waiting || (x.res && c.queueFull 6)) = true) := by
    rw [hopen, hd, hw, hroom]
    decide
  have hdata := tileWrites_squareWrites x.pair x.sums c.tileData
  unfold RxTable.sums at hdata
  unfold completeTable
  refine (if_neg hrun).trans ?_
  rw [hdata]
  rfl

theorem completeTable_full {s : State} {core t : Nat} (hr : ((s.core core).table t).res = true)
    (hq : (s.core core).queueFull 6 = true) : completeTable s core t = s := by
  rw [completeTable]
  exact if_pos (by rw [hr, hq]; simp)

end Sys2Proof.Machine
end

section
/-! PROOF. The fold of AMERGE (07 R290), and what its events do to rows and folds together. -/

namespace Sys2Proof.Machine

/-! ## Registers through one window -/

/-- A window that names no tile twice finds a tile under one entry alone. -/
theorem winTile_inj {win : List (Option Nat)} (hw : (win.filterMap id).Nodup) {e e' t : Nat} (h : winTile win e = some t)
    (h' : winTile win e' = some t) : e = e' := by
  rw [winTile, nth_eq_getElem?] at h h'
  have hp := List.pairwise_iff_getElem.1 (List.pairwise_filterMap.1 hw)
  have key : ∀ i j : Nat, i < j → win[i]?.getD none = some t → win[j]?.getD none ≠ some t := by
    intro i j hij hi hj
    rcases hwi : win[i]? with _ | a
    · rw [hwi] at hi; cases hi
    rcases hwj : win[j]? with _ | b
    · rw [hwj] at hj; cases hj
    rw [hwi] at hi
    rw [hwj] at hj
    obtain ⟨hi', hwi⟩ := List.getElem?_eq_some_iff.1 hwi
    obtain ⟨hj', hwj⟩ := List.getElem?_eq_some_iff.1 hwj
    exact hp i j hi' hj' hij t (hwi.trans hi) t (hwj.trans hj) rfl
  rcases Nat.lt_trichotomy e e' with hlt | heq | hgt
  · exact absurd h' (key _ _ hlt h)
  · exact heq
  · exact absurd h (key _ _ hgt h')

/-- Two registers of a wide window that names no tile twice lie apart. -/
theorem apart_of_nodup {win : List (Option Nat)} (hw : (win.filterMap id).Nodup) {n l k j : Nat} (hl : l < 64) (hj : j < 64)
    (h : n ≠ k ∨ l ≠ j) : Apart win true n l k j := by
  by_cases hplace : n % 32 ≠ k % 32 ∨ l ≠ j
  · exact apart_of_ne win hl hj hplace
  · intro a b ha hb
    simp only [vAddr, Option.map_eq_some_iff] at ha hb
    obtain ⟨t, ht, rfl⟩ := ha
    obtain ⟨u, hu, rfl⟩ := hb
    have htu : t ≠ u := by
      rintro rfl
      have he := winTile_inj hw ht hu
      simp only [vEntry, if_true] at he
      omega
    simp only [vByte, if_true]
    omega

theorem vRead_vWrite_apart {c : Core} {win : List (Option Nat)} {wide : Bool} {n l k j : Nat} (hc : c.tileData.wf = true)
    (h : Apart win wide n l k j) (v : Word) : (c.vWrite win wide n l v).vRead win wide k j = c.vRead win wide k j := by
  unfold Core.vRead Core.vWrite
  cases hb : vAddr win wide k j with
  | none => rfl
  | some b =>
    cases ha : vAddr win wide n l with
    | none => rfl
    | some a =>
      have hab := h a b ha hb
      have hnat : (c.tileData.putNat a 4 v.toNat).nat b 4 = c.tileData.nat b 4 :=
        Memory.nat_congr fun i hi => Memory.get_putNat_other hc _ (by omega)
      simp only [hnat]

theorem wf_vWrite {c : Core} (hc : c.tileData.wf = true) (win : List (Option Nat)) (wide : Bool) (n l : Nat) (v : Word) :
    (c.vWrite win wide n l v).tileData.wf = true := by
  unfold Core.vWrite
  cases vAddr win wide n l with
  | none => exact hc
  | some a => exact Memory.wf_putNat hc _ _ _

/-- Registers that lie apart, each replaced by a function of its value, hold these values of the old contents. -/
theorem foldl_vWrite_vRead {α : Type} (win : List (Option Nat)) (wide : Bool) (n l : α → Nat) (f : α → Word → Word) (ks : List α)
    {c : Core} (hc : c.tileData.wf = true) (hap : ks.Pairwise fun x y => Apart win wide (n x) (l x) (n y) (l y)) :
    ks.foldl (fun c x => c.vWrite win wide (n x) (l x) (f x (c.vRead win wide (n x) (l x)))) c =
      { c with tileData := tileWrites win wide (ks.map fun x => (n x, l x, f x (c.vRead win wide (n x) (l x)))) c.tileData } := by
  rw [← Core.foldl_vWrite, List.foldl_map]
  induction ks generalizing c with
  | nil => rfl
  | cons x ks ih =>
    obtain ⟨hx, hks⟩ := List.pairwise_cons.1 hap
    rw [List.foldl_cons, List.foldl_cons, ih (wf_vWrite hc ..) hks]
    refine List.foldl_ext _ _ _ fun d y hy => ?_
    rw [vRead_vWrite_apart hc (hx y hy)]

/-! ## The fold -/

/-- The elements that a fold writes, in order. -/
def foldPlaces (rows : LaneMask) : List (Nat × Nat) := (lanesOf rows).flatMap fun i => (List.range 64).map fun j => (i, j)

theorem mem_foldPlaces {rows : LaneMask} {x : Nat × Nat} : x ∈ foldPlaces rows ↔ rows.getLsbD x.1 = true ∧ x.2 < 64 := by
  obtain ⟨i, j⟩ := x
  simp only [foldPlaces, List.mem_flatMap, List.mem_map, List.mem_range, mem_lanesOf, Prod.mk.injEq]
  constructor
  · rintro ⟨i, hi, j, hj, rfl, rfl⟩
    exact ⟨hi, hj⟩
  · rintro ⟨hi, hj⟩
    exact ⟨i, hi, j, hj, rfl, rfl⟩

theorem foldl_foldPlaces {β : Type} (f : β → Nat → Nat → β) (rows : LaneMask) (b : β) :
    (lanesOf rows).foldl (fun b i => (List.range 64).foldl (fun b j => f b i j) b) b =
      (foldPlaces rows).foldl (fun b x => f b x.1 x.2) b := by
  rw [foldPlaces, List.foldl_flatMap]
  simp only [List.foldl_map]

theorem nodup_foldPlaces (rows : LaneMask) : (foldPlaces rows).Nodup := by
  have : foldPlaces rows = (lanesOf rows).product (List.range 64) := rfl
  rw [this]
  exact (nodup_lanesOf rows).product List.nodup_range

theorem foldPlaces_apart {win : List (Option Nat)} (hw : (win.filterMap id).Nodup) (rows : LaneMask) (o : Nat) :
    (foldPlaces rows).Pairwise fun x y => Apart win true (o + x.1) x.2 (o + y.1) y.2 := by
  refine (nodup_foldPlaces rows).imp_of_mem fun {x y} hx hy hne => ?_
  refine apart_of_nodup hw (mem_foldPlaces.1 hx).2 (mem_foldPlaces.1 hy).2 ?_
  by_contra h
  exact hne (Prod.ext (by omega) (by omega))

/-- The writes of a fold into the accumulator, each a function of the contents before it. -/
def foldWrites (c : Core) (win : List (Option Nat)) (q o : Nat) (alpha : List Word) (na : Bool) (rows : LaneMask) :
    List (Nat × Nat × Word) :=
  (foldPlaces rows).map fun x => (o + x.1, x.2, foldElem na (nth 0#32 alpha x.1) (c.vRead win true (o + x.1) x.2)
    (BitVec.ofNat 32 (c.tileData.nat (accAddr false q x.1 x.2) 4)))

theorem foldl_foldWrites {c : Core} {win : List (Option Nat)} {q o : Nat} {alpha : List Word} {na : Bool} {rows : LaneMask}
    (hw : (win.filterMap fun e => e).Nodup) (hc : c.tileData.wf = true) :
    (lanesOf rows).foldl (fun d i => (List.range 64).foldl (fun (d : Core) j => d.vWrite win true (o + i) j (foldElem na (nth 0#32 alpha i)
      (d.vRead win true (o + i) j) (BitVec.ofNat 32 (c.tileData.nat (accAddr false q i j) 4)))) d) c =
    { c with tileData := tileWrites win true (foldWrites c win q o alpha na rows) c.tileData } := by
  rw [foldl_foldPlaces fun (d : Core) i j => d.vWrite win true (o + i) j (foldElem na (nth 0#32 alpha i)
    (d.vRead win true (o + i) j) (BitVec.ofNat 32 (c.tileData.nat (accAddr false q i j) 4)))]
  exact foldl_vWrite_vRead win true (fun x : Nat × Nat => o + x.1) Prod.snd (fun x v => foldElem na (nth 0#32 alpha x.1) v
    (BitVec.ofNat 32 (c.tileData.nat (accAddr false q x.1 x.2) 4))) _ hc (foldPlaces_apart hw rows o)

section
variable {c : Core} {win : List (Option Nat)} {q o : Nat} {alpha : List Word} {na : Bool} {rows : LaneMask}

theorem nat_foldWrites (hw : (win.filterMap fun e => e).Nodup) (hc : c.tileData.wf = true) {i j a : Nat}
    (hi : rows.getLsbD i = true) (hj : j < 64) (ha : vAddr win true (o + i) j = some a) :
    (tileWrites win true (foldWrites c win q o alpha na rows) c.tileData).nat a 4 =
      (foldElem na (nth 0#32 alpha i) (BitVec.ofNat 32 (c.tileData.nat a 4))
        (BitVec.ofNat 32 (c.tileData.nat (accAddr false q i j) 4))).toNat := by
  have hread : c.vRead win true (o + i) j = BitVec.ofNat 32 (c.tileData.nat a 4) := by
    rw [Core.vRead, ha]
  rw [← hread]
  refine (nat_tileWrites hc ha _ fun w hw' => ?_).trans (if_pos (List.mem_map.2 ⟨(i, j), mem_foldPlaces.2 ⟨hi, hj⟩, rfl⟩))
  obtain ⟨⟨k, l⟩, hx, rfl⟩ := List.mem_map.1 hw'
  by_cases h : k = i ∧ l = j
  · obtain ⟨rfl, rfl⟩ := h
    exact .inl rfl
  · refine .inr (apart_of_nodup hw (mem_foldPlaces.1 hx).2 hj ?_)
    simp only
    omega

theorem get_foldWrites_other (hc : c.tileData.wf = true) {b : Nat}
    (hb : ∀ i j a, rows.getLsbD i = true → j < 64 → vAddr win true (o + i) j = some a → b < a ∨ a + 4 ≤ b) :
    (tileWrites win true (foldWrites c win q o alpha na rows) c.tileData).get b = c.tileData.get b := by
  refine get_tileWrites_other hc _ fun w hw a ha => ?_
  obtain ⟨⟨i, j⟩, hx, rfl⟩ := List.mem_map.1 hw
  exact hb i j a (mem_foldPlaces.1 hx).1 (mem_foldPlaces.1 hx).2 ha
end

/-- A counter that moves changes nothing of a group but what it waits for. -/
theorem group?_addCounter {c : Core} {slot : Nat} {g : Group} (hg : c.group? slot = some g) (k : Nat) (v : DWord) :
    ∃ h, (c.addCounter k v).group? slot = some h ∧ h = { g with wait := h.wait } := by
  refine ⟨_, (Core.group?_mapGroups { c with counters := setNth c.counters k (c.counter k + v) } _ slot).trans
    (congrArg _ hg), ?_⟩
  dsimp only
  split
  · split <;> rfl
  · rfl

/-- A fold whose tiles have landed and whose earlier accesses are complete writes every active row at one instant. -/
theorem foldAll_writes {s : State} {core slot id : Nat} {g : Group} {p : Site} {q o : Nat} {alpha : List Word} {na : Bool}
    {rows : LaneMask} {ctr : Nat} {win : List (Option Nat)} (hg : s.group? core slot = some g)
    (hp : g.pend? id = some (.amerge p q o alpha na rows ctr win)) (h0 : ((s.core core).tile (2 * q)).land = false)
    (h1 : ((s.core core).tile (2 * q + 1)).land = false) (hd : g.accessesDone id = true) (hwide : g.wide = true)
    (hw : (win.filterMap fun e => e).Nodup) (hc : (s.core core).tileData.wf = true) : let c := s.core core
    foldAll s core slot id = ((s.setCore core
      { c with tileData := tileWrites win true (foldWrites c win q o alpha na rows) c.tileData }).mapGroup core slot
        fun g => g.dropPend id).mapCore core fun c => c.addCounter ctr 1#64 := by
  intro c
  have hrun : ¬((((s.core core).tile (2 * q)).land || ((s.core core).tile (2 * q + 1)).land || !g.accessesDone id) = true) := by
    rw [h0, h1, hd]
    decide
  simp only [foldAll, hg, hp, hwide]
  refine (if_neg hrun).trans ?_
  rw [foldl_foldWrites hw hc]

/-- Settles O36: rows are dispatched choice by choice, land in inboxes and return once; a table times out or completes, and a
fold writes its rows. -/
theorem routeAndFoldEvents : Obligations.RouteAndFoldEvents := by
  refine ⟨fun s hopen hd hland => ?dispatch, fun s core t x q r k row y d hd => ⟨fun hb => dispatchOne_absent hd hb,
      fun b hb hc => dispatchOne_sent hd hb hc, fun b hb hc hp => dispatchOne_dropped hd hb hc hp, ?spare⟩,
    fun s m b l hm hdev hbehind hb hl => ?land, fun s m hm hd => ⟨fun h => ?late, ?accepted⟩, fun s hopen hd ht => ?timeout,
    fun s core t ht hopen hd hw => ⟨fun hr hq => completeTable_full hr hq, fun hq hc => ?complete⟩,
    fun s g p q o alpha na rows ctr win hg hp h0 h1 hdone hwide hwin hc => ?fold, fun na alpha o p => rfl⟩
  case dispatch => rw [exec_routeDispatch, dispatchTable_ready hopen hd hland]; rfl
  case spare =>
    intro b j e c hb hc hp hj hj4 hused dest he hc' hcap hfirst
    exact dispatchOne_spare hd hb hc hp hj hj4 hused (sendRow_sent he hc' hcap) hfirst
  case land =>
    intro d w bs h0 h2 hfree
    rw [exec_inboxLanding hm hbehind, landRow_lands hdev hb hl h0 h2 hfree]
    rfl
  case late =>
    rw [exec_routeReturnArrival hm hd]
    exact congrArg _ (arriveReturn_late h)
  case accepted =>
    intro row y r k htok hopen hgen hlate hrow hy hp hdev hcore hlaunch hblock data z
    rw [exec_routeReturnArrival hm hd]
    exact congrArg _ (arriveReturn_accepted htok hopen hgen hlate hrow hy hp hdev hcore hlaunch hblock)
  case timeout =>
    rw [exec_routeTimeout]
    exact congrArg _ (expireTable_late hopen hd ht)
  case complete =>
    rw [completeTable_completes hopen hd hw hq, State.core_setCore_same]
    set c := s.core core
    set x := c.table t
    have htable : (mapGroups (c.completeAt t) fun _ g => if g.wait = .rx t then g.acquire 1 (c.completeAt t).nextId else g).table t =
        { x with open_ := false } := by
      change nth _ (c.completeAt t).tables t = _
      rw [completeAt_tables]
      exact nth_setNth_same _ _ _ _ ht
    refine ⟨by rw [htable], by rw [htable], fun hctr hlen => ?_, fun hr h6 => ?_,
      fun r j row hrow hr hj => ?_, fun a ha => ?_, fun hlive n hn hlen => completeAt_pair_tile c t hlive hn hlen⟩
    · change nth _ (c.completeAt t).counters _ = _
      rw [completeAt_counters]
      exact nth_setNth_same _ _ _ _ (hlen ▸ hctr)
    · change nth _ (c.completeAt t).queues _ = _
      rw [completeAt_queues c t hr]
      exact nth_setNth_same _ _ _ _ h6
    · change (c.completeAt t).tileData.nat _ _ = _
      rw [completeAt_tileData, nat_squareWrites hc hr hj, RxTable.sums, nth_of_getElem? hrow]
    · change (c.completeAt t).tileData.get _ = _
      rw [completeAt_tileData, get_squareWrites_other hc ha]
  case fold =>
    refine ⟨_, (exec_amergeFold s).trans (congrArg _ (foldAll_writes hg hp h0 h1 hdone hwide hwin hc)), ?_, ?_, ?_, ?_⟩
    · rw [State.group?, State.core_mapCore_same]
      refine group?_addCounter ?_ _ _
      change State.group? _ _ _ = _
      rw [State.group_mapGroup_same, State.group?, State.core_setCore_same]
      exact congrArg _ hg
    · intro hctr hlen
      rw [State.core_mapCore_same, State.core_mapGroup, State.core_setCore_same]
      exact Core.counter_addCounter_same _ (by simpa [hlen] using hctr)
    · intro i j a hi hj ha
      rw [State.core_mapCore_same, Core.addCounter_frame, State.core_mapGroup, State.core_setCore_same]
      exact nat_foldWrites hwin hc hi hj ha
    · intro b hb
      rw [State.core_mapCore_same, Core.addCounter_frame, State.core_mapGroup, State.core_setCore_same]
      exact get_foldWrites_other hc hb

end Sys2Proof.Machine
end

section
/-! PROOF. Rules of the KV contexts (07 R269 to R285): contexts by number, their windows and their entries, and the lines of
their spans. -/

namespace Sys2Proof.Machine

/-! ## Searches in lists that are changed in place -/

/-- Changing the elements that q names does not change whether p finds an element that q does not name. -/
theorem find?_map_if_other {α : Type} {p q : α → Bool} {f : α → α} (hp : ∀ x, q x = true → p x = false ∧ p (f x) = false)
    (xs : List α) : (xs.map fun x => if q x then f x else x).find? p = xs.find? p := by
  induction xs with
  | nil => rfl
  | cons x xs ih =>
    rw [List.map_cons, List.find?_cons, List.find?_cons, ih]
    by_cases hq : q x = true
    · rw [if_pos hq, (hp x hq).1, (hp x hq).2]
    · rw [if_neg hq]

/-- Changing the elements that p names, so that it still names them, changes what it finds. -/
theorem find?_map_if_same {α : Type} {p : α → Bool} {f : α → α} (hp : ∀ x, p x = true → p (f x) = true) (xs : List α) :
    (xs.map fun x => if p x then f x else x).find? p = (xs.find? p).map f := by
  induction xs with
  | nil => rfl
  | cons x xs ih =>
    rw [List.map_cons, List.find?_cons, List.find?_cons, ih]
    by_cases hq : p x = true
    · rw [if_pos hq, hq, hp x hq]
      rfl
    · rw [if_neg hq]
      simp only [hq]

/-! ## Contexts by number -/

theorem State.id_of_kv? {s : State} {id : Nat} {k : KvContext} (h : s.kv? id = some k) : k.id = id := by
  simpa using List.find?_some h

theorem State.kv?_mapKv {s : State} {id : Nat} {k : KvContext} (h : s.kv? id = some k) {f : KvContext → KvContext}
    (hf : ∀ k, k.id = id → (f k).id = id) : (s.mapKv id f).kv? id = some (f k) := by
  have hmap := find?_map_if_same (p := fun k : KvContext => k.id == id) (f := f) (by simpa using hf) s.kvs
  simp only [beq_iff_eq] at hmap
  exact hmap.trans (congrArg _ h)

theorem State.kv?_congr {s t : State} (h : t.kvs = s.kvs) (id : Nat) : t.kv? id = s.kv? id := by
  rw [State.kv?, State.kv?, h]

/-- A context is its own when every context of its number is replaced by the one found. -/
theorem State.mapKv_mapKv (s : State) (id : Nat) (f g : KvContext → KvContext) (hf : ∀ k, k.id = id → (f k).id = id) :
    (s.mapKv id f).mapKv id g = s.mapKv id fun k => g (f k) := by
  simp only [State.mapKv, List.map_map]
  congr 1
  refine List.map_congr_left fun k _ => ?_
  by_cases h : k.id = id
  · simp only [Function.comp_apply, h, hf k h, if_true]
  · simp only [Function.comp_apply, h, if_false]

/-! ## Windows -/

theorem KvContext.window_setWindow_same {k : KvContext} {w : Nat} (x : KvWindow) (h : w < k.windows.length) :
    (k.setWindow w x).window w = x := nth_setNth_same _ _ _ _ h

theorem KvContext.window_setWindow_other (k : KvContext) {w v : Nat} (x : KvWindow) (h : v ≠ w) :
    (k.setWindow w x).window v = k.window v := nth_setNth_other _ _ _ _ _ h

/-! ## Entries -/

theorem isAt_iff {e : KvEntry} {seq head page : Nat} : e.isAt seq head page = true ↔ e.seq = seq ∧ e.head = head ∧ e.page = page := by
  simp [KvEntry.isAt, and_assoc]

theorem KvContext.isAt_of_entry? {k : KvContext} {seq head page : Nat} {e : KvEntry} (h : k.entry? seq head page = some e) :
    e.seq = seq ∧ e.head = head ∧ e.page = page := isAt_iff.1 (List.find?_some (p := fun e : KvEntry => e.isAt seq head page) h)

section
variable {seq head page : Nat} {f : KvEntry → KvEntry}

theorem KvContext.entry?_mapEntry_same (hf : ∀ e, e.isAt seq head page = true → (f e).isAt seq head page = true) (k : KvContext) :
    (k.mapEntry seq head page f).entry? seq head page = (k.entry? seq head page).map f := find?_map_if_same hf k.entries

theorem KvContext.entry?_mapEntry_other (hf : ∀ e, e.isAt seq head page = true → (f e).isAt seq head page = true) (k : KvContext)
    {a b c : Nat} (h : (a, b, c) ≠ (seq, head, page)) : (k.mapEntry seq head page f).entry? a b c = k.entry? a b c := by
  have hother : ∀ e : KvEntry, e.isAt seq head page = true → e.isAt a b c = false := by
    intro e he
    obtain ⟨rfl, rfl, rfl⟩ := isAt_iff.1 he
    refine Bool.eq_false_iff.2 fun hc => h ?_
    obtain ⟨rfl, rfl, rfl⟩ := isAt_iff.1 hc
    rfl
  exact find?_map_if_other (p := fun e : KvEntry => e.isAt a b c) (fun e he => ⟨hother e he, hother _ (hf e he)⟩) k.entries
end

/-- The entry of a page that has just been mapped. -/
def newEntry (k : KvContext) (seq head page : Nat) (wh : Bool) (win : Nat) : KvEntry :=
  { seq := seq, head := head, page := page, state := .resident, wh := wh, win := win, busy := false, fetch := 0
    enc := k.defaultEnc, elems := [], metas := [], frame := 0 }

section
variable (k : KvContext) (seq head page : Nat) (wh : Bool) (win : Nat)

theorem KvContext.entry?_alloc_same (h : k.entry? seq head page = none) :
    (k.alloc seq head page wh win).entry? seq head page = some (newEntry k seq head page wh win) := by
  refine List.find?_append.trans ?_
  rw [show k.entries.find? _ = none from h, Option.none_or]
  refine List.find?_cons_of_pos ?_
  exact isAt_iff.2 ⟨rfl, rfl, rfl⟩

theorem KvContext.entry?_alloc_other {a b c : Nat} (h : (a, b, c) ≠ (seq, head, page)) :
    (k.alloc seq head page wh win).entry? a b c = k.entry? a b c := by
  refine List.find?_append.trans ?_
  have hnew : [newEntry k seq head page wh win].find? (fun e => e.isAt a b c) = none := by
    refine List.find?_eq_none.2 fun e he hc => h ?_
    obtain rfl := List.mem_singleton.1 he
    obtain ⟨rfl, rfl, rfl⟩ := isAt_iff.1 hc
    rfl
  exact (congrArg _ hnew).trans Option.or_none
end

/-! ## Lines of spans -/

theorem readSpans_onlyHomes (s : State) (ps : List KvSpan) : OnlyHomes s (readSpans s ps) :=
  foldl_onlyHomes (fun s d => touchL2_onlyHomes s d false) _ s

theorem writeSpans_onlyHomes (s : State) (ps : List KvSpan) : OnlyHomes s (writeSpans s ps) :=
  foldl_onlyHomes (fun s _ => foldl_onlyHomes (fun _ d => OnlyHomes.trans (by rfl) (touchL2_onlyHomes _ d true)) _ s) ps s

theorem OnlyHomes.kv? {s t : State} (h : OnlyHomes s t) (id : Nat) : t.kv? id = s.kv? id := by rw [h]; rfl

theorem OnlyHomes.group? {s t : State} (h : OnlyHomes s t) (core slot : Nat) : t.group? core slot = s.group? core slot := by
  rw [h]; rfl

/-- The line of a byte of a span is one of its lines, and each of its lines is that of one of its bytes. -/
theorem mem_spanLines {p : KvSpan} {d : Nat} : d ∈ spanLines p ↔ ∃ b, b < p.2 ∧ d = lineOf (p.1 + b) := by
  unfold spanLines lineOf
  by_cases h : p.2 = 0
  · simp [h]
  simp only [h, if_false, List.mem_map, List.mem_range]
  constructor
  · rintro ⟨i, hi, rfl⟩
    exact ⟨128 * i - p.1 % 128, by omega, by omega⟩
  · rintro ⟨b, hb, rfl⟩
    exact ⟨(p.1 % 128 + b) / 128, by omega, by omega⟩

theorem spansPoisoned_iff {s : State} {ps : List KvSpan} :
    spansPoisoned s ps = true ↔ ∃ p ∈ ps, ∃ b, b < p.2 ∧ s.poisonedAt (p.1 + b) = true := by
  have hline : ∀ a, s.poisonedAt (lineOf a) = s.poisonedAt a := fun a => by
    rw [State.poisonedAt, State.poisonedAt, lineOf, lineOf, Nat.mul_div_cancel _ (by decide)]
  simp only [spansPoisoned, List.any_eq_true, List.mem_flatMap, mem_spanLines]
  constructor
  · rintro ⟨_, ⟨p, hp, b, hb, rfl⟩, hd⟩
    exact ⟨p, hp, b, hb, (hline _).symm.trans hd⟩
  · rintro ⟨p, hp, b, hb, hd⟩
    exact ⟨_, ⟨p, hp, b, hb, rfl⟩, (hline _).trans hd⟩

end Sys2Proof.Machine
end

section
/-! PROOF. K-space accesses become pending, and the group's first one performs or sends its lanes (07 R272, R276, R281, R282). -/

namespace Sys2Proof.Machine

/-! ## Issue (R276, R282) -/

/-- The lanes of a K-space access, as they are issued. -/
def kvLanes (s : State) (x : Issuer) (i : Instr) (op : KvOp) (w : Base) (e : ExtM) : List KvLane :=
  (lanesOf (activeOf x i)).map fun l =>
    { lane := l, sel := val32 s x e.sa w.a.toNat l, pos := vget s x w.b.toNat l
      data := if op = .kld then 0#32 else vget s x w.d.toNat l, stage := .issued }

theorem KvOp.isStore_eq_false {op : KvOp} : op.isStore = false ↔ op = .kld := by cases op <;> decide

theorem kvLanes_eq (s : State) (x : Issuer) (i : Instr) (op : KvOp) (w : Base) (e : ExtM) :
    ((lanesOf (activeOf x i)).map fun l =>
      ({ lane := l, sel := val32 s x e.sa w.a.toNat l, pos := vget s x w.b.toNat l
         data := if op.isStore then vget s x w.d.toNat l else 0#32, stage := .issued } : KvLane)) = kvLanes s x i op w e := by
  cases op <;> rfl

/-- An access all of whose lanes pass the checks of Table 7.6 becomes pending with every active lane. -/
theorem kvAccess_pending {s : State} {x : Issuer} {i : Instr} {op : KvOp} {w : Base} {e : ExtM} {k : KvContext} {g' : Group}
    (hx : Executes s x i) (hk : kvOf s x.g.launch = some k) :
    let fmt := nth 0#32 x.l.rec_.formats e.size.toNat
    let tag := if e.off.getLsbD 4 then some (e.off.extractLsb' 0 4).toNat else none
    (∀ l ∈ kvLanes s x i op w e, kvCheckCoord k op (slotBits fmt) tag.isSome l.sel l.pos = none ∧
      kvCheckState k op tag l.sel l.pos = none) → kvLanes s x i op w e ≠ [] →
    let t := (s.mapGroup x.core x.slot fun g => g.addPend (s.core x.core).nextId (.kv
      { site := siteOf x i, op := op, ctx := k.id, fmt := fmt, dReg := w.d.toNat
        stReg := (e.off.extractLsb' 5 7).toNat, tag := tag, win := x.g.winmap, scalarSel := e.sa
        lanes := kvLanes s x i op w e })).mapCore x.core Core.tick
    t.group? x.core x.slot = some g' → g'.ended = false → kvAccess s i op w e = .next (goesOn t x i) := by
  intro fmt tag hpass hne t hg he
  have hcheck : ∀ l ∈ kvLanes s x i op w e, ((kvCheckCoord k op (slotBits fmt) tag.isSome l.sel l.pos) <|>
      (if x.g.kvCtlPending then none else kvCheckState k op tag l.sel l.pos)) = none := fun l hl => by
    rw [(hpass l hl).1, (hpass l hl).2, ite_self]
    rfl
  have hbad : (kvLanes s x i op w e).filterMap (fun l => ((kvCheckCoord k op (slotBits fmt) tag.isSome l.sel l.pos) <|>
      (if x.g.kvCtlPending then none else kvCheckState k op tag l.sel l.pos)).map fun d => kvLate (siteOf x i) l d) = [] :=
    List.filterMap_eq_nil_iff.2 fun l hl => by rw [hcheck l hl]; rfl
  have hok : (kvLanes s x i op w e).filter (fun l => ((kvCheckCoord k op (slotBits fmt) tag.isSome l.sel l.pos) <|>
      (if x.g.kvCtlPending then none else kvCheckState k op tag l.sel l.pos)).isNone) = kvLanes s x i op w e :=
    List.filter_eq_self.2 fun l hl => by rw [hcheck l hl]; rfl
  rw [kvAccess, runInstr_executes hx]
  simp only [hk, kvLanes_eq, fmt, tag] at hbad hok ⊢
  rw [hbad, hok, if_neg (by simpa using hne)]
  refine congrArg _ ?_
  exact congrArg (settleAct s x i) (doneOrGone_of_live hg he)

/-- Without a KV context a K-space instruction is not part of the launch's set. -/
theorem kvAccess_unbound {s : State} {x : Issuer} {i : Instr} (hx : Executes s x i) (hk : kvOf s x.g.launch = none) (op : KvOp)
    (w : Base) (e : ExtM) : kvAccess s i op w e = .next (instrTrap s x i .illegalEncoding 0xE 0#32) := by
  rw [kvAccess, runInstr_executes hx, hk]
  rfl

theorem kvCtl_unbound {s : State} {x : Issuer} {i : Instr} (hx : Executes s x i) (hk : kvOf s x.g.launch = none) (op : KvCtlOp)
    (w : Base) (e : ExtC) : kvCtl s i op w e = .next (instrTrap s x i .illegalEncoding 0xE 0#32) := by
  refine (runInstr_executes hx _).trans ?_
  rw [hk]
  rfl

/-- A control operation, as it is issued. -/
def issuedCtl (x : Issuer) (i : Instr) (op : KvCtlOp) (w : Base) (e : ExtC) (k : KvContext) : KvCtl :=
  let win := op == .kopen || op == .kcommit || op == .kdrop
  { site := siteOf x i, op := op, ctx := k.id, lane := elect (activeOf x i)
    window := if win then e.imm.toNat % 16 else 0
    sel := if e.sa then x.g.sreg w.a.toNat else 0#64, vec := win && e.imm.getLsbD 4, cv := win && e.imm.getLsbD 5
    ctr := (e.imm.extractLsb' 6 6).toNat, n := if op = .kcommit then (e.imm.extractLsb' 12 8).toNat else 0
    dReg := w.d.toNat, stage := .issued }

/-- What an issued control operation does. -/
def ctlAct (s : State) (x : Issuer) (k : KvContext) (c : KvCtl) : Act :=
  match (ctlCheck k c) <|> (if x.g.kvCtlPending then none else ctlCheckState k c) with
  | some d => doneOrGone (faultLanes s x [ctlLate c .kvFault d 0#64]) x
  | none =>
    if !x.g.kvCtlPending && !commitBytes k x.b c then doneOrGone (faultLanes s x [ctlLate c .addrRegion 4 c.sel]) x
    else .done ((s.mapGroup x.core x.slot fun g => g.addPend (s.core x.core).nextId (.kvCtl c)).mapCore x.core Core.tick)

theorem kvCtl_acts {s : State} {x : Issuer} {i : Instr} {k : KvContext} (hx : Executes s x i) (hk : kvOf s x.g.launch = some k)
    (op : KvCtlOp) (w : Base) (e : ExtC) :
    kvCtl s i op w e = .next (settleAct s x i (ctlAct s x k (issuedCtl x i op w e k))) := by
  refine (runInstr_executes hx _).trans ?_
  have hwin : e.imm.toNat % 16 = (e.imm.extractLsb' 0 4).toNat := (toNat_low e.imm 4).symm
  rw [hk, issuedCtl, hwin]
  cases op <;> rfl

/-- A control operation that passes its checks becomes pending. -/
theorem ctlAct_pending {s : State} {x : Issuer} {k : KvContext} {c : KvCtl} (hp : x.g.kvCtlPending = false)
    (h : ctlCheck k c = none) (hs : ctlCheckState k c = none) (hb : commitBytes k x.b c = true) :
    ctlAct s x k c =
      .done ((s.mapGroup x.core x.slot fun g => g.addPend (s.core x.core).nextId (.kvCtl c)).mapCore x.core Core.tick) := by
  simp [ctlAct, hp, h, hs, hb]

theorem dedup_map_const {α β : Type} [DecidableEq β] {f : α → β} {b : β} : ∀ xs : List α, xs ≠ [] → (∀ x ∈ xs, f x = b) →
    dedup (xs.map f) = [b]
  | [], h, _ => absurd rfl h
  | [x], _, h => by rw [List.map_singleton, h x List.mem_cons_self]; rfl
  | x :: y :: xs, _, h => by
    have hmem : f x ∈ (y :: xs).map f := List.mem_map.2 ⟨y, List.mem_cons_self, by rw [h x (by simp), h y (by simp)]⟩
    rw [List.map_cons, dedup, if_pos hmem]
    exact dedup_map_const (y :: xs) (by simp) fun z hz => h z (List.mem_cons_of_mem _ hz)

/-! ## The group's first access (R272, R281) -/

section
variable {s : State} {core slot id : Nat} {g : Group} {a : KvAccess} {k : KvContext} (hg : s.group? core slot = some g)
  (hp : g.pend? id = some (.kv a)) (hfirst : g.kvFirst id = true) (hk : s.kv? a.ctx = some k)
  (hl : ∀ l ∈ a.lanes, l.stage = .issued ∧ kvBusy k a l = false)
include hl

theorem serveKv_issued (t : State) : serveKv t core slot id a k = t := by
  have hnone : a.lanes.filter (fun l => l.stage == .arrived && !kvBusy k a l) = [] :=
    List.filter_eq_nil_iff.2 fun l hl' => by rw [(hl l hl').1]; simp
  rw [serveKv, hnone]
  rfl

include hg hp hfirst hk

/-- An access all of whose lanes lie at home performs them and ends. -/
theorem landKvOp_near (hn : ∀ l ∈ a.lanes, kvFar k core a l = false) : landKvOp s core slot id =
    (a.lanes.foldl (fun t l => performKvLane t core slot a l) s).mapGroup core slot fun g => g.dropPend id := by
  have hnear : a.lanes.filter (fun l => (l.stage == .issued && !kvBusy k a l) && !kvFar k core a l) = a.lanes :=
    List.filter_eq_self.2 fun l hl' => by rw [(hl l hl').1, (hl l hl').2, hn l hl']; rfl
  have hfar : a.lanes.filter (fun l => (l.stage == .issued && !kvBusy k a l) && kvFar k core a l) = [] :=
    List.filter_eq_nil_iff.2 fun l hl' => by rw [hn l hl']; simp
  have hstay : (a.stage (fun l => (l.stage == .issued && !kvBusy k a l) && kvFar k core a l) .crossing).lanes = a.lanes := by
    refine (List.map_congr_left fun l hl' => if_neg ?_).trans (List.map_id _)
    simp only [hn l hl', Bool.and_false]
    exact Bool.false_ne_true
  have hnone : (a.lanes.filter fun l => !a.lanes.contains l) = [] :=
    List.filter_eq_nil_iff.2 fun l hl' => by simp [hl']
  simp only [landKvOp, hg, hfirst, hp, hk, Bool.not_true, Bool.false_eq_true, if_false, hnear, hfar, hstay, hnone,
    serveKv_issued hl]
  rfl

/-- An access all of whose lanes write one place on the other die sends them there as one message (08 R305). -/
theorem landKvOp_far {p : Nat} (hne : a.lanes ≠ [])
    (hf : ∀ l ∈ a.lanes, kvFar k core a l = true ∧ kvBase k (kvCoord l.sel l.pos) = p) : landKvOp s core slot id =
    sendMsg (s.mapGroup core slot fun g => g.setPend id (.kv { a with lanes := a.lanes.map fun l => { l with stage := .crossing } }))
      (dieOf core) (.kv core slot id (a.lanes.map fun l => l.lane)) := by
  have hnear : a.lanes.filter (fun l => (l.stage == .issued && !kvBusy k a l) && !kvFar k core a l) = [] :=
    List.filter_eq_nil_iff.2 fun l hl' => by rw [(hf l hl').1]; simp
  have hfar : a.lanes.filter (fun l => (l.stage == .issued && !kvBusy k a l) && kvFar k core a l) = a.lanes :=
    List.filter_eq_self.2 fun l hl' => by rw [(hl l hl').1, (hl l hl').2, (hf l hl').1]; rfl
  have hcross : a.stage (fun l => (l.stage == .issued && !kvBusy k a l) && kvFar k core a l) .crossing =
      { a with lanes := a.lanes.map fun l => { l with stage := .crossing } } := by
    refine congrArg (fun ls => { a with lanes := ls }) (List.map_congr_left fun l hl' => if_pos ?_)
    simp only [(hl l hl').1, (hl l hl').2, (hf l hl').1]
    rfl
  have hplace : dedup (a.lanes.map fun l => kvBase k (kvCoord l.sel l.pos)) = [p] :=
    dedup_map_const _ hne fun l hl' => (hf l hl').2
  have hall : a.lanes.filter (fun l => kvBase k (kvCoord l.sel l.pos) == p) = a.lanes :=
    List.filter_eq_self.2 fun l hl' => by simp [(hf l hl').2]
  simp only [landKvOp, hg, hfirst, hp, hk, Bool.not_true, Bool.false_eq_true, if_false, hnear, hfar, hcross, hplace,
    serveKv_issued hl]
  have hkeep : ∀ ls : List KvLane, ls.filter (fun l => !([] : List KvLane).contains l) = ls :=
    fun ls => List.filter_eq_self.2 fun l _ => by simp
  have hne' : (a.lanes.map fun l => { l with stage := .crossing }).isEmpty = false := by simpa using hne
  rw [List.foldl_cons, List.foldl_nil, hall, hkeep]
  simp only [Group.setKv, hne', Bool.false_eq_true, if_false]
  rfl
end

end Sys2Proof.Machine
end

section
/-! PROOF. What KLD, KST and KSTS of one lane do, case by case (07 R278 to R280). -/

namespace Sys2Proof.Machine

/-! ## The status of a page (Table 7.7) -/

section
variable {k : KvContext} {c : KvCoord}

theorem pageStatus_absent (h : k.entry? c.seq c.head (c.pos / 64) = none) : pageStatus k c = (k, 1, none) := by
  rw [pageStatus, h]

variable {e : KvEntry} (h : k.entry? c.seq c.head (c.pos / 64) = some e)
include h

theorem pageStatus_secondTier (he : e.state = .secondTier) :
    pageStatus k c = (k.mapEntry c.seq c.head (c.pos / 64) fun e => { e with fetch := 1 }, 2, none) := by
  simp only [pageStatus, h, he]

theorem pageStatus_poisoned (he : e.state = .poisoned) : pageStatus k c = (k, 4, none) := by
  simp only [pageStatus, h, he]

theorem pageStatus_resident (he : e.state = .resident) : pageStatus k c = (k, 0, some e) := by
  simp only [pageStatus, h, he]
end

theorem pageStatus_keeps (k : KvContext) (c : KvCoord) : (pageStatus k c).1.id = k.id ∧ (pageStatus k c).2.1 ≤ 4 := by
  unfold pageStatus
  split
  · exact ⟨rfl, by simp⟩
  · split <;> exact ⟨rfl, by simp⟩

/-! ## KLD -/

/-- The first position that an access does not see. -/
def visibleTop (k : KvContext) (tag : Option Nat) (c : KvCoord) : Nat :=
  k.len c.seq + (match tag with | some w => if k.mine tag c.seq then (k.window w).depthOf c.seq else 0 | none => 0)

/-- What a load gives of a page's status. -/
def pageLoad (fmt : Word) (c : KvCoord) : KvContext × Nat × Option KvEntry → KvContext × Nat × Word
  | (q, _, some p) => (q, 0, packElems (slotBits fmt)
      ((elemNums (slotBits fmt) c.word).map fun j => toElem fmt (q.value p c.plane c.pos j)))
  | (q, st, none) => (q, st, 0#32)

theorem pageLoad_keeps (fmt : Word) (c : KvCoord) (r : KvContext × Nat × Option KvEntry) :
    (pageLoad fmt c r).1 = r.1 ∧ (pageLoad fmt c r).2.1 ≤ r.2.1 := by
  obtain ⟨q, st, p⟩ := r
  cases p
  · exact ⟨rfl, Nat.le_refl _⟩
  · exact ⟨rfl, Nat.zero_le _⟩

section
variable {k : KvContext} {fmt : Word} {tag : Option Nat} {c : KvCoord}

theorem kvLoad_beyond (hc : c.plane ≠ 2) (h : visibleTop k tag c ≤ c.pos) : kvLoad k fmt tag c = (k, 3, 0#32) := by
  unfold kvLoad
  exact (if_neg hc).trans (if_pos h)

theorem kvLoad_visible (hc : c.plane ≠ 2) (h : c.pos < visibleTop k tag c) :
    kvLoad k fmt tag c = pageLoad fmt c (pageStatus k c) := by
  unfold kvLoad
  exact ((if_neg hc).trans (if_neg (Nat.not_le.2 h))).trans (by rfl)

/-- A state element, as an access sees it. -/
def stateWord (k : KvContext) (tag : Option Nat) (c : KvCoord) (j : Nat) : Word :=
  (match tag with
    | some w => if k.mine tag c.seq then ((k.window w).stateAt c.seq c.head j (c.pos + 1)).map fun (b : Nat × Word) => b.2 else none
    | none => none).getD (k.committed.get (stateIx k c.seq c.head j))

theorem kvLoad_state (hc : c.plane = 2) : kvLoad k fmt tag c = (k, 0, packElems (slotBits fmt)
    ((elemNums (slotBits fmt) c.word).map fun j => toElem fmt (dec .fp32 (stateWord k tag c j).toNat))) := by
  unfold kvLoad
  refine (if_pos hc).trans ?_
  refine congrArg (fun f => (k, 0, packElems (slotBits fmt) ((elemNums (slotBits fmt) c.word).map f))) (funext fun j => ?_)
  refine congrArg (fun v : Word => toElem fmt (dec .fp32 v.toNat)) ?_
  cases tag with
  | none => rfl
  | some w =>
    simp only [stateWord]
    split
    · cases (k.window w).stateAt c.seq c.head j (c.pos + 1) <;> rfl
    · rfl

/-- A load keeps its context's number, and its status is one of Table 7.7. -/
theorem kvLoad_keeps (k : KvContext) (fmt : Word) (tag : Option Nat) (c : KvCoord) :
    (kvLoad k fmt tag c).1.id = k.id ∧ (kvLoad k fmt tag c).2.1 ≤ 4 := by
  by_cases hc : c.plane = 2
  · rw [kvLoad_state hc]
    exact ⟨rfl, Nat.zero_le _⟩
  rcases Nat.lt_or_ge c.pos (visibleTop k tag c) with h | h
  · obtain ⟨hid, hle⟩ := pageStatus_keeps k c
    obtain ⟨hq, hst⟩ := pageLoad_keeps fmt c (pageStatus k c)
    rw [kvLoad_visible hc h, hq]
    exact ⟨hid, hst.trans hle⟩
  · rw [kvLoad_beyond hc h]
    exact ⟨rfl, by simp⟩
end

/-! ## KST -/

/-- A store of the lane is in range: a tagged one in the draft range, another below the capacity. -/
def storable (k : KvContext) (tag : Option Nat) (c : KvCoord) : Bool :=
  match tag with | some _ => k.inDraft c.seq c.pos | none => decide (c.pos < k.capacity)

/-- The context with the page that a tagged store maps, when the pool has one. -/
def withPage (k : KvContext) (tag : Option Nat) (c : KvCoord) : KvContext :=
  match tag with
  | some w => if (k.entry? c.seq c.head (c.pos / 64)).isNone && k.hasPage then k.alloc c.seq c.head (c.pos / 64) true w else k
  | none => k

/-- An entry with the elements of a stored word. -/
def storeElems (k : KvContext) (fmt : Word) (c : KvCoord) (data : Word) (enc : BitVec 11) (p : KvEntry) : KvEntry :=
  { p with elems := ((elemNums (slotBits fmt) c.word).zip ((wordElems (slotBits fmt) data).map fun x =>
      toPage (slotOfEnc enc) (elemValue fmt x Latch.one))).foldl (fun (m : WordMap) x =>
        m.set (k.elemIx c.plane c.pos x.1) (BitVec.ofNat 32 x.2)) p.elems }

/-- A tagged store raises the draft depth of its sequence. -/
def raiseDepth (k : KvContext) (tag : Option Nat) (c : KvCoord) : KvContext :=
  match tag with
  | some w => k.setWindow w { k.window w with
      depth := (k.window w).depth.set (c.seq - (k.window w).first) (max ((k.window w).depthOf c.seq) (c.pos - k.len c.seq + 1)) }
  | none => k

/-- What a store does to a page of a status. -/
def pageStore (fmt : Word) (tag : Option Nat) (c : KvCoord) (data : Word) : KvContext × Nat × Option KvEntry → KvContext × Nat
  | (q, _, some p) => (raiseDepth (q.mapEntry c.seq c.head (c.pos / 64) (storeElems q fmt c data p.enc)) tag c, 0)
  | (q, st, none) => (q, st)

section
variable {k : KvContext} {fmt : Word} {tag : Option Nat} {c : KvCoord} {data : Word}

theorem kvStore_refused (h : storable k tag c = false) : kvStore k fmt tag c data = (k, 3) := by
  unfold kvStore
  refine if_pos ?_
  change (!storable k tag c) = true
  rw [h]
  rfl

theorem kvStore_allowed (h : storable k tag c = true) :
    kvStore k fmt tag c data = pageStore fmt tag c data (pageStatus (withPage k tag c) c) := by
  have hrun : ¬((!storable k tag c) = true) := by
    rw [h]
    decide
  unfold kvStore
  refine (if_neg hrun).trans ?_
  cases tag <;> rfl

theorem raiseDepth_id (k : KvContext) (tag : Option Nat) (c : KvCoord) : (raiseDepth k tag c).id = k.id := by
  cases tag <;> rfl

theorem withPage_id (k : KvContext) (tag : Option Nat) (c : KvCoord) : (withPage k tag c).id = k.id := by
  cases tag with
  | none => rfl
  | some w =>
    simp only [withPage]
    split <;> rfl

theorem pageStore_keeps (fmt : Word) (tag : Option Nat) (c : KvCoord) (data : Word) (r : KvContext × Nat × Option KvEntry) :
    (pageStore fmt tag c data r).1.id = r.1.id ∧ (pageStore fmt tag c data r).2 ≤ r.2.1 := by
  obtain ⟨q, st, p⟩ := r
  cases p with
  | none => exact ⟨rfl, Nat.le_refl _⟩
  | some p => exact ⟨raiseDepth_id .., Nat.zero_le _⟩

/-- A store keeps its context's number, and its status is one of Table 7.7. -/
theorem kvStore_keeps (k : KvContext) (fmt : Word) (tag : Option Nat) (c : KvCoord) (data : Word) :
    (kvStore k fmt tag c data).1.id = k.id ∧ (kvStore k fmt tag c data).2 ≤ 4 := by
  cases h : storable k tag c with
  | false =>
    rw [kvStore_refused h]
    exact ⟨rfl, by simp⟩
  | true =>
    obtain ⟨hid, hle⟩ := pageStatus_keeps (withPage k tag c) c
    rw [kvStore_allowed h]
    obtain ⟨hq, hst⟩ := pageStore_keeps fmt tag c data (pageStatus (withPage k tag c) c)
    exact ⟨hq.trans (hid.trans (withPage_id ..)), hst.trans hle⟩
end

/-! ## KSTS -/

/-- The elements that a KSTS writes, each with its value. -/
def stateWrites (fmt : Word) (c : KvCoord) (data : Word) : List (Nat × Word) :=
  (elemNums (slotBits fmt) c.word).zip
    ((wordElems (slotBits fmt) data).map fun x => BitVec.ofNat 32 (rnd .fp32 .std (elemValue fmt x Latch.one)))

/-- The record is of the position and state slot. -/
def KvRecord.isOf (r : KvRecord) (c : KvCoord) : Bool := r.seq == c.seq && r.pos == c.pos && r.slot == c.head

/-- A window with a record of the position and state slot. -/
def KvWindow.withRecord (x : KvWindow) (c : KvCoord) : List KvRecord :=
  if x.records.any fun r => r.isOf c then x.records else x.records ++ [{ seq := c.seq, pos := c.pos, slot := c.head, elems := [] }]

/-- A window with a KSTS in its record. -/
def KvWindow.record (x : KvWindow) (fmt : Word) (c : KvCoord) (data : Word) : KvWindow :=
  { x with records := (x.withRecord c).map fun r =>
      if r.isOf c then { r with elems := (stateWrites fmt c data).foldl (fun m y => assocSet m y.1 y.2) r.elems } else r }

/-- The window has a record at the position, or may take one more. -/
def KvWindow.hasRoom (x : KvWindow) (k : KvContext) (c : KvCoord) : Bool :=
  let mine := x.records.filter fun r => r.seq == c.seq
  mine.any (fun r => r.pos == c.pos) || decide ((dedup (mine.map fun r => r.pos)).length < k.draftStates)

section
variable {k : KvContext} {fmt : Word} {c : KvCoord} {data : Word} {w : Nat}

theorem kvStateStore_committed : kvStateStore k fmt none c data = ({ k with
    committed := (stateWrites fmt c data).foldl (fun (m : WordMap) x => m.set (stateIx k c.seq c.head x.1) x.2) k.committed }, 0) := rfl

theorem kvStateStore_refused (h : k.inDraft c.seq c.pos = false) : kvStateStore k fmt (some w) c data = (k, 3) := by
  simp only [kvStateStore, h, Bool.not_false, if_true]

theorem kvStateStore_full (h : k.inDraft c.seq c.pos = true) (hr : (k.window w).hasRoom k c = false) :
    kvStateStore k fmt (some w) c data = (k, 1) := by
  obtain ⟨hno, hfull⟩ := Bool.or_eq_false_iff.1 hr
  have hstop : (!((k.window w).records.filter fun r => r.seq == c.seq).any (fun r => r.pos == c.pos) && decide (k.draftStates ≤
      (dedup (((k.window w).records.filter fun r => r.seq == c.seq).map fun r => r.pos)).length)) = true := by
    rw [hno]
    exact decide_eq_true (Nat.not_lt.1 (of_decide_eq_false hfull))
  simp only [kvStateStore, h, Bool.not_true, Bool.false_eq_true, if_false]
  exact if_pos hstop

theorem kvStateStore_record (h : k.inDraft c.seq c.pos = true) (hr : (k.window w).hasRoom k c = true) :
    kvStateStore k fmt (some w) c data = (k.setWindow w ((k.window w).record fmt c data), 0) := by
  have hgo : ¬((!((k.window w).records.filter fun r => r.seq == c.seq).any (fun r => r.pos == c.pos) && decide (k.draftStates ≤
      (dedup (((k.window w).records.filter fun r => r.seq == c.seq).map fun r => r.pos)).length)) = true) := by
    rw [Bool.and_eq_true, Bool.not_eq_true', decide_eq_true_eq]
    rintro ⟨hno, hfull⟩
    rcases (Bool.or_eq_true ..).mp hr with hany | hroom
    · exact Bool.false_ne_true (hno.symm.trans hany)
    · exact absurd (of_decide_eq_true hroom) (Nat.not_lt.2 hfull)
  simp only [kvStateStore, h, Bool.not_true, Bool.false_eq_true, if_false]
  exact (if_neg hgo).trans (by rfl)

theorem kvStateStore_keeps (k : KvContext) (fmt : Word) (tag : Option Nat) (c : KvCoord) (data : Word) :
    (kvStateStore k fmt tag c data).1.id = k.id ∧ (kvStateStore k fmt tag c data).2 ≤ 4 := by
  cases tag with
  | none => exact ⟨rfl, Nat.zero_le _⟩
  | some w =>
    cases h : k.inDraft c.seq c.pos with
    | false =>
      rw [kvStateStore_refused h]
      exact ⟨rfl, by simp⟩
    | true =>
      cases hr : (k.window w).hasRoom k c with
      | false =>
        rw [kvStateStore_full h hr]
        exact ⟨rfl, by simp⟩
      | true =>
        rw [kvStateStore_record h hr]
        exact ⟨rfl, Nat.zero_le _⟩
end

end Sys2Proof.Machine
end

section
/-! PROOF. One lane of a K-space access performs at its home: its context, its status and its data (07 R272, R278). -/

namespace Sys2Proof.Machine

/-- What the access of a lane gives: the context after it, the status and the data. -/
def kvResult (s : State) (k : KvContext) (a : KvAccess) (l : KvLane) : KvContext × Nat × Word :=
  let c := kvCoord l.sel l.pos
  let tag := if k.mine a.tag c.seq then a.tag else none
  if a.op = .kld then
    if spansPoisoned s (kvSpans k a.fmt c) = true ∧ (kvLoad k a.fmt tag c).2.1 = 0 then
      (k.poison c.seq c.head (c.pos / 64), 4, 0#32)
    else kvLoad k a.fmt tag c
  else if a.op = .kst then ((kvStore k a.fmt a.tag c l.data).1, (kvStore k a.fmt a.tag c l.data).2, 0#32)
  else ((kvStateStore k a.fmt a.tag c l.data).1, (kvStateStore k a.fmt a.tag c l.data).2, 0#32)

/-- A load's window, where it holds the lane's sequence. -/
def loadTag (k : KvContext) (a : KvAccess) (l : KvLane) : Option Nat :=
  if k.mine a.tag (kvCoord l.sel l.pos).seq then a.tag else none

section
variable {a : KvAccess} (s : State) (k : KvContext) (l : KvLane)

theorem kvResult_kld (h : a.op = .kld) : kvResult s k a l =
    if spansPoisoned s (kvSpans k a.fmt (kvCoord l.sel l.pos)) = true ∧
        (kvLoad k a.fmt (loadTag k a l) (kvCoord l.sel l.pos)).2.1 = 0 then
      (k.poison (kvCoord l.sel l.pos).seq (kvCoord l.sel l.pos).head ((kvCoord l.sel l.pos).pos / 64), 4, 0#32)
    else kvLoad k a.fmt (loadTag k a l) (kvCoord l.sel l.pos) := if_pos h

theorem kvResult_kst (h : a.op = .kst) : kvResult s k a l =
    ((kvStore k a.fmt a.tag (kvCoord l.sel l.pos) l.data).1, (kvStore k a.fmt a.tag (kvCoord l.sel l.pos) l.data).2, 0#32) := by
  simp [kvResult, h]

theorem kvResult_ksts (h : a.op = .ksts) : kvResult s k a l =
    ((kvStateStore k a.fmt a.tag (kvCoord l.sel l.pos) l.data).1,
      (kvStateStore k a.fmt a.tag (kvCoord l.sel l.pos) l.data).2, 0#32) := by
  simp [kvResult, h]
end

/-- An access keeps its context's number, and its status is one of Table 7.7. -/
theorem kvResult_keeps (s : State) (k : KvContext) (a : KvAccess) (l : KvLane) :
    (kvResult s k a l).1.id = k.id ∧ (kvResult s k a l).2.1 ≤ 4 := by
  cases h : a.op with
  | kld =>
    rw [kvResult_kld s k l h]
    split
    · exact ⟨rfl, Nat.le_refl _⟩
    · exact kvLoad_keeps ..
  | kst =>
    rw [kvResult_kst s k l h]
    exact kvStore_keeps ..
  | ksts =>
    rw [kvResult_ksts s k l h]
    exact kvStateStore_keeps ..

theorem poisonRead_eq (k : KvContext) (bad : Bool) (c : KvCoord) (r : KvContext × Nat × Word) : poisonRead k bad c r =
    if bad = true ∧ r.2.1 = 0 then (k.poison c.seq c.head (c.pos / 64), 4, 0#32) else r := by
  unfold poisonRead
  congr 1
  simp

/-- A write changes its context, and of the rest only homes of lines. -/
theorem kvWritten_changes {s : State} {k q : KvContext} {a : KvAccess} (hk : s.kv? a.ctx = some k) (hq : q.id = k.id) (c : KvCoord)
    (st : Nat) : (kvWritten s k q a c st).kv? a.ctx = some q ∧ (kvWritten s k q a c st).cores = s.cores := by
  have hmap : (s.mapKv a.ctx fun _ => q).kv? a.ctx = some q := State.kv?_mapKv hk fun _ _ => hq.trans (State.id_of_kv? hk)
  have hhome : OnlyHomes (s.mapKv a.ctx fun _ => q) (kvWritten s k q a c st) := by
    unfold kvWritten
    dsimp only
    have hpage : OnlyHomes (s.mapKv a.ctx fun _ => q) (if (k.entry? c.seq c.head (c.pos / 64)).isNone then
        (match q.entry? c.seq c.head (c.pos / 64) with
         | some e => writeSpans (s.mapKv a.ctx fun _ => q) [pageSpan q (pageBase q e) (slotOfEnc e.enc)]
         | none => s.mapKv a.ctx fun _ => q) else s.mapKv a.ctx fun _ => q) := by
      split
      · split
        · exact writeSpans_onlyHomes _ _
        · exact OnlyHomes.refl _
      · exact OnlyHomes.refl _
    split
    · exact hpage.trans (writeSpans_onlyHomes _ _)
    · exact hpage
  refine ⟨(hhome.kv? _).trans hmap, ?_⟩
  rw [hhome]
  rfl

section
variable {s : State} {core slot : Nat} {a : KvAccess} {l : KvLane} {k : KvContext} (hk : s.kv? a.ctx = some k)
  (hcheck : kvCheckState k a.op a.tag l.sel l.pos = none)
include hk hcheck

theorem kvEffect_kst (h : a.op = .kst) : kvEffect s core slot a l =
    (kvWritten s k (kvResult s k a l).1 a (kvCoord l.sel l.pos) (kvResult s k a l).2.1, some (kvResult s k a l).2) := by
  rw [h] at hcheck
  rw [kvResult_kst s k l h]
  simp only [kvEffect, hk, hcheck, h]

theorem kvEffect_ksts (h : a.op = .ksts) : kvEffect s core slot a l =
    (kvWritten s k (kvResult s k a l).1 a (kvCoord l.sel l.pos) (kvResult s k a l).2.1, some (kvResult s k a l).2) := by
  rw [h] at hcheck
  rw [kvResult_ksts s k l h]
  simp only [kvEffect, hk, hcheck, h]

theorem kvEffect_kld (h : a.op = .kld) (hsound : (kvCoord l.sel l.pos).plane = 2 →
    spansPoisoned s (kvSpans k a.fmt (kvCoord l.sel l.pos)) = false) : kvEffect s core slot a l =
    ((if (kvLoad k a.fmt (loadTag k a l) (kvCoord l.sel l.pos)).2.1 = 0 then readSpans s (kvSpans k a.fmt (kvCoord l.sel l.pos))
      else s).mapKv a.ctx fun _ => (kvResult s k a l).1, some (kvResult s k a l).2) := by
  have hgo : ¬((spansPoisoned s (kvSpans k a.fmt (kvCoord l.sel l.pos)) && (kvCoord l.sel l.pos).plane == 2) = true) := by
    rw [Bool.and_eq_true, beq_iff_eq]
    rintro ⟨hbad, hplane⟩
    exact Bool.false_ne_true ((hsound hplane).symm.trans hbad)
  rw [h] at hcheck
  rw [kvResult_kld s k l h, ← poisonRead_eq]
  simp only [kvEffect, hk, hcheck, h]
  exact if_neg hgo

/-- A lane that passes its checks performs: its context, status and data are its result's, and no core changes. -/
theorem kvEffect_result (hsound : a.op = .kld → (kvCoord l.sel l.pos).plane = 2 →
    spansPoisoned s (kvSpans k a.fmt (kvCoord l.sel l.pos)) = false) :
    ∃ u, kvEffect s core slot a l = (u, some (kvResult s k a l).2) ∧ u.kv? a.ctx = some (kvResult s k a l).1 ∧
      u.cores = s.cores := by
  have hkeep := (kvResult_keeps s k a l).1
  cases h : a.op with
  | kld =>
    have hhome : OnlyHomes s (if (kvLoad k a.fmt (loadTag k a l) (kvCoord l.sel l.pos)).2.1 = 0 then
        readSpans s (kvSpans k a.fmt (kvCoord l.sel l.pos)) else s) := by
      split
      · exact readSpans_onlyHomes _ _
      · exact OnlyHomes.refl _
    refine ⟨_, kvEffect_kld hk hcheck h (hsound h), ?_, ?_⟩
    · exact State.kv?_mapKv ((hhome.kv? _).trans hk) fun _ _ => hkeep.trans (State.id_of_kv? hk)
    · change State.cores (ite ..) = _
      rw [hhome]
  | kst => exact ⟨_, kvEffect_kst hk hcheck h, kvWritten_changes hk hkeep _ _⟩
  | ksts => exact ⟨_, kvEffect_ksts hk hcheck h, kvWritten_changes hk hkeep _ _⟩
end

/-! ## Landing -/

theorem landKv_kv? (s : State) (core slot : Nat) (a : KvAccess) (l : KvLane) (st : Nat) (v : Word) (id : Nat) :
    (landKv s core slot a l st v).kv? id = s.kv? id := by
  unfold landKv
  split <;> rfl

/-- The tiles after a lane's status, and of a load its data, have landed. -/
def landedTiles (m : Memory) (a : KvAccess) (st d n : Nat) (v : Word) : Memory :=
  let t := m.putNat st 4 (BitVec.ofNat 32 n).toNat
  if a.op = .kld then t.putNat d 4 v.toNat else t

theorem landKv_tiles {s : State} {core slot : Nat} {a : KvAccess} {l : KvLane} {g : Group} {st d : Nat}
    (hg : s.group? core slot = some g) (hst : vAddr a.win g.wide a.stReg l.lane = some st)
    (hd : vAddr a.win g.wide a.dReg l.lane = some d) (n : Nat) (v : Word) :
    ((landKv s core slot a l n v).core core).tileData = landedTiles (s.core core).tileData a st d n v := by
  simp only [landKv, hg, State.core_mapCore_same, landedTiles]
  cases h : a.op <;> simp [KvOp.isStore, Core.vWrite, hst, hd]

section
variable {m : Memory} {a : KvAccess} {st d n : Nat} {v : Word} (hm : m.wf = true) (hap : d + 4 ≤ st ∨ st + 4 ≤ d)
include hm

theorem landedTiles_status (hap : d + 4 ≤ st ∨ st + 4 ≤ d) (hn : n ≤ 4) : (landedTiles m a st d n v).nat st 4 = n := by
  have hsame : (m.putNat st 4 (BitVec.ofNat 32 n).toNat).nat st 4 = n := by
    rw [Memory.nat_putNat_same hm, BitVec.toNat_ofNat]
    omega
  unfold landedTiles
  dsimp only
  split
  · exact (Memory.nat_congr fun i hi => Memory.get_putNat_other (Memory.wf_putNat hm _ _ _) _ (by omega)).trans hsame
  · exact hsame

theorem landedTiles_data (h : a.op = .kld) : (landedTiles m a st d n v).nat d 4 = v.toNat := by
  rw [landedTiles, if_pos h, Memory.nat_putNat_same (Memory.wf_putNat hm _ _ _)]
  exact Nat.mod_eq_of_lt v.isLt

theorem landedTiles_other {b : Nat} (hb : b < st ∨ st + 4 ≤ b) (hb' : a.op = .kld → b < d ∨ d + 4 ≤ b) :
    (landedTiles m a st d n v).get b = m.get b := by
  have hfirst : (m.putNat st 4 (BitVec.ofNat 32 n).toNat).get b = m.get b := Memory.get_putNat_other hm _ hb
  unfold landedTiles
  dsimp only
  split
  next h => exact (Memory.get_putNat_other (Memory.wf_putNat hm _ _ _) _ (hb' h)).trans hfirst
  next => exact hfirst
end

/-- A lane that passes its checks performs and lands. -/
theorem performKvLane_lands {s : State} {core slot : Nat} {a : KvAccess} {l : KvLane} {k : KvContext} {g : Group} {st d : Nat}
    (hk : s.kv? a.ctx = some k) (hg : s.group? core slot = some g) (hcheck : kvCheckState k a.op a.tag l.sel l.pos = none)
    (hsound : a.op = .kld → (kvCoord l.sel l.pos).plane = 2 →
      spansPoisoned s (kvSpans k a.fmt (kvCoord l.sel l.pos)) = false)
    (hst : vAddr a.win g.wide a.stReg l.lane = some st) (hd : vAddr a.win g.wide a.dReg l.lane = some d) :
    (performKvLane s core slot a l).kv? a.ctx = some (kvResult s k a l).1 ∧
      ((performKvLane s core slot a l).core core).tileData =
        landedTiles (s.core core).tileData a st d (kvResult s k a l).2.1 (kvResult s k a l).2.2 := by
  obtain ⟨u, he, hu, hcores⟩ := kvEffect_result (core := core) (slot := slot) hk hcheck hsound
  have hcore : ∀ n, u.core n = s.core n := fun n => by rw [State.core, State.core, hcores]
  have hgu : u.group? core slot = some g := by rw [State.group?, hcore]; exact hg
  have hperform : performKvLane s core slot a l =
      landKv u core slot a l (kvResult s k a l).2.1 (kvResult s k a l).2.2 := by
    simp only [performKvLane, he]
  rw [hperform, landKv_kv?, landKv_tiles hgu hst hd, hcore]
  exact ⟨hu, rfl⟩

end Sys2Proof.Machine
end

section
/-! PROOF. Elements of a word in pages, in the committed state and in the records of windows (07 R279, R280). -/

namespace Sys2Proof.Machine

/-! ## Values set one after another -/

/-- Values set at different indices, one after another: each index has its value, and no other changes. -/
theorem get_foldl_set {M α γ : Type} {set : M → α → M} {get : M → Nat → γ} {P : M → Prop} {f : α → Nat} {g : α → γ}
    (hP : ∀ m x, P m → P (set m x)) (hget : ∀ m x j, P m → get (set m x) j = if j = f x then g x else get m j) (xs : List α)
    (hn : (xs.map f).Nodup) {m : M} (hm : P m) :
    (∀ x ∈ xs, get (xs.foldl set m) (f x) = g x) ∧ ∀ j, (∀ x ∈ xs, j ≠ f x) → get (xs.foldl set m) j = get m j := by
  induction xs generalizing m with
  | nil => exact ⟨fun x hx => absurd hx List.not_mem_nil, fun _ _ => rfl⟩
  | cons y ys ih =>
    obtain ⟨hy, hys⟩ := List.nodup_cons.1 hn
    obtain ⟨hset, hother⟩ := ih hys (hP m y hm)
    rw [List.foldl_cons]
    refine ⟨fun x hx => ?_, fun j hj => ?_⟩
    · rcases List.mem_cons.1 hx with rfl | hx
      · rw [hother _ fun z hz he => hy (List.mem_map.2 ⟨z, hz, he.symm⟩), hget m _ _ hm, if_pos rfl]
      · exact hset x hx
    · rw [hother j fun x hx => hj x (List.mem_cons_of_mem _ hx), hget m y j hm, if_neg (hj y List.mem_cons_self)]

/-- The elements of a stored word, each with the value that g gives it. -/
def wordWrites {β : Type} (bits word : Nat) (data : Word) (g : Nat → β) : List (Nat × β) :=
  (elemNums bits word).zip ((wordElems bits data).map g)

section
variable {β : Type} {bits word : Nat} {data : Word} {g : Nat → β}

theorem map_fst_wordWrites : (wordWrites bits word data g).map Prod.fst = elemNums bits word :=
  List.map_fst_zip (by simp [elemNums, wordElems])

theorem fst_mem_elemNums {x : Nat × β} (hx : x ∈ wordWrites bits word data g) : x.1 ∈ elemNums bits word := by
  rw [← map_fst_wordWrites (data := data) (g := g)]
  exact List.mem_map.2 ⟨x, hx, rfl⟩

theorem mem_wordWrites {i x : Nat} (hx : (wordElems bits data)[i]? = some x) :
    (word * (32 / bits) + i, g x) ∈ wordWrites bits word data g := by
  have hi : i < 32 / bits := by
    have := (List.getElem?_eq_some_iff.1 hx).1
    simpa [wordElems] using this
  refine List.mem_of_getElem? (i := i) (List.getElem?_zip_eq_some.2 ⟨?_, ?_⟩)
  · simp [elemNums, hi]
  · rw [List.getElem?_map, hx]
    rfl

/-- Elements of one word at places that differ with the element lie at different places. -/
theorem nodup_wordWrites {f : Nat → Nat} (hf : Function.Injective f) : ((wordWrites bits word data g).map fun x => f x.1).Nodup := by
  have hmap : (wordWrites bits word data g).map (fun x => f x.1) = (elemNums bits word).map f := by
    rw [← map_fst_wordWrites (data := data) (g := g), List.map_map]
    rfl
  rw [hmap, elemNums, List.map_map]
  refine List.nodup_range.map fun i j h => ?_
  exact Nat.add_left_cancel (hf h)
end

/-- The elements of a word set in a map: each place has its value, and no other changes. -/
theorem get_foldl_words {bits word : Nat} {data : Word} {β : Type} {g : Nat → β} {val : β → Word} {f : Nat → Nat}
    (hf : Function.Injective f) {m : WordMap} (hm : cellWf 0#32 m = true) :
    (∀ i x, (wordElems bits data)[i]? = some x → ((wordWrites bits word data g).foldl (fun (m : WordMap) x =>
      m.set (f x.1) (val x.2)) m).get (f (word * (32 / bits) + i)) = val (g x)) ∧
    ∀ ix, (∀ j ∈ elemNums bits word, ix ≠ f j) → ((wordWrites bits word data g).foldl (fun (m : WordMap) x =>
      m.set (f x.1) (val x.2)) m).get ix = m.get ix := by
  obtain ⟨hset, hother⟩ := get_foldl_set (set := fun (m : WordMap) (x : Nat × β) => m.set (f x.1) (val x.2)) (get := WordMap.get)
    (P := fun m => cellWf 0#32 m = true) (fun m x h => cellWf_cellSet _ h _ _) (fun m x j h => cellGet_cellSet _ m none _ _ _ h)
    _ (nodup_wordWrites (bits := bits) (word := word) (data := data) (g := g) hf) hm
  exact ⟨fun i x hx => hset _ (mem_wordWrites hx), fun ix h => hother ix fun x hx => h _ (fst_mem_elemNums hx)⟩

theorem elemIx_injective (k : KvContext) (plane pos : Nat) : Function.Injective (k.elemIx plane pos) := fun _ _ h =>
  Nat.add_left_cancel h

theorem stateIx_injective (k : KvContext) (seq slot : Nat) : Function.Injective (stateIx k seq slot) := fun _ _ h =>
  Nat.add_left_cancel h

/-! ## State elements of a window (R280) -/

/-- A record that gives the element a value below a bound. -/
def KvWindow.Wrote (x : KvWindow) (seq slot e below : Nat) (r : KvRecord) : Prop :=
  r ∈ x.records ∧ r.seq = seq ∧ r.slot = slot ∧ r.pos < below ∧ (assocGet r.elems e).isSome = true

/-- The better of a value and a record's: that of the higher position, the later of two at one. -/
def bestState (e : Nat) (best : Option (Nat × Word)) (r : KvRecord) : Option (Nat × Word) :=
  match assocGet r.elems e with
  | none => best
  | some v =>
    match best with
    | none => some (r.pos, v)
    | some b => if b.1 ≤ r.pos then some (r.pos, v) else best

/-- The best of some records is none of them when no record gives a value, else one at the highest position. -/
theorem foldl_bestState (e : Nat) (rs : List KvRecord) :
    (rs.foldl (bestState e) none = none ↔ ∀ r ∈ rs, assocGet r.elems e = none) ∧
    ∀ p v, rs.foldl (bestState e) none = some (p, v) → (∃ r ∈ rs, r.pos = p ∧ assocGet r.elems e = some v) ∧
      ∀ r ∈ rs, (assocGet r.elems e).isSome = true → r.pos ≤ p := by
  induction rs using List.reverseRecOn with
  | nil => exact ⟨by simp, fun p v h => by simp at h⟩
  | append_singleton rs r ih =>
    obtain ⟨hnone, hsome⟩ := ih
    rw [List.foldl_concat]
    generalize rs.foldl (bestState e) none = best at hnone hsome ⊢
    cases hr : assocGet r.elems e with
    | none =>
      have hb : bestState e best r = best := by simp only [bestState, hr]
      rw [hb, hnone]
      refine ⟨by simp [hr, or_imp, forall_and], fun p v h => ?_⟩
      obtain ⟨⟨r', hr', h'⟩, htop⟩ := hsome p v h
      refine ⟨⟨r', List.mem_append_left _ hr', h'⟩, fun q hq hsome' => ?_⟩
      rcases List.mem_append.1 hq with hq | hq
      · exact htop q hq hsome'
      · rw [List.mem_singleton.1 hq, hr] at hsome'
        cases hsome'
    | some u =>
      have hall : ∀ p : Nat, (∀ q ∈ rs, (assocGet q.elems e).isSome = true → q.pos ≤ p) → r.pos ≤ p →
          ∀ q ∈ rs ++ [r], (assocGet q.elems e).isSome = true → q.pos ≤ p := fun p hrs hlast q hq hq' => by
        rcases List.mem_append.1 hq with hq | hq
        · exact hrs q hq hq'
        · rwa [List.mem_singleton.1 hq]
      have hlast : ∃ q ∈ rs ++ [r], q.pos = r.pos ∧ assocGet q.elems e = some u := ⟨r, by simp, rfl, hr⟩
      have hwrites : ¬ ∀ q ∈ rs ++ [r], assocGet q.elems e = none := fun h => by
        rw [h r (by simp)] at hr
        cases hr
      cases best with
      | none =>
        have hb : bestState e none r = some (r.pos, u) := by simp only [bestState, hr]
        rw [hb]
        refine ⟨iff_of_false (by simp) hwrites, fun p v h => ?_⟩
        obtain ⟨rfl, rfl⟩ : r.pos = p ∧ u = v := by simpa using h
        exact ⟨hlast, hall _ (fun q hq hq' => absurd (hnone.1 rfl q hq) (Option.isSome_iff_ne_none.1 hq')) (Nat.le_refl _)⟩
      | some b =>
        obtain ⟨⟨q, hq, hq'⟩, htop⟩ := hsome b.1 b.2 rfl
        by_cases hle : b.1 ≤ r.pos
        · have hb : bestState e (some b) r = some (r.pos, u) := by simp only [bestState, hr, hle, if_true]
          rw [hb]
          refine ⟨iff_of_false (by simp) hwrites, fun p v h => ?_⟩
          obtain ⟨rfl, rfl⟩ : r.pos = p ∧ u = v := by simpa using h
          exact ⟨hlast, hall _ (fun q hq hq' => (htop q hq hq').trans hle) (Nat.le_refl _)⟩
        · have hb : bestState e (some b) r = some b := by simp only [bestState, hr, hle, if_false]
          rw [hb]
          refine ⟨iff_of_false (by simp) hwrites, fun p v h => ?_⟩
          obtain rfl : b = (p, v) := Option.some.inj h
          exact ⟨⟨q, List.mem_append_left _ hq, hq'⟩, hall _ htop (by omega)⟩

theorem stateAt_spec (x : KvWindow) (seq slot e below : Nat) :
    (x.stateAt seq slot e below = none ↔ ∀ r, ¬ x.Wrote seq slot e below r) ∧
    ∀ p v, x.stateAt seq slot e below = some (p, v) →
      (∃ r, x.Wrote seq slot e below r ∧ r.pos = p ∧ assocGet r.elems e = some v) ∧
      ∀ r, x.Wrote seq slot e below r → r.pos ≤ p := by
  have hfold : x.stateAt seq slot e below =
      (x.records.filter fun r => r.seq == seq && r.slot == slot && decide (r.pos < below)).foldl (bestState e) none := by
    unfold KvWindow.stateAt
    refine List.foldl_ext _ _ _ fun best r _ => ?_
    unfold bestState
    cases assocGet r.elems e <;> cases best <;> rfl
  have hmem : ∀ r, r ∈ x.records.filter (fun r => r.seq == seq && r.slot == slot && decide (r.pos < below)) ↔
      r ∈ x.records ∧ r.seq = seq ∧ r.slot = slot ∧ r.pos < below := fun r => by
    simp [List.mem_filter, and_assoc]
  obtain ⟨hnone, hsome⟩ := foldl_bestState e
    (x.records.filter fun r => r.seq == seq && r.slot == slot && decide (r.pos < below))
  rw [hfold]
  refine ⟨hnone.trans ⟨fun h r ⟨hr, h1, h2, h3, h4⟩ => ?_, fun h r hr => ?_⟩, fun p v h => ?_⟩
  · rw [h r ((hmem r).2 ⟨hr, h1, h2, h3⟩)] at h4
    cases h4
  · obtain ⟨hr, h1, h2, h3⟩ := (hmem r).1 hr
    exact Option.not_isSome_iff_eq_none.1 fun h4 => h r ⟨hr, h1, h2, h3, h4⟩
  · obtain ⟨⟨r, hr, hpos, hv⟩, htop⟩ := hsome p v h
    obtain ⟨hr, h1, h2, h3⟩ := (hmem r).1 hr
    refine ⟨⟨r, ⟨hr, h1, h2, h3, by rw [hv]; rfl⟩, hpos, hv⟩, fun q ⟨hq, q1, q2, q3, q4⟩ => htop q ((hmem q).2 ⟨hq, q1, q2, q3⟩) q4⟩

end Sys2Proof.Machine
end

section
/-! PROOF. Stores into pages and windows, and K-space accesses together (07 R276 to R282). -/

namespace Sys2Proof.Machine

/-! ## A store into a page -/

section
variable (k : KvContext) (tag : Option Nat) (c : KvCoord)

/-- Mapping a page for a store changes the entries alone. -/
theorem withPage_frame : withPage k tag c = { k with entries := (withPage k tag c).entries } := by
  cases tag with
  | none => rfl
  | some w =>
    simp only [withPage]
    split <;> rfl

variable {k tag c}

theorem withPage_mapped {e : KvEntry} (h : k.entry? c.seq c.head (c.pos / 64) = some e) : withPage k tag c = k := by
  cases tag <;> simp [withPage, h]

theorem withPage_kept (h : tag = none ∨ k.hasPage = false) : withPage k tag c = k := by
  cases tag with
  | none => rfl
  | some w => simp [withPage, h.resolve_left (by simp)]

theorem withPage_alloc {w : Nat} (h : k.entry? c.seq c.head (c.pos / 64) = none) (hp : k.hasPage = true) :
    withPage k (some w) c = k.alloc c.seq c.head (c.pos / 64) true w := by
  simp [withPage, h, hp]
end

/-- A store into a resident page gives the page's entry the word's elements, and a tagged one raises its window's depth. -/
theorem kvStore_resident {k : KvContext} {fmt : Word} {tag : Option Nat} {c : KvCoord} {data : Word} {e : KvEntry}
    (h : storable k tag c = true) (he : e.state = .resident) (hpage : (withPage k tag c).entry? c.seq c.head (c.pos / 64) = some e) :
    kvStore k fmt tag c data = (raiseDepth ((withPage k tag c).mapEntry c.seq c.head (c.pos / 64)
      (storeElems (withPage k tag c) fmt c data e.enc)) tag c, 0) := by
  rw [kvStore_allowed h, pageStatus_resident hpage he]
  rfl

section
variable (k : KvContext) (fmt : Word) (tag : Option Nat) (c : KvCoord) (data : Word) (e : KvEntry)

/-- The context after a store into a resident page. -/
def stored : KvContext := raiseDepth ((withPage k tag c).mapEntry c.seq c.head (c.pos / 64)
  (storeElems (withPage k tag c) fmt c data e.enc)) tag c

/-- A store changes entries and windows alone. -/
theorem stored_frame : stored k fmt tag c data e =
    { k with entries := (stored k fmt tag c data e).entries, windows := (stored k fmt tag c data e).windows } := by
  unfold stored
  rw [withPage_frame]
  cases tag <;> rfl

variable {k fmt tag c data e}

theorem entry?_stored (hpage : (withPage k tag c).entry? c.seq c.head (c.pos / 64) = some e) :
    (stored k fmt tag c data e).entry? c.seq c.head (c.pos / 64) = some (storeElems k fmt c data e.enc e) := by
  have hraise : ∀ q : KvContext, (raiseDepth q tag c).entry? c.seq c.head (c.pos / 64) = q.entry? c.seq c.head (c.pos / 64) :=
    fun q => by cases tag <;> rfl
  rw [stored, hraise]
  refine (KvContext.entry?_mapEntry_same (f := storeElems (withPage k tag c) fmt c data e.enc) (fun _ hp => hp) _).trans ?_
  rw [hpage, withPage_frame]
  rfl

theorem get_storeElems (hwf : cellWf 0#32 e.elems = true) :
    (∀ i x, (wordElems (slotBits fmt) data)[i]? = some x →
      (storeElems k fmt c data e.enc e).elems.get (k.elemIx c.plane c.pos (c.word * (32 / slotBits fmt) + i)) =
        BitVec.ofNat 32 (toPage (slotOfEnc e.enc) (elemValue fmt x Latch.one))) ∧
    ∀ ix, (∀ j ∈ elemNums (slotBits fmt) c.word, ix ≠ k.elemIx c.plane c.pos j) →
      (storeElems k fmt c data e.enc e).elems.get ix = e.elems.get ix :=
  get_foldl_words (g := fun x => toPage (slotOfEnc e.enc) (elemValue fmt x Latch.one)) (val := BitVec.ofNat 32)
    (elemIx_injective k c.plane c.pos) hwf

theorem windows_stored_untagged : (stored k fmt none c data e).windows = k.windows := rfl

theorem depthOf_stored {w : Nat} (hw : w < k.windows.length) (hd : cellWf 0 (k.window w).depth = true) :
    ((stored k fmt (some w) c data e).window w).depthOf c.seq =
      max ((k.window w).depthOf c.seq) (c.pos - k.len c.seq + 1) := by
  have hraise : stored k fmt (some w) c data e = KvContext.setWindow
      ((withPage k (some w) c).mapEntry c.seq c.head (c.pos / 64) (storeElems (withPage k (some w) c) fmt c data e.enc)) w
      { k.window w with
        depth := (k.window w).depth.set (c.seq - (k.window w).first) (max ((k.window w).depthOf c.seq) (c.pos - k.len c.seq + 1)) } := by
    unfold stored
    rw [withPage_frame]
    rfl
  have hlen : w < ((withPage k (some w) c).mapEntry c.seq c.head (c.pos / 64)
      (storeElems (withPage k (some w) c) fmt c data e.enc)).windows.length := by
    rw [withPage_frame]
    exact hw
  rw [hraise, KvContext.window_setWindow_same _ hlen]
  exact (cellGet_cellSet 0 _ none _ _ _ hd).trans (if_pos rfl)
end

/-! ## A store into a window's record -/

theorem isOf_iff {r : KvRecord} {c : KvCoord} : r.isOf c = true ↔ r.seq = c.seq ∧ r.pos = c.pos ∧ r.slot = c.head := by
  simp [KvRecord.isOf, and_assoc]

/-- A window has a record of the position after one was made for it. -/
theorem exists_withRecord (x : KvWindow) (c : KvCoord) : ∃ r ∈ x.withRecord c, r.isOf c = true := by
  unfold KvWindow.withRecord
  split
  next h => exact List.any_eq_true.1 h
  next => exact ⟨_, List.mem_append_right _ List.mem_cons_self, isOf_iff.2 ⟨rfl, rfl, rfl⟩⟩

/-- Every record of the position and slot has the value that a KSTS gave an element. -/
theorem assocGet_record {x : KvWindow} {fmt : Word} {c : KvCoord} {data : Word} {r : KvRecord} {i y : Nat}
    (hr : r ∈ (x.record fmt c data).records) (hc : r.isOf c = true) (hy : (wordElems (slotBits fmt) data)[i]? = some y) :
    assocGet r.elems (c.word * (32 / slotBits fmt) + i) = some (BitVec.ofNat 32 (rnd .fp32 .std (elemValue fmt y Latch.one))) := by
  obtain ⟨q, hq, rfl⟩ := List.mem_map.1 hr
  by_cases hqc : q.isOf c = true
  · rw [if_pos hqc]
    obtain ⟨hset, -⟩ := get_foldl_set (set := fun (m : List (Nat × Word)) (y : Nat × Word) => assocSet m y.1 y.2) (get := assocGet)
      (P := fun _ => True) (f := Prod.fst) (g := fun y => some y.2) (fun _ _ _ => trivial)
      (fun m y j _ => by
        split
        next h => rw [h, assocGet_assocSet_same]
        next h => exact assocGet_assocSet_other _ _ _ _ h)
      (stateWrites fmt c data) (nodup_wordWrites (f := fun j => j) fun _ _ h => h) (m := q.elems) trivial
    exact hset _ (mem_wordWrites hy)
  · rw [if_neg hqc] at hc
    exact absurd hc hqc

/-- After a KSTS a read at its position sees its value. -/
theorem stateAt_record {x : KvWindow} {fmt : Word} {c : KvCoord} {data : Word} {i y : Nat}
    (hy : (wordElems (slotBits fmt) data)[i]? = some y) :
    (x.record fmt c data).stateAt c.seq c.head (c.word * (32 / slotBits fmt) + i) (c.pos + 1) =
      some (c.pos, BitVec.ofNat 32 (rnd .fp32 .std (elemValue fmt y Latch.one))) := by
  set e := c.word * (32 / slotBits fmt) + i
  obtain ⟨hnone, hsome⟩ := stateAt_spec (x.record fmt c data) c.seq c.head e (c.pos + 1)
  obtain ⟨q, hq, hqc⟩ := exists_withRecord x c
  obtain ⟨r, hr, hrc⟩ : ∃ r ∈ (x.record fmt c data).records, r.isOf c = true :=
    ⟨_, List.mem_map.2 ⟨q, hq, if_pos hqc⟩, hqc⟩
  obtain ⟨h1, h2, h3⟩ := isOf_iff.1 hrc
  have hwrote : (x.record fmt c data).Wrote c.seq c.head e (c.pos + 1) r :=
    ⟨hr, h1, h3, by omega, by rw [assocGet_record hr hrc hy]; rfl⟩
  cases hs : (x.record fmt c data).stateAt c.seq c.head e (c.pos + 1) with
  | none => exact absurd hwrote (hnone.1 hs r)
  | some b =>
    obtain ⟨p, v⟩ := b
    obtain ⟨⟨u, ⟨hu, u1, u2, u3, -⟩, rfl, hv⟩, htop⟩ := hsome p v hs
    have hpos : u.pos = c.pos := by
      have := htop r hwrote
      omega
    rw [assocGet_record hu (isOf_iff.2 ⟨u1, hpos, u2⟩) hy, Option.some.injEq] at hv
    rw [hpos, hv]

/-! ## Together -/

theorem exec_kvStatusLand (s : State) : exec .kvStatusLand s = .next (landKvOp s s.sel.core s.sel.slot s.sel.id) := rfl

theorem kvFar_iff {k : KvContext} {core : Nat} {a : KvAccess} {l : KvLane} : kvFar k core a l = true ↔
    (a.op = .kst ∨ a.op = .ksts) ∧ homeDie (kvBase k (kvCoord l.sel l.pos)) ≠ dieOf core := by
  unfold kvFar
  cases a.op <;> simp [KvOp.isStore]

/-- Settles O33: accesses and operations of KV space are issued as pending, and the group's first access performs its lanes or
sends them to the other die; each lane's status, data and context are those of its form. -/
theorem kvInstructionsBecomePending : Obligations.KvInstructionsBecomePending := by
  refine ⟨⟨?access, ?control, ?unbound⟩, fun s g a k hg hp hf hk hl => ⟨fun hn => ?near, fun p hne hfar => ?far⟩,
    fun k core a l => kvFar_iff, ?lane, fun s ps => spansPoisoned_iff, ?load, fun k fmt tag c hc => kvLoad_state hc, ?store, ?state⟩
  case access =>
    intro s x i op w e k g' hform hx hk fmt tag lanes hpass hne t hg he
    rw [kvForm_exec hform]
    exact kvAccess_pending hx hk hpass hne hg he
  case control =>
    intro s x i op w e k hform hx hk hp win c hcheck hstate hbytes
    rw [kvCtlForm_exec hform, kvCtl_acts hx hk, ctlAct_pending (c := issuedCtl x i op w e k) hp hcheck hstate hbytes]
    rfl
  case unbound =>
    rintro s x i (hform | hform) hx hk
    · obtain ⟨⟨op, w, e⟩, hform⟩ := Option.isSome_iff_exists.1 hform
      rw [kvForm_exec hform, kvAccess_unbound hx hk]
    · obtain ⟨⟨op, w, e⟩, hform⟩ := Option.isSome_iff_exists.1 hform
      rw [kvCtlForm_exec hform, kvCtl_unbound hx hk]
  case near => rw [exec_kvStatusLand, landKvOp_near hg hp hf hk hl hn]
  case far => rw [exec_kvStatusLand, landKvOp_far hg hp hf hk hl hne hfar]
  case lane =>
    intro s core slot a l k g st d hk hg hcheck hsound hwf hst hd hap c tag r t
    obtain ⟨hkv, htiles⟩ := performKvLane_lands hk hg hcheck hsound hst hd
    refine ⟨hkv, ?_, fun h => ?_, fun b hb hb' => ?_⟩ <;> rw [htiles]
    · exact landedTiles_status hwf hap (kvResult_keeps s k a l).2
    · exact landedTiles_data hwf h
    · exact landedTiles_other hwf hb hb'
  case load =>
    intro k fmt tag c hc top
    refine ⟨fun h => kvLoad_beyond hc h, fun h hnone => ?_, fun e h he => ⟨fun hs => ?_, fun hs => ?_, fun hs => ?_⟩⟩ <;>
      rw [kvLoad_visible hc h]
    · rw [pageStatus_absent hnone]; rfl
    · rw [pageStatus_secondTier he hs]; rfl
    · rw [pageStatus_poisoned he hs]; rfl
    · rw [pageStatus_resident he hs]; rfl
  case store =>
    intro k fmt tag c data allowed
    refine ⟨fun h => kvStore_refused h, fun h hnone hkeep => ?_, fun e h he => ⟨fun hs => ?_, fun hs => ?_⟩, ?_⟩
    · rw [kvStore_allowed h, withPage_kept hkeep, pageStatus_absent hnone]; rfl
    · rw [kvStore_allowed h, withPage_mapped he, pageStatus_secondTier he hs]; rfl
    · rw [kvStore_allowed h, withPage_mapped he, pageStatus_poisoned he hs]; rfl
    intro e h he hwf hpage
    have hentry : (withPage k tag c).entry? c.seq c.head (c.pos / 64) = some e := by
      rcases hpage with hp | ⟨w, rfl, hnone, hp, hnew⟩
      · rwa [withPage_mapped hp]
      · rwa [withPage_alloc hnone hp]
    have hframe := stored_frame k fmt tag c data e
    refine ⟨stored k fmt tag c data e, storeElems k fmt c data e.enc e, kvStore_resident h he hentry, entry?_stored hentry, rfl,
      by rw [hframe], by rw [hframe], (get_storeElems hwf).1, (get_storeElems hwf).2, ?_, ?_⟩
    · rintro rfl
      exact windows_stored_untagged
    · rintro w rfl hw hd
      exact depthOf_stored hw hd
  case state =>
    intro k fmt c data word
    refine ⟨fun hwf => ⟨_, kvStateStore_committed, rfl, ?_⟩, fun w h => kvStateStore_refused h, fun w h hw =>
      ⟨fun hr => kvStateStore_full h hr, fun hr => ⟨_, kvStateStore_record h hr, rfl, fun i x hx => ?_⟩⟩⟩
    · exact get_foldl_words (g := fun x => BitVec.ofNat 32 (rnd .fp32 .std (elemValue fmt x Latch.one))) (val := fun x => x)
        (stateIx_injective k c.seq c.head) hwf
    · rw [KvContext.window_setWindow_same _ hw]
      exact stateAt_record hx

end Sys2Proof.Machine
end

section
/-! PROOF. The events of KV space's control operations: the commit point, the messages between the dies, moves of pages and what
KOPEN and KMAP land (07 R272, R283 to R286, 08 R305). -/

namespace Sys2Proof.Machine

theorem exec_kvCommitPoint (s : State) : exec .kvCommitPoint s = execKvCommitPoint s := rfl
theorem exec_kvFetchComplete (s : State) : exec .kvFetchComplete s = execKvFetchComplete s := rfl
theorem exec_kvEvictComplete (s : State) : exec .kvEvictComplete s = execKvEvictComplete s := rfl

/-! ## The commit point (R284) -/

/-- The operation ends a window's drafts. -/
def KvCtl.Commits (c : KvCtl) : Prop := c.op = .kcommit ∨ c.op = .kdrop

theorem ctlCheckState_commit_open {k : KvContext} {c : KvCtl} (hc : c.Commits) (h : (k.window c.window).open_ = true) :
    ctlCheckState k c = none := by
  rcases hc with hc | hc <;> simp only [ctlCheckState, hc, h, if_true]

theorem ctlCheckState_commit_idle {k : KvContext} {c : KvCtl} (hc : c.Commits) (h : (k.window c.window).open_ = false) :
    ctlCheckState k c = some 0x0A := by
  rcases hc with hc | hc <;> simp only [ctlCheckState, hc, h, Bool.false_eq_true, if_false]

/-- What a commit whose release is complete does, by its checks and the homes of what it writes. -/
def commitReleased (t : State) (core slot id : Nat) (g : Group) (c : KvCtl) (k : KvContext) (b : Block) : State :=
  let drop := t.mapGroup core slot fun g => g.dropPend id
  let counts := commitCounts t core b k c
  if c.vec && g.storeBefore id core (b.spadBase + c.sel.toNat) (k.window c.window).count then t
  else if ctlCheckState k c ≠ none then lateFault drop core slot id (ctlLate c .kvFault 0x0A 0#64)
  else if !commitBytes k b c then lateFault drop core slot id (ctlLate c .addrRegion 4 c.sel)
  else if (commitSpans k c.window fun i => nth 0 counts i).any fun p => homeDie p.1 != dieOf core then sendCtl t core slot id c counts
  else commitPoint drop core k c counts

section
variable {s t : State} {g : Group} {c : KvCtl} (hg : s.group? s.sel.core s.sel.slot = some g)
  (hp : g.pend? s.sel.id = some (.kvCtl c)) (hc : c.Commits) (hst : c.stage = .issued) (hf : g.kvFirst s.sel.id = true)
include hg hp hc hst hf

theorem execKvCommitPoint_first : execKvCommitPoint s = .next
    (match (if c.cv then releaseStep s s.sel.core s.sel.slot 5 s.sel.id else some (s, true)) with
      | none => s
      | some (t, false) => t
      | some (t, true) =>
        match t.kv? c.ctx, (t.core s.sel.core).block? g.launch g.block with
        | some k, some b => commitReleased t s.sel.core s.sel.slot s.sel.id g c k b
        | _, _ => t.mapGroup s.sel.core s.sel.slot fun g => g.dropPend s.sel.id) := by
  have hours : (c.op == .kcommit || c.op == .kdrop) = true := by rcases hc with h | h <;> rw [h] <;> rfl
  have hgo : ¬((!(c.op == .kcommit || c.op == .kdrop) || c.stage != .issued || !g.kvFirst s.sel.id) = true) := by
    rw [hours, hst, hf]
    decide
  simp only [execKvCommitPoint, hg, hp]
  exact congrArg _ (if_neg hgo)

theorem execKvCommitPoint_released {k : KvContext} {b : Block}
    (ht : (t = s ∧ c.cv = false) ∨ (c.cv = true ∧ releaseStep s s.sel.core s.sel.slot 5 s.sel.id = some (t, true)))
    (hk : t.kv? c.ctx = some k) (hb : (t.core s.sel.core).block? g.launch g.block = some b) :
    execKvCommitPoint s = .next (commitReleased t s.sel.core s.sel.slot s.sel.id g c k b) := by
  have hrel : (if c.cv then releaseStep s s.sel.core s.sel.slot 5 s.sel.id else some (s, true)) = some (t, true) := by
    rcases ht with ⟨rfl, h⟩ | ⟨h, hr⟩
    · rw [h]; rfl
    · rw [h, if_pos rfl, hr]
  rw [execKvCommitPoint_first hg hp hc hst hf, hrel]
  simp only [hk, hb]

theorem execKvCommitPoint_waits (hcv : c.cv = true) (hr : releaseStep s s.sel.core s.sel.slot 5 s.sel.id = none) :
    execKvCommitPoint s = .next s := by
  rw [execKvCommitPoint_first hg hp hc hst hf, hcv, if_pos rfl, hr]
end

section
variable {t : State} {core slot id : Nat} {g : Group} {c : KvCtl} {k : KvContext} {b : Block}

theorem commitReleased_held (h : (c.vec && g.storeBefore id core (b.spadBase + c.sel.toNat) (k.window c.window).count) = true) :
    commitReleased t core slot id g c k b = t := if_pos h

variable (hc : c.Commits) (hh : (c.vec && g.storeBefore id core (b.spadBase + c.sel.toNat) (k.window c.window).count) = false)
include hc hh

theorem commitReleased_idle (h : (k.window c.window).open_ = false) : commitReleased t core slot id g c k b =
    lateFault (t.mapGroup core slot fun g => g.dropPend id) core slot id (ctlLate c .kvFault 0x0A 0#64) := by
  simp [commitReleased, hh, ctlCheckState_commit_idle hc h]

theorem commitReleased_open (h : (k.window c.window).open_ = true) (hb : commitBytes k b c = true) :
    commitReleased t core slot id g c k b =
      if (commitSpans k c.window fun i => nth 0 (commitCounts t core b k c) i).any fun p => homeDie p.1 != dieOf core then
        sendCtl t core slot id c (commitCounts t core b k c)
      else commitPoint (t.mapGroup core slot fun g => g.dropPend id) core k c (commitCounts t core b k c) := by
  simp only [commitReleased, hh, ctlCheckState_commit_open hc h, hb, Bool.false_eq_true, if_false, ne_eq, not_true_eq_false,
    Bool.not_true]
end

/-! ## Messages of control operations (08 R305) -/

section
variable {s : State} {g : Group} {c : KvCtl} {core slot id : Nat} (hg : s.group? core slot = some g)
  (hp : g.pend? id = some (.kvCtl c))
include hg hp

theorem arriveCtl_commit {k : KvContext} (hk : s.kv? c.ctx = some k) (hc : c.Commits) (ho : (k.window c.window).open_ = true)
    (counts : List Nat) : arriveCtl s core slot id counts =
      sendMsg ((commitPoint s core k c counts).mapGroup core slot fun g => g.setPend id (.kvCtl { c with stage := .answered }))
        (1 - dieOf core) (.ack (.kvCtl core slot id 0)) := by
  have hcheck := ctlCheckState_commit_open hc ho
  rcases hc with h | h <;> simp only [arriveCtl, hg, Option.bind_some, hp, hk, hcheck, h]

theorem arriveCtl_alloc {k : KvContext} (hk : s.kv? c.ctx = some k) (hc : c.op = .alloc) (counts : List Nat) :
    arriveCtl s core slot id counts =
      sendMsg ((applyCtl s k c).1.mapGroup core slot fun g => g.setPend id (.kvCtl { c with stage := .answered }))
        (1 - dieOf core) (.ack (.kvCtl core slot id (applyCtl s k c).2)) := by
  have hcheck : ctlCheckState k c = none := by simp only [ctlCheckState, hc]
  simp only [arriveCtl, hg, Option.bind_some, hp, hk, hcheck, hc]

theorem ctlAnswered_ends (v : Nat) : ctlAnswered s core slot id v = endCtl s core slot id c v := by
  simp only [ctlAnswered, hg, Option.bind_some, hp]
end

theorem endCtl_commit {c : KvCtl} (hc : c.Commits) (s : State) (core slot id v : Nat) :
    endCtl s core slot id c v = s.mapGroup core slot fun g => g.dropPend id := by
  rcases hc with h | h <;> simp only [endCtl, h]

/-- A control operation of KMAP returns its value in S[D]; KOPEN returns none. -/
theorem endCtl_maps {c : KvCtl} (h1 : c.op ≠ .kcommit) (h2 : c.op ≠ .kdrop) (s : State) (core slot id v : Nat) :
    endCtl s core slot id c v = if c.op = .kopen then s.mapGroup core slot fun g => g.dropPend id else
      (s.mapGroup core slot fun g => g.dropPend id).mapGroup core slot fun g => g.setS c.dReg (BitVec.ofNat 64 v) := by
  unfold endCtl
  cases h : c.op with
  | kcommit => exact absurd h h1
  | kdrop => exact absurd h h2
  | _ => rfl

/-! ## KOPEN and KMAP land (R281, R285) -/

section
variable {s : State} {core slot id : Nat} {g : Group} {c : KvCtl} {k : KvContext} (hg : s.group? core slot = some g)
  (hp : g.pend? id = some (.kvCtl c)) (h1 : c.op ≠ .kcommit) (h2 : c.op ≠ .kdrop) (hst : c.stage = .issued)
  (hf : g.kvFirst id = true) (hk : s.kv? c.ctx = some k) (hcheck : ctlCheckState k c = none)
include hg hp h1 h2 hst hf hk hcheck

theorem landKvOp_ctl : landKvOp s core slot id =
    if (allocSpan k c).any fun p => homeDie p.1 != dieOf core then sendCtl s core slot id c []
    else endCtl (applyCtl s k c).1 core slot id c (applyCtl s k c).2 := by
  have hgo : ¬((c.stage != .issued) = true) := by rw [hst]; decide
  simp only [landKvOp, hg, hf, hp, hk, Bool.not_true, Bool.false_eq_true, if_false]
  cases h : c.op with
  | kcommit => exact absurd h h1
  | kdrop => exact absurd h h2
  | _ => exact (if_neg hgo).trans (by rw [hcheck])
end

/-! ## Pages that have moved (R285, R286) -/

/-- A page's lines are read at one place and written at another; a poisoned one marks the page. -/
def movedPage (s : State) (id : Nat) (e : KvEntry) (from_ to_ : KvSpan) : State :=
  let u := writeSpans (readSpans s [from_]) [to_]
  if spansPoisoned s [from_] then u.mapKv id fun k => k.poison e.seq e.head e.page else u

theorem movePage_eq (s : State) (k : KvContext) (e : KvEntry) (a b : Nat) :
    movePage s k e a b = movedPage s k.id e (pageSpan k a (slotOfEnc e.enc)) (pageSpan k b (slotOfEnc e.enc)) := rfl

section
variable {s : State} {k : KvContext} {e : KvEntry} (hk : s.kv? s.sel.ctx = some k)
  (he : k.entry? s.sel.seq s.sel.head s.sel.page = some e)
include hk he

theorem selEntry_eq : selEntry s = some (k, e) := by
  simp only [selEntry, hk, he, Option.map_some]

/-- What `sel` names is what the context and the entry are called. -/
theorem sel_names : k.id = s.sel.ctx ∧ e.seq = s.sel.seq ∧ e.head = s.sel.head ∧ e.page = s.sel.page :=
  ⟨State.id_of_kv? hk, KvContext.isAt_of_entry? he⟩

theorem execKvFetchComplete_fetched (hf : e.fetch = 1) : execKvFetchComplete s = .next
    (let t := s.mapKv k.id fun k => k.mapEntry e.seq e.head e.page fun e =>
      { e with fetch := 0, state := if e.state = .secondTier then .resident else e.state }
     if e.state = .secondTier then movePage t k e (tierBase k e) (bondedBase k e) else t) := by
  simp only [execKvFetchComplete, selEntry_eq hk he, hf, if_true]

theorem execKvFetchComplete_idle (hf : e.fetch ≠ 1) : execKvFetchComplete s = .next s := by
  simp only [execKvFetchComplete, selEntry_eq hk he, hf, if_false]

theorem execKvEvictComplete_evicted (hf : e.fetch = 2) : execKvEvictComplete s = .next
    (movePage (s.mapKv k.id fun k => k.mapEntry e.seq e.head e.page fun e => { e with fetch := 0 }) k e
      (bondedBase k e) (tierBase k e)) := by
  simp only [execKvEvictComplete, selEntry_eq hk he, hf, if_true]

theorem execKvEvictComplete_idle (hf : e.fetch ≠ 2) : execKvEvictComplete s = .next s := by
  simp only [execKvEvictComplete, selEntry_eq hk he, hf, if_false]
end

end Sys2Proof.Machine
end

section
/-! PROOF. The commit of a window's drafts (07 R284): lengths, pages and state, sequence by sequence. -/

namespace Sys2Proof.Machine

/-! ## Zeroed drafts -/

theorem cellGet_filter_key {β : Type} (d : β) (m : List (Nat × β)) (q : Nat → Bool) (i : Nat) :
    cellGet d (m.filter fun c => q c.1) i = if q i then cellGet d m i else d := by
  rw [cellGet_eq_find?, cellGet_eq_find?, find?_filter_key]
  split <;> rfl

/-- Zeroing drafts changes elements and metadata alone. -/
theorem zeroDrafts_frame (k : KvContext) (lo hi : Nat) (e : KvEntry) :
    zeroDrafts k lo hi e = { e with elems := (zeroDrafts k lo hi e).elems, metas := (zeroDrafts k lo hi e).metas } := by
  unfold zeroDrafts
  dsimp only
  split <;> rfl

/-- Zeroing reads the row length of a context alone. -/
theorem zeroDrafts_congr {k q : KvContext} (h : q.headDim = k.headDim) (lo hi : Nat) (e : KvEntry) :
    zeroDrafts q lo hi e = zeroDrafts k lo hi e := by
  simp only [zeroDrafts, h]

/-- A position lies outside a range. -/
def outside (lo hi pos : Nat) : Bool := decide (pos < lo) || decide (hi < pos)

theorem ite_outside {β : Type} (lo hi pos : Nat) (x d : β) :
    (if outside lo hi pos then x else d) = if lo ≤ pos ∧ pos ≤ hi then d else x := by
  by_cases h : lo ≤ pos ∧ pos ≤ hi
  · rw [if_pos h, if_neg]
    simp only [outside, Bool.or_eq_true, decide_eq_true_eq]
    omega
  · rw [if_neg h, if_pos]
    simp only [outside, Bool.or_eq_true, decide_eq_true_eq]
    omega

theorem elems_zeroDrafts (k : KvContext) (lo hi : Nat) (e : KvEntry) : (zeroDrafts k lo hi e).elems =
    e.elems.filter fun x => outside lo hi (e.page * 64 + x.1 / k.headDim % 64) := by
  unfold zeroDrafts
  dsimp only
  split <;> rfl

theorem metas_zeroDrafts (k : KvContext) (lo hi : Nat) (e : KvEntry) : (zeroDrafts k lo hi e).metas =
    if slotScale (slotOfEnc e.enc) = 0 then e.metas
    else e.metas.filter fun x => outside lo hi (e.page * 64 + x.1 / (k.headDim / slotGroup (slotOfEnc e.enc)) % 64) := by
  unfold zeroDrafts
  dsimp only
  split <;> rfl

theorem get_elems_zeroDrafts (k : KvContext) (lo hi : Nat) (e : KvEntry) (ix : Nat) :
    let pos := e.page * 64 + ix / k.headDim % 64
    (zeroDrafts k lo hi e).elems.get ix = if lo ≤ pos ∧ pos ≤ hi then 0#32 else e.elems.get ix := by
  intro pos
  rw [elems_zeroDrafts, ← ite_outside]
  exact cellGet_filter_key 0#32 e.elems (fun i => outside lo hi (e.page * 64 + i / k.headDim % 64)) ix

theorem get_metas_zeroDrafts (k : KvContext) (lo hi : Nat) (e : KvEntry) (ix : Nat) :
    let pos := e.page * 64 + ix / (k.headDim / slotGroup (slotOfEnc e.enc)) % 64
    (zeroDrafts k lo hi e).metas.get ix =
      if slotScale (slotOfEnc e.enc) ≠ 0 ∧ lo ≤ pos ∧ pos ≤ hi then 0 else e.metas.get ix := by
  intro pos
  rw [metas_zeroDrafts]
  by_cases hs : slotScale (slotOfEnc e.enc) = 0
  · rw [if_pos hs, if_neg fun h => h.1 hs]
  · simp only [hs, if_false, ne_eq, not_false_eq_true, true_and]
    rw [← ite_outside]
    exact cellGet_filter_key 0 e.metas
      (fun i => outside lo hi (e.page * 64 + i / (k.headDim / slotGroup (slotOfEnc e.enc)) % 64)) ix

/-! ## One sequence -/

/-- The page is the window's in a sequence. -/
def KvEntry.mine (e : KvEntry) (w seq : Nat) : Bool := e.seq == seq && e.wh && e.win == w

/-- A page that a window held is the sequence's. -/
def KvEntry.settled (e : KvEntry) (w seq : Nat) : KvEntry := if e.mine w seq then { e with wh := false, win := 0 } else e

/-- The length that a commit of n drafts of a sequence gives it. -/
def committedLen (k : KvContext) (w n seq : Nat) : Nat := k.len seq + min n ((k.window w).depthOf seq)

/-- The state elements that a window's records of a sequence name. -/
def recordedElems (x : KvWindow) (seq : Nat) : List (Nat × Nat) :=
  dedup ((x.records.filter fun r => r.seq == seq).flatMap fun r => r.elems.map fun e => (r.slot, e.1))

/-- A map with a value set where there is one. -/
def setSome (m : WordMap) (ix : Nat) : Option (Nat × Word) → WordMap
  | some b => m.set ix b.2
  | none => m

/-- The committed state with a window's state of a sequence below a length. -/
def commitState (k : KvContext) (x : KvWindow) (seq len : Nat) : WordMap :=
  (recordedElems x seq).foldl (fun (m : WordMap) e => setSome m (stateIx k seq e.1 e.2) (x.stateAt seq e.1 e.2 len)) k.committed

/-- An entry of a sequence whose drafts above a length are dropped. -/
def KvEntry.dropDrafts (e : KvEntry) (k : KvContext) (seq len : Nat) : KvEntry :=
  if e.seq = seq then zeroDrafts k len (min (len + 255) (k.capacity - 1)) e else e

theorem commitSeq_eq (k : KvContext) (w n seq : Nat) : let len := committedLen k w n seq
    commitSeq k w n seq = { k with
      committed := commitState k (k.window w) seq len, lens := k.lens.set seq len
      entries := ((k.entries.filter fun e => !(e.mine w seq && decide (len ≤ e.page * 64))).map fun e => e.settled w seq).map
        fun e => e.dropDrafts k seq len } := by
  rfl

/-! ## State that is committed -/

/-- A value set where there is one: its index has it. -/
theorem get_setSome {m : WordMap} (hm : cellWf 0#32 m = true) (ix j : Nat) (o : Option (Nat × Word)) :
    cellWf 0#32 (setSome m ix o) = true ∧
      (setSome m ix o).get j = if ix = j then (o.map Prod.snd).getD (m.get j) else m.get j := by
  cases o with
  | none => exact ⟨hm, (ite_self _).symm⟩
  | some b =>
    refine ⟨cellWf_cellSet _ hm ix b.2, (cellGet_cellSet _ m none _ _ _ hm).trans ?_⟩
    by_cases h : ix = j
    · rw [if_pos h.symm, if_pos h]
      rfl
    · rw [if_neg (Ne.symm h), if_neg h]
      rfl

/-- Values set one after another where g gives one: an index has the value that g gives wherever the index is named. -/
theorem get_foldl_setSome {α : Type} {f : α → Nat} {g : α → Option (Nat × Word)} {o : Option (Nat × Word)} {j : Nat}
    (xs : List α) (hg : ∀ x ∈ xs, f x = j → g x = o) {m : WordMap} (hm : cellWf 0#32 m = true) :
    (xs.foldl (fun (m : WordMap) x => setSome m (f x) (g x)) m).get j =
      if ∃ x ∈ xs, f x = j then (o.map Prod.snd).getD (m.get j) else m.get j := by
  induction xs generalizing m with
  | nil => exact (if_neg (by simp)).symm
  | cons x xs ih =>
    obtain ⟨hwf, hget⟩ := get_setSome hm (f x) j (g x)
    refine (ih (fun y hy => hg y (List.mem_cons_of_mem _ hy)) hwf).trans ?_
    rw [hget]
    by_cases hj : f x = j
    · have hex : ∃ y ∈ x :: xs, f y = j := ⟨x, List.mem_cons_self, hj⟩
      rw [hg x List.mem_cons_self hj, if_pos hj, if_pos hex]
      cases o <;> simp
    · simp [hj]

/-- Numbers of one place are the same digit by digit. -/
theorem digits_inj {b a d a' d' : Nat} (hd : d < b) (hd' : d' < b) (h : a * b + d = a' * b + d') : a = a' ∧ d = d' := by
  have hmod : d = d' := by
    have := congrArg (· % b) h
    simpa [Nat.mul_add_mod', Nat.mod_eq_of_lt hd, Nat.mod_eq_of_lt hd'] using this
  subst hmod
  exact ⟨Nat.eq_of_mul_eq_mul_right (by omega) (Nat.add_right_cancel h), rfl⟩

theorem stateIx_inj {k : KvContext} {seq slot e seq' slot' e' : Nat} (hs : slot < k.nstate) (he : e < k.stateElems)
    (hs' : slot' < k.nstate) (he' : e' < k.stateElems) (h : stateIx k seq slot e = stateIx k seq' slot' e') :
    seq = seq' ∧ slot = slot' ∧ e = e' := by
  obtain ⟨hrow, rfl⟩ := digits_inj he he' h
  obtain ⟨rfl, rfl⟩ := digits_inj hs hs' hrow
  exact ⟨rfl, rfl, rfl⟩

/-- The records of a window name state slots and elements of its context. -/
def KvWindow.Bounded (x : KvWindow) (k : KvContext) : Prop :=
  ∀ r ∈ x.records, r.slot < k.nstate ∧ ∀ e ∈ r.elems, e.1 < k.stateElems

theorem mem_recordedElems {x : KvWindow} {seq : Nat} {p : Nat × Nat} :
    p ∈ recordedElems x seq ↔ ∃ r ∈ x.records, r.seq = seq ∧ r.slot = p.1 ∧ ∃ v, (p.2, v) ∈ r.elems := by
  obtain ⟨slot, e⟩ := p
  simp only [recordedElems, mem_dedup, List.mem_flatMap, List.mem_filter, List.mem_map, beq_iff_eq, Prod.mk.injEq]
  constructor
  · rintro ⟨r, ⟨hr, hs⟩, ⟨i, v⟩, hv, rfl, rfl⟩
    exact ⟨r, hr, hs, rfl, v, hv⟩
  · rintro ⟨r, hr, hs, rfl, v, hv⟩
    exact ⟨r, ⟨hr, hs⟩, (e, v), hv, rfl, rfl⟩

theorem wf_commitState {k : KvContext} (hm : cellWf 0#32 k.committed = true) (x : KvWindow) (seq len : Nat) :
    cellWf 0#32 (commitState k x seq len) = true :=
  List.foldlRecOn _ _ (motive := fun m => cellWf 0#32 m = true) hm fun _ hm _ _ => (get_setSome hm _ 0 _).1

theorem get_commitState {k : KvContext} {x : KvWindow} (hb : x.Bounded k) (hm : cellWf 0#32 k.committed = true) (seq len : Nat)
    {seq' slot e : Nat} (hs : slot < k.nstate) (he : e < k.stateElems) : (commitState k x seq len).get (stateIx k seq' slot e) =
      if seq' = seq then (match x.stateAt seq slot e len with
        | some b => b.2
        | none => k.committed.get (stateIx k seq slot e)) else k.committed.get (stateIx k seq' slot e) := by
  have hplace : ∀ p ∈ recordedElems x seq, stateIx k seq p.1 p.2 = stateIx k seq' slot e → seq = seq' ∧ p = (slot, e) := by
    rintro ⟨a, b⟩ hp h
    obtain ⟨r, hr, -, rfl, v, hv⟩ := mem_recordedElems.1 hp
    obtain ⟨h1, h2, h3⟩ := stateIx_inj (hb r hr).1 ((hb r hr).2 _ hv) hs he h
    exact ⟨h1, Prod.ext h2 h3⟩
  have hget := get_foldl_setSome (f := fun p => stateIx k seq p.1 p.2) (g := fun p => x.stateAt seq p.1 p.2 len)
    (o := x.stateAt seq slot e len) (j := stateIx k seq' slot e) (recordedElems x seq)
    (fun p hp h => by rw [(hplace p hp h).2]) hm
  refine hget.trans ?_
  by_cases hseq : seq' = seq
  · subst hseq
    rw [if_pos rfl]
    cases hst : x.stateAt seq' slot e len with
    | none => exact ite_self _
    | some b =>
      refine if_pos (by_contra fun hnone => ?_)
      obtain ⟨⟨r, ⟨hr, h1, h2, -, hsome⟩, -⟩, -⟩ := (stateAt_spec x seq' slot e len).2 b.1 b.2 hst
      obtain ⟨v, hv⟩ := Option.isSome_iff_exists.1 hsome
      exact hnone ⟨(slot, e), mem_recordedElems.2 ⟨r, hr, h1, h2, v, mem_of_assocGet hv⟩, rfl⟩
  · rw [if_neg hseq, if_neg]
    rintro ⟨p, hp, h⟩
    exact hseq (hplace p hp h).1.symm

/-! ## All sequences of a window -/

/-- The sequence is one of the window's first m. -/
abbrev KvWindow.HoldsBelow (x : KvWindow) (m seq : Nat) : Prop := x.first ≤ seq ∧ seq < x.first + m

section
variable (k : KvContext) (w : Nat) (n : Nat → Nat) (m : Nat)

/-- Lengths, pages and state after the commit of a window's first m sequences (R284). -/
def lenAfter (seq : Nat) : Nat :=
  if (k.window w).HoldsBelow m seq then committedLen k w (n (seq - (k.window w).first)) seq else k.len seq

def keptAfter (e : KvEntry) : Bool :=
  decide ¬((k.window w).HoldsBelow m e.seq ∧ e.wh = true ∧ e.win = w ∧ lenAfter k w n m e.seq ≤ e.page * 64)

def entryAfter (e : KvEntry) : KvEntry :=
  if (k.window w).HoldsBelow m e.seq then
    zeroDrafts k (lenAfter k w n m e.seq) (min (lenAfter k w n m e.seq + 255) (k.capacity - 1))
      (if e.wh = true ∧ e.win = w then { e with wh := false, win := 0 } else e)
  else e

def stateAfter (seq slot e : Nat) : Word :=
  if (k.window w).HoldsBelow m seq then (match (k.window w).stateAt seq slot e (lenAfter k w n m seq) with
    | some b => b.2
    | none => k.committed.get (stateIx k seq slot e))
  else k.committed.get (stateIx k seq slot e)

/-- A context whose window w has committed its first m sequences. -/
structure CommittedBelow (q : KvContext) : Prop where
  frame : ∃ ls es cm, q = { k with lens := ls, entries := es, committed := cm }
  wf : cellWf 0 q.lens = true
  lens : ∀ seq, q.len seq = lenAfter k w n m seq
  entries : q.entries = (k.entries.filter (keptAfter k w n m)).map (entryAfter k w n m)
  state : cellWf 0#32 k.committed = true → (k.window w).Bounded k → cellWf 0#32 q.committed = true ∧
    ∀ seq slot e, slot < k.nstate → e < k.stateElems → q.committed.get (stateIx k seq slot e) = stateAfter k w n m seq slot e

variable {k w n m}

theorem not_holdsBelow_zero (x : KvWindow) (seq : Nat) : ¬ x.HoldsBelow 0 seq := fun h => by omega

theorem not_holdsBelow_next (x : KvWindow) (m : Nat) : ¬ x.HoldsBelow m (x.first + m) := fun h => by omega

theorem holdsBelow_next (x : KvWindow) (m : Nat) : x.HoldsBelow (m + 1) (x.first + m) := by
  unfold KvWindow.HoldsBelow
  omega

theorem holdsBelow_succ_of_ne {x : KvWindow} {seq : Nat} (h : seq ≠ x.first + m) : x.HoldsBelow (m + 1) seq ↔ x.HoldsBelow m seq := by
  unfold KvWindow.HoldsBelow
  omega

theorem lenAfter_succ_of_ne {seq : Nat} (h : seq ≠ (k.window w).first + m) : lenAfter k w n (m + 1) seq = lenAfter k w n m seq := by
  simp only [lenAfter, holdsBelow_succ_of_ne h]

theorem lenAfter_next : lenAfter k w n (m + 1) ((k.window w).first + m) = committedLen k w (n m) ((k.window w).first + m) := by
  rw [lenAfter, if_pos (holdsBelow_next _ m), Nat.add_sub_cancel_left]

theorem lenAfter_before : lenAfter k w n m ((k.window w).first + m) = k.len ((k.window w).first + m) :=
  if_neg (not_holdsBelow_next _ m)

theorem entryAfter_of_not (e : KvEntry) (h : ¬ (k.window w).HoldsBelow m e.seq) : entryAfter k w n m e = e := if_neg h

theorem entryAfter_seq (e : KvEntry) : (entryAfter k w n m e).seq = e.seq := by
  unfold entryAfter
  split
  · rw [zeroDrafts_frame]
    split <;> rfl
  · rfl

theorem committedBelow_zero (hl : cellWf 0 k.lens = true) : CommittedBelow k w n 0 k where
  frame := ⟨_, _, _, rfl⟩
  wf := hl
  lens seq := (if_neg (not_holdsBelow_zero _ seq)).symm
  entries := by
    have hkept : k.entries.filter (keptAfter k w n 0) = k.entries :=
      List.filter_eq_self.2 fun e _ => decide_eq_true fun h => not_holdsBelow_zero _ _ h.1
    have hsame : entryAfter k w n 0 = id := funext fun e => entryAfter_of_not e (not_holdsBelow_zero _ _)
    rw [hkept, hsame, List.map_id]
  state hc _ := ⟨hc, fun seq _ _ _ _ => (if_neg (not_holdsBelow_zero _ seq)).symm⟩

/-- An entry of the next sequence is kept and changed by its commit, and any other stays as it was. -/
theorem kept_entry_succ (k : KvContext) (w : Nat) (n : Nat → Nat) (m : Nat) (e : KvEntry) : let seq := (k.window w).first + m
    let len := committedLen k w (n m) seq
    (keptAfter k w n (m + 1) e = ((!((entryAfter k w n m e).mine w seq && decide (len ≤ (entryAfter k w n m e).page * 64))) &&
      keptAfter k w n m e)) ∧
    entryAfter k w n (m + 1) e = ((entryAfter k w n m e).settled w seq).dropDrafts k seq len := by
  intro seq len
  by_cases hseq : e.seq = seq
  · have hnot : ¬ (k.window w).HoldsBelow m e.seq := by rw [hseq]; exact not_holdsBelow_next _ m
    have hheld : (k.window w).HoldsBelow (m + 1) e.seq := by rw [hseq]; exact holdsBelow_next _ m
    have hlen : lenAfter k w n (m + 1) e.seq = len := by rw [hseq]; exact lenAfter_next
    have hmine : e.mine w seq = true ↔ e.wh = true ∧ e.win = w := by simp [KvEntry.mine, hseq]
    rw [entryAfter_of_not e hnot]
    constructor
    · rw [Bool.eq_iff_iff]
      have hfalse : e.mine w seq = false ↔ ¬(e.wh = true ∧ e.win = w) := by rw [← hmine, Bool.not_eq_true]
      simp only [keptAfter, hnot, hlen, false_and, not_false_eq_true, decide_true, Bool.and_true,
        decide_eq_true_eq, Bool.not_eq_true', Bool.and_eq_false_iff, hfalse, decide_eq_false_iff_not]
      tauto
    · simp only [entryAfter, if_pos hheld, hlen, KvEntry.settled, hmine, KvEntry.dropDrafts]
      refine (if_pos ?_).symm
      split <;> exact hseq
  · have hheld := holdsBelow_succ_of_ne hseq
    have hlen := lenAfter_succ_of_ne (n := n) hseq
    have hseq' : (entryAfter k w n m e).seq ≠ seq := fun h => hseq ((entryAfter_seq e).symm.trans h)
    have hmine : (entryAfter k w n m e).mine w seq = false := by simp [KvEntry.mine, hseq']
    constructor
    · simp only [keptAfter, hheld, hlen, hmine, Bool.false_and, Bool.not_false, Bool.true_and]
    · have hkeep : (entryAfter k w n m e).settled w seq = entryAfter k w n m e :=
        if_neg (by rw [hmine]; exact Bool.false_ne_true)
      rw [hkeep, KvEntry.dropDrafts, if_neg hseq']
      simp only [entryAfter, hheld, hlen]

theorem committedBelow_succ {q : KvContext} (h : CommittedBelow k w n m q) :
    CommittedBelow k w n (m + 1) (commitSeq q w (n m) ((k.window w).first + m)) := by
  obtain ⟨ls, es, cm, rfl⟩ := h.frame
  have hlens := h.lens
  have hentries := h.entries
  have hstate := h.state
  have hwf := h.wf
  let seq := (k.window w).first + m
  have hlen : committedLen { k with lens := ls, entries := es, committed := cm } w (n m) seq = committedLen k w (n m) seq :=
    congrArg (· + min (n m) ((k.window w).depthOf seq)) ((hlens seq).trans lenAfter_before)
  have hsplit := kept_entry_succ k w n m
  rw [commitSeq_eq, hlen]
  refine ⟨⟨_, _, _, rfl⟩, cellWf_cellSet _ hwf _ _, fun a => ?_, ?_, fun hc hb => ?_⟩
  · refine (cellGet_cellSet _ ls none _ _ _ hwf).trans ?_
    by_cases ha : a = seq
    · rw [if_pos ha, ha]
      exact lenAfter_next.symm
    · rw [if_neg ha, lenAfter_succ_of_ne ha]
      exact hlens a
  · change ((es.filter _).map _).map _ = _
    rw [show es = _ from hentries, List.filter_map, List.filter_filter, List.map_map, List.map_map]
    have hfilter : k.entries.filter (fun e => ((fun e : KvEntry => !(e.mine w seq && decide
        (committedLen k w (n m) seq ≤ e.page * 64))) ∘ entryAfter k w n m) e && keptAfter k w n m e) =
        k.entries.filter (keptAfter k w n (m + 1)) := List.filter_congr fun e _ => (hsplit e).1.symm
    rw [hfilter]
    refine List.map_congr_left fun e _ => ?_
    exact (hsplit e).2.symm
  · obtain ⟨hcm, hget⟩ := hstate hc hb
    refine ⟨wf_commitState hcm _ seq _, fun a slot e hs he => ?_⟩
    refine (get_commitState (k := { k with lens := ls, entries := es, committed := cm }) hb hcm seq
      (committedLen k w (n m) seq) (seq' := a) hs he).trans ?_
    by_cases ha : a = seq
    · have hold := hget seq slot e hs he
      rw [stateAfter, if_neg (not_holdsBelow_next _ m)] at hold
      rw [ha, stateAfter, if_pos rfl, if_pos (holdsBelow_next _ m), lenAfter_next]
      cases (k.window w).stateAt seq slot e (committedLen k w (n m) seq) with
      | none => exact hold
      | some b => rfl
    · rw [if_neg ha, stateAfter]
      simp only [holdsBelow_succ_of_ne ha, lenAfter_succ_of_ne ha]
      exact hget a slot e hs he

theorem committedBelow_foldl (hl : cellWf 0 k.lens = true) (m : Nat) : CommittedBelow k w n m
    ((List.range m).foldl (fun k' i => commitSeq k' w (n i) ((k.window w).first + i)) k) := by
  induction m with
  | zero => exact committedBelow_zero hl
  | succ m ih =>
    rw [List.range_succ, List.foldl_concat]
    exact committedBelow_succ ih
end

/-- The context that a commit of a window gives, before the window becomes IDLE. -/
def commitAll (k : KvContext) (w : Nat) (n : Nat → Nat) : KvContext :=
  (List.range (k.window w).count).foldl (fun k' i => commitSeq k' w (n i) ((k.window w).first + i)) k

theorem commitWindow_eq (k : KvContext) (w : Nat) (n : Nat → Nat) : commitWindow k w n =
    (commitAll k w n).setWindow w { open_ := false, first := 0, count := 0, depth := [], records := [] } := rfl


end Sys2Proof.Machine
end

section
/-! PROOF. What each operation of KOPEN and KMAP makes of its context and returns (07 R283, R285, Tables 7.2 and 7.9). -/

namespace Sys2Proof.Machine

/-- The sequence, head and page that a page selector names. -/
def KvCtl.seq (c : KvCtl) : Nat := (c.sel.extractLsb' 0 20).toNat
def KvCtl.head (c : KvCtl) : Nat := (c.sel.extractLsb' 20 8).toNat
def KvCtl.page (c : KvCtl) : Nat := (c.sel.extractLsb' 28 16).toNat

/-! ## Freed entries -/

section
variable {k : KvContext} {seq head page : Nat}

theorem entry?_unmap_same : (k.unmap seq head page).entry? seq head page = none := by
  refine List.find?_eq_none.2 fun e he h => ?_
  have hnot := (List.mem_filter.1 he).2
  rw [show e.isAt seq head page = true from h] at hnot
  cases hnot

theorem entry?_unmap_other {a b d : Nat} (h : (a, b, d) ≠ (seq, head, page)) :
    (k.unmap seq head page).entry? a b d = k.entry? a b d := by
  have hother : ∀ e : KvEntry, e.isAt a b d = true → (!e.isAt seq head page) = true := by
    intro e he
    rw [Bool.not_eq_true', Bool.eq_false_iff]
    intro h'
    obtain ⟨rfl, rfl, rfl⟩ := isAt_iff.1 he
    obtain ⟨rfl, rfl, rfl⟩ := isAt_iff.1 h'
    exact h rfl
  refine (List.find?_filter ..).trans (congrArg (fun p => k.entries.find? p) (funext fun e => Bool.eq_iff_iff.2 ?_))
  rw [decide_eq_true_eq]
  exact ⟨fun h' => h'.2, fun he => ⟨hother e he, he⟩⟩
end

/-! ## One equation for each operation -/

section
variable {k : KvContext} {c : KvCtl}

theorem ctlApply_alloc (h : c.op = .alloc) : ctlApply k c =
    if (k.entry? c.seq c.head c.page).isSome then (k, 0)
    else if k.hasPage then (k.alloc c.seq c.head c.page false 0, 0) else (k, 1) := by
  unfold ctlApply
  rw [h]
  rfl

theorem ctlApply_free (h : c.op = .free) : ctlApply k c =
    if (k.entry? c.seq c.head c.page).isSome then (k.unmap c.seq c.head c.page, 0) else (k, 1) := by
  unfold ctlApply
  rw [h]
  rfl

theorem ctlApply_len (h : c.op = .len) :
    ctlApply k c = ({ k with lens := k.lens.set c.seq (c.sel.extractLsb' 40 24).toNat }, 0) := by
  unfold ctlApply
  rw [h]
  rfl

theorem ctlApply_query (h : c.op = .query) : ctlApply k c = (k, (entryValue k c.seq c.head c.page).toNat) := by
  unfold ctlApply
  rw [h]
  rfl

theorem ctlApply_kopen (h : c.op = .kopen) : ctlApply k c = (k.setWindow c.window
    { open_ := true, first := c.seq, count := (c.sel.extractLsb' 20 12).toNat + 1, depth := [], records := [] }, 0) := by
  unfold ctlApply
  rw [h]
  rfl

theorem ctlApply_move_absent (h : c.op = .fetch ∨ c.op = .evict) (he : k.entry? c.seq c.head c.page = none) :
    ctlApply k c = (k, 1) := by
  unfold KvCtl.seq KvCtl.head KvCtl.page at he
  rcases h with h | h <;> simp only [ctlApply, h, pageSel, he]

section
variable {e : KvEntry} (he : k.entry? c.seq c.head c.page = some e)
include he

theorem ctlApply_move_poisoned (h : c.op = .fetch ∨ c.op = .evict) (hs : e.state = .poisoned) : ctlApply k c = (k, 4) := by
  unfold KvCtl.seq KvCtl.head KvCtl.page at he
  rcases h with h | h <;> simp only [ctlApply, h, pageSel, he, hs]

theorem ctlApply_fetch_resident (h : c.op = .fetch) (hs : e.state = .resident) : ctlApply k c = (k, 0) := by
  unfold KvCtl.seq KvCtl.head KvCtl.page at he
  simp only [ctlApply, h, pageSel, he, hs]

theorem ctlApply_fetch_secondTier (h : c.op = .fetch) (hs : e.state = .secondTier) :
    ctlApply k c = (k.mapEntry c.seq c.head c.page fun p => { p with fetch := 1 }, 0) := by
  unfold KvCtl.seq KvCtl.head KvCtl.page at *
  simp only [ctlApply, h, pageSel, he, hs]

theorem ctlApply_evict_secondTier (h : c.op = .evict) (hs : e.state = .secondTier) : ctlApply k c = (k, 0) := by
  unfold KvCtl.seq KvCtl.head KvCtl.page at he
  simp only [ctlApply, h, pageSel, he, hs]

theorem ctlApply_evict_resident (h : c.op = .evict) (hs : e.state = .resident) :
    ctlApply k c = (k.mapEntry c.seq c.head c.page fun p => { p with state := .secondTier, fetch := 2 }, 0) := by
  unfold KvCtl.seq KvCtl.head KvCtl.page at *
  simp only [ctlApply, h, pageSel, he, hs]
end

/-- The page that `.alloc` takes, as it is zeroed. -/
theorem allocSpan_eq (k : KvContext) (c : KvCtl) : allocSpan k c =
    if c.op == .alloc && (k.entry? c.seq c.head c.page).isNone && k.hasPage then
      some (pageSpan k (Config.kvDpa k.id c.seq c.head c.page 0) (slotOfEnc k.defaultEnc)) else none := rfl
end

/-! ## What an operation that takes effect changes -/

section
variable {k : KvContext}

theorem mapEntry_changes {q : KvContext} {seq head page : Nat} {f : KvEntry → KvEntry} {e : KvEntry}
    (hq : q = k.mapEntry seq head page f) (hf : ∀ e, e.isAt seq head page = true → (f e).isAt seq head page = true)
    (he : k.entry? seq head page = some e) :
    q = { k with entries := q.entries } ∧ (∀ a b d, (a, b, d) ≠ (seq, head, page) → q.entry? a b d = k.entry? a b d) ∧
      q.entry? seq head page = some (f e) := by
  subst hq
  exact ⟨rfl, fun _ _ _ h => k.entry?_mapEntry_other hf h, (k.entry?_mapEntry_same hf).trans (congrArg _ he)⟩

theorem alloc_changes {q : KvContext} {seq head page : Nat} (hq : q = k.alloc seq head page false 0)
    (he : k.entry? seq head page = none) :
    q = { k with entries := q.entries } ∧ (∀ a b d, (a, b, d) ≠ (seq, head, page) → q.entry? a b d = k.entry? a b d) ∧
      q.entries.length = k.entries.length + 1 ∧ q.entry? seq head page = some (newEntry k seq head page false 0) := by
  subst hq
  exact ⟨rfl, fun _ _ _ h => k.entry?_alloc_other _ _ _ _ _ h, List.length_append, k.entry?_alloc_same _ _ _ _ _ he⟩

theorem unmap_changes {q : KvContext} {seq head page : Nat} (hq : q = k.unmap seq head page) :
    q.entry? seq head page = none ∧ (∀ a b d, (a, b, d) ≠ (seq, head, page) → q.entry? a b d = k.entry? a b d) ∧
      q = { k with entries := q.entries, requants := q.requants } := by
  subst hq
  exact ⟨entry?_unmap_same, fun _ _ _ h => entry?_unmap_other h, rfl⟩

variable {c : KvCtl}

section
variable (h : c.op = .alloc) (he : k.entry? c.seq c.head c.page = none)
include h he

theorem ctlApply_alloc_full (hp : k.hasPage = false) : ctlApply k c = (k, 1) := by
  simp only [ctlApply_alloc h, he, hp, Option.isSome_none, Bool.false_eq_true, if_false]

theorem ctlApply_alloc_maps (hp : k.hasPage = true) : ctlApply k c = (k.alloc c.seq c.head c.page false 0, 0) := by
  simp only [ctlApply_alloc h, he, hp, Option.isSome_none, Bool.false_eq_true, if_false, if_true]

theorem allocSpan_taken (hp : k.hasPage = true) : allocSpan k c =
    some (pageSpan k (Config.kvDpa k.id c.seq c.head c.page 0) (slotOfEnc k.defaultEnc)) := by
  rw [allocSpan_eq, h, he, hp]
  rfl
end

theorem allocSpan_none (h : c.op ≠ .alloc ∨ k.entry? c.seq c.head c.page ≠ none ∨ k.hasPage = false) : allocSpan k c = none := by
  rw [allocSpan_eq, if_neg]
  rw [Bool.and_eq_true, Bool.and_eq_true, beq_iff_eq, Option.isNone_iff_eq_none]
  rintro ⟨⟨hop, hnone⟩, hpage⟩
  rcases h with h | h | h
  · exact h hop
  · exact h hnone
  · exact Bool.false_ne_true (h.symm.trans hpage)

theorem ctlApply_free_absent (h : c.op = .free) (he : k.entry? c.seq c.head c.page = none) : ctlApply k c = (k, 1) := by
  simp only [ctlApply_free h, he, Option.isSome_none, Bool.false_eq_true, if_false]

theorem ctlApply_free_maps (h : c.op = .free) (he : k.entry? c.seq c.head c.page ≠ none) :
    ctlApply k c = (k.unmap c.seq c.head c.page, 0) :=
  (ctlApply_free h).trans (if_pos (Option.isSome_iff_ne_none.2 he))
end

/-! ## An entry as `.query` returns it (Table 7.2) -/

/-- The low half of a queried entry. -/
def entryBits (e : KvEntry) : BitVec (2 + 1 + 4 + 1 + 2 + 11 + 11) :=
  (match e.state with | .unmapped => 0#2 | .resident => 1#2 | .secondTier => 2#2 | .poisoned => 3#2) ++ BitVec.ofBool e.wh ++
    (if e.wh then BitVec.ofNat 4 e.win else 0#4) ++ BitVec.ofBool e.busy ++ BitVec.ofNat 2 e.fetch ++ 0#11 ++ e.enc

section
variable {k : KvContext} {seq head page : Nat}

theorem entryValue_absent (h : k.entry? seq head page = none) :
    entryValue k seq head page = BitVec.ofNat 32 (k.len seq) ++ 0#32 := by
  simp only [entryValue, h]

theorem entryValue_mapped {e : KvEntry} (h : k.entry? seq head page = some e) :
    entryValue k seq head page = BitVec.ofNat 32 (k.len seq) ++ entryBits e := by
  unfold entryValue
  rw [h]
  rfl

theorem entryValue_len : (entryValue k seq head page).extractLsb' 32 32 = BitVec.ofNat 32 (k.len seq) := by
  cases h : k.entry? seq head page with
  | none => rw [entryValue_absent h, extractAbove _ _ (Nat.le_refl _), Nat.sub_self, extractAll]
  | some e => rw [entryValue_mapped h, extractAbove _ _ (Nat.le_refl _), Nat.sub_self, extractAll]

end

theorem entryBits_state (e : KvEntry) : (entryBits e).extractLsb' 30 2 =
    (match e.state with | .unmapped => 0#2 | .resident => 1#2 | .secondTier => 2#2 | .poisoned => 3#2) := by
  unfold entryBits
  simp (disch := omega) only [extractAbove, Nat.reduceSub, extractAll]

theorem entryBits_wh (e : KvEntry) : (entryBits e).getLsbD 29 = e.wh := by
  unfold entryBits
  simp (disch := omega) only [bitAbove, bitBelow, Nat.reduceSub, bitOfBool]

theorem entryBits_win (e : KvEntry) : (entryBits e).extractLsb' 25 4 = if e.wh then BitVec.ofNat 4 e.win else 0#4 := by
  unfold entryBits
  simp (disch := omega) only [extractAbove, Nat.reduceSub, extractLow]

theorem entryBits_busy (e : KvEntry) : (entryBits e).getLsbD 24 = e.busy := by
  unfold entryBits
  simp (disch := omega) only [bitAbove, bitBelow, Nat.reduceSub, bitOfBool]

theorem entryBits_fetch (e : KvEntry) : (entryBits e).extractLsb' 22 2 = BitVec.ofNat 2 e.fetch := by
  unfold entryBits
  simp (disch := omega) only [extractAbove, Nat.reduceSub, extractLow]

theorem entryBits_zero (e : KvEntry) : (entryBits e).extractLsb' 11 11 = 0#11 := by
  unfold entryBits
  simp (disch := omega) only [extractAbove, Nat.reduceSub, extractLow]

theorem entryBits_enc (e : KvEntry) : (entryBits e).extractLsb' 0 11 = e.enc := by
  unfold entryBits
  exact extractLow _ _

/-! ## Together -/

/-- What a commit leaves, said of each part of the context (R284). -/
theorem commitWindow_committed {k : KvContext} {w : Nat} (n : Nat → Nat) (hw : w < k.windows.length) (hl : cellWf 0 k.lens = true) :
    let u := commitWindow k w n
    let m := (k.window w).count
    (u.window w).open_ = false ∧ (∀ v, v ≠ w → u.window v = k.window v) ∧ (∀ seq, u.len seq = lenAfter k w n m seq) ∧
    u = { k with lens := u.lens, windows := u.windows, entries := u.entries, committed := u.committed } ∧
    u.entries = (k.entries.filter (keptAfter k w n m)).map (entryAfter k w n m) ∧
    (cellWf 0#32 k.committed = true → (k.window w).Bounded k → ∀ seq slot e, slot < k.nstate → e < k.stateElems →
      u.committed.get (stateIx k seq slot e) = stateAfter k w n m seq slot e) := by
  intro u m
  have hall : CommittedBelow k w n m (commitAll k w n) := committedBelow_foldl hl m
  obtain ⟨ls, es, cm, hq⟩ := hall.frame
  have hu : u = (commitAll k w n).setWindow w { open_ := false, first := 0, count := 0, depth := [], records := [] } :=
    commitWindow_eq k w n
  have hwindows : (commitAll k w n).windows = k.windows := by rw [hq]
  refine ⟨?_, fun v hv => ?_, hall.lens, ?_, hall.entries, fun hc hb => (hall.state hc hb).2⟩
  · rw [hu, KvContext.window_setWindow_same _ (hwindows ▸ hw)]
  · rw [hu, KvContext.window_setWindow_other _ _ hv, KvContext.window, hwindows]
    rfl
  · rw [hu, hq]
    rfl

/-! Some bytes of a write lie on the other die, or all lie at home. -/

theorem any_far_iff {ps : List KvSpan} {core : Nat} : (ps.any fun p => homeDie p.1 != dieOf core) = true ↔
    ∃ p ∈ ps, homeDie p.1 ≠ dieOf core := by
  simp only [List.any_eq_true, bne_iff_ne]

theorem any_span_iff {o : Option KvSpan} {core : Nat} : (o.any fun p => homeDie p.1 != dieOf core) = true ↔
    ∃ p ∈ o, homeDie p.1 ≠ dieOf core := by
  cases o <;> simp

/-- Settles O34: the commit point keeps the counted drafts at one instant, here or with its message's arrival; KOPEN and KMAP do what
their tables say; and pages move between the tiers. -/
theorem kvEventsApply : Obligations.KvEventsApply := by
  refine ⟨fun s g c hg hp hc hst hf => ⟨?commit, fun hcv hr => execKvCommitPoint_waits hg hp hc hst hf hcv hr⟩, ?messages,
    fun k w n hw hl => commitWindow_committed n hw hl, fun x seq slot e below => stateAt_spec x seq slot e below,
    fun k lo hi e => ⟨zeroDrafts_frame k lo hi e, get_elems_zeroDrafts k lo hi e, get_metas_zeroDrafts k lo hi e⟩,
    ?moves, ?lands, ?tables⟩
  case commit =>
    intro t k b ht hk hb count held counts n drop u
    have hgo := execKvCommitPoint_released hg hp hc hst hf ht hk hb
    rw [exec_kvCommitPoint, hgo]
    refine ⟨fun h => ?_, fun h ho => ?_, fun h ho hbytes => ⟨fun hnear => ?_, fun hfar => ?_⟩⟩
    · rw [commitReleased_held h]
    · rw [commitReleased_idle hc h ho]
    · rw [commitReleased_open hc h ho hbytes, if_neg]
      · rfl
      · intro h
        obtain ⟨p, hp, hne⟩ := any_far_iff.1 h
        exact hne (hnear p hp)
    · rw [commitReleased_open hc h ho hbytes, if_pos]
      · rfl
      · exact any_far_iff.2 hfar
  case messages =>
    intro s g c k core slot id die v counts hg hp
    refine ⟨fun hk hc ho => arriveCtl_commit hg hp hk hc ho counts, fun hk hc => arriveCtl_alloc hg hp hk hc counts,
      fun hc => ?_, fun hc => ?_⟩
    · exact (ctlAnswered_ends hg hp v).trans (endCtl_commit hc s core slot id v)
    · refine (ctlAnswered_ends hg hp v).trans ?_
      rw [endCtl_maps (by rw [hc]; decide) (by rw [hc]; decide), if_neg (by rw [hc]; decide)]
  case moves =>
    intro s k e hk he edit moved fetched
    obtain ⟨hid, hseq, hhead, hpage⟩ := sel_names hk he
    refine ⟨fun hf hs => ?_, fun hf hs => ?_, fun hf => ?_, fun hf => ?_, fun hf => ?_⟩
    · rw [exec_kvFetchComplete, execKvFetchComplete_fetched hk he hf]
      simp only [if_pos hs, movePage_eq, movedPage, hid, hseq, hhead, hpage]
      rfl
    · rw [exec_kvFetchComplete, execKvFetchComplete_fetched hk he hf]
      simp only [if_neg hs, hid, hseq, hhead, hpage]
      rfl
    · rw [exec_kvFetchComplete, execKvFetchComplete_idle hk he hf]
    · rw [exec_kvEvictComplete, execKvEvictComplete_evicted hk he hf]
      simp only [movePage_eq, movedPage, hid, hseq, hhead, hpage]
      rfl
    · rw [exec_kvEvictComplete, execKvEvictComplete_idle hk he hf]
  case lands =>
    intro s g c k hg hp h1 h2 hst hf hk hcheck t u
    rw [exec_kvStatusLand, landKvOp_ctl hg hp h1 h2 hst hf hk hcheck]
    refine ⟨fun hnear => ?_, fun hfar => ?_⟩
    · rw [if_neg, endCtl_maps h1 h2]
      · rfl
      · intro h
        obtain ⟨p, hp, hne⟩ := any_span_iff.1 h
        exact hne (hnear p hp)
    · rw [if_pos]
      · rfl
      · exact any_span_iff.2 hfar
  case tables =>
    intro k c q v seq head page others pool
    refine ⟨fun h e he => ?allocMapped, fun h he hp => ?allocFull, fun h he hp => ?alloc, fun h => ?noSpan, fun h he => ?freeAbsent,
      fun h he => ?free, fun h he => ?moveAbsent, fun e h he hs => ?movePoisoned,
      fun e he hs => ⟨fun h => ?fetchResident, fun h => ?evict⟩, fun e he hs => ⟨fun h => ?evictSecondTier, fun h => ?fetch⟩,
      fun h => ?len, fun h => ?query, fun h => ?kopen⟩
    case allocMapped => exact Prod.ext_iff.1 ((ctlApply_alloc h).trans (if_pos (Option.isSome_iff_exists.2 ⟨e, he⟩)))
    case allocFull => exact Prod.ext_iff.1 (ctlApply_alloc_full h he hp)
    case alloc =>
      obtain ⟨hq, hv⟩ := Prod.ext_iff.1 (ctlApply_alloc_maps h he hp)
      obtain ⟨hframe, hother, hlen, hentry⟩ := alloc_changes (q := q) hq he
      exact ⟨hv, hframe, hother, hlen, allocSpan_taken h he hp, _, hentry, rfl, rfl, rfl, rfl, rfl, fun _ => ⟨rfl, rfl⟩⟩
    case noSpan => exact allocSpan_none h
    case freeAbsent => exact Prod.ext_iff.1 (ctlApply_free_absent h he)
    case free =>
      obtain ⟨hq, hv⟩ := Prod.ext_iff.1 (ctlApply_free_maps h he)
      exact ⟨hv, unmap_changes (q := q) hq⟩
    case moveAbsent => exact Prod.ext_iff.1 (ctlApply_move_absent h he)
    case movePoisoned => exact Prod.ext_iff.1 (ctlApply_move_poisoned he h hs)
    case fetchResident => exact Prod.ext_iff.1 (ctlApply_fetch_resident he h hs)
    case evict =>
      obtain ⟨hq, hv⟩ := Prod.ext_iff.1 (ctlApply_evict_resident he h hs)
      exact ⟨hv, mapEntry_changes (q := q) hq (fun _ hp => hp) he⟩
    case evictSecondTier => exact Prod.ext_iff.1 (ctlApply_evict_secondTier he h hs)
    case fetch =>
      obtain ⟨hq, hv⟩ := Prod.ext_iff.1 (ctlApply_fetch_secondTier he h hs)
      exact ⟨hv, mapEntry_changes (q := q) hq (fun _ hp => hp) he⟩
    case len =>
      obtain ⟨hq, hv⟩ := Prod.ext_iff.1 (ctlApply_len (k := k) h)
      refine ⟨hv, ?_, fun hl a => ?_⟩
      · rw [show q = _ from hq]
      · rw [show q = _ from hq]
        exact cellGet_cellSet 0 k.lens none _ _ _ hl
    case query =>
      obtain ⟨hq, hv⟩ := Prod.ext_iff.1 (ctlApply_query (k := k) h)
      refine ⟨hq, fun hlen => ?_⟩
      intro x
      have hx : x = entryValue k seq head page :=
        (congrArg (BitVec.ofNat 64) hv).trans ((BitVec.ofNat_toNat 64 _).trans (BitVec.setWidth_eq _))
      refine ⟨?_, ?_, fun he => ?_, fun e he => ?_⟩
      · rw [show v = _ from hv]
        exact BitVec.isLt _
      · rw [hx, entryValue_len, BitVec.toNat_ofNat]
        exact Nat.mod_eq_of_lt hlen
      · rw [hx, entryValue_absent he]
        exact extractLow _ _
      · rw [hx, entryValue_mapped he]
        exact ⟨(extractBelow _ _ (by omega)).trans (entryBits_state e), (bitBelow _ _ (by omega)).trans (entryBits_wh e),
          (extractBelow _ _ (by omega)).trans (entryBits_win e), (bitBelow _ _ (by omega)).trans (entryBits_busy e),
          (extractBelow _ _ (by omega)).trans (entryBits_fetch e), (extractBelow _ _ (by omega)).trans (entryBits_zero e),
          (extractBelow _ _ (by omega)).trans (entryBits_enc e)⟩
    case kopen =>
      obtain ⟨hq, -⟩ := Prod.ext_iff.1 (ctlApply_kopen (k := k) h)
      rw [show q = _ from hq]
      refine ⟨rfl, fun hw => ⟨fun x hx => KvContext.window_setWindow_other _ _ hx, ?_⟩⟩
      rw [KvContext.window_setWindow_same _ hw]
      exact ⟨rfl, rfl, rfl, rfl, fun _ => rfl⟩

end Sys2Proof.Machine
end
